-- ==== Sys2Proof/Word.lean ====
section
/-!
DEFINITION. Sys2Proof/Word.lean: the word types of the device.

The spec's registers are 32 or 64 bits wide (01_register_pages.md R31), its physical addresses 48 bits
(R15), its microwords 192 bits (06_microword_and_control_store.md R139).
-/
namespace Sys2Proof

/-- One byte of memory. -/
abbrev Byte := BitVec 8

/-- A 32-bit register or lane word. -/
abbrev W32 := BitVec 32

/-- A 64-bit register. -/
abbrev W64 := BitVec 64

/-- The core numbers: AP_0 to AP_3 are 0 to 3 and SP is 4 (01_register_pages.md R18). -/
abbrev CoreId := Fin 5

end Sys2Proof
end

