-- ==== Sys2Proof/OperandTypes.lean ====
section
/-!
DEFINITION. Sys2Proof/OperandTypes.lean: the operands of the commands.
-/
namespace Sys2Proof

/-- Who makes a register access, and with what (01_register_pages.md R34): its REQ_ID (Table 1-12); for a core, the object
type of the sealed page capability whose bounds cover the address, and whether a capability permits a load
there. A PCIe function's and the debug master's authority is the device's own state. -/
structure Who where
  req : Nat
  otype : Option Nat
  load : Bool
  deriving DecidableEq, Repr

/-- SP with a sealed page capability of the boot object type 0x001 (R35, R375). -/
def Who.boot : Who := ⟨5, some 1, true⟩

/-- The fields of an M-format instruction (15_sahxel_programming_model.md R334): SZ, MODE, AUX, DISP. -/
structure MOperand where
  sz : BitVec 2
  mode : BitVec 4
  aux : BitVec 4
  disp : BitVec 16
  deriving DecidableEq, Repr

/-- The fields of a capability-group instruction (17_capabilities_and_exceptions.md R376): CD, CS, CT, SEL. -/
structure KOperand where
  cd : BitVec 4
  cs : BitVec 4
  ct : BitVec 4
  sel : BitVec 4
  deriving DecidableEq, Repr

/-- The fields of a coprocessor instruction (15 R334): CQ and CAP. -/
structure COperand where
  cq : BitVec 3
  cap : BitVec 4
  deriving DecidableEq, Repr

end Sys2Proof

namespace Sys2Proof.Machine

/-- What a decode of a page gives (R432, R435): as a read of it finds out. `symbols`: the most symbols corrected in one codeword. -/
inductive Decode where
  | clean
  | corrected (symbols : Nat)
  | uncorrectable
  | detectMiss
  | erased (symbols : Nat)
  | miscorrected
  deriving DecidableEq, Repr

/-- What a range scrub finds on a page: its decode, and the flits that fail their DETECT. -/
structure ScrubPage where
  page : Nat
  out : Decode
  failing : BitVec 32
  deriving DecidableEq, Repr

/-- A CAN frame: an 11-bit identifier lies in bits 28 to 18. -/
structure CanFrame where
  ide : Bool
  id : BitVec 29
  fdf : Bool
  brs : Bool
  esi : Bool
  rtr : Bool
  dlc : Fin 16
  data : List Byte
  deriving DecidableEq, Repr

/-- What ISO 11898-1 counts for a bus error: TEC by 8 or not, REC by 0, 1 or 8. -/
structure CanError where
  lec : Fin 7
  tec : Bool
  recUp : Fin 3
  deriving DecidableEq, Repr

/-- How a controller transaction ends (R470): in full, on a NACK, or on lost arbitration, after a number of bytes. -/
inductive I2cEnd where
  | full
  | nack (count : Nat)
  | arbLost (count : Nat)
  deriving DecidableEq, Repr

/-- An announcement: class, ID, channels, value slots, decode time, protocol (Table 14-2). -/
structure Announce where
  cls : BitVec 16
  id : BitVec 64
  nch : BitVec 8
  nval : BitVec 8
  dec : BitVec 16
  deriving DecidableEq, Repr

/-- A node's STATUS payload (Table 14-2). -/
structure NodeStatus where
  flags : BitVec 8
  lastSeq : BitVec 8
  gaps : BitVec 8
  late : BitVec 8
  dropped : BitVec 8
  deriving DecidableEq, Repr

/-- What the host side does with a descriptor's transfer: the bytes it supplies (host to device), how many bytes move before it ends
with UR, CA or a timeout, if it does, and the ranges of completions that carry EP, as (offset, length). -/
structure HostSide where
  data : List Byte
  fails : Option Nat
  ep : List (Nat × Nat)
  deriving DecidableEq, Repr

/-- A watchdog: the number of a core watchdog, or of a casement's. -/
inductive Wd where
  | core (k : Nat)
  | cas (c : Nat)
  deriving DecidableEq, Repr

/-- Where a job that misses its deadline stands (08 R200): at place `k` of a queue, or running on a sash. -/
inductive MissPlace where
  | queued (c : Fin 16) (k : Nat)
  | running (n : Fin 64)
  deriving DecidableEq, Repr

/-- The transfer that a flit belongs to (05 R137): the k-th delivery or commit on its way; the line at byte a of lane memory (of lane i) or
sash memory (none) of sash n, of a streamer or of a context copy; or a fabric access from or to sash n. `again`: the flit has been sent again. -/
inductive FlitPlace where
  | delivery (k : Nat)
  | commit (k : Nat)
  | line (n : Fin 64) (i : Option (Fin 4)) (a : Nat) (streamed : Bool) (again : Bool)
  | access (n : Fin 64) (again : Bool)
  deriving DecidableEq, Repr

/-- A flit as it was received (05 R137): what it carries, its payload and its CRC. -/
structure FlitRead where
  place : FlitPlace
  payload : List Byte
  crc : Byte
  deriving DecidableEq, Repr

/-- What the code of a fetched microword says (05 R114, R123). -/
inductive CodeCheck where
  | good | corrected | uncorrectable
  deriving DecidableEq, Repr

/-- A level that a fault ball takes (11 R251), and for how many ns it lasts at least. -/
structure BallLevel where
  active : Bool
  lasts : Nat
  deriving DecidableEq, Repr

/-- A frame at a MAC's receiver (21 R463): its bytes without the FCS, and the count of the tick in which the end of its SFD reached the MAC. -/
structure FrameRead where
  bytes : List Byte
  sfd : W64
  deriving DecidableEq, Repr

/-- The register of a generator that a write reaches (10 R228). -/
inductive PwmReg where
  | cmpSet | cmpClr | period
  deriving DecidableEq, Repr

/-- A watchdog page (13 R290): of a core or of a casement. -/
inductive WdPlace where
  | core (k : CoreId)
  | cas (c : Fin 16)
  deriving DecidableEq, Repr

/-- A PCIe write (21 R453, R454): to BAR0, to BAR2, to a word of the MSI-X table in BAR4, or to the configuration bits Bus Master Enable, D3hot,
MSI-X Enable and Function Mask. -/
inductive PcieWrite where
  | bar0 (off : BitVec 28) (bytes : List Byte)
  | bar2 (a : BitVec 37) (bytes : List Byte) (ep : Bool)
  | table (v : Fin 32) (word : Fin 4) (val : W32)
  | config (bme d3 msixEn msixMask : Bool)
  deriving DecidableEq, Repr

/-- A PCIe read (21 R453, R454): of BAR0, of BAR2, of a word of the MSI-X table or of its pending bits in BAR4. -/
inductive PcieRead where
  | bar0 (off : BitVec 28) (len : Nat)
  | bar2 (a : BitVec 37) (len : Nat)
  | table (v : Fin 32) (word : Fin 4)
  | pba
  deriving DecidableEq, Repr

end Sys2Proof.Machine
end

