-- ==== Sys2Proof/Syntax.lean ====
section
/-!
DEFINITION. Sys2Proof/Syntax.lean: the commands of the device, one constructor per row of the command table.

`w` says who makes a register access; `page` is a register page's address divided by 4096, `c` a casement, `n` a sash, generator,
comparator or other instance number of the block the row belongs to, `l` a Threshold link, `k` a logical core, `g` a trip
group, `x : Fin 2` an HBM stack, `f` a PCIe function. A command that stands for an event of the outside world or of the
passing of time carries what the device cannot know of itself: the levels, frames, codes and conditions that it meets.
-/
namespace Sys2Proof
open Machine

/-- A command. -/
inductive Instr where
  /-- REGISTER_WRITE (01 R31): of 2^sz bytes at address `a`. -/
  | registerWrite (w : Who) (a : BitVec 48) (sz : BitVec 2) (v : W64)
  /-- ENABLE_SET (01 R22). -/
  | enableSet (w : Who) (page : BitVec 36) (expert : Bool)
  /-- ENABLE_CLEAR (01 R24). -/
  | enableClear (w : Who) (page : BitVec 36) (expert : Bool)
  /-- BLOCK_IDLE (03 R74). -/
  | blockIdle (page : BitVec 36)
  /-- EXPERT_CHANGE (01 R25). -/
  | expertChange (w : Who) (page : BitVec 36) (en : Bool) (expert : Bool)
  /-- ERR_INFO_READ (01 R33). -/
  | errInfoRead (w : Who) (page : BitVec 36)
  /-- CLEARING_READ (00 R13): a read that is no peek, of 2^sz bytes at address `a`; of a register without such fields, an ordinary read. -/
  | clearingRead (w : Who) (a : BitVec 48) (sz : BitVec 2)
  /-- OWN_GO (01 R36). -/
  | ownGo (w : Who)
  /-- PORST_N_LOW (02 R49). -/
  | porstNLow
  /-- WRST_N_LOW (02 R49). -/
  | wrstNLow
  /-- RESET_PIN_RISE (02 R49): PORST_N (`porst`) or WRST_N. -/
  | resetPinRise (porst : Bool)
  /-- VDD_AON_FALL (23 R491). -/
  | vddAonFall
  /-- POWER_ON_RESET (03 R69). -/
  | powerOnReset
  /-- WARM_RESET (03 R69). -/
  | warmReset
  /-- RST_CTRL_WARM (03 R69). -/
  | rstCtrlWarm (w : Who)
  /-- RESET_SEQUENCE_END (03 R70): `testOk`: SP's pair passes its self-test; the images that the boot ROM finds in xSPI. -/
  | resetSequenceEnd (testOk : Bool) (flashA : List Byte) (flashB : List Byte)
  /-- FOUT_RELEASE (02 R50): `force`: the value written to FORCE beside RELEASE. -/
  | foutRelease (w : Who) (force : Bool)
  /-- FOUT_FORCE (02 R50). -/
  | foutForce (w : Who) (force : Bool)
  /-- CLOCK_LOSS (03 R58): the reference is absent, or the root PLL has lost lock. -/
  | clockLoss (noRef : Bool) (noLock : Bool)
  /-- SERDES_PLL_LOCK (03 R57): 0 Ethernet, 1 and 2 the Threshold halves. -/
  | serdesPllLock (i : Fin 3)
  /-- PWR_REQ_WRITE (03 R60). -/
  | pwrReqWrite (w : Who) (v : W32)
  /-- DOMAIN_TRANSITION_END (03 R61): domain `b` of Table 3-3; `testOk`: a pair that powers on passes its self-test. -/
  | domainTransitionEnd (b : Fin 31) (testOk : Bool)
  /-- STANDBY_ENTER (03 R65). -/
  | standbyEnter (w : Who)
  /-- TEMPERATURE_READING (03 R73): the eight trimmed readings in 1/16 °C. -/
  | temperatureReading (t : List (BitVec 16))
  /-- TS_PEAK_READ (03 R73): with or without the peek attribute. -/
  | tsPeakRead (w : Who) (peek : Bool)
  /-- ROLLBACK_ADV (03 R84). -/
  | rollbackAdv (w : Who)
  /-- REVOKE (03 R84). -/
  | revoke (w : Who) (slot : BitVec 2)
  /-- FIELD_GO (03 R84): FIELD_SEL. -/
  | fieldGo (w : Who) (sel : BitVec 4)
  /-- OTP_COMMAND_DONE (03 R84). -/
  | otpCommandDone
  /-- LT_NOW_LO_READ (04 R87). -/
  | ltNowLoRead (w : Who)
  /-- STEP_GO (04 R91). -/
  | stepGo (w : Who)
  /-- TRIM_SKIP (04 R90). -/
  | trimSkip
  /-- LAUNCH_FIRE (04 R95). -/
  | launchFire (c : Fin 16)
  /-- DEADLINE_MISS (04 R103). -/
  | deadlineMiss (x : MissPlace)
  /-- EV_SW_SET (04 R108). -/
  | evSwSet (w : Who) (q : BitVec 2) (v : W32)
  /-- EV_SW_CLR (04 R108). -/
  | evSwClr (w : Who) (q : BitVec 2) (v : W32)
  /-- MICROWORD_ISSUE (05 R114): what the fetched word's code found, and which words of memory (address, uncorrectably) have gone wrong by
  now (R123). -/
  | microwordIssue (n : Fin 64) (found : CodeCheck) (errs : List (Nat × Bool))
  /-- RESULT_WRITEBACK (05 R132): the (lane, unit) whose datapaths went wrong. -/
  | resultWriteback (n : Fin 64) (bad : List (Fin 4 × Fin 5))
  /-- REPLAY_FREEZE_END (05 R133): the (lane, unit) whose datapaths went wrong again. -/
  | replayFreezeEnd (n : Fin 64) (bad : List (Fin 4 × Fin 5))
  /-- WORD_END (05 R122). -/
  | wordEnd (n : Fin 64)
  /-- COMMIT_LAND (05 R127). -/
  | commitLand
  /-- INBOUND_DELIVERY (05 R126). -/
  | inboundDelivery
  /-- FLIT_RETRY (05 R137): the flit as received. -/
  | flitRetry (x : FlitRead)
  /-- WAIT_WAKE (06 R156). -/
  | waitWake (n : Fin 64)
  /-- WAIT_TIMEOUT (06 R156). -/
  | waitTimeout (n : Fin 64)
  /-- JOB_END (06 R155). -/
  | jobEnd (n : Fin 64)
  /-- BANK_SWAP (06 R164). -/
  | bankSwap (n : Fin 64)
  /-- LOAD_OPEN (06 R164). -/
  | loadOpen (w : Who) (n : Fin 64)
  /-- LOAD_CLOSE (06 R164). -/
  | loadClose (w : Who) (n : Fin 64)
  /-- LOAD_CHECK (06 R164). -/
  | loadCheck (w : Who) (n : Fin 64)
  /-- LOAD_CHECK_DONE (06 R164). -/
  | loadCheckDone (n : Fin 64)
  /-- LOAD_SWAP (06 R164): `isOpen`: the value written to OPEN beside SWAP. -/
  | loadSwap (w : Who) (n : Fin 64) (isOpen : Bool)
  /-- LOAD_CANCEL (06 R165): `isOpen`: the value written to OPEN beside CANCEL. -/
  | loadCancel (w : Who) (n : Fin 64) (isOpen : Bool)
  /-- EVSEL_WRITE (06 R157): event `e` for EVENT_k. -/
  | evselWrite (w : Who) (n : Fin 64) (k : BitVec 4) (e : BitVec 11)
  /-- TPL_PROG_WRITE (07 R177). -/
  | tplProgWrite (w : Who) (t : Fin 512) (v : W32)
  /-- TEMPLATE_WRITE_BACK (07 R171). -/
  | templateWriteBack (n : Fin 64)
  /-- JQ_POST (08 R188): DESC and DL_OFS. -/
  | jqPost (w : Who) (c : Fin 16) (desc : BitVec 8) (ofs : W32)
  /-- FALLBACK_POST (08 R199). -/
  | fallbackPost
  /-- JOB_DEQUEUE (08 R192). -/
  | jobDequeue (n : Fin 64)
  /-- JOB_STEAL (08 R196). -/
  | jobSteal (n : Fin 64)
  /-- JOB_WRITE_BACK_DONE (08 R195). -/
  | jobWriteBackDone (n : Fin 64)
  /-- JQ_FLUSH (08 R201). -/
  | jqFlush (w : Who) (c : Fin 16)
  /-- MONITOR_DELIVERY (09 R205). -/
  | monitorDelivery (m : Fin 256)
  /-- MODEL_STATE_UPDATE (09 R205). -/
  | modelStateUpdate (m : Fin 256)
  /-- RESIDUAL_JUDGE (09 R208). -/
  | residualJudge (m : Fin 256)
  /-- PEEPHOLE_VTRIP (09 R209). -/
  | peepholeVtrip (m : Fin 256)
  /-- INJECTION_UPDATE (09 R212). -/
  | injectionUpdate (n : Fin 64)
  /-- CAPTURE_WRITE_DONE (09 R215). -/
  | captureWriteDone (n : Fin 64)
  /-- PWM_RELOAD (10 R221). -/
  | pwmReload (n : Fin 96)
  /-- PWM_PERIOD_EVENT (10 R241). -/
  | pwmPeriodEvent (n : Fin 96)
  /-- PWM_STALL (10 R222). -/
  | pwmStall (n : Fin 96)
  /-- PWM_COMPARE_MATCH (10 R224). -/
  | pwmCompareMatch (n : Fin 96)
  /-- DEAD_TIME_EXPIRE (10 R226). -/
  | deadTimeExpire (n : Fin 96)
  /-- PWM_COMPARE_WRITE (10 R228). -/
  | pwmCompareWrite (w : Who) (n : Fin 96) (r : PwmReg) (v : W32)
  /-- COMPARE_ACTIVATE (10 R231). -/
  | compareActivate (n : Fin 96)
  /-- SYNC_LOAD (10 R234). -/
  | syncLoad (n : Fin 96)
  /-- REF_FORCE_WRITE (10 R240): REF_FORCE, and the value written to PERIOD_OFF beside it. -/
  | refForceWrite (w : Who) (n : Fin 96) (f : BitVec 2) (periodOff : Bool)
  /-- FAULT_INPUT_CHANGE (11 R251): the level that ball n takes. -/
  | faultInputChange (n : Fin 64) (level : BallLevel)
  /-- COMPARATOR_CHANGE (11 R245): the input in sixteenths of a reference code. -/
  | comparatorChange (n : Fin 384) (v : Int)
  /-- FILTER_SAMPLE (11 R248). -/
  | filterSample (n : Fin 384)
  /-- CMP_LATCH_CLEAR (11 R249): comparator page `n`. -/
  | cmpLatchClear (w : Who) (n : Fin 64) (mask : BitVec 6)
  /-- CMP_SETTLED (11 R247): the input in sixteenths of a reference code. -/
  | cmpSettled (n : Fin 384) (v : Int)
  /-- LATCH_RECORD (11 R255). -/
  | latchRecord (g : Fin 24)
  /-- SG_CLEAR (11 R258). -/
  | sgClear (w : Who) (g : Fin 24)
  /-- SH_CLR_MULTI (11 R258). -/
  | shClrMulti (w : Who) (gs : BitVec 24)
  /-- VT_SET (11 R257). -/
  | vtSet (w : Who) (hi : Bool) (v : W32)
  /-- VT_CLR (11 R257). -/
  | vtClr (w : Who) (hi : Bool) (v : W32)
  /-- ADC_BURST_HOLD (12 R269): core j of casement c holds input m again; the raw code of the hold before. -/
  | adcBurstHold (c : Fin 16) (j : Fin 4) (m : Fin 3) (code : BitVec 16)
  /-- ADC_STROBE (12 R269): core j of casement c completes a conversion of input m; the raw code of the last hold. -/
  | adcStrobe (c : Fin 16) (j : Fin 4) (m : Fin 3) (code : BitVec 16)
  /-- SD_CLOCK_START (12 R272). -/
  | sdClockStart (c : Fin 16) (j : Fin 2)
  /-- SD_WORD_COMPLETE (12 R274): the samples of SDD since the last ones told, latest first. -/
  | sdWordComplete (c : Fin 16) (k : Fin 6) (bits : List Bool)
  /-- SD_STUCK (12 R273): the samples of SDD since the last ones told, latest first. -/
  | sdStuck (c : Fin 16) (k : Fin 6) (bits : List Bool)
  /-- SD_FAST_COMPARE (12 R276): the samples of SDD since the last ones told, latest first. -/
  | sdFastCompare (c : Fin 16) (k : Fin 6) (bits : List Bool)
  /-- TIMER_FIRE (13 R281). -/
  | timerFire (c : Fin 16) (ch : Fin 32)
  /-- TMR_CMP_WRITE (13 R281). -/
  | tmrCmpWrite (w : Who) (c : Fin 16) (ch : Fin 32) (v : W64)
  /-- TIMER_CAPTURE (13 R284): the filtered level after the edge. -/
  | timerCapture (c : Fin 16) (ch : Fin 32) (level : Bool)
  /-- TMR_CAP_READ (13 R285): a read of 4 bytes, or of 8 (`wide`). -/
  | tmrCapRead (w : Who) (c : Fin 16) (ch : Fin 32) (wide : Bool)
  /-- ENCODER_EDGE (13 R287): the filtered levels after the edge. -/
  | encoderEdge (e : Fin 16) (a : Bool) (b : Bool)
  /-- ENCODER_INDEX (13 R288): the filtered level after the edge. -/
  | encoderIndex (e : Fin 16) (level : Bool)
  /-- ENCODER_STALLED (13 R287). -/
  | encoderStalled (e : Fin 16)
  /-- ENC_PRESET (13 R289). -/
  | encPreset (w : Who) (e : Fin 16) (v : W32)
  /-- WD_FEED (13 R292). -/
  | wdFeed (w : Who) (k : CoreId) (v : W32)
  /-- WATCHDOG_EXPIRE (13 R293). -/
  | watchdogExpire (x : WdPlace)
  /-- WD_ACK (13 R293). -/
  | wdAck (w : Who) (x : WdPlace)
  /-- RX_ALIGN (14 R297). -/
  | rxAlign (l : Fin 32) (up : Bool)
  /-- SLOT_BOUNDARY (14 R301). -/
  | slotBoundary (l : Fin 32)
  /-- TX_SYNC (14 R302). -/
  | txSync (l : Fin 32)
  /-- TX_GATE (14 R313). -/
  | txGate (l : Fin 32)
  /-- TX_TIME_REQ (14 R309). -/
  | txTimeReq (l : Fin 32)
  /-- TX_BIND (14 R306). -/
  | txBind (l : Fin 32)
  /-- TX_UNBIND (14 R308). -/
  | txUnbind (l : Fin 32)
  /-- TX_SAMPLE (14 R303). -/
  | txSample (l : Fin 32)
  /-- TX_USER (14 R303). -/
  | txUser (l : Fin 32)
  /-- ANNOUNCE (14 R305). -/
  | announce (l : Fin 32) (seq : BitVec 8) (a : Announce)
  /-- BIND_ACK (14 R306). -/
  | bindAck (l : Fin 32) (seq : BitVec 8) (id : W64)
  /-- STATUS_FRAME (14 R311). -/
  | statusFrame (l : Fin 32) (seq : BitVec 8) (x : NodeStatus)
  /-- TIME_RESP (14 R310): the request number, the node's t2 and t3 and the device's stamp t4. -/
  | timeResp (l : Fin 32) (seq : BitVec 8) (no : BitVec 8) (t2 : W64) (t3 : W64) (t4 : W64)
  /-- SENSOR (14 R320): first slot, node time and values. -/
  | sensor (l : Fin 32) (seq : BitVec 8) (first : BitVec 8) (time : W64) (vals : List W32)
  /-- USER_FRAME_RECEIVE (14 R320). -/
  | userFrameReceive (l : Fin 32) (seq : BitVec 8) (payload : List Byte)
  /-- NB_BIND (14 R306). -/
  | nbBind (w : Who) (l : Fin 32)
  /-- NB_UNBIND (14 R308). -/
  | nbUnbind (w : Who) (l : Fin 32)
  /-- ACK_DETACH (14 R321). -/
  | ackDetach (w : Who) (l : Fin 32)
  /-- BIND_TIMEOUT (14 R306). -/
  | bindTimeout (l : Fin 32)
  /-- ANNOUNCE_TIMEOUT (14 R305). -/
  | announceTimeout (l : Fin 32)
  /-- TIME_RESP_MISS (14 R309). -/
  | timeRespMiss (l : Fin 32)
  /-- DETACH (14 R321). -/
  | detach (l : Fin 32)
  /-- RESUME_TIMEOUT (14 R323). -/
  | resumeTimeout (l : Fin 32)
  /-- GETA (15 R329). -/
  | geta (k : CoreId) (m : MOperand)
  /-- PUTA (15 R329). -/
  | puta (k : CoreId) (m : MOperand)
  /-- GETX (15 R329). -/
  | getx (k : CoreId) (m : MOperand)
  /-- PUTX (15 R329). -/
  | putx (k : CoreId) (m : MOperand)
  /-- GETY (15 R329). -/
  | gety (k : CoreId) (m : MOperand)
  /-- PUTY (15 R329). -/
  | puty (k : CoreId) (m : MOperand)
  /-- ADR (15 R329). -/
  | adr (k : CoreId) (m : MOperand)
  /-- ADD (15 R328). -/
  | add (k : CoreId) (m : MOperand)
  /-- SUB (15 R328). -/
  | sub (k : CoreId) (m : MOperand)
  /-- AND (15 R328). -/
  | and (k : CoreId) (m : MOperand)
  /-- OR (15 R328). -/
  | or (k : CoreId) (m : MOperand)
  /-- XOR (15 R328). -/
  | xor (k : CoreId) (m : MOperand)
  /-- CMP (15 R328). -/
  | cmp (k : CoreId) (m : MOperand)
  /-- ADDV (15 R336). -/
  | addv (k : CoreId) (m : MOperand)
  /-- SUBV (15 R336). -/
  | subv (k : CoreId) (m : MOperand)
  /-- MUL (15 R328). -/
  | mul (k : CoreId) (m : MOperand)
  /-- MULV (15 R336). -/
  | mulv (k : CoreId) (m : MOperand)
  /-- DIV (15 R336). -/
  | div (k : CoreId) (m : MOperand)
  /-- DIVU (15 R336). -/
  | divu (k : CoreId) (m : MOperand)
  /-- REM (15 R336). -/
  | rem (k : CoreId) (m : MOperand)
  /-- REMU (15 R336). -/
  | remu (k : CoreId) (m : MOperand)
  /-- FADD (15 R336). -/
  | fadd (k : CoreId) (m : MOperand)
  /-- FSUB (15 R336). -/
  | fsub (k : CoreId) (m : MOperand)
  /-- FMUL (15 R336). -/
  | fmul (k : CoreId) (m : MOperand)
  /-- FDIV (15 R336). -/
  | fdiv (k : CoreId) (m : MOperand)
  /-- FCMP (15 R328). -/
  | fcmp (k : CoreId) (m : MOperand)
  /-- MOV (15 R328). -/
  | mov (k : CoreId) (rd : BitVec 2) (rs : BitVec 2)
  /-- NEG (15 R328). -/
  | neg (k : CoreId) (rd : BitVec 2) (rs : BitVec 2)
  /-- NOT (15 R328). -/
  | not (k : CoreId) (rd : BitVec 2) (rs : BitVec 2)
  /-- SHL (15 R328). -/
  | shl (k : CoreId) (rd : BitVec 2) (rs : BitVec 2) (n : BitVec 6)
  /-- SHR (15 R328). -/
  | shr (k : CoreId) (rd : BitVec 2) (rs : BitVec 2) (n : BitVec 6)
  /-- SAR (15 R328). -/
  | sar (k : CoreId) (rd : BitVec 2) (rs : BitVec 2) (n : BitVec 6)
  /-- ROL (15 R328). -/
  | rol (k : CoreId) (rd : BitVec 2) (rs : BitVec 2) (n : BitVec 6)
  /-- SEXT8 (15 R328). -/
  | sext8 (k : CoreId) (rd : BitVec 2) (rs : BitVec 2)
  /-- SEXT16 (15 R328). -/
  | sext16 (k : CoreId) (rd : BitVec 2) (rs : BitVec 2)
  /-- SEXT32 (15 R328). -/
  | sext32 (k : CoreId) (rd : BitVec 2) (rs : BitVec 2)
  /-- ADD_REGISTER (15 R328). -/
  | addRegister (k : CoreId) (rd : BitVec 2) (rs : BitVec 2)
  /-- SUB_REGISTER (15 R328). -/
  | subRegister (k : CoreId) (rd : BitVec 2) (rs : BitVec 2)
  /-- AND_REGISTER (15 R328). -/
  | andRegister (k : CoreId) (rd : BitVec 2) (rs : BitVec 2)
  /-- OR_REGISTER (15 R328). -/
  | orRegister (k : CoreId) (rd : BitVec 2) (rs : BitVec 2)
  /-- XOR_REGISTER (15 R328). -/
  | xorRegister (k : CoreId) (rd : BitVec 2) (rs : BitVec 2)
  /-- FCVT (15 R336). -/
  | fcvt (k : CoreId) (rd : BitVec 2) (rs : BitVec 2)
  /-- MOVCQ (15 R346). -/
  | movcq (k : CoreId) (rd : BitVec 2) (n : BitVec 6)
  /-- LDI (15 R334). -/
  | ldi (k : CoreId) (rd : BitVec 2) (imm : BitVec 20)
  /-- ADDI (15 R328). -/
  | addi (k : CoreId) (rd : BitVec 2) (imm : BitVec 20)
  /-- CMPI (15 R328). -/
  | cmpi (k : CoreId) (rd : BitVec 2) (imm : BitVec 20)
  /-- ANDI (15 R328). -/
  | andi (k : CoreId) (rd : BitVec 2) (imm : BitVec 20)
  /-- ORI (15 R328). -/
  | ori (k : CoreId) (rd : BitVec 2) (imm : BitVec 20)
  /-- XORI (15 R328). -/
  | xori (k : CoreId) (rd : BitVec 2) (imm : BitVec 20)
  /-- LDI_L (15 R334). -/
  | ldiL (k : CoreId) (rd : BitVec 2) (imm : BitVec 48)
  /-- ADDI_L (15 R334). -/
  | addiL (k : CoreId) (rd : BitVec 2) (imm : BitVec 48)
  /-- CMPI_L (15 R334). -/
  | cmpiL (k : CoreId) (rd : BitVec 2) (imm : BitVec 48)
  /-- PUSH (15 R332): register: 0 A, 1 X, 2 Y, 3 ST. -/
  | push (k : CoreId) (r : Fin 4)
  /-- POP (15 R332): register as for PUSH. -/
  | pop (k : CoreId) (r : Fin 4)
  /-- DROP (15 R332). -/
  | drop (k : CoreId) (n : BitVec 8)
  /-- RET (15 R333). -/
  | ret (k : CoreId)
  /-- BCC (15 R334): condition and word offset. -/
  | bcc (k : CoreId) (cond : BitVec 4) (off : BitVec 22)
  /-- JMP (15 R334). -/
  | jmp (k : CoreId) (m : MOperand)
  /-- CALL (15 R333): word offset. -/
  | call (k : CoreId) (off : BitVec 26)
  /-- CALLI (15 R333). -/
  | calli (k : CoreId) (m : MOperand)
  /-- BMOV (15 R342): `elems`: how many elements are performed before it is interrupted. -/
  | bmov (k : CoreId) (sz : BitVec 2) (elems : Nat)
  /-- BMOVD (15 R342): `elems` as for BMOV. -/
  | bmovd (k : CoreId) (sz : BitVec 2) (elems : Nat)
  /-- BFILL (15 R342): `elems` as for BMOV. -/
  | bfill (k : CoreId) (sz : BitVec 2) (elems : Nat)
  /-- BFIND (15 R342): `elems` as for BMOV. -/
  | bfind (k : CoreId) (sz : BitVec 2) (elems : Nat)
  /-- TAS (15 R338). -/
  | tas (k : CoreId) (m : MOperand)
  /-- LR (15 R339). -/
  | lr (k : CoreId) (m : MOperand)
  /-- SC (15 R339). -/
  | sc (k : CoreId) (m : MOperand)
  /-- FENCE (16 R364). -/
  | fence (k : CoreId)
  /-- IBAR (16 R364). -/
  | ibar (k : CoreId)
  /-- ICINV (16 R364). -/
  | icinv (k : CoreId)
  /-- ICINV_ALL (16 R364). -/
  | icinvAll (k : CoreId)
  /-- DOOR (17 R381). -/
  | door (k : CoreId) (n : BitVec 4)
  /-- REMOTE_DOOR (17 R384). -/
  | remoteDoor (k : CoreId) (n : BitVec 4)
  /-- REMOTE_DOOR_TIMEOUT (17 R384). -/
  | remoteDoorTimeout (k : CoreId)
  /-- DREQ_REPLY (17 R385): MTS of register RS to DREQ_j.REP by SP. -/
  | dreqReply (rs : BitVec 2) (j : Fin 4)
  /-- DOOR_OUT (17 R382). -/
  | doorOut (k : CoreId)
  /-- TRAP (17 R387). -/
  | trap (k : CoreId) (n : BitVec 8)
  /-- RTE (17 R391). -/
  | rte (k : CoreId)
  /-- KRD (17 R376). -/
  | krd (k : CoreId) (o : KOperand)
  /-- KADR (17 R376). -/
  | kadr (k : CoreId) (o : KOperand)
  /-- KINC (17 R376). -/
  | kinc (k : CoreId) (o : KOperand)
  /-- KBND (17 R376). -/
  | kbnd (k : CoreId) (o : KOperand)
  /-- KPRM (17 R376). -/
  | kprm (k : CoreId) (o : KOperand)
  /-- KMOV (17 R376). -/
  | kmov (k : CoreId) (o : KOperand)
  /-- KLOCK (17 R376). -/
  | klock (k : CoreId) (o : KOperand)
  /-- KOPEN (17 R376). -/
  | kopen (k : CoreId) (o : KOperand)
  /-- KLD (17 R376). -/
  | kld (k : CoreId) (o : KOperand)
  /-- KST (17 R376). -/
  | kst (k : CoreId) (o : KOperand)
  /-- KPC (17 R376). -/
  | kpc (k : CoreId) (o : KOperand)
  /-- KDDC (17 R376). -/
  | kddc (k : CoreId) (o : KOperand)
  /-- KJMP (17 R376). -/
  | kjmp (k : CoreId) (o : KOperand)
  /-- KMFS (17 R376). -/
  | kmfs (k : CoreId) (o : KOperand)
  /-- KMTS (17 R376). -/
  | kmts (k : CoreId) (o : KOperand)
  /-- MFS (17 R378): RD := system register r. -/
  | mfs (k : CoreId) (rd : BitVec 2) (r : BitVec 12)
  /-- MTS (17 R378): system register r := RS. -/
  | mts (k : CoreId) (rs : BitVec 2) (r : BitVec 12)
  /-- TLBI_VA (18 R409). -/
  | tlbiVa (k : CoreId)
  /-- TLBI_ASID (18 R409). -/
  | tlbiAsid (k : CoreId)
  /-- TLBI_ALL (18 R409). -/
  | tlbiAll (k : CoreId)
  /-- TLBLOCK (18 R409). -/
  | tlblock (k : CoreId)
  /-- TLBUNLOCK (18 R409). -/
  | tlbunlock (k : CoreId)
  /-- TLBPROBE (18 R409). -/
  | tlbprobe (k : CoreId)
  /-- CHKPT (19 R416): bits [25:0] of the instruction. -/
  | chkpt (k : CoreId) (rest : BitVec 26)
  /-- CPWAIT (15 R349). -/
  | cpwait (k : CoreId)
  /-- WFI (17 R392). -/
  | wfi (k : CoreId)
  /-- WFI_WAKE (17 R392). -/
  | wfiWake (k : CoreId)
  /-- CP0_POST (15 R351). -/
  | cp0Post (k : CoreId) (o : COperand)
  /-- RDJOB (15 R351). -/
  | rdjob (k : CoreId) (o : COperand)
  /-- RDLANE (15 R351). -/
  | rdlane (k : CoreId) (o : COperand)
  /-- CP1_START (20 R445). -/
  | cp1Start (k : CoreId) (o : COperand)
  /-- CP1_STAT (15 R351). -/
  | cp1Stat (k : CoreId) (o : COperand)
  /-- CP1_CANCEL (20 R447). -/
  | cp1Cancel (k : CoreId) (o : COperand)
  /-- CQ_RESULT_LAND (15 R346). -/
  | cqResultLand (k : CoreId)
  /-- INTERRUPT_ENTRY (17 R387). -/
  | interruptEntry (k : CoreId)
  /-- ARITH_EXCEPTION (17 R388). -/
  | arithException (k : CoreId)
  /-- CORE_GO (17 R380). -/
  | coreGo (w : Who) (k : Fin 4)
  /-- CSR_PATROL_SCRUB (16 R368): corrected words, and the 8-byte words of the line that cannot be corrected. -/
  | csrPatrolScrub (line : Fin 524288) (fixed : Nat) (bad : List (Fin 8))
  /-- AUTO_CHECKPOINT (19 R415). -/
  | autoCheckpoint (k : CoreId)
  /-- LOCKSTEP_MISMATCH (19 R421): the compare lane (R412): 704 of an application pair, 1,088 of SP. -/
  | lockstepMismatch (k : CoreId) (lane : Fin 1088)
  /-- RECOVERY_COMPLETE (19 R421): whether the comparator test passes, and the place from the newest of a journal entry that cannot be
  corrected. -/
  | recoveryComplete (k : CoreId) (testOk : Bool) (journalBad : Option Nat)
  /-- HBM_TEMP_READING (20 R431). -/
  | hbmTempReading (x : Fin 2) (t : BitVec 8)
  /-- HBM_READ (20 R435): requester, address, length, what the page decodes to, and whether its valid bit is damaged. -/
  | hbmRead (req : BitVec 10) (a : BitVec 48) (len : Nat) (out : Decode) (bitmap : Bool)
  /-- HBM_WRITE (20 R437): requester, address and bytes; `bad`: they carry poison. -/
  | hbmWrite (req : BitVec 10) (a : BitVec 48) (bytes : List Byte) (bad : Bool)
  /-- MB_AGE_WRITEBACK (20 R438): `bad`: the fill of a partial entry does not decode. -/
  | mbAgeWriteback (x : Fin 2) (page : BitVec 23) (bad : Bool)
  /-- MB_FLUSH (20 R438): the value written to MODE beside MB_FLUSH. -/
  | mbFlush (w : Who) (x : Fin 2) (mode : BitVec 2)
  /-- HBM_INVAL_GO (20 R436). -/
  | hbmInvalGo (w : Who) (x : Fin 2)
  /-- HBM_PATROL (20 R441). -/
  | hbmPatrol (x : Fin 2) (page : BitVec 23) (out : Decode)
  /-- SCR_GO (20 R442). -/
  | scrGo (w : Who) (x : Fin 2)
  /-- SCRUB_RANGE_DONE (20 R442): the pages that do not decode clean. -/
  | scrubRangeDone (x : Fin 2) (found : List ScrubPage)
  /-- SILL_START (20 R445). -/
  | sillStart (w : Who) (x : Fin 2) (a : W64)
  /-- TRANSFER_START (20 R445). -/
  | transferStart (x : Fin 2)
  /-- TRANSFER_COMPLETE (20 R447): transfer number. -/
  | transferComplete (x : Fin 2) (n : BitVec 16)
  /-- TRANSFER_ERROR (20 R447): transfer number. -/
  | transferError (x : Fin 2) (n : BitVec 16)
  /-- SILL_CANCEL (20 R447). -/
  | sillCancel (w : Who) (x : Fin 2) (n : BitVec 16)
  /-- PCIE_INBOUND_WRITE (21 R454). -/
  | pcieInboundWrite (f : Fin 2) (x : PcieWrite)
  /-- PCIE_INBOUND_READ (21 R454). -/
  | pcieInboundRead (f : Fin 2) (x : PcieRead)
  /-- PCIE_RESET (21 R456): PERST_N or a hot reset, or the FLR of a function. -/
  | pcieReset (flr : Option (Fin 2))
  /-- MSIX_MESSAGE (21 R457). -/
  | msixMessage (f : Fin 2) (v : Fin 32)
  /-- PF_TSNAP_GO (21 R457). -/
  | pfTsnapGo (w : Who) (f : Fin 2)
  /-- BOOT_DB (21 R472): image length, and the images that the boot ROM finds in xSPI. -/
  | bootDb (len : BitVec 24) (flashA : List Byte) (flashB : List Byte)
  /-- DMA_DESCRIPTOR_START (21 R458). -/
  | dmaDescriptorStart (n : Fin 8)
  /-- DMA_DESCRIPTOR_DONE (21 R459). -/
  | dmaDescriptorDone (n : Fin 8) (h : HostSide)
  /-- ETH_FRAME_RECEIVE (21 R463): the frame, and whether its FCS and alignment are good. -/
  | ethFrameReceive (p : Fin 4) (frame : FrameRead) (good : Bool)
  /-- ETH_FRAME_TRANSMIT (21 R465). -/
  | ethFrameTransmit (p : Fin 4)
  /-- ETH_TX_DONE (21 R464). -/
  | ethTxDone (p : Fin 4)
  /-- ETH_TXTS_READ (21 R461). -/
  | ethTxtsRead (w : Who) (p : Fin 4)
  /-- ETH_LINK_CHANGE (21 R464): the speed code of a link that comes up. -/
  | ethLinkChange (p : Fin 4) (up : Option (BitVec 2))
  /-- ETH_MDIO_GO (21 R463). -/
  | ethMdioGo (w : Who)
  /-- MDIO_FRAME_END (21 R463). -/
  | mdioFrameEnd (data : BitVec 16)
  /-- GCL_GO (21 R465): the value written to EN beside GO. -/
  | gclGo (w : Who) (p : Fin 4) (en : Bool)
  /-- GCL_CHANGE (21 R465). -/
  | gclChange (p : Fin 4)
  /-- GATE_ENTRY_ADVANCE (21 R462). -/
  | gateEntryAdvance (p : Fin 4)
  /-- CAN_FRAME_RECEIVE (21 R468): the frame and the count of its start. -/
  | canFrameReceive (m : Fin 8) (f : CanFrame) (sof : W64)
  /-- CAN_ARBITRATION (21 R468). -/
  | canArbitration (m : Fin 8) (wins : Bool)
  /-- CAN_TX_DONE (21 R468): the count of its start. -/
  | canTxDone (m : Fin 8) (sof : W64)
  /-- CAN_TXREQ (21 R468). -/
  | canTxreq (w : Who) (m : Fin 8) (v : W32)
  /-- CAN_TXCAN (21 R468). -/
  | canTxcan (w : Who) (m : Fin 8) (v : W32)
  /-- CAN_RXFULL_RELEASE (21 R468). -/
  | canRxfullRelease (w : Who) (m : Fin 8) (v : W32)
  /-- CAN_BUS_OFF (21 R468). -/
  | canBusOff (m : Fin 8)
  /-- CAN_RECOVER (21 R468): the value written to CAN_CTRL[3:0] beside RECOVER. -/
  | canRecover (w : Who) (m : Fin 8) (ctrl : BitVec 4)
  /-- CAN_BUS_JOIN (21 R467). -/
  | canBusJoin (m : Fin 8)
  /-- XSPI_GO (21 R469). -/
  | xspiGo (w : Who)
  /-- XSPI_RESET (21 R469). -/
  | xspiReset (w : Who)
  /-- XSPI_DONE (21 R469): the data read. -/
  | xspiDone (data : List Byte)
  /-- I2C_CGO (21 R470). -/
  | i2cCgo (w : Who)
  /-- I2C_CONTROLLER_DONE (21 R470): how it ended, and the data read. -/
  | i2cControllerDone (x : I2cEnd) (data : List Byte)
  /-- I2C_TARGET_WRITE (21 R471). -/
  | i2cTargetWrite (a : BitVec 7) (data : List Byte)
  /-- I2C_TARGET_READ (21 R471). -/
  | i2cTargetRead (a : BitVec 7) (n : Nat)
  /-- IDCODE (22 R476). -/
  | idcode
  /-- SAMPLE_PRELOAD (22 R476): the value preloaded. -/
  | samplePreload (data : Nat)
  /-- EXTEST (22 R476). -/
  | extest
  /-- BYPASS (22 R476). -/
  | bypass
  /-- VO_STAT_CAPTURE (22 R476). -/
  | voStatCapture
  /-- VO_CHAL (22 R474). -/
  | voChal
  /-- VO_RESP (22 R474). -/
  | voResp (level : BitVec 2) (mac : BitVec 128)
  /-- VO_BUS (22 R477): an access of 2^sz bytes. -/
  | voBus (a : BitVec 48) (sz : BitVec 2) (write : Bool) (data : W64)
  /-- HALT (22 R480). -/
  | halt
  /-- BREAKPOINT_MATCH (22 R479). -/
  | breakpointMatch (k : CoreId) (i : Fin 4)
  /-- HALT_EVENT (22 R479). -/
  | haltEvent
  /-- HALT_DRAIN_DONE (22 R480). -/
  | haltDrainDone
  /-- STEP (22 R483). -/
  | step (k : CoreId)
  /-- RESUME (22 R484). -/
  | resume
  /-- DEBUG_WARM (03 R69). -/
  | debugWarm
  /-- DROP_LEVEL (22 R473). -/
  | dropLevel (level : BitVec 2)
  /-- TRC_CTRL_EN (22 R487): TRC_CTRL written by the debug bus master. -/
  | trcCtrlEn (v : W32)
  /-- TRACE_LINE_WRITE (22 R487). -/
  | traceLineWrite
  /-- ROOT_PLL_RELOCK (03 R58). -/
  | rootPllRelock
  /-- RX_FRAME_INVALID (14 R299): 0 CRC, 1 code, length or kind, 2 a repeated SEQ. -/
  | rxFrameInvalid (l : Fin 32) (why : Fin 3)
  /-- CAN_BUS_ERROR (21 R468). -/
  | canBusError (m : Fin 8) (e : CanError)
  /-- PCIE_LINK_CHANGE (21 R456): speed 1 to 4 and width of a link that comes up. -/
  | pcieLinkChange (up : Option (Fin 5 × Fin 5))
  /-- SD_STUCK_END (12 R273): the next sample of SDD. -/
  | sdStuckEnd (c : Fin 16) (k : Fin 6) (bit : Bool)
  deriving DecidableEq, Repr

end Sys2Proof
end

