-- ==== Sys2Proof/Decode.lean ====
section
/-!
DEFINITION. Sys2Proof/Decode.lean: the commands that words of the command table spell.
-/
namespace Sys2Proof

/-- spec/opcode_table.json gives no row any bits, so no word spells a command. [DESIGN CHOICE (log 5)] -/
def decodeTableWord (_nbits _w : Nat) : Option Instr := none

end Sys2Proof
end

