-- ==== Sys2Proof/Machine/Bits.lean ====
section
/-!
DEFINITION. Sys2Proof/Machine/Bits.lean: bit fields, saturation, fixed-point rounding and byte order.
-/
namespace Sys2Proof.Machine

/-- Bits [lsb + w - 1 : lsb] of a word, as a number. -/
def bitsOf {n : Nat} (v : BitVec n) (lsb w : Nat) : Nat := (v.toNat >>> lsb) % 2 ^ w

/-- The word of ones at [lsb + w - 1 : lsb]. -/
def fieldMask (n lsb w : Nat) : BitVec n := BitVec.ofNat n ((2 ^ w - 1) <<< lsb)

/-- Replaces bits [lsb + w - 1 : lsb] of a word. -/
def putBits {n : Nat} (v : BitVec n) (lsb w x : Nat) : BitVec n :=
  (v &&& ~~~ fieldMask n lsb w) ||| (BitVec.ofNat n (x <<< lsb) &&& fieldMask n lsb w)

/-- One bit of a word. -/
def bitAt {n : Nat} (v : BitVec n) (i : Nat) : Bool := v.getLsbD i

/-- A truth value as a bit. -/
def b2n (b : Bool) : Nat := if b then 1 else 0

/-- Bits of a number, for fields of operands. -/
def nbits (v lsb w : Nat) : Nat := (v >>> lsb) % 2 ^ w

/-- The signed value of the low `w` bits of a number. -/
def signedOf (w v : Nat) : Int :=
  let m := v % 2 ^ w
  if 2 * m < 2 ^ w then (m : Int) else (m : Int) - (2 : Int) ^ w

/-- The `w`-bit two's complement code of an integer. -/
def codeOf (w : Nat) (x : Int) : Nat := (x % ((2 : Int) ^ w)).toNat

/-- An integer limited to the interval [lo, hi]. -/
def clampI (lo hi x : Int) : Int := if x < lo then lo else if hi < x then hi else x

/-- Saturation to a signed `w`-bit number. -/
def satI (w : Nat) (x : Int) : Int := clampI (-(2 : Int) ^ (w - 1)) ((2 : Int) ^ (w - 1) - 1) x

/-- x / 2^k rounded to the nearest integer, ties to even (05 R110). -/
def rne (x : Int) (k : Nat) : Int :=
  let q := x / ((2 : Int) ^ k)
  let r := x % ((2 : Int) ^ k)
  if 2 * r < (2 : Int) ^ k then q
  else if (2 : Int) ^ k < 2 * r then q + 1
  else if q % 2 = 0 then q else q + 1

/-- x / y rounded to the nearest integer, ties to even, for y > 0. [DEDUCED (log 29)] -/
def rneDiv (x y : Int) : Int :=
  let q := x / y
  let r := x % y
  if 2 * r < y then q else if y < 2 * r then q + 1 else if q % 2 = 0 then q else q + 1

/-- A saturating counter of `w` bits takes one more (00_scope.md, register types: counters that saturate hold
their highest value). -/
def satInc (w v : Nat) : Nat := if v + 1 < 2 ^ w then v + 1 else 2 ^ w - 1

/-- Saturating addition on a counter of `w` bits. -/
def satAdd (w v k : Nat) : Nat := if v + k < 2 ^ w then v + k else 2 ^ w - 1

/-- Bytes of a value, least significant first. -/
def bytesLE : Nat → Nat → List Byte
  | 0, _ => []
  | k + 1, v => BitVec.ofNat 8 v :: bytesLE k (v / 256)

/-- The value of bytes, least significant first. [DEDUCED (log 132)] -/
def valueLE : List Byte → Nat
  | [] => 0
  | b :: r => b.toNat + 256 * valueLE r

/-- The value of bytes, most significant first (network order). -/
def valueBE (l : List Byte) : Nat := l.foldl (fun a b => a * 256 + b.toNat) 0

end Sys2Proof.Machine
end

