-- ==== Sys2Proof/Machine/RegMap.lean ====
section
/-!
DEFINITION. Sys2Proof/Machine/RegMap.lean: the registers of every page, as the register tables of
the spec give them: offset, fields, types and reset values.
-/
namespace Sys2Proof.Machine

/-- The kinds of page of 01_register_pages.md Table 1-3 (`dbg` is the Vopen control block, R487). -/
inductive PageKind where
  | own
  | clk
  | pwr
  | sysid
  | temp
  | otp
  | lintel
  | lent
  | lctl
  | evf
  | sash
  | tpl
  | jq
  | wing
  | mon
  | inj
  | cap
  | pwm
  | cmp
  | group
  | cassrc
  | adc
  | sd
  | timer
  | enc
  | wd
  | tlc
  | tlnb
  | ferr
  | intc
  | intsrc
  | hbm
  | code
  | scrub
  | sill
  | pf
  | dma
  | eth
  | can
  | xspi
  | i2c
  | dbg
  | rst
  | flt
  | vt
  | tltt
  | tlcnt
  | fcal
  | wdc
  deriving DecidableEq, Repr

/-- Register field types (00_scope.md). -/
inductive RType where
  | rw | rwl | ro | rc | wo | w1c | w1s
  deriving DecidableEq, Repr

/-- A field of a register word: place, type, reset value, expert-only. -/
structure RField where
  lsb : Nat
  width : Nat
  ty : RType
  reset : Nat
  expert : Bool
  deriving DecidableEq, Repr

/-- A 32-bit register word, repeated `cnt` times `stride` bytes apart (and `cnt2` times `stride2` within each).
`pair`: a 64-bit access at its offset is permitted. -/
structure RWord where
  ofs : Nat
  cnt : Nat
  stride : Nat
  cnt2 : Nat
  stride2 : Nat
  pair : Bool
  fields : List RField
  deriving DecidableEq, Repr

/-- Whether an offset is one of a word's. -/
def RWord.covers (r : RWord) (o : Nat) : Bool :=
  r.ofs ≤ o && (o - r.ofs) / r.stride < r.cnt && ((o - r.ofs) % r.stride) % r.stride2 == 0 &&
    ((o - r.ofs) % r.stride) / r.stride2 < r.cnt2

/-- A field's place: offset of its word in the page, lowest bit, width. -/
structure Fld where
  ofs : Nat
  lsb : Nat
  width : Nat
  deriving DecidableEq, Repr

/-- Words of the own page: 01_register_pages.md R37. -/
def regs_own : List RWord :=
  [
    ⟨0x040, 1, 0, 1, 0, true, [⟨0, 32, .rwl, 0, false⟩]⟩,
    ⟨0x044, 1, 0, 1, 0, false, [⟨0, 16, .rwl, 0, false⟩]⟩,
    ⟨0x048, 1, 0, 1, 0, false, [⟨0, 12, .rwl, 0, false⟩, ⟨31, 1, .rwl, 0, false⟩]⟩,
    ⟨0x04C, 1, 0, 1, 0, false, [⟨0, 1, .wo, 0, false⟩]⟩,
    ⟨0x050, 1, 0, 1, 0, false, [⟨0, 16, .ro, 0, false⟩]⟩]

/-- Words of the clk page: 03_clocks_power_reset.md R58. -/
def regs_clk : List RWord :=
  [
    ⟨0x040, 1, 0, 1, 0, false, [⟨0, 1, .ro, 0, false⟩, ⟨1, 1, .ro, 0, false⟩, ⟨2, 1, .ro, 0, false⟩, ⟨3, 1, .ro, 0, false⟩, ⟨4, 1, .ro, 0, false⟩, ⟨8, 8, .ro, 0, false⟩]⟩,
    ⟨0x044, 1, 0, 1, 0, false, [⟨0, 1, .rwl, 0, false⟩, ⟨1, 1, .rwl, 0, false⟩, ⟨2, 1, .rwl, 0, false⟩]⟩]

/-- Words of the pwr page: 03_clocks_power_reset.md R63. -/
def regs_pwr : List RWord :=
  [
    ⟨0x040, 1, 0, 1, 0, false, [⟨0, 31, .rwl, 0x20000010, false⟩]⟩,
    ⟨0x044, 1, 0, 1, 0, false, [⟨0, 31, .ro, 0x20000010, false⟩, ⟨31, 1, .ro, 1, false⟩]⟩,
    ⟨0x048, 1, 0, 1, 0, false, [⟨0, 31, .ro, 0, false⟩]⟩,
    ⟨0x04C, 1, 0, 1, 0, false, [⟨0, 5, .rc, 0, false⟩, ⟨8, 4, .rc, 0, false⟩, ⟨31, 1, .rc, 0, false⟩]⟩,
    ⟨0x050, 1, 0, 1, 0, false, [⟨0, 1, .rwl, 0, false⟩, ⟨1, 1, .rwl, 0, false⟩]⟩,
    ⟨0x054, 1, 0, 1, 0, false, [⟨0, 1, .w1s, 0, false⟩]⟩,
    ⟨0x058, 1, 0, 1, 0, false, [⟨0, 24, .rwl, 0, false⟩]⟩]

/-- Words of the sysid page: 03_clocks_power_reset.md R71. -/
def regs_sysid : List RWord :=
  [
    ⟨0x040, 1, 0, 1, 0, false, [⟨0, 16, .ro, 0x9640, false⟩, ⟨16, 8, .ro, 0x10, false⟩]⟩,
    ⟨0x044, 1, 0, 1, 0, false, [⟨0, 1, .w1c, 1, false⟩, ⟨1, 1, .w1c, 0, false⟩, ⟨2, 1, .w1c, 0, false⟩, ⟨3, 1, .w1c, 0, false⟩, ⟨4, 1, .w1c, 0, false⟩, ⟨5, 1, .w1c, 0, false⟩, ⟨6, 1, .w1c, 0, false⟩, ⟨7, 1, .w1c, 0, false⟩, ⟨8, 1, .w1c, 0, false⟩]⟩,
    ⟨0x048, 1, 0, 1, 0, false, [⟨0, 3, .ro, 0, false⟩, ⟨8, 4, .ro, 0, false⟩, ⟨16, 8, .ro, 0, false⟩]⟩,
    ⟨0x04C, 1, 0, 1, 0, false, [⟨0, 2, .ro, 0, false⟩, ⟨8, 8, .ro, 0, false⟩, ⟨31, 1, .ro, 0, false⟩]⟩]

/-- Words of the temp page: 03_clocks_power_reset.md R73. -/
def regs_temp : List RWord :=
  [
    ⟨0x040, 8, 4, 1, 0, false, [⟨0, 16, .ro, 0, false⟩]⟩,
    ⟨0x060, 1, 0, 1, 0, false, [⟨0, 3, .ro, 0, false⟩, ⟨16, 16, .ro, 0, false⟩]⟩,
    ⟨0x064, 1, 0, 1, 0, false, [⟨0, 16, .rwl, 0x7d0, false⟩]⟩,
    ⟨0x068, 1, 0, 1, 0, false, [⟨0, 8, .rwl, 0x30, false⟩]⟩,
    ⟨0x06C, 1, 0, 1, 0, false, [⟨0, 16, .rc, 0x8000, false⟩]⟩]

/-- Words of the otp page: 03_clocks_power_reset.md R83. -/
def regs_otp : List RWord :=
  [
    ⟨0x040, 1, 0, 1, 0, false, [⟨0, 7, .ro, 0, false⟩, ⟨8, 4, .ro, 0, false⟩, ⟨12, 2, .ro, 0, false⟩, ⟨14, 1, .ro, 0, false⟩, ⟨16, 2, .ro, 0, false⟩, ⟨18, 2, .ro, 0, false⟩, ⟨20, 4, .ro, 0, false⟩, ⟨24, 1, .ro, 0, false⟩, ⟨30, 1, .w1c, 0, false⟩, ⟨31, 1, .ro, 0, false⟩]⟩,
    ⟨0x044, 1, 0, 1, 0, false, [⟨0, 1, .wo, 0, false⟩, ⟨1, 1, .wo, 0, false⟩, ⟨2, 2, .wo, 0, false⟩, ⟨4, 1, .wo, 0, false⟩, ⟨8, 4, .wo, 0, false⟩]⟩,
    ⟨0x048, 1, 0, 1, 0, false, [⟨0, 16, .ro, 0, false⟩, ⟨16, 11, .ro, 0, false⟩]⟩,
    ⟨0x080, 12, 4, 1, 0, false, [⟨0, 32, .wo, 0, false⟩]⟩,
    ⟨0x100, 4, 64, 12, 4, false, [⟨0, 32, .ro, 0, false⟩]⟩]

/-- Words of the lintel page: 04_time_base_and_launch.md R88. -/
def regs_lintel : List RWord :=
  [
    ⟨0x040, 1, 0, 1, 0, true, [⟨0, 32, .ro, 0, false⟩]⟩,
    ⟨0x044, 1, 0, 1, 0, false, [⟨0, 32, .ro, 0, false⟩]⟩,
    ⟨0x048, 1, 0, 1, 0, false, [⟨0, 32, .rwl, 0, false⟩]⟩,
    ⟨0x04C, 1, 0, 1, 0, false, [⟨0, 32, .ro, 0, false⟩]⟩,
    ⟨0x050, 1, 0, 1, 0, true, [⟨0, 32, .rwl, 0, false⟩]⟩,
    ⟨0x054, 1, 0, 1, 0, false, [⟨0, 32, .rwl, 0, false⟩]⟩,
    ⟨0x058, 1, 0, 1, 0, false, [⟨0, 1, .wo, 0, false⟩]⟩,
    ⟨0x05C, 1, 0, 1, 0, false, [⟨0, 1, .w1c, 0, false⟩, ⟨1, 1, .w1c, 0, false⟩, ⟨8, 4, .ro, 0, false⟩, ⟨16, 8, .ro, 0, false⟩]⟩,
    ⟨0x060, 1, 0, 1, 0, false, [⟨0, 32, .ro, 0, false⟩]⟩,
    ⟨0x064, 1, 0, 1, 0, false, [⟨0, 32, .ro, 0, false⟩]⟩,
    ⟨0x068, 1, 0, 1, 0, false, [⟨0, 4, .ro, 0, false⟩]⟩]

/-- Words of the lent page: 04_time_base_and_launch.md R93. -/
def regs_lent : List RWord :=
  [
    ⟨0x100, 64, 32, 1, 0, true, [⟨0, 32, .rwl, 0, false⟩]⟩,
    ⟨0x104, 64, 32, 1, 0, false, [⟨0, 32, .rwl, 0, false⟩]⟩,
    ⟨0x108, 64, 32, 1, 0, true, [⟨0, 32, .rwl, 0, true⟩]⟩,
    ⟨0x10C, 64, 32, 1, 0, false, [⟨0, 32, .rwl, 0, true⟩]⟩,
    ⟨0x110, 64, 32, 1, 0, false, [⟨0, 31, .rwl, 0, true⟩, ⟨31, 1, .rwl, 0, true⟩]⟩,
    ⟨0x114, 64, 32, 1, 0, false, [⟨0, 1, .rwl, 0, false⟩, ⟨4, 4, .rwl, 0, false⟩, ⟨8, 1, .w1c, 0, false⟩, ⟨9, 1, .w1c, 0, false⟩]⟩,
    ⟨0x118, 64, 32, 1, 0, false, [⟨0, 32, .rwl, 0, false⟩]⟩,
    ⟨0x11C, 64, 32, 1, 0, false, [⟨0, 32, .rwl, 0, false⟩]⟩]

/-- Words of the lctl page: 04_time_base_and_launch.md R100. -/
def regs_lctl : List RWord :=
  [
    ⟨0x040, 1, 0, 1, 0, true, [⟨0, 32, .rw, 0, false⟩]⟩,
    ⟨0x044, 1, 0, 1, 0, false, [⟨0, 32, .rw, 0, false⟩]⟩,
    ⟨0x048, 1, 0, 1, 0, false, [⟨0, 32, .rw, 0, false⟩]⟩,
    ⟨0x04C, 1, 0, 1, 0, false, [⟨0, 9, .ro, 0, false⟩]⟩,
    ⟨0x050, 1, 0, 1, 0, false, [⟨0, 32, .rc, 0, false⟩]⟩,
    ⟨0x054, 1, 0, 1, 0, false, [⟨0, 32, .rc, 0, false⟩]⟩,
    ⟨0x058, 1, 0, 1, 0, false, [⟨0, 8, .ro, 0, false⟩]⟩]

/-- Words of the evf page: 04_time_base_and_launch.md R108. -/
def regs_evf : List RWord :=
  [
    ⟨0x040, 4, 4, 1, 0, false, [⟨0, 32, .w1s, 0, false⟩]⟩,
    ⟨0x050, 4, 4, 1, 0, false, [⟨0, 32, .w1c, 0, false⟩]⟩,
    ⟨0x060, 4, 4, 1, 0, false, [⟨0, 32, .ro, 0, false⟩]⟩]

/-- Words of the sash page: 05_loop_engine_architecture.md R129, 06_microword_and_control_store.md R163. -/
def regs_sash : List RWord :=
  [
    ⟨0x010, 1, 0, 1, 0, false, [⟨0, 1, .ro, 0, false⟩, ⟨1, 1, .ro, 0, false⟩, ⟨2, 1, .ro, 0, false⟩, ⟨3, 1, .ro, 0, false⟩, ⟨4, 1, .w1c, 0, false⟩, ⟨5, 1, .w1c, 0, false⟩, ⟨6, 1, .w1c, 0, false⟩, ⟨7, 1, .w1c, 0, false⟩, ⟨8, 1, .w1c, 0, false⟩]⟩,
    ⟨0x040, 1, 0, 1, 0, false, [⟨0, 4, .rw, 0xf, false⟩, ⟨8, 4, .rw, 0, false⟩]⟩,
    ⟨0x044, 1, 0, 1, 0, false, [⟨0, 32, .rc, 0, false⟩]⟩,
    ⟨0x048, 1, 0, 1, 0, false, [⟨0, 32, .rc, 0, false⟩]⟩,
    ⟨0x04C, 1, 0, 1, 0, false, [⟨0, 2, .rc, 0, false⟩, ⟨2, 3, .rc, 0, false⟩, ⟨5, 3, .rc, 0, false⟩, ⟨8, 12, .rc, 0, false⟩, ⟨20, 1, .rc, 0, false⟩, ⟨21, 1, .rc, 0, false⟩, ⟨22, 1, .rc, 0, false⟩, ⟨31, 1, .rc, 0, false⟩]⟩,
    ⟨0x050, 1, 0, 1, 0, true, [⟨0, 32, .ro, 0, false⟩]⟩,
    ⟨0x054, 1, 0, 1, 0, false, [⟨0, 32, .ro, 0, false⟩]⟩,
    ⟨0x058, 1, 0, 1, 0, false, [⟨0, 16, .rc, 0, false⟩, ⟨16, 16, .rc, 0, false⟩]⟩,
    ⟨0x05C, 1, 0, 1, 0, false, [⟨0, 2, .rwl, 0, true⟩, ⟨2, 3, .rwl, 0, true⟩, ⟨5, 2, .rwl, 0, true⟩]⟩,
    ⟨0x100, 32, 4, 1, 0, false, [⟨0, 1, .rw, 0, false⟩, ⟨1, 3, .rw, 0, false⟩, ⟨4, 8, .rw, 0, false⟩]⟩,
    ⟨0x080, 1, 0, 1, 0, false, [⟨0, 1, .ro, 0, false⟩, ⟨1, 1, .ro, 0, false⟩, ⟨2, 1, .ro, 0, false⟩, ⟨3, 1, .ro, 0, false⟩, ⟨8, 4, .ro, 0, false⟩]⟩,
    ⟨0x084, 1, 0, 1, 0, false, [⟨0, 32, .ro, 0, false⟩]⟩] ++
  [
    ⟨0x088, 1, 0, 1, 0, false, [⟨0, 32, .ro, 0, false⟩]⟩,
    ⟨0x08C, 1, 0, 1, 0, false, [⟨0, 1, .rwl, 0, false⟩, ⟨1, 1, .wo, 0, false⟩, ⟨2, 1, .wo, 0, false⟩, ⟨3, 1, .wo, 0, false⟩]⟩,
    ⟨0x090, 1, 0, 1, 0, false, [⟨0, 32, .rwl, 0, false⟩]⟩,
    ⟨0x094, 1, 0, 1, 0, false, [⟨0, 13, .rwl, 0, false⟩]⟩,
    ⟨0x098, 1, 0, 1, 0, false, [⟨0, 32, .rwl, 0, false⟩]⟩,
    ⟨0x09C, 1, 0, 1, 0, false, [⟨0, 16, .rc, 0, false⟩, ⟨16, 16, .rc, 0, false⟩]⟩,
    ⟨0x0A0, 1, 0, 1, 0, false, [⟨0, 13, .ro, 0, false⟩, ⟨31, 1, .ro, 0, false⟩]⟩,
    ⟨0x0A4, 1, 0, 1, 0, false, [⟨0, 32, .ro, 0x100, false⟩]⟩,
    ⟨0x180, 16, 4, 1, 0, false, [⟨0, 11, .rwl, 0, false⟩]⟩,
    ⟨0x200, 16, 4, 1, 0, false, [⟨0, 16, .rwl, 0, false⟩, ⟨16, 12, .rwl, 0, false⟩, ⟨31, 1, .rwl, 0, false⟩]⟩,
    ⟨0x240, 16, 4, 1, 0, false, [⟨0, 16, .rwl, 0, false⟩, ⟨16, 12, .rwl, 0, false⟩, ⟨31, 1, .rwl, 0, false⟩]⟩]

/-- Words of the tpl page: 07_control_law_templates.md R177. -/
def regs_tpl : List RWord :=
  [
    ⟨0x010, 1, 0, 1, 0, false, [⟨0, 1, .ro, 0, false⟩, ⟨1, 1, .w1c, 0, false⟩, ⟨2, 1, .w1c, 0, false⟩]⟩,
    ⟨0x040, 1, 0, 1, 0, false, [⟨0, 16, .rw, 0, false⟩, ⟨16, 4, .rw, 1, false⟩, ⟨20, 1, .rw, 0, false⟩]⟩,
    ⟨0x044, 1, 0, 1, 0, false, [⟨0, 32, .rc, 0, false⟩]⟩,
    ⟨0x048, 1, 0, 1, 0, false, [⟨0, 32, .rc, 0, false⟩]⟩,
    ⟨0x050, 1, 0, 1, 0, true, [⟨0, 32, .ro, 0, false⟩]⟩,
    ⟨0x054, 1, 0, 1, 0, false, [⟨0, 32, .ro, 0, false⟩]⟩,
    ⟨0x100, 4, 0x3C0, 192, 4, false, [⟨0, 32, .rwl, 0, false⟩]⟩,
    ⟨0x400, 4, 0x3C0, 1, 0, true, [⟨0, 32, .rwl, 0, false⟩]⟩,
    ⟨0x404, 4, 0x3C0, 1, 0, false, [⟨0, 32, .rwl, 0, false⟩]⟩,
    ⟨0x408, 4, 0x3C0, 1, 0, true, [⟨0, 32, .rwl, 0, false⟩]⟩,
    ⟨0x40C, 4, 0x3C0, 45, 4, false, [⟨0, 32, .rwl, 0, false⟩]⟩]

/-- Words of the jq page: 08_job_scheduling.md R200. -/
def regs_jq : List RWord :=
  [
    ⟨0x010, 1, 0, 1, 0, false, [⟨0, 1, .ro, 0, false⟩, ⟨1, 1, .w1c, 0, false⟩, ⟨2, 1, .w1c, 0, false⟩]⟩,
    ⟨0x040, 1, 0, 1, 0, false, [⟨0, 2, .rwl, 1, false⟩]⟩,
    ⟨0x048, 1, 0, 1, 0, true, [⟨0, 8, .wo, 0, false⟩]⟩,
    ⟨0x04C, 1, 0, 1, 0, false, [⟨0, 32, .wo, 0, false⟩]⟩,
    ⟨0x050, 1, 0, 1, 0, false, [⟨0, 7, .ro, 0, false⟩, ⟨8, 4, .ro, 0, false⟩, ⟨16, 8, .ro, 0, false⟩]⟩,
    ⟨0x054, 1, 0, 1, 0, false, [⟨0, 1, .wo, 0, false⟩]⟩,
    ⟨0x058, 1, 0, 1, 0, false, [⟨0, 8, .rc, 0, false⟩, ⟨8, 4, .rc, 0, false⟩, ⟨12, 1, .rc, 0, false⟩, ⟨31, 1, .rc, 0, false⟩]⟩,
    ⟨0x05C, 1, 0, 1, 0, false, [⟨0, 32, .rc, 0, false⟩]⟩,
    ⟨0x060, 1, 0, 1, 0, false, [⟨0, 32, .rc, 0, false⟩]⟩,
    ⟨0x064, 1, 0, 1, 0, false, [⟨0, 32, .rc, 0, false⟩]⟩,
    ⟨0x068, 1, 0, 1, 0, false, [⟨0, 32, .rc, 0, false⟩]⟩,
    ⟨0x06C, 1, 0, 1, 0, false, [⟨0, 32, .rc, 0, false⟩]⟩] ++
  [
    ⟨0x070, 1, 0, 1, 0, false, [⟨0, 32, .rc, 0, false⟩]⟩,
    ⟨0x074, 1, 0, 1, 0, false, [⟨0, 32, .rc, 0, false⟩]⟩,
    ⟨0x078, 1, 0, 1, 0, false, [⟨0, 32, .rc, 0, false⟩]⟩,
    ⟨0x080, 8, 4, 1, 0, false, [⟨0, 32, .rwl, 0, false⟩]⟩,
    ⟨0x100, 64, 4, 1, 0, false, [⟨0, 32, .rc, 0, false⟩]⟩]

/-- Words of the wing page: 08_job_scheduling.md R202. -/
def regs_wing : List RWord :=
  [
    ⟨0x040, 1, 0, 1, 0, false, [⟨0, 16, .rwl, 0x258, false⟩]⟩,
    ⟨0x044, 1, 0, 1, 0, false, [⟨0, 8, .ro, 0, false⟩]⟩,
    ⟨0x048, 1, 0, 1, 0, false, [⟨0, 32, .rc, 0, false⟩]⟩,
    ⟨0x04C, 1, 0, 1, 0, false, [⟨0, 6, .ro, 0, false⟩, ⟨8, 4, .ro, 0, false⟩, ⟨12, 8, .ro, 0, false⟩]⟩]

/-- Words of the mon page: 09_supervision_and_tuning.md R210. -/
def regs_mon : List RWord :=
  [
    ⟨0x010, 1, 0, 1, 0, false, [⟨0, 1, .ro, 0, false⟩, ⟨1, 1, .w1c, 0, false⟩, ⟨2, 1, .w1c, 0, false⟩]⟩,
    ⟨0x040, 1, 0, 1, 0, false, [⟨0, 4, .rw, 0, false⟩, ⟨4, 6, .rw, 0, false⟩, ⟨10, 8, .rw, 0, false⟩, ⟨18, 3, .rw, 1, false⟩]⟩,
    ⟨0x044, 1, 0, 1, 0, false, [⟨0, 16, .rwl, 0, false⟩]⟩,
    ⟨0x048, 1, 0, 1, 0, false, [⟨0, 32, .rwl, 0x80000000, false⟩]⟩,
    ⟨0x04C, 1, 0, 1, 0, false, [⟨0, 32, .rwl, 0x7fffffff, false⟩]⟩,
    ⟨0x050, 1, 0, 1, 0, false, [⟨0, 12, .rw, 0, false⟩]⟩,
    ⟨0x054, 2, 4, 1, 0, false, [⟨0, 12, .rw, 0, false⟩]⟩,
    ⟨0x060, 1, 0, 1, 0, false, [⟨0, 3, .rw, 0, true⟩]⟩,
    ⟨0x078, 1, 0, 1, 0, false, [⟨0, 16, .ro, 0, false⟩, ⟨16, 16, .ro, 0, false⟩]⟩,
    ⟨0x07C, 1, 0, 1, 0, false, [⟨0, 16, .ro, 0, false⟩, ⟨16, 15, .ro, 0, false⟩, ⟨31, 1, .ro, 0, false⟩]⟩,
    ⟨0x080, 1, 0, 1, 0, false, [⟨0, 32, .ro, 0, false⟩]⟩,
    ⟨0x084, 1, 0, 1, 0, false, [⟨0, 32, .ro, 0, false⟩]⟩] ++
  [
    ⟨0x090, 1, 0, 1, 0, false, [⟨0, 32, .rc, 0, false⟩]⟩,
    ⟨0x094, 1, 0, 1, 0, false, [⟨0, 32, .rc, 0, false⟩]⟩,
    ⟨0x098, 1, 0, 1, 0, false, [⟨0, 32, .rc, 0, false⟩]⟩,
    ⟨0x100, 16, 4, 1, 0, false, [⟨0, 32, .rwl, 0, false⟩]⟩,
    ⟨0x140, 8, 4, 1, 0, false, [⟨0, 32, .rwl, 0, false⟩]⟩,
    ⟨0x1A0, 4, 4, 1, 0, false, [⟨0, 32, .rwl, 0, false⟩]⟩,
    ⟨0x068, 1, 0, 1, 0, true, [⟨0, 32, .ro, 0, false⟩]⟩,
    ⟨0x06C, 1, 0, 1, 0, false, [⟨0, 32, .ro, 0, false⟩]⟩,
    ⟨0x070, 1, 0, 1, 0, true, [⟨0, 32, .ro, 0, false⟩]⟩,
    ⟨0x074, 1, 0, 1, 0, false, [⟨0, 32, .ro, 0, false⟩]⟩,
    ⟨0x088, 1, 0, 1, 0, true, [⟨0, 32, .ro, 0, false⟩]⟩,
    ⟨0x08C, 1, 0, 1, 0, false, [⟨0, 32, .ro, 0, false⟩]⟩] ++
  [
    ⟨0x160, 4, 4, 1, 0, false, [⟨0, 32, .rwl, 0, false⟩]⟩,
    ⟨0x170, 2, 4, 1, 0, false, [⟨0, 32, .rwl, 0, false⟩]⟩,
    ⟨0x180, 4, 4, 1, 0, false, [⟨0, 32, .rwl, 0, false⟩]⟩,
    ⟨0x190, 1, 0, 1, 0, false, [⟨0, 32, .rwl, 0, false⟩]⟩]

/-- Words of the inj page: 09_supervision_and_tuning.md R213. -/
def regs_inj : List RWord :=
  [
    ⟨0x010, 1, 0, 1, 0, false, [⟨0, 1, .ro, 0, false⟩, ⟨1, 1, .w1c, 0, false⟩]⟩,
    ⟨0x040, 1, 0, 1, 0, false, [⟨0, 3, .rw, 0, false⟩, ⟨3, 2, .rw, 0, false⟩, ⟨5, 4, .rw, 1, false⟩, ⟨9, 3, .rw, 0, false⟩, ⟨12, 12, .rw, 0, false⟩, ⟨24, 8, .rw, 0, false⟩]⟩,
    ⟨0x044, 1, 0, 1, 0, false, [⟨0, 7, .rw, 0, false⟩, ⟨8, 7, .rw, 0, false⟩]⟩,
    ⟨0x048, 1, 0, 1, 0, false, [⟨0, 32, .rw, 0, false⟩]⟩,
    ⟨0x058, 1, 0, 1, 0, false, [⟨0, 32, .rw, 0, false⟩]⟩,
    ⟨0x05C, 1, 0, 1, 0, false, [⟨0, 32, .rw, 0, false⟩]⟩,
    ⟨0x060, 1, 0, 1, 0, false, [⟨0, 32, .rwl, 0, false⟩]⟩,
    ⟨0x064, 1, 0, 1, 0, false, [⟨0, 32, .rwl, 0, false⟩]⟩,
    ⟨0x074, 1, 0, 1, 0, false, [⟨0, 5, .rw, 7, false⟩, ⟨8, 16, .rw, 1, false⟩]⟩,
    ⟨0x078, 1, 0, 1, 0, false, [⟨0, 16, .rw, 0, false⟩, ⟨16, 16, .rw, 1, false⟩]⟩,
    ⟨0x080, 1, 0, 1, 0, false, [⟨0, 32, .ro, 0, false⟩]⟩,
    ⟨0x084, 1, 0, 1, 0, false, [⟨0, 32, .ro, 0, false⟩]⟩] ++
  [
    ⟨0x088, 1, 0, 1, 0, false, [⟨0, 32, .ro, 0, false⟩]⟩,
    ⟨0x050, 1, 0, 1, 0, true, [⟨0, 32, .rw, 0, false⟩]⟩,
    ⟨0x054, 1, 0, 1, 0, false, [⟨0, 32, .rw, 0, false⟩]⟩,
    ⟨0x068, 1, 0, 1, 0, false, [⟨0, 32, .rw, 0, false⟩]⟩,
    ⟨0x06C, 1, 0, 1, 0, false, [⟨0, 32, .rw, 0, false⟩]⟩,
    ⟨0x070, 1, 0, 1, 0, false, [⟨0, 32, .rw, 0, false⟩]⟩]

/-- Words of the cap page: 09_supervision_and_tuning.md R217. -/
def regs_cap : List RWord :=
  [
    ⟨0x010, 1, 0, 1, 0, false, [⟨0, 1, .ro, 0, false⟩, ⟨1, 1, .ro, 0, false⟩, ⟨2, 1, .w1c, 0, false⟩, ⟨3, 1, .w1c, 0, false⟩]⟩,
    ⟨0x040, 1, 0, 1, 0, false, [⟨0, 8, .rw, 0, false⟩, ⟨8, 5, .rw, 1, false⟩, ⟨13, 1, .rw, 0, false⟩, ⟨14, 3, .rw, 0, false⟩]⟩,
    ⟨0x044, 1, 0, 1, 0, false, [⟨0, 16, .rw, 0, false⟩]⟩,
    ⟨0x050, 1, 0, 1, 0, false, [⟨0, 5, .rw, 0xc, false⟩]⟩,
    ⟨0x054, 1, 0, 1, 0, false, [⟨0, 16, .rw, 0, false⟩, ⟨16, 4, .rw, 0, false⟩, ⟨20, 1, .rw, 0, false⟩]⟩,
    ⟨0x058, 1, 0, 1, 0, false, [⟨0, 32, .ro, 0, false⟩]⟩,
    ⟨0x05C, 1, 0, 1, 0, false, [⟨0, 32, .ro, 0, false⟩]⟩,
    ⟨0x060, 1, 0, 1, 0, false, [⟨0, 32, .rc, 0, false⟩]⟩,
    ⟨0x064, 1, 0, 1, 0, false, [⟨0, 32, .ro, 0, false⟩]⟩,
    ⟨0x100, 16, 4, 1, 0, false, [⟨0, 17, .rw, 0, false⟩]⟩,
    ⟨0x048, 1, 0, 1, 0, true, [⟨0, 32, .rw, 0, false⟩]⟩,
    ⟨0x04C, 1, 0, 1, 0, false, [⟨0, 32, .rw, 0, false⟩]⟩]

/-- Words of the pwm page: 10_pwm_generation.md R242. -/
def regs_pwm : List RWord :=
  [
    ⟨0x010, 1, 0, 1, 0, false, [⟨0, 1, .ro, 0, false⟩, ⟨1, 1, .ro, 0, false⟩, ⟨2, 1, .ro, 0, false⟩, ⟨3, 1, .ro, 0, false⟩, ⟨4, 1, .w1c, 0, false⟩, ⟨5, 1, .w1c, 0, false⟩, ⟨6, 1, .w1c, 0, false⟩, ⟨7, 1, .w1c, 0, false⟩, ⟨8, 1, .ro, 0, false⟩]⟩,
    ⟨0x040, 1, 0, 1, 0, false, [⟨0, 1, .rw, 0, false⟩, ⟨1, 1, .rw, 0, false⟩, ⟨2, 2, .rw, 0, false⟩, ⟨4, 1, .rw, 0, false⟩, ⟨5, 1, .rw, 0, false⟩, ⟨6, 1, .rw, 0, false⟩, ⟨7, 1, .rw, 0, false⟩, ⟨8, 2, .rw, 0, false⟩]⟩,
    ⟨0x044, 1, 0, 1, 0, false, [⟨0, 32, .rwl, 0, false⟩]⟩,
    ⟨0x048, 1, 0, 1, 0, false, [⟨0, 32, .rwl, 0xffffffff, false⟩]⟩,
    ⟨0x04C, 1, 0, 1, 0, false, [⟨0, 32, .rwl, 0xffffffff, false⟩]⟩,
    ⟨0x050, 1, 0, 1, 0, false, [⟨0, 32, .rwl, 0, false⟩]⟩,
    ⟨0x054, 1, 0, 1, 0, false, [⟨0, 24, .rw, 0x10, false⟩]⟩,
    ⟨0x058, 1, 0, 1, 0, false, [⟨0, 24, .rw, 0x10, false⟩]⟩,
    ⟨0x05C, 1, 0, 1, 0, false, [⟨0, 7, .rwl, 0, false⟩, ⟨8, 7, .rwl, 0, false⟩]⟩,
    ⟨0x060, 1, 0, 1, 0, false, [⟨0, 32, .ro, 0, false⟩]⟩,
    ⟨0x064, 1, 0, 1, 0, false, [⟨0, 32, .ro, 0, false⟩]⟩,
    ⟨0x068, 1, 0, 1, 0, false, [⟨0, 32, .ro, 0xffffffff, false⟩]⟩] ++
  [
    ⟨0x06C, 1, 0, 1, 0, false, [⟨0, 32, .ro, 0xffffffff, false⟩]⟩,
    ⟨0x070, 1, 0, 1, 0, false, [⟨0, 1, .ro, 0, false⟩, ⟨1, 1, .ro, 0, false⟩, ⟨2, 1, .ro, 0, false⟩, ⟨3, 1, .ro, 0, false⟩, ⟨4, 1, .ro, 0, false⟩]⟩,
    ⟨0x074, 1, 0, 1, 0, false, [⟨0, 32, .rc, 0, false⟩]⟩,
    ⟨0x078, 1, 0, 1, 0, false, [⟨0, 32, .rc, 0, false⟩]⟩,
    ⟨0x07C, 1, 0, 1, 0, false, [⟨0, 32, .rc, 0, false⟩]⟩,
    ⟨0x080, 1, 0, 1, 0, false, [⟨0, 1, .rw, 0, true⟩, ⟨1, 2, .rwl, 0, true⟩]⟩]

/-- Words of the cmp page: 11_comparators_and_shutter_matrix.md R250. -/
def regs_cmp : List RWord :=
  [
    ⟨0x010, 1, 0, 1, 0, false, [⟨0, 6, .ro, 0, false⟩]⟩,
    ⟨0x040, 6, 8, 1, 0, false, [⟨0, 1, .rw, 0, false⟩, ⟨1, 2, .rw, 0, false⟩, ⟨3, 1, .rw, 0, false⟩, ⟨4, 4, .rw, 1, false⟩, ⟨8, 4, .rw, 1, false⟩, ⟨12, 4, .rw, 0, false⟩, ⟨16, 1, .rw, 0, false⟩, ⟨17, 3, .rw, 0, false⟩]⟩,
    ⟨0x044, 6, 8, 1, 0, false, [⟨0, 12, .rwl, 0, false⟩]⟩,
    ⟨0x070, 1, 0, 1, 0, false, [⟨0, 12, .rwl, 0x555, false⟩]⟩,
    ⟨0x074, 1, 0, 1, 0, false, [⟨0, 6, .ro, 0, false⟩, ⟨8, 6, .ro, 0, false⟩]⟩,
    ⟨0x078, 1, 0, 1, 0, false, [⟨0, 6, .w1c, 0, false⟩]⟩,
    ⟨0x080, 6, 8, 1, 0, true, [⟨0, 32, .ro, 0, false⟩]⟩,
    ⟨0x084, 6, 8, 1, 0, false, [⟨0, 32, .ro, 0, false⟩]⟩]

/-- Words of the group page: 11_comparators_and_shutter_matrix.md R262. -/
def regs_group : List RWord :=
  [
    ⟨0x010, 1, 0, 1, 0, false, [⟨0, 1, .ro, 0, false⟩, ⟨1, 1, .ro, 0, false⟩, ⟨2, 1, .ro, 1, false⟩, ⟨3, 1, .ro, 0, false⟩, ⟨4, 1, .ro, 0, false⟩, ⟨5, 1, .w1c, 0, false⟩, ⟨6, 1, .w1c, 0, false⟩]⟩,
    ⟨0x048, 12, 4, 1, 0, false, [⟨0, 32, .rw, 0, false⟩]⟩,
    ⟨0x080, 1, 0, 1, 0, false, [⟨0, 24, .rw, 0, false⟩]⟩,
    ⟨0x084, 1, 0, 1, 0, false, [⟨0, 5, .rw, 0, false⟩, ⟨5, 16, .rw, 0, false⟩, ⟨21, 1, .rw, 0, false⟩]⟩,
    ⟨0x088, 8, 4, 1, 0, false, [⟨0, 9, .rw, 0, true⟩, ⟨31, 1, .rw, 0, true⟩]⟩,
    ⟨0x0A8, 1, 0, 1, 0, false, [⟨0, 4, .rw, 1, true⟩]⟩,
    ⟨0x0AC, 1, 0, 1, 0, false, [⟨0, 1, .wo, 0, false⟩]⟩,
    ⟨0x0B0, 1, 0, 1, 0, false, [⟨0, 10, .ro, 0, false⟩, ⟨30, 1, .ro, 0, false⟩, ⟨31, 1, .ro, 0, false⟩]⟩,
    ⟨0x0C0, 1, 0, 1, 0, false, [⟨0, 4, .rc, 0, false⟩, ⟨4, 10, .rc, 0, false⟩, ⟨31, 1, .rc, 0, false⟩]⟩,
    ⟨0x0C4, 1, 0, 1, 0, false, [⟨0, 32, .rc, 0, false⟩]⟩,
    ⟨0x040, 1, 0, 1, 0, false, [⟨0, 32, .rw, 0, false⟩]⟩,
    ⟨0x044, 1, 0, 1, 0, false, [⟨0, 32, .rw, 0, false⟩]⟩] ++
  [
    ⟨0x078, 1, 0, 1, 0, false, [⟨0, 32, .rw, 0, false⟩]⟩,
    ⟨0x07C, 1, 0, 1, 0, false, [⟨0, 32, .rw, 0, false⟩]⟩,
    ⟨0x0B8, 1, 0, 1, 0, true, [⟨0, 32, .ro, 0, false⟩]⟩,
    ⟨0x0BC, 1, 0, 1, 0, false, [⟨0, 32, .ro, 0, false⟩]⟩]

/-- Words of the cassrc page: 11_comparators_and_shutter_matrix.md R263. -/
def regs_cassrc : List RWord :=
  [
    ⟨0x040, 1, 0, 1, 0, false, [⟨0, 24, .rw, 0, false⟩]⟩,
    ⟨0x044, 6, 4, 1, 0, false, [⟨0, 5, .rw, 0, false⟩, ⟨8, 2, .rw, 0, false⟩, ⟨10, 2, .rw, 0, false⟩]⟩,
    ⟨0x060, 64, 4, 1, 0, false, [⟨0, 5, .rw, 0, false⟩, ⟨8, 2, .rw, 0, false⟩]⟩,
    ⟨0x160, 1, 0, 1, 0, false, [⟨0, 24, .ro, 0, false⟩]⟩]

/-- Words of the adc page: 12_adc_and_sigma_delta.md R270. -/
def regs_adc : List RWord :=
  [
    ⟨0x010, 1, 0, 1, 0, false, [⟨0, 1, .ro, 0, false⟩, ⟨1, 1, .w1c, 0, false⟩, ⟨2, 1, .w1c, 0, false⟩, ⟨3, 1, .w1c, 0, false⟩]⟩,
    ⟨0x040, 1, 0, 1, 0, false, [⟨0, 3, .rw, 0, false⟩]⟩,
    ⟨0x044, 1, 0, 1, 0, false, [⟨0, 2, .rw, 1, false⟩, ⟨2, 2, .rw, 0, false⟩, ⟨4, 2, .rw, 0, false⟩, ⟨6, 2, .rw, 0, false⟩]⟩,
    ⟨0x048, 2, 4, 1, 0, false, [⟨0, 1, .rw, 0, false⟩, ⟨1, 3, .rw, 0, false⟩, ⟨4, 2, .rw, 0, false⟩, ⟨6, 2, .rw, 0, false⟩, ⟨8, 8, .rw, 0, false⟩]⟩,
    ⟨0x050, 3, 8, 1, 0, false, [⟨0, 32, .rwl, 0x10000000, false⟩]⟩,
    ⟨0x054, 3, 8, 1, 0, false, [⟨0, 32, .rwl, 0, false⟩]⟩,
    ⟨0x070, 3, 4, 1, 0, false, [⟨0, 32, .ro, 0, false⟩]⟩,
    ⟨0x080, 3, 8, 1, 0, true, [⟨0, 32, .ro, 0, false⟩]⟩,
    ⟨0x084, 3, 8, 1, 0, false, [⟨0, 32, .ro, 0, false⟩]⟩,
    ⟨0x098, 1, 0, 1, 0, false, [⟨0, 32, .rc, 0, false⟩]⟩,
    ⟨0x09C, 1, 0, 1, 0, false, [⟨0, 32, .rc, 0, false⟩]⟩]

/-- Words of the sd page: 12_adc_and_sigma_delta.md R278. -/
def regs_sd : List RWord :=
  [
    ⟨0x010, 1, 0, 1, 0, false, [⟨0, 6, .ro, 0, false⟩, ⟨6, 6, .w1c, 0, false⟩]⟩,
    ⟨0x040, 2, 4, 1, 0, false, [⟨0, 1, .rw, 0, false⟩, ⟨1, 10, .rw, 0xf, false⟩, ⟨11, 1, .rw, 0, false⟩, ⟨12, 3, .rw, 0, false⟩]⟩,
    ⟨0x080, 6, 32, 1, 0, false, [⟨0, 1, .rw, 0, false⟩, ⟨1, 1, .rw, 0, false⟩, ⟨2, 10, .rw, 0, false⟩, ⟨12, 1, .rw, 0, false⟩, ⟨13, 3, .rw, 0, false⟩, ⟨16, 8, .rw, 0, false⟩]⟩,
    ⟨0x084, 6, 32, 1, 0, false, [⟨0, 9, .rw, 0x40, false⟩]⟩,
    ⟨0x088, 6, 32, 1, 0, false, [⟨0, 32, .rwl, 0x10000000, false⟩]⟩,
    ⟨0x08C, 6, 32, 1, 0, false, [⟨0, 32, .rwl, 0, false⟩]⟩,
    ⟨0x090, 6, 32, 1, 0, false, [⟨0, 1, .rw, 0, false⟩, ⟨1, 1, .rw, 0, false⟩, ⟨2, 2, .rw, 0, false⟩, ⟨4, 1, .rw, 0, false⟩, ⟨5, 4, .rw, 0, false⟩]⟩,
    ⟨0x094, 6, 32, 1, 0, false, [⟨0, 32, .rwl, 0x7fffffff, false⟩]⟩,
    ⟨0x098, 6, 32, 1, 0, false, [⟨0, 32, .rwl, 0x80000000, false⟩]⟩,
    ⟨0x09C, 6, 32, 1, 0, false, [⟨0, 32, .ro, 0, false⟩]⟩,
    ⟨0x140, 6, 8, 1, 0, true, [⟨0, 32, .ro, 0, false⟩]⟩,
    ⟨0x144, 6, 8, 1, 0, false, [⟨0, 32, .ro, 0, false⟩]⟩] ++
  [
    ⟨0x170, 1, 0, 1, 0, false, [⟨0, 6, .ro, 0, false⟩, ⟨8, 6, .ro, 0, false⟩]⟩]

/-- Words of the timer page: 13_timers_capture_watchdogs.md R286. -/
def regs_timer : List RWord :=
  [
    ⟨0x100, 8, 64, 1, 0, false, [⟨0, 2, .rw, 0, false⟩, ⟨2, 3, .rw, 0, false⟩, ⟨5, 1, .rw, 0, false⟩, ⟨6, 2, .rw, 1, false⟩, ⟨8, 2, .rw, 0, false⟩, ⟨10, 4, .rw, 0, false⟩, ⟨14, 4, .rw, 0, false⟩, ⟨18, 8, .rw, 0, false⟩, ⟨26, 1, .rw, 0, false⟩, ⟨27, 3, .rw, 0, false⟩]⟩,
    ⟨0x108, 8, 64, 1, 0, true, [⟨0, 32, .rwl, 0, false⟩]⟩,
    ⟨0x10C, 8, 64, 1, 0, false, [⟨0, 32, .rwl, 0, false⟩]⟩,
    ⟨0x110, 8, 64, 1, 0, false, [⟨0, 32, .rwl, 0, false⟩]⟩,
    ⟨0x118, 8, 64, 1, 0, true, [⟨0, 32, .rwl, 0, false⟩]⟩,
    ⟨0x11C, 8, 64, 1, 0, false, [⟨0, 32, .rwl, 0, false⟩]⟩,
    ⟨0x120, 8, 64, 1, 0, true, [⟨0, 32, .ro, 0, false⟩]⟩,
    ⟨0x124, 8, 64, 1, 0, false, [⟨0, 32, .ro, 0, false⟩]⟩,
    ⟨0x128, 8, 64, 1, 0, false, [⟨0, 1, .ro, 0, false⟩, ⟨1, 1, .ro, 0, false⟩, ⟨2, 1, .w1c, 0, false⟩, ⟨3, 1, .w1c, 0, false⟩, ⟨4, 1, .w1c, 0, false⟩, ⟨5, 1, .ro, 0, false⟩]⟩]

/-- Words of the enc page: 13_timers_capture_watchdogs.md R290. -/
def regs_enc : List RWord :=
  [
    ⟨0x010, 1, 0, 1, 0, false, [⟨0, 1, .w1c, 0, false⟩, ⟨1, 1, .w1c, 0, false⟩, ⟨2, 1, .ro, 0, false⟩]⟩,
    ⟨0x040, 1, 0, 1, 0, false, [⟨0, 2, .rw, 0, false⟩, ⟨2, 1, .rw, 0, false⟩, ⟨3, 4, .rw, 0, false⟩, ⟨7, 4, .rw, 0, false⟩, ⟨11, 2, .rw, 0, false⟩, ⟨13, 1, .rw, 0, false⟩, ⟨14, 6, .rw, 0, false⟩, ⟨20, 1, .rw, 0, false⟩]⟩,
    ⟨0x044, 1, 0, 1, 0, false, [⟨0, 32, .rwl, 0, false⟩]⟩,
    ⟨0x048, 1, 0, 1, 0, false, [⟨0, 32, .wo, 0, false⟩]⟩,
    ⟨0x04C, 1, 0, 1, 0, false, [⟨0, 32, .ro, 0, false⟩]⟩,
    ⟨0x050, 1, 0, 1, 0, false, [⟨0, 32, .ro, 0, false⟩]⟩,
    ⟨0x054, 1, 0, 1, 0, false, [⟨0, 32, .ro, 0, false⟩]⟩,
    ⟨0x058, 1, 0, 1, 0, true, [⟨0, 32, .ro, 0, false⟩]⟩,
    ⟨0x05C, 1, 0, 1, 0, false, [⟨0, 32, .ro, 0, false⟩]⟩,
    ⟨0x060, 1, 0, 1, 0, true, [⟨0, 32, .ro, 0, false⟩]⟩,
    ⟨0x064, 1, 0, 1, 0, false, [⟨0, 32, .ro, 0, false⟩]⟩,
    ⟨0x068, 1, 0, 1, 0, false, [⟨0, 32, .ro, 0xffffffff, false⟩]⟩] ++
  [
    ⟨0x06C, 1, 0, 1, 0, false, [⟨0, 32, .rc, 0, false⟩]⟩]

/-- Words of the wd page: 13_timers_capture_watchdogs.md R295. -/
def regs_wd : List RWord :=
  [
    ⟨0x010, 1, 0, 1, 0, false, [⟨0, 1, .ro, 0, false⟩, ⟨1, 1, .ro, 0, false⟩, ⟨2, 1, .w1c, 0, false⟩]⟩,
    ⟨0x040, 1, 0, 1, 0, false, [⟨0, 2, .rw, 0, false⟩, ⟨2, 2, .rw, 0, false⟩, ⟨4, 8, .rw, 0, false⟩, ⟨12, 3, .rw, 0, false⟩]⟩,
    ⟨0x044, 1, 0, 1, 0, false, [⟨0, 24, .rw, 0, false⟩]⟩,
    ⟨0x048, 1, 0, 1, 0, false, [⟨0, 24, .rw, 1, false⟩]⟩,
    ⟨0x04C, 1, 0, 1, 0, false, [⟨0, 32, .wo, 0, false⟩]⟩,
    ⟨0x050, 1, 0, 1, 0, false, [⟨0, 1, .wo, 0, false⟩]⟩,
    ⟨0x054, 1, 0, 1, 0, false, [⟨0, 32, .ro, 0, false⟩]⟩,
    ⟨0x058, 1, 0, 1, 0, false, [⟨0, 32, .rc, 0, false⟩]⟩,
    ⟨0x05C, 1, 0, 1, 0, false, [⟨0, 32, .rc, 0, false⟩]⟩]

/-- Words of the tlc page: 14_threshold_links.md R324. -/
def regs_tlc : List RWord :=
  [
    ⟨0x010, 1, 0, 1, 0, false, [⟨0, 3, .ro, 0, false⟩, ⟨3, 1, .ro, 0, false⟩, ⟨4, 1, .ro, 0, false⟩, ⟨5, 1, .w1c, 0, false⟩, ⟨6, 1, .w1c, 0, false⟩]⟩,
    ⟨0x040, 1, 0, 1, 0, false, [⟨0, 16, .rw, 0x1770, false⟩, ⟨16, 8, .rw, 4, false⟩, ⟨24, 1, .rw, 0, false⟩, ⟨25, 2, .rw, 0, false⟩, ⟨27, 3, .rw, 0, false⟩]⟩,
    ⟨0x044, 1, 0, 1, 0, false, [⟨0, 24, .rwl, 0x708, false⟩]⟩,
    ⟨0x048, 1, 0, 1, 0, true, [⟨0, 32, .rwl, 0, false⟩]⟩,
    ⟨0x04C, 1, 0, 1, 0, false, [⟨0, 32, .rwl, 0, false⟩]⟩,
    ⟨0x050, 1, 0, 1, 0, false, [⟨0, 32, .rwl, 0xe10, false⟩]⟩,
    ⟨0x054, 1, 0, 1, 0, false, [⟨0, 6, .rwl, 0, false⟩]⟩,
    ⟨0x058, 1, 0, 1, 0, false, [⟨0, 7, .ro, 0, false⟩]⟩,
    ⟨0x080, 8, 4, 1, 0, false, [⟨0, 32, .rwl, 0, false⟩]⟩,
    ⟨0x0C0, 16, 4, 1, 0, false, [⟨0, 32, .ro, 0, false⟩]⟩,
    ⟨0x100, 1, 0, 1, 0, true, [⟨0, 32, .ro, 0, false⟩]⟩,
    ⟨0x104, 1, 0, 1, 0, false, [⟨0, 32, .ro, 0, false⟩]⟩] ++
  [
    ⟨0x108, 1, 0, 1, 0, true, [⟨0, 32, .ro, 0, false⟩]⟩,
    ⟨0x10C, 1, 0, 1, 0, false, [⟨0, 32, .ro, 0, false⟩]⟩,
    ⟨0x200, 64, 4, 1, 0, false, [⟨0, 32, .ro, 0, false⟩]⟩]

/-- Words of the tlnb page: 14_threshold_links.md R325. -/
def regs_tlnb : List RWord :=
  [
    ⟨0x040, 1, 0, 1, 0, false, [⟨0, 16, .ro, 0, false⟩, ⟨16, 8, .ro, 0, false⟩, ⟨24, 8, .ro, 0, false⟩]⟩,
    ⟨0x048, 1, 0, 1, 0, true, [⟨0, 32, .ro, 0, false⟩]⟩,
    ⟨0x04C, 1, 0, 1, 0, false, [⟨0, 32, .ro, 0, false⟩]⟩,
    ⟨0x050, 1, 0, 1, 0, false, [⟨0, 16, .ro, 0, false⟩, ⟨16, 8, .ro, 0, false⟩, ⟨31, 1, .ro, 0, false⟩]⟩,
    ⟨0x054, 1, 0, 1, 0, false, [⟨0, 6, .rwl, 0, false⟩, ⟨6, 7, .rwl, 0, false⟩, ⟨13, 8, .rwl, 3, false⟩]⟩,
    ⟨0x058, 1, 0, 1, 0, true, [⟨0, 32, .rwl, 0, false⟩]⟩,
    ⟨0x05C, 1, 0, 1, 0, false, [⟨0, 32, .rwl, 0, false⟩]⟩,
    ⟨0x060, 1, 0, 1, 0, false, [⟨0, 1, .wo, 0, false⟩, ⟨1, 1, .wo, 0, false⟩, ⟨2, 1, .wo, 0, false⟩]⟩,
    ⟨0x064, 1, 0, 1, 0, false, [⟨0, 4, .ro, 0, false⟩, ⟨4, 1, .ro, 0, false⟩, ⟨5, 1, .ro, 0, false⟩]⟩,
    ⟨0x068, 1, 0, 1, 0, true, [⟨0, 32, .ro, 0, false⟩]⟩,
    ⟨0x06C, 1, 0, 1, 0, false, [⟨0, 32, .ro, 0, false⟩]⟩,
    ⟨0x070, 1, 0, 1, 0, true, [⟨0, 32, .ro, 0, false⟩]⟩] ++
  [
    ⟨0x074, 1, 0, 1, 0, false, [⟨0, 8, .ro, 0, false⟩]⟩]

/-- Words of the ferr page: 16_sahxel_pipeline_and_caches.md R370. -/
def regs_ferr : List RWord :=
  [
    ⟨0x040, 1, 0, 1, 0, false, [⟨0, 32, .rc, 0, false⟩]⟩,
    ⟨0x044, 1, 0, 1, 0, false, [⟨0, 32, .rc, 0, false⟩]⟩,
    ⟨0x048, 1, 0, 1, 0, true, [⟨0, 32, .ro, 0, false⟩]⟩,
    ⟨0x04C, 1, 0, 1, 0, false, [⟨0, 32, .ro, 0, false⟩]⟩,
    ⟨0x050, 5, 8, 1, 0, false, [⟨0, 32, .rc, 0, false⟩]⟩,
    ⟨0x054, 5, 8, 1, 0, false, [⟨0, 16, .rc, 0, false⟩, ⟨16, 16, .rc, 0, false⟩]⟩]

/-- Words of the intc page: 17_capabilities_and_exceptions.md R393, 19_lockstep_and_rollback.md R429. -/
def regs_intc : List RWord :=
  [
    ⟨0x010, 1, 0, 1, 0, false, [⟨0, 1, .ro, 1, false⟩, ⟨1, 1, .w1c, 0, false⟩]⟩,
    ⟨0x040, 1, 0, 1, 0, true, [⟨0, 32, .rw, 0, false⟩]⟩,
    ⟨0x044, 1, 0, 1, 0, false, [⟨0, 32, .rw, 0, false⟩]⟩,
    ⟨0x048, 1, 0, 1, 0, false, [⟨0, 1, .wo, 0, false⟩]⟩,
    ⟨0x04C, 1, 0, 1, 0, false, [⟨0, 3, .ro, 0, false⟩, ⟨3, 12, .ro, 0, false⟩]⟩,
    ⟨0x050, 1, 0, 1, 0, false, [⟨0, 32, .rc, 0, false⟩]⟩,
    ⟨0x054, 1, 0, 1, 0, false, [⟨0, 16, .rwl, 0x64, false⟩]⟩,
    ⟨0x058, 4, 4, 1, 0, false, [⟨0, 3, .rwl, 0, false⟩, ⟨3, 8, .rwl, 0, false⟩]⟩,
    ⟨0x100, 1, 0, 1, 0, false, [⟨0, 1, .rwl, 0, false⟩, ⟨4, 4, .rwl, 3, false⟩]⟩,
    ⟨0x108, 1, 0, 1, 0, true, [⟨0, 32, .rwl, 0x11ffb000, false⟩]⟩,
    ⟨0x10C, 1, 0, 1, 0, false, [⟨0, 32, .rwl, 0, false⟩]⟩,
    ⟨0x110, 1, 0, 1, 0, false, [⟨0, 24, .rwl, 0x3e8, false⟩]⟩] ++
  [
    ⟨0x114, 1, 0, 1, 0, false, [⟨0, 1, .ro, 0, false⟩, ⟨1, 1, .ro, 0, false⟩, ⟨2, 1, .ro, 0, false⟩, ⟨3, 1, .ro, 0, false⟩, ⟨8, 4, .ro, 0, false⟩, ⟨12, 4, .ro, 0, false⟩, ⟨16, 10, .ro, 0, false⟩]⟩,
    ⟨0x118, 1, 0, 1, 0, false, [⟨0, 32, .rc, 0, false⟩]⟩,
    ⟨0x11C, 1, 0, 1, 0, false, [⟨0, 32, .rc, 0, false⟩]⟩,
    ⟨0x120, 1, 0, 1, 0, true, [⟨0, 32, .ro, 0, false⟩]⟩,
    ⟨0x124, 1, 0, 1, 0, false, [⟨0, 32, .ro, 0, false⟩]⟩,
    ⟨0x128, 1, 0, 1, 0, false, [⟨0, 32, .ro, 0, false⟩]⟩,
    ⟨0x12C, 1, 0, 1, 0, false, [⟨0, 11, .rc, 0, false⟩, ⟨31, 1, .rc, 0, false⟩]⟩]

/-- Words of the intsrc page: 17_capabilities_and_exceptions.md R393. -/
def regs_intsrc : List RWord :=
  [
    ⟨0x040, 512, 4, 1, 0, false, [⟨0, 3, .rwl, 0, false⟩, ⟨3, 8, .rwl, 0, false⟩, ⟨11, 1, .w1c, 0, false⟩]⟩]

/-- Words of the hbm page: 20_hbm_memory_and_codes.md R448. -/
def regs_hbm : List RWord :=
  [
    ⟨0x040, 1, 0, 1, 0, false, [⟨0, 2, .rwl, 0, false⟩, ⟨2, 1, .wo, 0, false⟩]⟩,
    ⟨0x044, 1, 0, 1, 0, false, [⟨0, 8, .ro, 0, false⟩, ⟨8, 2, .ro, 0, false⟩]⟩,
    ⟨0x048, 1, 0, 1, 0, false, [⟨0, 6, .ro, 0, false⟩]⟩,
    ⟨0x04C, 1, 0, 1, 0, false, [⟨0, 10, .rwl, 0xa, false⟩]⟩,
    ⟨0x050, 1, 0, 1, 0, true, [⟨0, 32, .rwl, 0, false⟩]⟩,
    ⟨0x054, 1, 0, 1, 0, false, [⟨0, 32, .rwl, 0, false⟩]⟩,
    ⟨0x058, 1, 0, 1, 0, false, [⟨0, 24, .rwl, 0, false⟩]⟩,
    ⟨0x05C, 1, 0, 1, 0, false, [⟨0, 1, .wo, 0, false⟩]⟩]

/-- Words of the code page: 20_hbm_memory_and_codes.md R448. -/
def regs_code : List RWord :=
  [
    ⟨0x044, 3, 4, 1, 0, false, [⟨0, 15, .rw, 0, false⟩]⟩,
    ⟨0x050, 1, 0, 1, 0, false, [⟨0, 8, .rw, 0x55, false⟩]⟩,
    ⟨0x060, 4, 8, 1, 0, true, [⟨0, 32, .ro, 0, false⟩]⟩,
    ⟨0x064, 4, 8, 1, 0, false, [⟨0, 32, .ro, 0, false⟩]⟩]

/-- Words of the scrub page: 20_hbm_memory_and_codes.md R450. -/
def regs_scrub : List RWord :=
  [
    ⟨0x040, 1, 0, 1, 0, false, [⟨0, 1, .rwl, 0, false⟩, ⟨1, 8, .rwl, 0x18, false⟩]⟩,
    ⟨0x048, 1, 0, 1, 0, true, [⟨0, 32, .rwl, 0, false⟩]⟩,
    ⟨0x04C, 1, 0, 1, 0, false, [⟨0, 32, .rwl, 0, false⟩]⟩,
    ⟨0x050, 1, 0, 1, 0, false, [⟨0, 24, .rwl, 0, false⟩]⟩,
    ⟨0x054, 1, 0, 1, 0, false, [⟨0, 1, .wo, 0, false⟩]⟩,
    ⟨0x058, 1, 0, 1, 0, false, [⟨0, 1, .ro, 0, false⟩]⟩,
    ⟨0x074, 1, 0, 1, 0, false, [⟨0, 6, .rc, 0, false⟩]⟩,
    ⟨0x078, 1, 0, 1, 0, false, [⟨0, 32, .rc, 0, false⟩]⟩,
    ⟨0x080, 1, 0, 1, 0, true, [⟨0, 32, .ro, 0, false⟩]⟩,
    ⟨0x084, 1, 0, 1, 0, false, [⟨0, 32, .ro, 0, false⟩]⟩,
    ⟨0x060, 1, 0, 1, 0, false, [⟨0, 32, .rc, 0, false⟩]⟩,
    ⟨0x064, 1, 0, 1, 0, false, [⟨0, 32, .rc, 0, false⟩]⟩] ++
  [
    ⟨0x068, 1, 0, 1, 0, false, [⟨0, 32, .rc, 0, false⟩]⟩,
    ⟨0x06C, 1, 0, 1, 0, false, [⟨0, 32, .rc, 0, false⟩]⟩,
    ⟨0x070, 1, 0, 1, 0, false, [⟨0, 32, .rc, 0, false⟩]⟩]

/-- Words of the sill page: 20_hbm_memory_and_codes.md R451. -/
def regs_sill : List RWord :=
  [
    ⟨0x040, 1, 0, 1, 0, true, [⟨0, 32, .wo, 0, false⟩]⟩,
    ⟨0x044, 1, 0, 1, 0, false, [⟨0, 32, .wo, 0, false⟩]⟩,
    ⟨0x048, 1, 0, 1, 0, false, [⟨0, 16, .ro, 0, false⟩, ⟨16, 4, .ro, 0, false⟩]⟩,
    ⟨0x04C, 1, 0, 1, 0, false, [⟨0, 5, .ro, 0, false⟩, ⟨5, 3, .ro, 0, false⟩]⟩,
    ⟨0x050, 1, 0, 1, 0, false, [⟨0, 32, .rc, 0, false⟩]⟩,
    ⟨0x054, 1, 0, 1, 0, false, [⟨0, 16, .rc, 0, false⟩, ⟨16, 8, .rc, 0, false⟩, ⟨31, 1, .rc, 0, false⟩]⟩,
    ⟨0x058, 1, 0, 1, 0, false, [⟨0, 16, .wo, 0, false⟩]⟩]

/-- Words of the pf page: 21_host_and_network_interfaces.md R456. -/
def regs_pf : List RWord :=
  [
    ⟨0x040, 1, 0, 1, 0, false, [⟨0, 12, .rwl, 0, false⟩]⟩,
    ⟨0x044, 1, 0, 1, 0, false, [⟨0, 1, .ro, 0, false⟩, ⟨1, 3, .ro, 0, false⟩, ⟨4, 3, .ro, 0, false⟩, ⟨7, 1, .ro, 0, false⟩, ⟨8, 1, .ro, 0, false⟩]⟩,
    ⟨0x048, 1, 0, 1, 0, true, [⟨0, 32, .ro, 0, false⟩]⟩,
    ⟨0x04C, 1, 0, 1, 0, false, [⟨0, 32, .ro, 0, false⟩]⟩,
    ⟨0x050, 1, 0, 1, 0, false, [⟨0, 1, .wo, 0, false⟩]⟩,
    ⟨0x080, 8, 16, 1, 0, true, [⟨0, 32, .rw, 0, false⟩]⟩,
    ⟨0x084, 8, 16, 1, 0, false, [⟨0, 32, .rw, 0, false⟩]⟩,
    ⟨0x088, 8, 16, 1, 0, false, [⟨0, 5, .rw, 0xc, false⟩, ⟨5, 1, .rw, 0, false⟩, ⟨6, 1, .rw, 0, false⟩, ⟨7, 1, .rw, 0, false⟩]⟩,
    ⟨0x100, 32, 4, 1, 0, false, [⟨0, 11, .rwl, 0, false⟩, ⟨31, 1, .rwl, 0, false⟩]⟩,
    ⟨0x180, 1, 0, 1, 0, false, [⟨0, 24, .wo, 0, false⟩]⟩]

/-- Words of the dma page: 21_host_and_network_interfaces.md R459. -/
def regs_dma : List RWord :=
  [
    ⟨0x100, 8, 32, 1, 0, true, [⟨0, 32, .rw, 0, false⟩]⟩,
    ⟨0x104, 8, 32, 1, 0, false, [⟨0, 32, .rw, 0, false⟩]⟩,
    ⟨0x108, 8, 32, 1, 0, false, [⟨0, 4, .rw, 2, false⟩, ⟨4, 1, .rw, 0, false⟩]⟩,
    ⟨0x10C, 8, 32, 1, 0, false, [⟨0, 1, .rwl, 0, false⟩]⟩,
    ⟨0x110, 8, 32, 1, 0, false, [⟨0, 12, .rwl, 0, false⟩]⟩,
    ⟨0x114, 8, 32, 1, 0, false, [⟨0, 12, .ro, 0, false⟩]⟩,
    ⟨0x118, 8, 32, 1, 0, false, [⟨0, 1, .ro, 0, false⟩, ⟨1, 1, .ro, 0, false⟩]⟩]

/-- Words of the eth page: 21_host_and_network_interfaces.md R461, 21_host_and_network_interfaces.md R463, 21_host_and_network_interfaces.md R465. -/
def regs_eth : List RWord :=
  [
    ⟨0x080, 1, 0, 1, 0, false, [⟨0, 16, .rwl, 0, false⟩]⟩,
    ⟨0x084, 1, 0, 1, 0, false, [⟨0, 16, .rwl, 0, false⟩]⟩,
    ⟨0x088, 1, 0, 1, 0, true, [⟨0, 32, .ro, 0, false⟩]⟩,
    ⟨0x08C, 1, 0, 1, 0, false, [⟨0, 32, .ro, 0, false⟩]⟩,
    ⟨0x090, 1, 0, 1, 0, false, [⟨0, 16, .rc, 0, false⟩, ⟨16, 4, .rc, 0, false⟩, ⟨20, 8, .rc, 0, false⟩, ⟨31, 1, .rc, 0, false⟩]⟩,
    ⟨0x094, 1, 0, 1, 0, false, [⟨0, 32, .rc, 0, false⟩]⟩,
    ⟨0x010, 1, 0, 1, 0, false, [⟨0, 1, .ro, 0, false⟩, ⟨1, 2, .ro, 0, false⟩]⟩,
    ⟨0x040, 1, 0, 1, 0, false, [⟨0, 1, .rw, 0, false⟩, ⟨1, 1, .rw, 0, false⟩, ⟨2, 1, .rw, 0, false⟩, ⟨3, 1, .rw, 1, false⟩, ⟨4, 2, .rw, 2, false⟩, ⟨6, 1, .rw, 0, false⟩]⟩,
    ⟨0x044, 1, 0, 1, 0, false, [⟨0, 14, .rw, 0x5ee, false⟩]⟩,
    ⟨0x048, 1, 0, 1, 0, true, [⟨0, 32, .rw, 0, false⟩]⟩,
    ⟨0x04C, 1, 0, 1, 0, false, [⟨0, 16, .rw, 0, false⟩]⟩,
    ⟨0x050, 1, 0, 1, 0, false, [⟨0, 32, .rc, 0, false⟩]⟩] ++
  [
    ⟨0x054, 1, 0, 1, 0, false, [⟨0, 32, .rc, 0, false⟩]⟩,
    ⟨0x058, 1, 0, 1, 0, false, [⟨0, 32, .rc, 0, false⟩]⟩,
    ⟨0x05C, 1, 0, 1, 0, false, [⟨0, 32, .rc, 0, false⟩]⟩,
    ⟨0x060, 1, 0, 1, 0, false, [⟨0, 5, .rwl, 0, false⟩, ⟨5, 5, .rwl, 0, false⟩, ⟨10, 2, .rwl, 0, false⟩, ⟨12, 1, .rwl, 0, false⟩, ⟨16, 16, .rwl, 0, false⟩]⟩,
    ⟨0x064, 1, 0, 1, 0, false, [⟨0, 1, .wo, 0, false⟩]⟩,
    ⟨0x068, 1, 0, 1, 0, false, [⟨0, 1, .ro, 0, false⟩, ⟨16, 16, .ro, 0, false⟩]⟩,
    ⟨0x100, 8, 16, 1, 0, true, [⟨0, 32, .rw, 0, false⟩]⟩,
    ⟨0x104, 8, 16, 1, 0, false, [⟨0, 32, .rw, 0, false⟩]⟩,
    ⟨0x108, 8, 16, 1, 0, false, [⟨0, 4, .rw, 2, false⟩, ⟨4, 1, .rwl, 0, false⟩]⟩,
    ⟨0x10C, 8, 16, 1, 0, false, [⟨0, 12, .rwl, 0, false⟩, ⟨16, 12, .ro, 0, false⟩]⟩,
    ⟨0x180, 1, 0, 1, 0, true, [⟨0, 32, .rw, 0, false⟩]⟩,
    ⟨0x184, 1, 0, 1, 0, false, [⟨0, 32, .rw, 0, false⟩]⟩] ++
  [
    ⟨0x188, 1, 0, 1, 0, false, [⟨0, 4, .rw, 2, false⟩, ⟨4, 1, .rwl, 0, false⟩, ⟨8, 8, .rw, 0x18, false⟩]⟩,
    ⟨0x18C, 1, 0, 1, 0, false, [⟨0, 12, .rwl, 0, false⟩, ⟨16, 12, .ro, 0, false⟩]⟩,
    ⟨0x1C0, 8, 4, 1, 0, false, [⟨0, 24, .rw, 0, false⟩]⟩,
    ⟨0x200, 1, 0, 1, 0, true, [⟨0, 32, .rwl, 0, false⟩]⟩,
    ⟨0x204, 1, 0, 1, 0, false, [⟨0, 32, .rwl, 0, false⟩]⟩,
    ⟨0x208, 1, 0, 1, 0, false, [⟨0, 32, .rwl, 0, false⟩]⟩,
    ⟨0x20C, 1, 0, 1, 0, false, [⟨0, 8, .rwl, 1, false⟩]⟩,
    ⟨0x210, 1, 0, 1, 0, true, [⟨0, 32, .rwl, 0, false⟩]⟩,
    ⟨0x214, 1, 0, 1, 0, false, [⟨0, 32, .rwl, 0, false⟩]⟩,
    ⟨0x218, 1, 0, 1, 0, false, [⟨0, 1, .rwl, 0, false⟩, ⟨1, 1, .wo, 0, false⟩]⟩,
    ⟨0x21C, 1, 0, 1, 0, false, [⟨0, 1, .ro, 0, false⟩, ⟨1, 1, .ro, 0, false⟩, ⟨2, 7, .ro, 0, false⟩]⟩,
    ⟨0x800, 128, 8, 1, 0, false, [⟨0, 8, .rwl, 0, false⟩]⟩] ++
  [
    ⟨0x804, 128, 8, 1, 0, false, [⟨0, 32, .rwl, 0, false⟩]⟩,
    ⟨0xC00, 128, 8, 1, 0, false, [⟨0, 8, .ro, 0, false⟩]⟩,
    ⟨0xC04, 128, 8, 1, 0, false, [⟨0, 32, .ro, 0, false⟩]⟩]

/-- Words of the can page: 21_host_and_network_interfaces.md R467. -/
def regs_can : List RWord :=
  [
    ⟨0x010, 1, 0, 1, 0, false, [⟨0, 2, .ro, 3, false⟩]⟩,
    ⟨0x040, 1, 0, 1, 0, false, [⟨0, 2, .rw, 0, false⟩, ⟨2, 1, .rw, 0, false⟩, ⟨3, 1, .rw, 0, false⟩, ⟨4, 1, .wo, 0, false⟩]⟩,
    ⟨0x044, 1, 0, 1, 0, false, [⟨0, 10, .rw, 0, false⟩, ⟨10, 8, .rw, 1, false⟩, ⟨18, 7, .rw, 0, false⟩, ⟨25, 7, .rw, 0, false⟩]⟩,
    ⟨0x048, 1, 0, 1, 0, false, [⟨0, 5, .rw, 0, false⟩, ⟨5, 5, .rw, 1, false⟩, ⟨10, 4, .rw, 0, false⟩, ⟨14, 4, .rw, 0, false⟩]⟩,
    ⟨0x04C, 1, 0, 1, 0, false, [⟨0, 7, .rw, 0, false⟩]⟩,
    ⟨0x050, 1, 0, 1, 0, false, [⟨0, 8, .ro, 0, false⟩, ⟨8, 7, .ro, 0, false⟩, ⟨15, 1, .ro, 0, false⟩, ⟨16, 3, .rc, 0, false⟩]⟩,
    ⟨0x054, 1, 0, 1, 0, false, [⟨0, 32, .w1s, 0, false⟩]⟩,
    ⟨0x058, 1, 0, 1, 0, false, [⟨0, 32, .wo, 0, false⟩]⟩,
    ⟨0x05C, 1, 0, 1, 0, false, [⟨0, 32, .w1c, 0, false⟩]⟩,
    ⟨0x060, 1, 0, 1, 0, false, [⟨0, 32, .w1c, 0, false⟩]⟩,
    ⟨0x064, 1, 0, 1, 0, false, [⟨0, 32, .rc, 0, false⟩]⟩,
    ⟨0x100, 32, 96, 1, 0, false, [⟨0, 1, .rwl, 0, false⟩, ⟨1, 1, .rwl, 0, false⟩, ⟨2, 1, .rwl, 0, false⟩, ⟨3, 1, .rwl, 0, false⟩, ⟨4, 1, .rwl, 0, false⟩, ⟨5, 1, .rwl, 0, false⟩]⟩] ++
  [
    ⟨0x104, 32, 96, 1, 0, false, [⟨0, 29, .rwl, 0, false⟩]⟩,
    ⟨0x108, 32, 96, 1, 0, false, [⟨0, 29, .rwl, 0, false⟩]⟩,
    ⟨0x10C, 32, 96, 1, 0, false, [⟨0, 4, .rwl, 0, false⟩, ⟨4, 1, .ro, 0, false⟩, ⟨5, 1, .ro, 0, false⟩, ⟨6, 1, .ro, 0, false⟩, ⟨7, 1, .ro, 0, false⟩]⟩,
    ⟨0x110, 32, 96, 1, 0, true, [⟨0, 32, .ro, 0, false⟩]⟩,
    ⟨0x114, 32, 96, 1, 0, false, [⟨0, 32, .ro, 0, false⟩]⟩,
    ⟨0x120, 32, 96, 16, 4, false, [⟨0, 32, .rwl, 0, false⟩]⟩]

/-- Words of the xspi page: 21_host_and_network_interfaces.md R469. -/
def regs_xspi : List RWord :=
  [
    ⟨0x010, 1, 0, 1, 0, false, [⟨0, 1, .ro, 0, false⟩, ⟨1, 1, .w1c, 0, false⟩, ⟨2, 1, .w1c, 0, false⟩]⟩,
    ⟨0x040, 1, 0, 1, 0, false, [⟨0, 1, .rw, 0, false⟩, ⟨1, 7, .rw, 0x3b, false⟩]⟩,
    ⟨0x044, 1, 0, 1, 0, false, [⟨0, 16, .rwl, 0, false⟩, ⟨16, 3, .rwl, 0, false⟩, ⟨19, 5, .rwl, 0, false⟩, ⟨24, 1, .rwl, 0, false⟩]⟩,
    ⟨0x048, 1, 0, 1, 0, false, [⟨0, 32, .rwl, 0, false⟩]⟩,
    ⟨0x04C, 1, 0, 1, 0, false, [⟨0, 9, .rwl, 0, false⟩]⟩,
    ⟨0x050, 1, 0, 1, 0, false, [⟨0, 1, .wo, 0, false⟩, ⟨1, 1, .wo, 0, false⟩]⟩,
    ⟨0x100, 64, 4, 1, 0, false, [⟨0, 32, .rwl, 0, false⟩]⟩]

/-- Words of the i2c page: 21_host_and_network_interfaces.md R470. -/
def regs_i2c : List RWord :=
  [
    ⟨0x010, 1, 0, 1, 0, false, [⟨0, 1, .ro, 0, false⟩, ⟨1, 1, .w1c, 0, false⟩, ⟨2, 1, .w1c, 0, false⟩, ⟨3, 1, .w1c, 0, false⟩, ⟨4, 6, .ro, 0, false⟩, ⟨10, 1, .w1c, 0, false⟩, ⟨11, 1, .w1c, 0, false⟩, ⟨12, 8, .ro, 0, false⟩]⟩,
    ⟨0x040, 1, 0, 1, 0, false, [⟨0, 1, .rw, 0, false⟩, ⟨1, 1, .rwl, 1, false⟩, ⟨2, 2, .rw, 1, false⟩]⟩,
    ⟨0x044, 1, 0, 1, 0, false, [⟨0, 7, .rwl, 0x4c, false⟩]⟩,
    ⟨0x048, 1, 0, 1, 0, false, [⟨0, 7, .rwl, 0, false⟩, ⟨7, 1, .rwl, 0, false⟩, ⟨8, 6, .rwl, 0, false⟩, ⟨14, 1, .rwl, 1, false⟩]⟩,
    ⟨0x04C, 1, 0, 1, 0, false, [⟨0, 1, .wo, 0, false⟩]⟩,
    ⟨0x080, 8, 4, 1, 0, false, [⟨0, 32, .rwl, 0, false⟩]⟩,
    ⟨0x800, 64, 4, 1, 0, false, [⟨0, 32, .rwl, 0, false⟩]⟩]

/-- Words of the dbg page: 22_vopen_debug_and_trace.md R487. -/
def regs_dbg : List RWord :=
  [
    ⟨0x000, 1, 0, 1, 0, false, [⟨0, 2, .ro, 0, false⟩, ⟨2, 1, .ro, 0, false⟩]⟩,
    ⟨0x004, 1, 0, 1, 0, false, [⟨0, 32, .ro, 0, false⟩]⟩,
    ⟨0x008, 1, 0, 1, 0, true, [⟨0, 32, .ro, 0, false⟩]⟩,
    ⟨0x00C, 1, 0, 1, 0, false, [⟨0, 32, .ro, 0, false⟩]⟩,
    ⟨0x010, 1, 0, 1, 0, false, [⟨0, 2, .ro, 0, false⟩, ⟨2, 3, .ro, 0, false⟩, ⟨5, 2, .ro, 0, false⟩]⟩,
    ⟨0x014, 1, 0, 1, 0, false, [⟨0, 11, .rw, 0, false⟩, ⟨31, 1, .rw, 0, false⟩]⟩,
    ⟨0x040, 1, 0, 1, 0, false, [⟨0, 1, .rw, 0, false⟩, ⟨1, 1, .rw, 0, false⟩, ⟨2, 1, .rw, 0, false⟩, ⟨3, 1, .ro, 0, false⟩]⟩,
    ⟨0x048, 8, 4, 1, 0, false, [⟨0, 32, .rw, 0, false⟩]⟩,
    ⟨0x080, 16, 4, 1, 0, false, [⟨0, 11, .rw, 0, false⟩, ⟨31, 1, .rw, 0, false⟩]⟩,
    ⟨0x0C0, 1, 0, 1, 0, true, [⟨0, 32, .rw, 0, false⟩]⟩,
    ⟨0x0C4, 1, 0, 1, 0, false, [⟨0, 32, .rw, 0, false⟩]⟩,
    ⟨0x0C8, 1, 0, 1, 0, false, [⟨0, 5, .rw, 0xc, false⟩]⟩] ++
  [
    ⟨0x0CC, 1, 0, 1, 0, false, [⟨0, 32, .ro, 0, false⟩]⟩,
    ⟨0x0D0, 1, 0, 1, 0, false, [⟨0, 32, .rc, 0, false⟩]⟩,
    ⟨0x0D4, 1, 0, 1, 0, false, [⟨0, 32, .rc, 0, false⟩]⟩]

/-- Words of the rst page: 03_clocks_power_reset.md R69, 02_package_and_signals.md R50. -/
def regs_rst : List RWord :=
  [
    ⟨0x040, 1, 0, 1, 0, false, [⟨0, 1, .w1s, 0, false⟩]⟩,
    ⟨0x0C0, 1, 0, 1, 0, false, [⟨0, 1, .wo, 0, false⟩, ⟨1, 1, .rwl, 0, false⟩]⟩,
    ⟨0x0C4, 1, 0, 1, 0, false, [⟨0, 1, .ro, 1, false⟩, ⟨1, 1, .ro, 1, false⟩, ⟨2, 1, .ro, 0, false⟩, ⟨3, 1, .ro, 0, false⟩, ⟨4, 1, .w1c, 0, false⟩]⟩]

/-- Words of the flt page: 11_comparators_and_shutter_matrix.md R263. -/
def regs_flt : List RWord :=
  [
    ⟨0x040, 1, 0, 1, 0, false, [⟨0, 32, .ro, 0, false⟩]⟩,
    ⟨0x044, 1, 0, 1, 0, false, [⟨0, 32, .ro, 0, false⟩]⟩,
    ⟨0x048, 1, 0, 1, 0, false, [⟨0, 32, .w1c, 0, false⟩]⟩,
    ⟨0x04C, 1, 0, 1, 0, false, [⟨0, 32, .w1c, 0, false⟩]⟩,
    ⟨0x050, 4, 4, 1, 0, false, [⟨0, 32, .rw, 0, false⟩]⟩]

/-- Words of the vt page: 11_comparators_and_shutter_matrix.md R263. -/
def regs_vt : List RWord :=
  [
    ⟨0x040, 1, 0, 1, 0, false, [⟨0, 32, .w1s, 0, false⟩]⟩,
    ⟨0x044, 1, 0, 1, 0, false, [⟨0, 32, .w1s, 0, false⟩]⟩,
    ⟨0x048, 1, 0, 1, 0, false, [⟨0, 32, .w1c, 0, false⟩]⟩,
    ⟨0x04C, 1, 0, 1, 0, false, [⟨0, 32, .w1c, 0, false⟩]⟩,
    ⟨0x050, 1, 0, 1, 0, false, [⟨0, 32, .ro, 0, false⟩]⟩,
    ⟨0x054, 1, 0, 1, 0, false, [⟨0, 32, .ro, 0, false⟩]⟩,
    ⟨0x058, 1, 0, 1, 0, false, [⟨0, 32, .rw, 0, false⟩]⟩,
    ⟨0x05C, 1, 0, 1, 0, false, [⟨0, 32, .rw, 0, false⟩]⟩,
    ⟨0x060, 1, 0, 1, 0, false, [⟨0, 24, .wo, 0, false⟩]⟩]

/-- Words of the tltt page: 14_threshold_links.md R325. -/
def regs_tltt : List RWord :=
  [
    ⟨0x040, 1, 0, 1, 0, true, [⟨0, 32, .ro, 0, false⟩]⟩,
    ⟨0x044, 1, 0, 1, 0, false, [⟨0, 32, .ro, 0, false⟩]⟩,
    ⟨0x048, 1, 0, 1, 0, true, [⟨0, 32, .ro, 0, false⟩]⟩,
    ⟨0x04C, 1, 0, 1, 0, false, [⟨0, 32, .ro, 0, false⟩]⟩,
    ⟨0x050, 1, 0, 1, 0, true, [⟨0, 32, .ro, 0, false⟩]⟩,
    ⟨0x054, 1, 0, 1, 0, false, [⟨0, 32, .ro, 0, false⟩]⟩,
    ⟨0x058, 1, 0, 1, 0, true, [⟨0, 32, .ro, 0, false⟩]⟩,
    ⟨0x05C, 1, 0, 1, 0, false, [⟨0, 32, .ro, 0, false⟩]⟩,
    ⟨0x060, 1, 0, 1, 0, false, [⟨0, 32, .ro, 0, false⟩]⟩,
    ⟨0x064, 1, 0, 1, 0, false, [⟨0, 32, .ro, 0, false⟩]⟩,
    ⟨0x068, 1, 0, 1, 0, false, [⟨0, 32, .rwl, 0, false⟩]⟩,
    ⟨0x06C, 1, 0, 1, 0, false, [⟨0, 1, .ro, 0, false⟩, ⟨1, 1, .ro, 0, false⟩]⟩] ++
  [
    ⟨0x070, 1, 0, 1, 0, false, [⟨0, 32, .rc, 0, false⟩]⟩,
    ⟨0x074, 1, 0, 1, 0, false, [⟨0, 32, .rc, 0, false⟩]⟩]

/-- Words of the tlcnt page: 14_threshold_links.md R325. -/
def regs_tlcnt : List RWord :=
  [
    ⟨0x040, 1, 0, 1, 0, false, [⟨0, 32, .rc, 0, false⟩]⟩,
    ⟨0x044, 1, 0, 1, 0, false, [⟨0, 32, .rc, 0, false⟩]⟩,
    ⟨0x048, 1, 0, 1, 0, false, [⟨0, 32, .rc, 0, false⟩]⟩,
    ⟨0x04C, 1, 0, 1, 0, false, [⟨0, 32, .rc, 0, false⟩]⟩,
    ⟨0x050, 1, 0, 1, 0, false, [⟨0, 32, .rc, 0, false⟩]⟩,
    ⟨0x054, 1, 0, 1, 0, false, [⟨0, 32, .rc, 0, false⟩]⟩,
    ⟨0x058, 1, 0, 1, 0, false, [⟨0, 32, .rc, 0, false⟩]⟩,
    ⟨0x05C, 1, 0, 1, 0, false, [⟨0, 32, .rc, 0, false⟩]⟩,
    ⟨0x060, 1, 0, 1, 0, false, [⟨0, 32, .rc, 0, false⟩]⟩,
    ⟨0x064, 1, 0, 1, 0, false, [⟨0, 32, .rc, 0, false⟩]⟩,
    ⟨0x068, 1, 0, 1, 0, false, [⟨0, 32, .rc, 0, false⟩]⟩,
    ⟨0x06C, 1, 0, 1, 0, false, [⟨0, 32, .rc, 0, false⟩]⟩] ++
  [
    ⟨0x070, 1, 0, 1, 0, false, [⟨0, 32, .rc, 0, false⟩]⟩,
    ⟨0x074, 1, 0, 1, 0, false, [⟨0, 32, .rc, 0, false⟩]⟩,
    ⟨0x078, 1, 0, 1, 0, false, [⟨0, 32, .rc, 0, false⟩]⟩]

/-- Words of the fcal page: no block registers. -/
def regs_fcal : List RWord :=
  []

/-- Words of the wdc page: no block registers. -/
def regs_wdc : List RWord :=
  []

/-- The block registers of a page kind. -/
def regsOf : PageKind → List RWord
  | .own => regs_own
  | .clk => regs_clk
  | .pwr => regs_pwr
  | .sysid => regs_sysid
  | .temp => regs_temp
  | .otp => regs_otp
  | .lintel => regs_lintel
  | .lent => regs_lent
  | .lctl => regs_lctl
  | .evf => regs_evf
  | .sash => regs_sash
  | .tpl => regs_tpl
  | .jq => regs_jq
  | .wing => regs_wing
  | .mon => regs_mon
  | .inj => regs_inj
  | .cap => regs_cap
  | .pwm => regs_pwm
  | .cmp => regs_cmp
  | .group => regs_group
  | .cassrc => regs_cassrc
  | .adc => regs_adc
  | .sd => regs_sd
  | .timer => regs_timer
  | .enc => regs_enc
  | .wd => regs_wd
  | .tlc => regs_tlc
  | .tlnb => regs_tlnb
  | .ferr => regs_ferr
  | .intc => regs_intc
  | .intsrc => regs_intsrc
  | .hbm => regs_hbm
  | .code => regs_code
  | .scrub => regs_scrub
  | .sill => regs_sill
  | .pf => regs_pf
  | .dma => regs_dma
  | .eth => regs_eth
  | .can => regs_can
  | .xspi => regs_xspi
  | .i2c => regs_i2c
  | .dbg => regs_dbg
  | .rst => regs_rst
  | .flt => regs_flt
  | .vt => regs_vt
  | .tltt => regs_tltt
  | .tlcnt => regs_tlcnt
  | .fcal => regs_fcal
  | .wdc => regs_wdc

/-- OWN_PAGE_LO.ADDR_LO. -/
def F.OWN_PAGE_LO_ADDR_LO : Fld := ⟨0x040, 0, 32⟩
/-- OWN_PAGE_HI.ADDR_HI. -/
def F.OWN_PAGE_HI_ADDR_HI : Fld := ⟨0x044, 0, 16⟩
/-- OWN_TYPE.OTYPE. -/
def F.OWN_TYPE_OTYPE : Fld := ⟨0x048, 0, 12⟩
/-- OWN_TYPE.LOCK. -/
def F.OWN_TYPE_LOCK : Fld := ⟨0x048, 31, 1⟩
/-- OWN_GO.GO. -/
def F.OWN_GO_GO : Fld := ⟨0x04C, 0, 1⟩
/-- OWN_STAT.CODE. -/
def F.OWN_STAT_CODE : Fld := ⟨0x050, 0, 16⟩
/-- PLL_STAT.ROOT_LOCK. -/
def F.PLL_STAT_ROOT_LOCK : Fld := ⟨0x040, 0, 1⟩
/-- PLL_STAT.REF_PRESENT. -/
def F.PLL_STAT_REF_PRESENT : Fld := ⟨0x040, 1, 1⟩
/-- PLL_STAT.ETH_LOCK. -/
def F.PLL_STAT_ETH_LOCK : Fld := ⟨0x040, 2, 1⟩
/-- PLL_STAT.TL0_LOCK. -/
def F.PLL_STAT_TL0_LOCK : Fld := ⟨0x040, 3, 1⟩
/-- PLL_STAT.TL1_LOCK. -/
def F.PLL_STAT_TL1_LOCK : Fld := ⟨0x040, 4, 1⟩
/-- PLL_STAT.LOSS_CNT. -/
def F.PLL_STAT_LOSS_CNT : Fld := ⟨0x040, 8, 8⟩
/-- SERDES_PLL_EN.ETH_EN. -/
def F.SERDES_PLL_EN_ETH_EN : Fld := ⟨0x044, 0, 1⟩
/-- SERDES_PLL_EN.TL0_EN. -/
def F.SERDES_PLL_EN_TL0_EN : Fld := ⟨0x044, 1, 1⟩
/-- SERDES_PLL_EN.TL1_EN. -/
def F.SERDES_PLL_EN_TL1_EN : Fld := ⟨0x044, 2, 1⟩
/-- PWR_REQ.REQ. -/
def F.PWR_REQ_REQ : Fld := ⟨0x040, 0, 31⟩
/-- PWR_STAT.ON. -/
def F.PWR_STAT_ON : Fld := ⟨0x044, 0, 31⟩
/-- PWR_STAT.AON. -/
def F.PWR_STAT_AON : Fld := ⟨0x044, 31, 1⟩
/-- PWR_TRANS.TRANS. -/
def F.PWR_TRANS_TRANS : Fld := ⟨0x048, 0, 31⟩
/-- PWR_ERR.DOMAIN. -/
def F.PWR_ERR_DOMAIN : Fld := ⟨0x04C, 0, 5⟩
/-- PWR_ERR.CODE. -/
def F.PWR_ERR_CODE : Fld := ⟨0x04C, 8, 4⟩
/-- PWR_ERR.VALID. -/
def F.PWR_ERR_VALID : Fld := ⟨0x04C, 31, 1⟩
/-- ANA_MODE.CMP_ONLY_0. -/
def F.ANA_MODE_CMP_ONLY_0 : Fld := ⟨0x050, 0, 1⟩
/-- ANA_MODE.CMP_ONLY_1. -/
def F.ANA_MODE_CMP_ONLY_1 : Fld := ⟨0x050, 1, 1⟩
/-- STBY_CTRL.ENTER. -/
def F.STBY_CTRL_ENTER : Fld := ⟨0x054, 0, 1⟩
/-- STBY_WAKE.GRP. -/
def F.STBY_WAKE_GRP : Fld := ⟨0x058, 0, 24⟩
/-- DEV_ID.PART. -/
def F.DEV_ID_PART : Fld := ⟨0x040, 0, 16⟩
/-- DEV_ID.STEP. -/
def F.DEV_ID_STEP : Fld := ⟨0x040, 16, 8⟩
/-- RST_CAUSE.POR. -/
def F.RST_CAUSE_POR : Fld := ⟨0x044, 0, 1⟩
/-- RST_CAUSE.WRST_PIN. -/
def F.RST_CAUSE_WRST_PIN : Fld := ⟨0x044, 1, 1⟩
/-- RST_CAUSE.SW. -/
def F.RST_CAUSE_SW : Fld := ⟨0x044, 2, 1⟩
/-- RST_CAUSE.WDOG_CORE. -/
def F.RST_CAUSE_WDOG_CORE : Fld := ⟨0x044, 3, 1⟩
/-- RST_CAUSE.WDOG_CAS. -/
def F.RST_CAUSE_WDOG_CAS : Fld := ⟨0x044, 4, 1⟩
/-- RST_CAUSE.CLOCK_LOSS. -/
def F.RST_CAUSE_CLOCK_LOSS : Fld := ⟨0x044, 5, 1⟩
/-- RST_CAUSE.OVERTEMP. -/
def F.RST_CAUSE_OVERTEMP : Fld := ⟨0x044, 6, 1⟩
/-- RST_CAUSE.STANDBY_WAKE. -/
def F.RST_CAUSE_STANDBY_WAKE : Fld := ⟨0x044, 7, 1⟩
/-- RST_CAUSE.DEBUG. -/
def F.RST_CAUSE_DEBUG : Fld := ⟨0x044, 8, 1⟩
/-- RST_INFO.CORE. -/
def F.RST_INFO_CORE : Fld := ⟨0x048, 0, 3⟩
/-- RST_INFO.CAS. -/
def F.RST_INFO_CAS : Fld := ⟨0x048, 8, 4⟩
/-- RST_INFO.WARM_CNT. -/
def F.RST_INFO_WARM_CNT : Fld := ⟨0x048, 16, 8⟩
/-- BOOT_STAT.SOURCE. -/
def F.BOOT_STAT_SOURCE : Fld := ⟨0x04C, 0, 2⟩
/-- BOOT_STAT.CODE. -/
def F.BOOT_STAT_CODE : Fld := ⟨0x04C, 8, 8⟩
/-- BOOT_STAT.DONE. -/
def F.BOOT_STAT_DONE : Fld := ⟨0x04C, 31, 1⟩
/-- TS_VAL_n.VALUE. -/
def F.TS_VAL_VALUE : Fld := ⟨0x040, 0, 16⟩
/-- TS_HOT.SENSOR. -/
def F.TS_HOT_SENSOR : Fld := ⟨0x060, 0, 3⟩
/-- TS_HOT.VALUE. -/
def F.TS_HOT_VALUE : Fld := ⟨0x060, 16, 16⟩
/-- TS_WARN.WARN. -/
def F.TS_WARN_WARN : Fld := ⟨0x064, 0, 16⟩
/-- TS_HYST.HYST. -/
def F.TS_HYST_HYST : Fld := ⟨0x068, 0, 8⟩
/-- TS_PEAK.PEAK. -/
def F.TS_PEAK_PEAK : Fld := ⟨0x06C, 0, 16⟩
/-- OTP_STAT.ROLLBACK. -/
def F.OTP_STAT_ROLLBACK : Fld := ⟨0x040, 0, 7⟩
/-- OTP_STAT.REVOKED. -/
def F.OTP_STAT_REVOKED : Fld := ⟨0x040, 8, 4⟩
/-- OTP_STAT.BOOT_ORDER. -/
def F.OTP_STAT_BOOT_ORDER : Fld := ⟨0x040, 12, 2⟩
/-- OTP_STAT.XSPI_FAST. -/
def F.OTP_STAT_XSPI_FAST : Fld := ⟨0x040, 14, 1⟩
/-- OTP_STAT.DBG_MAX. -/
def F.OTP_STAT_DBG_MAX : Fld := ⟨0x040, 16, 2⟩
/-- OTP_STAT.DBG_CUT. -/
def F.OTP_STAT_DBG_CUT : Fld := ⟨0x040, 18, 2⟩
/-- OTP_STAT.KEY_PROG. -/
def F.OTP_STAT_KEY_PROG : Fld := ⟨0x040, 20, 4⟩
/-- OTP_STAT.DBGKEY_PROG. -/
def F.OTP_STAT_DBGKEY_PROG : Fld := ⟨0x040, 24, 1⟩
/-- OTP_STAT.REFUSED. -/
def F.OTP_STAT_REFUSED : Fld := ⟨0x040, 30, 1⟩
/-- OTP_STAT.BUSY. -/
def F.OTP_STAT_BUSY : Fld := ⟨0x040, 31, 1⟩
/-- OTP_CTRL.ROLLBACK_ADV. -/
def F.OTP_CTRL_ROLLBACK_ADV : Fld := ⟨0x044, 0, 1⟩
/-- OTP_CTRL.REVOKE. -/
def F.OTP_CTRL_REVOKE : Fld := ⟨0x044, 1, 1⟩
/-- OTP_CTRL.REVOKE_SLOT. -/
def F.OTP_CTRL_REVOKE_SLOT : Fld := ⟨0x044, 2, 2⟩
/-- OTP_CTRL.FIELD_GO. -/
def F.OTP_CTRL_FIELD_GO : Fld := ⟨0x044, 4, 1⟩
/-- OTP_CTRL.FIELD_SEL. -/
def F.OTP_CTRL_FIELD_SEL : Fld := ⟨0x044, 8, 4⟩
/-- OTP_VENDOR.VENDOR_ID. -/
def F.OTP_VENDOR_VENDOR_ID : Fld := ⟨0x048, 0, 16⟩
/-- OTP_VENDOR.MFR_ID. -/
def F.OTP_VENDOR_MFR_ID : Fld := ⟨0x048, 16, 11⟩
/-- OTP_DATA_w.DATA. -/
def F.OTP_DATA_DATA : Fld := ⟨0x080, 0, 32⟩
/-- KEY_HASH_n_w.HASH. -/
def F.KEY_HASH_HASH : Fld := ⟨0x100, 0, 32⟩
/-- LT_NOW_LO.NOW_LO. -/
def F.LT_NOW_LO_NOW_LO : Fld := ⟨0x040, 0, 32⟩
/-- LT_NOW_HI.NOW_HI. -/
def F.LT_NOW_HI_NOW_HI : Fld := ⟨0x044, 0, 32⟩
/-- LT_TRIM.TRIM. -/
def F.LT_TRIM_TRIM : Fld := ⟨0x048, 0, 32⟩
/-- LT_FRAC.FRAC. -/
def F.LT_FRAC_FRAC : Fld := ⟨0x04C, 0, 32⟩
/-- LT_STEP_LO.STEP_LO. -/
def F.LT_STEP_LO_STEP_LO : Fld := ⟨0x050, 0, 32⟩
/-- LT_STEP_HI.STEP_HI. -/
def F.LT_STEP_HI_STEP_HI : Fld := ⟨0x054, 0, 32⟩
/-- LT_CTRL.STEP_GO. -/
def F.LT_CTRL_STEP_GO : Fld := ⟨0x058, 0, 1⟩
/-- LT_STAT.STEP_DONE. -/
def F.LT_STAT_STEP_DONE : Fld := ⟨0x05C, 0, 1⟩
/-- LT_STAT.STEP_REFUSED. -/
def F.LT_STAT_STEP_REFUSED : Fld := ⟨0x05C, 1, 1⟩
/-- LT_STAT.REFUSE_CODE. -/
def F.LT_STAT_REFUSE_CODE : Fld := ⟨0x05C, 8, 4⟩
/-- LT_STAT.BLOCKER. -/
def F.LT_STAT_BLOCKER : Fld := ⟨0x05C, 16, 8⟩
/-- LT_SKIP_CNT.SKIP. -/
def F.LT_SKIP_CNT_SKIP : Fld := ⟨0x060, 0, 32⟩
/-- LT_HOLD_CNT.HOLD. -/
def F.LT_HOLD_CNT_HOLD : Fld := ⟨0x064, 0, 32⟩
/-- LT_PHASE.PHASE. -/
def F.LT_PHASE_PHASE : Fld := ⟨0x068, 0, 4⟩
/-- LE_TIME.TIME. -/
def F.LE_TIME_TIME : Fld := ⟨0x100, 0, 32⟩
/-- LE_PERIOD.PERIOD. -/
def F.LE_PERIOD_PERIOD : Fld := ⟨0x108, 0, 32⟩
/-- LE_COUNT.COUNT. -/
def F.LE_COUNT_COUNT : Fld := ⟨0x110, 0, 31⟩
/-- LE_COUNT.FOREVER. -/
def F.LE_COUNT_FOREVER : Fld := ⟨0x110, 31, 1⟩
/-- LE_CTRL.ARM. -/
def F.LE_CTRL_ARM : Fld := ⟨0x114, 0, 1⟩
/-- LE_CTRL.ACTION. -/
def F.LE_CTRL_ACTION : Fld := ⟨0x114, 4, 4⟩
/-- LE_CTRL.LATE. -/
def F.LE_CTRL_LATE : Fld := ⟨0x114, 8, 1⟩
/-- LE_CTRL.DONE. -/
def F.LE_CTRL_DONE : Fld := ⟨0x114, 9, 1⟩
/-- LE_ARG.ARG. -/
def F.LE_ARG_ARG : Fld := ⟨0x118, 0, 32⟩
/-- LE_AUX.AUX. -/
def F.LE_AUX_AUX : Fld := ⟨0x11C, 0, 32⟩
/-- LNCH_FRAME_START.START. -/
def F.LNCH_FRAME_START_START : Fld := ⟨0x040, 0, 32⟩
/-- LNCH_FRAME_PERIOD.PERIOD. -/
def F.LNCH_FRAME_PERIOD_PERIOD : Fld := ⟨0x048, 0, 32⟩
/-- LNCH_STAT.ARMED. -/
def F.LNCH_STAT_ARMED : Fld := ⟨0x04C, 0, 9⟩
/-- LNCH_LATE_CNT.LATE. -/
def F.LNCH_LATE_CNT_LATE : Fld := ⟨0x050, 0, 32⟩
/-- LNCH_SKIP_CNT.SKIP. -/
def F.LNCH_SKIP_CNT_SKIP : Fld := ⟨0x054, 0, 32⟩
/-- LNCH_LAST_LATE.ENTRY. -/
def F.LNCH_LAST_LATE_ENTRY : Fld := ⟨0x058, 0, 8⟩
/-- EV_SW_SET_q.SET. -/
def F.EV_SW_SET_SET : Fld := ⟨0x040, 0, 32⟩
/-- EV_SW_CLR_q.CLR. -/
def F.EV_SW_CLR_CLR : Fld := ⟨0x050, 0, 32⟩
/-- EV_SW_STATE_q.STATE. -/
def F.EV_SW_STATE_STATE : Fld := ⟨0x060, 0, 32⟩
/-- STATUS.RUNNING. -/
def F.SASH_STATUS_RUNNING : Fld := ⟨0x010, 0, 1⟩
/-- STATUS.WAITING. -/
def F.SASH_STATUS_WAITING : Fld := ⟨0x010, 1, 1⟩
/-- STATUS.FROZEN. -/
def F.SASH_STATUS_FROZEN : Fld := ⟨0x010, 2, 1⟩
/-- STATUS.QUARANTINED. -/
def F.SASH_STATUS_QUARANTINED : Fld := ⟨0x010, 3, 1⟩
/-- STATUS.INBOUND_WR. -/
def F.SASH_STATUS_INBOUND_WR : Fld := ⟨0x010, 4, 1⟩
/-- STATUS.LANE_FAULT. -/
def F.SASH_STATUS_LANE_FAULT : Fld := ⟨0x010, 5, 1⟩
/-- STATUS.POISON_ABORT. -/
def F.SASH_STATUS_POISON_ABORT : Fld := ⟨0x010, 6, 1⟩
/-- STATUS.XPORT_DROP. -/
def F.SASH_STATUS_XPORT_DROP : Fld := ⟨0x010, 7, 1⟩
/-- STATUS.FPNAN. -/
def F.SASH_STATUS_FPNAN : Fld := ⟨0x010, 8, 1⟩
/-- SASH_CTRL.LANE_EN. -/
def F.SASH_CTRL_LANE_EN : Fld := ⟨0x040, 0, 4⟩
/-- SASH_CTRL.FAULT_LIMIT. -/
def F.SASH_CTRL_FAULT_LIMIT : Fld := ⟨0x040, 8, 4⟩
/-- REPLAY_CNT.REPLAYS. -/
def F.REPLAY_CNT_REPLAYS : Fld := ⟨0x044, 0, 32⟩
/-- LFAULT_CNT.PER_LANE. -/
def F.LFAULT_CNT_PER_LANE : Fld := ⟨0x048, 0, 32⟩
/-- FAULT_INFO.LANE. -/
def F.FAULT_INFO_LANE : Fld := ⟨0x04C, 0, 2⟩
/-- FAULT_INFO.UNIT. -/
def F.FAULT_INFO_UNIT : Fld := ⟨0x04C, 2, 3⟩
/-- FAULT_INFO.CAUSE. -/
def F.FAULT_INFO_CAUSE : Fld := ⟨0x04C, 5, 3⟩
/-- FAULT_INFO.WORD. -/
def F.FAULT_INFO_WORD : Fld := ⟨0x04C, 8, 12⟩
/-- FAULT_INFO.BANK. -/
def F.FAULT_INFO_BANK : Fld := ⟨0x04C, 20, 1⟩
/-- FAULT_INFO.ROM. -/
def F.FAULT_INFO_ROM : Fld := ⟨0x04C, 21, 1⟩
/-- FAULT_INFO.INJ. -/
def F.FAULT_INFO_INJ : Fld := ⟨0x04C, 22, 1⟩
/-- FAULT_INFO.VALID. -/
def F.FAULT_INFO_VALID : Fld := ⟨0x04C, 31, 1⟩
/-- FAULT_TIME_LO.TIME_LO. -/
def F.FAULT_TIME_LO_TIME_LO : Fld := ⟨0x050, 0, 32⟩
/-- FAULT_TIME_HI.TIME_HI. -/
def F.FAULT_TIME_HI_TIME_HI : Fld := ⟨0x054, 0, 32⟩
/-- XPORT_CNT.RETRY. -/
def F.XPORT_CNT_RETRY : Fld := ⟨0x058, 0, 16⟩
/-- XPORT_CNT.DROP. -/
def F.XPORT_CNT_DROP : Fld := ⟨0x058, 16, 16⟩
/-- RES_INJECT.LANE. -/
def F.RES_INJECT_LANE : Fld := ⟨0x05C, 0, 2⟩
/-- RES_INJECT.UNIT. -/
def F.RES_INJECT_UNIT : Fld := ⟨0x05C, 2, 3⟩
/-- RES_INJECT.COUNT. -/
def F.RES_INJECT_COUNT : Fld := ⟨0x05C, 5, 2⟩
/-- INB_i_k.VALID. -/
def F.INB_VALID : Fld := ⟨0x100, 0, 1⟩
/-- INB_i_k.CLASS. -/
def F.INB_CLASS : Fld := ⟨0x100, 1, 3⟩
/-- INB_i_k.INDEX. -/
def F.INB_INDEX : Fld := ⟨0x100, 4, 8⟩
/-- CS_STAT.ACTIVE. -/
def F.CS_STAT_ACTIVE : Fld := ⟨0x080, 0, 1⟩
/-- CS_STAT.SWAP_PENDING. -/
def F.CS_STAT_SWAP_PENDING : Fld := ⟨0x080, 1, 1⟩
/-- CS_STAT.OPEN. -/
def F.CS_STAT_OPEN : Fld := ⟨0x080, 2, 1⟩
/-- CS_STAT.CHECKING. -/
def F.CS_STAT_CHECKING : Fld := ⟨0x080, 3, 1⟩
/-- CS_STAT.RESULT. -/
def F.CS_STAT_RESULT : Fld := ⟨0x080, 8, 4⟩
/-- UCODE_VER_A.VER. -/
def F.UCODE_VER_A_VER : Fld := ⟨0x084, 0, 32⟩
/-- UCODE_VER_B.VER. -/
def F.UCODE_VER_B_VER : Fld := ⟨0x088, 0, 32⟩
/-- LOAD_CTRL.OPEN. -/
def F.LOAD_CTRL_OPEN : Fld := ⟨0x08C, 0, 1⟩
/-- LOAD_CTRL.CHECK. -/
def F.LOAD_CTRL_CHECK : Fld := ⟨0x08C, 1, 1⟩
/-- LOAD_CTRL.SWAP. -/
def F.LOAD_CTRL_SWAP : Fld := ⟨0x08C, 2, 1⟩
/-- LOAD_CTRL.CANCEL. -/
def F.LOAD_CTRL_CANCEL : Fld := ⟨0x08C, 3, 1⟩
/-- LOAD_VER.VER. -/
def F.LOAD_VER_VER : Fld := ⟨0x090, 0, 32⟩
/-- LOAD_LEN.LEN. -/
def F.LOAD_LEN_LEN : Fld := ⟨0x094, 0, 13⟩
/-- LOAD_CRC.CRC. -/
def F.LOAD_CRC_CRC : Fld := ⟨0x098, 0, 32⟩
/-- CS_ECC.CORR. -/
def F.CS_ECC_CORR : Fld := ⟨0x09C, 0, 16⟩
/-- CS_ECC.UNCORR. -/
def F.CS_ECC_UNCORR : Fld := ⟨0x09C, 16, 16⟩
/-- PC_SNAP.PC. -/
def F.PC_SNAP_PC : Fld := ⟨0x0A0, 0, 13⟩
/-- PC_SNAP.RUN. -/
def F.PC_SNAP_RUN : Fld := ⟨0x0A0, 31, 1⟩
/-- ROM_VER.VER. -/
def F.ROM_VER_VER : Fld := ⟨0x0A4, 0, 32⟩
/-- EVSEL_k.EVENT. -/
def F.EVSEL_EVENT : Fld := ⟨0x180, 0, 11⟩
/-- DIR_A_e.PROG_ID. -/
def F.DIR_A_PROG_ID : Fld := ⟨0x200, 0, 16⟩
/-- DIR_A_e.ENTRY. -/
def F.DIR_A_ENTRY : Fld := ⟨0x200, 16, 12⟩
/-- DIR_A_e.VALID. -/
def F.DIR_A_VALID : Fld := ⟨0x200, 31, 1⟩
/-- DIR_B_e.PROG_ID. -/
def F.DIR_B_PROG_ID : Fld := ⟨0x240, 0, 16⟩
/-- DIR_B_e.ENTRY. -/
def F.DIR_B_ENTRY : Fld := ⟨0x240, 16, 12⟩
/-- DIR_B_e.VALID. -/
def F.DIR_B_VALID : Fld := ⟨0x240, 31, 1⟩
/-- STATUS.IN_USE. -/
def F.TPL_STATUS_IN_USE : Fld := ⟨0x010, 0, 1⟩
/-- STATUS.TIMEOUT. -/
def F.TPL_STATUS_TIMEOUT : Fld := ⟨0x010, 1, 1⟩
/-- STATUS.WB_KEPT. -/
def F.TPL_STATUS_WB_KEPT : Fld := ⟨0x010, 2, 1⟩
/-- TPL_CTRL.PROG. -/
def F.TPL_CTRL_PROG : Fld := ⟨0x040, 0, 16⟩
/-- TPL_CTRL.LANES. -/
def F.TPL_CTRL_LANES : Fld := ⟨0x040, 16, 4⟩
/-- TPL_CTRL.OUTMODE. -/
def F.TPL_CTRL_OUTMODE : Fld := ⟨0x040, 20, 1⟩
/-- TPL_RUNS.RUNS. -/
def F.TPL_RUNS_RUNS : Fld := ⟨0x044, 0, 32⟩
/-- TPL_TIMEOUTS.TIMEOUTS. -/
def F.TPL_TIMEOUTS_TIMEOUTS : Fld := ⟨0x048, 0, 32⟩
/-- TPL_LAST_LO.LAST_LO. -/
def F.TPL_LAST_LO_LAST_LO : Fld := ⟨0x050, 0, 32⟩
/-- TPL_LAST_HI.LAST_HI. -/
def F.TPL_LAST_HI_LAST_HI : Fld := ⟨0x054, 0, 32⟩
/-- TC_i_w.VALUE. -/
def F.TC_VALUE : Fld := ⟨0x100, 0, 32⟩
/-- STATUS.FULL. -/
def F.JQ_STATUS_FULL : Fld := ⟨0x010, 0, 1⟩
/-- STATUS.REFUSED. -/
def F.JQ_STATUS_REFUSED : Fld := ⟨0x010, 1, 1⟩
/-- STATUS.MISS. -/
def F.JQ_STATUS_MISS : Fld := ⟨0x010, 2, 1⟩
/-- JQ_CTRL.MODE. -/
def F.JQ_CTRL_MODE : Fld := ⟨0x040, 0, 2⟩
/-- JQ_POST_LO.DESC. -/
def F.JQ_POST_LO_DESC : Fld := ⟨0x048, 0, 8⟩
/-- JQ_POST_HI.DL_OFS. -/
def F.JQ_POST_HI_DL_OFS : Fld := ⟨0x04C, 0, 32⟩
/-- JQ_STAT.DEPTH. -/
def F.JQ_STAT_DEPTH : Fld := ⟨0x050, 0, 7⟩
/-- JQ_STAT.RUNNING. -/
def F.JQ_STAT_RUNNING : Fld := ⟨0x050, 8, 4⟩
/-- JQ_STAT.OLDEST_DESC. -/
def F.JQ_STAT_OLDEST_DESC : Fld := ⟨0x050, 16, 8⟩
/-- JQ_FLUSH.FLUSH. -/
def F.JQ_FLUSH_FLUSH : Fld := ⟨0x054, 0, 1⟩
/-- JQ_REFUSE.DESC. -/
def F.JQ_REFUSE_DESC : Fld := ⟨0x058, 0, 8⟩
/-- JQ_REFUSE.CODE. -/
def F.JQ_REFUSE_CODE : Fld := ⟨0x058, 8, 4⟩
/-- JQ_REFUSE.FALLBACK. -/
def F.JQ_REFUSE_FALLBACK : Fld := ⟨0x058, 12, 1⟩
/-- JQ_REFUSE.VALID. -/
def F.JQ_REFUSE_VALID : Fld := ⟨0x058, 31, 1⟩
/-- JQ_POSTED.POSTED. -/
def F.JQ_POSTED_POSTED : Fld := ⟨0x05C, 0, 32⟩
/-- JQ_DONE.DONE. -/
def F.JQ_DONE_DONE : Fld := ⟨0x060, 0, 32⟩
/-- JQ_REFUSED_CNT.REFUSED. -/
def F.JQ_REFUSED_CNT_REFUSED : Fld := ⟨0x064, 0, 32⟩
/-- JQ_MISSED.MISSED. -/
def F.JQ_MISSED_MISSED : Fld := ⟨0x068, 0, 32⟩
/-- JQ_STOLEN.STOLEN. -/
def F.JQ_STOLEN_STOLEN : Fld := ⟨0x06C, 0, 32⟩
/-- JQ_THEFTS.THEFTS. -/
def F.JQ_THEFTS_THEFTS : Fld := ⟨0x070, 0, 32⟩
/-- JQ_FLUSHED.FLUSHED. -/
def F.JQ_FLUSHED_FLUSHED : Fld := ⟨0x074, 0, 32⟩
/-- JQ_FALLBACKS.FALLBACKS. -/
def F.JQ_FALLBACKS_FALLBACKS : Fld := ⟨0x078, 0, 32⟩
/-- JQ_REDIR_q.REDIR. -/
def F.JQ_REDIR_REDIR : Fld := ⟨0x080, 0, 32⟩
/-- JQ_MISS_q.MISS. -/
def F.JQ_MISS_MISS : Fld := ⟨0x100, 0, 32⟩
/-- WS_AGE.STEAL_AGE. -/
def F.WS_AGE_STEAL_AGE : Fld := ⟨0x040, 0, 16⟩
/-- WS_STAT.WING_CAS. -/
def F.WS_STAT_WING_CAS : Fld := ⟨0x044, 0, 8⟩
/-- WS_STEALS.STEALS. -/
def F.WS_STEALS_STEALS : Fld := ⟨0x048, 0, 32⟩
/-- WS_LAST.THIEF. -/
def F.WS_LAST_THIEF : Fld := ⟨0x04C, 0, 6⟩
/-- WS_LAST.HOME. -/
def F.WS_LAST_HOME : Fld := ⟨0x04C, 8, 4⟩
/-- WS_LAST.DESC. -/
def F.WS_LAST_DESC : Fld := ⟨0x04C, 12, 8⟩
/-- STATUS.WIN_OPEN. -/
def F.MON_STATUS_WIN_OPEN : Fld := ⟨0x010, 0, 1⟩
/-- STATUS.TRIGGERED. -/
def F.MON_STATUS_TRIGGERED : Fld := ⟨0x010, 1, 1⟩
/-- STATUS.SKIPPED. -/
def F.MON_STATUS_SKIPPED : Fld := ⟨0x010, 2, 1⟩
/-- PH_CTRL.ACTIONS. -/
def F.PH_CTRL_ACTIONS : Fld := ⟨0x040, 0, 4⟩
/-- PH_CTRL.VTRIP. -/
def F.PH_CTRL_VTRIP : Fld := ⟨0x040, 4, 6⟩
/-- PH_CTRL.REDIR_DESC. -/
def F.PH_CTRL_REDIR_DESC : Fld := ⟨0x040, 10, 8⟩
/-- PH_CTRL.ORDER. -/
def F.PH_CTRL_ORDER : Fld := ⟨0x040, 18, 3⟩
/-- PH_THRESH.THRESH. -/
def F.PH_THRESH_THRESH : Fld := ⟨0x044, 0, 16⟩
/-- PH_RLO.RLO. -/
def F.PH_RLO_RLO : Fld := ⟨0x048, 0, 32⟩
/-- PH_RHI.RHI. -/
def F.PH_RHI_RHI : Fld := ⟨0x04C, 0, 32⟩
/-- PH_YSRC.YSRC. -/
def F.PH_YSRC_YSRC : Fld := ⟨0x050, 0, 12⟩
/-- PH_WSRC_j.WSRC. -/
def F.PH_WSRC_WSRC : Fld := ⟨0x054, 0, 12⟩
/-- PH_XCTRL.STAMP_SLOT. -/
def F.PH_XCTRL_STAMP_SLOT : Fld := ⟨0x060, 0, 3⟩
/-- PH_CUR.VIOL. -/
def F.PH_CUR_VIOL : Fld := ⟨0x078, 0, 16⟩
/-- PH_CUR.SAMPLES. -/
def F.PH_CUR_SAMPLES : Fld := ⟨0x078, 16, 16⟩
/-- PH_LAST.VIOL. -/
def F.PH_LAST_VIOL : Fld := ⟨0x07C, 0, 16⟩
/-- PH_LAST.SAMPLES. -/
def F.PH_LAST_SAMPLES : Fld := ⟨0x07C, 16, 15⟩
/-- PH_LAST.TRIG. -/
def F.PH_LAST_TRIG : Fld := ⟨0x07C, 31, 1⟩
/-- PH_RES.RES. -/
def F.PH_RES_RES : Fld := ⟨0x080, 0, 32⟩
/-- PH_PRED.PRED. -/
def F.PH_PRED_PRED : Fld := ⟨0x084, 0, 32⟩
/-- PH_TRIG_CNT.TRIGS. -/
def F.PH_TRIG_CNT_TRIGS : Fld := ⟨0x090, 0, 32⟩
/-- PH_SKIP_CNT.SKIPS. -/
def F.PH_SKIP_CNT_SKIPS : Fld := ⟨0x094, 0, 32⟩
/-- PH_OUTSIDE_CNT.OUTSIDE. -/
def F.PH_OUTSIDE_CNT_OUTSIDE : Fld := ⟨0x098, 0, 32⟩
/-- PH_A_r_j.A. -/
def F.PH_A_A : Fld := ⟨0x100, 0, 32⟩
/-- PH_B_r_j.B. -/
def F.PH_B_B : Fld := ⟨0x140, 0, 32⟩
/-- PH_X_r.X. -/
def F.PH_X_X : Fld := ⟨0x1A0, 0, 32⟩
/-- STATUS.RUNNING. -/
def F.INJ_STATUS_RUNNING : Fld := ⟨0x010, 0, 1⟩
/-- STATUS.DONE. -/
def F.INJ_STATUS_DONE : Fld := ⟨0x010, 1, 1⟩
/-- INJ_CTRL.TYPE. -/
def F.INJ_CTRL_TYPE : Fld := ⟨0x040, 0, 3⟩
/-- INJ_CTRL.POINT. -/
def F.INJ_CTRL_POINT : Fld := ⟨0x040, 3, 2⟩
/-- INJ_CTRL.LANES. -/
def F.INJ_CTRL_LANES : Fld := ⟨0x040, 5, 4⟩
/-- INJ_CTRL.SLOT. -/
def F.INJ_CTRL_SLOT : Fld := ⟨0x040, 9, 3⟩
/-- INJ_CTRL.WORD. -/
def F.INJ_CTRL_WORD : Fld := ⟨0x040, 12, 12⟩
/-- INJ_CTRL.DESC. -/
def F.INJ_CTRL_DESC : Fld := ⟨0x040, 24, 8⟩
/-- INJ_OUT.BMASK. -/
def F.INJ_OUT_BMASK : Fld := ⟨0x044, 0, 7⟩
/-- INJ_OUT.NEG. -/
def F.INJ_OUT_NEG : Fld := ⟨0x044, 8, 7⟩
/-- INJ_OGAIN.OGAIN. -/
def F.INJ_OGAIN_OGAIN : Fld := ⟨0x048, 0, 32⟩
/-- INJ_STEP.STEP. -/
def F.INJ_STEP_STEP : Fld := ⟨0x058, 0, 32⟩
/-- INJ_COUNT.COUNT. -/
def F.INJ_COUNT_COUNT : Fld := ⟨0x05C, 0, 32⟩
/-- INJ_AMP.AMP. -/
def F.INJ_AMP_AMP : Fld := ⟨0x060, 0, 32⟩
/-- INJ_OFS.OFS. -/
def F.INJ_OFS_OFS : Fld := ⟨0x064, 0, 32⟩
/-- INJ_PRBS.N. -/
def F.INJ_PRBS_N : Fld := ⟨0x074, 0, 5⟩
/-- INJ_PRBS.HOLD. -/
def F.INJ_PRBS_HOLD : Fld := ⟨0x074, 8, 16⟩
/-- INJ_TBL.OFS. -/
def F.INJ_TBL_OFS : Fld := ⟨0x078, 0, 16⟩
/-- INJ_TBL.LEN. -/
def F.INJ_TBL_LEN : Fld := ⟨0x078, 16, 16⟩
/-- INJ_VALUE.G. -/
def F.INJ_VALUE_G : Fld := ⟨0x080, 0, 32⟩
/-- INJ_STEPS.K. -/
def F.INJ_STEPS_K : Fld := ⟨0x084, 0, 32⟩
/-- INJ_INCR.INC. -/
def F.INJ_INCR_INC : Fld := ⟨0x088, 0, 32⟩
/-- STATUS.RUNNING. -/
def F.CAP_STATUS_RUNNING : Fld := ⟨0x010, 0, 1⟩
/-- STATUS.STOPPED. -/
def F.CAP_STATUS_STOPPED : Fld := ⟨0x010, 1, 1⟩
/-- STATUS.TRIGGERED. -/
def F.CAP_STATUS_TRIGGERED : Fld := ⟨0x010, 2, 1⟩
/-- STATUS.DROP. -/
def F.CAP_STATUS_DROP : Fld := ⟨0x010, 3, 1⟩
/-- CAP_CTRL.DESC. -/
def F.CAP_CTRL_DESC : Fld := ⟨0x040, 0, 8⟩
/-- CAP_CTRL.NSIG. -/
def F.CAP_CTRL_NSIG : Fld := ⟨0x040, 8, 5⟩
/-- CAP_CTRL.MODE. -/
def F.CAP_CTRL_MODE : Fld := ⟨0x040, 13, 1⟩
/-- CAP_CTRL.STAMP_SLOT. -/
def F.CAP_CTRL_STAMP_SLOT : Fld := ⟨0x040, 14, 3⟩
/-- CAP_DEC.DEC. -/
def F.CAP_DEC_DEC : Fld := ⟨0x044, 0, 16⟩
/-- CAP_SIZE.LOG2. -/
def F.CAP_SIZE_LOG2 : Fld := ⟨0x050, 0, 5⟩
/-- CAP_TRIG.POST. -/
def F.CAP_TRIG_POST : Fld := ⟨0x054, 0, 16⟩
/-- CAP_TRIG.LANES. -/
def F.CAP_TRIG_LANES : Fld := ⟨0x054, 16, 4⟩
/-- CAP_TRIG.EN. -/
def F.CAP_TRIG_EN : Fld := ⟨0x054, 20, 1⟩
/-- CAP_WPTR.WPTR. -/
def F.CAP_WPTR_WPTR : Fld := ⟨0x058, 0, 32⟩
/-- CAP_SEQ.SEQ. -/
def F.CAP_SEQ_SEQ : Fld := ⟨0x05C, 0, 32⟩
/-- CAP_DROP.DROPS. -/
def F.CAP_DROP_DROPS : Fld := ⟨0x060, 0, 32⟩
/-- CAP_TRIG_SEQ.TSEQ. -/
def F.CAP_TRIG_SEQ_TSEQ : Fld := ⟨0x064, 0, 32⟩
/-- CAP_SEL_s.SEL. -/
def F.CAP_SEL_SEL : Fld := ⟨0x100, 0, 17⟩
/-- STATUS.RUNNING. -/
def F.PWM_STATUS_RUNNING : Fld := ⟨0x010, 0, 1⟩
/-- STATUS.WAIT_START. -/
def F.PWM_STATUS_WAIT_START : Fld := ⟨0x010, 1, 1⟩
/-- STATUS.TRIPPED. -/
def F.PWM_STATUS_TRIPPED : Fld := ⟨0x010, 2, 1⟩
/-- STATUS.RESUME_PENDING. -/
def F.PWM_STATUS_RESUME_PENDING : Fld := ⟨0x010, 3, 1⟩
/-- STATUS.LATE_UPDATE. -/
def F.PWM_STATUS_LATE_UPDATE : Fld := ⟨0x010, 4, 1⟩
/-- STATUS.CATCHUP_USED. -/
def F.PWM_STATUS_CATCHUP_USED : Fld := ⟨0x010, 5, 1⟩
/-- STATUS.EDGE_PASSED. -/
def F.PWM_STATUS_EDGE_PASSED : Fld := ⟨0x010, 6, 1⟩
/-- STATUS.SYNC_SLIP. -/
def F.PWM_STATUS_SYNC_SLIP : Fld := ⟨0x010, 7, 1⟩
/-- STATUS.STALL. -/
def F.PWM_STATUS_STALL : Fld := ⟨0x010, 8, 1⟩
/-- PWM_CTRL.UPD. -/
def F.PWM_CTRL_UPD : Fld := ⟨0x040, 0, 1⟩
/-- PWM_CTRL.CATCHUP. -/
def F.PWM_CTRL_CATCHUP : Fld := ⟨0x040, 1, 1⟩
/-- PWM_CTRL.START. -/
def F.PWM_CTRL_START : Fld := ⟨0x040, 2, 2⟩
/-- PWM_CTRL.SYNC_IN_EN. -/
def F.PWM_CTRL_SYNC_IN_EN : Fld := ⟨0x040, 4, 1⟩
/-- PWM_CTRL.SYNC_OUT_EN. -/
def F.PWM_CTRL_SYNC_OUT_EN : Fld := ⟨0x040, 5, 1⟩
/-- PWM_CTRL.POL_H. -/
def F.PWM_CTRL_POL_H : Fld := ⟨0x040, 6, 1⟩
/-- PWM_CTRL.POL_L. -/
def F.PWM_CTRL_POL_L : Fld := ⟨0x040, 7, 1⟩
/-- PWM_CTRL.CMP_EV. -/
def F.PWM_CTRL_CMP_EV : Fld := ⟨0x040, 8, 2⟩
/-- PWM_PERIOD.PERIOD. -/
def F.PWM_PERIOD_PERIOD : Fld := ⟨0x044, 0, 32⟩
/-- PWM_CMPSET.CMPSET. -/
def F.PWM_CMPSET_CMPSET : Fld := ⟨0x048, 0, 32⟩
/-- PWM_CMPCLR.CMPCLR. -/
def F.PWM_CMPCLR_CMPCLR : Fld := ⟨0x04C, 0, 32⟩
/-- PWM_SYNC_PHASE.PHASE. -/
def F.PWM_SYNC_PHASE_PHASE : Fld := ⟨0x050, 0, 32⟩
/-- PWM_DTR.DTR. -/
def F.PWM_DTR_DTR : Fld := ⟨0x054, 0, 24⟩
/-- PWM_DTF.DTF. -/
def F.PWM_DTF_DTF : Fld := ⟨0x058, 0, 24⟩
/-- PWM_SKEW.SKEW_H. -/
def F.PWM_SKEW_SKEW_H : Fld := ⟨0x05C, 0, 7⟩
/-- PWM_SKEW.SKEW_L. -/
def F.PWM_SKEW_SKEW_L : Fld := ⟨0x05C, 8, 7⟩
/-- PWM_CNT.CNT. -/
def F.PWM_CNT_CNT : Fld := ⟨0x060, 0, 32⟩
/-- PWM_PERIOD_ACT.PERIOD. -/
def F.PWM_PERIOD_ACT_PERIOD : Fld := ⟨0x064, 0, 32⟩
/-- PWM_CMPSET_ACT.CMPSET. -/
def F.PWM_CMPSET_ACT_CMPSET : Fld := ⟨0x068, 0, 32⟩
/-- PWM_CMPCLR_ACT.CMPCLR. -/
def F.PWM_CMPCLR_ACT_CMPCLR : Fld := ⟨0x06C, 0, 32⟩
/-- PWM_OUT.REF. -/
def F.PWM_OUT_REF : Fld := ⟨0x070, 0, 1⟩
/-- PWM_OUT.H_ON. -/
def F.PWM_OUT_H_ON : Fld := ⟨0x070, 1, 1⟩
/-- PWM_OUT.L_ON. -/
def F.PWM_OUT_L_ON : Fld := ⟨0x070, 2, 1⟩
/-- PWM_OUT.PAD_H. -/
def F.PWM_OUT_PAD_H : Fld := ⟨0x070, 3, 1⟩
/-- PWM_OUT.PAD_L. -/
def F.PWM_OUT_PAD_L : Fld := ⟨0x070, 4, 1⟩
/-- PWM_LATE_CNT.LATE. -/
def F.PWM_LATE_CNT_LATE : Fld := ⟨0x074, 0, 32⟩
/-- PWM_CATCHUP_CNT.CATCHUP. -/
def F.PWM_CATCHUP_CNT_CATCHUP : Fld := ⟨0x078, 0, 32⟩
/-- PWM_PASSED_CNT.PASSED. -/
def F.PWM_PASSED_CNT_PASSED : Fld := ⟨0x07C, 0, 32⟩
/-- PWM_XCTRL.PERIOD_OFF. -/
def F.PWM_XCTRL_PERIOD_OFF : Fld := ⟨0x080, 0, 1⟩
/-- PWM_XCTRL.REF_FORCE. -/
def F.PWM_XCTRL_REF_FORCE : Fld := ⟨0x080, 1, 2⟩
/-- STATUS.SETTLING. -/
def F.CMP_STATUS_SETTLING : Fld := ⟨0x010, 0, 6⟩
/-- CMP_CFG_k.CEN. -/
def F.CMP_CFG_CEN : Fld := ⟨0x040, 0, 1⟩
/-- CMP_CFG_k.HYST. -/
def F.CMP_CFG_HYST : Fld := ⟨0x040, 1, 2⟩
/-- CMP_CFG_k.LSRC. -/
def F.CMP_CFG_LSRC : Fld := ⟨0x040, 3, 1⟩
/-- CMP_CFG_k.FILT_M. -/
def F.CMP_CFG_FILT_M : Fld := ⟨0x040, 4, 4⟩
/-- CMP_CFG_k.FILT_N. -/
def F.CMP_CFG_FILT_N : Fld := ⟨0x040, 8, 4⟩
/-- CMP_CFG_k.FILT_K. -/
def F.CMP_CFG_FILT_K : Fld := ⟨0x040, 12, 4⟩
/-- CMP_CFG_k.ACLR_EN. -/
def F.CMP_CFG_ACLR_EN : Fld := ⟨0x040, 16, 1⟩
/-- CMP_CFG_k.ACLR_GEN. -/
def F.CMP_CFG_ACLR_GEN : Fld := ⟨0x040, 17, 3⟩
/-- CMP_DAC_k.CODE. -/
def F.CMP_DAC_CODE : Fld := ⟨0x044, 0, 12⟩
/-- CMP_MODE.MODE. -/
def F.CMP_MODE_MODE : Fld := ⟨0x070, 0, 12⟩
/-- CMP_STATE.RAW. -/
def F.CMP_STATE_RAW : Fld := ⟨0x074, 0, 6⟩
/-- CMP_STATE.FILT. -/
def F.CMP_STATE_FILT : Fld := ⟨0x074, 8, 6⟩
/-- CMP_LATCH.LATCH. -/
def F.CMP_LATCH_LATCH : Fld := ⟨0x078, 0, 6⟩
/-- CMP_LSTAMP_k.STAMP. -/
def F.CMP_LSTAMP_STAMP : Fld := ⟨0x080, 0, 32⟩
/-- STATUS.LATCHED. -/
def F.GROUP_STATUS_LATCHED : Fld := ⟨0x010, 0, 1⟩
/-- STATUS.TRIP_IN. -/
def F.GROUP_STATUS_TRIP_IN : Fld := ⟨0x010, 1, 1⟩
/-- STATUS.FORCED. -/
def F.GROUP_STATUS_FORCED : Fld := ⟨0x010, 2, 1⟩
/-- STATUS.LOST. -/
def F.GROUP_STATUS_LOST : Fld := ⟨0x010, 3, 1⟩
/-- STATUS.SP_FORCED. -/
def F.GROUP_STATUS_SP_FORCED : Fld := ⟨0x010, 4, 1⟩
/-- STATUS.CLEAR_REFUSED. -/
def F.GROUP_STATUS_CLEAR_REFUSED : Fld := ⟨0x010, 5, 1⟩
/-- STATUS.RETRIPPED. -/
def F.GROUP_STATUS_RETRIPPED : Fld := ⟨0x010, 6, 1⟩
/-- SG_CMP_MASK_q.CMP. -/
def F.SG_CMP_MASK_CMP : Fld := ⟨0x048, 0, 32⟩
/-- SG_CASC.CASC. -/
def F.SG_CASC_CASC : Fld := ⟨0x080, 0, 24⟩
/-- SG_SYS.WD_CORE. -/
def F.SG_SYS_WD_CORE : Fld := ⟨0x084, 0, 5⟩
/-- SG_SYS.WD_CAS. -/
def F.SG_SYS_WD_CAS : Fld := ⟨0x084, 5, 16⟩
/-- SG_SYS.DETACH. -/
def F.SG_SYS_DETACH : Fld := ⟨0x084, 21, 1⟩
/-- SG_VOTE_SEL_v.SRC. -/
def F.SG_VOTE_SEL_SRC : Fld := ⟨0x088, 0, 9⟩
/-- SG_VOTE_SEL_v.VALID. -/
def F.SG_VOTE_SEL_VALID : Fld := ⟨0x088, 31, 1⟩
/-- SG_VOTE.N. -/
def F.SG_VOTE_N : Fld := ⟨0x0A8, 0, 4⟩
/-- SG_CLEAR.CLEAR. -/
def F.SG_CLEAR_CLEAR : Fld := ⟨0x0AC, 0, 1⟩
/-- SG_CAUSE.SRC. -/
def F.SG_CAUSE_SRC : Fld := ⟨0x0B0, 0, 10⟩
/-- SG_CAUSE.CLOCKLESS. -/
def F.SG_CAUSE_CLOCKLESS : Fld := ⟨0x0B0, 30, 1⟩
/-- SG_CAUSE.VALID. -/
def F.SG_CAUSE_VALID : Fld := ⟨0x0B0, 31, 1⟩
/-- SG_REFUSE.CODE. -/
def F.SG_REFUSE_CODE : Fld := ⟨0x0C0, 0, 4⟩
/-- SG_REFUSE.SRC. -/
def F.SG_REFUSE_SRC : Fld := ⟨0x0C0, 4, 10⟩
/-- SG_REFUSE.VALID. -/
def F.SG_REFUSE_VALID : Fld := ⟨0x0C0, 31, 1⟩
/-- SG_TRIP_CNT.TRIPS. -/
def F.SG_TRIP_CNT_TRIPS : Fld := ⟨0x0C4, 0, 32⟩
/-- CS_CMPSEL.FILT. -/
def F.CS_CMPSEL_FILT : Fld := ⟨0x040, 0, 24⟩
/-- CS_PAIR_g.GROUP. -/
def F.CS_PAIR_GROUP : Fld := ⟨0x044, 0, 5⟩
/-- CS_PAIR_g.SAFE_H. -/
def F.CS_PAIR_SAFE_H : Fld := ⟨0x044, 8, 2⟩
/-- CS_PAIR_g.SAFE_L. -/
def F.CS_PAIR_SAFE_L : Fld := ⟨0x044, 10, 2⟩
/-- CS_RCH_q.GROUP. -/
def F.CS_RCH_GROUP : Fld := ⟨0x060, 0, 5⟩
/-- CS_RCH_q.SAFE. -/
def F.CS_RCH_SAFE : Fld := ⟨0x060, 8, 2⟩
/-- CS_LIVE.LIVE. -/
def F.CS_LIVE_LIVE : Fld := ⟨0x160, 0, 24⟩
/-- STATUS.CONVERTING. -/
def F.ADC_STATUS_CONVERTING : Fld := ⟨0x010, 0, 1⟩
/-- STATUS.OVERRUN. -/
def F.ADC_STATUS_OVERRUN : Fld := ⟨0x010, 1, 1⟩
/-- STATUS.ACQ_SHORT. -/
def F.ADC_STATUS_ACQ_SHORT : Fld := ⟨0x010, 2, 1⟩
/-- STATUS.CLIP. -/
def F.ADC_STATUS_CLIP : Fld := ⟨0x010, 3, 1⟩
/-- ADC_CTRL.AVG. -/
def F.ADC_CTRL_AVG : Fld := ⟨0x040, 0, 3⟩
/-- ADC_SCAN.LEN. -/
def F.ADC_SCAN_LEN : Fld := ⟨0x044, 0, 2⟩
/-- ADC_SCAN.E_0. -/
def F.ADC_SCAN_E_0 : Fld := ⟨0x044, 2, 2⟩
/-- ADC_SCAN.E_1. -/
def F.ADC_SCAN_E_1 : Fld := ⟨0x044, 4, 2⟩
/-- ADC_SCAN.E_2. -/
def F.ADC_SCAN_E_2 : Fld := ⟨0x044, 6, 2⟩
/-- ADC_TRIG_t.EN. -/
def F.ADC_TRIG_EN : Fld := ⟨0x048, 0, 1⟩
/-- ADC_TRIG_t.GEN. -/
def F.ADC_TRIG_GEN : Fld := ⟨0x048, 1, 3⟩
/-- ADC_TRIG_t.KIND. -/
def F.ADC_TRIG_KIND : Fld := ⟨0x048, 4, 2⟩
/-- ADC_TRIG_t.INPUT. -/
def F.ADC_TRIG_INPUT : Fld := ⟨0x048, 6, 2⟩
/-- ADC_TRIG_t.PRESC. -/
def F.ADC_TRIG_PRESC : Fld := ⟨0x048, 8, 8⟩
/-- ADC_UGAIN_m.UGAIN. -/
def F.ADC_UGAIN_UGAIN : Fld := ⟨0x050, 0, 32⟩
/-- ADC_UOFS_m.UOFS. -/
def F.ADC_UOFS_UOFS : Fld := ⟨0x054, 0, 32⟩
/-- ADC_RES_m.RES. -/
def F.ADC_RES_RES : Fld := ⟨0x070, 0, 32⟩
/-- ADC_RSTAMP_m.STAMP. -/
def F.ADC_RSTAMP_STAMP : Fld := ⟨0x080, 0, 32⟩
/-- ADC_CONV_CNT.CONV. -/
def F.ADC_CONV_CNT_CONV : Fld := ⟨0x098, 0, 32⟩
/-- ADC_OVR_CNT.OVR. -/
def F.ADC_OVR_CNT_OVR : Fld := ⟨0x09C, 0, 32⟩
/-- STATUS.STUCK. -/
def F.SD_STATUS_STUCK : Fld := ⟨0x010, 0, 6⟩
/-- STATUS.STUCK_SEEN. -/
def F.SD_STATUS_STUCK_SEEN : Fld := ⟨0x010, 6, 6⟩
/-- SD_CLK_j.EN. -/
def F.SD_CLK_EN : Fld := ⟨0x040, 0, 1⟩
/-- SD_CLK_j.DIV. -/
def F.SD_CLK_DIV : Fld := ⟨0x040, 1, 10⟩
/-- SD_CLK_j.START_SYNC. -/
def F.SD_CLK_START_SYNC : Fld := ⟨0x040, 11, 1⟩
/-- SD_CLK_j.START_GEN. -/
def F.SD_CLK_START_GEN : Fld := ⟨0x040, 12, 3⟩
/-- SD_CFG_k.EN. -/
def F.SD_CFG_EN : Fld := ⟨0x080, 0, 1⟩
/-- SD_CFG_k.CLK. -/
def F.SD_CFG_CLK : Fld := ⟨0x080, 1, 1⟩
/-- SD_CFG_k.SDLY. -/
def F.SD_CFG_SDLY : Fld := ⟨0x080, 2, 10⟩
/-- SD_CFG_k.ALIGN_EN. -/
def F.SD_CFG_ALIGN_EN : Fld := ⟨0x080, 12, 1⟩
/-- SD_CFG_k.ALIGN_GEN. -/
def F.SD_CFG_ALIGN_GEN : Fld := ⟨0x080, 13, 3⟩
/-- SD_CFG_k.STUCK_LEN. -/
def F.SD_CFG_STUCK_LEN : Fld := ⟨0x080, 16, 8⟩
/-- SD_DEC_k.R. -/
def F.SD_DEC_R : Fld := ⟨0x084, 0, 9⟩
/-- SD_UGAIN_k.UGAIN. -/
def F.SD_UGAIN_UGAIN : Fld := ⟨0x088, 0, 32⟩
/-- SD_UOFS_k.UOFS. -/
def F.SD_UOFS_UOFS : Fld := ⟨0x08C, 0, 32⟩
/-- SD_FC_k.FC_EN. -/
def F.SD_FC_FC_EN : Fld := ⟨0x090, 0, 1⟩
/-- SD_FC_k.ORD. -/
def F.SD_FC_ORD : Fld := ⟨0x090, 1, 1⟩
/-- SD_FC_k.OSR. -/
def F.SD_FC_OSR : Fld := ⟨0x090, 2, 2⟩
/-- SD_FC_k.ROUTE_EN. -/
def F.SD_FC_ROUTE_EN : Fld := ⟨0x090, 4, 1⟩
/-- SD_FC_k.ROUTE. -/
def F.SD_FC_ROUTE : Fld := ⟨0x090, 5, 4⟩
/-- SD_FC_HI_k.HI. -/
def F.SD_FC_HI_HI : Fld := ⟨0x094, 0, 32⟩
/-- SD_FC_LO_k.LO. -/
def F.SD_FC_LO_LO : Fld := ⟨0x098, 0, 32⟩
/-- SD_RES_k.RES. -/
def F.SD_RES_RES : Fld := ⟨0x09C, 0, 32⟩
/-- SD_RSTAMP_k.STAMP. -/
def F.SD_RSTAMP_STAMP : Fld := ⟨0x140, 0, 32⟩
/-- SD_FC_STATE.HI. -/
def F.SD_FC_STATE_HI : Fld := ⟨0x170, 0, 6⟩
/-- SD_FC_STATE.LO. -/
def F.SD_FC_STATE_LO : Fld := ⟨0x170, 8, 6⟩
/-- TMR_CFG_n.MODE. -/
def F.TMR_CFG_MODE : Fld := ⟨0x100, 0, 2⟩
/-- TMR_CFG_n.PIN. -/
def F.TMR_CFG_PIN : Fld := ⟨0x100, 2, 3⟩
/-- TMR_CFG_n.OUT_EN. -/
def F.TMR_CFG_OUT_EN : Fld := ⟨0x100, 5, 1⟩
/-- TMR_CFG_n.EDGE. -/
def F.TMR_CFG_EDGE : Fld := ⟨0x100, 6, 2⟩
/-- TMR_CFG_n.ACT. -/
def F.TMR_CFG_ACT : Fld := ⟨0x100, 8, 2⟩
/-- TMR_CFG_n.FILT_N. -/
def F.TMR_CFG_FILT_N : Fld := ⟨0x100, 10, 4⟩
/-- TMR_CFG_n.FILT_K. -/
def F.TMR_CFG_FILT_K : Fld := ⟨0x100, 14, 4⟩
/-- TMR_CFG_n.PRESC. -/
def F.TMR_CFG_PRESC : Fld := ⟨0x100, 18, 8⟩
/-- TMR_CFG_n.CBASE_SRC. -/
def F.TMR_CFG_CBASE_SRC : Fld := ⟨0x100, 26, 1⟩
/-- TMR_CFG_n.CBASE_GEN. -/
def F.TMR_CFG_CBASE_GEN : Fld := ⟨0x100, 27, 3⟩
/-- TMR_CMP_n.CMP. -/
def F.TMR_CMP_CMP : Fld := ⟨0x108, 0, 32⟩
/-- TMR_PER_n.PER. -/
def F.TMR_PER_PER : Fld := ⟨0x110, 0, 32⟩
/-- TMR_CBASE_n.CBASE. -/
def F.TMR_CBASE_CBASE : Fld := ⟨0x118, 0, 32⟩
/-- TMR_CAP_n.CAP. -/
def F.TMR_CAP_CAP : Fld := ⟨0x120, 0, 32⟩
/-- TMR_ST_n.ARMED. -/
def F.TMR_ST_ARMED : Fld := ⟨0x128, 0, 1⟩
/-- TMR_ST_n.NEW. -/
def F.TMR_ST_NEW : Fld := ⟨0x128, 1, 1⟩
/-- TMR_ST_n.OVERRUN. -/
def F.TMR_ST_OVERRUN : Fld := ⟨0x128, 2, 1⟩
/-- TMR_ST_n.LATE. -/
def F.TMR_ST_LATE : Fld := ⟨0x128, 3, 1⟩
/-- TMR_ST_n.CDROP. -/
def F.TMR_ST_CDROP : Fld := ⟨0x128, 4, 1⟩
/-- TMR_ST_n.LEVEL. -/
def F.TMR_ST_LEVEL : Fld := ⟨0x128, 5, 1⟩
/-- STATUS.QERR. -/
def F.ENC_STATUS_QERR : Fld := ⟨0x010, 0, 1⟩
/-- STATUS.IDX_SEEN. -/
def F.ENC_STATUS_IDX_SEEN : Fld := ⟨0x010, 1, 1⟩
/-- STATUS.STALLED. -/
def F.ENC_STATUS_STALLED : Fld := ⟨0x010, 2, 1⟩
/-- ENC_CTRL.MODE. -/
def F.ENC_CTRL_MODE : Fld := ⟨0x040, 0, 2⟩
/-- ENC_CTRL.DIR. -/
def F.ENC_CTRL_DIR : Fld := ⟨0x040, 2, 1⟩
/-- ENC_CTRL.FILT_N. -/
def F.ENC_CTRL_FILT_N : Fld := ⟨0x040, 3, 4⟩
/-- ENC_CTRL.FILT_K. -/
def F.ENC_CTRL_FILT_K : Fld := ⟨0x040, 7, 4⟩
/-- ENC_CTRL.IDX_MODE. -/
def F.ENC_CTRL_IDX_MODE : Fld := ⟨0x040, 11, 2⟩
/-- ENC_CTRL.IDX_POL. -/
def F.ENC_CTRL_IDX_POL : Fld := ⟨0x040, 13, 1⟩
/-- ENC_CTRL.LGEN. -/
def F.ENC_CTRL_LGEN : Fld := ⟨0x040, 14, 6⟩
/-- ENC_CTRL.LATCH_EN. -/
def F.ENC_CTRL_LATCH_EN : Fld := ⟨0x040, 20, 1⟩
/-- ENC_IVAL.IVAL. -/
def F.ENC_IVAL_IVAL : Fld := ⟨0x044, 0, 32⟩
/-- ENC_PRESET.PRESET. -/
def F.ENC_PRESET_PRESET : Fld := ⟨0x048, 0, 32⟩
/-- ENC_POS.POS. -/
def F.ENC_POS_POS : Fld := ⟨0x04C, 0, 32⟩
/-- ENC_IPOS.IPOS. -/
def F.ENC_IPOS_IPOS : Fld := ⟨0x050, 0, 32⟩
/-- ENC_LPOS.LPOS. -/
def F.ENC_LPOS_LPOS : Fld := ⟨0x054, 0, 32⟩
/-- ENC_LSTAMP.LSTAMP. -/
def F.ENC_LSTAMP_LSTAMP : Fld := ⟨0x058, 0, 32⟩
/-- ENC_ESTAMP.ESTAMP. -/
def F.ENC_ESTAMP_ESTAMP : Fld := ⟨0x060, 0, 32⟩
/-- ENC_PERIOD.PERIOD. -/
def F.ENC_PERIOD_PERIOD : Fld := ⟨0x068, 0, 32⟩
/-- ENC_ERR_CNT.ERR. -/
def F.ENC_ERR_CNT_ERR : Fld := ⟨0x06C, 0, 32⟩
/-- STATUS.EXPIRED. -/
def F.WD_STATUS_EXPIRED : Fld := ⟨0x010, 0, 1⟩
/-- STATUS.CAUSE. -/
def F.WD_STATUS_CAUSE : Fld := ⟨0x010, 1, 1⟩
/-- STATUS.FEED_IGNORED. -/
def F.WD_STATUS_FEED_IGNORED : Fld := ⟨0x010, 2, 1⟩
/-- WD_CTRL.ACTION. -/
def F.WD_CTRL_ACTION : Fld := ⟨0x040, 0, 2⟩
/-- WD_CTRL.FEED_SRC. -/
def F.WD_CTRL_FEED_SRC : Fld := ⟨0x040, 2, 2⟩
/-- WD_CTRL.FEED_DESC. -/
def F.WD_CTRL_FEED_DESC : Fld := ⟨0x040, 4, 8⟩
/-- WD_CTRL.FEED_LEV. -/
def F.WD_CTRL_FEED_LEV : Fld := ⟨0x040, 12, 3⟩
/-- WD_MIN.MIN. -/
def F.WD_MIN_MIN : Fld := ⟨0x044, 0, 24⟩
/-- WD_MAX.MAX. -/
def F.WD_MAX_MAX : Fld := ⟨0x048, 0, 24⟩
/-- WD_FEED.FEED. -/
def F.WD_FEED_FEED : Fld := ⟨0x04C, 0, 32⟩
/-- WD_ACK.ACK. -/
def F.WD_ACK_ACK : Fld := ⟨0x050, 0, 1⟩
/-- WD_ELAPSED.E. -/
def F.WD_ELAPSED_E : Fld := ⟨0x054, 0, 32⟩
/-- WD_FEEDS.FEEDS. -/
def F.WD_FEEDS_FEEDS : Fld := ⟨0x058, 0, 32⟩
/-- WD_EXP_CNT.EXPIRIES. -/
def F.WD_EXP_CNT_EXPIRIES : Fld := ⟨0x05C, 0, 32⟩
/-- STATUS.LSTATE. -/
def F.TLC_STATUS_LSTATE : Fld := ⟨0x010, 0, 3⟩
/-- STATUS.ALIGNED. -/
def F.TLC_STATUS_ALIGNED : Fld := ⟨0x010, 3, 1⟩
/-- STATUS.DETACHED. -/
def F.TLC_STATUS_DETACHED : Fld := ⟨0x010, 4, 1⟩
/-- STATUS.GATE_LOST. -/
def F.TLC_STATUS_GATE_LOST : Fld := ⟨0x010, 5, 1⟩
/-- STATUS.LAUNCH_BAD. -/
def F.TLC_STATUS_LAUNCH_BAD : Fld := ⟨0x010, 6, 1⟩
/-- TL_CTRL.SLOT. -/
def F.TL_CTRL_SLOT : Fld := ⟨0x040, 0, 16⟩
/-- TL_CTRL.DET_SLOTS. -/
def F.TL_CTRL_DET_SLOTS : Fld := ⟨0x040, 16, 8⟩
/-- TL_CTRL.REPEAT. -/
def F.TL_CTRL_REPEAT : Fld := ⟨0x040, 24, 1⟩
/-- TL_CTRL.GC_BASE_SRC. -/
def F.TL_CTRL_GC_BASE_SRC : Fld := ⟨0x040, 25, 2⟩
/-- TL_CTRL.GC_GEN. -/
def F.TL_CTRL_GC_GEN : Fld := ⟨0x040, 27, 3⟩
/-- TL_LEAD.LEAD. -/
def F.TL_LEAD_LEAD : Fld := ⟨0x044, 0, 24⟩
/-- TL_GC_BASE.BASE. -/
def F.TL_GC_BASE_BASE : Fld := ⟨0x048, 0, 32⟩
/-- TL_SAMPLE_OFS.OFS. -/
def F.TL_SAMPLE_OFS_OFS : Fld := ⟨0x050, 0, 32⟩
/-- TL_TXLEN.LEN. -/
def F.TL_TXLEN_LEN : Fld := ⟨0x054, 0, 6⟩
/-- TL_RXLEN.LEN. -/
def F.TL_RXLEN_LEN : Fld := ⟨0x058, 0, 7⟩
/-- TL_TXBUF_w.DATA. -/
def F.TL_TXBUF_DATA : Fld := ⟨0x080, 0, 32⟩
/-- TL_RXBUF_w.DATA. -/
def F.TL_RXBUF_DATA : Fld := ⟨0x0C0, 0, 32⟩
/-- TL_VAL_STAMP.STAMP. -/
def F.TL_VAL_STAMP_STAMP : Fld := ⟨0x100, 0, 32⟩
/-- TL_VAL_SSTAMP.SSTAMP. -/
def F.TL_VAL_SSTAMP_SSTAMP : Fld := ⟨0x108, 0, 32⟩
/-- TL_VAL_s.VALUE. -/
def F.TL_VAL_VALUE : Fld := ⟨0x200, 0, 32⟩
/-- NB_ANN_CLASS.CLASS. -/
def F.NB_ANN_CLASS_CLASS : Fld := ⟨0x040, 0, 16⟩
/-- NB_ANN_CLASS.NCH. -/
def F.NB_ANN_CLASS_NCH : Fld := ⟨0x040, 16, 8⟩
/-- NB_ANN_CLASS.NVAL. -/
def F.NB_ANN_CLASS_NVAL : Fld := ⟨0x040, 24, 8⟩
/-- NB_ANN_ID.ID. -/
def F.NB_ANN_ID_ID : Fld := ⟨0x048, 0, 32⟩
/-- NB_ANN_INFO.NODE_DEC. -/
def F.NB_ANN_INFO_NODE_DEC : Fld := ⟨0x050, 0, 16⟩
/-- NB_ANN_INFO.PROTO. -/
def F.NB_ANN_INFO_PROTO : Fld := ⟨0x050, 16, 8⟩
/-- NB_ANN_INFO.VALID. -/
def F.NB_ANN_INFO_VALID : Fld := ⟨0x050, 31, 1⟩
/-- NB_CFG.NCH. -/
def F.NB_CFG_NCH : Fld := ⟨0x054, 0, 6⟩
/-- NB_CFG.NVAL. -/
def F.NB_CFG_NVAL : Fld := ⟨0x054, 6, 7⟩
/-- NB_CFG.LOSS. -/
def F.NB_CFG_LOSS : Fld := ⟨0x054, 13, 8⟩
/-- NB_EXPECT_ID.ID. -/
def F.NB_EXPECT_ID_ID : Fld := ⟨0x058, 0, 32⟩
/-- NB_CMD.BIND. -/
def F.NB_CMD_BIND : Fld := ⟨0x060, 0, 1⟩
/-- NB_CMD.UNBIND. -/
def F.NB_CMD_UNBIND : Fld := ⟨0x060, 1, 1⟩
/-- NB_CMD.ACK_DETACH. -/
def F.NB_CMD_ACK_DETACH : Fld := ⟨0x060, 2, 1⟩
/-- NB_STAT.RESULT. -/
def F.NB_STAT_RESULT : Fld := ⟨0x064, 0, 4⟩
/-- NB_STAT.BOUND. -/
def F.NB_STAT_BOUND : Fld := ⟨0x064, 4, 1⟩
/-- NB_STAT.LOCKED. -/
def F.NB_STAT_LOCKED : Fld := ⟨0x064, 5, 1⟩
/-- NB_ID.ID. -/
def F.NB_ID_ID : Fld := ⟨0x068, 0, 32⟩
/-- NB_NODE_ST.STATUS. -/
def F.NB_NODE_ST_STATUS : Fld := ⟨0x070, 0, 32⟩
/-- CSR_CORR.CORR. -/
def F.CSR_CORR_CORR : Fld := ⟨0x040, 0, 32⟩
/-- CSR_UNCORR.UNCORR. -/
def F.CSR_UNCORR_UNCORR : Fld := ⟨0x044, 0, 32⟩
/-- CSR_LAST.ADDR. -/
def F.CSR_LAST_ADDR : Fld := ⟨0x048, 0, 32⟩
/-- L2_CORR_k.CORR. -/
def F.L2_CORR_CORR : Fld := ⟨0x050, 0, 32⟩
/-- L2_UNCORR_k.REFETCH. -/
def F.L2_UNCORR_REFETCH : Fld := ⟨0x054, 0, 16⟩
/-- L2_UNCORR_k.POISON. -/
def F.L2_UNCORR_POISON : Fld := ⟨0x054, 16, 16⟩
/-- STATUS.HELD. -/
def F.INTC_STATUS_HELD : Fld := ⟨0x010, 0, 1⟩
/-- STATUS.START_FAIL. -/
def F.INTC_STATUS_START_FAIL : Fld := ⟨0x010, 1, 1⟩
/-- CORE_START.ADDR. -/
def F.CORE_START_ADDR : Fld := ⟨0x040, 0, 32⟩
/-- CORE_GO.GO. -/
def F.CORE_GO_GO : Fld := ⟨0x048, 0, 1⟩
/-- INT_TOP.LEVEL. -/
def F.INT_TOP_LEVEL : Fld := ⟨0x04C, 0, 3⟩
/-- INT_TOP.EVENT. -/
def F.INT_TOP_EVENT : Fld := ⟨0x04C, 3, 12⟩
/-- INT_TAKEN.TAKEN. -/
def F.INT_TAKEN_TAKEN : Fld := ⟨0x050, 0, 32⟩
/-- RDOOR_TMO.TMO. -/
def F.RDOOR_TMO_TMO : Fld := ⟨0x054, 0, 16⟩
/-- DSRC_j.LEVEL. -/
def F.DSRC_LEVEL : Fld := ⟨0x058, 0, 3⟩
/-- DSRC_j.TARGET. -/
def F.DSRC_TARGET : Fld := ⟨0x058, 3, 8⟩
/-- INT_SRC_e.LEVEL. -/
def F.INT_SRC_LEVEL : Fld := ⟨0x040, 0, 3⟩
/-- INT_SRC_e.TARGET. -/
def F.INT_SRC_TARGET : Fld := ⟨0x040, 3, 8⟩
/-- INT_SRC_e.PEND. -/
def F.INT_SRC_PEND : Fld := ⟨0x040, 11, 1⟩
/-- LS_CTRL.MODE. -/
def F.LS_CTRL_MODE : Fld := ⟨0x100, 0, 1⟩
/-- LS_CTRL.RB_REPEAT_MAX. -/
def F.LS_CTRL_RB_REPEAT_MAX : Fld := ⟨0x100, 4, 4⟩
/-- LS_CHK_BASE.BASE. -/
def F.LS_CHK_BASE_BASE : Fld := ⟨0x108, 0, 32⟩
/-- LS_INTERVAL.INTERVAL. -/
def F.LS_INTERVAL_INTERVAL : Fld := ⟨0x110, 0, 24⟩
/-- LS_STAT.RECOVERING. -/
def F.LS_STAT_RECOVERING : Fld := ⟨0x114, 0, 1⟩
/-- LS_STAT.FAILED. -/
def F.LS_STAT_FAILED : Fld := ⟨0x114, 1, 1⟩
/-- LS_STAT.HELD_TEST. -/
def F.LS_STAT_HELD_TEST : Fld := ⟨0x114, 2, 1⟩
/-- LS_STAT.SLOT. -/
def F.LS_STAT_SLOT : Fld := ⟨0x114, 3, 1⟩
/-- LS_STAT.LAST_CAUSE. -/
def F.LS_STAT_LAST_CAUSE : Fld := ⟨0x114, 8, 4⟩
/-- LS_STAT.FAIL_CAUSE. -/
def F.LS_STAT_FAIL_CAUSE : Fld := ⟨0x114, 12, 4⟩
/-- LS_STAT.JOURNAL. -/
def F.LS_STAT_JOURNAL : Fld := ⟨0x114, 16, 10⟩
/-- LS_RB_CNT.ROLLBACKS. -/
def F.LS_RB_CNT_ROLLBACKS : Fld := ⟨0x118, 0, 32⟩
/-- LS_CHK_CNT.CHECKPOINTS. -/
def F.LS_CHK_CNT_CHECKPOINTS : Fld := ⟨0x11C, 0, 32⟩
/-- LS_LAST_TIME.TIME. -/
def F.LS_LAST_TIME_TIME : Fld := ⟨0x120, 0, 32⟩
/-- LS_LAST_DUR.DUR. -/
def F.LS_LAST_DUR_DUR : Fld := ⟨0x128, 0, 32⟩
/-- LS_MISMATCH.LANE. -/
def F.LS_MISMATCH_LANE : Fld := ⟨0x12C, 0, 11⟩
/-- LS_MISMATCH.VALID. -/
def F.LS_MISMATCH_VALID : Fld := ⟨0x12C, 31, 1⟩
/-- HBM_CTRL.MODE. -/
def F.HBM_CTRL_MODE : Fld := ⟨0x040, 0, 2⟩
/-- HBM_CTRL.MB_FLUSH. -/
def F.HBM_CTRL_MB_FLUSH : Fld := ⟨0x040, 2, 1⟩
/-- HBM_TEMP.TEMP. -/
def F.HBM_TEMP_TEMP : Fld := ⟨0x044, 0, 8⟩
/-- HBM_TEMP.REFRESH. -/
def F.HBM_TEMP_REFRESH : Fld := ⟨0x044, 8, 2⟩
/-- HBM_MB.DIRTY. -/
def F.HBM_MB_DIRTY : Fld := ⟨0x048, 0, 6⟩
/-- HBM_MB_AGE.AGE. -/
def F.HBM_MB_AGE_AGE : Fld := ⟨0x04C, 0, 10⟩
/-- HBM_INVAL_BASE.BASE. -/
def F.HBM_INVAL_BASE_BASE : Fld := ⟨0x050, 0, 32⟩
/-- HBM_INVAL_PAGES.PAGES. -/
def F.HBM_INVAL_PAGES_PAGES : Fld := ⟨0x058, 0, 24⟩
/-- HBM_INVAL_GO.GO. -/
def F.HBM_INVAL_GO_GO : Fld := ⟨0x05C, 0, 1⟩
/-- CR_START_r.START. -/
def F.CR_START_START : Fld := ⟨0x040, 0, 15⟩
/-- CR_STRENGTH.T. -/
def F.CR_STRENGTH_T : Fld := ⟨0x050, 0, 8⟩
/-- CR_DATA_END_r.END. -/
def F.CR_DATA_END_END : Fld := ⟨0x060, 0, 32⟩
/-- SCR_CTRL.PATROL_EN. -/
def F.SCR_CTRL_PATROL_EN : Fld := ⟨0x040, 0, 1⟩
/-- SCR_CTRL.PERIOD. -/
def F.SCR_CTRL_PERIOD : Fld := ⟨0x040, 1, 8⟩
/-- SCR_RANGE_BASE.BASE. -/
def F.SCR_RANGE_BASE_BASE : Fld := ⟨0x048, 0, 32⟩
/-- SCR_RANGE_PAGES.PAGES. -/
def F.SCR_RANGE_PAGES_PAGES : Fld := ⟨0x050, 0, 24⟩
/-- SCR_GO.GO. -/
def F.SCR_GO_GO : Fld := ⟨0x054, 0, 1⟩
/-- SCR_STAT.RANGE_BUSY. -/
def F.SCR_STAT_RANGE_BUSY : Fld := ⟨0x058, 0, 1⟩
/-- ERR_MAXSYM.MAX. -/
def F.ERR_MAXSYM_MAX : Fld := ⟨0x074, 0, 6⟩
/-- BITMAP_ERR.COUNT. -/
def F.BITMAP_ERR_COUNT : Fld := ⟨0x078, 0, 32⟩
/-- ERR_LAST_PAGE.ADDR. -/
def F.ERR_LAST_PAGE_ADDR : Fld := ⟨0x080, 0, 32⟩
/-- SILL_START.DESC. -/
def F.SILL_START_DESC : Fld := ⟨0x040, 0, 32⟩
/-- SILL_LAST.NUMBER. -/
def F.SILL_LAST_NUMBER : Fld := ⟨0x048, 0, 16⟩
/-- SILL_LAST.CODE. -/
def F.SILL_LAST_CODE : Fld := ⟨0x048, 16, 4⟩
/-- SILL_STAT.QUEUED. -/
def F.SILL_STAT_QUEUED : Fld := ⟨0x04C, 0, 5⟩
/-- SILL_STAT.RUNNING. -/
def F.SILL_STAT_RUNNING : Fld := ⟨0x04C, 5, 3⟩
/-- SILL_DONE_CNT.DONE. -/
def F.SILL_DONE_CNT_DONE : Fld := ⟨0x050, 0, 32⟩
/-- SILL_ERR_INFO.NUMBER. -/
def F.SILL_ERR_INFO_NUMBER : Fld := ⟨0x054, 0, 16⟩
/-- SILL_ERR_INFO.CAUSE. -/
def F.SILL_ERR_INFO_CAUSE : Fld := ⟨0x054, 16, 8⟩
/-- SILL_ERR_INFO.VALID. -/
def F.SILL_ERR_INFO_VALID : Fld := ⟨0x054, 31, 1⟩
/-- SILL_CANCEL.NUMBER. -/
def F.SILL_CANCEL_NUMBER : Fld := ⟨0x058, 0, 16⟩
/-- PF_OTYPE.OTYPE. -/
def F.PF_OTYPE_OTYPE : Fld := ⟨0x040, 0, 12⟩
/-- PF_STAT.LINK_UP. -/
def F.PF_STAT_LINK_UP : Fld := ⟨0x044, 0, 1⟩
/-- PF_STAT.SPEED. -/
def F.PF_STAT_SPEED : Fld := ⟨0x044, 1, 3⟩
/-- PF_STAT.WIDTH. -/
def F.PF_STAT_WIDTH : Fld := ⟨0x044, 4, 3⟩
/-- PF_STAT.BME. -/
def F.PF_STAT_BME : Fld := ⟨0x044, 7, 1⟩
/-- PF_STAT.D3. -/
def F.PF_STAT_D3 : Fld := ⟨0x044, 8, 1⟩
/-- PF_TSNAP.SNAP. -/
def F.PF_TSNAP_SNAP : Fld := ⟨0x048, 0, 32⟩
/-- PF_TSNAP_GO.GO. -/
def F.PF_TSNAP_GO_GO : Fld := ⟨0x050, 0, 1⟩
/-- WIN_k_BASE.BASE. -/
def F.WIN_BASE_BASE : Fld := ⟨0x080, 0, 32⟩
/-- WIN_k_CTRL.LOG2. -/
def F.WIN_CTRL_LOG2 : Fld := ⟨0x088, 0, 5⟩
/-- WIN_k_CTRL.R. -/
def F.WIN_CTRL_R : Fld := ⟨0x088, 5, 1⟩
/-- WIN_k_CTRL.W. -/
def F.WIN_CTRL_W : Fld := ⟨0x088, 6, 1⟩
/-- WIN_k_CTRL.EN. -/
def F.WIN_CTRL_EN : Fld := ⟨0x088, 7, 1⟩
/-- MSIX_EV_v.EVENT. -/
def F.MSIX_EV_EVENT : Fld := ⟨0x100, 0, 11⟩
/-- MSIX_EV_v.EN. -/
def F.MSIX_EV_EN : Fld := ⟨0x100, 31, 1⟩
/-- BOOT_DB.LEN. -/
def F.BOOT_DB_LEN : Fld := ⟨0x180, 0, 24⟩
/-- CH_RING.BASE. -/
def F.CH_RING_BASE : Fld := ⟨0x000, 0, 32⟩
/-- CH_CFG.LOG2. -/
def F.CH_CFG_LOG2 : Fld := ⟨0x008, 0, 4⟩
/-- CH_CFG.PF. -/
def F.CH_CFG_PF : Fld := ⟨0x008, 4, 1⟩
/-- CH_EN.EN. -/
def F.CH_EN_EN : Fld := ⟨0x00C, 0, 1⟩
/-- CH_TAIL.TAIL. -/
def F.CH_TAIL_TAIL : Fld := ⟨0x010, 0, 12⟩
/-- CH_HEAD.HEAD. -/
def F.CH_HEAD_HEAD : Fld := ⟨0x014, 0, 12⟩
/-- CH_ST.HALTED. -/
def F.CH_ST_HALTED : Fld := ⟨0x018, 0, 1⟩
/-- CH_ST.ACTIVE. -/
def F.CH_ST_ACTIVE : Fld := ⟨0x018, 1, 1⟩
/-- ETH_RX_LAT.RX_LAT. -/
def F.ETH_RX_LAT_RX_LAT : Fld := ⟨0x080, 0, 16⟩
/-- ETH_TX_LAT.TX_LAT. -/
def F.ETH_TX_LAT_TX_LAT : Fld := ⟨0x084, 0, 16⟩
/-- ETH_TXTS.STAMP. -/
def F.ETH_TXTS_STAMP : Fld := ⟨0x088, 0, 32⟩
/-- ETH_TXTS_INFO.SEQ. -/
def F.ETH_TXTS_INFO_SEQ : Fld := ⟨0x090, 0, 16⟩
/-- ETH_TXTS_INFO.TYPE. -/
def F.ETH_TXTS_INFO_TYPE : Fld := ⟨0x090, 16, 4⟩
/-- ETH_TXTS_INFO.DOMAIN. -/
def F.ETH_TXTS_INFO_DOMAIN : Fld := ⟨0x090, 20, 8⟩
/-- ETH_TXTS_INFO.VALID. -/
def F.ETH_TXTS_INFO_VALID : Fld := ⟨0x090, 31, 1⟩
/-- ETH_TXTS_DROP.DROPS. -/
def F.ETH_TXTS_DROP_DROPS : Fld := ⟨0x094, 0, 32⟩
/-- STATUS.LINK. -/
def F.ETH_STATUS_LINK : Fld := ⟨0x010, 0, 1⟩
/-- STATUS.SPEED. -/
def F.ETH_STATUS_SPEED : Fld := ⟨0x010, 1, 2⟩
/-- ETH_CTRL.TX_EN. -/
def F.ETH_CTRL_TX_EN : Fld := ⟨0x040, 0, 1⟩
/-- ETH_CTRL.RX_EN. -/
def F.ETH_CTRL_RX_EN : Fld := ⟨0x040, 1, 1⟩
/-- ETH_CTRL.IFACE. -/
def F.ETH_CTRL_IFACE : Fld := ⟨0x040, 2, 1⟩
/-- ETH_CTRL.AN_EN. -/
def F.ETH_CTRL_AN_EN : Fld := ⟨0x040, 3, 1⟩
/-- ETH_CTRL.SPEED. -/
def F.ETH_CTRL_SPEED : Fld := ⟨0x040, 4, 2⟩
/-- ETH_CTRL.PROMISC. -/
def F.ETH_CTRL_PROMISC : Fld := ⟨0x040, 6, 1⟩
/-- ETH_MTU.MTU. -/
def F.ETH_MTU_MTU : Fld := ⟨0x044, 0, 14⟩
/-- ETH_MAC_LO.MAC_LO. -/
def F.ETH_MAC_LO_MAC_LO : Fld := ⟨0x048, 0, 32⟩
/-- ETH_MAC_HI.MAC_HI. -/
def F.ETH_MAC_HI_MAC_HI : Fld := ⟨0x04C, 0, 16⟩
/-- ETH_RX_CNT.FRAMES. -/
def F.ETH_RX_CNT_FRAMES : Fld := ⟨0x050, 0, 32⟩
/-- ETH_RX_ERR.ERRORS. -/
def F.ETH_RX_ERR_ERRORS : Fld := ⟨0x054, 0, 32⟩
/-- ETH_RX_DROP.DROPS. -/
def F.ETH_RX_DROP_DROPS : Fld := ⟨0x058, 0, 32⟩
/-- ETH_TX_CNT.FRAMES. -/
def F.ETH_TX_CNT_FRAMES : Fld := ⟨0x05C, 0, 32⟩
/-- ETH_MDIO_CMD.PHYAD. -/
def F.ETH_MDIO_CMD_PHYAD : Fld := ⟨0x060, 0, 5⟩
/-- ETH_MDIO_CMD.REG. -/
def F.ETH_MDIO_CMD_REG : Fld := ⟨0x060, 5, 5⟩
/-- ETH_MDIO_CMD.OP. -/
def F.ETH_MDIO_CMD_OP : Fld := ⟨0x060, 10, 2⟩
/-- ETH_MDIO_CMD.C45. -/
def F.ETH_MDIO_CMD_C45 : Fld := ⟨0x060, 12, 1⟩
/-- ETH_MDIO_CMD.DATA. -/
def F.ETH_MDIO_CMD_DATA : Fld := ⟨0x060, 16, 16⟩
/-- ETH_MDIO_GO.GO. -/
def F.ETH_MDIO_GO_GO : Fld := ⟨0x064, 0, 1⟩
/-- ETH_MDIO_STAT.BUSY. -/
def F.ETH_MDIO_STAT_BUSY : Fld := ⟨0x068, 0, 1⟩
/-- ETH_MDIO_STAT.DATA. -/
def F.ETH_MDIO_STAT_DATA : Fld := ⟨0x068, 16, 16⟩
/-- ETH_TXQ_q_BASE.BASE. -/
def F.ETH_TXQ_BASE_BASE : Fld := ⟨0x100, 0, 32⟩
/-- ETH_TXQ_q_CFG.LOG2. -/
def F.ETH_TXQ_CFG_LOG2 : Fld := ⟨0x108, 0, 4⟩
/-- ETH_TXQ_q_CFG.EN. -/
def F.ETH_TXQ_CFG_EN : Fld := ⟨0x108, 4, 1⟩
/-- ETH_TXQ_q_PTR.TAIL. -/
def F.ETH_TXQ_PTR_TAIL : Fld := ⟨0x10C, 0, 12⟩
/-- ETH_TXQ_q_PTR.HEAD. -/
def F.ETH_TXQ_PTR_HEAD : Fld := ⟨0x10C, 16, 12⟩
/-- ETH_RXQ_BASE.BASE. -/
def F.ETH_RXQ_BASE_BASE : Fld := ⟨0x180, 0, 32⟩
/-- ETH_RXQ_CFG.LOG2. -/
def F.ETH_RXQ_CFG_LOG2 : Fld := ⟨0x188, 0, 4⟩
/-- ETH_RXQ_CFG.EN. -/
def F.ETH_RXQ_CFG_EN : Fld := ⟨0x188, 4, 1⟩
/-- ETH_RXQ_CFG.BUF_LINES. -/
def F.ETH_RXQ_CFG_BUF_LINES : Fld := ⟨0x188, 8, 8⟩
/-- ETH_RXQ_PTR.TAIL. -/
def F.ETH_RXQ_PTR_TAIL : Fld := ⟨0x18C, 0, 12⟩
/-- ETH_RXQ_PTR.HEAD. -/
def F.ETH_RXQ_PTR_HEAD : Fld := ⟨0x18C, 16, 12⟩
/-- ETH_CBS_q.IDLESLOPE. -/
def F.ETH_CBS_IDLESLOPE : Fld := ⟨0x1C0, 0, 24⟩
/-- ETH_GCL_BASE.BASE. -/
def F.ETH_GCL_BASE_BASE : Fld := ⟨0x200, 0, 32⟩
/-- ETH_GCL_CYCLE.CYCLE. -/
def F.ETH_GCL_CYCLE_CYCLE : Fld := ⟨0x208, 0, 32⟩
/-- ETH_GCL_LEN.LEN. -/
def F.ETH_GCL_LEN_LEN : Fld := ⟨0x20C, 0, 8⟩
/-- ETH_GCL_CHANGE.CHANGE. -/
def F.ETH_GCL_CHANGE_CHANGE : Fld := ⟨0x210, 0, 32⟩
/-- ETH_GCL_CTRL.EN. -/
def F.ETH_GCL_CTRL_EN : Fld := ⟨0x218, 0, 1⟩
/-- ETH_GCL_CTRL.GO. -/
def F.ETH_GCL_CTRL_GO : Fld := ⟨0x218, 1, 1⟩
/-- ETH_GCL_STAT.PENDING. -/
def F.ETH_GCL_STAT_PENDING : Fld := ⟨0x21C, 0, 1⟩
/-- ETH_GCL_STAT.OPER_VALID. -/
def F.ETH_GCL_STAT_OPER_VALID : Fld := ⟨0x21C, 1, 1⟩
/-- ETH_GCL_STAT.ENTRY. -/
def F.ETH_GCL_STAT_ENTRY : Fld := ⟨0x21C, 2, 7⟩
/-- STATUS.STATE. -/
def F.CAN_STATUS_STATE : Fld := ⟨0x010, 0, 2⟩
/-- CAN_CTRL.MODE. -/
def F.CAN_CTRL_MODE : Fld := ⟨0x040, 0, 2⟩
/-- CAN_CTRL.FD_EN. -/
def F.CAN_CTRL_FD_EN : Fld := ⟨0x040, 2, 1⟩
/-- CAN_CTRL.TDC_EN. -/
def F.CAN_CTRL_TDC_EN : Fld := ⟨0x040, 3, 1⟩
/-- CAN_CTRL.RECOVER. -/
def F.CAN_CTRL_RECOVER : Fld := ⟨0x040, 4, 1⟩
/-- CAN_NBT.BRP. -/
def F.CAN_NBT_BRP : Fld := ⟨0x044, 0, 10⟩
/-- CAN_NBT.TSEG1. -/
def F.CAN_NBT_TSEG1 : Fld := ⟨0x044, 10, 8⟩
/-- CAN_NBT.TSEG2. -/
def F.CAN_NBT_TSEG2 : Fld := ⟨0x044, 18, 7⟩
/-- CAN_NBT.SJW. -/
def F.CAN_NBT_SJW : Fld := ⟨0x044, 25, 7⟩
/-- CAN_DBT.BRP. -/
def F.CAN_DBT_BRP : Fld := ⟨0x048, 0, 5⟩
/-- CAN_DBT.TSEG1. -/
def F.CAN_DBT_TSEG1 : Fld := ⟨0x048, 5, 5⟩
/-- CAN_DBT.TSEG2. -/
def F.CAN_DBT_TSEG2 : Fld := ⟨0x048, 10, 4⟩
/-- CAN_DBT.SJW. -/
def F.CAN_DBT_SJW : Fld := ⟨0x048, 14, 4⟩
/-- CAN_TDC.OFFSET. -/
def F.CAN_TDC_OFFSET : Fld := ⟨0x04C, 0, 7⟩
/-- CAN_ERRC.TEC. -/
def F.CAN_ERRC_TEC : Fld := ⟨0x050, 0, 8⟩
/-- CAN_ERRC.REC. -/
def F.CAN_ERRC_REC : Fld := ⟨0x050, 8, 7⟩
/-- CAN_ERRC.RP. -/
def F.CAN_ERRC_RP : Fld := ⟨0x050, 15, 1⟩
/-- CAN_ERRC.LEC. -/
def F.CAN_ERRC_LEC : Fld := ⟨0x050, 16, 3⟩
/-- CAN_TXREQ.REQ. -/
def F.CAN_TXREQ_REQ : Fld := ⟨0x054, 0, 32⟩
/-- CAN_TXCAN.CANCEL. -/
def F.CAN_TXCAN_CANCEL : Fld := ⟨0x058, 0, 32⟩
/-- CAN_TXDONE.DONE. -/
def F.CAN_TXDONE_DONE : Fld := ⟨0x05C, 0, 32⟩
/-- CAN_RXFULL.FULL. -/
def F.CAN_RXFULL_FULL : Fld := ⟨0x060, 0, 32⟩
/-- CAN_RXLOST.LOST. -/
def F.CAN_RXLOST_LOST : Fld := ⟨0x064, 0, 32⟩
/-- MB_CFG.EN. -/
def F.MB_CFG_EN : Fld := ⟨0x100, 0, 1⟩
/-- MB_CFG.DIR. -/
def F.MB_CFG_DIR : Fld := ⟨0x100, 1, 1⟩
/-- MB_CFG.IDE. -/
def F.MB_CFG_IDE : Fld := ⟨0x100, 2, 1⟩
/-- MB_CFG.FDF. -/
def F.MB_CFG_FDF : Fld := ⟨0x100, 3, 1⟩
/-- MB_CFG.BRS. -/
def F.MB_CFG_BRS : Fld := ⟨0x100, 4, 1⟩
/-- MB_CFG.RTR. -/
def F.MB_CFG_RTR : Fld := ⟨0x100, 5, 1⟩
/-- MB_ID.ID. -/
def F.MB_ID_ID : Fld := ⟨0x104, 0, 29⟩
/-- MB_MASK.MASK. -/
def F.MB_MASK_MASK : Fld := ⟨0x108, 0, 29⟩
/-- MB_DLC.DLC. -/
def F.MB_DLC_DLC : Fld := ⟨0x10C, 0, 4⟩
/-- MB_DLC.FDF. -/
def F.MB_DLC_FDF : Fld := ⟨0x10C, 4, 1⟩
/-- MB_DLC.BRS. -/
def F.MB_DLC_BRS : Fld := ⟨0x10C, 5, 1⟩
/-- MB_DLC.ESI. -/
def F.MB_DLC_ESI : Fld := ⟨0x10C, 6, 1⟩
/-- MB_DLC.RTR. -/
def F.MB_DLC_RTR : Fld := ⟨0x10C, 7, 1⟩
/-- MB_STAMP.STAMP. -/
def F.MB_STAMP_STAMP : Fld := ⟨0x110, 0, 32⟩
/-- MB_DATA_w.DATA. -/
def F.MB_DATA_DATA : Fld := ⟨0x120, 0, 32⟩
/-- STATUS.ACTIVE. -/
def F.XSPI_STATUS_ACTIVE : Fld := ⟨0x010, 0, 1⟩
/-- STATUS.DONE. -/
def F.XSPI_STATUS_DONE : Fld := ⟨0x010, 1, 1⟩
/-- STATUS.REFUSED. -/
def F.XSPI_STATUS_REFUSED : Fld := ⟨0x010, 2, 1⟩
/-- XSPI_CFG.PROTO. -/
def F.XSPI_CFG_PROTO : Fld := ⟨0x040, 0, 1⟩
/-- XSPI_CFG.DIV. -/
def F.XSPI_CFG_DIV : Fld := ⟨0x040, 1, 7⟩
/-- XSPI_CMD.OPCODE. -/
def F.XSPI_CMD_OPCODE : Fld := ⟨0x044, 0, 16⟩
/-- XSPI_CMD.ADDR_BYTES. -/
def F.XSPI_CMD_ADDR_BYTES : Fld := ⟨0x044, 16, 3⟩
/-- XSPI_CMD.DUMMY. -/
def F.XSPI_CMD_DUMMY : Fld := ⟨0x044, 19, 5⟩
/-- XSPI_CMD.WRITE. -/
def F.XSPI_CMD_WRITE : Fld := ⟨0x044, 24, 1⟩
/-- XSPI_ADDR.ADDR. -/
def F.XSPI_ADDR_ADDR : Fld := ⟨0x048, 0, 32⟩
/-- XSPI_LEN.LEN. -/
def F.XSPI_LEN_LEN : Fld := ⟨0x04C, 0, 9⟩
/-- XSPI_GO.GO. -/
def F.XSPI_GO_GO : Fld := ⟨0x050, 0, 1⟩
/-- XSPI_GO.RESET. -/
def F.XSPI_GO_RESET : Fld := ⟨0x050, 1, 1⟩
/-- XSPI_BUF_w.DATA. -/
def F.XSPI_BUF_DATA : Fld := ⟨0x100, 0, 32⟩
/-- STATUS.ACTIVE. -/
def F.I2C_STATUS_ACTIVE : Fld := ⟨0x010, 0, 1⟩
/-- STATUS.DONE. -/
def F.I2C_STATUS_DONE : Fld := ⟨0x010, 1, 1⟩
/-- STATUS.NACK. -/
def F.I2C_STATUS_NACK : Fld := ⟨0x010, 2, 1⟩
/-- STATUS.ARB_LOST. -/
def F.I2C_STATUS_ARB_LOST : Fld := ⟨0x010, 3, 1⟩
/-- STATUS.COUNT. -/
def F.I2C_STATUS_COUNT : Fld := ⟨0x010, 4, 6⟩
/-- STATUS.MBOX_WR. -/
def F.I2C_STATUS_MBOX_WR : Fld := ⟨0x010, 10, 1⟩
/-- STATUS.MBOX_RD. -/
def F.I2C_STATUS_MBOX_RD : Fld := ⟨0x010, 11, 1⟩
/-- STATUS.LAST. -/
def F.I2C_STATUS_LAST : Fld := ⟨0x010, 12, 8⟩
/-- I2C_CTRL.CEN. -/
def F.I2C_CTRL_CEN : Fld := ⟨0x040, 0, 1⟩
/-- I2C_CTRL.TEN. -/
def F.I2C_CTRL_TEN : Fld := ⟨0x040, 1, 1⟩
/-- I2C_CTRL.SPEED. -/
def F.I2C_CTRL_SPEED : Fld := ⟨0x040, 2, 2⟩
/-- I2C_TADDR.ADDR. -/
def F.I2C_TADDR_ADDR : Fld := ⟨0x044, 0, 7⟩
/-- I2C_CCMD.ADDR. -/
def F.I2C_CCMD_ADDR : Fld := ⟨0x048, 0, 7⟩
/-- I2C_CCMD.READ. -/
def F.I2C_CCMD_READ : Fld := ⟨0x048, 7, 1⟩
/-- I2C_CCMD.LEN. -/
def F.I2C_CCMD_LEN : Fld := ⟨0x048, 8, 6⟩
/-- I2C_CCMD.STOP. -/
def F.I2C_CCMD_STOP : Fld := ⟨0x048, 14, 1⟩
/-- I2C_CGO.GO. -/
def F.I2C_CGO_GO : Fld := ⟨0x04C, 0, 1⟩
/-- I2C_CBUF_w.DATA. -/
def F.I2C_CBUF_DATA : Fld := ⟨0x080, 0, 32⟩
/-- I2C_MBOX_w.DATA. -/
def F.I2C_MBOX_DATA : Fld := ⟨0x800, 0, 32⟩
/-- DBG_STAT.LEVEL. -/
def F.DBG_STAT_LEVEL : Fld := ⟨0x000, 0, 2⟩
/-- DBG_STAT.HALTED. -/
def F.DBG_STAT_HALTED : Fld := ⟨0x000, 2, 1⟩
/-- DBG_HALT_CNT.HALTS. -/
def F.DBG_HALT_CNT_HALTS : Fld := ⟨0x004, 0, 32⟩
/-- DBG_LAST_HALT.COUNT. -/
def F.DBG_LAST_HALT_COUNT : Fld := ⟨0x008, 0, 32⟩
/-- DBG_HALT_REASON.SRC. -/
def F.DBG_HALT_REASON_SRC : Fld := ⟨0x010, 0, 2⟩
/-- DBG_HALT_REASON.CORE. -/
def F.DBG_HALT_REASON_CORE : Fld := ⟨0x010, 2, 3⟩
/-- DBG_HALT_REASON.BP. -/
def F.DBG_HALT_REASON_BP : Fld := ⟨0x010, 5, 2⟩
/-- DBG_HALT_EV.EVENT. -/
def F.DBG_HALT_EV_EVENT : Fld := ⟨0x014, 0, 11⟩
/-- DBG_HALT_EV.EN. -/
def F.DBG_HALT_EV_EN : Fld := ⟨0x014, 31, 1⟩
/-- TRC_CTRL.EN. -/
def F.TRC_CTRL_EN : Fld := ⟨0x040, 0, 1⟩
/-- TRC_CTRL.DEST. -/
def F.TRC_CTRL_DEST : Fld := ⟨0x040, 1, 1⟩
/-- TRC_CTRL.MODE. -/
def F.TRC_CTRL_MODE : Fld := ⟨0x040, 2, 1⟩
/-- TRC_CTRL.STOPPED. -/
def F.TRC_CTRL_STOPPED : Fld := ⟨0x040, 3, 1⟩
/-- TRC_PORT_EN_q.PORTS. -/
def F.TRC_PORT_EN_PORTS : Fld := ⟨0x048, 0, 32⟩
/-- TRC_EV_SEL_i.EVENT. -/
def F.TRC_EV_SEL_EVENT : Fld := ⟨0x080, 0, 11⟩
/-- TRC_EV_SEL_i.EN. -/
def F.TRC_EV_SEL_EN : Fld := ⟨0x080, 31, 1⟩
/-- TRC_RING_BASE.BASE. -/
def F.TRC_RING_BASE_BASE : Fld := ⟨0x0C0, 0, 32⟩
/-- TRC_RING_SIZE.LOG2. -/
def F.TRC_RING_SIZE_LOG2 : Fld := ⟨0x0C8, 0, 5⟩
/-- TRC_WPTR.WPTR. -/
def F.TRC_WPTR_WPTR : Fld := ⟨0x0CC, 0, 32⟩
/-- TRC_DROP.DROPS. -/
def F.TRC_DROP_DROPS : Fld := ⟨0x0D0, 0, 32⟩
/-- TRC_PKTS.PKTS. -/
def F.TRC_PKTS_PKTS : Fld := ⟨0x0D4, 0, 32⟩
/-- RST_CTRL.WARM. -/
def F.RST_CTRL_WARM : Fld := ⟨0x040, 0, 1⟩
/-- FOUT_CTRL.RELEASE. -/
def F.FOUT_CTRL_RELEASE : Fld := ⟨0x0C0, 0, 1⟩
/-- FOUT_CTRL.FORCE. -/
def F.FOUT_CTRL_FORCE : Fld := ⟨0x0C0, 1, 1⟩
/-- FOUT_STAT.ASSERTED. -/
def F.FOUT_STAT_ASSERTED : Fld := ⟨0x0C4, 0, 1⟩
/-- FOUT_STAT.RESET_HOLD. -/
def F.FOUT_STAT_RESET_HOLD : Fld := ⟨0x0C4, 1, 1⟩
/-- FOUT_STAT.SP_FAILED. -/
def F.FOUT_STAT_SP_FAILED : Fld := ⟨0x0C4, 2, 1⟩
/-- FOUT_STAT.FORCED. -/
def F.FOUT_STAT_FORCED : Fld := ⟨0x0C4, 3, 1⟩
/-- FOUT_STAT.REFUSED. -/
def F.FOUT_STAT_REFUSED : Fld := ⟨0x0C4, 4, 1⟩
/-- PH_WIN_OPEN.OPEN. -/
def F.PH_WIN_OPEN_OPEN : Fld := ⟨0x068, 0, 32⟩
/-- PH_WIN_CLOSE.CLOSE. -/
def F.PH_WIN_CLOSE_CLOSE : Fld := ⟨0x070, 0, 32⟩
/-- PH_RES_STAMP.STAMP. -/
def F.PH_RES_STAMP_STAMP : Fld := ⟨0x088, 0, 32⟩
/-- PH_C_j.C. -/
def F.PH_C_C : Fld := ⟨0x160, 0, 32⟩
/-- PH_D_j.D. -/
def F.PH_D_D : Fld := ⟨0x170, 0, 32⟩
/-- PH_SHX_r.SHX. -/
def F.PH_SHX_SHX : Fld := ⟨0x180, 0, 32⟩
/-- PH_SHY.SHY. -/
def F.PH_SHY_SHY : Fld := ⟨0x190, 0, 32⟩
/-- INJ_START.START. -/
def F.INJ_START_START : Fld := ⟨0x050, 0, 32⟩
/-- INJ_F0.F0. -/
def F.INJ_F0_F0 : Fld := ⟨0x068, 0, 32⟩
/-- INJ_F1.F1. -/
def F.INJ_F1_F1 : Fld := ⟨0x06C, 0, 32⟩
/-- INJ_DF.DF. -/
def F.INJ_DF_DF : Fld := ⟨0x070, 0, 32⟩
/-- CAP_BASE.BASE. -/
def F.CAP_BASE_BASE : Fld := ⟨0x048, 0, 32⟩
/-- SG_FLT_MASK_LO.FLT_MASK. -/
def F.SG_FLT_MASK_LO_FLT_MASK : Fld := ⟨0x040, 0, 32⟩
/-- SG_FLT_MASK_HI.FLT_MASK. -/
def F.SG_FLT_MASK_HI_FLT_MASK : Fld := ⟨0x044, 0, 32⟩
/-- SG_VT_MASK_LO.VT_MASK. -/
def F.SG_VT_MASK_LO_VT_MASK : Fld := ⟨0x078, 0, 32⟩
/-- SG_VT_MASK_HI.VT_MASK. -/
def F.SG_VT_MASK_HI_VT_MASK : Fld := ⟨0x07C, 0, 32⟩
/-- SG_STAMP.STAMP. -/
def F.SG_STAMP_STAMP : Fld := ⟨0x0B8, 0, 32⟩
/-- ERR_CORR.COUNT. -/
def F.ERR_CORR_COUNT : Fld := ⟨0x060, 0, 32⟩
/-- ERR_UNCORR.COUNT. -/
def F.ERR_UNCORR_COUNT : Fld := ⟨0x064, 0, 32⟩
/-- ERR_DETECT.COUNT. -/
def F.ERR_DETECT_COUNT : Fld := ⟨0x068, 0, 32⟩
/-- ERR_ERASE_FIX.COUNT. -/
def F.ERR_ERASE_FIX_COUNT : Fld := ⟨0x06C, 0, 32⟩
/-- ERR_MISCORR.COUNT. -/
def F.ERR_MISCORR_COUNT : Fld := ⟨0x070, 0, 32⟩
/-- FLT_LEVEL_LO.LEVEL. -/
def F.FLT_LEVEL_LO_LEVEL : Fld := ⟨0x040, 0, 32⟩
/-- FLT_LEVEL_HI.LEVEL. -/
def F.FLT_LEVEL_HI_LEVEL : Fld := ⟨0x044, 0, 32⟩
/-- FLT_SEEN_LO.SEEN. -/
def F.FLT_SEEN_LO_SEEN : Fld := ⟨0x048, 0, 32⟩
/-- FLT_SEEN_HI.SEEN. -/
def F.FLT_SEEN_HI_SEEN : Fld := ⟨0x04C, 0, 32⟩
/-- FLT_DGL_q.DGL. -/
def F.FLT_DGL_DGL : Fld := ⟨0x050, 0, 32⟩
/-- VT_SET_LO.SET. -/
def F.VT_SET_LO_SET : Fld := ⟨0x040, 0, 32⟩
/-- VT_SET_HI.SET. -/
def F.VT_SET_HI_SET : Fld := ⟨0x044, 0, 32⟩
/-- VT_CLR_LO.CLR. -/
def F.VT_CLR_LO_CLR : Fld := ⟨0x048, 0, 32⟩
/-- VT_CLR_HI.CLR. -/
def F.VT_CLR_HI_CLR : Fld := ⟨0x04C, 0, 32⟩
/-- VT_STATE_LO.STATE. -/
def F.VT_STATE_LO_STATE : Fld := ⟨0x050, 0, 32⟩
/-- VT_STATE_HI.STATE. -/
def F.VT_STATE_HI_STATE : Fld := ⟨0x054, 0, 32⟩
/-- VT_AUTO_LO.AUTO. -/
def F.VT_AUTO_LO_AUTO : Fld := ⟨0x058, 0, 32⟩
/-- VT_AUTO_HI.AUTO. -/
def F.VT_AUTO_HI_AUTO : Fld := ⟨0x05C, 0, 32⟩
/-- SH_CLR_MULTI.GROUPS. -/
def F.SH_CLR_MULTI_GROUPS : Fld := ⟨0x060, 0, 24⟩
/-- TT_T1.T. -/
def F.TT_T1_T : Fld := ⟨0x040, 0, 32⟩
/-- TT_T2.T. -/
def F.TT_T2_T : Fld := ⟨0x048, 0, 32⟩
/-- TT_T3.T. -/
def F.TT_T3_T : Fld := ⟨0x050, 0, 32⟩
/-- TT_T4.T. -/
def F.TT_T4_T : Fld := ⟨0x058, 0, 32⟩
/-- TT_DELAY.DELAY. -/
def F.TT_DELAY_DELAY : Fld := ⟨0x060, 0, 32⟩
/-- TT_OFFSET.OFFSET. -/
def F.TT_OFFSET_OFFSET : Fld := ⟨0x064, 0, 32⟩
/-- TT_ASYM.ASYM. -/
def F.TT_ASYM_ASYM : Fld := ⟨0x068, 0, 32⟩
/-- TT_STAT.NODE_LOCKED. -/
def F.TT_STAT_NODE_LOCKED : Fld := ⟨0x06C, 0, 1⟩
/-- TT_STAT.MEAS_VALID. -/
def F.TT_STAT_MEAS_VALID : Fld := ⟨0x06C, 1, 1⟩
/-- TT_CNT.COUNT. -/
def F.TT_CNT_COUNT : Fld := ⟨0x070, 0, 32⟩
/-- TT_MISS.COUNT. -/
def F.TT_MISS_COUNT : Fld := ⟨0x074, 0, 32⟩
/-- TLC_TX_FRAMES.COUNT. -/
def F.TLC_TX_FRAMES_COUNT : Fld := ⟨0x040, 0, 32⟩
/-- TLC_RX_FRAMES.COUNT. -/
def F.TLC_RX_FRAMES_COUNT : Fld := ⟨0x044, 0, 32⟩
/-- TLC_RX_CRC.COUNT. -/
def F.TLC_RX_CRC_COUNT : Fld := ⟨0x048, 0, 32⟩
/-- TLC_RX_CODE.COUNT. -/
def F.TLC_RX_CODE_COUNT : Fld := ⟨0x04C, 0, 32⟩
/-- TLC_RX_GAP.COUNT. -/
def F.TLC_RX_GAP_COUNT : Fld := ⟨0x050, 0, 32⟩
/-- TLC_RX_DUP.COUNT. -/
def F.TLC_RX_DUP_COUNT : Fld := ⟨0x054, 0, 32⟩
/-- TLC_ALIGN_LOSS.COUNT. -/
def F.TLC_ALIGN_LOSS_COUNT : Fld := ⟨0x058, 0, 32⟩
/-- TLC_GC_SENT.COUNT. -/
def F.TLC_GC_SENT_COUNT : Fld := ⟨0x05C, 0, 32⟩
/-- TLC_GC_LATE.COUNT. -/
def F.TLC_GC_LATE_COUNT : Fld := ⟨0x060, 0, 32⟩
/-- TLC_GC_DROP.COUNT. -/
def F.TLC_GC_DROP_COUNT : Fld := ⟨0x064, 0, 32⟩
/-- TLC_GC_FORCED.COUNT. -/
def F.TLC_GC_FORCED_COUNT : Fld := ⟨0x068, 0, 32⟩
/-- TLC_GC_LOST.COUNT. -/
def F.TLC_GC_LOST_COUNT : Fld := ⟨0x06C, 0, 32⟩
/-- TLC_VAL_DROP.COUNT. -/
def F.TLC_VAL_DROP_COUNT : Fld := ⟨0x070, 0, 32⟩
/-- TLC_LAUNCH_DROP.COUNT. -/
def F.TLC_LAUNCH_DROP_COUNT : Fld := ⟨0x074, 0, 32⟩
/-- TLC_DET.COUNT. -/
def F.TLC_DET_COUNT : Fld := ⟨0x078, 0, 32⟩
/-- ETH_GCL_ADM_GATES_i.GATES. -/
def F.ETH_GCL_ADM_GATES_GATES : Fld := ⟨0x800, 0, 8⟩
/-- ETH_GCL_ADM_INTERVAL_i.INTERVAL. -/
def F.ETH_GCL_ADM_INTERVAL_INTERVAL : Fld := ⟨0x804, 0, 32⟩
/-- ETH_GCL_OPR_GATES_i.GATES. -/
def F.ETH_GCL_OPR_GATES_GATES : Fld := ⟨0xC00, 0, 8⟩
/-- ETH_GCL_OPR_INTERVAL_i.INTERVAL. -/
def F.ETH_GCL_OPR_INTERVAL_INTERVAL : Fld := ⟨0xC04, 0, 32⟩
/-- Page header field (01_register_pages.md R19). -/
def F.H_EN : Fld := ⟨0x008, 0, 1⟩
/-- Page header field (01_register_pages.md R19). -/
def F.H_EXPERT : Fld := ⟨0x008, 1, 1⟩
/-- Page header field (01_register_pages.md R19). -/
def F.H_CHECK_REASON : Fld := ⟨0x00C, 0, 16⟩
/-- Page header field (01_register_pages.md R19). -/
def F.H_CHECK_OFS : Fld := ⟨0x00C, 16, 12⟩
/-- Page header field (01_register_pages.md R19). -/
def F.H_BUSY : Fld := ⟨0x010, 29, 1⟩
/-- Page header field (01_register_pages.md R19). -/
def F.H_CHECK_FAIL : Fld := ⟨0x010, 30, 1⟩
/-- Page header field (01_register_pages.md R19). -/
def F.H_ERR_REQ : Fld := ⟨0x01C, 0, 12⟩
/-- Page header field (01_register_pages.md R19). -/
def F.H_ERR_DIR : Fld := ⟨0x01C, 12, 2⟩
/-- Page header field (01_register_pages.md R19). -/
def F.H_ERR_SIZE : Fld := ⟨0x01C, 14, 2⟩
/-- Page header field (01_register_pages.md R19). -/
def F.H_ERR_CAUSE : Fld := ⟨0x01C, 16, 8⟩
/-- Page header field (01_register_pages.md R19). -/
def F.H_ERR_OVERFLOW : Fld := ⟨0x01C, 30, 1⟩
/-- Page header field (01_register_pages.md R19). -/
def F.H_ERR_VALID : Fld := ⟨0x01C, 31, 1⟩
/-- Page header field (01_register_pages.md R19). -/
def F.H_OTYPE : Fld := ⟨0x028, 0, 12⟩
/-- Page header field (01_register_pages.md R19). -/
def F.H_LOCKED : Fld := ⟨0x028, 31, 1⟩

end Sys2Proof.Machine
end

