-- ==== Sys2Proof/Machine/Pages.lean ====
section
/-!
DEFINITION. Sys2Proof/Machine/Pages.lean: the physical address map and the register pages of
01_register_pages.md: which page, memory and power domain an address belongs to, where each page lies, and what every
register holds at reset.
-/
namespace Sys2Proof.Machine

/-- A register page: kind, device-wide instance number, base address, power-domain bit of Table 3-3 (31: PD_AON). -/
structure PageInfo where
  kind : PageKind
  inst : Nat
  base : Nat
  dom : Nat
  deriving DecidableEq, Repr

/-- The bit that stands for PD_AON, which is always on (03_clocks_power_reset.md R59). -/
def domAon : Nat := 31
/-- Power-domain bit of casement c (Table 3-3). -/
def domCas (c : Nat) : Nat := 7 + c
/-- Power-domain bit of wing w. -/
def domWing (w : Nat) : Nat := 5 + w
/-- Power-domain bit of HBM stack s. -/
def domHbm (s : Nat) : Nat := 23 + s
/-- Power-domain bit of analogue half h. -/
def domAna (h : Nat) : Nat := 25 + h
/-- Power-domain bit of link half h. -/
def domLink (h : Nat) : Nat := 27 + h
/-- Power-domain bit of PD_HOSTIO. -/
def domHostio : Nat := 29
/-- Power-domain bit of PD_DBG. -/
def domDbg : Nat := 30

/-- Page bases (Table 1-3). -/
def pgSysid : Nat := 0xE0000000
/-- Clocks page. -/
def pgClk : Nat := 0xE0001000
/-- Power-domain page. -/
def pgPwr : Nat := 0xE0002000
/-- Reset control page. -/
def pgRst : Nat := 0xE0003000
/-- Temperature supervision page. -/
def pgTemp : Nat := 0xE0004000
/-- Lintel page. -/
def pgLintel : Nat := 0xE0005000
/-- Event fabric page. -/
def pgEvf : Nat := 0xE0006000
/-- Page-ownership page. -/
def pgOwn : Nat := 0xE0007000
/-- Fabric error log page. -/
def pgFerr : Nat := 0xE0008000
/-- OTP control page. -/
def pgOtp : Nat := 0xE0009000
/-- PWM generator g of casement c. -/
def pgPwm (c g : Nat) : Nat := 0xE1000000 + c * 0x10000 + g * 0x1000
/-- ADC core j of casement c. -/
def pgAdc (c j : Nat) : Nat := 0xE2000000 + c * 0x10000 + j * 0x1000
/-- Sigma-delta page of casement c. -/
def pgSd (c : Nat) : Nat := 0xE2000000 + c * 0x10000 + 0x4000
/-- Window comparators of ADC core j of casement c. -/
def pgCmp (c j : Nat) : Nat := 0xE2000000 + c * 0x10000 + 0x8000 + j * 0x1000
/-- Timer page p of casement c. -/
def pgTmr (c p : Nat) : Nat := 0xE3000000 + c * 0x10000 + p * 0x1000
/-- Casement watchdog. -/
def pgWdCas (c : Nat) : Nat := 0xE3000000 + c * 0x10000 + 0x8000
/-- Encoder e. -/
def pgEnc (e : Nat) : Nat := 0xE3100000 + e * 0x1000
/-- Core watchdog of core k. -/
def pgWdCore (k : Nat) : Nat := 0xE3110000 + k * 0x1000
/-- Sash n. -/
def pgSash (n : Nat) : Nat := 0xE4000000 + (n / 4) * 0x40000 + (n % 4) * 0x1000
/-- Job queue of casement c. -/
def pgJq (c : Nat) : Nat := 0xE4000000 + c * 0x40000 + 0x4000
/-- Template page t of casement c. -/
def pgTpl (c t : Nat) : Nat := 0xE4000000 + c * 0x40000 + 0x20000 + t * 0x1000
/-- Wing scheduling of wing w. -/
def pgWing (w : Nat) : Nat := 0xE4400000 + w * 0x1000
/-- Launch-table control of casement c. -/
def pgLctl (c : Nat) : Nat := 0xE5000000 + c * 0x10000
/-- Launch-entry page q of casement c. -/
def pgLent (c q : Nat) : Nat := 0xE5000000 + c * 0x10000 + (q + 1) * 0x1000
/-- Link control of TL_l. -/
def pgTlc (l : Nat) : Nat := 0xE6000000 + l * 0x10000
/-- Node binding of TL_l. -/
def pgTlnb (l : Nat) : Nat := 0xE6001000 + l * 0x10000
/-- Time transfer of TL_l. -/
def pgTltt (l : Nat) : Nat := 0xE6002000 + l * 0x10000
/-- Counters of TL_l. -/
def pgTlcnt (l : Nat) : Nat := 0xE6003000 + l * 0x10000
/-- Shutter group g. -/
def pgGroup (g : Nat) : Nat := 0xE7000000 + g * 0x1000
/-- Fault-input sources. -/
def pgFlt : Nat := 0xE7020000
/-- Comparator sources of casement c. -/
def pgCasSrc (c : Nat) : Nat := 0xE7030000 + c * 0x1000
/-- Virtual trips. -/
def pgVt : Nat := 0xE7040000
/-- Peephole monitor of lane 4n + j. -/
def pgMon (n j : Nat) : Nat := 0xE8000000 + n * 0x10000 + j * 0x1000
/-- Injection generator of S_n. -/
def pgInj (n : Nat) : Nat := 0xE8000000 + n * 0x10000 + 0x4000
/-- Capture of S_n. -/
def pgCap (n : Nat) : Nat := 0xE8000000 + n * 0x10000 + 0x5000
/-- HBM controller of HB_s. -/
def pgHbm (s : Nat) : Nat := 0xE9000000 + s * 0x100000
/-- Code regions of HB_s. -/
def pgCode (s : Nat) : Nat := 0xE9001000 + s * 0x100000
/-- Scrub and error log of HB_s. -/
def pgScrub (s : Nat) : Nat := 0xE9002000 + s * 0x100000
/-- Sill streamer of HB_s. -/
def pgSill (s : Nat) : Nat := 0xE9080000 + s * 0x100000
/-- PCIe physical function f. -/
def pgPf (f : Nat) : Nat := 0xEA000000 + f * 0x1000
/-- PCIe DMA. -/
def pgDma : Nat := 0xEA010000
/-- Ethernet port p. -/
def pgEth (p : Nat) : Nat := 0xEA100000 + p * 0x10000
/-- CAN FD controller m. -/
def pgCan (m : Nat) : Nat := 0xEA200000 + m * 0x1000
/-- xSPI page. -/
def pgXspi : Nat := 0xEA300000
/-- I2C-bus page. -/
def pgI2c : Nat := 0xEA400000
/-- Interrupt controller of core k. -/
def pgIntc (k : Nat) : Nat := 0xEB000000 + k * 0x10000
/-- Source page q of core k. -/
def pgIntsrc (k q : Nat) : Nat := 0xEB000000 + k * 0x10000 + (q + 1) * 0x1000
/-- The Vopen control block in debug space (22_vopen_debug_and_trace.md R487). -/
def pgDbg : Nat := 0xF0020000

/-- The page of region 0x0 at 4 KiB slot i (Table 1-3). -/
def page0 (b i : Nat) : Option PageInfo :=
  match i with
  | 0 => some ⟨.sysid, 0, b, domAon⟩
  | 1 => some ⟨.clk, 0, b, domAon⟩
  | 2 => some ⟨.pwr, 0, b, domAon⟩
  | 3 => some ⟨.rst, 0, b, domAon⟩
  | 4 => some ⟨.temp, 0, b, domAon⟩
  | 5 => some ⟨.lintel, 0, b, domAon⟩
  | 6 => some ⟨.evf, 0, b, domAon⟩
  | 7 => some ⟨.own, 0, b, domAon⟩
  | 8 => some ⟨.ferr, 0, b, domAon⟩
  | 9 => some ⟨.otp, 0, b, domAon⟩
  | _ => if 16 ≤ i ∧ i < 20 then some ⟨.fcal, i - 16, b, domAon⟩ else none

/-- The page of region r at 4 KiB slot i (Table 1-3), with its base b. -/
def pageSlot (r b i : Nat) : Option PageInfo :=
  let c := i / 16
  let j := i % 16
  match r with
  | 0 => page0 b i
  | 1 => if c < 16 ∧ j < 6 then some ⟨.pwm, 6 * c + j, b, domCas c⟩ else none
  | 2 =>
    if 16 ≤ c then none
    else if j < 4 then some ⟨.adc, 4 * c + j, b, domAna (c / 8)⟩
    else if j = 4 then some ⟨.sd, c, b, domAna (c / 8)⟩
    else if 8 ≤ j ∧ j < 12 then some ⟨.cmp, 4 * c + (j - 8), b, domAna (c / 8)⟩
    else none
  | 3 =>
    if c < 16 then
      if j < 4 then some ⟨.timer, 4 * c + j, b, domCas c⟩
      else if j = 8 then some ⟨.wd, c, b, domCas c⟩ else none
    else if c = 16 then some ⟨.enc, j, b, domWing (j / 8)⟩
    else if c = 17 ∧ j < 5 then some ⟨.wdc, j, b, domAon⟩
    else none
  | 4 =>
    let k := i / 64
    let m := i % 64
    if k < 16 then
      if m < 4 then some ⟨.sash, 4 * k + m, b, domCas k⟩
      else if m = 4 then some ⟨.jq, k, b, domCas k⟩
      else if 32 ≤ m then some ⟨.tpl, 32 * k + (m - 32), b, domCas k⟩ else none
    else if k = 16 ∧ m < 2 then some ⟨.wing, m, b, domWing m⟩ else none
  | 5 =>
    if 16 ≤ c then none
    else if j = 0 then some ⟨.lctl, c, b, domCas c⟩
    else if j < 5 then some ⟨.lent, 4 * c + (j - 1), b, domCas c⟩ else none
  | 6 =>
    if 32 ≤ c then none
    else match j with
      | 0 => some ⟨.tlc, c, b, domLink (c / 16)⟩
      | 1 => some ⟨.tlnb, c, b, domLink (c / 16)⟩
      | 2 => some ⟨.tltt, c, b, domLink (c / 16)⟩
      | 3 => some ⟨.tlcnt, c, b, domLink (c / 16)⟩
      | _ => none
  | 7 =>
    if i < 24 then some ⟨.group, i, b, domAon⟩
    else if i = 32 then some ⟨.flt, 0, b, domAon⟩
    else if c = 3 then some ⟨.cassrc, j, b, domAon⟩
    else if i = 64 then some ⟨.vt, 0, b, domAon⟩ else none
  | 8 =>
    if 64 ≤ c then none
    else if j < 4 then some ⟨.mon, 4 * c + j, b, domCas (c / 4)⟩
    else if j = 4 then some ⟨.inj, c, b, domCas (c / 4)⟩
    else if j = 5 then some ⟨.cap, c, b, domCas (c / 4)⟩ else none
  | 9 =>
    let s := i / 256
    if 2 ≤ s then none
    else match i % 256 with
      | 0 => some ⟨.hbm, s, b, domHbm s⟩
      | 1 => some ⟨.code, s, b, domHbm s⟩
      | 2 => some ⟨.scrub, s, b, domHbm s⟩
      | 128 => some ⟨.sill, s, b, domHbm s⟩
      | _ => none
  | 10 =>
    if i < 2 then some ⟨.pf, i, b, domHostio⟩
    else if i = 16 then some ⟨.dma, 0, b, domHostio⟩
    else if 256 ≤ i ∧ i < 320 ∧ j = 0 then some ⟨.eth, (i - 256) / 16, b, domHostio⟩
    else if 512 ≤ i ∧ i < 520 then some ⟨.can, i - 512, b, domHostio⟩
    else if i = 768 then some ⟨.xspi, 0, b, domHostio⟩
    else if i = 1024 then some ⟨.i2c, 0, b, domHostio⟩ else none
  | 11 =>
    if 5 ≤ c then none
    else if j = 0 then some ⟨.intc, c, b, c⟩
    else if j < 5 then some ⟨.intsrc, 4 * c + (j - 1), b, c⟩ else none
  | _ => none

/-- The register page that holds an address, if any (R17, R18). -/
def pageAt (a : Nat) : Option PageInfo :=
  if 0xE0000000 ≤ a ∧ a < 0xF0000000 then
    pageSlot ((a - 0xE0000000) / 0x1000000) (a / 0x1000 * 0x1000) ((a % 0x1000000) / 0x1000)
  else none

/-- KIND of PAGE_ID (Table 1-3). -/
def PageKind.idCode : PageKind → Nat
  | .sysid => 0x0001 | .clk => 0x0002 | .pwr => 0x0003 | .rst => 0x0004 | .temp => 0x0005
  | .lintel => 0x0006 | .evf => 0x0007 | .own => 0x0008 | .ferr => 0x0009 | .otp => 0x000A | .fcal => 0x000B
  | .pwm => 0x0101 | .adc => 0x0201 | .sd => 0x0202 | .cmp => 0x0203
  | .timer => 0x0301 | .wd => 0x0302 | .enc => 0x0303 | .wdc => 0x0304
  | .sash => 0x0401 | .jq => 0x0402 | .tpl => 0x0403 | .wing => 0x0404
  | .lctl => 0x0501 | .lent => 0x0502
  | .tlc => 0x0601 | .tlnb => 0x0602 | .tltt => 0x0603 | .tlcnt => 0x0604
  | .group => 0x0701 | .flt => 0x0702 | .cassrc => 0x0703 | .vt => 0x0704
  | .mon => 0x0801 | .inj => 0x0802 | .cap => 0x0803
  | .hbm => 0x0901 | .code => 0x0902 | .scrub => 0x0903 | .sill => 0x0904
  | .pf => 0x0A01 | .dma => 0x0A02 | .eth => 0x0A03 | .can => 0x0A04 | .xspi => 0x0A05 | .i2c => 0x0A06
  | .intc => 0x0B01 | .intsrc => 0x0B02
  | .dbg => 0

/-- Pages whose ownership is locked after every reset: the Shutter pages and all watchdog pages (R35). -/
def PageKind.locked : PageKind → Bool
  | .group | .flt | .cassrc | .vt | .wd | .wdc => true
  | _ => false

/-- The block registers of a page; the core watchdogs have the registers of Table 13-6 too. [DEDUCED (log 12)] -/
def regsAt : PageKind → List RWord
  | .wdc => regs_wd
  | k => regsOf k

/-- The register word that covers an offset of a page. [DEDUCED (log 12)] -/
def findWord (k : PageKind) (o : Nat) : Option RWord := (regsAt k).find? (·.covers o)

/-- The value the fields of a word give it at reset. [DESIGN CHOICE (log 8)] -/
def RWord.resetValue (r : RWord) : Nat :=
  r.fields.foldl (fun a f => a + (f.reset % 2 ^ f.width) * 2 ^ f.lsb) 0

/-- Reset value of a register word of a page (Tables 1-5 to 1-10 for the header; the block tables otherwise).
The rows whose reset value depends on the instance: CMP_DAC_k (Table 11-2), CR_START_r (Table 20-7), LS_CHK_BASE (Table 19-4),
STATUS.HELD (Table 17-12), OWNER.LOCKED (R35). -/
def pageReset (p : PageInfo) (o : Nat) : W32 :=
  if o = 0 then BitVec.ofNat 32 (p.kind.idCode * 0x10000 + p.inst)
  else if o = 4 then 0x00100100
  else if o = 0x28 then (if p.kind.locked then 0x80000001 else 0x00000001)
  else if o = 0x10 ∧ p.kind = .intc then (if p.inst < 4 then 1 else 0)
  else match findWord p.kind o with
    | none => 0
    | some r =>
      if p.kind = .cmp ∧ r.ofs = 0x44 then (if ((o - 0x44) / 8) % 2 = 0 then 0xFFF else 0)
      else if p.kind = .code ∧ r.ofs = 0x44 then BitVec.ofNat 32 (4096 * ((o - 0x40) / 4))
      else if p.kind = .intc ∧ o = 0x108 then BitVec.ofNat 32 (0x11FFB000 + p.inst * 0x1000)
      else BitVec.ofNat 32 r.resetValue

/-- Reset value of the register word at a physical address. [DESIGN CHOICE (log 8)] -/
def regReset (a : Nat) : W32 :=
  match pageAt a with
  | some p => pageReset p (a % 0x1000)
  | none =>
    if a / 0x1000 * 0x1000 = pgDbg then
      match findWord .dbg (a % 0x1000) with
      | some r => BitVec.ofNat 32 r.resetValue
      | none => 0
    else 0

/-- What lies at a physical address that is no register page (Table 1-1). -/
inductive MemKind where
  | rom | coreSram | wing | scratch | sash | debug | hbm
  deriving DecidableEq, Repr

/-- The memory at an address with its power-domain bit; `none` where Table 1-1 has nothing or register pages. [DESIGN CHOICE (log 9)] -/
def memAt (a : Nat) : Option (MemKind × Nat) :=
  if a < 0x20000 then some (.rom, domAon)
  else if 0x10000000 ≤ a ∧ a < 0x12000000 then some (.coreSram, 4)
  else if 0x20000000 ≤ a ∧ a < 0x21000000 then some (.wing, domWing ((a - 0x20000000) / 0x800000))
  else if 0x30000000 ≤ a ∧ a < 0x30800000 then some (.scratch, domCas ((a - 0x30000000) / 0x80000))
  else if 0x40000000 ≤ a ∧ a < 0x44000000 then some (.sash, domCas ((a - 0x40000000) / 0x400000))
  else if 0xF0000000 ≤ a ∧ a < 0xF1000000 then some (.debug, domDbg)
  else if 0x1000000000 ≤ a ∧ a < 0x1800000000 then some (.hbm, domHbm ((a - 0x1000000000) / 0x400000000))
  else none

end Sys2Proof.Machine
end

