-- ==== Sys2Proof/Machine/Table.lean ====
section
/-!
DEFINITION. Sys2Proof/Machine/Table.lean: sparse storage in one canonical form.

A table lists (key, value) pairs with keys strictly rising and no pair equal to what an unlisted key reads as,
so that equal contents are equal data. Memory, the page registers and the per-instance state of the
device are tables.
-/
namespace Sys2Proof.Machine

/-- A sparse table; a list of cells of memory is a table of bytes. -/
abbrev Table (α : Type) := List (Nat × α)

/-- What a table holds at a key, `d` where nothing is listed. -/
def Table.get {α : Type} (d : α) : Table α → Nat → α
  | [], _ => d
  | (k, v) :: r, i => if k = i then v else Table.get d r i

/-- The table without a key. -/
def Table.drop {α : Type} : Table α → Nat → Table α
  | [], _ => []
  | (k, v) :: r, i => if k = i then Table.drop r i else (k, v) :: Table.drop r i

/-- The table with one more pair, before the first higher key. -/
def Table.place {α : Type} : Table α → Nat → α → Table α
  | [], i, x => [(i, x)]
  | (k, v) :: r, i, x => if i < k then (i, x) :: (k, v) :: r else (k, v) :: Table.place r i x

/-- Writes a key whose unlisted value is `d`; writing `d` removes the entry. -/
def Table.put {α : Type} [DecidableEq α] (d : α) (t : Table α) (i : Nat) (x : α) : Table α :=
  if x = d then Table.drop t i else Table.place (Table.drop t i) i x

/-- All keys of a table lie above a bound, rise strictly, and no entry equals its unlisted value. -/
def Table.wfFrom {α : Type} [DecidableEq α] (d : Nat → α) : Nat → Table α → Bool
  | _, [] => true
  | lo, (k, v) :: r => decide (lo ≤ k) && decide (v ≠ d k) && Table.wfFrom d (k + 1) r

/-- The canonical form of a table whose unlisted values are `d`. -/
def Table.wf {α : Type} [DecidableEq α] (d : Nat → α) (t : Table α) : Bool := Table.wfFrom d 0 t

/-- The entries whose key satisfies a test. -/
def Table.keep {α : Type} (p : Nat → Bool) (t : Table α) : Table α := t.filter (fun e => p e.1)

/-- Every listed value updated; one that becomes its unlisted value is dropped. -/
def Table.upd {α : Type} [DecidableEq α] (d : α) (f : Nat → α → α) (t : Table α) : Table α :=
  (t.map (fun e => (e.1, f e.1 e.2))).filter (fun e => decide (e.2 ≠ d))

end Sys2Proof.Machine
end

