-- ==== Sys2Proof/Machine/Types.lean ====
section
/-!
DEFINITION. Sys2Proof/Machine/Types.lean: the state of the device's parts, as plain data.
-/
namespace Sys2Proof.Machine

/-- OWN_PAGE, OWN_TYPE and OWN_STAT as one requester sees them (01_register_pages.md R36). -/
structure OwnStage where
  pageLo : W32 := 0
  pageHi : W32 := 0
  type : W32 := 0
  stat : W32 := 0
  deriving DecidableEq, Repr

/-- A reset in progress (03_clocks_power_reset.md R69, R70). -/
inductive ResetKind where
  | none | warm | powerOn
  deriving DecidableEq, Repr

/-- Lintel time (04_time_base_and_launch.md R85-R91) and the clock tree's tick index (03 R56). -/
structure TimeSt where
  count : W64 := 0
  tick : Nat := 0
  hiLatch : Table W32 := []
  stepPending : Option W64 := none
  deriving DecidableEq, Repr

/-- System state without registers: resets, pins, standby, temperature (02, 03), and a Vopen halt (22). `romWaiting`: the boot ROM
waits for a doorbell, `xspiLeft`: it tries xSPI after one; `pwrBatch` the number of the PWR_REQ write that a transition belongs
to, plus one, `pwrNo` that of the latest write (R60, R61). `drain` is the request being drained, as source,
core and breakpoint; `step` the core whose single step is granted and
`stepResult` the outcome of the latest step (22 Table 22-6). `resetReq`: a warm reset a block has asked for
in this command, as its RST_CAUSE bit and its core or casement. `pllWake`: the root PLL restarts after
standby, so that its checks stay suspended (R58). `vddAon`, `vddIo33`: the supply is there (02 R44, R47). -/
structure SysSt where
  reset : ResetKind := .powerOn
  relockWait : Bool := false
  overtempHold : Bool := false
  porstLow : Bool := false
  wrstLow : Bool := false
  rstoutHigh : Bool := false
  standby : Bool := false
  clkHeld : Bool := false
  pllWake : Bool := false
  halted : Bool := false
  drain : Option (Nat × Nat × Nat) := none
  step : Option Nat := none
  stepResult : Nat := 0
  cmpOnly : Table Bool := []
  tsArmed : Bool := true
  romWaiting : Bool := false
  xspiLeft : Bool := false
  pwrBatch : Table Nat := []
  pwrNo : Nat := 0
  resetReq : Option (Nat × Nat) := none
  vddAon : Bool := true
  vddIo33 : Bool := true
  deriving DecidableEq, Repr

/-- The OTP fuses, or their shadow (03 R79, R83): `keyHash` holds word w of slot n at 12n + w, `keyCut` the slots
whose programming was interrupted (R84), `fcal` the words of the factory image. -/
structure Otp where
  rollback : Nat := 0
  revoked : BitVec 4 := 0
  bootOrder : BitVec 2 := 0
  xspiFast : Bool := false
  dbgCut : BitVec 2 := 0
  keyHash : Table W32 := []
  keyCut : BitVec 4 := 0
  fcal : Table W32 := []
  dbgKey : Table W32 := []
  vendorId : BitVec 16 := 0
  mfrId : BitVec 11 := 0
  deriving DecidableEq, Repr

/-- A fuse command accepted and not yet complete (R84). -/
inductive OtpCmd where
  | rollbackAdv
  | revoke (slot : Nat)
  | field (sel : Nat) (data : List W32)
  deriving DecidableEq, Repr

/-- A launch entry's anchor: the tick and the count of the latest arming write (04 R95, R97). -/
structure Anchor where
  tick : Nat := 0
  count : Nat := 0
  deriving DecidableEq, Repr

/-- A value on its way to the inbound registers bound to its source (05 Table 5-4, R125, R126). `place` is the casement, or the
wing for an encoder; `due` the tick it arrives, and `retried` says that its flit was sent again (R137). -/
structure Delivery where
  place : Nat
  cls : Nat
  idx : Nat
  val : Nat
  stamp : Nat
  due : Nat
  retried : Bool := false
  deriving DecidableEq, Repr

/-- A window comparator's raw output, the changes of it on their way through the synchronizer, each with the tick that shows it (11
R248), its majority filter with the tick of its next sample, and the synchronizer and filter of the fast comparator routed in its
place (12 R277). -/
structure Cmp where
  raw : Bool := false
  edges : List (Nat × Bool) := []
  window : List Bool := []
  sampleAt : Nat := 0
  fastEdges : List (Nat × Bool) := []
  fastSync : Bool := false
  fastWin : List Bool := []
  fastFilt : Bool := false
  deriving DecidableEq, Repr

/-- What a Shutter group holds beside its registers: a latch set whose record is still to come (11 R255), with the tick in which the
synchronized latch first reads 1, whether the clocks stood still at that set, and whether SP_FAILED was its cause (R260). -/
structure Group where
  recording : Bool := false
  due : Nat := 0
  clockless : Bool := false
  spFail : Bool := false
  deriving DecidableEq, Repr

/-- User calibration as it stood before a write (03 R81). -/
structure CalLog where
  tick : Nat
  gain : Nat
  ofs : Nat
  deriving DecidableEq, Repr

/-- An ADC conversion between its first hold and its strobe (12 R267, R269). -/
structure AdcConv where
  input : Nat
  stamp : Nat
  lastHold : Nat
  holdsLeft : Nat
  avg : Nat
  sum : Int
  deriving DecidableEq, Repr

/-- An ADC core without its registers (12 R266-R269). `start` is the tick and priority of the latest start, `before` the scan pointer and
tracked input before it, `short`: it set ACQ_SHORT. -/
structure Adc where
  convs : List AdcConv := []
  freeAt : Nat := 0
  ptr : Nat := 0
  tracked : Nat := 0
  presc0 : Nat := 0
  presc1 : Nat := 0
  start : Option (Nat × Nat) := none
  before : Nat × Nat := (0, 0)
  short : Bool := false
  overTick : Option Nat := none
  calLog : Table (List CalLog) := []
  deriving DecidableEq, Repr

/-- A sigma-delta input without its registers (12 R273-R276): its latest samples, the latest first, and how many it has had; `next` is the
number of the sample that ends the word in progress. -/
structure SdIn where
  skip : Nat := 2
  stuckVal : Bool := false
  bits : List Bool := []
  got : Nat := 0
  next : Nat := 0
  calLog : List CalLog := []
  deriving DecidableEq, Repr

/-- A modulator clock: the tick of its first rising edge, once that is known, and whether it has come (12 R272). -/
structure SdClk where
  first : Option Nat := none
  running : Bool := false
  deriving DecidableEq, Repr

/-- A ball read through a two-tick synchronizer: its level, the changes on their way, each with the tick that shows it, and what shows. -/
structure BallIn where
  raw : Bool := false
  edges : List (Nat × Bool) := []
  sync : Bool := false
  deriving DecidableEq, Repr

/-- A timer channel without its registers (13 R280-R285): the tick after its latest arming, the level it drives, and its capture filter: the
tick of the next sample and the samples in a row that differ from the filtered level. -/
structure Tmr where
  armTick : Nat := 0
  drv : Bool := false
  presc : Nat := 0
  sampleAt : Nat := 0
  run : Nat := 0
  deriving DecidableEq, Repr

/-- An encoder's filtered levels and its latest counting edge (13 R287, R288), its balls with their filters (R284, R287), and a preset that
waits for the end of its tick (R289). -/
structure Enc where
  ballA : BallIn := {}
  ballB : BallIn := {}
  ballI : BallIn := {}
  runA : Nat := 0
  runB : Nat := 0
  runI : Nat := 0
  sampleAt : Nat := 0
  preset : Option Nat := none
  a : Bool := false
  b : Bool := false
  i : Bool := false
  edge : Option Nat := none
  idxSeen : Bool := false
  deriving DecidableEq, Repr

/-- A write that entered a shadow register, is held out of it, or is on its way to activation (10 R229, R231). `reg`: 0 set compare,
1 clear compare, 2 period; `due` the tick of its activation, or that of its landing; `old` what the shadow held before. -/
structure PwmWrite where
  reg : Nat
  val : Nat
  due : Nat
  old : Nat := 0
  deriving DecidableEq, Repr

/-- A change on its way from a generator's dead-time logic to its pads (10 R225, R227): the output (0 PWMH, 1 PWML, 2 the release of
both, off), whether it turns on, and when it leaves the ball, in units of 1/256 tick (0.651 ps). -/
structure PadEdge where
  out : Nat
  on : Bool
  pos : Nat
  deriving DecidableEq, Repr

/-- A PWM generator without its registers (10 R219-R240). `wrapDue`: the counter stood at PERIOD_ACT in the tick before, and
its reload is due. `dead`: the output (0 PWMH, 1 PWML) that is to turn on, and the position in steps at which it will.
`force`: the landing tick of a REF_FORCE not yet in effect, with the one it replaces. `seen`: key 0, 1 the last tick of a set or clear
match, 2 of a period event, each plus one; key 3, 4 the tick from which the active set or clear compare takes part. `catchUp`: passed
values whose edge is due, as (compare, tick, step). `entered` are the writes that entered a shadow in their tick; `slip` the tick of a
sync load that changed the count. `pipe` is the output pipeline, and `freed`, `outH`, `outL` what has left it: whether the outputs are
released, and which is on. -/
structure Pwm where
  held : List PwmWrite := []
  pend : List PwmWrite := []
  entered : List PwmWrite := []
  slip : Option Nat := none
  pipe : List PadEdge := []
  freed : Bool := false
  outH : Bool := false
  outL : Bool := false
  reloadTick : Option Nat := none
  startDue : Option Nat := none
  wrapDue : Bool := false
  syncDue : List Nat := []
  released : Bool := false
  clearTick : Option Nat := none
  dead : Option (Nat × Nat) := none
  lastZero : Option Nat := none
  force : Option (Nat × Nat) := none
  seen : Table Nat := []
  catchUp : List (Nat × Nat × Nat) := []
  deriving DecidableEq, Repr

/-- The answer to the latest access: an error response with its cause, or the data a read returned (01 R32). The
spec keeps no such register; the model holds it so that what a read returns can be stated. -/
structure Resp where
  error : Option Nat := none
  data : Nat := 0
  poison : Bool := false
  deriving DecidableEq, Repr

/-- Where a unit result goes (06 Tables 6-2 to 6-6). -/
inductive Dest where
  | none
  | v (r : Nat)
  | pair (r : Nat)
  | lim (r : Nat) (sat dir : Bool)
  | acc (k : Nat)
  | p (k : Nat)
  | pred
  deriving DecidableEq, Repr

/-- The units of a lane, in the order of precedence of 06 R147, highest first; `inc` is the pointer written by MEM_INC. -/
inductive LaneUnit where
  | add | lim | mem | integ | mac1 | mac0 | tbl | trig | rcp | inc
  deriving DecidableEq, Repr

/-- A result in flight (05 R132, 06 R145). `issue` is in sash cycles, `tick` in ticks; `due` is the first cycle that reads it;
`mute` says that its write is suppressed (06 R150) and `bad` that it mismatched and awaits its replay. `res` is the residue that the
independent path computed for it. -/
structure InFlight where
  word : Nat
  lane : Nat
  unit : LaneUnit
  dest : Dest
  val : Nat
  val2 : Nat := 0
  sat : Bool := false
  nan : Bool := false
  checked : Bool
  mute : Bool
  issue : Nat
  due : Nat
  tick : Nat
  bad : Bool := false
  res : BitVec 3 := 0
  deriving DecidableEq, Repr

/-- A store a word defers to its end: lane, memory address, value; and whether it presents an expert residual (09 R207). -/
structure Deferred where
  lane : Nat
  addr : Nat
  val : Nat
  residual : Bool
  deriving DecidableEq, Repr

/-- A word that has issued and not ended (05 R122). -/
structure WordRec where
  id : Nat
  addr : Nat
  rom : Bool
  bank : Bool
  issue : Nat
  stores : List Deferred := []
  slot : Nat := 0
  commits : List (Nat × Nat) := []
  replayed : Bool := false
  deriving DecidableEq, Repr

/-- A job with the copy of its descriptor (08 R185, R188). `entered` is the tick in which it entered its queue. -/
structure Job where
  id : Nat
  home : Nat
  desc : Nat
  words : List W32
  deadline : Option Nat
  post : Nat
  entered : Nat
  fallback : Bool
  deriving DecidableEq, Repr

/-- What a sash's running job does: issue words, wait, or wait for its write-back (06 R155, R156; 07 R171; 08 R195). -/
inductive Phase where
  | run
  | waiting (wc timeout issue tgt : Nat)
  | waking (at_ : Nat)
  | ended
  | writeBack
  deriving DecidableEq, Repr

/-- A running job. `lanes` is its lane mask (07 R169), `tpl` its template page, `law` the ROM template it runs, `step` the words of it
that have issued, `pair` the commits it sends (R174). `dropped`: a commit met the deadline and was not sent (04 R103); `missed`: the job
missed its deadline in this tick, at whose end it is gone (05 R138). `cap` is what its capture record would hold (09 R214). -/
structure Running where
  job : Job
  lanes : Nat
  entry : Nat
  tpl : Option Nat
  law : Option Nat
  stolen : Bool
  start : Option Nat := none
  phase : Phase := .run
  commits : Nat := 0
  kept : List Nat := []
  lawOut : List (Nat × Nat × Nat) := []
  committed : Table Nat := []
  step : Nat := 0
  pair : Bool := true
  dropped : Bool := false
  missed : Bool := false
  cap : Nat × List Nat := (0, [])
  deriving DecidableEq, Repr

/-- A replay freeze: the sash cycle in which it began, its length, the replayed word. -/
structure Freeze where
  since : Nat
  len : Nat
  word : Nat
  tick : Nat
  deriving DecidableEq, Repr

/-- A sash without its registers (05, 06). `lost` is the number of frozen cycles so far. `evWas` is the latch mark of an event whose EVSEL
was written, with the cycle of that write plus one (06 R157); `swapAt` the first cycle in which a requested swap can be made (R164). -/
structure Sash where
  job : Option Running := none
  pc : Nat := 0
  stack : List Nat := []
  lc0 : Nat := 0
  lc1 : Nat := 0
  tw : Table W64 := []
  lastIssue : Option Nat := none
  words : List WordRec := []
  ops : List InFlight := []
  freeze : Option Freeze := none
  lost : Nat := 0
  nextWord : Nat := 0
  aborts : Nat := 0
  injTick : Nat := 0
  lenA : Nat := 0
  lenB : Nat := 0
  check : Option (Nat × Nat × Nat) := none
  evMark : Table Nat := []
  tlMark : Table Nat := []
  sibMark : Table Nat := []
  sill : Table Bool := []
  evWas : Table (Nat × Nat) := []
  swapAt : Nat := 0
  deriving DecidableEq, Repr

/-- A lane's registers (05 R112); V, ACC, P, T and the input floors of 06 R154 by number. `res` holds the residue of each register beside its
value: V_r at r, ACC_k at 32 + k, P_k at 48 + k, T_k at 52 + k, PRED at 60, SAT_LIM, SAT_DIR, SAT_ARITH and FPNAN from 61 on. -/
structure Lane where
  v : Table W32 := []
  acc : Table W64 := []
  p : Table (BitVec 16) := []
  t : Table W64 := []
  floor : Table Nat := []
  pred : Bool := false
  satLim : Bool := false
  satDir : Bool := false
  satArith : Bool := false
  fpnan : Bool := false
  res : Table (BitVec 3) := []
  deriving DecidableEq, Repr

/-- One lane's share of a commit flit on its way (05 R127): its target in the home casement. -/
structure Share where
  kind : Nat
  index : Nat
  val : Nat
  deriving DecidableEq, Repr

/-- A commit flit on the commit bus, or held at its targets for a fence (05 R127, 04 R94). `since` is the tick in which a held
flit reached its hold, `left` the cycle in which a flit left its sash, `stolen`: it comes over the wing crossbar. -/
structure Flit where
  job : Nat
  sash : Nat
  cas : Nat
  fence : Option Nat
  lane : Nat
  word : Nat
  shares : List Share
  due : Nat
  retried : Bool := false
  since : Option Nat := none
  left : Nat := 0
  stolen : Bool := false
  deriving DecidableEq, Repr

/-- A failure whose fallback is to be posted (08 R199). -/
structure Fallback where
  job : Job
  sash : Nat
  tick : Nat
  deriving DecidableEq, Repr

/-- A window record of a monitor (09 R208). -/
structure Window where
  lo : Nat
  hi : Nat
  samples : Nat := 0
  viol : Nat := 0
  trig : Bool := false
  final : Bool := false
  deriving DecidableEq, Repr

/-- A monitor without its registers (09 R204-R209). `arrived`: measured values with their stamps that have reached it;
`judges`: residuals with prediction, stamp and judgement tick; `steps`: state values with the tick they take effect; `vtrips`: virtual trips
on their way to the Shutter matrix, each with its tick. -/
structure Mon where
  w0 : W32 := 0
  w1 : W32 := 0
  arrived : List (Nat × Nat) := []
  lastStep : Option Nat := none
  judges : List (Nat × Nat × Nat × Nat) := []
  steps : List (Nat × List Nat) := []
  stepKept : List Nat := []
  cur : Option Window := none
  prev : Option Window := none
  vtrips : List (Nat × Nat) := []
  deriving DecidableEq, Repr

/-- A test-signal generator without its registers (09 R212). `next` is the count of its next update; `off`: EN was cleared in this tick,
and g becomes zero in the next (R213). -/
structure Inj where
  off : Bool := false
  next : Option Nat := none
  k : Nat := 0
  phi : Nat := 0
  inc : Nat := 0
  prbs : Nat := 0
  held : Nat := 0
  history : List (Nat × Nat) := []
  deriving DecidableEq, Repr

/-- A capture unit without its registers (09 R214-R216). -/
structure Cap where
  buffer : List (List Byte) := []
  dec : Nat := 0
  post : Option Nat := none
  trigSince : Bool := false
  trigSeq : Bool := false
  deriving DecidableEq, Repr

/-- A gate command that has landed and waits for its frame (14 R312, R313): channel, level, offset in steps, and its base in
steps (none: EARLIEST). -/
structure GateCmd where
  ch : Nat
  level : Bool
  ofs : Nat
  base : Option Nat
  tick : Nat
  deriving DecidableEq, Repr

/-- A Threshold link without its registers (14). `frameEnd` is the tick in which the frame in progress ends; pending frames hold
the tick in which they became pending; `copy` is the second copy of a GATE frame; `line` the latest frame sent, without its SOF and
EOF; `reqs` the pending TIME_REQs, with whether a launch asked for them; `gateSeqs` the SEQs that went out as GATE; `outstanding` the TIME_REQs without an answer, as (number, t1, tick of the miss);
`status` the SEQ and gaps of the latest STATUS. -/
structure Tl where
  frameEnd : Nat := 0
  urgent : Option Nat := none
  sync : Option Nat := none
  gates : List GateCmd := []
  copy : Option (List Byte) := none
  reqs : List (Nat × Bool) := []
  bindAt : Option Nat := none
  unbindAt : Option (Nat × Nat) := none
  samples : List (Nat × Nat) := []
  users : List (Nat × List Byte) := []
  txSeq : Nat := 0
  rxSeq : Option Nat := none
  gateSeqs : Table Bool := []
  line : List Byte := []
  slotNo : Nat := 0
  heard : Bool := false
  silent : Nat := 0
  outstanding : List (Nat × Nat × Nat) := []
  bindDue : Nat := 0
  heldId : Nat := 0
  rebind : Bool := false
  annTick : Nat := 0
  resumeDue : Nat := 0
  mask : Nat := 0
  safe : Nat := 0
  status : Option (Nat × Nat) := none
  deriving DecidableEq, Repr

/-- A capability (17 R371, Table 17-1) with its tag. -/
structure Capability where
  addr : W64 := 0
  perms : BitVec 16 := 0
  otype : BitVec 12 := 0
  sealing : BitVec 2 := 0
  xp : BitVec 6 := 0
  bm : BitVec 14 := 0
  lm : BitVec 14 := 0
  tag : Bool := false
  deriving DecidableEq, Repr

/-- A save set (17 Table 17-5). -/
structure SaveSet where
  pc : W64 := 0
  st : W64 := 0
  a : W64 := 0
  x : W64 := 0
  y : W64 := 0
  cause : W64 := 0
  faddr : W64 := 0
  pcc : Capability := {}
  ddc : Capability := {}
  deriving DecidableEq, Repr

/-- What a checkpoint records of a logical core (15 Table 15-1, 17 Table 17-5, 18 Table 18-1, 19 R414). `arithPend`: an arithmetic
exception is pending. -/
structure Arch where
  a : W64 := 0
  x : W64 := 0
  y : W64 := 0
  st : W64 := 0
  dsp : W64 := 0
  dspLim : W64 := 0
  rsp : W64 := 0
  rspLim : W64 := 0
  cq : Table W64 := []
  arithPc : W64 := 0
  arithCause : W64 := 0
  arithPend : Bool := false
  doorAttr : BitVec 16 := 0
  occ : BitVec 8 := 0
  spill : BitVec 8 := 0
  depth : BitVec 16 := 0
  xlate : W64 := 0
  tlbl : Table W64 := []
  pcc : Capability := {}
  ddc : Capability := {}
  caps : Table Capability := []
  trapBase : Capability := {}
  ttb : Capability := {}
  doors : Table Capability := []
  links : List (Capability × Capability) := []
  sets : Table SaveSet := []
  deriving DecidableEq, Repr

/-- A coprocessor operation whose result is not yet the value of its CQ register everywhere (15 R345, R346). `dist` counts the
instructions retired since; `dead`: a later result of the same CQ already stands. -/
structure CpOp where
  cq : Nat
  val : W64
  lat : Nat
  dist : Nat
  landed : Bool
  dead : Bool
  deriving DecidableEq, Repr

/-- A TLB entry (18 R404, R407). `slot`: the lock slot that holds it. -/
structure TlbEntry where
  asid : Nat
  glob : Bool
  big : Bool
  vpn : Nat
  ppn : Nat
  w : Bool
  x : Bool
  slot : Option Nat
  deriving DecidableEq, Repr

/-- A journal entry (19 R417): the line's bytes, tags and poison before the first store, and the bytes the pair wrote since. -/
structure JEntry where
  line : Nat
  old : List Byte
  tags : List Bool
  pois : List Bool
  mask : Nat
  deriving DecidableEq, Repr

/-- A record a rollback restores (19 R414, R420), with the coprocessor results still due and, for a remote DOOR, its wait. -/
structure CoreRec where
  arch : Arch
  cps : List CpOp
  doorWait : Option Nat
  deriving DecidableEq, Repr

/-- A logical core (15, 17-19) and what its debug window holds (22). `taken` are the pulse events and door requests whose interrupts
it took since its record; `since` counts the instructions retired since an arithmetic exception became pending; `commit`: the
instruction in progress is a commit point; `reply`: what a remote DOOR's reply brought while the pair recovered; `lsKeep`: LS_CTRL and LS_INTERVAL
as they count until the next checkpoint, after a write during a recovery (19 R427). -/
structure Core where
  arch : Arch := {}
  running : Bool := false
  resv : Option Nat := none
  cps : List CpOp := []
  tlb : List TlbEntry := []
  journal : List JEntry := []
  record : Option CoreRec := none
  chkBase : Option Nat := none
  chkTick : Nat := 0
  repeats : Nat := 0
  detRepeat : Bool := false
  rbTick : Nat := 0
  commit : Bool := false
  since : Nat := 0
  wfi : Bool := false
  doorWait : Option Nat := none
  reply : Option W64 := none
  taken : List Nat := []
  intMark : Table Nat := []
  bps : Table W64 := []
  maskInt : Bool := true
  bpSkip : Bool := false
  lsKeep : Option (W32 × W32) := none
  deriving DecidableEq, Repr

/-- A remote-door slot of SP (17 R384, R385). -/
structure DoorReq where
  type : W64 := 0
  a : W64 := 0
  x : W64 := 0
  y : W64 := 0
  taken : Bool := false
  deriving DecidableEq, Repr

/-- A merge-buffer entry (20 R437): its page, whether it is complete and dirty, the mask of the bytes written while dirty, and the tick of its last
write. The list of a stack's entries runs from the least to the most recently used. -/
structure MbEntry where
  page : Nat
  complete : Bool
  dirty : Bool
  mask : Nat
  last : Nat
  deriving DecidableEq, Repr

/-- A transfer of a Sill streamer (20 R445). `mark` is the number of pulses of its event when it was queued, in tick `tick`. -/
structure Transfer where
  num : Nat
  words : List W32
  mark : Nat
  tick : Nat
  running : Bool
  copied : Nat
  deriving DecidableEq, Repr

/-- An HBM stack with its streamer, without their registers (20). `scrubs`: range scrubs in progress as (first page, pages); `final`: the
last 256 transfers that ended, as (number, 2 complete, 3 ended in error or 4 cancelled, lines remaining); `last`: the latest transfer
number, once there has been one. -/
structure Hbm where
  valid : Table Bool := []
  mb : List MbEntry := []
  scrubs : List (Nat × Nat) := []
  last : Option Nat := none
  queue : List Transfer := []
  final : List (Nat × Nat × Nat) := []
  deriving DecidableEq, Repr

/-- A PCIe physical function's configuration space and MSI-X table (21 R453, R456, R457): D3hot, MSI-X Enable, Function Mask; the table's
words at 4v + word, the pending bits, what each vector has seen of its event, and the latest message sent (address, data). -/
structure Pf where
  msixEn : Bool := false
  msixMask : Bool := false
  table : Table W32 := []
  pba : BitVec 32 := 0
  due : BitVec 32 := 0
  mark : Table Nat := []
  seen : BitVec 32 := 0
  sent : Option (Nat × Nat) := none
  deriving DecidableEq, Repr

/-- A DMA channel's descriptor in progress (21 R458): its words; `abort`: its function was reset (R456); `stop`: CH_EN was cleared
(R459). -/
structure Dma where
  words : List W32 := []
  abort : Bool := false
  stop : Bool := false
  deriving DecidableEq, Repr

/-- A gate-control list with its times (21 R462): base, cycle, and per entry its gates and interval. -/
structure GateList where
  base : Nat
  cycle : Nat
  entries : List (Nat × Nat)
  deriving DecidableEq, Repr

/-- A frame in transmission (21 R460, R464): queue, descriptor words, frame bytes, whether its data carried poison, whether its reads met an error, the tick
in which the end of its SFD leaves, the tick at which it ends, and its stamp. -/
structure EthTx where
  q : Nat
  words : List W32
  frame : List Byte
  poison : Bool
  bus : Bool
  sfd : Nat
  ends : Nat
  stamp : Nat := 0
  deriving DecidableEq, Repr

/-- An Ethernet port without its registers (21 R460-R465): the stamp FIFO as (stamp, information word), the frame in transmission, the
lists, the MDIO frame's command, and each shaper's credit in units of a bit / 6,000,000, as of tick `credAt`. -/
structure Eth where
  fifo : List (Nat × Nat) := []
  tx : Option EthTx := none
  oper : Option GateList := none
  pend : Option (GateList × Nat) := none
  mdio : Option Nat := none
  credit : Table Int := []
  credAt : Nat := 0
  deriving DecidableEq, Repr

/-- A CAN FD controller without its registers (21 R467, R468): the buffer whose frame is on the bus, that frame, whether TEC has passed 255,
and whether recovery from bus-off runs. -/
structure Can where
  tx : Option Nat := none
  frame : Option CanFrame := none
  tecOver : Bool := false
  recovering : Bool := false
  deriving DecidableEq, Repr

/-- The xSPI controller's transaction, as its command word and length, and the tick up to which XSPI_RST_N is low (21 R469). -/
structure Xspi where
  cmd : Option (Nat × Nat) := none
  rstLow : Nat := 0
  deriving DecidableEq, Repr

/-- The I2C interface (21 R470, R471): the controller transaction's command and data, the target's register pointer, the latched copy
registers, and the bytes the bus wrote to the mailbox in a slow cycle. -/
structure I2c where
  cmd : Option Nat := none
  ptr : Nat := 0
  latch : Table W32 := []
  busCyc : Nat := 0
  busBytes : List (Nat × Byte) := []
  deriving DecidableEq, Repr

/-- A write on its way to a knocker port (22 R485): the tick it arrives, the port, the lane of a sash store and the payload. -/
structure Knock where
  due : Nat
  port : Nat
  lane : Nat
  payload : List Byte
  deriving DecidableEq, Repr

/-- The trace unit and what a halt request is made of (22 R479, R485-R487): the 4 KiB buffer, the bytes sent since the latest ALIGN, packets lost and
not yet reported, the tick of the buffer's first byte, whether WPTR has come round; what each traced event and the halt event was
last seen as. -/
structure Trace where
  buf : List Byte := []
  sent : Nat := 0
  lost : Nat := 0
  first : Nat := 0
  round : Bool := false
  out : Option Byte := none
  mark : Table Nat := []
  seen : Table Bool := []
  haltMark : Nat := 0
  deriving DecidableEq, Repr

/-- What the TAP's instruction register selects (Table 22-2). -/
inductive TapReg where
  | idcode | boundary | extest | voStat | voChal | voResp | voBus | voCtrl | bypass
  deriving DecidableEq, Repr

/-- Debug access outside the power domains (R473-R477): the level granted, failed responses, ticks until the next challenge may issue, the nonce
that is armed, VO_STAT.REFUSED, the selected data register, the latest captured data, the boundary register and the
result of the debug bus master's latest access. A warm reset keeps it. -/
structure Vopen where
  level : Nat := 0
  fails : Nat := 0
  backoff : Nat := 0
  nonce : Option W64 := none
  refused : Bool := false
  ir : TapReg := .idcode
  dr : Nat := 0
  boundary : Nat := 0
  busAddr : Nat := 0
  busStatus : Nat := 0
  busCause : Nat := 0
  busData : Nat := 0
  deriving DecidableEq, Repr

/-- What the device held at an earlier moment, as far as a rule asks for it: at the start of a tick (04 R89, R98, 08 R185, 11 R249, R258,
13 R282, R283) or of a sash cycle (05 R121, 07 R168, 08 R191, R202). -/
structure Snap where
  count : Nat := 0
  regs : Table W32 := []
  mem : List Host.Cell := []
  poison : Table Bool := []
  anchors : Table Anchor := []
  cmps : Table Cmp := []
  groups : Table Group := []
  tmrs : Table Tmr := []
  pwms : Table Pwm := []
  deriving DecidableEq, Repr

/-- A pulse of an event on its way to its consumers (04 R106, R107): its tick and the count of that tick. -/
structure PulseAt where
  ev : Nat
  tick : Nat
  count : Nat
  deriving DecidableEq, Repr

/-- A level event's time of being asserted (04 R106, R107): the tick from which it is, with its count, and the tick from which it no
longer is. -/
structure LevelRun where
  ev : Nat
  since : Nat
  count : Nat
  till : Option Nat := none
  deriving DecidableEq, Repr

/-- The violations a page has logged in one peripheral cycle, oldest first, each as ERR_ADDR_LO, ERR_ADDR_HI and ERR_INFO, with ERR_INFO as
it stood before the first of them (01 R33). -/
structure ErrCycle where
  cyc : Nat
  before : W32
  viols : List (W32 × W32 × W32)
  deriving DecidableEq, Repr

/-- A post of the present tick (08 R188): its queue, its place in the order of the tick's posts (0 launch posts, 1 + n fallbacks of sash n,
65 writes and CP0 posts), its descriptor, its deadline, and whether it is a fallback. -/
structure PostRec where
  cas : Nat
  order : Nat
  desc : Nat
  deadline : Option Nat
  fallback : Bool
  deriving DecidableEq, Repr

/-- What the present tick and sash cycle began with, and what has landed in them: page writes as (address, bytes, value), commits as
register addresses, what acts once a tick and has acted, the posts of the tick (04 R98, 08 R188, 10 R228), and of the cycle what the
bytes and line poison of lane and sash memory were before fabric writes (05 R121). -/
structure Present where
  tick : Snap := {}
  cycle : Snap := {}
  landed : List (Nat × Nat × Nat) := []
  commits : List Nat := []
  acted : List (Nat × Nat) := []
  posts : List PostRec := []
  fabric : List (Nat × Byte) := []
  fabPois : List (Nat × Bool) := []
  deriving DecidableEq, Repr

/-- The device without its command queue, its fuses and its debug-access state. `jobEnds`: how the latest finished job of descriptor i of
casement c ended, at 256c + i, as its code (1 written back, 2 aborted or timed out, 3 missed) and count (15 Table 15-11). `recent` holds
the latest pulses, `levels` when level events were asserted (04 R107); `upsets` the words of lane, sash, scratch and wing memory whose
code is in error, 1 correctably and 2 not (05 R123), `lostLines` the streamer lines dropped on their way (R137). -/
structure Dev where
  regs : Table W32 := []
  mem : List Host.Cell := []
  poison : Table Bool := []
  tags : Table Bool := []
  upsets : Table Nat := []
  lostLines : List Nat := []
  time : TimeSt := {}
  sys : SysSt := {}
  own : Table OwnStage := []
  pulses : Table Nat := []
  recent : List PulseAt := []
  levels : List LevelRun := []
  present : Present := {}
  errLog : Table ErrCycle := []
  otp : Otp := {}
  otpCmd : Option OtpCmd := none
  otpData : Table W32 := []
  anchors : Table Anchor := []
  fresh : Nat := 0
  deliveries : List Delivery := []
  fltBall : Table Bool := []
  ains : Table Int := []
  pads : Table Nat := []
  cmps : Table Cmp := []
  groups : Table Group := []
  adcs : Table Adc := []
  sdIns : Table SdIn := []
  sdClks : Table SdClk := []
  tmrs : Table Tmr := []
  tio : Table BallIn := []
  tioOut : List (Nat × Nat × Bool) := []
  encs : Table Enc := []
  wds : Table Nat := []
  pwms : Table Pwm := []
  resp : Resp := {}
  swClr : Table Nat := []
  sashes : Table Sash := []
  lanes : Table Lane := []
  queues : Table (List Job) := []
  jobSeq : Nat := 0
  flits : List Flit := []
  fallbacks : List Fallback := []
  mons : Table Mon := []
  injs : Table Inj := []
  caps : Table Cap := []
  redirTick : Table Nat := []
  landedVals : Table Nat := []
  tls : Table Tl := []
  cores : Table Core := []
  dreqs : Table DoorReq := []
  l2ok : Table Nat := []
  hbms : Table Hbm := []
  pfs : Table Pf := []
  dmas : Table Dma := []
  dmaLast : Nat := 7
  eths : Table Eth := []
  cans : Table Can := []
  xspi : Xspi := {}
  i2c : I2c := {}
  trace : Trace := {}
  knocks : List Knock := []
  jobEnds : Table (Nat × Nat) := []
  deriving DecidableEq, Repr

end Sys2Proof.Machine
end

