-- ==== Sys2Proof/Machine/Ops.lean ====
section
/-!
DEFINITION. Sys2Proof/Machine/Ops.lean: the named operations over registers, memory, counters, events and
domains that every part of the device shares.
-/
namespace Sys2Proof.Machine

/-- The word of an access at an offset as (offset, value) pairs of 32 bits. -/
def halves (o len v : Nat) : List (Nat × W32) :=
  if len = 8 then [(o, BitVec.ofNat 32 v), (o + 4, BitVec.ofNat 32 (v / 2 ^ 32))] else [(o, BitVec.ofNat 32 v)]

/-- What a write leaves in a register's word: RW and RWL fields take the value, W1C bits clear and W1S bits set (00_scope.md). -/
def RWord.merge (r : RWord) (old v : W32) : W32 :=
  r.fields.foldl (fun (a : W32) f =>
    let m := fieldMask 32 f.lsb f.width
    match f.ty with
    | .rw | .rwl => (a &&& ~~~ m) ||| (v &&& m)
    | .w1c => a &&& ~~~ (v &&& m)
    | .w1s => a ||| (v &&& m)
    | .ro | .rc | .wo => a) old

/-- A field of a repeated register, `k` bytes further on. -/
def Fld.at (f : Fld) (k : Nat) : Fld := ⟨f.ofs + k, f.lsb, f.width⟩

/-- The register word held at a physical address. -/
def Dev.reg (d : Dev) (a : Nat) : W32 := Table.get (regReset a) d.regs a

/-- Writes the register word held at a physical address. -/
def Dev.setReg (d : Dev) (a : Nat) (v : W32) : Dev := { d with regs := Table.put (regReset a) d.regs a v }

/-- A field of a page. -/
def Dev.f (d : Dev) (p : Nat) (f : Fld) : Nat := bitsOf (d.reg (p + f.ofs)) f.lsb f.width

/-- Whether a one-bit field reads 1. -/
def Dev.on (d : Dev) (p : Nat) (f : Fld) : Bool := d.f p f != 0

/-- A field of a page as a signed number. -/
def Dev.fs (d : Dev) (p : Nat) (f : Fld) : Int := signedOf f.width (d.f p f)

/-- Writes a field of a page. -/
def Dev.setF (d : Dev) (p : Nat) (f : Fld) (x : Nat) : Dev :=
  d.setReg (p + f.ofs) (putBits (d.reg (p + f.ofs)) f.lsb f.width x)

/-- Sets a one-bit field from a truth value. -/
def Dev.setB (d : Dev) (p : Nat) (f : Fld) (b : Bool) : Dev := d.setF p f (b2n b)

/-- A saturating counter counts one (register type RC, 00_scope.md). -/
def Dev.inc (d : Dev) (p : Nat) (f : Fld) : Dev := d.setF p f (satInc f.width (d.f p f))

/-- A saturating counter counts `k`. -/
def Dev.incBy (d : Dev) (p : Nat) (f : Fld) (k : Nat) : Dev := d.setF p f (satAdd f.width (d.f p f) k)

/-- A wrapping counter counts one. -/
def Dev.incWrap (d : Dev) (p : Nat) (f : Fld) : Dev := d.setF p f (d.f p f + 1)

/-- A 64-bit register at an offset of a page. -/
def Dev.r64 (d : Dev) (p o : Nat) : Nat := (d.reg (p + o)).toNat + (d.reg (p + o + 4)).toNat * 2 ^ 32

/-- Writes a 64-bit register. -/
def Dev.setR64 (d : Dev) (p o v : Nat) : Dev :=
  (d.setReg (p + o) (BitVec.ofNat 32 v)).setReg (p + o + 4) (BitVec.ofNat 32 (v / 2 ^ 32))

/-- EN of a page. -/
def Dev.en (d : Dev) (p : Nat) : Bool := d.on p F.H_EN

/-- EXPERT of a page. -/
def Dev.expert (d : Dev) (p : Nat) : Bool := d.on p F.H_EXPERT

/-- STATUS.BUSY of a page. -/
def Dev.busy (d : Dev) (p : Nat) : Bool := d.on p F.H_BUSY

/-- OWNER.OTYPE of a page. -/
def Dev.otype (d : Dev) (p : Nat) : Nat := d.f p F.H_OTYPE

/-- A bit of IRQ_PEND sets (R20). [DEDUCED (log 62)] -/
def Dev.irq (d : Dev) (p i : Nat) : Dev := d.setF p ⟨0x24, i, 1⟩ 1

/-- Whether a power domain is on and not in transition; PD_AON always is (R59, R62). -/
def Dev.domOn (d : Dev) (b : Nat) : Bool :=
  b == domAon || (bitAt (d.reg (pgPwr + 0x044)) b && !bitAt (d.reg (pgPwr + 0x048)) b)

/-- Whether the page at a base is reachable and enabled. -/
def Dev.live (d : Dev) (p : Nat) : Bool :=
  match pageAt p with
  | some i => d.domOn i.dom && d.en p
  | none => false

/-- What an enable check reports at offset `o` for the page at `p` that a page always depends on: REF_DOMAIN_OFF, else REF_DISABLED (01 R23, R27). -/
def Dev.dependCheck (d : Dev) (p o : Nat) : List (Nat × Nat) :=
  if (match pageAt p with | some i => d.domOn i.dom | none => true) then (if d.en p then [] else [(o, 5)]) else [(o, 7)]

/-- What the enable check of the page at `own` reports at offset `o` for a field that refers to the page at `p`: REF_DOMAIN_OFF, else
REF_DISABLED and REF_NOT_OWNED (01 R27). [DEDUCED (log 160)] -/
def Dev.refCheck (d : Dev) (own p o : Nat) : List (Nat × Nat) :=
  if (match pageAt p with | some i => d.domOn i.dom | none => true) then
    (if d.en p then [] else [(o, 5)]) ++ (if d.otype p == d.otype own then [] else [(o, 6)])
  else [(o, 7)]

/-- The Lintel count. -/
def Dev.count (d : Dev) : Nat := d.time.count.toNat

/-- The tick of the clock tree. -/
def Dev.tick (d : Dev) : Nat := d.time.tick

/-- A pulse event is asserted for its tick (04 R106). The model keeps the number of pulses of each event, and the latest
ones; a consumer's latch is set while the number it has seen exceeds the one it last cleared (R107). [DEDUCED (log 45)] -/
def Dev.pulse (d : Dev) (e : Nat) : Dev :=
  { d with
    pulses := Table.put 0 d.pulses e (Table.get 0 d.pulses e + 1)
    recent := ⟨e, d.time.tick, d.time.count.toNat⟩ :: d.recent.filter (fun x => decide (d.time.tick < x.tick + 32)) }

/-- How many pulses of an event there have been. -/
def Dev.pulsesOf (d : Dev) (e : Nat) : Nat := Table.get 0 d.pulses e

/-- How long an event takes to a consumer (04 R107): `c` is the consumer's casement, if it has one. [DEDUCED (log 45)] -/
def evDelay (c : Option Nat) (e : Nat) : Nat := if e < 1792 ∧ c = some (e / 112) then 6 else 24

/-- Pulses of an event that a consumer has not seen yet (04 R107). -/
def Dev.inFlight (d : Dev) (c : Option Nat) (e : Nat) : Nat :=
  (d.recent.filter (fun x => x.ev == e && decide (d.tick < x.tick + evDelay c e))).length

/-- How many pulses of an event a consumer has seen by now (04 R107). [DEDUCED (log 45)] -/
def Dev.pulsesSeen (d : Dev) (c : Option Nat) (e : Nat) : Nat := d.pulsesOf e - d.inFlight c e

/-- The pulses of every event that a consumer outside the casements has seen by now. -/
def Dev.seenPulses (d : Dev) : Table Nat :=
  d.recent.foldl (fun t x => if d.tick < x.tick + 24 then Table.put 0 t x.ev (Table.get 0 t x.ev - 1) else t) d.pulses

/-- The domain of an event's source (04 Tables 4-12, 4-13); PD_AON where sources of several domains share the event. -/
def evDomain (e : Nat) : Nat :=
  if e < 1792 then
    (if (18 ≤ e % 112 ∧ e % 112 < 48) ∨ e % 112 = 111 then domAna (e / 112 / 8) else domCas (e / 112))
  else if 1847 ≤ e ∧ e < 1879 then domLink ((e - 1847) / 16)
  else if e = 1882 ∨ e = 1883 then domHbm (e - 1882)
  else if 1884 ≤ e ∧ e < 1899 then domHostio
  else domAon

/-- The run of a level event that a consumer sees in this tick (04 R107): asserted a delay ago. A source in a domain that is off reads as
inactive. -/
def Dev.levelRun (d : Dev) (c : Option Nat) (e : Nat) : Option LevelRun :=
  if !d.domOn (evDomain e) then none
  else d.levels.find? (fun r => r.ev == e && decide (r.since + evDelay c e ≤ d.tick) &&
    (match r.till with | none => true | some t => decide (d.tick < t + evDelay c e)))

/-- Whether a consumer sees a level event asserted. [DEDUCED (log 45)] -/
def Dev.levelSeen (d : Dev) (c : Option Nat) (e : Nat) : Bool := (d.levelRun c e).isSome

/-- Casement event number (04 Table 4-12). -/
def evCas (c o : Nat) : Nat := 112 * c + o

/-- A byte of memory; an unlisted byte reads 0. [DESIGN CHOICE (log 9)] -/
def Dev.byte (d : Dev) (a : Nat) : Byte := Table.get 0 d.mem a

/-- Writes a byte of memory. -/
def Dev.setByte (d : Dev) (a : Nat) (b : Byte) : Dev := { d with mem := Table.put 0 d.mem a b }

/-- Bytes of memory from an address on. -/
def Dev.bytes (d : Dev) (a : Nat) : Nat → List Byte
  | 0 => []
  | k + 1 => d.byte a :: d.bytes (a + 1) k

/-- Writes bytes from an address on. -/
def Dev.setBytes (d : Dev) (a : Nat) : List Byte → Dev
  | [] => d
  | b :: r => (d.setByte a b).setBytes (a + 1) r

/-- A little-endian value of `k` bytes of memory. -/
def Dev.load (d : Dev) (a k : Nat) : Nat := valueLE (d.bytes a k)

/-- Stores a little-endian value of `k` bytes. -/
def Dev.store (d : Dev) (a k v : Nat) : Dev := d.setBytes a (bytesLE k v)

/-- The poison mark of the 64-byte line of an address (05 R123; Core SRAM marks 64-bit words, 16 R367: its
marks stand at the word's own number, above every line number). -/
def poisonKey (a : Nat) : Nat :=
  if 0x10000000 ≤ a ∧ a < 0x12000000 then 0x1000000000000 + a / 8 else a / 64

/-- Whether an address lies in poisoned data. -/
def Dev.poisoned (d : Dev) (a : Nat) : Bool := Table.get false d.poison (poisonKey a)

/-- Marks or clears the poison of an address's line or word. -/
def Dev.setPoison (d : Dev) (a : Nat) (b : Bool) : Dev := { d with poison := Table.put false d.poison (poisonKey a) b }

/-- Whether any byte of a range is poisoned, looked at every 8 bytes and at its end. -/
def Dev.poisonedRange (d : Dev) (a k : Nat) : Bool :=
  (List.range ((k + 7) / 8)).any (fun i => d.poisoned (a + 8 * i)) || (0 < k && d.poisoned (a + k - 1))

/-- The capability tag of the 16-byte granule of an address (17 R372). -/
def Dev.tag (d : Dev) (a : Nat) : Bool := Table.get false d.tags (a / 16)

/-- Writes the tag of a granule. -/
def Dev.setTag (d : Dev) (a : Nat) (b : Bool) : Dev := { d with tags := Table.put false d.tags (a / 16) b }

/-- Stores a value as data: it clears the tag of each granule it touches (17 R372). -/
def Dev.storeData (d : Dev) (a k v : Nat) : Dev :=
  (((d.store a k v).setTag a false).setTag (a + k - 1) false)

/-- A fresh index for a free value. [DESIGN CHOICE (log 7)] -/
def Dev.takeFresh (d : Dev) : Nat × Dev := (d.fresh, { d with fresh := d.fresh + 1 })

/-- The clocks stand still: standby, Vopen halt or an unlocked root PLL. [DEDUCED (log 4)] -/
def Dev.clocksStill (d : Dev) : Bool := d.sys.standby || d.sys.halted || d.sys.clkHeld

/-- A ball takes a level; a synchronizer shows it two ticks later. -/
def BallIn.set (b : BallIn) (t : Nat) (lvl : Bool) : BallIn :=
  if b.raw = lvl then b else { b with raw := lvl, edges := b.edges ++ [(t + 2, lvl)] }

/-- The changes of a synchronizer that show by a tick: the latest of them, and those still to come. -/
def syncOutOf (l : List (Nat × Bool)) (t : Nat) (old : Bool) : Bool × List (Nat × Bool) :=
  ((((l.filter (fun e => decide (e.1 ≤ t))).getLast?).map Prod.snd).getD old, l.filter (fun e => decide (t < e.1)))

/-- What a ball's synchronizer shows in a tick. -/
def BallIn.tick (b : BallIn) (t : Nat) : BallIn :=
  let r := syncOutOf b.edges t b.sync
  { b with sync := r.1, edges := r.2 }

/-- One sample of a ball's filter (13 R284): the filtered level after it, and the samples in a row that differ from that level. -/
def ballFilter (n : Nat) (lvl : Bool) (run : Nat) (s : Bool) : Bool × Nat :=
  if s = lvl then (lvl, 0) else if n ≤ run + 1 then (s, 0) else (lvl, run + 1)

/-- Repeats an update over 0 .. n - 1. -/
def Dev.forN (d : Dev) (n : Nat) (g : Nat → Dev → Dev) : Dev := (List.range n).foldl (fun s i => g i s) d

/-- What the device holds now, for later reference. [DESIGN CHOICE (log 142)] -/
def Dev.snap (d : Dev) : Snap :=
  { count := d.time.count.toNat, regs := d.regs, mem := d.mem, poison := d.poison, anchors := d.anchors, cmps := d.cmps
    groups := d.groups, tmrs := d.tmrs, pwms := d.pwms }

/-- The device with what it held at an earlier moment. -/
def Dev.back (d : Dev) (s : Snap) : Dev :=
  { d with
    regs := s.regs, mem := s.mem, poison := s.poison, anchors := s.anchors, cmps := s.cmps, groups := s.groups
    tmrs := s.tmrs, pwms := s.pwms }

/-- The device as it stood at the start of the present tick. [DESIGN CHOICE (log 142)] -/
def Dev.atTick (d : Dev) : Dev := d.back d.present.tick

/-- The device as it stood at the start of the present sash cycle. [DESIGN CHOICE (log 142)] -/
def Dev.atCycle (d : Dev) : Dev := d.back d.present.cycle

/-- A ring of descriptors holds one to process (21 R458, R464): HEAD and TAIL as both stood at the start of the cycle. [DESIGN CHOICE (log 142)] -/
def Dev.ringHolds (d : Dev) (p : Nat) (head tail : Fld) : Bool :=
  let s := d.atCycle
  s.f p head != s.f p tail && d.f p head == s.f p head

/-- A tick starts, and in even ticks a sash cycle (03 R56). [DESIGN CHOICE (log 142)] -/
def Dev.newTick (d : Dev) : Dev :=
  let s := d.snap
  { d with
    present := if d.tick % 2 = 0 then { tick := s, cycle := s }
      else { d.present with tick := s, landed := [], commits := [], acted := [], posts := [] } }

/-- What is held now counts as what the tick and the cycle began with. -/
def Dev.stamp (d : Dev) : Dev := { d with present := { tick := d.snap, cycle := d.snap } }

/-- Notes what has happened in this tick: 0 the firings of a casement, 1 that of a timer channel, 2 a clear of a comparator latch, 3 a source
of a Shutter group that became active, 4 an accepted clear of a group, 5 a virtual trip that set, 6 a restart of a generator, 7 its zero
event, 8 a zero event that latches an encoder,
9 the Peephole action event of a sash, 10 a monitor's virtual trip at the Shutter matrix, 11 a capture of a timer channel. -/
def Dev.act (d : Dev) (kind i : Nat) : Dev :=
  { d with present := { d.present with acted := (kind, i) :: d.present.acted } }

/-- Whether it has happened in this tick. -/
def Dev.acted (d : Dev) (kind i : Nat) : Bool := d.present.acted.contains (kind, i)

/-- Notes that a commit has landed at a register in this tick: a fabric write to it in the tick counts as applied before (10 R228). -/
def Dev.noteCommit (d : Dev) (a : Nat) : Dev :=
  { d with present := { d.present with commits := a :: d.present.commits } }

/-- Whether a commit has landed at a register in this tick. -/
def Dev.committed (d : Dev) (a : Nat) : Bool := d.present.commits.contains a

/-- Notes that a page write has landed in this tick. [DESIGN CHOICE (log 142)] -/
def Dev.noteLanded (d : Dev) (a len v : Nat) : Dev :=
  { d with present := { d.present with landed := d.present.landed ++ [(a, len, v)] } }

/-- The writes that have landed in this tick at addresses from `a` on. -/
def Dev.landedAt (d : Dev) (a len : Nat) : List (Nat × Nat × Nat) :=
  d.present.landed.filter (fun x => decide (a ≤ x.1) && decide (x.1 < a + len))

/-- The registers of the pages of a power domain go back to their reset values (03 R61, R63), but for JQ_REDIR: its bits remain set after
their domain is switched off (09 R209). -/
def Dev.dropDomainRegs (d : Dev) (b : Nat) : Dev :=
  { d with
    regs := Table.keep (fun a => match pageAt a with
      | some p => p.dom != b || (p.kind == .jq && decide (p.base + 0x80 ≤ a) && decide (a < p.base + 0xA0))
      | none => true) d.regs }

/-- The memory, poison and tags of a power domain are lost (03 R61). -/
def Dev.dropDomainMem (d : Dev) (b : Nat) : Dev :=
  let out : Nat → Bool := fun a => match memAt a with | some (_, x) => x != b | none => true
  { d with
    mem := Table.keep out d.mem
    poison := Table.keep (fun k => if 0x1000000000000 ≤ k then b != 4 else out (k * 64)) d.poison
    tags := Table.keep (fun k => out (k * 16)) d.tags
    upsets := Table.keep out d.upsets }

end Sys2Proof.Machine
end

