-- ==== Sys2Proof/Machine/Shutter.lean ====
section
/-!
DEFINITION. Sys2Proof/Machine/Shutter.lean: window comparators, trip sources, the Shutter groups and the pads
they force (11_comparators_and_shutter_matrix.md), with FAULT_OUT (02 R49, R50).
-/
namespace Sys2Proof.Machine

/-- A bit of a 64-bit mask held in two register words. -/
def Dev.bit64 (d : Dev) (p o n : Nat) : Bool := bitAt (d.reg (p + o + 4 * (n / 32))) (n % 32)

/-- Sets or clears a bit of a 64-bit register. -/
def Dev.setBit64 (d : Dev) (p o n : Nat) (b : Bool) : Dev :=
  d.setF p ⟨o + 4 * (n / 32), n % 32, 1⟩ (b2n b)

/-- The comparator page and the place in it of comparator n = 2a + h (R244). -/
def cmpPage (n : Nat) : Nat := pgCmp (n / 24) ((n / 2 % 12) / 3)
/-- The number k = 2m + h of comparator n in its page (R244). -/
def cmpK (n : Nat) : Nat := 2 * ((n / 2) % 3) + n % 2

/-- CMP_CFG field of comparator n. -/
def Dev.cmpCfg (d : Dev) (n : Nat) (f : Fld) : Nat := d.f (cmpPage n) (f.at (8 * cmpK n))

/-- The comparator is powered: its page is on and enabled and CEN is 1 (R245, R250). [DEDUCED (log 56)] -/
def Dev.cmpUp (d : Dev) (n : Nat) : Bool := d.live (cmpPage n) && d.cmpCfg n F.CMP_CFG_CEN == 1

/-- A selected comparator is lost (R256). -/
def Dev.cmpLost (d : Dev) (n : Nat) : Bool := !d.cmpUp n

/-- Raw output of comparator n (R245), which the forcing paths take (R255). [DEDUCED (log 55)] -/
def Dev.cmpRaw (d : Dev) (n : Nat) : Bool := d.cmpUp n && (Table.get {} d.cmps n).raw

/-- Synchronized raw output of comparator n, CMP_STATE.RAW (R248). [DEDUCED (log 55)] -/
def Dev.cmpSynced (d : Dev) (n : Nat) : Bool := d.cmpUp n && bitAt (d.reg (cmpPage n + 0x74)) (cmpK n)

/-- Filtered output of comparator n; it reads inactive in standby (R66, R248). -/
def Dev.cmpFilt (d : Dev) (n : Nat) : Bool :=
  d.cmpUp n && !d.sys.standby && bitAt (d.reg (cmpPage n + 0x74)) (8 + cmpK n)

/-- CS_CMPSEL chooses the filtered output of comparator n (Table 11-10). -/
def Dev.cmpSelFilt (d : Dev) (n : Nat) : Bool := bitAt (d.reg (pgCasSrc (n / 24) + 0x40)) (n % 24)

/-- The sigma-delta input whose fast comparator stands in for analogue input i of casement c (12 R277). -/
def Dev.sdRoute (d : Dev) (c i : Nat) : Option Nat :=
  (List.range 6).find? (fun k =>
    d.on (pgSd c) (F.SD_FC_ROUTE_EN.at (32 * k)) && d.f (pgSd c) (F.SD_FC_ROUTE.at (32 * k)) == i)

/-- The Shutter source of comparator n (R251, R256, 12 R277): active when lost; routed inputs take the fast
comparator, and are active while the sigma-delta page is disabled or the half is in comparator-only mode. -/
def Dev.cmpSource (d : Dev) (n : Nat) : Bool :=
  let c := n / 24
  let i := (n / 2) % 12
  if d.cmpLost n then true
  else match d.sdRoute c i with
    | none => if d.cmpSelFilt n then d.cmpFilt n else d.cmpRaw n
    | some k =>
      if !d.en (pgSd c) || Table.get false d.sys.cmpOnly (c / 8) then true
      else if d.cmpSelFilt n then (Table.get {} d.cmps n).fastFilt && !d.sys.standby
      else bitAt (d.reg (pgSd c + 0x170)) (8 * (n % 2) + k)

/-- Latch L_g (R253). -/
def Dev.latched (d : Dev) (g : Nat) : Bool := d.on (pgGroup g) F.GROUP_STATUS_LATCHED

/-- The safety pair has been declared failed (R260). -/
def Dev.spFailed (d : Dev) : Bool := d.on pgRst F.FOUT_STAT_SP_FAILED

/-- A watchdog's Shutter source: EXPIRED with ACTION = GROUP (13 R293). -/
def Dev.wdTrips (d : Dev) (p : Nat) : Bool :=
  d.on p F.WD_STATUS_EXPIRED && d.f p F.WD_CTRL_ACTION == 1

/-- The group of remote channel q of casement c (R254). -/
def Dev.rchGroup (d : Dev) (c q : Nat) : Nat := d.f (pgCasSrc c) (F.CS_RCH_GROUP.at (4 * q))

/-- A node that owns a remote channel of the group is detached (Table 11-4; 14 R321). -/
def Dev.detachTrips (d : Dev) (g : Nat) : Bool :=
  (List.range 32).any (fun l =>
    d.on (pgTlc l) F.TLC_STATUS_DETACHED &&
      (List.range (d.f (pgTlnb l) F.NB_CFG_NCH)).any (fun q => d.rchGroup (l / 2) (32 * (l % 2) + q) == g))

/-- A virtual trip as the matrix sees it: from the tick after the write that set it, or from the tick in which a monitor's trip
arrives (R255, R257, 09 R209). -/
def Dev.vtActive (d : Dev) (n : Nat) : Bool := d.bit64 pgVt 0x50 n && (d.acted 10 n || d.atTick.bit64 pgVt 0x50 n)

/-- Watchdog k of the 21 has expired with ACTION = GROUP. -/
def Dev.wdExpired (d : Dev) (k : Nat) : Bool :=
  if k < 5 then d.wdTrips (pgWdCore k) else d.domOn (domCas (k - 5)) && d.wdTrips (pgWdCas (k - 5))

/-- Its Shutter source: from the tick after the expiry (13 R293). -/
def Dev.wdActive (d : Dev) (k : Nat) : Bool := d.wdExpired k && d.atTick.wdExpired k

/-- A virtual trip or a watchdog's source that the matrix sees only from the next tick on. -/
def Dev.lateSources (d : Dev) : Bool :=
  (List.range 64).any (fun n => d.bit64 pgVt 0x50 n && !d.vtActive n) || (List.range 21).any (fun k => d.wdExpired k && !d.wdActive k)

/-- Whether a trip source of indices 0x000-0x217 and 0x219-0x22F is active (Table 11-4). -/
def Dev.srcActive (d : Dev) (g i : Nat) : Bool :=
  if i < 0x40 then d.bit64 pgFlt 0x40 i
  else if i < 0x1C0 then d.cmpSource (i - 0x40)
  else if i < 0x200 then d.vtActive (i - 0x1C0)
  else if i < 0x218 then d.latched (i - 0x200)
  else if i = 0x218 then false
  else if i = 0x219 then d.spFailed
  else if i < 0x22F then d.wdActive (i - 0x21A)
  else d.detachTrips g

/-- Whether a group's masks select a source (R252); the safety-pair failure is always selected. -/
def Dev.srcSelected (d : Dev) (g i : Nat) : Bool :=
  let p := pgGroup g
  if i < 0x40 then d.bit64 p 0x40 i
  else if i < 0x1C0 then bitAt (d.reg (p + 0x48 + 4 * ((i - 0x40) / 32))) ((i - 0x40) % 32)
  else if i < 0x200 then d.bit64 p 0x78 (i - 0x1C0)
  else if i < 0x218 then bitAt (d.reg (p + 0x80)) (i - 0x200)
  else if i = 0x218 then false
  else if i = 0x219 then true
  else if i < 0x22F then bitAt (d.reg (p + 0x84)) (i - 0x21A)
  else d.on p F.SG_SYS_DETACH

/-- The words of a group's masks, as (first source index, mask word). -/
def Dev.maskWords (d : Dev) (g : Nat) : List (Nat × W32) :=
  let p := pgGroup g
  [(0x000, d.reg (p + 0x40)), (0x020, d.reg (p + 0x44))] ++
    (List.range 12).map (fun q => (0x40 + 32 * q, d.reg (p + 0x48 + 4 * q))) ++
    [(0x1C0, d.reg (p + 0x78)), (0x1E0, d.reg (p + 0x7C)), (0x200, d.reg (p + 0x80) &&& 0xFFFFFF),
     (0x21A, d.reg (p + 0x84) &&& 0x1FFFFF)]

/-- The source indices a group selects by its masks, in ascending order, with 0x219 and the detach. -/
def Dev.selected (d : Dev) (g : Nat) : List Nat :=
  let low := (d.maskWords g).flatMap (fun e =>
    if e.2 = 0 then [] else (List.range 32).filterMap (fun b => if bitAt e.2 b then some (e.1 + b) else none))
  low.filter (· < 0x219) ++ [0x219] ++ low.filter (0x219 < ·) ++
    (if d.on (pgGroup g) F.SG_SYS_DETACH then [0x22F] else [])

/-- The sources the vote of a group looks at (R252). -/
def Dev.voted (d : Dev) (g : Nat) : List Nat :=
  let p := pgGroup g
  if d.expert p then
    (List.range 8).filterMap (fun v =>
      if d.on p (F.SG_VOTE_SEL_VALID.at (4 * v)) then some (d.f p (F.SG_VOTE_SEL_SRC.at (4 * v))) else none)
  else []

/-- The vote of a group (R252): with EXPERT = 1, at least N of the valid selections are active. `skip` names sources
that count as inactive. -/
def Dev.voteActive (d : Dev) (g : Nat) (skip : Nat → Bool) : Bool :=
  let n := d.f (pgGroup g) F.SG_VOTE_N
  d.expert (pgGroup g) && n != 0 && n ≤ ((d.voted g).filter (fun i => !skip i && d.srcActive g i)).length

/-- The active sources of a group in ascending index, the vote among them, but for those that count as inactive. -/
def Dev.activeSources (d : Dev) (g : Nat) (skip : Nat → Bool) : List Nat :=
  let a := (d.selected g).filter (fun i => !skip i && d.srcActive g i)
  if d.voteActive g skip then a.filter (· < 0x218) ++ [0x218] ++ a.filter (0x218 < ·) else a

/-- TRIP_g (R252). -/
def Dev.tripIn (d : Dev) (g : Nat) : Bool := !(d.activeSources g (fun _ => false)).isEmpty

/-- A source of group g that was not active at the start of the tick is active now (R259). -/
def Dev.sourceRose (d : Dev) (g : Nat) : Bool :=
  let s := d.atTick
  (d.activeSources g (fun i => i != 0x218 && s.srcActive g i)).any
    (fun i => i != 0x218 || !s.voteActive g (fun _ => false))

/-- A group's latch sets (R253); its record follows once clocked logic sees it (R255). In standby a latch selected in
STBY_WAKE starts a warm reset (03 R66). [DEDUCED (log 54)] -/
def Dev.setLatch (d : Dev) (g : Nat) : Dev :=
  if d.latched g then d
  else
    let d := d.setB (pgGroup g) F.GROUP_STATUS_LATCHED true
    let wakes := d.sys.standby && bitAt (d.reg (pgPwr + 0x58)) g
    { d with
      groups := Table.put {} d.groups g
        { recording := true, due := if d.clocksStill then d.tick + 1 else d.tick + 2, clockless := d.clocksStill }
      sys := if wakes then { d.sys with resetReq := some (7, 0) } else d.sys }

/-- One pass of the 24 latches over their trip inputs. -/
def Dev.latchPass (d : Dev) : Dev :=
  d.forN 24 (fun g d => if !d.latched g && d.tripIn g then d.setLatch g else d)

/-- Notes for every set latch a source that rose in this tick: an accepted clear in it does not clear the latch (R258, R259). -/
def Dev.roseMarks (d : Dev) : Dev :=
  d.forN 24 (fun g d => if d.latched g && !d.acted 3 g && d.sourceRose g then d.act 3 g else d)

/-- The pads of pair g of casement c are forced to their safe states (R253, 10 R236-R239). -/
def Dev.pairForced (d : Dev) (c g : Nat) : Bool :=
  let grp := d.f (pgCasSrc c) (F.CS_PAIR_GROUP.at (4 * g))
  !d.en (pgCasSrc c) || 24 ≤ grp || !d.en (pgGroup grp) || d.latched grp

/-- A safe state as a pad level: 0 low, 1 high, 2 high-impedance; the reserved code drives low (R254). -/
def safeLevel (code : Nat) : Nat := if code = 3 then 0 else code

/-- The levels of the two pads of pair g of casement c (10 R225, R226, R236; 02 R46, R47; 11 R253, R254): high-impedance while a supply
is absent, else the safe states, or what has left the generator's output pipeline. [DEDUCED (log 46); DESIGN CHOICE (log 143)] -/
def Dev.pairPads (d : Dev) (c g : Nat) : Nat × Nat :=
  let p := pgPwm c g
  let w : Pwm := Table.get {} d.pwms (6 * c + g)
  if !d.sys.vddAon || !d.sys.vddIo33 then (2, 2)
  else if d.pairForced c g || !d.domOn (domCas c) || !d.en p || !w.freed || d.sys.halted then
    (safeLevel (d.f (pgCasSrc c) (F.CS_PAIR_SAFE_H.at (4 * g))),
     safeLevel (d.f (pgCasSrc c) (F.CS_PAIR_SAFE_L.at (4 * g))))
  else
    (b2n (w.outH != d.on p F.PWM_CTRL_POL_H), b2n (w.outL != d.on p F.PWM_CTRL_POL_L))

/-- Drives the pads of a pair, and PWM_OUT where its page is powered. [DEDUCED (log 46)] -/
def Dev.padRefresh (d : Dev) (c g : Nat) : Dev :=
  let l := d.pairPads c g
  let n := 2 * (6 * c + g)
  let d := { d with pads := Table.put 0 (Table.put 0 d.pads n l.1) (n + 1) l.2 }
  if d.domOn (domCas c) then
    (d.setB (pgPwm c g) F.PWM_OUT_PAD_H (l.1 == 1)).setB (pgPwm c g) F.PWM_OUT_PAD_L (l.2 == 1)
  else d

/-- The generator's outputs wait for a period start: nothing is pending in its dead-time logic or on its way to the pads (10 R236, R238). [DEDUCED (log 46)] -/
def Pwm.cut (w : Pwm) : Pwm := { w with released := false, dead := none, pipe := [], freed := false }

/-- What a forcing that begins does to a generator (10 R238, R239): a pending turn-on is abandoned and the outputs wait for
a period start; TRIPPED reads 1 while the pair is forced, and the end of the forcing leaves RESUME_PENDING. -/
def Dev.pairForce (d : Dev) (c g : Nat) : Dev :=
  let p := pgPwm c g
  let n := 6 * c + g
  if !d.domOn (domCas c) then d.padRefresh c g
  else
    let was := d.on p F.PWM_STATUS_TRIPPED
    let now := d.pairForced c g
    let d := d.setB p F.PWM_STATUS_TRIPPED now
    let w := Table.get {} d.pwms n
    let w1 : Pwm := if now then w.cut else w
    let w2 : Pwm := if was && !now then { w1 with clearTick := some d.tick } else w1
    let d := { d with pwms := Table.put {} d.pwms n w2 }
    let d := if now then d.setB p F.PWM_STATUS_RESUME_PENDING false
      else if was && d.en p then d.setB p F.PWM_STATUS_RESUME_PENDING true
      else d
    d.padRefresh c g

/-- A lost comparator among the sources. -/
def Dev.srcLost (d : Dev) (i : Nat) : Bool := 0x40 ≤ i && i < 0x1C0 && d.cmpLost (i - 0x40)

/-- STATUS of every group as clocked logic samples it: TRIP_IN, FORCED, LOST, SP_FORCED (Table 11-8). [DEDUCED (log 54)] -/
def Dev.groupStatus (d : Dev) (g : Nat) : Dev :=
  let p := pgGroup g
  let d := d.setB p F.GROUP_STATUS_TRIP_IN (d.tripIn g)
  let d := d.setB p F.GROUP_STATUS_FORCED (d.latched g || !d.en p)
  let d := d.setB p F.GROUP_STATUS_LOST ((d.selected g ++ d.voted g).any d.srcLost)
  d.setB p F.GROUP_STATUS_SP_FORCED d.spFailed

/-- CS_LIVE of a casement: each window comparator's selected output as last sampled (Table 11-10, 12 R277). -/
def Dev.csLive (d : Dev) (c : Nat) : Dev :=
  d.setF (pgCasSrc c) F.CS_LIVE_LIVE ((List.range 24).foldl (fun a b =>
    let n := 24 * c + b
    a + b2n (if d.cmpSelFilt n then d.cmpFilt n else d.cmpSynced n) * 2 ^ b) 0)

/-- Passes over the latches until none sets; 24 passes reach the end of every cascade. -/
def Dev.latchLoop : Nat → Dev → Dev
  | 0, d => d
  | k + 1, d =>
    if (List.range 24).any (fun g => !d.latched g && d.tripIn g) then Dev.latchLoop k d.latchPass else d

/-- Every group latch follows its trip input, cascades included, and every pair its group (R252, R253). Called
after each change of a source, of a mask or of an assignment. -/
def Dev.shutter (d : Dev) : Dev :=
  let d := (Dev.latchLoop 24 d).roseMarks
  let d := d.forN 24 (fun g d => d.groupStatus g)
  d.forN 96 (fun n d => d.pairForce (n / 6) (n % 6))

/-- The clocked record of a latch set, in the tick in which the synchronized latch first reads 1 (R255): the lowest active source (R260:
the safety pair's failure), the stamp, the count and the interrupt. [DEDUCED (log 54)] -/
def Dev.latchRecord (d : Dev) (g : Nat) : Dev :=
  let r : Group := Table.get {} d.groups g
  if !r.recording || decide (d.tick < r.due) then d
  else
    let p := pgGroup g
    let src := if r.spFail then 0x219 else ((d.activeSources g (fun _ => false)).head?).getD 0x3FF
    let d := d.setF p F.SG_CAUSE_SRC src
    let d := d.setB p F.SG_CAUSE_CLOCKLESS r.clockless
    let d := d.setB p F.SG_CAUSE_VALID true
    let d := d.setR64 p 0xB8 d.count
    let d := (d.inc p F.SG_TRIP_CNT_TRIPS).irq p 0
    { d with groups := Table.put {} d.groups g {} }

/-- VT_AUTO marks a virtual trip as cleared by an accepted clear; it acts only while the page has EN = 1 (R257). -/
def Dev.vtAuto (d : Dev) (n : Nat) : Bool := d.en pgVt && d.bit64 pgVt 0x58 n

/-- The sources that count as inactive when a clear of the groups `acc` is judged (R258). -/
def Dev.clearSkip (d : Dev) (acc : List Nat) (i : Nat) : Bool :=
  (0x1C0 ≤ i && i < 0x200 && d.vtAuto (i - 0x1C0)) ||
    (0x200 ≤ i && i < 0x218 && acc.contains (i - 0x200))

/-- Why a clear of group g is refused, with the source it names (Table 11-6, R258, R260); `none` accepts. A failed
safety pair refuses every clear with code 0x3 (R260); the sources are taken as at the start of the tick. -/
def Dev.clearRefusal (d : Dev) (g : Nat) (acc : List Nat) : Option (Nat × Nat) :=
  if d.spFailed then some (3, 0x219)
  else
    let s := d.atTick
    let a := s.activeSources g (s.clearSkip acc)
    match a.find? (fun i => !s.srcLost i) with
    | some i => some (1, i)
    | none => match a.head? with
      | some i => some (2, i)
      | none => none

/-- The largest subset of a set of groups whose clears are all accepted together (R258). -/
def Dev.acceptedClears (d : Dev) : Nat → List Nat → List Nat
  | 0, acc => acc
  | k + 1, acc => d.acceptedClears k (acc.filter (fun g => (d.clearRefusal g acc).isNone))

/-- A virtual trip sets (R257). -/
def Dev.vtRaise (d : Dev) (n : Nat) : Dev := (d.setBit64 pgVt 0x50 n true).act 5 n

/-- A virtual trip clears, unless it sets in the same tick (R257). -/
def Dev.vtDrop (d : Dev) (n : Nat) : Dev := if d.acted 5 n then d else d.setBit64 pgVt 0x50 n false

/-- An accepted clear of a group (R258): its VT_AUTO virtual trips clear, and its latch at the end of the tick; a group whose latch is 0 is
left as it is. -/
def Dev.clearGroup (d : Dev) (g : Nat) : Dev :=
  if !d.latched g then d
  else (d.act 4 g).forN 64 (fun v d => if d.vtAuto v && d.bit64 (pgGroup g) 0x78 v then d.vtDrop v else d)

/-- A refused clear of a group (R258). -/
def Dev.refuseClear (d : Dev) (g : Nat) (r : Nat × Nat) : Dev :=
  let p := pgGroup g
  let d := (d.setB p F.GROUP_STATUS_CLEAR_REFUSED true).irq p 1
  if d.on p F.SG_REFUSE_VALID then d
  else ((d.setF p F.SG_REFUSE_CODE r.1).setF p F.SG_REFUSE_SRC r.2).setB p F.SG_REFUSE_VALID true

/-- The groups whose accepted clear no source has overtaken (R258, R259): none rose in the tick, and none is active but for the
latches of groups that clear with them. -/
def Dev.clearable (d : Dev) : Nat → List Nat → List Nat
  | 0, l => l
  | k + 1, l => d.clearable k (l.filter (fun g =>
      !d.acted 3 g && (d.activeSources g (fun i => 0x200 ≤ i && i < 0x218 && l.contains (i - 0x200))).isEmpty))

/-- A latch that a clear would have cleared is set again (R259): as a new trip, with RETRIPPED. -/
def Dev.retrip (d : Dev) (g : Nat) : Dev :=
  let d := d.setB (pgGroup g) F.GROUP_STATUS_RETRIPPED true
  { d with groups := Table.put {} d.groups g { recording := true, due := d.tick + 2, clockless := false } }

/-- The end of a tick in which clears were accepted (R258, R259): the latches clear, or are set again. [DEDUCED (log 54)] -/
def Dev.clearsEnd (d : Dev) : Dev :=
  let asked := (List.range 24).filter (fun g => d.acted 4 g && d.latched g)
  if asked.isEmpty then d
  else
    let ok := d.clearable 24 asked
    let d := ok.foldl (fun d g => d.setB (pgGroup g) F.GROUP_STATUS_LATCHED false) d
    let d := (asked.filter (fun g => !ok.contains g)).foldl (fun d g => d.retrip g) d
    d.shutter

/-- A clear naming a set of groups, judged in the tick in which it lands (R258). -/
def Dev.clearGroups (d : Dev) (gs : List Nat) : Dev :=
  let gs := gs.filter (· < 24)
  let acc := d.acceptedClears 24 gs
  let refused := gs.filterMap (fun g =>
    if acc.contains g then none else (d.clearRefusal g acc).map (fun r => (g, r)))
  let d := refused.foldl (fun d e => d.refuseClear e.1 e.2) d
  (acc.foldl (fun d g => d.clearGroup g) d).shutter

/-- VT_SET: sets virtual trips (R257). -/
def Dev.vtSet (d : Dev) (mask : W64) : Dev :=
  (d.forN 64 (fun n d => if bitAt mask n then d.vtRaise n else d)).shutter

/-- VT_CLR: clears virtual trips (R257). -/
def Dev.vtClr (d : Dev) (mask : W64) : Dev :=
  (d.forN 64 (fun n d => if bitAt mask n then d.vtDrop n else d)).shutter

/-- The deglitch of a fault input in nanoseconds (Table 11-11); none applies while the page has EN = 0. [DESIGN CHOICE (log 144)] -/
def Dev.deglitch (d : Dev) (n : Nat) : Nat :=
  if d.en pgFlt then
    (match bitsOf (d.reg (pgFlt + 0x50 + 4 * (n / 16))) (2 * (n % 16)) 2 with | 0 => 0 | 1 => 10 | 2 => 50 | _ => 250)
  else 0

/-- A fault ball takes a level for `lasts` nanoseconds at least (R251): a level that lasts less than the deglitch is ignored; else
FLT_LEVEL and FLT_SEEN follow, and the matrix. [DESIGN CHOICE (log 144)] -/
def Dev.faultInput (d : Dev) (n : Nat) (active : Bool) (lasts : Nat) : Dev :=
  if lasts < d.deglitch n then d
  else
    let d := { d with fltBall := Table.put false d.fltBall n active }
    let d := d.setBit64 pgFlt 0x40 n active
    let d := if active && !d.bit64 pgFlt 0x48 n then (d.setBit64 pgFlt 0x48 n true).irq pgFlt 0 else d
    d.shutter

/-- A reset leaves FLT_LEVEL showing the balls, which need no clock (02 R48, R251). -/
def Dev.fltRefresh (d : Dev) : Dev := d.fltBall.foldl (fun d e => d.setBit64 pgFlt 0x40 e.1 e.2) d

/-- Ones of a majority window. -/
def ones (w : List Bool) : Nat := (w.filter id).length

/-- One sample of a majority filter (R248): window length M, majority N. -/
def majority (m n : Nat) (w : List Bool) (filt s : Bool) : List Bool × Bool :=
  let w := (s :: w).take m
  let one := ones w
  let nul := m - one
  (w, if !filt && n ≤ one then true else if filt && n ≤ nul then false else filt)

/-- The latch source of comparator n (R249). -/
def Dev.cmpLatchSrc (d : Dev) (n : Nat) : Bool :=
  if d.cmpCfg n F.CMP_CFG_LSRC == 1 then d.cmpSynced n else d.cmpFilt n

/-- The latch of comparator n in the present tick (R249): what it was in the tick before unless cleared in this one, or its source. One
that sets from 0 takes the stamp and the interrupt. -/
def Dev.cmpLatchFollow (d : Dev) (n : Nat) : Dev :=
  let p := cmpPage n
  let k := cmpK n
  let was := bitAt (d.atTick.reg (p + 0x78)) k
  let src := d.cmpLatchSrc n
  let now := (was && !d.acted 2 n) || src
  if now && !was && !bitAt (d.reg (p + 0x78)) k then
    ((d.setF p ⟨0x78, k, 1⟩ 1).setR64 p (0x80 + 8 * k) d.count).irq p k
  else d.setF p ⟨0x78, k, 1⟩ (b2n now)

/-- Clears a comparator latch unless its source is active (R249). -/
def Dev.cmpLatchClear (d : Dev) (n : Nat) : Dev := (d.act 2 n).cmpLatchFollow n

/-- Hysteresis in codes (R245). -/
def hystCodes (h : Nat) : Nat := match h with | 0 => 0 | 1 => 4 | 2 => 16 | _ => 64

/-- The raw output of comparator n for an input `v`, in 1/16 of a DAC code above VREFN (R245). -/
def Dev.cmpRawFor (d : Dev) (n : Nat) (v : Int) : Bool :=
  let code := d.f (cmpPage n) (F.CMP_DAC_CODE.at (8 * cmpK n))
  let h := hystCodes (d.cmpCfg n F.CMP_CFG_HYST)
  let raw := (Table.get {} d.cmps n).raw
  if n % 2 = 0 then
    (if raw then decide ((16 * (code - h) : Nat) ≤ v) else decide ((16 * code : Nat) < v))
  else
    (if raw then decide (v ≤ (16 * (min (code + h) 4095) : Nat)) else decide (v < (16 * code : Nat)))

/-- SETTLING of comparator n. -/
def Dev.cmpSettling (d : Dev) (n : Nat) : Bool := bitAt (d.reg (cmpPage n + 0x10)) (cmpK n)

/-- The raw output of comparator n follows its analogue input, and the forcing paths see it at once (R245, R255). While it settles it
holds (R247). -/
def Dev.cmpFollow (d : Dev) (n : Nat) : Dev :=
  if !d.cmpUp n || d.cmpSettling n then d
  else
    let c : Cmp := Table.get {} d.cmps n
    let b := d.cmpRawFor n (Table.get 0 d.ains (n / 2))
    if b = c.raw then d
    else { d with cmps := Table.put {} d.cmps n { c with raw := b, edges := c.edges ++ [(d.tick + 2, b)] } }

/-- The analogue input of comparator n is `v` (R245): both comparators of the input follow it. [DESIGN CHOICE (log 137)] -/
def Dev.comparatorChange (d : Dev) (n : Nat) (v : Int) : Dev :=
  let d := { d with ains := Table.put 0 d.ains (n / 2) v }
  ((d.cmpFollow (2 * (n / 2))).cmpFollow (2 * (n / 2) + 1)).shutter

/-- A write of CMP_DAC_k (R247): the comparator compares its input with the new threshold. [DESIGN CHOICE (log 137)] -/
def Dev.cmpDacWrite (d : Dev) (n code : Nat) : Dev :=
  ((d.setF (cmpPage n) (F.CMP_DAC_CODE.at (8 * cmpK n)) code).cmpFollow n).shutter

/-- The synchronizers of comparator n in a tick: changes two ticks old show, and the latch follows (R248, R249, 12 R277, 04 R105). [DEDUCED (log 55)] -/
def Dev.cmpSync (d : Dev) (n : Nat) : Dev :=
  let c : Cmp := Table.get {} d.cmps n
  if c.edges.isEmpty && c.fastEdges.isEmpty then d
  else
    let own := syncOutOf c.edges d.tick (bitAt (d.reg (cmpPage n + 0x74)) (cmpK n))
    let fast := syncOutOf c.fastEdges d.tick c.fastSync
    let d := { d with cmps := Table.put {} d.cmps n { c with edges := own.2, fastEdges := fast.2, fastSync := fast.1 } }
    let d := d.setF (cmpPage n) ⟨0x74, cmpK n, 1⟩ (b2n own.1)
    (d.cmpLatchFollow n).csLive (n / 24)

/-- The fast comparator routed in the place of comparator n changes (12 R277): its filter sees it through the synchronizer. -/
def Dev.cmpFastEdge (d : Dev) (n : Nat) (b : Bool) : Dev :=
  let c : Cmp := Table.get {} d.cmps n
  { d with cmps := Table.put {} d.cmps n { c with fastEdges := c.fastEdges ++ [(d.tick + 2, b)] } }

/-- A filter sample of comparator n is due (R248): one every 2^K ticks from the enable on. [DEDUCED (log 55)] -/
def Dev.sampleDue (d : Dev) (n : Nat) : Bool :=
  d.cmpUp n && !d.sys.standby && decide ((Table.get ({} : Cmp) d.cmps n).sampleAt ≤ d.tick)

/-- A filter sample of comparator n, and of the fast comparator routed in its place (R248, 12 R277). While the comparator settles its
filtered output holds (R247). -/
def Dev.filterSample (d : Dev) (n : Nat) : Dev :=
  if !d.sampleDue n then d
  else
    let p := cmpPage n
    let k := cmpK n
    let m := d.cmpCfg n F.CMP_CFG_FILT_M
    let nn := d.cmpCfg n F.CMP_CFG_FILT_N
    let c : Cmp := Table.get {} d.cmps n
    let next := d.tick + 2 ^ d.cmpCfg n F.CMP_CFG_FILT_K
    let filt := bitAt (d.reg (p + 0x74)) (8 + k)
    let own := if d.cmpSettling n then (c.window, filt) else majority m nn c.window filt (bitAt (d.reg (p + 0x74)) k)
    let fast := if (d.sdRoute (n / 24) ((n / 2) % 12)).isNone then (c.fastWin, c.fastFilt)
      else majority m nn c.fastWin c.fastFilt c.fastSync
    let d := d.setF p ⟨0x74, 8 + k, 1⟩ (b2n own.2)
    let c' : Cmp := { c with window := own.1, fastWin := fast.1, fastFilt := fast.2, sampleAt := next }
    let d := { d with cmps := Table.put {} d.cmps n c' }
    ((d.cmpLatchFollow n).csLive (n / 24)).shutter

/-- A comparator's settling ends (R247): its output is taken from the input at that time. -/
def Dev.cmpSettled (d : Dev) (n : Nat) (v : Int) : Dev :=
  if !d.cmpUp n || !d.cmpSettling n then d
  else (d.setF (cmpPage n) ⟨0x10, cmpK n, 1⟩ 0).comparatorChange n v

/-- The end of a tick (R248, R255, R258): the filter samples and latch records that were due in it and no command has taken, and the
clears accepted in it. [DESIGN CHOICE (log 145)] -/
def Dev.shutterEnd (d : Dev) : Dev :=
  let d := d.cmps.foldl (fun d e => d.filterSample e.1) d
  let d := d.groups.foldl (fun d e => d.latchRecord e.1) d
  d.clearsEnd

/-- Reload tick of generator g of casement c: the comparator latches it auto-clears (R249). -/
def Dev.cmpAutoClear (d : Dev) (c g : Nat) : Dev :=
  d.forN 24 (fun b d =>
    let n := 24 * c + b
    if d.cmpUp n && d.cmpCfg n F.CMP_CFG_ACLR_EN == 1 && d.cmpCfg n F.CMP_CFG_ACLR_GEN == g then d.cmpLatchClear n
    else d)

/-- A page of comparators is enabled: windows of zeros, and every comparator with CEN = 1 settles (R248, R250). -/
def Dev.cmpEnable (d : Dev) (c j : Nat) : Dev :=
  let p := pgCmp c j
  (d.forN 6 (fun k d =>
    let n := 24 * c + 6 * j + k
    let c : Cmp := { sampleAt := d.tick + 2 ^ d.f p (F.CMP_CFG_FILT_K.at (8 * k)) }
    let d := { d with cmps := Table.put {} d.cmps n c }
    let d := (d.setF p ⟨0x74, k, 1⟩ 0).setF p ⟨0x74, 8 + k, 1⟩ 0
    d.setF p ⟨0x10, k, 1⟩ (b2n (d.on p (F.CMP_CFG_CEN.at (8 * k)))))).csLive c |>.shutter

/-- A page of comparators is disabled: outputs inactive, latches clear (R250). -/
def Dev.cmpDisable (d : Dev) (c j : Nat) : Dev :=
  let p := pgCmp c j
  let d := d.forN 6 (fun k d => { d with cmps := Table.put {} d.cmps (24 * c + 6 * j + k) {} })
  ((((d.setReg (p + 0x74) 0).setReg (p + 0x78) 0).setF p ⟨0x10, 0, 6⟩ 0).csLive c).shutter

/-- The enable check of a comparator page (R250, Table 11-3): offsets and reason codes. -/
def Dev.cmpCheck (d : Dev) (p : Nat) : List (Nat × Nat) :=
  (List.range 6).flatMap (fun k =>
    let m := d.f p (F.CMP_CFG_FILT_M.at (8 * k))
    let n := d.f p (F.CMP_CFG_FILT_N.at (8 * k))
    let o := 0x40 + 8 * k
    (if m = 0 ∨ n = 0 ∨ 12 < d.f p (F.CMP_CFG_FILT_K.at (8 * k)) ∨
        (5 < d.f p (F.CMP_CFG_ACLR_GEN.at (8 * k))) then [(o, 2)] else []) ++
    (if m < n ∨ 2 * n ≤ m then [(o, 0x101)] else [])) ++
  (List.range 3).flatMap (fun i =>
    if d.on p (F.CMP_CFG_CEN.at (16 * i)) && d.on p (F.CMP_CFG_CEN.at (16 * i + 8)) &&
        decide (d.f p (F.CMP_DAC_CODE.at (16 * i)) < d.f p (F.CMP_DAC_CODE.at (16 * i + 8))) then
      [(0x44 + 16 * i, 3)] else [])

/-- The reason a selected comparator gives a group's enable check (R256). [DEDUCED (log 160)] -/
def Dev.cmpRefCheck (d : Dev) (n : Nat) : Option Nat :=
  if !d.domOn (domAna (n / 24 / 8)) then some 7
  else if !d.en (cmpPage n) then some 5
  else if d.cmpCfg n F.CMP_CFG_CEN != 1 then some 0x103 else none

/-- The enable check of a group page (R256, Table 11-9). -/
def Dev.groupCheck (d : Dev) (g : Nat) (expert : Bool) : List (Nat × Nat) :=
  let p := pgGroup g
  ((List.range 384).filterMap (fun n =>
    if bitAt (d.reg (p + 0x48 + 4 * (n / 32))) (n % 32) then
      (d.cmpRefCheck n).map (fun r => (0x48 + 4 * (n / 32), r)) else none)) ++
  (if bitAt (d.reg (p + 0x80)) g then [(0x80, 0x101)] else []) ++
  (if expert then
    ((List.range 8).filterMap (fun v =>
      let i := d.f p (F.SG_VOTE_SEL_SRC.at (4 * v))
      if d.on p (F.SG_VOTE_SEL_VALID.at (4 * v)) && 0x40 ≤ i && i < 0x1C0 then
        (d.cmpRefCheck (i - 0x40)).map (fun r => (0x88 + 4 * v, r)) else none)) ++
    (let valid := ((List.range 8).filter (fun v => d.on p (F.SG_VOTE_SEL_VALID.at (4 * v)))).length
     if d.f p F.SG_VOTE_N = 0 then [(0xA8, 0x102)]
     else if valid < d.f p F.SG_VOTE_N then [(0x88, 0x102)] else [])
   else [])

/-- Both pads of a pair would be driven active by their safe states (Tables 10-7, 11-10); the reserved code drives low (R254). -/
def shootThrough (safeH safeL : Nat) (polH polL : Bool) : Bool :=
  safeLevel safeH == b2n (!polH) && safeLevel safeL == b2n (!polL)

/-- The enable check of a casement source page (R263). -/
def Dev.casSrcCheck (d : Dev) (c : Nat) : List (Nat × Nat) :=
  let p := pgCasSrc c
  (List.range 6).flatMap (fun g =>
    let o := 0x44 + 4 * g
    let h := d.f p (F.CS_PAIR_SAFE_H.at (4 * g))
    let l := d.f p (F.CS_PAIR_SAFE_L.at (4 * g))
    (if h = 3 ∨ l = 3 then [(o, 1)] else []) ++
    (if 23 < d.f p (F.CS_PAIR_GROUP.at (4 * g)) then [(o, 2)] else []) ++
    (if d.live (pgPwm c g) && shootThrough h l (d.on (pgPwm c g) F.PWM_CTRL_POL_H) (d.on (pgPwm c g) F.PWM_CTRL_POL_L)
      then [(o, 0x101)] else [])) ++
  (List.range 64).flatMap (fun q =>
    (if d.f p (F.CS_RCH_SAFE.at (4 * q)) = 3 then [(0x60 + 4 * q, 1)] else []) ++
    (if 23 < d.rchGroup c q then [(0x60 + 4 * q, 2)] else []))

/-- FAULT_OUT is asserted (02 R49): a supply is absent, a reset is in progress or a reset pin low, or FOUT_STAT.ASSERTED. -/
def Dev.faultOut (d : Dev) : Bool :=
  !d.sys.vddAon || !d.sys.vddIo33 || d.sys.porstLow || d.sys.wrstLow || d.sys.reset != .none || d.on pgRst F.FOUT_STAT_ASSERTED

/-- FOUT_STAT.ASSERTED and FORCED follow their sources (02 Table 2-7). -/
def Dev.foutUpdate (d : Dev) : Dev :=
  let d := d.setB pgRst F.FOUT_STAT_FORCED (d.on pgRst F.FOUT_CTRL_FORCE)
  d.setB pgRst F.FOUT_STAT_ASSERTED
    (d.on pgRst F.FOUT_STAT_RESET_HOLD || d.spFailed || d.on pgRst F.FOUT_STAT_FORCED)

/-- A write of FOUT_CTRL (02 R50): FORCE first, then RELEASE, which SP_FAILED or FORCED refuses. [DEDUCED (log 151)] -/
def Dev.foutWrite (d : Dev) (v : W32) : Dev :=
  let d := (d.setB pgRst F.FOUT_CTRL_FORCE (bitAt v 1)).foutUpdate
  if bitAt v 0 then
    (if d.spFailed || d.on pgRst F.FOUT_STAT_FORCED then d.setB pgRst F.FOUT_STAT_REFUSED true
     else (d.setB pgRst F.FOUT_STAT_RESET_HOLD false).foutUpdate)
  else d

/-- The safety pair is declared failed (11 R260, 19 R426): FAULT_OUT is asserted and every group latches with that cause. -/
def Dev.spFail (d : Dev) : Dev :=
  let d := (d.setB pgRst F.FOUT_STAT_SP_FAILED true).foutUpdate
  let d := d.forN 24 (fun g d =>
    if d.latched g then d
    else
      let d := d.setLatch g
      let r : Group := Table.get {} d.groups g
      { d with groups := Table.put {} d.groups g { r with spFail := true } })
  d.shutter

end Sys2Proof.Machine
end

