-- ==== Sys2Proof/Machine/Adc.lean ====
section
/-!
DEFINITION. Sys2Proof/Machine/Adc.lean: SAR cores and sigma-delta inputs (12_adc_and_sigma_delta.md), and
the OTP trims they use (03 R79).
-/
namespace Sys2Proof.Machine

/-- Ticks from a source event to the inbound register (05 Table 5-4): 2.3 ns, 4.0 ns and 6.0 ns, to the cycle. [DEDUCED (log 45)] -/
def deliveryTicks (cls : Nat) : Nat := if cls = 4 then 36 else if cls = 3 then 24 else 14

/-- A value leaves its source for the inbound registers bound to it (05 R125, Table 5-4); it is written at the start of a cycle (05 R126). [DEDUCED (log 45)] -/
def Dev.deliver (d : Dev) (place cls idx val stamp : Nat) : Dev :=
  { d with deliveries := d.deliveries ++ [⟨place, cls, idx, val, stamp, (d.tick + deliveryTicks cls + 1) / 2 * 2, false⟩] }

/-- The calibration pair in force at the start of tick t (03 R81): the old values of the earliest write landing in
or after t, else those held now. -/
def calAt (log : List CalLog) (t gain ofs : Nat) : Nat × Nat :=
  match (log.filter (fun e => t ≤ e.tick)).getLast? with
  | some e => (e.gain, e.ofs)
  | none => (gain, ofs)

/-- A core's page of device core number n = 4c + j. -/
def adcPage (n : Nat) : Nat := pgAdc (n / 4) (n % 4)

/-- A core's state. -/
def Dev.adc (d : Dev) (n : Nat) : Adc := Table.get {} d.adcs n

/-- Writes a core's state. -/
def Dev.setAdc (d : Dev) (n : Nat) (a : Adc) : Dev := { d with adcs := Table.put {} d.adcs n a }

/-- The user calibration of an input is about to be written: its old values are logged with the tick (03 R81). -/
def Dev.adcCalWrite (d : Dev) (n m : Nat) : Dev :=
  let a := d.adc n
  let old := Table.get [] a.calLog m
  let e : CalLog := ⟨d.tick, d.f (adcPage n) (F.ADC_UGAIN_UGAIN.at (8 * m)), d.f (adcPage n) (F.ADC_UOFS_UOFS.at (8 * m))⟩
  d.setAdc n { a with calLog := Table.put [] a.calLog m (e :: old.filter (fun x => d.tick < x.tick + 400)) }

/-- The scan entry E_p. -/
def Dev.scanEntry (d : Dev) (n p : Nat) : Nat :=
  d.f (adcPage n) (match p with | 0 => F.ADC_SCAN_E_0 | 1 => F.ADC_SCAN_E_1 | _ => F.ADC_SCAN_E_2)

/-- A start holds the input (R267, R268): a named input or the next of the scan sequence. -/
def Dev.adcHold (d : Dev) (n sel prio : Nat) : Dev :=
  let p := adcPage n
  let a := d.adc n
  let len := max (d.f p F.ADC_SCAN_LEN) 1
  let m := if sel = 3 then d.scanEntry n a.ptr else sel
  let ptr := if sel = 3 then (a.ptr + 1) % len else a.ptr
  let short := m != a.tracked && !d.on p F.ADC_STATUS_ACQ_SHORT
  let d := if short then d.setB p F.ADC_STATUS_ACQ_SHORT true else d
  let avg := d.f p F.ADC_CTRL_AVG
  let conv : AdcConv := ⟨m, d.count, d.tick, 2 ^ avg - 1, avg, 0⟩
  let d := d.setAdc n { a with
    convs := a.convs ++ [conv]
    freeAt := d.tick + 200 * 2 ^ avg
    ptr := ptr
    tracked := (if sel = 3 then d.scanEntry n ptr else m)
    start := some (d.tick, prio)
    before := (a.ptr, a.tracked)
    short := short }
  d.setB p F.ADC_STATUS_CONVERTING true

/-- A start at core n of priority `prio` (0 launch action, 1 and 2 the PWM triggers; R267): it holds, is part of the
tick's one conversion, or is dropped as an overrun. -/
def Dev.adcStart (d : Dev) (n sel prio : Nat) : Dev :=
  let p := adcPage n
  let a := d.adc n
  if !d.live p then d
  else match a.start with
    | some (t, q) =>
      if t = d.tick then
        if prio < q then
          let d := if a.short then d.setB p F.ADC_STATUS_ACQ_SHORT false else d
          (d.setAdc n { a with convs := a.convs.dropLast, ptr := a.before.1, tracked := a.before.2 }).adcHold n sel prio
        else d
      else if d.tick < a.freeAt then
        if a.overTick = some d.tick then d
        else
          let d := ((d.setB p F.ADC_STATUS_OVERRUN true).irq p 0).inc p F.ADC_OVR_CNT_OVR
          d.setAdc n { a with overTick := some d.tick }
      else d.adcHold n sel prio
    | none => d.adcHold n sel prio

/-- An event of kind `kind` (0 zero, 1 period, 2 compare) of generator g of casement c reaches the PWM triggers (R266). -/
def Dev.adcTrigger (d : Dev) (c g kind : Nat) : Dev :=
  d.forN 8 (fun i d =>
    let n := 4 * c + i / 2
    let t := i % 2
    let p := adcPage n
    if d.live p && d.on p (F.ADC_TRIG_EN.at (4 * t)) && d.f p (F.ADC_TRIG_GEN.at (4 * t)) == g &&
        d.f p (F.ADC_TRIG_KIND.at (4 * t)) == kind then
      let a := d.adc n
      let k := if t = 0 then a.presc0 else a.presc1
      let k' := if k = 0 then d.f p (F.ADC_TRIG_PRESC.at (4 * t)) else k - 1
      let d := d.setAdc n (if t = 0 then { a with presc0 := k' } else { a with presc1 := k' })
      if k = 0 then d.adcStart n (d.f p (F.ADC_TRIG_INPUT.at (4 * t))) (1 + t) else d
    else d)

/-- Word w of a factory calibration image without corrections: gains 1.0, the CRC of the image in its last word (03 R79). [DESIGN CHOICE (log 10)] -/
def Otp.fcalDefault (w : Nat) : W32 :=
  if 16 ≤ w ∧ w < 144 ∧ w % 2 = 0 then 0x40000000 else if w = 2047 then 0xd079d9c4 else 0

/-- Word w of a factory calibration image. -/
def Otp.fcalWord (o : Otp) (w : Nat) : W32 := Table.get (Otp.fcalDefault w) o.fcal w

/-- The factory trim of core n (R264, 03 Table 3-13): FGAIN, Q2.30, and FOFS, Q1.31, of its entry of the image. -/
def Otp.adcTrim (o : Otp) (n : Nat) : Int × Int :=
  (signedOf 32 (o.fcalWord (16 + 2 * n)).toNat, signedOf 32 (o.fcalWord (17 + 2 * n)).toNat)

/-- The correction of one conversion (R265): mid-scale mapping, factory trim, user calibration, saturating at each
step. `fg` and `fo` are FGAIN (Q2.30) and FOFS (Q1.31), `ug` UGAIN (Q4.28), `uo` UOFS (Q1.31). [DEDUCED (log 59)] -/
def adcCorrect (code : Nat) (fg fo ug uo : Int) : Int :=
  let x0 : Int := ((code : Int) - 32768) * 65536
  let x1 := satI 32 (rne (fg * x0) 30 + fo)
  satI 32 (rne (ug * x1) 28 + uo)

/-- A conversion of raw code `code` ends, 200 ticks after its hold (R265). [DEDUCED (log 59)] -/
def Dev.adcConverted (d : Dev) (n code : Nat) (v : AdcConv) : Dev × Int :=
  let p := adcPage n
  let d := if code = 0 ∨ code = 65535 then (d.setB p F.ADC_STATUS_CLIP true).irq p 1 else d
  let cal := calAt (Table.get [] (d.adc n).calLog v.input) (v.lastHold + 200)
    (d.f p (F.ADC_UGAIN_UGAIN.at (8 * v.input))) (d.f p (F.ADC_UOFS_UOFS.at (8 * v.input)))
  let t := d.otp.adcTrim n
  (d, adcCorrect code t.1 t.2 (signedOf 32 cal.1) (signedOf 32 cal.2))

/-- The oldest conversion of a core with holds still to come. -/
def Adc.bursting (a : Adc) : Option AdcConv := a.convs.find? (fun v => v.holdsLeft != 0)

/-- A burst holds its input `m` again 200 ticks after the previous hold (R269), whose raw code was `code`. [DESIGN CHOICE (log 137)] -/
def Dev.adcBurstHold (d : Dev) (n m code : Nat) : Dev :=
  let a := d.adc n
  match a.bursting with
  | none => d
  | some v =>
    if v.input ≠ m ∨ d.tick < v.lastHold + 200 ∨ !d.live (adcPage n) then d
    else
      let r := d.adcConverted n code v
      r.1.setAdc n { a with convs := a.convs.map (fun x =>
        if x = v then { v with lastHold := d.tick, holdsLeft := v.holdsLeft - 1, sum := v.sum + r.2 } else x) }

/-- A strobe of a conversion of input `m`, 216 ticks after its last hold, whose raw code was `code` (R265, R269). [DESIGN CHOICE (log 137)] -/
def Dev.adcStrobe (d : Dev) (n m code : Nat) : Dev :=
  let p := adcPage n
  let a := d.adc n
  match a.convs with
  | [] => d
  | v :: rest =>
    if v.input ≠ m ∨ v.holdsLeft ≠ 0 ∨ d.tick < v.lastHold + 216 ∨ !d.live p then d
    else
      let r := d.adcConverted n code v
      let res := codeOf 32 (rne (v.sum + r.2) v.avg)
      let d := r.1.setAdc n { a with convs := rest }
      let d := d.setB p F.ADC_STATUS_CONVERTING (!rest.isEmpty)
      let d := d.setF p (F.ADC_RES_RES.at (4 * v.input)) res
      let d := d.setR64 p (0x80 + 8 * v.input) v.stamp
      let d := d.inc p F.ADC_CONV_CNT_CONV
      let i := 3 * (n % 4) + v.input
      (d.pulse (evCas (n / 4) (18 + i))).deliver (n / 4) 0 i res v.stamp

/-- Enabling an ADC page: the pointer at E_0, which the mux tracks, and fresh prescalers (R266, R268). -/
def Dev.adcEnable (d : Dev) (n : Nat) : Dev :=
  d.setAdc n { (d.adc n) with convs := [], ptr := 0, tracked := d.scanEntry n 0, presc0 := 0, presc1 := 0, start := none }

/-- Clearing EN of an ADC page: conversions in progress are discarded (R270). -/
def Dev.adcDisable (d : Dev) (n : Nat) : Dev :=
  (d.setAdc n { (d.adc n) with convs := [], freeAt := 0, start := none }).setB (adcPage n) F.ADC_STATUS_CONVERTING false

/-- The enable check of an ADC page (R270). -/
def Dev.adcCheck (d : Dev) (n : Nat) : List (Nat × Nat) :=
  let p := adcPage n
  let len := d.f p F.ADC_SCAN_LEN
  (if Table.get false d.sys.cmpOnly (n / 32) then [(8, 0xB)] else []) ++
  (if 4 < d.f p F.ADC_CTRL_AVG then [(0x40, 1)] else []) ++
  (if len = 0 ∨ (List.range len).any (fun i => d.scanEntry n i == 3) then [(0x44, 2)] else []) ++
  (List.range 2).flatMap (fun t =>
    (if d.f p (F.ADC_TRIG_KIND.at (4 * t)) = 3 then [(0x48 + 4 * t, 1)] else []) ++
    (if 5 < d.f p (F.ADC_TRIG_GEN.at (4 * t)) then [(0x48 + 4 * t, 2)] else []))

/-- A sigma-delta input's state, k of casement c. -/
def Dev.sd (d : Dev) (c k : Nat) : SdIn := Table.get {} d.sdIns (6 * c + k)

/-- Writes a sigma-delta input's state. -/
def Dev.setSd (d : Dev) (c k : Nat) (s : SdIn) : Dev := { d with sdIns := Table.put {} d.sdIns (6 * c + k) s }

/-- Ones among the first `r` bits, and the sums of every shorter start: one boxcar stage of length r over a list. -/
def boxcar (r : Nat) : List Nat → List Nat
  | [] => []
  | x :: xs => ((x :: xs).take r).foldl (· + ·) 0 :: boxcar r xs

/-- The sinc filter sum of order `ord` and length `r` over bits, latest first (R274, R276). -/
def sincSum (ord r : Nat) (bits : List Bool) : Nat :=
  ((List.range ord).foldl (fun l _ => boxcar r l) (bits.map b2n)).headD 0

/-- A filter sum s in 0 .. n normalised to (2s - n) / n in Q1.31, rounded to nearest, saturated (R274). -/
def sincQ31 (s n : Nat) : Int := satI 32 (rneDiv ((2 * (s : Int) - n) * 2 ^ 31) n)

/-- A modulator clock's state, j of casement c. -/
def Dev.sdClk (d : Dev) (c j : Nat) : SdClk := Table.get {} d.sdClks (2 * c + j)

/-- Writes a modulator clock's state. -/
def Dev.setSdClk (d : Dev) (c j : Nat) (k : SdClk) : Dev := { d with sdClks := Table.put {} d.sdClks (2 * c + j) k }

/-- Ticks of a period of a modulator clock (R272). -/
def Dev.sdPeriod (d : Dev) (c j : Nat) : Nat := 8 * d.f (pgSd c) (F.SD_CLK_DIV.at (4 * j))

/-- The level of SDC_cc_j (R272): high for floor(DIV / 2) peripheral cycles of each period. -/
def Dev.sdcLevel (d : Dev) (c j : Nat) : Bool :=
  match (d.sdClk c j).first with
  | some t => (d.sdClk c j).running && decide ((d.tick - t) % d.sdPeriod c j < 8 * (d.f (pgSd c) (F.SD_CLK_DIV.at (4 * j)) / 2))
  | none => false

/-- The modulator clock of an input. -/
def Dev.sdSel (d : Dev) (c k : Nat) : Nat := d.f (pgSd c) (F.SD_CFG_CLK.at (32 * k))

/-- An enabled input of a live page, with its clock running. -/
def Dev.sdActive (d : Dev) (c k : Nat) : Bool :=
  d.live (pgSd c) && d.on (pgSd c) (F.SD_CFG_EN.at (32 * k)) && (d.sdClk c (d.sdSel c k)).running

/-- The tick of sample instant i of input k (R273): SDLY peripheral cycles after rising edge i of its clock. -/
def Dev.sdInstant (d : Dev) (c k i : Nat) : Nat :=
  ((d.sdClk c (d.sdSel c k)).first).getD 0 + 8 * d.f (pgSd c) (F.SD_CFG_SDLY.at (32 * k)) + i * d.sdPeriod c (d.sdSel c k)

/-- How many sample instants of input k there have been up to tick t (R273). -/
def Dev.sdInstants (d : Dev) (c k t : Nat) : Nat :=
  let t0 := d.sdInstant c k 0
  if (d.sdClk c (d.sdSel c k)).first.isNone || decide (t < t0) then 0 else (t - t0) / d.sdPeriod c (d.sdSel c k) + 1

/-- A modulator clock makes its first rising edge (R272). [DESIGN CHOICE (log 60)] -/
def Dev.sdClockStart (d : Dev) (c j : Nat) : Dev :=
  let k := d.sdClk c j
  match k.first with
  | some t => if d.live (pgSd c) && decide (t ≤ d.tick) then d.setSdClk c j { k with running := true } else d
  | none => d

/-- The clocks whose first edge was due in a tick, at its end. -/
def Dev.sdEnd (d : Dev) : Dev :=
  d.sdClks.foldl (fun d e => if e.2.running then d else d.sdClockStart (e.1 / 2) (e.1 % 2)) d

/-- The decimation of input k restarts at the first sample instant at or after this tick (R275): a word cut short is discarded; a restart
where the count is at bit 0, or after the word's last bit, changes nothing. -/
def Dev.sdAlign (d : Dev) (c k : Nat) : Dev :=
  let s := d.sd c k
  let i := d.sdInstants c k (d.tick - 1)
  let r := d.f (pgSd c) (F.SD_DEC_R.at (32 * k))
  if i = s.next + 1 ∨ i + r = s.next + 1 then d else d.setSd c k { s with next := i + r - 1 }

/-- A zero event of generator g reaches the clocks that wait for it (R272), whose first edge begins the first peripheral cycle at or after
it, and the inputs it aligns (R275). -/
def Dev.sdZero (d : Dev) (c g : Nat) : Dev :=
  let p := pgSd c
  if !d.live p then d
  else
    let d := d.forN 2 (fun j d =>
      if d.on p (F.SD_CLK_EN.at (4 * j)) && d.on p (F.SD_CLK_START_SYNC.at (4 * j)) &&
          d.f p (F.SD_CLK_START_GEN.at (4 * j)) == g && (d.sdClk c j).first.isNone then
        d.setSdClk c j { first := some ((d.tick + 7) / 8 * 8) }
      else d)
    d.forN 6 (fun k d =>
      if d.on p (F.SD_CFG_EN.at (32 * k)) && d.on p (F.SD_CFG_ALIGN_EN.at (32 * k)) &&
          d.f p (F.SD_CFG_ALIGN_GEN.at (32 * k)) == g && (d.sdClk c (d.sdSel c k)).running then d.sdAlign c k
      else d)

/-- The calibration of input k is about to be written (03 R81). -/
def Dev.sdCalWrite (d : Dev) (c k : Nat) : Dev :=
  let s := d.sd c k
  let e : CalLog := ⟨d.tick, d.f (pgSd c) (F.SD_UGAIN_UGAIN.at (32 * k)), d.f (pgSd c) (F.SD_UOFS_UOFS.at (32 * k))⟩
  d.setSd c k { s with calLog := e :: s.calLog.filter (fun x => d.tick < x.tick + 400) }

/-- An output of the fast comparator of input k (h: 0 FC_HI, 1 FC_LO); a filter routed to it sees a change through its synchronizer
(R277). -/
def Dev.sdFastBit (d : Dev) (c k h : Nat) (b : Bool) : Dev :=
  let p := pgSd c
  if bitAt (d.reg (p + 0x170)) (8 * h + k) == b then d
  else
    let d := d.setF p ⟨0x170, 8 * h + k, 1⟩ (b2n b)
    if d.on p (F.SD_FC_ROUTE_EN.at (32 * k)) then d.cmpFastEdge (24 * c + 2 * d.f p (F.SD_FC_ROUTE.at (32 * k)) + h) b else d

/-- FC_HI and FC_LO of input k as its fast comparator outputs (R276, R273: both are active while STUCK). -/
def Dev.sdFastSet (d : Dev) (c k : Nat) (hi lo : Bool) : Dev :=
  let st := bitAt (d.reg (pgSd c + 0x10)) k
  ((d.sdFastBit c k 0 (hi || st)).sdFastBit c k 1 (lo || st)).shutter

/-- The fast comparator of input k over the samples that are 16 ticks old (R276). -/
def Dev.sdFastNow (d : Dev) (c k : Nat) : Dev :=
  let p := pgSd c
  let s := d.sd c k
  let m := d.sdInstants c k (d.tick - 16)
  if !d.on p (F.SD_FC_FC_EN.at (32 * k)) then d.sdFastSet c k false false
  else if m = 0 ∨ d.tick < 16 ∨ s.got < m then d
  else
    let osr := 4 * 2 ^ d.f p (F.SD_FC_OSR.at (32 * k))
    let ord := 1 + d.f p (F.SD_FC_ORD.at (32 * k))
    let v := sincQ31 (sincSum ord osr (s.bits.drop (s.got - m))) (osr ^ ord)
    d.sdFastSet c k (decide (signedOf 32 (d.f p (F.SD_FC_HI_HI.at (32 * k))) < v))
      (decide (v < signedOf 32 (d.f p (F.SD_FC_LO_LO.at (32 * k)))))

/-- One sample of SDD at input k (R273): STUCK_LEN equal samples set STUCK, and a sample that differs clears it. -/
def Dev.sdSample (d : Dev) (c k : Nat) (b : Bool) : Dev :=
  let p := pgSd c
  let s := d.sd c k
  let bits := (b :: s.bits).take 800
  let d := d.setSd c k { s with bits := bits, got := s.got + 1 }
  let len := d.f p (F.SD_CFG_STUCK_LEN.at (32 * k))
  if bitAt (d.reg (p + 0x10)) k then
    (if b = s.stuckVal then d else (d.setF p ⟨0x10, k, 1⟩ 0).sdFastNow c k)
  else if len ≠ 0 ∧ len ≤ bits.length ∧ (bits.take len).all (· == b) then
    let d := ((d.setF p ⟨0x10, k, 1⟩ 1).setF p ⟨0x10, 6 + k, 1⟩ 1).irq p 0
    (d.setSd c k { d.sd c k with stuckVal := b }).sdFastSet c k true true
  else d

/-- Further samples of input k, the latest first, one for each sample instant; a stream that runs ahead of the instants is none. [DESIGN CHOICE (log 60, 137)] -/
def Dev.sdSamples (d : Dev) (c k : Nat) (bits : List Bool) : Dev :=
  if !d.sdActive c k || decide (d.sdInstants c k d.tick < (d.sd c k).got + bits.length) then d
  else bits.foldr (fun b d => d.sdSample c k b) d

/-- A sinc3 word completes 32 ticks after the sample instant of its last bit (R274): the first two after the enable are discarded. [DESIGN CHOICE (log 60)] -/
def Dev.sdWord (d : Dev) (c k : Nat) (bits : List Bool) : Dev :=
  let p := pgSd c
  let d := d.sdSamples c k bits
  let s := d.sd c k
  let r := d.f p (F.SD_DEC_R.at (32 * k))
  let last := d.sdInstant c k s.next
  if !d.sdActive c k || decide (s.got ≤ s.next) || decide (d.tick < last + 32) then d
  else if s.skip ≠ 0 then d.setSd c k { s with skip := s.skip - 1, next := s.next + r }
  else
    let x0 := sincQ31 (sincSum 3 r (s.bits.drop (s.got - 1 - s.next))) (r * r * r)
    let cal := calAt s.calLog last (d.f p (F.SD_UGAIN_UGAIN.at (32 * k))) (d.f p (F.SD_UOFS_UOFS.at (32 * k)))
    let x := codeOf 32 (satI 32 (rne (signedOf 32 cal.1 * x0) 28 + signedOf 32 cal.2))
    let d := d.setSd c k { s with next := s.next + r }
    let d := d.setF p (F.SD_RES_RES.at (32 * k)) x
    let d := d.setR64 p (0x140 + 8 * k) d.count
    (d.pulse (evCas c (42 + k))).deliver c 1 k x d.count

/-- The fast comparator filter crosses a threshold (R276), 16 ticks after the sample that carries it across. -/
def Dev.sdFast (d : Dev) (c k : Nat) (bits : List Bool) : Dev :=
  let d := d.sdSamples c k bits
  if !d.sdActive c k then d else d.sdFastNow c k

/-- STUCK_LEN equal samples (R273). -/
def Dev.sdStuck (d : Dev) (c k : Nat) (bits : List Bool) : Dev := d.sdSamples c k bits

/-- A sample differs from the stuck value (R273): STUCK clears and the fast outputs follow their filter again. -/
def Dev.sdStuckEnd (d : Dev) (c k : Nat) (b : Bool) : Dev := d.sdSamples c k [b]

/-- Enabling the sigma-delta page: every filter starts anew, and a clock without START_SYNC makes its first edge in the first peripheral
cycle after it (R272, R274). -/
def Dev.sdEnable (d : Dev) (c : Nat) : Dev :=
  let p := pgSd c
  let d := d.forN 6 (fun k d => d.setSd c k { next := d.f p (F.SD_DEC_R.at (32 * k)) - 1 })
  (d.forN 2 (fun j d => d.setSdClk c j
    { first := if d.on p (F.SD_CLK_EN.at (4 * j)) && !d.on p (F.SD_CLK_START_SYNC.at (4 * j)) then some ((d.tick / 8 + 1) * 8)
        else none })).shutter

/-- Input k when a halt ends (22 Table 22-9): its filters are cleared, and the first two words are discarded. -/
def Dev.sdResume (d : Dev) (c k : Nat) : Dev :=
  if d.live (pgSd c) then
    d.setSd c k { d.sd c k with skip := 2, bits := [], next := d.sdInstants c k d.tick + d.f (pgSd c) (F.SD_DEC_R.at (32 * k)) - 1 }
  else d

/-- Clearing EN of the sigma-delta page: clocks stop and every filter is cleared (R278). -/
def Dev.sdDisable (d : Dev) (c : Nat) : Dev :=
  let d := d.forN 6 (fun k d => d.setSd c k {})
  let d := d.forN 2 (fun j d => d.setSdClk c j {})
  let d := d.setF (pgSd c) F.SD_STATUS_STUCK 0
  (d.forN 6 (fun k d => (d.sdFastBit c k 0 false).sdFastBit c k 1 false)).shutter

/-- The enable check of a sigma-delta page (R278, Table 12-5). -/
def Dev.sdCheck (d : Dev) (c : Nat) : List (Nat × Nat) :=
  let p := pgSd c
  let g := fun (f : Fld) k => d.f p (f.at (32 * k))
  (if Table.get false d.sys.cmpOnly (c / 8) then [(8, 0xB)] else []) ++
  (List.range 2).flatMap (fun j =>
    if d.f p (F.SD_CLK_DIV.at (4 * j)) < 15 ∨ 5 < d.f p (F.SD_CLK_START_GEN.at (4 * j)) then [(0x40 + 4 * j, 2)] else []) ++
  (List.range 6).flatMap (fun k =>
    let o := 0x80 + 32 * k
    let st := g F.SD_CFG_STUCK_LEN k
    (if 5 < g F.SD_CFG_ALIGN_GEN k ∨ (1 ≤ st ∧ st < 16) then [(o, 2)] else []) ++
    (if d.f p (F.SD_CLK_DIV.at (4 * g F.SD_CFG_CLK k)) ≤ g F.SD_CFG_SDLY k then [(0x40 + 4 * g F.SD_CFG_CLK k, 2)] else []) ++
    (if g F.SD_CFG_EN k = 1 ∧ d.f p (F.SD_CLK_EN.at (4 * g F.SD_CFG_CLK k)) = 0 then
      [(0x40 + 4 * g F.SD_CFG_CLK k, 0x101)] else []) ++
    (if g F.SD_DEC_R k < 16 ∨ 256 < g F.SD_DEC_R k then [(o + 4, 2)] else []) ++
    (if 11 < g F.SD_FC_ROUTE k then [(o + 0x10, 2)] else []) ++
    (if g F.SD_FC_ROUTE_EN k = 1 ∧ g F.SD_FC_FC_EN k = 0 then [(o + 0x10, 0x102)] else []) ++
    (if g F.SD_FC_FC_EN k = 1 ∧ signedOf 32 (g F.SD_FC_HI_HI k) < signedOf 32 (g F.SD_FC_LO_LO k) then
      [(o + 0x14, 3)] else []) ++
    (if g F.SD_FC_ROUTE_EN k = 1 then
      (match (List.range 6).find? (fun j => j != k && g F.SD_FC_ROUTE_EN j == 1 && g F.SD_FC_ROUTE j == g F.SD_FC_ROUTE k) with
        | some j => [(0x90 + 32 * min j k, 8)]
        | none => [])
     else []))

end Sys2Proof.Machine
end

