-- ==== Sys2Proof/Config.lean ====
section
/-!
DEFINITION. Sys2Proof/Config.lean: what the spec leaves open, as constants without a body. Nothing can evaluate
them, so a claim holds whatever they are.
-/
namespace Sys2Proof

/-- A free value of 64 bits for each index of the state's counter `fresh`. [DESIGN CHOICE (log 7)] -/
opaque Config.freeValue : Nat → BitVec 64

/-- The error of a TRIG result in units of 2^-31, before it is limited to the accuracy of 05 R110. [DESIGN CHOICE (log 41)] -/
opaque Config.trigError : Nat → Nat → Nat → Nat → Int

/-- ATAN2 of (0, 0), which has no exact value (06 Table 6-5). [DESIGN CHOICE (log 42)] -/
opaque Config.atanOrigin : BitVec 32

/-- The 192 bits of ROM word k (06 R159, 07 R506). [DESIGN CHOICE (log 23)] -/
opaque Config.romWord : Nat → BitVec 192

/-- Which word of its range a template issues as its k-th (07 R175): template, k. [DESIGN CHOICE (log 23)] -/
opaque Config.romStep : Nat → Nat → Nat

/-- As which of its words a template issues the load of a context word (07 R184, R506): template, context word. [DESIGN CHOICE (log 25)] -/
opaque Config.romLoadStep : Nat → Nat → Nat

/-- As which of its words a template issues its TBL (07 R506). [DESIGN CHOICE (log 25)] -/
opaque Config.romTblStep : Nat → Nat

/-- Which words of the prologue of 0x0003 issue INTEG READ (0) and the MAC1 of fpart (1) (07 R184, R506). [DESIGN CHOICE (log 23)] -/
opaque Config.romPrologue : Nat → Nat

/-- The boot ROM's bytes (01 Table 1-1: its content is not in the spec). [DESIGN CHOICE (log 136)] -/
opaque Config.bootRomByte : Nat → BitVec 8


/-- Sign and fraction bits of the default quiet NaN of Sahxel arithmetic, which the spec names without giving its bits (15 R336). [DESIGN CHOICE (log 83)] -/
opaque Config.defaultNan : BitVec 52

end Sys2Proof
end

