-- ==== Sys2Proof/Machine/Fieldbus.lean ====
section
/-!
DEFINITION. Sys2Proof/Machine/Fieldbus.lean: CAN FD, xSPI and I2C (21_host_and_network_interfaces.md R466-R471).
-/
namespace Sys2Proof.Machine

/-- A CAN FD controller's state. -/
def Dev.can (d : Dev) (m : Nat) : Can := Table.get {} d.cans m

/-- Writes a controller's state. -/
def Dev.setCan (d : Dev) (m : Nat) (x : Can) : Dev := { d with cans := Table.put {} d.cans m x }

/-- The offset of message buffer b from its page's buffer 0. -/
def mbOfs (b : Nat) : Nat := 0x60 * b

/-- A field of a message buffer. -/
def Dev.mbF (d : Dev) (m b : Nat) (f : Fld) : Nat := d.f (pgCan m) (f.at (mbOfs b))

/-- STATE (Table 21-10). -/
def Dev.canState (d : Dev) (m : Nat) : Nat := d.f (pgCan m) F.CAN_STATUS_STATE

/-- STATE changes and IRQ_PEND[2] with it (R467). -/
def Dev.canGo (d : Dev) (m s : Nat) : Dev :=
  if d.canState m = s then d else (d.setF (pgCan m) F.CAN_STATUS_STATE s).irq (pgCan m) 2

/-- Error active or error passive, by the counters (ISO 11898-1). [DEDUCED (log 113)] -/
def Dev.canCounters (d : Dev) (m : Nat) : Nat :=
  if 128 ≤ d.f (pgCan m) F.CAN_ERRC_TEC ∨ d.on (pgCan m) F.CAN_ERRC_RP = true then 1 else 0

/-- On the bus, STATE follows the counters. [DEDUCED (log 113)] -/
def Dev.canFollow (d : Dev) (m : Nat) : Dev := if d.canState m < 2 then d.canGo m (d.canCounters m) else d

/-- The controller takes part in the bus: enabled and error active or passive. -/
def Dev.canOn (d : Dev) (m : Nat) : Bool := d.live (pgCan m) && decide (d.canState m < 2) && !d.clocksStill

/-- A frame's end after EN was cleared takes the controller off the bus (R467). -/
def Dev.canLeave (d : Dev) (m : Nat) : Dev :=
  if d.en (pgCan m) || (d.can m).tx.isSome then d
  else (d.setCan m { tecOver := false }).canGo m 3

/-- Data bytes a DLC names (ISO 11898-1). -/
def dlcBytes (fdf : Bool) (n : Nat) : Nat :=
  if n ≤ 8 then n
  else if !fdf then 8
  else match n with | 9 => 12 | 10 => 16 | 11 => 20 | 12 => 24 | 13 => 32 | 14 => 48 | _ => 64

/-- Payload bytes of a frame, none in a remote frame. -/
def CanFrame.bytes (f : CanFrame) : Nat := if f.rtr then 0 else dlcBytes f.fdf f.dlc.val

/-- A receive buffer would accept a frame, but for its RXFULL bit (R468). -/
def Dev.mbAccepts (d : Dev) (m b : Nat) (f : CanFrame) : Bool :=
  d.mbF m b F.MB_CFG_EN == 1 && d.mbF m b F.MB_CFG_DIR == 0 && d.mbF m b F.MB_CFG_IDE == b2n f.ide &&
    (f.id.toNat ^^^ d.mbF m b F.MB_ID_ID) &&& d.mbF m b F.MB_MASK_MASK == 0 &&
    (!f.rtr || d.mbF m b F.MB_CFG_RTR == 1)

/-- Stores a frame in a buffer with its stamp (R466, R468). -/
def Dev.canStore (d : Dev) (m b : Nat) (f : CanFrame) (sof : Nat) : Dev :=
  let p := pgCan m
  let o := p + 0x100 + mbOfs b
  let d := d.setReg (o + 4) (BitVec.ofNat 32 f.id.toNat)
  let d := d.setReg (o + 0xC) (BitVec.ofNat 32
    (f.dlc.val + b2n f.fdf * 16 + b2n (f.fdf && f.brs) * 32 + b2n (f.fdf && f.esi) * 64 + b2n f.rtr * 128))
  let l := f.data.take f.bytes
  let d := d.forN 16 (fun w d => d.setReg (o + 0x20 + 4 * w) (BitVec.ofNat 32 (valueLE ((l.drop (4 * w)).take 4))))
  let d := d.setR64 o 0x10 sof
  (d.setF p ⟨0x60, b, 1⟩ 1).irq p 1

/-- A valid frame is stored, lost or ignored (R468). -/
def Dev.canHolds (d : Dev) (m : Nat) (f : CanFrame) (sof : Nat) : Dev :=
  let p := pgCan m
  match (List.range 32).find? (fun b => d.mbAccepts m b f && !bitAt (d.reg (p + 0x60)) b) with
  | some b => d.canStore m b f sof
  | none =>
    if (List.range 32).any (fun b => d.mbAccepts m b f) then (d.inc p F.CAN_RXLOST_LOST).irq p 3 else d

/-- A successful reception lowers REC (ISO 11898-1): from above 127 to a value from 119 to 127 that it leaves open. [DESIGN CHOICE (log 114)] -/
def Dev.canRxOk (d : Dev) (m : Nat) : Dev :=
  let p := pgCan m
  let r := d.f p F.CAN_ERRC_REC
  if d.on p F.CAN_ERRC_RP then
    let (i, d) := d.takeFresh
    (d.setB p F.CAN_ERRC_RP false).setF p F.CAN_ERRC_REC (119 + (Config.freeValue i).toNat % 9)
  else if r = 0 then d else d.setF p F.CAN_ERRC_REC (r - 1)

/-- CAN_FRAME_RECEIVE (R466, R468): a valid frame of another node, with the count of its start of frame. -/
def Dev.canReceive (d : Dev) (m : Nat) (f : CanFrame) (sof : Nat) : Dev :=
  if !d.canOn m || d.f (pgCan m) F.CAN_CTRL_MODE == 2 || (f.fdf && !d.on (pgCan m) F.CAN_CTRL_FD_EN) then d
  else ((d.canHolds m f sof).canRxOk m).canFollow m

/-- The order of arbitration (ISO 11898-1): the lower wins. Base identifier, RTR or SRR, IDE, identifier extension, RTR. -/
def Dev.canRank (d : Dev) (m b : Nat) : Nat :=
  let id := d.mbF m b F.MB_ID_ID
  let rtr := d.mbF m b F.MB_CFG_RTR * (1 - d.mbF m b F.MB_CFG_FDF)
  if d.mbF m b F.MB_CFG_IDE = 1 then
    id / 2 ^ 18 * 2 ^ 21 + 2 ^ 20 + 2 ^ 19 + id % 2 ^ 18 * 2 + rtr
  else id / 2 ^ 18 * 2 ^ 21 + rtr * 2 ^ 20

/-- The buffer the controller offers (R468). -/
def Dev.canOffer (d : Dev) (m : Nat) : Option Nat :=
  ((List.range 32).filter (fun b =>
    bitAt (d.reg (pgCan m + 0x54)) b && d.mbF m b F.MB_CFG_EN == 1 && d.mbF m b F.MB_CFG_DIR == 1)).foldl (fun a b =>
      match a with
      | none => some b
      | some x => if d.canRank m b < d.canRank m x then some b else some x) none

/-- The frame a transmit buffer sends. -/
def Dev.canFrameOf (d : Dev) (m b : Nat) : CanFrame :=
  let fdf := d.mbF m b F.MB_CFG_FDF == 1
  let o := pgCan m + 0x100 + mbOfs b
  { ide := d.mbF m b F.MB_CFG_IDE == 1
    id := BitVec.ofNat 29 (d.mbF m b F.MB_ID_ID)
    fdf := fdf
    brs := d.mbF m b F.MB_CFG_BRS == 1
    esi := d.canState m == 1
    rtr := d.mbF m b F.MB_CFG_RTR == 1 && !fdf
    dlc := Fin.ofNat 16 (d.mbF m b F.MB_DLC_DLC)
    data := (List.range 16).flatMap (fun w => bytesLE 4 (d.reg (o + 0x20 + 4 * w)).toNat) }

/-- CAN_ARBITRATION (R468): the offered buffer wins the bus or loses it. -/
def Dev.canArbitrate (d : Dev) (m : Nat) (wins : Bool) : Dev :=
  let x := d.can m
  if !d.canOn m || x.tx.isSome || x.tecOver || d.f (pgCan m) F.CAN_CTRL_MODE == 1 then d
  else match d.canOffer m with
    | none => d
    | some b => if wins then d.setCan m { x with tx := some b, frame := some (d.canFrameOf m b) } else d

/-- CAN_TX_DONE (R466, R468): the frame on the bus was sent without error. -/
def Dev.canTxDone (d : Dev) (m sof : Nat) : Dev :=
  let p := pgCan m
  let x := d.can m
  match x.tx with
  | none => d
  | some b =>
    if d.clocksStill then d
    else
      let f := x.frame.getD (d.canFrameOf m b)
      let d := d.setCan m { x with tx := none, frame := none }
      let d := (d.setF p ⟨0x54, b, 1⟩ 0).setF p ⟨0x5C, b, 1⟩ 1
      let d := (d.irq p 0).setR64 (p + 0x100 + mbOfs b) 0x10 sof
      let t := d.f p F.CAN_ERRC_TEC
      let d := if t = 0 then d else d.setF p F.CAN_ERRC_TEC (t - 1)
      let d := if 2 ≤ d.f p F.CAN_CTRL_MODE then d.canHolds m f sof else d
      (d.canFollow m).canLeave m

/-- A W1S write of CAN_TXREQ (R468). -/
def Dev.canTxReq (d : Dev) (m : Nat) (v : W32) : Dev :=
  d.setReg (pgCan m + 0x54) (d.reg (pgCan m + 0x54) ||| v)

/-- A write of CAN_TXCAN (R468). -/
def Dev.canTxCan (d : Dev) (m : Nat) (v : W32) : Dev :=
  d.setReg (pgCan m + 0x54) (d.reg (pgCan m + 0x54) &&& ~~~ v)

/-- A W1C write of CAN_RXFULL (R468). [DEDUCED (log 115)] -/
def Dev.canRelease (d : Dev) (m : Nat) (v : W32) : Dev :=
  d.setReg (pgCan m + 0x60) (d.reg (pgCan m + 0x60) &&& ~~~ v)

/-- CAN_BUS_ERROR (R468): a frame meets an error; it stays requested. [DEDUCED (log 113)] -/
def Dev.canBusError (d : Dev) (m : Nat) (e : CanError) : Dev :=
  let p := pgCan m
  if !d.canOn m || e.lec.val == 0 then d
  else
    let d := d.setF p F.CAN_ERRC_LEC e.lec.val
    let t := d.f p F.CAN_ERRC_TEC + (if e.tec then 8 else 0)
    let x := d.can m
    let d := d.setCan m { x with tx := none, tecOver := x.tecOver || decide (255 < t) }
    let d := d.setF p F.CAN_ERRC_TEC (Nat.min t 255)
    let r := d.f p F.CAN_ERRC_REC + (match e.recUp.val with | 0 => 0 | 1 => 1 | _ => 8)
    let d := if 128 ≤ r then (d.setF p F.CAN_ERRC_REC 127).setB p F.CAN_ERRC_RP true else d.setF p F.CAN_ERRC_REC r
    (d.canFollow m).canLeave m

/-- CAN_BUS_OFF (R468): TEC has exceeded 255. What TEC then reads is not stated. [DESIGN CHOICE (log 114)] -/
def Dev.canBusOff (d : Dev) (m : Nat) : Dev :=
  let x := d.can m
  if !d.canOn m || !x.tecOver then d
  else
    let (i, d) := d.takeFresh
    let d := d.setCan m { tx := none, tecOver := false, recovering := false }
    (d.setF (pgCan m) F.CAN_ERRC_TEC (Config.freeValue i).toNat).canGo m 2

/-- A write of CAN_CTRL.RECOVER (R468); ignored outside bus-off. -/
def Dev.canRecover (d : Dev) (m : Nat) : Dev :=
  if d.canState m = 2 ∧ d.live (pgCan m) = true then d.setCan m { d.can m with recovering := true } else d

/-- CAN_BUS_JOIN (R467, R468): the recessive bits that integration or recovery waits for have passed. -/
def Dev.canJoin (d : Dev) (m : Nat) : Dev :=
  let p := pgCan m
  let x := d.can m
  if !d.live p || d.clocksStill then d
  else if d.canState m = 3 then d.canGo m (d.canCounters m)
  else if d.canState m = 2 ∧ x.recovering = true then
    let d := ((d.setF p F.CAN_ERRC_TEC 0).setF p F.CAN_ERRC_REC 0).setB p F.CAN_ERRC_RP false
    (d.setCan m { x with recovering := false }).canGo m 0
  else d

/-- The enable check of a CAN page (R467). [DEDUCED (log 115)] -/
def Dev.canCheck (d : Dev) (m : Nat) : List (Nat × Nat) :=
  let p := pgCan m
  let n1 := d.f p F.CAN_NBT_TSEG1
  let n2 := d.f p F.CAN_NBT_TSEG2
  let e1 := d.f p F.CAN_DBT_TSEG1
  let e2 := d.f p F.CAN_DBT_TSEG2
  let fd := (List.range 32).any (fun b =>
    d.mbF m b F.MB_CFG_EN == 1 && d.mbF m b F.MB_CFG_DIR == 1 && (d.mbF m b F.MB_CFG_FDF == 1 || d.mbF m b F.MB_CFG_BRS == 1))
  (if fd ∧ d.f p F.CAN_CTRL_FD_EN = 0 then [(0x40, 0x101)] else []) ++
  (if n1 = 0 ∨ n2 < d.f p F.CAN_NBT_SJW then [(0x44, 2)] else []) ++
  (if (d.f p F.CAN_NBT_BRP + 1) * (n1 + n2 + 3) < 375 then [(0x44, 0x102)] else []) ++
  (if e1 = 0 ∨ e2 < d.f p F.CAN_DBT_SJW then [(0x48, 2)] else []) ++
  (if (d.f p F.CAN_DBT_BRP + 1) * (e1 + e2 + 3) < 75 then [(0x48, 0x102)] else [])

/-- A write of XSPI_GO.GO (R469): a transaction starts or is refused. [DEDUCED (log 16)] -/
def Dev.xspiGo (d : Dev) : Dev :=
  let p := pgXspi
  let c := (d.reg (p + 0x44)).toNat
  let n := d.f p F.XSPI_LEN_LEN
  let a := nbits c 16 3
  if !d.live p then d
  else if d.on p F.XSPI_STATUS_ACTIVE ∨ 256 < n ∨ (n % 2 = 1 ∧ d.f p F.XSPI_CFG_PROTO = 1) ∨ ¬ (a = 0 ∨ a = 3 ∨ a = 4) then
    d.setB p F.XSPI_STATUS_REFUSED true
  else ({ d with xspi := { d.xspi with cmd := some (c, n) } }).setB p F.XSPI_STATUS_ACTIVE true

/-- XSPI_RST_N goes low for 10 µs, which is 60,000 ticks (R469). [DEDUCED (log 16)] -/
def Dev.xspiReset (d : Dev) : Dev := { d with xspi := { d.xspi with rstLow := d.tick + 60000 } }

/-- The level of XSPI_RST_N (R469): low in a reset (02 Table 2-6). -/
def Dev.xspiRstN (d : Dev) : Bool := d.sys.reset == .none && decide (d.xspi.rstLow ≤ d.tick)

/-- XSPI_DONE (R469): the transaction ends; data read goes into XSPI_BUF in ascending byte order. [DEDUCED (log 117)] -/
def Dev.xspiDone (d : Dev) (l : List Byte) : Dev :=
  let p := pgXspi
  match d.xspi.cmd with
  | none => d
  | some (c, n) =>
    if d.clocksStill then d
    else
      let d := { d with xspi := { d.xspi with cmd := none } }
      let d := if nbits c 24 1 = 1 then d else
        d.forN (Nat.min n l.length) (fun i d => d.setF p ⟨0x100 + i / 4 * 4, i % 4 * 8, 8⟩ (l.getD i 0).toNat)
      ((d.setB p F.XSPI_STATUS_ACTIVE false).setB p F.XSPI_STATUS_DONE true).irq p 0

/-- The enable check of the xSPI page (R469): DIV, and the clock's limit in each protocol. -/
def Dev.xspiCheck (d : Dev) : List (Nat × Nat) :=
  let v := d.f pgXspi F.XSPI_CFG_DIV
  if v < 14 ∨ (d.f pgXspi F.XSPI_CFG_PROTO = 0 ∧ v < 59) then [(0x40, 2)] else []

/-- A write of I2C_CGO (R470); ignored while ACTIVE. -/
def Dev.i2cGo (d : Dev) : Dev :=
  let p := pgI2c
  if !d.live p || !d.on p F.I2C_CTRL_CEN || d.on p F.I2C_STATUS_ACTIVE then d
  else ({ d with i2c := { d.i2c with cmd := some (d.reg (p + 0x48)).toNat } }).setB p F.I2C_STATUS_ACTIVE true

/-- I2C_CONTROLLER_DONE (R470): the transaction ends; data read goes into I2C_CBUF. -/
def Dev.i2cDone (d : Dev) (e : I2cEnd) (l : List Byte) : Dev :=
  let p := pgI2c
  match d.i2c.cmd with
  | none => d
  | some c =>
    if d.clocksStill then d
    else
      let len := Nat.min (nbits c 8 6) 32
      let n := match e with | .full => len | .nack k => Nat.min k len | .arbLost k => Nat.min k len
      let d := { d with i2c := { d.i2c with cmd := none } }
      let d := if nbits c 7 1 = 0 then d else
        d.forN (Nat.min n l.length) (fun i d => d.setF p ⟨0x80 + i / 4 * 4, i % 4 * 8, 8⟩ (l.getD i 0).toNat)
      let d := match e with
        | .full => d
        | .nack _ => d.setB p F.I2C_STATUS_NACK true
        | .arbLost _ => d.setB p F.I2C_STATUS_ARB_LOST true
      let d := (d.setF p F.I2C_STATUS_COUNT n).setB p F.I2C_STATUS_ACTIVE false
      (d.setB p F.I2C_STATUS_DONE true).irq p 0

/-- The target answers an address (R466, R470, 02 R52). -/
def Dev.i2cMine (d : Dev) (addr : Nat) : Bool :=
  d.domOn domHostio && d.on pgI2c F.I2C_CTRL_TEN && d.f pgI2c F.I2C_TADDR_ADDR == addr && !d.clocksStill

/-- The bytes the bus has written to the mailbox in this slow cycle. -/
def Dev.busBytes (d : Dev) : List (Nat × Byte) := if d.i2c.busCyc = d.tick / 8 then d.i2c.busBytes else []

/-- A byte the bus writes to the mailbox stands until the slow cycle ends (R471). -/
def Dev.busByte (d : Dev) (q : Nat) (b : Byte) : Dev :=
  { d with i2c := { d.i2c with busCyc := d.tick / 8, busBytes := d.busBytes ++ [(q, b)] } }

/-- A page write to a mailbox has landed: bytes the bus wrote in the same slow cycle stand (R471). -/
def Dev.busStands (d : Dev) : Dev :=
  d.busBytes.foldl (fun d e => d.setF pgI2c ⟨0x800 + e.1 / 4 * 4, e.1 % 4 * 8, 8⟩ e.2.toNat) d

/-- Bytes of a write from the pointer on: mailbox bytes are written, others acknowledged and ignored (R471). -/
def Dev.i2cPut (d : Dev) : List Byte → Dev
  | [] => d
  | b :: r =>
    let q := d.i2c.ptr
    let d := { d with i2c := { d.i2c with ptr := (q + 1) % 65536 } }
    let d := if q < 256 then
        let d := d.busByte q b
        let d := (d.setF pgI2c ⟨0x800 + q / 4 * 4, q % 4 * 8, 8⟩ b.toNat).setF pgI2c F.I2C_STATUS_LAST q
        (d.setB pgI2c F.I2C_STATUS_MBOX_WR true).irq pgI2c 1
      else d
    d.i2cPut r

/-- I2C_TARGET_WRITE (R471): a write of a bus controller to an address, the pointer high byte first. -/
def Dev.i2cWrite (d : Dev) (addr : Nat) (l : List Byte) : Dev :=
  if !d.i2cMine addr then d
  else match l with
    | h :: lo :: r => ({ d with i2c := { d.i2c with ptr := 256 * h.toNat + lo.toNat } }).i2cPut r
    | _ => d

/-- The register a copy register shows (Table 21-14). [DEDUCED (log 116)] -/
def Dev.i2cCopy (d : Dev) (q : Nat) : Option W32 :=
  match q / 4 with
  | 0x40 => some (d.reg (pgSysid + F.RST_CAUSE_POR.ofs))
  | 0x41 => some (d.reg (pgSysid + F.BOOT_STAT_DONE.ofs))
  | 0x42 => some (d.reg (pgRst + F.FOUT_STAT_SP_FAILED.ofs))
  | 0x43 => some (if d.domOn (domHbm 0) then d.reg (pgHbm 0 + F.HBM_TEMP_TEMP.ofs) else 0)
  | 0x44 => some (if d.domOn (domHbm 1) then d.reg (pgHbm 1 + F.HBM_TEMP_TEMP.ofs) else 0)
  | 0x45 => some (d.reg (pgSysid + F.DEV_ID_PART.ofs))
  | _ => none

/-- The byte at the target's pointer, which advances (R471); a copy register is latched when its first byte is read. [DEDUCED (log 116)] -/
def Dev.i2cByte (d : Dev) : Dev × Byte :=
  let q := d.i2c.ptr
  let d := { d with i2c := { d.i2c with ptr := (q + 1) % 65536 } }
  if q < 256 then
    (d.setB pgI2c F.I2C_STATUS_MBOX_RD true, BitVec.ofNat 8 (d.f pgI2c ⟨0x800 + q / 4 * 4, q % 4 * 8, 8⟩))
  else match d.i2cCopy q with
    | none => (d, 0xFF)
    | some v =>
      let d := if q % 4 = 0 then { d with i2c := { d.i2c with latch := Table.put 0 d.i2c.latch q v } } else d
      (d, BitVec.ofNat 8 (bitsOf (Table.get 0 d.i2c.latch (q / 4 * 4)) (8 * (q % 4)) 8))

/-- A number of bytes from the pointer on. -/
def Dev.i2cBytes (d : Dev) : Nat → Dev × List Byte
  | 0 => (d, [])
  | n + 1 =>
    let (d, b) := d.i2cByte
    let (d, l) := d.i2cBytes n
    (d, b :: l)

/-- I2C_TARGET_READ (R471): a read of `n` bytes, whose value is the answer. -/
def Dev.i2cRead (d : Dev) (addr n : Nat) : Dev :=
  if !d.i2cMine addr then d
  else
    let (d, l) := d.i2cBytes n
    { d with resp := { data := valueLE l } }

/-- The enable check of the I2C page (Table 21-13). -/
def Dev.i2cCheck (d : Dev) : List (Nat × Nat) :=
  (if d.f pgI2c F.I2C_CTRL_SPEED = 3 then [(0x40, 1)] else []) ++
  (if 32 < d.f pgI2c F.I2C_CCMD_LEN then [(0x48, 2)] else [])

end Sys2Proof.Machine
end

