-- ==== Sys2Proof/Machine/Memory.lean ====
section
/-!
DEFINITION. Sys2Proof/Machine/Memory.lean: the memories of Table 1-1 as agents reach them by physical address: what an access
may reach, poison and its granularities, the HBM merge buffer, and what a write does to reservations and journals.
`d.mem` holds what a coherent read returns; for HBM that is the merge buffer over the stack.
-/
namespace Sys2Proof.Machine

/-- A logical core's state. -/
def Dev.core (d : Dev) (k : Nat) : Core := Table.get {} d.cores k

/-- Writes a logical core's state. -/
def Dev.setCore (d : Dev) (k : Nat) (c : Core) : Dev := { d with cores := Table.put {} d.cores k c }

/-- An HBM stack's state. -/
def Dev.hbm (d : Dev) (s : Nat) : Hbm := Table.get {} d.hbms s

/-- Writes an HBM stack's state. -/
def Dev.setHbm (d : Dev) (s : Nat) (h : Hbm) : Dev := { d with hbms := Table.put {} d.hbms s h }

/-- Base of HBM stack s. -/
def hbmBase (s : Nat) : Nat := 0x1000000000 + s * 0x400000000

/-- The start of code region r of stack s, in MiB (20 R433). -/
def Dev.crStart (d : Dev) (s r : Nat) : Nat :=
  if r = 0 then 0 else if 4 ≤ r then 16384 else bitsOf (d.reg (pgCode s + 0x40 + 4 * r)) 0 15

/-- Data pages of a region of n raw pages at strength code t (R432, R433). -/
def dataPages (n t : Nat) : Nat :=
  let q := match t with | 0 => 1 | 1 => 2 | 2 => 3 | _ => 5
  64 * (n / (64 + q))

/-- End of the usable data region r of stack s (R433). [DEDUCED (log 19)] -/
def Dev.crEnd (d : Dev) (s r : Nat) : Nat :=
  let n := (d.crStart s (r + 1) - d.crStart s r) * 512
  hbmBase s + d.crStart s r * 0x100000 + 2048 * dataPages n (bitsOf (d.reg (pgCode s + 0x50)) (2 * r) 2)

/-- Whether an HBM address lies in a usable data region (R433). -/
def Dev.hbmInRegion (d : Dev) (a : Nat) : Bool :=
  let s := (a - hbmBase 0) / 0x400000000
  (List.range 4).any (fun r => hbmBase s + d.crStart s r * 0x100000 ≤ a && a < d.crEnd s r)

/-- Whether an HBM address can be accessed: its stack's pages are enabled and it lies in a usable data region (R430). -/
def Dev.hbmUsable (d : Dev) (a : Nat) : Bool :=
  let s := (a - hbmBase 0) / 0x400000000
  d.live (pgHbm s) && d.live (pgCode s) && d.hbmInRegion a

/-- Number of dirty merge-buffer entries (HBM_MB.DIRTY). -/
def Hbm.dirtyCount (h : Hbm) : Nat := (h.mb.filter (·.dirty)).length

/-- An uncorrectable page is logged (R439, R450). [DESIGN CHOICE (log 82)] -/
def Dev.uncorrPage (d : Dev) (s page : Nat) : Dev :=
  let p := pgScrub s
  let d := ((d.pulse (1843 + s)).inc p F.ERR_UNCORR_COUNT).irq p 0
  d.setR64 p 0x80 (hbmBase s + 2048 * page)

/-- The poison a partial entry leaves when its page cannot be decoded: every flit not wholly written through it (R438). -/
def Dev.partialPoison (d : Dev) (s : Nat) (e : MbEntry) : Dev :=
  (List.range 32).foldl (fun (d : Dev) i =>
    if nbits e.mask (64 * i) 64 = 2 ^ 64 - 1 then d else d.setPoison (hbmBase s + 2048 * e.page + 64 * i) true) d

/-- A dirty entry is written to the stack (R438); `bad`: the page of a partial entry decodes uncorrectable. The entry stays, clean. -/
def Dev.mbWriteBack (d : Dev) (s page : Nat) (bad : Bool) : Dev :=
  let h := d.hbm s
  match h.mb.find? (fun e => e.page == page && e.dirty) with
  | none => d
  | some e =>
    let d := if bad && !e.complete then (d.partialPoison s e).uncorrPage s page else d
    d.setHbm s { h with mb := h.mb.map (fun x => if x = e then { e with complete := true, dirty := false, mask := 0 } else x) }

/-- Every dirty entry is written back (R438). -/
def Dev.mbFlush (d : Dev) (s : Nat) : Dev :=
  ((d.hbm s).mb.map (·.page)).foldl (fun (d : Dev) p => d.mbWriteBack s p false) d

/-- The entry that makes room: the least recently used clean one, else the dirty one whose last write is oldest (R438). [DEDUCED (log 75)] -/
def Hbm.victim (h : Hbm) : Option MbEntry :=
  match h.mb.find? (fun e => !e.dirty) with
  | some e => some e
  | none => h.mb.foldl (fun a e => match a with
    | none => some e
    | some b => if e.last < b.last then some e else some b) none

/-- A merge-buffer entry is allocated as the most recently used (R437). -/
def Dev.mbAlloc (d : Dev) (s : Nat) (e : MbEntry) : Dev :=
  let d : Dev := if (d.hbm s).mb.length < 32 then d
    else match (d.hbm s).victim with
      | none => d
      | some v =>
        let d := d.mbWriteBack s v.page false
        d.setHbm s { d.hbm s with mb := (d.hbm s).mb.filter (fun (x : MbEntry) => x.page != v.page) }
  let h := d.hbm s
  d.setHbm s { h with mb := h.mb ++ [e] }

/-- The bits of a byte mask that an access of `len` bytes at offset `o` covers. -/
def byteMask (o len : Nat) : Nat := (2 ^ len - 1) * 2 ^ o

/-- A write of `len` bytes inside one page goes through the merge buffer (R436, R437, R438). [DEDUCED (log 74)] -/
def Dev.mbWrite (d : Dev) (s a len : Nat) : Dev :=
  let page := (a - hbmBase s) / 2048
  let m := byteMask (a % 2048) len
  let h := d.hbm s
  let d := match h.mb.find? (fun e => e.page == page) with
    | some e =>
      d.setHbm s { h with mb := h.mb.filter (fun (x : MbEntry) => x.page != page) ++ [{ e with dirty := true, mask := e.mask ||| m, last := d.tick }] }
    | none =>
      let known := Table.get false h.valid page
      (d.setHbm s { h with valid := Table.put false h.valid page true }).mbAlloc s
        { page := page, complete := !known, dirty := true, mask := m, last := d.tick }
  if (d.hbm s).mb.any (fun e => e.page == page && e.mask == 2 ^ 2048 - 1) then d.mbWriteBack s page false else d

/-- Corrected symbols are counted (Table 20-8). -/
def Dev.symbols (d : Dev) (s n : Nat) : Dev :=
  let p := pgScrub s
  let d := d.inc p F.ERR_CORR_COUNT
  if d.f p F.ERR_MAXSYM_MAX < n then d.setF p F.ERR_MAXSYM_MAX n else d

/-- A decoded page enters the merge buffer (R435, R437). -/
def Dev.mbFill (d : Dev) (s page : Nat) (dirty : Bool) : Dev :=
  let h := d.hbm s
  match h.mb.find? (fun e => e.page == page) with
  | some e => d.setHbm s { h with mb := h.mb.filter (fun (x : MbEntry) => x.page != page) ++ [{ e with complete := true, dirty := true }] }
  | none => d.mbAlloc s { page := page, complete := true, dirty := dirty, mask := 0, last := d.tick }

/-- A read of `len` bytes inside one line (R435-R439): whether it is delivered poisoned. A page whose valid bit is 0 reads zero; what
the merge buffer holds is not decoded again. -/
def Dev.mbRead (d : Dev) (s a len : Nat) (out : Decode) : Dev × Bool :=
  let page := (a - hbmBase s) / 2048
  let h := d.hbm s
  let p := pgScrub s
  let pois := d.poisoned a || d.poisoned (a + len - 1)
  if !Table.get false h.valid page then (d, false)
  else
    let m := byteMask (a % 2048) len
    match h.mb.find? (fun e => e.page == page && (e.complete || e.mask &&& m == m)) with
    | some e => (d.setHbm s { h with mb := h.mb.filter (fun (x : MbEntry) => x.page != page) ++ [e] }, pois)
    | none =>
      match d.f (pgHbm s) F.HBM_CTRL_MODE with
      | 0 => match out with
        | .clean => (d.mbFill s page false, pois)
        | .corrected n => ((d.symbols s n).mbFill s page true, pois)
        | _ => (d.uncorrPage s page, true)
      | 1 => match out with
        | .clean => (d, pois)
        | _ => (d.inc p F.ERR_DETECT_COUNT, true)
      | _ => match out with
        | .clean => (d, pois)
        | .erased n => (((d.symbols s n).inc p F.ERR_ERASE_FIX_COUNT).mbWriteBack s page false, pois)
        | .miscorrected => (d.inc p F.ERR_MISCORR_COUNT, true)
        | _ => (d, true)

/-- A write by agent `by_` (a core below 5) clears the reservations of other cores on its granules (15 R340) and the mask bits of their
journals (19 R418). -/
def Dev.noteWrite (d : Dev) (by_ a len : Nat) : Dev :=
  (d.cores.map (·.1)).foldl (fun (d : Dev) k =>
    if k = by_ then d
    else
      let c := d.core k
      let hit := match c.resv with
        | some g => decide (a / 64 ≤ g ∧ g ≤ (a + len - 1) / 64)
        | none => false
      let j := c.journal.map (fun e =>
        if (a + len - 1) / 64 < e.line ∨ e.line < a / 64 then e
        else { e with mask := (List.range 64).foldl (fun m i =>
          if a ≤ 64 * e.line + i ∧ 64 * e.line + i < a + len ∧ nbits m i 1 = 1 then m - 2 ^ i else m) e.mask })
      d.setCore k { c with resv := if hit then none else c.resv, journal := j }) d

/-- Whether an address lies in a memory that keeps poison per 64-bit word (05 R505). [DEDUCED (log 81)] -/
def wordPoison (a : Nat) : Bool := 0x10000000 ≤ a && a < 0x12000000

/-- Whether an address lies in a sash window. -/
def inSash (a : Nat) : Bool := decide (0x40000000 ≤ a) && decide (a < 0x44000000)

/-- The poison of the line at `u` after a core's store of clean or poisoned words (`m` the words it wrote whole) into the L2 copy of it: `l2ok`
holds the words that are clean there, and the line's own poison goes once all eight are (05 R505). [DEDUCED (log 81)] -/
def Dev.l2Poison (d : Dev) (u m : Nat) (bad : Bool) : Dev :=
  let was := if d.poisoned u then Table.get 0 d.l2ok (u / 64) else 255
  let now := if bad then was - (was &&& m) else was ||| m
  if now = 255 then { d.setPoison u false with l2ok := Table.put 0 d.l2ok (u / 64) 0 }
  else { d.setPoison u true with l2ok := Table.put 0 d.l2ok (u / 64) now }

/-- The words of the line at `u` that a write of `len` bytes touches, or that it covers whole, as a mask. -/
def wordMask (u a len : Nat) (whole : Bool) : Nat :=
  (List.range 8).foldl (fun m k =>
    let w := u + 8 * k
    if (if whole then decide (a ≤ w ∧ w + 8 ≤ a + len) else decide (a < w + 8 ∧ w < a + len)) then m + 2 ^ k else m) 0

/-- The poison a write of `len` bytes leaves (05 R123, R505, 16 R367): `pw i` says that byte i of the data carries poison. A core's
store outside the sash windows reaches the L2 copy of a line, which keeps poison per word. [DEDUCED (log 81)] -/
def Dev.writePoison (d : Dev) (by_ a len : Nat) (pw : Nat → Bool) : Dev :=
  let unit := if wordPoison a then 8 else 64
  (List.range ((a + len - 1) / unit + 1 - a / unit)).foldl (fun (d : Dev) i =>
    let u := unit * (a / unit + i)
    let bad := (List.range unit).any (fun b => a ≤ u + b && u + b < a + len && pw (u + b - a))
    let whole := decide (a ≤ u ∧ u + unit ≤ a + len)
    let l2 := decide (by_ < 5) && unit == 64 && !inSash a
    if whole then { d.setPoison u bad with l2ok := Table.put 0 d.l2ok (u / 64) 0 }
    else if bad then
      if l2 then d.l2Poison u (wordMask u a len false) true
      else { d.setPoison u true with l2ok := Table.put 0 d.l2ok (u / 64) 0 }
    else if l2 then (if d.poisoned u then d.l2Poison u (wordMask u a len true) false else d)
    else { d with l2ok := Table.put 0 d.l2ok (u / 64) 0 }) d

/-- The HBM side of a write, page by page (20 R437). -/
def Dev.hbmTouch (d : Dev) (a len : Nat) : Dev :=
  if a < hbmBase 0 ∨ len = 0 then d
  else
    let s := (a - hbmBase 0) / 0x400000000
    (List.range ((a + len - 1) / 2048 + 1 - a / 2048)).foldl (fun (d : Dev) i =>
      let lo := Nat.max a (2048 * (a / 2048 + i))
      let hi := Nat.min (a + len) (2048 * (a / 2048 + i + 1))
      d.mbWrite s lo (hi - lo)) d

/-- The regions of a sash window (05 Table 5-3). -/
inductive SashMem where
  | bank (b : Bool) | rom | data | none
  deriving DecidableEq, Repr

/-- What lies at an offset of a sash window. -/
def sashPart (o : Nat) : SashMem :=
  if o < 0x18000 then .bank false
  else if 0x20000 ≤ o ∧ o < 0x38000 then .bank true
  else if 0x40000 ≤ o ∧ o < 0x43000 then .rom
  else if 0x80000 ≤ o ∧ o < 0x90000 then .data
  else if 0xC0000 ≤ o ∧ o < 0xD0000 then .data
  else .none

/-- What lies in a sash window before a write by the fabric or a streamer is kept for the lanes' reads of the same cycle (05 R121). -/
def Dev.noteFabric (d : Dev) (a len : Nat) : Dev :=
  if !inSash a then d
  else
    let p := d.present
    let bs := ((List.range len).map (· + a)).filter (fun b => !p.fabric.any (fun e => e.1 == b))
    let ls := ((List.range ((a + len - 1) / 64 + 1 - a / 64)).map (fun i => 64 * (a / 64 + i))).filter
      (fun u => !p.fabPois.any (fun e => e.1 == u))
    { d with present := { p with
        fabric := p.fabric ++ bs.map (fun b => (b, d.byte b))
        fabPois := p.fabPois ++ ls.map (fun u => (u, d.poisoned u)) } }

/-- Lane and sash memory as a lane reads it: a fabric write of the same cycle does not show (05 R121). -/
def Dev.laneView (d : Dev) : Dev :=
  let d := d.present.fabric.foldl (fun (d : Dev) e => d.setByte e.1 e.2) d
  d.present.fabPois.foldl (fun (d : Dev) e => d.setPoison e.1 e.2) d

/-- The word that carries its own code and holds a byte: 32 bits of lane and sash memory, 64 bits of scratch and wing memory (Table 5-2). -/
def codeWord (a : Nat) : Nat := if inSash a then a / 4 * 4 else a / 8 * 8

/-- A write of `len` bytes writes the code of each word it covers anew (05 R123). [DESIGN CHOICE (log 82)] -/
def Dev.clearUpsets (d : Dev) (a len : Nat) : Dev :=
  let k := if inSash a then 4 else 8
  { d with upsets := Table.keep (fun w => decide (w < a) || decide (a + len < w + k)) d.upsets }

/-- A read of `len` bytes decodes its words (05 R123): an uncorrectable one poisons its line, a corrected one of a sash window is counted in the
page of its sash. [DESIGN CHOICE (log 82)] -/
def Dev.readErr (d : Dev) (a len : Nat) : Dev :=
  (d.upsets.filter (fun e => decide (codeWord a ≤ e.1) && decide (e.1 < a + len))).foldl (fun (d : Dev) e =>
    if e.2 = 2 then d.setPoison e.1 true
    else if inSash e.1 then d.inc (pgSash ((e.1 - 0x40000000) / 0x100000)) F.XPORT_CNT_RETRY
    else d) d

/-- Words of lane, sash, scratch and wing memory whose code goes wrong (05 R123), as (address, uncorrectably). [DESIGN CHOICE (log 82)] -/
def Dev.upset (d : Dev) (l : List (Nat × Bool)) : Dev :=
  l.foldl (fun (d : Dev) e => match memAt e.1 with
    | some (.sash, _) => if sashPart (e.1 % 0x100000) = .data then
        { d with upsets := Table.put 0 d.upsets (codeWord e.1) (if e.2 then 2 else 1) } else d
    | some (.scratch, _) | some (.wing, _) => { d with upsets := Table.put 0 d.upsets (codeWord e.1) (if e.2 then 2 else 1) }
    | _ => d) d

/-- A write of bytes to memory by an agent: data, poison, tags (17 R372), reservations, journals and the merge buffer. [DEDUCED (log 74)] -/
def Dev.putMem (d : Dev) (by_ a : Nat) (l : List Byte) (pw : Nat → Bool) : Dev :=
  let d := d.noteFabric a l.length
  let d := ((d.setBytes a l).clearUpsets a l.length).writePoison by_ a l.length pw
  let d := (List.range ((a + l.length - 1) / 16 + 1 - a / 16)).foldl (fun (d : Dev) i => d.setTag (16 * (a / 16 + i)) false) d
  (d.noteWrite by_ a l.length).hbmTouch a l.length

/-- Writes bytes without poison, as an agent that is no core. -/
def Dev.putClean (d : Dev) (a : Nat) (l : List Byte) : Dev := d.putMem 99 a l (fun _ => false)

/-- An address lies in a checkpoint area that is protected (19 R428). -/
def Dev.chkProtected (d : Dev) (a len : Nat) : Bool :=
  (List.range 5).any (fun k =>
    let inside : Nat → Bool := fun b => decide (a < b + 4096 ∧ b < a + len)
    match (d.core k).chkBase with
    | none => false
    | some b => inside b || inside (d.r64 (pgIntc k) 0x108))

/-- Whether an access to memory of `len` bytes is a violation, and with what cause (01 R16, R32, R62; 05 R120; 06 R161; 19 R428; 20 R430). `dbg`:
the debug bus master. -/
def Dev.memCause (d : Dev) (a len : Nat) (write dbg : Bool) : Option Nat :=
  match memAt a with
  | none => some 8
  | some (k, dom) =>
    let sm := sashPart (a % 0x100000)
    if k = .sash ∧ sm = .none then some 8
    else if !d.domOn dom then some 7
    else if k = .hbm ∧ (d.hbmUsable a = false ∨ d.hbmUsable (a + len - 1) = false) then some 8
    else
      let bankWrite := k = .sash && write && (match sm with | .bank _ => true | _ => false)
      let unit := if bankWrite then (if len ≤ 2 then Nat.max len 1 else if len = 8 then 8 else 4)
        else if len ≤ 8 then Nat.max len 1 else 1
      if a % unit ≠ 0 then some 1
      else if bankWrite && len % 4 ≠ 0 then some 2
      else if k = .coreSram ∧ d.chkProtected a len = true ∧ ¬ (dbg = true ∧ write = false) then some 3
      else if write && (k = .rom || (k = .sash && sm = .rom)) then some 4
      else if bankWrite then
        let p := pgSash ((a - 0x40000000) / 0x100000)
        let inactive : Bool := match sm with | .bank b => b != d.on p F.CS_STAT_ACTIVE | _ => false
        if inactive && d.on p F.CS_STAT_OPEN then none else some 4
      else none

/-- A byte of memory as an access reads it, the two ROMs included. -/
def Dev.memByte (d : Dev) (a : Nat) : Byte :=
  if a < 0x20000 then Config.bootRomByte a
  else if 0x40000000 ≤ a ∧ a < 0x44000000 ∧ sashPart (a % 0x100000) = .rom then
    let o := a % 0x100000 - 0x40000
    BitVec.ofNat 8 (bitsOf (Config.romWord (o / 24)) (8 * (o % 24)) 8)
  else d.byte a

/-- Bytes of memory as an access reads them. -/
def Dev.memBytes (d : Dev) (a len : Nat) : List Byte := (List.range len).map (fun i => d.memByte (a + i))

/-- A word or line of memory carries poison as an agent sees it; a core sees the words its L2 has cleared. -/
def Dev.poisonSeen (d : Dev) (core : Bool) (a : Nat) : Bool :=
  d.poisoned a && !(core && !wordPoison a && nbits (Table.get 0 d.l2ok (a / 64)) (a % 64 / 8) 1 == 1)

/-- A read of memory of at most one line: the bytes and whether any of them carries poison. -/
def Dev.getMem (d : Dev) (core : Bool) (a len : Nat) : Dev × List Byte × Bool :=
  let d := d.readErr a len
  if hbmBase 0 ≤ a then
    let (d, p) := d.mbRead ((a - hbmBase 0) / 0x400000000) a len .clean
    (d, d.memBytes a len, p && (!core || d.poisonSeen true a))
  else
    (d, d.memBytes a len, (List.range ((len + 7) / 8)).any (fun i => d.poisonSeen core (a + 8 * i)) ||
      (0 < len && d.poisonSeen core (a + len - 1)))

/-- A copy of `n` 64-byte lines by an agent that is no core, poison with them (05 R505). -/
def Dev.copyLines (d : Dev) (src dst n : Nat) : Dev :=
  d.forN n (fun i d =>
    let (d, l, lp) := d.getMem false (src + 64 * i) 64
    let pw : Nat → Bool := fun b => if wordPoison src then d.poisoned (src + 64 * i + b) else lp
    d.putMem 99 (dst + 64 * i) l pw)

/-- SIZE of ERR_INFO (01 Table 1-9); accesses wider than 64 bits read as 64-bit ones. [DEDUCED (log 76)] -/
def sizeCode (len : Nat) : Nat := if len ≤ 1 then 0 else if len = 2 then 1 else if len = 4 then 2 else 3

/-- A violation enters a page header: as the record, or as an overflow of the one that is held (01 R33). -/
def Dev.logRecord (d : Dev) (p : Nat) (v : W32 × W32 × W32) : Dev :=
  if d.on p F.H_ERR_VALID then d.setB p F.H_ERR_OVERFLOW true
  else
    let d := ((d.setReg (p + 0x14) v.1).setReg (p + 0x18) v.2.1).setReg (p + 0x1C) v.2.2
    (d.setF p ⟨0x10, 31, 1⟩ 1).irq p 31

/-- A violation is logged in a page header (01 R33), and kept for a clearing read of the same peripheral cycle. [DEDUCED (log 76)] -/
def Dev.logAt (d : Dev) (p req a len : Nat) (write : Bool) (cause : Nat) : Dev :=
  let v : W32 × W32 × W32 := (BitVec.ofNat 32 a, BitVec.ofNat 32 (a / 2 ^ 32 % 2 ^ 16),
    BitVec.ofNat 32 (req % 2 ^ 12 + b2n write * 2 ^ 12 + sizeCode len * 2 ^ 14 + cause * 2 ^ 16 + 2 ^ 31))
  let e := Table.get (⟨0, 0, []⟩ : ErrCycle) d.errLog p
  let now := d.tick / 8 + 1
  let e' : ErrCycle := if e.cyc = now then { e with viols := e.viols ++ [v] } else ⟨now, d.reg (p + 0x1C), [v]⟩
  { d with errLog := Table.put ⟨0, 0, []⟩ d.errLog p e' }.logRecord p v

/-- A violation of an access to memory is logged (01 R32). -/
def Dev.memViolation (d : Dev) (req a len : Nat) (write : Bool) (cause : Nat) : Dev :=
  if 0x40000000 ≤ a ∧ a < 0x44000000 ∧ cause ≠ 7 ∧ cause ≠ 8 then
    d.logAt (pgSash ((a - 0x40000000) / 0x100000)) req a len write cause
  else d.logAt pgFerr req a len write cause

end Sys2Proof.Machine
end

