-- ==== Sys2Proof/Machine/Caps.lean ====
section
/-!
DEFINITION. Sys2Proof/Machine/Caps.lean: capabilities (17_capabilities_and_exceptions.md R371-R376): their bounds, their
128 bits, what they authorise, and the operations of the capability group on them.
-/
namespace Sys2Proof.Machine

/-- Permission bits (Table 17-2). -/
def permLoad : Nat := 0
/-- STORE. -/
def permStore : Nat := 1
/-- EXECUTE. -/
def permExecute : Nat := 2
/-- LOAD_CAP. -/
def permLoadCap : Nat := 3
/-- STORE_CAP. -/
def permStoreCap : Nat := 4
/-- PAGE. -/
def permPage : Nat := 5
/-- SEAL. -/
def permSeal : Nat := 6
/-- UNSEAL. -/
def permUnseal : Nat := 7
/-- SYSREG. -/
def permSysreg : Nat := 8
/-- TLB. -/
def permTlb : Nat := 9

/-- Whether a capability has a permission. -/
def Capability.has (c : Capability) (p : Nat) : Bool := c.perms.getLsbD p

/-- Log2 of the window (R371). -/
def Capability.w (c : Capability) : Nat := c.xp.toNat + 14

/-- Base of the bounds (R371). -/
def Capability.base (c : Capability) : Nat := c.addr.toNat / 2 ^ c.w * 2 ^ c.w + c.bm.toNat * 2 ^ c.xp.toNat

/-- Length of the bounds; LM = 0 reads as 2^14 (R371). -/
def Capability.len (c : Capability) : Nat := (if c.lm = 0 then 2 ^ 14 else c.lm.toNat) * 2 ^ c.xp.toNat

/-- Top of the bounds. -/
def Capability.top (c : Capability) : Nat := c.base + c.len

/-- An address is representable: it lies in the same window (R371). -/
def Capability.fits (c : Capability) (a : W64) : Bool := a.toNat / 2 ^ c.w == c.addr.toNat / 2 ^ c.w

/-- The capability with another address; the tag goes when the address is unrepresentable (R371). -/
def Capability.move (c : Capability) (a : W64) : Capability := { c with addr := a, tag := c.tag && c.fits a }

/-- The 128 bits of a capability (Table 17-1). -/
def Capability.bits (c : Capability) : Nat :=
  c.addr.toNat + c.perms.toNat * 2 ^ 64 + c.otype.toNat * 2 ^ 80 + c.sealing.toNat * 2 ^ 92 + c.xp.toNat * 2 ^ 94 +
    c.bm.toNat * 2 ^ 100 + c.lm.toNat * 2 ^ 114

/-- The capability that 128 bits and a tag spell. -/
def Capability.ofBits (v : Nat) (tag : Bool) : Capability where
  addr := BitVec.ofNat 64 v
  perms := BitVec.ofNat 16 (v / 2 ^ 64)
  otype := BitVec.ofNat 12 (v / 2 ^ 80)
  sealing := BitVec.ofNat 2 (v / 2 ^ 92)
  xp := BitVec.ofNat 6 (v / 2 ^ 94)
  bm := BitVec.ofNat 14 (v / 2 ^ 100)
  lm := BitVec.ofNat 14 (v / 2 ^ 114)
  tag := tag

/-- Whether `n` bytes from an address lie in the bounds. -/
def Capability.covers (c : Capability) (a n : Nat) : Bool := c.base ≤ a && a + n ≤ c.top

/-- The address lies in the register-page window (R374). -/
def pageWindow (a : Nat) : Bool := 0xE0000000 ≤ a && a < 0xF0000000

/-- What an access needs of its capability. -/
inductive Need where
  | read | write | both | fetch
  deriving DecidableEq, Repr

/-- The permissions of step 3 of R374. -/
def Capability.permits (c : Capability) (n : Need) : Bool :=
  match n with
  | .read => c.has permLoad
  | .write => c.has permStore && (c.sealing == 0 || c.has permPage)
  | .both => c.has permLoad && c.has permStore && (c.sealing == 0 || c.has permPage)
  | .fetch => c.has permExecute

/-- The check of an access against its capability (R374): the kind of the first failing step. -/
def Capability.check (c : Capability) (n : Need) (a len : Nat) : Option Nat :=
  if !c.tag then some 1
  else if c.sealing ≠ 0 ∧ ¬ (c.sealing = 1 ∧ n ≠ .fetch ∧ pageWindow a = true) then some 2
  else if !c.permits n then some 3
  else if !c.covers a len then some 4
  else none

/-- Whether the bounds rounded to XP = x can be expressed in the window of the address (R376, KBND). -/
def kbndFits (a l x : Nat) : Bool :=
  let b := a / 2 ^ x
  let t := (a + l + 2 ^ x - 1) / 2 ^ x
  decide (1 ≤ t - b ∧ t - b ≤ 2 ^ 14)

/-- KBND (R376): bounds narrowed to `l` bytes from the address, at the least XP that expresses them; the tag goes when the
rounded bounds are wider than the source's (R373), when the source is sealed, or when no XP expresses them. -/
def Capability.bound (c : Capability) (l : Nat) : Capability :=
  let a := c.addr.toNat
  match (List.range 51).find? (kbndFits a l) with
  | none => { c with tag := false }
  | some x =>
    let b := a / 2 ^ x
    let t := (a + l + 2 ^ x - 1) / 2 ^ x
    let anchor := a / 2 ^ (x + 14) * 2 ^ 14
    let inside := decide (c.base ≤ b * 2 ^ x ∧ t * 2 ^ x ≤ c.top)
    { c with
      xp := BitVec.ofNat 6 x
      bm := BitVec.ofNat 14 (b - anchor)
      lm := BitVec.ofNat 14 (t - b)
      tag := c.tag && c.sealing == 0 && inside }

/-- KADR and KINC (R376). -/
def Capability.setAddr (c : Capability) (a : W64) : Capability :=
  { c.move a with tag := c.tag && c.fits a && c.sealing == 0 }

/-- KPRM (R376, R373). -/
def Capability.reduce (c : Capability) (m : BitVec 16) : Capability :=
  { c with perms := c.perms &&& m, tag := c.tag && c.sealing == 0 }

/-- KLOCK (R376): the sealed capability, or the kind of the CAP fault and whether CT raises it. -/
def Capability.lock (cs ct : Capability) (t : Nat) (entry : Bool) : Except (Nat × Bool) Capability :=
  if !ct.tag then .error (1, true)
  else if ct.sealing ≠ 0 then .error (2, true)
  else if !ct.has permSeal then .error (3, true)
  else if !cs.tag then .error (1, false)
  else if cs.sealing ≠ 0 then .error (2, false)
  else if t = 0 ∨ ct.covers t 1 = false then .error (5, true)
  else .ok { cs with otype := BitVec.ofNat 12 t, sealing := if entry then 2 else 1 }

/-- KOPEN (R376). -/
def Capability.unlock (cs ct : Capability) : Except (Nat × Bool) Capability :=
  if !ct.tag then .error (1, true)
  else if ct.sealing ≠ 0 then .error (2, true)
  else if !ct.has permUnseal then .error (3, true)
  else if !cs.tag then .error (1, false)
  else if cs.sealing = 0 then .error (5, false)
  else if ct.covers cs.otype.toNat 1 = false then .error (5, true)
  else .ok { cs with otype := 0, sealing := 0 }

/-- The unsealed form of a door capability (R381). -/
def Capability.opened (c : Capability) : Capability := { c with otype := 0, sealing := 0 }

/-- A capability read from memory at a physical address, with the granule's tag, which only Core SRAM keeps (R372). -/
def Dev.capAt (d : Dev) (a : Nat) : Capability :=
  .ofBits (valueLE (d.memBytes a 16)) (wordPoison a && d.tag a)

end Sys2Proof.Machine
end

