-- ==== Sys2Proof/Machine/Pair.lean ====
section
/-!
DEFINITION. Sys2Proof/Machine/Pair.lean: a logical core as a lockstep pair: its state, its stores through the write journal,
checkpoints, the start of a rollback, and exception entry and return (17_capabilities_and_exceptions.md,
19_lockstep_and_rollback.md).
-/
namespace Sys2Proof.Machine

/-- A core's architectural registers. -/
def Dev.arch (d : Dev) (k : Nat) : Arch := (d.core k).arch

/-- Writes a core's architectural registers. -/
def Dev.setArch (d : Dev) (k : Nat) (a : Arch) : Dev := d.setCore k { d.core k with arch := a }

/-- A capability register: C0-C15, PCC (16), DDC (17), TRAP_BASE (18). -/
def Arch.cap (a : Arch) (n : Nat) : Capability :=
  if n = 16 then a.pcc else if n = 17 then a.ddc else if n = 18 then a.trapBase else Table.get {} a.caps n

/-- Writes one of C0-C15. -/
def Arch.setCap (a : Arch) (n : Nat) (c : Capability) : Arch := { a with caps := Table.put {} a.caps n c }

/-- A save set. -/
def Arch.saved (a : Arch) (n : Nat) : SaveSet := Table.get {} a.sets n

/-- ST.LVL. -/
def Arch.lvl (a : Arch) : Nat := bitsOf a.st 8 3

/-- ST.IE. -/
def Arch.ie (a : Arch) : Bool := bitAt a.st 11

/-- ST.PA. -/
def Arch.pa (a : Arch) : Bool := bitAt a.st 4

/-- The fields of ST that software writes: C, Z, N, V, PA and IE (15 R327, 17 R377). -/
def stMask : W64 := 0x81F

/-- ST after a write of its RW fields. -/
def Arch.putSt (a : Arch) (v : W64) : Arch := { a with st := (a.st &&& ~~~ stMask) ||| (v &&& stMask) }

/-- A pair's failure (19 R425): held in reset; its remote door requests are withdrawn. SP's failure latches the Shutter
matrix (R426). -/
def Dev.failPair (d : Dev) (k cause : Nat) : Dev :=
  let p := pgIntc k
  let d := (d.setB p F.LS_STAT_FAILED true).setF p F.LS_STAT_FAIL_CAUSE cause
  let d := d.setB p F.LS_STAT_HELD_TEST (cause == 3)
  let d := d.setB p F.LS_STAT_RECOVERING false
  let d := d.setCore k { d.core k with running := false, doorWait := none, resv := none }
  let r : DoorReq := Table.get {} d.dreqs k
  let d := { d with dreqs := Table.put {} d.dreqs k { r with type := r.type &&& ~~~ (0x80000000 : W64) } }
  if k = 4 then (if cause = 3 then d.setF pgSysid F.BOOT_STAT_CODE 8 else d).spFail else d

/-- LS_CTRL in effect: a write during a recovery counts from the pair's next checkpoint (19 R427). -/
def Dev.lsCtrl (d : Dev) (k : Nat) : W32 :=
  match (d.core k).lsKeep with | some v => v.1 | none => d.reg (pgIntc k + 0x100)

/-- LS_INTERVAL in effect (R427). -/
def Dev.lsInterval (d : Dev) (k : Nat) : Nat :=
  match (d.core k).lsKeep with | some v => bitsOf v.2 0 24 | none => d.f (pgIntc k) F.LS_INTERVAL_INTERVAL

/-- The values in effect are kept while a write lands during a recovery (R427); `o` is its offset. -/
def Dev.lsHold (d : Dev) (k o : Nat) : Dev :=
  let c := d.core k
  if 0x100 ≤ o && o < 0x114 && d.on (pgIntc k) F.LS_STAT_RECOVERING && c.lsKeep.isNone then
    d.setCore k { c with lsKeep := some (d.reg (pgIntc k + 0x100), d.reg (pgIntc k + 0x110)) }
  else d

/-- FAST mode is in effect (R419). -/
def Dev.fastMode (d : Dev) (k : Nat) : Bool := bitAt (d.lsCtrl k) 0

/-- LS_STAT.JOURNAL follows the journal. -/
def Dev.journalCount (d : Dev) (k : Nat) : Dev := d.setF (pgIntc k) F.LS_STAT_JOURNAL (d.core k).journal.length

/-- The checkpoint area that a pair leaves becomes ordinary memory (19 R428), whose bytes are those of its records. [DESIGN CHOICE (log 149)] -/
def Dev.leaveArea (d : Dev) (b : Nat) : Dev :=
  d.forN 512 (fun i d => d.takeFresh.2.setBytes (b + 8 * i) (bytesLE 8 (Config.freeValue d.fresh).toNat))

/-- A checkpoint (19 R414-R416): the record becomes current, the journal is emptied. A changed LS_CHK_BASE takes effect here,
with slot 0. -/
def Dev.checkpoint (d : Dev) (k : Nat) : Dev :=
  let p := pgIntc k
  let b := d.r64 p 0x108
  let c := d.core k
  let slot := if c.chkBase = some b then 1 - d.f p F.LS_STAT_SLOT else 0
  let d := match c.chkBase with | some b' => (if b' = b then d else d.leaveArea b') | none => d
  let d := (d.setF p F.LS_STAT_SLOT slot).inc p F.LS_CHK_CNT_CHECKPOINTS
  let d := (List.range 256).foldl (fun (d : Dev) i => d.setPoison (b + 2048 * slot + 8 * i) false) d
  (d.setCore k { c with
    record := some ⟨c.arch, c.cps, c.doorWait⟩
    journal := []
    chkBase := some b
    chkTick := d.tick
    repeats := 0
    detRepeat := false
    taken := []
    lsKeep := none }).journalCount k

/-- The journal entry of a line as it stands before a store (19 R417). -/
def Dev.jEntry (d : Dev) (line : Nat) : JEntry where
  line := line
  old := d.memBytes (64 * line) 64
  tags := (List.range 4).map (fun i => d.tag (64 * line + 16 * i))
  pois := (List.range 8).map (fun i => d.poisoned (64 * line + 8 * i))
  mask := 0

/-- A store of a pair enters the journal before its data reaches the L2 (R417); at 910 entries a checkpoint comes first
(R415). -/
def Dev.journal (d : Dev) (k a len : Nat) : Dev :=
  (List.range ((a + len - 1) / 64 + 1 - a / 64)).foldl (fun (d : Dev) i =>
    let line := a / 64 + i
    let known := (d.core k).journal.any (fun e => e.line == line)
    let d := if known then d
      else
        let d := if 910 ≤ (d.core k).journal.length then d.checkpoint k else d
        let c := d.core k
        d.setCore k { c with journal := d.jEntry line :: c.journal }
    let c := d.core k
    let lo := Nat.max a (64 * line)
    let hi := Nat.min (a + len) (64 * line + 64)
    (d.setCore k { c with journal := c.journal.map (fun e =>
      if e.line = line then { e with mask := e.mask ||| byteMask (lo - 64 * line) (hi - lo) } else e) }).journalCount k) d

/-- A store of a core to cacheable memory: journal, data, poison, tags. [DEDUCED (log 47)] -/
def Dev.coreStore (d : Dev) (k a : Nat) (l : List Byte) (bad : Bool) : Dev :=
  (d.journal k a l.length).putMem k a l (fun _ => bad)

/-- A capability stored by a core; its tag is kept in Core SRAM only (17 R372). -/
def Dev.coreStoreCap (d : Dev) (k a : Nat) (c : Capability) : Dev :=
  (d.coreStore k a (bytesLE 16 c.bits) false).setTag a (wordPoison a && c.tag)

/-- Results of the coprocessor port become the values of their registers at once (15 R347). -/
def Arch.landAll (a : Arch) (l : List CpOp) : Arch :=
  { a with cq := l.foldl (fun t o => if o.dead then t else Table.put 0 t o.cq o.val) a.cq }

/-- A rollback starts (19 R421, R424), or fails the pair. Causes: 1 MISMATCH, with its compare lane, 2 STACK_LIMIT, 3 VECTOR. -/
def Dev.startRollback (d : Dev) (k cause lane : Nat) : Dev :=
  let p := pgIntc k
  let c := d.core k
  if d.on p F.LS_STAT_RECOVERING then d.failPair k 1
  else if cause = 1 ∧ bitsOf (d.lsCtrl k) 4 4 ≤ c.repeats then d.failPair k 2
  else if cause ≠ 1 ∧ c.detRepeat = true then d.failPair k 5
  else
    let d := (d.pulse (1837 + k)).setB p F.LS_STAT_RECOVERING true
    let d := (d.inc p F.LS_RB_CNT_ROLLBACKS).setF p F.LS_STAT_LAST_CAUSE cause
    let d := d.setR64 p 0x120 d.count
    let d := if cause = 1 && !d.on p F.LS_MISMATCH_VALID then
      (d.setF p F.LS_MISMATCH_LANE lane).setB p F.LS_MISMATCH_VALID true else d
    d.setCore k { c with
      resv := none
      tlb := []
      rbTick := d.tick
      wfi := false
      commit := false
      repeats := if cause = 1 then c.repeats + 1 else c.repeats
      detRepeat := c.detRepeat || cause != 1 }

/-- Why an instruction faults (17 Table 17-8): the code, its detail, and the address of SAVE_FADDR. -/
structure CFault where
  code : Nat
  detail : Nat
  faddr : Nat
  deriving DecidableEq, Repr

/-- SAVE_CAUSE (Table 17-8). -/
def causeWord (code detail event : Nat) : W64 := BitVec.ofNat 64 (code + detail * 2 ^ 8 + event * 2 ^ 24)

/-- A 64-bit word of a spilled frame, written to the return stack (17 R383). -/
def Dev.spillWord (d : Dev) (k a v : Nat) : Dev := d.coreStore k a (bytesLE 8 v) false

/-- The header slot of a spilled frame (R383): kind 1 save set, 2 door link. [DEDUCED (log 97)] -/
def frameHeader (level kind : Nat) (spill : Bool) : Nat := level + b2n spill * 8 + kind * 16 + 0x5A11 * 2 ^ 32

/-- A save set is pushed as a frame (Table 17-7). -/
def Dev.spillSet (d : Dev) (k n : Nat) : Dev :=
  let a := d.arch k
  let s := a.saved n
  let rsp := a.rsp.toNat - 0x60
  let d := (d.spillWord k rsp (frameHeader n 1 (a.spill.getLsbD n))).spillWord k (rsp + 8) s.faddr.toNat
  let d := (d.spillWord k (rsp + 0x10) s.pc.toNat).spillWord k (rsp + 0x18) s.st.toNat
  let d := (d.spillWord k (rsp + 0x20) s.a.toNat).spillWord k (rsp + 0x28) s.x.toNat
  let d := (d.spillWord k (rsp + 0x30) s.y.toNat).spillWord k (rsp + 0x38) s.cause.toNat
  let d := (d.coreStoreCap k (rsp + 0x40) s.pcc).coreStoreCap k (rsp + 0x50) s.ddc
  let a := d.arch k
  d.setArch k { a with rsp := BitVec.ofNat 64 rsp, spill := a.spill ||| BitVec.ofNat 8 (2 ^ n) }

/-- A vector entry that is usable (17 R390): its code and data capabilities. [DEDUCED (log 96)] -/
def Dev.vectorAt (d : Dev) (k v : Nat) : Option (Capability × Capability) :=
  let t := (d.arch k).trapBase
  let e := t.addr.toNat + 32 * v
  let code := d.capAt e
  let data := d.capAt (e + 16)
  if t.tag && t.sealing == 0 && t.has permLoad && t.has permLoadCap && t.covers e 32 && wordPoison e && wordPoison (e + 31) &&
      !d.poisonedRange e 32 && code.tag && code.sealing == 0 && code.has permExecute && data.tag && data.sealing == 0 then
    some (code, data)
  else none

/-- The state an entry to level n writes (17 R387): the save set, OCC, LVL and IE. -/
def Arch.enter (a : Arch) (n : Nat) (pc cause faddr : W64) : Arch :=
  { a with
    sets := Table.put {} a.sets n
      { pc := pc, st := a.st, a := a.a, x := a.x, y := a.y, cause := cause, faddr := faddr, pcc := a.pcc, ddc := a.ddc }
    occ := a.occ ||| BitVec.ofNat 8 (2 ^ n)
    st := putBits (putBits a.st 8 3 n) 11 1 0 }

/-- Save-set side of an entry to level n (R387); `none` when the return stack has no room (R389). [DEDUCED (log 96)] -/
def Dev.enterLevel (d : Dev) (k n : Nat) (pc cause faddr : W64) : Option Dev :=
  let c := d.core k
  let d := d.setCore k { c with arch := c.arch.landAll c.cps, cps := [], resv := none }
  let a := d.arch k
  if a.occ.getLsbD n then
    if a.rsp.toNat < a.rspLim.toNat + 0x60 ∨ wordPoison (a.rsp.toNat - 0x60) = false then none
    else
      let d := d.spillSet k n
      some (d.setArch k ((d.arch k).enter n pc cause faddr))
  else some (d.setArch k (a.enter n pc cause faddr))

/-- Taking an exception (17 R386-R390): entry to level n through vector v with the resume PC. An unusable vector is a machine
check at level 7; a machine check that cannot be delivered starts the rollback path. -/
def Dev.takeException (d : Dev) (k n v : Nat) (pc cause faddr : W64) : Dev :=
  match d.enterLevel k n pc cause faddr with
  | none => d.startRollback k 2 0
  | some d =>
    match d.vectorAt k v with
    | some (code, data) => d.setArch k { d.arch k with pcc := code, ddc := data }
    | none =>
      match d.enterLevel k 7 pc (causeWord 0x10 v 0) 0 with
      | none => d.startRollback k 2 0
      | some d =>
        match d.vectorAt k 0x107 with
        | some (code, data) => d.setArch k { d.arch k with pcc := code, ddc := data }
        | none => d.startRollback k 3 0

/-- A precise fault of the instruction at `pc`, taken at the current level (R387, Table 17-11). -/
def Dev.takeFault (d : Dev) (k : Nat) (pc : W64) (f : CFault) : Dev :=
  let n := (d.arch k).lvl
  d.takeException k n (0x100 + n) pc (causeWord f.code f.detail 0) (BitVec.ofNat 64 f.faddr)

/-- A spilled save-set frame of level n with tagged capability slots lies at the return-stack pointer (R391). -/
def Dev.frameOk (d : Dev) (rsp n : Nat) : Bool :=
  wordPoison rsp && wordPoison (rsp + 0x5F) &&
    (let h := valueLE (d.memBytes rsp 8)
     nbits h 0 3 == n && nbits h 4 4 == 1 && nbits h 8 24 == 0 && nbits h 32 16 == 0x5A11 && nbits h 48 16 == 0) &&
    d.tag (rsp + 0x40) && d.tag (rsp + 0x50)

/-- A save set read back from its frame (Table 17-7). -/
def Dev.frameSet (d : Dev) (rsp : Nat) : SaveSet :=
  let w : Nat → W64 := fun o => BitVec.ofNat 64 (valueLE (d.memBytes (rsp + o) 8))
  { faddr := w 8, pc := w 0x10, st := w 0x18, a := w 0x20, x := w 0x28, y := w 0x30, cause := w 0x38
    pcc := d.capAt (rsp + 0x40), ddc := d.capAt (rsp + 0x50) }

/-- The failing check of RTE at level n (R391). -/
def Dev.rteFailure (d : Dev) (k n : Nat) : Option Nat :=
  let a := d.arch k
  let s := a.saved n
  if !a.occ.getLsbD n then some 6
  else if !s.pcc.tag then some 1
  else if !s.ddc.tag then some 2
  else if !s.pcc.fits s.pc then some 3
  else if n < bitsOf s.st 8 3 then some 4
  else if a.spill.getLsbD n && !d.frameOk a.rsp.toNat n then some 5
  else none

/-- The return of RTE once every check has passed (R391). -/
def Dev.restoreSet (d : Dev) (k n : Nat) : Dev :=
  let a := d.arch k
  let s := a.saved n
  let b := { a with pcc := s.pcc.move s.pc, ddc := s.ddc, a := s.a, x := s.x, y := s.y, st := s.st &&& 0xF1F }
  if a.spill.getLsbD n then
    let f := d.frameSet a.rsp.toNat
    let again := nbits (valueLE (d.memBytes a.rsp.toNat 8)) 3 1 == 1
    d.setArch k { b with
      sets := Table.put {} b.sets n f
      spill := if again then b.spill else b.spill &&& ~~~ BitVec.ofNat 8 (2 ^ n)
      rsp := b.rsp + 0x60 }
  else d.setArch k { b with occ := b.occ &&& ~~~ BitVec.ofNat 8 (2 ^ n) }

end Sys2Proof.Machine
end

