-- ==== Sys2Proof/Machine/Lintel.lean ====
section
/-!
DEFINITION. Sys2Proof/Machine/Lintel.lean: the Lintel count, its rate trim and step, the software events and the
levels of the event fabric's page events (04_time_base_and_launch.md).
-/
namespace Sys2Proof.Machine

/-- TRIM in effect (R89), as at the start of the tick: zero while EN is 0. -/
def Dev.trim (d : Dev) : Int := if d.atTick.en pgLintel then d.atTick.fs pgLintel F.LT_TRIM_TRIM else 0

/-- The trim carry of the present tick: -1, 0 or +1 (R89). -/
def Dev.trimCarry (d : Dev) : Int := ((d.f pgLintel F.LT_FRAC_FRAC : Int) + d.trim) / (2 : Int) ^ 32

/-- The count of the next tick (R89, R91): the step adds to it. [DEDUCED (log 51)] -/
def Dev.nextCount (d : Dev) : W64 :=
  d.time.count + 1 + BitVec.ofInt 64 d.trimCarry + d.time.stepPending.getD 0

/-- One tick of the Lintel page (R89): FRAC, the count and the skip and hold counters, which wrap. -/
def Dev.lintelTick (d : Dev) : Dev :=
  let sum := (d.f pgLintel F.LT_FRAC_FRAC : Int) + d.trim
  let carry := d.trimCarry
  let n := d.nextCount
  let d := d.setF pgLintel F.LT_FRAC_FRAC (sum - carry * (2 : Int) ^ 32).toNat
  let d := if carry = 1 then d.incWrap pgLintel F.LT_SKIP_CNT_SKIP
    else if carry = -1 then d.incWrap pgLintel F.LT_HOLD_CNT_HOLD else d
  { d with time := { d.time with count := n, tick := d.time.tick + 1, stepPending := none } }

/-- LT_PHASE (R56): the count less the clock-tree tick index, modulo 16. -/
def Dev.ltPhase (d : Dev) : Nat := (d.time.count.toNat + 16 * (d.time.tick / 16 + 1) - d.time.tick) % 16

/-- A 32-bit read of LT_NOW_LO by a requester (R87): the high word is latched for it. -/
def Dev.ltNowLo (d : Dev) (req : Nat) : Dev :=
  { d with
    time := { d.time with hiLatch := Table.put 0 d.time.hiLatch req (BitVec.ofNat 32 (d.count / 2 ^ 32)) }
    resp := { data := d.count % 2 ^ 32 } }

/-- The lowest instance of `n` pages that has EN or STATUS.BUSY (R91). -/
def Dev.firstEnabled (d : Dev) (page : Nat → Nat) (n : Nat) : Option Nat :=
  (List.range n).find? (fun i => d.en (page i) || d.busy (page i))

/-- Why a step is refused, with the blocker (Table 4-2): the lowest code that applies. [DEDUCED (log 153)] -/
def Dev.stepRefusal (d : Dev) : Option (Nat × Nat) :=
  match d.firstEnabled (fun n => pgPwm (n / 6) (n % 6)) 96 with
  | some n => some (1, n)
  | none => match d.firstEnabled pgTlc 32 with
    | some l => some (2, l)
    | none =>
      let s := signedOf 64 (d.r64 pgLintel 0x50)
      if s < 0 ∧ (d.count : Int) + 1 < -s then some (3, d.f pgLintel F.LT_STAT_BLOCKER)
      else if !d.en pgLintel then some (4, d.f pgLintel F.LT_STAT_BLOCKER) else none

/-- A write of 1 to LT_CTRL.STEP_GO (R91): the step is applied in the next tick, or refused. [DEDUCED (log 153)] -/
def Dev.stepGo (d : Dev) : Dev :=
  match d.stepRefusal with
  | none =>
    let d := (d.setB pgLintel F.LT_STAT_STEP_DONE true).irq pgLintel 0
    { d with time := { d.time with stepPending := some (BitVec.ofNat 64 (d.r64 pgLintel 0x50)) } }
  | some (code, b) =>
    let d := (d.setB pgLintel F.LT_STAT_STEP_REFUSED true).irq pgLintel 1
    (d.setF pgLintel F.LT_STAT_REFUSE_CODE code).setF pgLintel F.LT_STAT_BLOCKER b

/-- The level of software event n (R108). -/
def Dev.swLevel (d : Dev) (n : Nat) : Bool := bitAt (d.reg (pgEvf + 0x60 + 4 * (n / 32))) (n % 32)

/-- Software event n sets, unless it was cleared in the same tick (R108). -/
def Dev.swSet (d : Dev) (n : Nat) : Dev :=
  if Table.get 0 d.swClr n = d.tick + 1 then d else d.setF pgEvf ⟨0x60 + 4 * (n / 32), n % 32, 1⟩ 1

/-- Software event n clears (R108). -/
def Dev.swClear (d : Dev) (n : Nat) : Dev :=
  { d.setF pgEvf ⟨0x60 + 4 * (n / 32), n % 32, 1⟩ 0 with swClr := Table.put 0 d.swClr n (d.tick + 1) }

/-- A write of EV_SW_SET_q or EV_SW_CLR_q (R108). [DEDUCED (log 2)] -/
def Dev.swWord (d : Dev) (q : Nat) (v : W32) (set : Bool) : Dev :=
  d.forN 32 (fun b d => if bitAt v b then (if set then d.swSet (32 * q + b) else d.swClear (32 * q + b)) else d)

/-- A page raises its event: IRQ_PEND AND IRQ_EN is non-zero (01 R20), and its domain is on (R107). -/
def Dev.pageEvent (d : Dev) (p : Nat) : Bool :=
  (match pageAt p with | some i => d.domOn i.dom | none => false) &&
    (d.reg (p + 0x20) &&& d.reg (p + 0x24)) != 0

/-- Any page of a list raises its event. -/
def Dev.anyEvent (d : Dev) (l : List Nat) : Bool := l.any d.pageEvent

/-- Pages whose events EV_(112c + 110) collects (Table 4-12). -/
def casPages (c : Nat) : List Nat :=
  (List.range 6).map (pgPwm c) ++ (List.range 4).map (pgTmr c) ++ [pgWdCas c] ++
    (List.range 4).map (fun m => pgSash (4 * c + m)) ++ [pgJq c] ++ (List.range 32).map (pgTpl c) ++
    [pgLctl c] ++ (List.range 4).map (pgLent c) ++
    (List.range 4).flatMap (fun m => (List.range 4).map (pgMon (4 * c + m)) ++ [pgInj (4 * c + m), pgCap (4 * c + m)])

/-- Pages whose events EV_(112c + 111) collects. -/
def anaPages (c : Nat) : List Nat :=
  (List.range 4).map (pgAdc c) ++ [pgSd c] ++ (List.range 4).map (pgCmp c)

/-- The level of a page event of Table 4-13. -/
def Dev.devPageEvent (d : Dev) (e : Nat) : Bool :=
  if e < 1847 then false
  else if e < 1879 then
    let l := e - 1847
    d.anyEvent [pgTlc l, pgTlnb l, pgTltt l, pgTlcnt l]
  else if e = 1879 then d.anyEvent ((List.range 24).map pgGroup ++ [pgFlt, pgVt] ++ (List.range 16).map pgCasSrc)
  else if e = 1880 then
    d.anyEvent [pgSysid, pgClk, pgPwr, pgRst, pgTemp, pgEvf, pgOwn, pgFerr, pgOtp,
      0xE0010000, 0xE0011000, 0xE0012000, 0xE0013000]
  else if e = 1881 then d.pageEvent pgLintel
  else if e < 1884 then d.anyEvent [pgHbm (e - 1882), pgCode (e - 1882), pgScrub (e - 1882), pgSill (e - 1882)]
  else if e < 1888 then d.pageEvent (pgEth (e - 1884))
  else if e = 1888 then d.anyEvent [pgPf 0, pgPf 1, pgDma]
  else if e < 1897 then d.pageEvent (pgCan (e - 1889))
  else if e = 1897 then d.pageEvent pgXspi
  else if e = 1898 then d.pageEvent pgI2c
  else if e = 1899 then
    d.anyEvent ((List.range 16).map pgEnc ++ [pgWing 0, pgWing 1] ++ (List.range 5).map pgWdCore)
  else if e = 1900 then
    d.anyEvent ((List.range 5).flatMap (fun k => pgIntc k :: (List.range 4).map (pgIntsrc k)))
  else false

end Sys2Proof.Machine
end

