-- ==== Sys2Proof/Machine/Events.lean ====
section
/-!
DEFINITION. Sys2Proof/Machine/Events.lean: the levels of the event fabric's level events (04 Tables 4-12, 4-13, R106, R107).
-/
namespace Sys2Proof.Machine

/-- Whether a casement event offset names a level event (Table 4-12). -/
def casLevel (o : Nat) : Bool := (30 ≤ o && o < 42) || o == 89 || o == 110 || o == 111

/-- Whether an event is a level event (Tables 4-12, 4-13). -/
def isLevel (e : Nat) : Bool :=
  if e < 1792 then casLevel (e % 112)
  else (e < 1816) || e == 1842 || (1847 ≤ e && e < 1901) || (1920 ≤ e && e < 2048)

/-- The level of a casement event of Table 4-12; a source in a domain that is off reads as inactive (R107). -/
def Dev.casEventLevel (d : Dev) (c o : Nat) : Bool :=
  if 30 ≤ o ∧ o < 42 then
    let i := o - 30
    d.domOn (domAna (c / 8)) && bitsOf (d.reg (pgCmp c (i / 3) + 0x78)) (2 * (i % 3)) 2 != 0
  else if o = 89 then d.domOn (domCas c) && d.on (pgJq c) F.JQ_STATUS_FULL
  else if o = 110 then d.anyEvent (casPages c)
  else if o = 111 then d.anyEvent (anaPages c)
  else false

/-- The level of group g's event: its latch as clocked logic sees it, from the tick of its record on (11 R253, R255, Table 11-12). [DEDUCED (log 53)] -/
def Dev.groupEvent (d : Dev) (g : Nat) : Bool := d.latched g && !(Table.get {} d.groups g : Group).recording

/-- The level of an event (R106). [DEDUCED (log 45)] -/
def Dev.eventLevel (d : Dev) (e : Nat) : Bool :=
  if e < 1792 then d.casEventLevel (e / 112) (e % 112)
  else if e < 1816 then d.groupEvent (e - 1792)
  else if e = 1842 then (List.range 5).any (fun k => d.domOn k && d.on (pgIntc k) F.LS_STAT_FAILED)
  else if 1920 ≤ e ∧ e < 2048 then d.swLevel (e - 1920)
  else d.devPageEvent e

/-- The page event a page raises (Tables 4-12, 4-13). -/
def pageEventNo (p : PageInfo) : Option Nat :=
  let n := p.inst
  match p.kind with
  | .pwm => some (evCas (n / 6) 110)
  | .timer | .sash | .lent | .inj | .cap => some (evCas (n / 4) 110)
  | .mon => some (evCas (n / 16) 110)
  | .tpl => some (evCas (n / 32) 110)
  | .wd | .jq | .lctl => some (evCas n 110)
  | .adc | .cmp => some (evCas (n / 4) 111)
  | .sd => some (evCas n 111)
  | .tlc | .tlnb | .tltt | .tlcnt => some (1847 + n)
  | .group | .flt | .vt | .cassrc => some 1879
  | .sysid | .clk | .pwr | .rst | .temp | .evf | .own | .ferr | .otp | .fcal => some 1880
  | .lintel => some 1881
  | .hbm | .code | .scrub | .sill => some (1882 + n)
  | .eth => some (1884 + n)
  | .pf | .dma => some 1888
  | .can => some (1889 + n)
  | .xspi => some 1897
  | .i2c => some 1898
  | .enc | .wing | .wdc => some 1899
  | .intc | .intsrc => some 1900
  | .dbg => none

/-- The level events that the register word at an address can assert (R106). -/
def wordEvents (a : Nat) (v : W32) : List Nat :=
  let o := a % 0x1000
  if o = 0x10 ∨ o = 0x24 ∨ o = 0x78 ∨ o = 0x114 ∨ (0x60 ≤ o ∧ o < 0x70) then
    match pageAt a with
    | none => []
    | some p =>
      if o = 0x24 then (pageEventNo p).toList
      else match p.kind with
        | .cmp => if o = 0x78 then (List.range 3).map (fun i => evCas (p.inst / 4) (30 + 3 * (p.inst % 4) + i)) else []
        | .jq => if o = 0x10 then [evCas p.inst 89] else []
        | .group => if o = 0x10 then [1792 + p.inst] else []
        | .intc => if o = 0x114 then [1842] else []
        | .evf => if 0x60 ≤ o then ((List.range 32).filter (fun b => bitAt v b)).map (fun b => 1920 + 8 * (o - 0x60) + b) else []
        | _ => []
  else []

/-- The level events that are asserted. -/
def Dev.asserted (d : Dev) : List Nat := ((d.regs.flatMap (fun e => wordEvents e.1 e.2)).eraseDups).filter d.eventLevel

/-- The event fabric takes up the level events as they stand (R106, R107); what ended 32 ticks ago is past. -/
def Dev.levelSee (d : Dev) : Dev :=
  let on := d.asserted
  let runs := (d.levels.map (fun r => if r.till.isNone && !on.contains r.ev then { r with till := some d.tick } else r)).filter
    (fun r => match r.till with | none => true | some t => decide (d.tick < t + 32))
  let new := on.filter (fun e => !runs.any (fun r => r.ev == e && r.till.isNone))
  { d with levels := runs ++ new.map (fun e => { ev := e, since := d.tick, count := d.count }) }

end Sys2Proof.Machine
end

