-- ==== Sys2Proof/Machine/Hbm.lean ====
section
/-!
DEFINITION. Sys2Proof/Machine/Hbm.lean: HBM controllers, scrubbing and the Sill streamers
(20_hbm_memory_and_codes.md).
-/
namespace Sys2Proof.Machine

/-- The threshold of a refresh rate in °C (Table 20-1). -/
def refreshAt (l : Nat) : Int := match l with | 1 => 85 | 2 => 100 | _ => 115

/-- A reading of the stack's hottest sensor sets the refresh rate; it steps down 3 °C below a threshold (R431). -/
def Dev.hbmTemp (d : Dev) (s : Nat) (t : Int) : Dev :=
  let p := pgHbm s
  if !d.domOn (domHbm s) then d
  else
    let cur := d.f p F.HBM_TEMP_REFRESH
    let lvl := (List.range 4).foldl (fun a l =>
      if l ≠ 0 ∧ (refreshAt l < t ∨ (l ≤ cur ∧ refreshAt l - 3 < t)) then l else a) 0
    (d.setF p F.HBM_TEMP_TEMP (codeOf 8 t)).setF p F.HBM_TEMP_REFRESH lvl

/-- An access is answered with an error (R430, 01 R32). -/
def Dev.refuse (d : Dev) (req a len : Nat) (write : Bool) (cause : Nat) : Dev :=
  { d.memViolation req a len write cause with resp := { error := some cause } }

/-- A bitmap word with an uncorrectable error reads as all ones (R436). -/
def Dev.bitmapError (d : Dev) (s page : Nat) : Dev :=
  let d := d.inc (pgScrub s) F.BITMAP_ERR_COUNT
  (List.range 64).foldl (fun (d : Dev) i =>
    d.setHbm s { d.hbm s with valid := Table.put false (d.hbm s).valid (page / 64 * 64 + i) true }) d

/-- HBM_READ: a read of at most 64 bytes of one line, with what its page decodes to (R435-R439). [DEDUCED (log 74)] -/
def Dev.hbmRead (d : Dev) (req a len : Nat) (out : Decode) (bitmap : Bool) : Dev :=
  match d.memCause a len false false with
  | some c => d.refuse req a len false c
  | none =>
    if a < hbmBase 0 then d
    else
      let s := (a - hbmBase 0) / 0x400000000
      let d := if bitmap then d.bitmapError s ((a - hbmBase s) / 2048) else d
      let (d, p) := d.mbRead s a len out
      let l := if Table.get false (d.hbm s).valid ((a - hbmBase s) / 2048) then d.bytes a len else []
      { d with resp := { data := valueLE l, poison := p } }

/-- HBM_WRITE: a write of at most 64 bytes of one line (R436, R437, R439). -/
def Dev.hbmWrite (d : Dev) (req a : Nat) (l : List Byte) (bad : Bool) : Dev :=
  match d.memCause a l.length true false with
  | some c => d.refuse req a l.length true c
  | none => if a < hbmBase 0 then d else { d.putMem 99 a l (fun _ => bad) with resp := {} }

/-- MB_AGE_WRITEBACK (R438): a dirty entry has reached HBM_MB_AGE. [DEDUCED (log 75)] -/
def Dev.mbAged (d : Dev) (s page : Nat) (bad : Bool) : Dev :=
  let age := 6000 * d.f (pgHbm s) F.HBM_MB_AGE_AGE
  if (d.hbm s).mb.any (fun e => e.page == page && e.dirty && e.last + age ≤ d.tick) then d.mbWriteBack s page bad else d

/-- Pages of a stack become invalid: they read as zero, without poison (R436). Pages past the end of the stack do not exist. -/
def Dev.hbmInvalidate (d : Dev) (s first n : Nat) : Dev :=
  let n := Nat.min n (8388608 - first)
  let lo := hbmBase s + 2048 * first
  let out : Nat → Bool := fun a => a < lo || lo + 2048 * n ≤ a
  let h := d.hbm s
  { d.setHbm s { h with
      valid := Table.keep (fun q => q < first || first + n ≤ q) h.valid
      mb := h.mb.filter (fun (e : MbEntry) => e.page < first || first + n ≤ e.page) } with
    mem := Table.keep out d.mem
    poison := Table.keep (fun q => 0x1000000000000 ≤ q || out (64 * q)) d.poison
    l2ok := Table.keep (fun q => out (64 * q)) d.l2ok }

/-- A write of HBM_INVAL_GO (R436). -/
def Dev.hbmInvalGo (d : Dev) (s : Nat) : Dev :=
  let b := d.r64 (pgHbm s) 0x50
  if b < hbmBase s ∨ hbmBase (s + 1) ≤ b then d
  else d.hbmInvalidate s ((b - hbmBase s) / 2048) (d.f (pgHbm s) F.HBM_INVAL_PAGES_PAGES)

/-- HBM_PATROL (R441): the patrol reads a valid page in NORMAL mode. -/
def Dev.hbmPatrol (d : Dev) (s page : Nat) (out : Decode) : Dev :=
  if d.live (pgScrub s) && d.on (pgScrub s) F.SCR_CTRL_PATROL_EN && d.live (pgHbm s) && d.live (pgCode s) &&
      d.f (pgHbm s) F.HBM_CTRL_MODE == 0 && Table.get false (d.hbm s).valid page then
    (d.mbRead s (hbmBase s + 2048 * page) 2048 out).1
  else d

/-- A write of SCR_GO (R442); a base that lies in no page of the stack names none. [DEDUCED (log 77)] -/
def Dev.scrGo (d : Dev) (s : Nat) : Dev :=
  let p := pgScrub s
  let h := d.hbm s
  let b := d.r64 p 0x48
  let n := if b < hbmBase s ∨ hbmBase (s + 1) ≤ b then 0 else d.f p F.SCR_RANGE_PAGES_PAGES
  (d.setHbm s { h with scrubs := h.scrubs ++ [((b - hbmBase s) / 2048, n)] }).setB p F.SCR_STAT_RANGE_BUSY true

/-- One page of a range scrub (R442): in RECOVERY a page that does not decode is rebuilt with POISON in its failing flits. -/
def Dev.scrubPage (d : Dev) (s : Nat) (x : ScrubPage) : Dev :=
  let a := hbmBase s + 2048 * x.page
  if !Table.get false (d.hbm s).valid x.page then d
  else
    let d := (d.mbRead s a 2048 x.out).1
    let rebuilt : Bool := d.f (pgHbm s) F.HBM_CTRL_MODE == 2 && (match x.out with
      | .uncorrectable | .detectMiss | .miscorrected => true
      | _ => false)
    if rebuilt then d.forN 32 (fun i d => if x.failing.getLsbD i then d.setPoison (a + 64 * i) true else d) else d

/-- SCRUB_RANGE_DONE (R442): pages not listed decode clean. [DEDUCED (log 77)] -/
def Dev.scrubDone (d : Dev) (s : Nat) (found : List ScrubPage) : Dev :=
  let h := d.hbm s
  match h.scrubs with
  | [] => d
  | (first, n) :: rest =>
    let d := found.foldl (fun (d : Dev) x => if first ≤ x.page ∧ x.page < first + n then d.scrubPage s x else d) d
    let d := d.setHbm s { d.hbm s with scrubs := rest }
    let d := if rest.isEmpty then d.setB (pgScrub s) F.SCR_STAT_RANGE_BUSY false else d
    d.irq (pgScrub s) 1

/-- Enabling the code-regions page (R449): the bitmap clears and CR_DATA_END reads the regions' ends. -/
def Dev.codeEnable (d : Dev) (s : Nat) : Dev :=
  (d.hbmInvalidate s 0 8388608).forN 4 (fun r d => d.setR64 (pgCode s) (0x60 + 8 * r) (d.crEnd s r))

/-- The enable check of an HBM controller page (R448). -/
def Dev.hbmCheck (d : Dev) (s : Nat) : List (Nat × Nat) :=
  let p := pgHbm s
  (if d.f p F.HBM_CTRL_MODE = 3 then [(0x40, 1)] else []) ++
  (if d.f p F.HBM_MB_AGE_AGE = 0 ∨ 1000 < d.f p F.HBM_MB_AGE_AGE then [(0x4C, 2)] else []) ++
  (if d.r64 p 0x50 % 2048 ≠ 0 then [(0x50, 4)] else []) ++
  (if 8388608 < d.f p F.HBM_INVAL_PAGES_PAGES then [(0x58, 2)] else [])

/-- The enable check of a code-regions page (R449). -/
def Dev.codeCheck (d : Dev) (s : Nat) : List (Nat × Nat) :=
  (if d.en (pgHbm s) then [] else [(8, 5)]) ++
  (List.range 3).flatMap (fun i =>
    (if 16384 < d.crStart s (i + 1) then [(0x44 + 4 * i, 2)] else []) ++
    (if i < 2 ∧ d.crStart s (i + 2) < d.crStart s (i + 1) then [(0x44 + 4 * i, 3)] else []))

/-- A field of a streamer descriptor (Table 20-5). -/
def Transfer.fld (t : Transfer) (w lsb n : Nat) : Nat := bitsOf (t.words.getD w 0) lsb n
/-- A 64-bit field. -/
def Transfer.w64 (t : Transfer) (w : Nat) : Nat := t.fld w 0 32 + t.fld (w + 1) 0 32 * 2 ^ 32
/-- LINES. -/
def Transfer.lines (t : Transfer) : Nat := t.fld 4 0 24
/-- ROWS. -/
def Transfer.rows (t : Transfer) : Nat := t.fld 5 0 16
/-- All lines of the transfer. -/
def Transfer.total (t : Transfer) : Nat := t.lines * t.rows
/-- The source address of line i. -/
def Transfer.src (t : Transfer) (i : Nat) : Nat := t.w64 0 + i / t.lines * t.fld 6 0 32 + 64 * (i % t.lines)
/-- The destination address of line i. -/
def Transfer.dst (t : Transfer) (i : Nat) : Nat := t.w64 2 + i / t.lines * t.fld 7 0 32 + 64 * (i % t.lines)

/-- A line lies in a memory the streamer reaches (R444). -/
def Dev.sillMem (d : Dev) (a : Nat) : Bool :=
  match memAt a with
  | some (.coreSram, _) | some (.wing, _) | some (.scratch, _) => true
  | some (.sash, _) => sashPart (a % 0x100000) == .data
  | some (.hbm, _) => d.hbmInRegion a && d.hbmInRegion (a + 63)
  | _ => false

/-- A row of `n` lines lies in memories the streamer reaches. -/
def Dev.sillRow (d : Dev) (a n : Nat) : Bool :=
  d.sillMem a && d.sillMem (a + 64 * (n - 1)) && (List.range n).all (fun i => d.sillMem (a + 64 * i))

/-- A descriptor is valid (R445). [DEDUCED (log 80)] -/
def Dev.descOk (d : Dev) (t : Transfer) : Bool :=
  t.fld 8 0 1 == 1 && t.fld 4 24 8 == 0 && t.fld 5 16 16 == 0 && t.fld 8 23 9 == 0 &&
    (List.range 7).all (fun i => t.fld (9 + i) 0 32 == 0) &&
    t.w64 0 % 64 == 0 && t.w64 2 % 64 == 0 && t.fld 6 0 32 % 64 == 0 && t.fld 7 0 32 % 64 == 0 &&
    t.lines != 0 && t.rows != 0 &&
    (List.range t.rows).all (fun r => d.sillRow (t.src (r * t.lines)) t.lines && d.sillRow (t.dst (r * t.lines)) t.lines)

/-- SILL_STAT follows the queue. [DESIGN CHOICE (log 78)] -/
def Dev.sillStat (d : Dev) (s : Nat) : Dev :=
  let q := (d.hbm s).queue
  (d.setF (pgSill s) F.SILL_STAT_QUEUED q.length).setF (pgSill s) F.SILL_STAT_RUNNING (q.filter (·.running)).length

/-- Why a start of the descriptor at an address is refused (Table 20-6), else the transfer without its number. [DEDUCED (log 80)] -/
def Dev.sillJudge (d : Dev) (s a : Nat) : Except Nat Transfer :=
  let t : Transfer := {
    num := 0, words := (List.range 16).map (fun k => BitVec.ofNat 32 (d.load (a + 4 * k) 4)), mark := 0, tick := d.tick
    running := false, copied := 0 }
  if !d.live (pgSill s) then .error 1
  else if 16 ≤ (d.hbm s).queue.length then .error 2
  else if a % 64 ≠ 0 ∨ wordPoison a = false then .error 3
  else if d.poisonedRange a 64 then .error 4
  else if !d.descOk t then .error 3
  else .ok { t with mark := d.pulsesSeen none (t.fld 8 2 11) }

/-- A transfer is started (R445): its number, or the refusal code. The number of the first one is the streamer's own. [DESIGN CHOICE (log 79)] -/
def Dev.sillStart (d : Dev) (s a : Nat) : Dev × Except Nat Nat :=
  match d.sillJudge s a with
  | .error c => (if d.domOn (domHbm s) then d.setF (pgSill s) F.SILL_LAST_CODE c else d, .error c)
  | .ok t =>
    let h := d.hbm s
    let (i, d) := match h.last with | some _ => (0, d) | none => d.takeFresh
    let n := match h.last with | some m => (m + 1) % 65536 | none => (Config.freeValue i).toNat % 65536
    let d := d.setHbm s { h with queue := h.queue ++ [{ t with num := n }], last := some n }
    ((d.setF (pgSill s) F.SILL_LAST_NUMBER n).sillStat s, .ok n)

/-- A transfer's start condition holds (R445), as the streamer sees its event (04 R107). -/
def Dev.sillReady (d : Dev) (t : Transfer) : Bool :=
  t.tick < d.tick && (t.fld 8 1 1 == 0 || d.levelSeen none (t.fld 8 2 11) || t.mark < d.pulsesSeen none (t.fld 8 2 11))

/-- TRANSFER_START (R445): the first waiting transfer of the queue whose condition holds, with at most 4 running. -/
def Dev.transferStart (d : Dev) (s : Nat) : Dev :=
  let h := d.hbm s
  if 4 ≤ (h.queue.filter (·.running)).length || !d.live (pgSill s) || d.clocksStill then d
  else match h.queue.find? (fun t => !t.running && d.sillReady t) with
    | none => d
    | some t => (d.setHbm s { h with queue := h.queue.map (fun x => if x = t then { t with running := true } else x) }).sillStat s

/-- The error a line of a transfer meets: its cause, address and direction. -/
def Dev.lineCause (d : Dev) (t : Transfer) (i : Nat) : Option (Nat × Nat × Bool) :=
  match d.memCause (t.src i) 64 false false with
  | some c => some (c, t.src i, false)
  | none => (d.memCause (t.dst i) 64 true false).map (fun c => (c, t.dst i, true))

/-- The first line still to be copied that meets an error. -/
def Dev.failingLine (d : Dev) (t : Transfer) : Option Nat :=
  ((List.range (t.total - t.copied)).map (· + t.copied)).find? (fun i => (d.lineCause t i).isSome)

/-- Lines of a transfer are copied up to line `to_`, rows in order, lines ascending (R446); one that was dropped on its way is poisoned
(05 R137). -/
def Dev.copyTo (d : Dev) (t : Transfer) (to_ : Nat) : Dev :=
  (List.range (to_ - t.copied)).foldl (fun (d : Dev) i =>
    let a := t.dst (t.copied + i)
    let d := d.copyLines (t.src (t.copied + i)) a 1
    if d.lostLines.contains a then { d.setPoison a true with lostLines := d.lostLines.filter (· != a) } else d) d

/-- A transfer leaves the queue; its end is kept among the latest 256 numbers. -/
def Dev.sillEnd (d : Dev) (s : Nat) (t : Transfer) (state left : Nat) : Dev :=
  let h := d.hbm s
  (d.setHbm s { h with
    queue := h.queue.filter (fun x => x.num != t.num)
    final := (h.final ++ [(t.num, state, left)]).drop (h.final.length + 1 - 256) }).sillStat s

/-- A running transfer by its number. -/
def Dev.runningXfer (d : Dev) (s n : Nat) : Option Transfer := (d.hbm s).queue.find? (fun t => t.num == n && t.running)

/-- TRANSFER_COMPLETE (R447): the last line is written, the event pulses, a NOTIFY sets its sash's latch. [DEDUCED (log 3); DESIGN CHOICE (log 78)] -/
def Dev.transferComplete (d : Dev) (s n : Nat) : Dev :=
  match d.runningXfer s n with
  | none => d
  | some t =>
    if (d.failingLine t).isSome || d.clocksStill then d
    else
      let d := (d.copyTo t t.total).sillEnd s t 2 0
      let d := (d.pulse (1845 + s)).inc (pgSill s) F.SILL_DONE_CNT_DONE
      let k := t.fld 8 16 6
      if t.fld 8 22 1 = 1 ∧ d.domOn (domCas (k / 4)) = true then
        let x : Sash := Table.get {} d.sashes k
        { d with sashes := Table.put {} d.sashes k { x with sill := Table.put false x.sill (t.fld 8 13 3) true } }
      else d

/-- TRANSFER_ERROR (R447): an access answered with an error ends the transfer. -/
def Dev.transferError (d : Dev) (s n : Nat) : Dev :=
  match d.runningXfer s n with
  | none => d
  | some t =>
    match d.failingLine t with
    | none => d
    | some i =>
      match d.lineCause t i with
      | none => d
      | some (c, a, w) =>
        let d := (d.copyTo t i).sillEnd s t 3 (t.total - i)
        let p := pgSill s
        let d := d.memViolation (0x200 + s) a 64 w c
        let d := if d.on p F.SILL_ERR_INFO_VALID then d
          else ((d.setF p F.SILL_ERR_INFO_NUMBER n).setF p F.SILL_ERR_INFO_CAUSE c).setB p F.SILL_ERR_INFO_VALID true
        d.irq p 0

/-- How far a running transfer has come is not stated: it copies a free number of further lines, short of its last. [DESIGN CHOICE (log 78)] -/
def Dev.sillProgress (d : Dev) (s : Nat) (t : Transfer) : Dev × Transfer :=
  let (i, d) := d.takeFresh
  let room := Nat.min (t.total - t.copied) ((d.failingLine t).getD t.total - t.copied)
  let to_ := t.copied + (Config.freeValue i).toNat % Nat.max room 1
  let d := d.copyTo t to_
  let t' := { t with copied := to_ }
  let h := d.hbm s
  (d.setHbm s { h with queue := h.queue.map (fun x => if x = t then t' else x) }, t')

/-- A cancel (R447): a queued transfer is removed, a running one stops after the line in flight. -/
def Dev.sillCancel (d : Dev) (s n : Nat) : Dev :=
  match (d.hbm s).queue.find? (fun t => t.num == n) with
  | none => d
  | some t =>
    if t.running then
      let (d, t) := d.sillProgress s t
      d.sillEnd s t 4 (t.total - t.copied)
    else d.sillEnd s t 4 t.total

/-- The state of a transfer as STAT reports it (15 Table 15-11): code and lines remaining; `none` for an unknown number. The
table names no code for a cancelled one. [DESIGN CHOICE (log 79)] -/
def Dev.sillState (d : Dev) (s n : Nat) : Dev × Option (Nat × Nat) :=
  if (match (d.hbm s).last with | some m => decide (256 ≤ (m + 65536 - n) % 65536) | none => true) then (d, none)
  else match (d.hbm s).queue.find? (fun t => t.num == n) with
  | some t =>
    if t.running then
      let (d, t) := d.sillProgress s t
      (d, some (1, t.total - t.copied))
    else (d, some (0, t.total))
  | none =>
    match (d.hbm s).final.find? (fun t => t.1 == n) with
    | none => (d, none)
    | some (_, 4, left) =>
      let (i, d) := d.takeFresh
      (d, some ((Config.freeValue i).toNat % 4, left))
    | some (_, st, left) => (d, some (st, left))

/-- Clearing EN of a streamer page cancels every transfer (R451). -/
def Dev.sillDisable (d : Dev) (s : Nat) : Dev :=
  ((d.hbm s).queue.map (·.num)).foldl (fun (d : Dev) n => d.sillCancel s n) d

end Sys2Proof.Machine
end

