-- ==== Sys2Proof/Machine/Pcie.lean ====
section
/-!
DEFINITION. Sys2Proof/Machine/Pcie.lean: the PCIe functions and the DMA channels (21_host_and_network_interfaces.md R453-R459).
-/
namespace Sys2Proof.Machine

/-- A function's state. -/
def Dev.pf (d : Dev) (f : Nat) : Pf := Table.get {} d.pfs f

/-- Writes a function's state. -/
def Dev.setPf (d : Dev) (f : Nat) (x : Pf) : Dev := { d with pfs := Table.put {} d.pfs f x }

/-- Pieces of a range that lie in one 64-byte line each, as (address, length). -/
def linePieces (a len : Nat) : List (Nat × Nat) :=
  if len = 0 then []
  else (List.range ((a + len - 1) / 64 + 1 - a / 64)).map (fun i =>
    let lo := Nat.max a (64 * (a / 64 + i))
    (lo, Nat.min (a + len) (64 * (a / 64 + i + 1)) - lo))

/-- A violation of a piece that a bus agent accesses as aligned words (R32). -/
def Dev.pieceCause (d : Dev) (a len : Nat) (write : Bool) : Option Nat :=
  let bank := write && inSash a && (match sashPart (a % 0x100000) with | .bank _ => true | _ => false)
  let (b, n) := if bank ∨ 8 < len ∨ a % Nat.max len 1 = 0 then (a, len) else (a / 4 * 4, 4)
  d.memCause b n write false

/-- The first violation of a range of memory: its cause and piece. -/
def Dev.rangeCause (d : Dev) (a len : Nat) (write : Bool) : Option (Nat × Nat) :=
  (linePieces a len).findSome? (fun x => (d.pieceCause x.1 x.2 write).map (fun c => (c, x.1)))

/-- A read of a range of memory: its bytes and whether any carries poison. -/
def Dev.getRange (d : Dev) (a len : Nat) : Dev × List Byte × Bool :=
  (linePieces a len).foldl (fun (s : Dev × List Byte × Bool) x =>
    let (d, l, p) := s.1.getMem false x.1 x.2
    (d, s.2.1 ++ l, s.2.2 || p)) (d, [], false)

/-- Every 64-byte line a range touches is poisoned (R455). -/
def Dev.poisonLines (d : Dev) (a len : Nat) : Dev :=
  (linePieces a len).foldl (fun (d : Dev) x =>
    let u := x.1 / 64 * 64
    let d := d.forN 8 (fun i d => d.setPoison (u + 8 * i) true)
    { d with l2ok := Table.put 0 d.l2ok (u / 64) 0 }) d

/-- A write of a range of memory by an agent that is no core; `ep`: its data is poisoned (R455). -/
def Dev.putRange (d : Dev) (a : Nat) (l : List Byte) (ep : Bool) : Dev :=
  if l.isEmpty then d
  else
    let d := d.putMem 99 a l (fun _ => ep)
    if ep then d.poisonLines a l.length else d

/-- The memories of R454. -/
def Dev.hostMem (d : Dev) (a : Nat) : Bool :=
  match memAt a with
  | some (.coreSram, _) | some (.wing, _) | some (.scratch, _) | some (.sash, _) => true
  | some (.hbm, k) => !d.domOn k || d.hbmInRegion a
  | _ => false

/-- A range lies wholly within an enabled window of a function that grants its direction (R454). -/
def Dev.inWindow (d : Dev) (f a len : Nat) (write : Bool) : Bool :=
  let p := pgPf f
  d.en p && (List.range 8).any (fun k =>
    let c := d.reg (p + 0x88 + 16 * k)
    let b := d.r64 p (0x80 + 16 * k)
    bitAt c 7 && (if write then bitAt c 6 else bitAt c 5) && b ≤ a && a + len ≤ b + 2 ^ bitsOf c 0 5)

/-- A range lies in the boot window (R472). -/
def inBootWindow (a len : Nat) : Bool := 0x11000000 ≤ a && a + len ≤ 0x11FF0000

/-- BOOT_STAT.DONE. -/
def Dev.bootDone (d : Dev) : Bool := d.on pgSysid F.BOOT_STAT_DONE

/-- A function answers requests: its domain is on, its link is up and it is not in D3hot. -/
def Dev.pfUp (d : Dev) (f : Nat) : Bool :=
  d.domOn domHostio && d.on (pgPf f) F.PF_STAT_LINK_UP && !d.on (pgPf f) F.PF_STAT_D3

/-- A BAR2 access that is not accepted (R454): logged in the function page, answered with Completer Abort or dropped. [DEDUCED (log 109)] -/
def Dev.bar2Refused (d : Dev) (f a len : Nat) (write : Bool) : Dev :=
  { d.logAt (pgPf f) (0x300 + f) a len write 8 with resp := { error := some 8 } }

/-- Whether a BAR2 access is accepted (R454, R472). -/
def Dev.bar2Accepted (d : Dev) (f a len : Nat) (write : Bool) : Bool :=
  (f == 0 && write && !d.bootDone && inBootWindow a len) ||
    (d.inWindow f a len write && d.hostMem a && d.hostMem (a + len - 1))

/-- A BAR2 write of data (R454, R455). -/
def Dev.bar2Write (d : Dev) (f a : Nat) (l : List Byte) (ep : Bool) : Dev :=
  if !d.bar2Accepted f a l.length true then d.bar2Refused f a l.length true
  else match d.rangeCause a l.length true with
    | some (c, x) => d.refuse (0x300 + f) x l.length true c
    | none => { d.putRange a l ep with resp := {} }

/-- A BAR2 read (R454, R455). -/
def Dev.bar2Read (d : Dev) (f a len : Nat) : Dev :=
  if !d.bar2Accepted f a len false then d.bar2Refused f a len false
  else match d.rangeCause a len false with
    | some (c, x) => d.refuse (0x300 + f) x len false c
    | none =>
      let (d, l, p) := d.getRange a len
      { d with resp := { data := valueLE l, poison := p } }

/-- A word of the MSI-X table: message address low and high, data, and vector control, whose mask bit is 1 after reset. -/
def Pf.entry (x : Pf) (v w : Nat) : W32 := Table.get (if w = 3 then 1 else 0) x.table (4 * v + w)

/-- A function may send a vector's message: MSI-X enabled, not masked, Bus Master Enable 1, link up. [DEDUCED (log 109)] -/
def Dev.msixOpen (d : Dev) (f v : Nat) : Bool :=
  let x := d.pf f
  d.pfUp f && d.on (pgPf f) F.PF_STAT_BME && x.msixEn && !x.msixMask && !bitAt (x.entry v 3) 0

/-- MSIX_MESSAGE (R457): a vector whose event has asserted, or whose PBA bit is set, sends its message, or sets its PBA bit. [PRESUMED (log 107)] -/
def Dev.msixMessage (d : Dev) (f v : Nat) : Dev :=
  let x := d.pf f
  if !d.live (pgPf f) || !bitAt (d.reg (pgPf f + 0x100 + 4 * v)) 31 then d
  else if !bitAt x.due v && !bitAt x.pba v then d
  else
    let bit : BitVec 32 := BitVec.ofNat 32 (2 ^ v)
    if d.msixOpen f v then
      let a := (x.entry v 0).toNat + (x.entry v 1).toNat * 2 ^ 32
      d.setPf f { x with due := x.due &&& ~~~ bit, pba := x.pba &&& ~~~ bit, sent := some (a, (x.entry v 2).toNat) }
    else d.setPf f { x with due := x.due &&& ~~~ bit, pba := x.pba ||| bit }

/-- What a vector has seen of its event: whether it asserted since, and its present level. -/
def Dev.msixSeeOne (d : Dev) (f v : Nat) : Dev :=
  let r := d.reg (pgPf f + 0x100 + 4 * v)
  if !bitAt r 31 then d
  else
    let x := d.pf f
    let e := bitsOf r 0 11
    let bit : BitVec 32 := BitVec.ofNat 32 (2 ^ v)
    if isLevel e then
      let now := d.levelSeen none e
      d.setPf f { x with
        due := if now && !bitAt x.seen v then x.due ||| bit else x.due
        seen := if now then x.seen ||| bit else x.seen &&& ~~~ bit }
    else
      let n := d.pulsesSeen none e
      d.setPf f { x with
        due := if Table.get 0 x.mark v < n then x.due ||| bit else x.due
        mark := Table.put 0 x.mark v n }

/-- The MSI-X vectors follow the events (R457, R107). [PRESUMED (log 107)] -/
def Dev.msixSee (d : Dev) : Dev :=
  if !d.domOn domHostio then d else d.forN 2 (fun f d => d.forN 32 (fun v d => d.msixSeeOne f v))

/-- A write of MSIX_EV_v: the vector watches its event from now on. -/
def Dev.msixBind (d : Dev) (f v : Nat) : Dev :=
  let e := bitsOf (d.reg (pgPf f + 0x100 + 4 * v)) 0 11
  let x := d.pf f
  let bit : BitVec 32 := BitVec.ofNat 32 (2 ^ v)
  d.setPf f { x with
    due := x.due &&& ~~~ bit
    mark := Table.put 0 x.mark v (d.pulsesSeen none e)
    seen := if isLevel e && d.levelSeen none e then x.seen ||| bit else x.seen &&& ~~~ bit }

/-- A function's configuration space returns to its reset state, and its DMA descriptors in progress are to end with HOST (R456). [DEDUCED (log 108)] -/
def Dev.pfReset (d : Dev) (f : Nat) : Dev :=
  let x := d.pf f
  let d := d.setPf f { mark := x.mark, seen := x.seen, due := x.due }
  let d := (d.setB (pgPf f) F.PF_STAT_BME false).setB (pgPf f) F.PF_STAT_D3 false
  { d with dmas := Table.upd {} (fun n (y : Dma) =>
      if d.f pgDma (F.CH_CFG_PF.at (0x100 + 0x20 * n)) = f ∧ y.words ≠ [] then { y with abort := true } else y) d.dmas }

/-- The link's state as both function pages show it. -/
def Dev.setLink (d : Dev) (up : Bool) (speed width : Nat) : Dev :=
  d.forN 2 (fun f d =>
    let p := pgPf f
    ((d.setB p F.PF_STAT_LINK_UP up).setF p F.PF_STAT_SPEED speed).setF p F.PF_STAT_WIDTH width)

/-- PCIE_RESET (R456): PCIE_PERST_N or a hot reset, or a function-level reset of one function. -/
def Dev.pcieReset (d : Dev) (flr : Option Nat) : Dev :=
  if !d.domOn domHostio then d
  else match flr with
    | some f => d.pfReset f
    | none => ((d.pfReset 0).pfReset 1).setLink false 0 0

/-- PCIE_LINK_CHANGE (R456): the link reaches L0 at a speed (1 to 4) and width (1, 2, 4), or goes down. -/
def Dev.pcieLink (d : Dev) (up : Option (Nat × Nat)) : Dev :=
  if !d.domOn domHostio then d
  else match up with
    | some (s, w) => if 1 ≤ s ∧ s ≤ 4 ∧ (w = 1 ∨ w = 2 ∨ w = 4) then d.setLink true s w else d
    | none => d.setLink false 0 0

/-- A write of PF_TSNAP_GO by the function itself (R457). -/
def Dev.tsnapGo (d : Dev) (f : Nat) : Dev := d.setR64 (pgPf f) 0x48 d.count

/-- The enable check of a function page (R457). -/
def Dev.pfCheck (d : Dev) (f : Nat) : List (Nat × Nat) :=
  let p := pgPf f
  (if d.f p F.PF_OTYPE_OTYPE = 1 then [(0x40, 2)] else []) ++
  (List.range 8).flatMap (fun k =>
    let c := d.reg (p + 0x88 + 16 * k)
    let b := d.r64 p (0x80 + 16 * k)
    let n := 2 ^ bitsOf c 0 5
    let meets : Nat → Nat → Bool := fun lo hi => decide (b < hi ∧ lo < b + n)
    (if bitsOf c 0 5 < 12 then [(0x88 + 16 * k, 2)] else []) ++
    (if b % n ≠ 0 then [(0x80 + 16 * k, 4)] else []) ++
    (if bitAt c 7 && (meets 0xE0000000 0xF0000000 || meets 0xF0000000 0xF1000000 || meets 0 0x20000) then
      [(0x80 + 16 * k, 0x101)] else []))

/-- The windows of both functions close, and with them the boot window, at the jump to ENTRY (R472). -/
def Dev.closeWindows (d : Dev) : Dev :=
  d.forN 2 (fun f d => d.forN 8 (fun k d => d.setB (pgPf f) (F.WIN_CTRL_EN.at (16 * k)) false))

/-- A DMA channel's registers. -/
def chPage (n : Nat) : Nat := pgDma + 0x100 + 0x20 * n

/-- A DMA channel's descriptor in progress. -/
def Dev.dma (d : Dev) (n : Nat) : Dma := Table.get {} d.dmas n

/-- Writes a DMA channel. -/
def Dev.setDma (d : Dev) (n : Nat) (x : Dma) : Dev :=
  ({ d with dmas := Table.put {} d.dmas n x }).setB (chPage n) F.CH_ST_ACTIVE (x.words != [])

/-- A channel would process a descriptor now (R458, R459). -/
def Dev.dmaReady (d : Dev) (n : Nat) : Bool :=
  let p := chPage n
  d.live pgDma && d.on p F.CH_EN_EN && !d.on p F.CH_ST_HALTED && !d.on p F.CH_ST_ACTIVE &&
    d.ringHolds p F.CH_HEAD_HEAD F.CH_TAIL_TAIL

/-- The address of the descriptor at HEAD. -/
def Dev.dmaDesc (d : Dev) (n : Nat) : Nat := d.r64 (chPage n) 0 + 64 * d.f (chPage n) F.CH_HEAD_HEAD

/-- DMA_DESCRIPTOR_START (R458): one descriptor at a time, the channels in round-robin order. -/
def Dev.dmaStart (d : Dev) (n : Nat) : Dev :=
  let next := ((List.range 8).map (fun i => (d.dmaLast + 1 + i) % 8)).find? d.dmaReady
  if next ≠ some n ∨ (List.range 8).any (fun i => (d.dma i).words != []) = true ∨ d.clocksStill = true then d
  else
    let a := d.dmaDesc n
    let w : List W32 := (List.range 16).map (fun k => BitVec.ofNat 32 (d.load (a + 4 * k) 4))
    { d.setDma n { words := if d.poisonedRange a 64 then (List.replicate 16 0xFFFFFFFF) else w } with dmaLast := n }

/-- A field of a DMA descriptor. -/
def Dma.fld (x : Dma) (w lsb n : Nat) : Nat := bitsOf (x.words.getD w 0) lsb n

/-- DEV_ADDR. -/
def Dma.dev (x : Dma) : Nat := x.fld 2 0 32 + x.fld 3 0 32 * 2 ^ 32

/-- LEN. -/
def Dma.len (x : Dma) : Nat := x.fld 4 0 24

/-- A descriptor keeps Table 21-3. -/
def Dev.dmaDescOk (d : Dev) (x : Dma) : Bool :=
  x.fld 0 0 2 == 0 && x.dev % 4 == 0 && d.hostMem x.dev && x.len != 0 && x.len % 4 == 0 &&
    x.fld 4 24 8 == 0 && x.fld 5 2 30 == 0 && (List.range 6).all (fun i => x.fld (10 + i) 0 32 == 0)

/-- Bytes that move before the device side meets an error response, with the cause and its address. -/
def Dev.dmaDevice (d : Dev) (x : Dma) : Option (Nat × Nat × Nat) :=
  (d.rangeCause x.dev x.len (x.fld 5 0 1 == 0)).map (fun e => (e.2 - x.dev, e.1, e.2))

/-- The first `n` bytes of a descriptor move (R455, R458): whether any source byte was poisoned. -/
def Dev.dmaMove (d : Dev) (x : Dma) (n : Nat) (h : HostSide) : Dev × Bool :=
  if x.fld 5 0 1 = 1 then
    let (d, _, p) := d.getRange x.dev n
    (d, p)
  else
    let d := d.putRange x.dev (h.data.take n) false
    (h.ep.foldl (fun (d : Dev) e => if e.1 < n then d.poisonLines (x.dev + e.1) (Nat.min e.2 (n - e.1)) else d) d,
      h.ep.any (fun e => decide (e.1 < n ∧ 0 < e.2)))

/-- A descriptor ends with a status (R458, R459): its result words, HEAD, the event, and HALTED after an error. -/
def Dev.dmaEnd (d : Dev) (n : Nat) (x : Dma) (status cause : Nat) : Dev :=
  let p := chPage n
  let a := d.dmaDesc n
  let d := d.putClean (a + 0x18) (bytesLE 4 (status + cause * 256))
  let d := d.putClean (a + 0x20) (bytesLE 8 d.count)
  let d := (d.setDma n {}).setF p F.CH_HEAD_HEAD ((d.f p F.CH_HEAD_HEAD + 1) % 2 ^ d.f p F.CH_CFG_LOG2)
  let d := if x.fld 5 1 1 = 1 then d.irq pgDma n else d
  if status = 1 ∨ status = 2 ∨ status = 4 then d.setB p F.CH_ST_HALTED true else d

/-- No channel has a descriptor in progress. -/
def Dev.dmaIdle (d : Dev) : Bool := d.dmas.all (fun e => e.2.words == [])

/-- DMA_DESCRIPTOR_DONE (R459): the descriptor in progress ends. A stopped channel ends it where it stands, keeping HEAD. -/
def Dev.dmaDone (d : Dev) (n : Nat) (h : HostSide) : Dev :=
  let x := d.dma n
  if x.words = [] ∨ d.clocksStill = true then d
  else
    let avail := if x.fld 5 0 1 = 1 then x.len else h.data.length
    let host : Nat := Nat.min (h.fails.getD x.len) avail
    if !d.dmaDescOk x then (if x.stop then d.setDma n {} else d.dmaEnd n x 4 0)
    else
      let dev := d.dmaDevice x
      let m := Nat.min (Nat.min host x.len) ((dev.map (·.1)).getD x.len)
      let (d, p) := d.dmaMove x m h
      if x.stop then d.setDma n {}
      else if x.abort then d.dmaEnd n x 2 0
      else match dev with
        | some (k, c, a) =>
          if k ≤ host then (d.memViolation 0x302 a 64 (x.fld 5 0 1 == 0) c).dmaEnd n x 1 c else d.dmaEnd n x 2 0
        | none => if host < x.len then d.dmaEnd n x 2 0 else d.dmaEnd n x (if p then 3 else 0) 0

/-- A write of CH_EN (R459): `was` is its value before. Setting it again restarts a halted channel. -/
def Dev.dmaEnWrite (d : Dev) (n : Nat) (was : Bool) : Dev :=
  let p := chPage n
  let now := d.on p F.CH_EN_EN
  let x := d.dma n
  if was && !now then (if x.words = [] then d else d.setDma n { x with stop := true })
  else if !was && now then d.setB p F.CH_ST_HALTED false else d

/-- Clearing EN of the DMA page stops every channel as CH_EN does (R459). -/
def Dev.dmaDisable (d : Dev) : Dev :=
  { d with dmas := Table.upd {} (fun _ (x : Dma) => if x.words = [] then x else { x with stop := true }) d.dmas }

/-- The enable check of the DMA page: LOG2, and a ring outside Core SRAM or misaligned (R458, Table 21-4). -/
def Dev.dmaCheck (d : Dev) : List (Nat × Nat) :=
  (List.range 8).flatMap (fun n =>
    let p := chPage n
    let o := 0x100 + 0x20 * n
    let b := d.r64 p 0
    let l := d.f p F.CH_CFG_LOG2
    (if d.on p F.CH_EN_EN ∧ b % 64 ≠ 0 then [(o, 4)] else []) ++
    (if d.on p F.CH_EN_EN ∧ (b < 0x10000000 ∨ 0x12000000 < b + 64 * 2 ^ l) then [(o, 0x102)] else []) ++
    (if l < 2 ∨ 12 < l then [(o + 8, 2)] else []))

end Sys2Proof.Machine
end

