-- ==== Sys2Proof/Machine/Timers.lean ====
section
/-!
DEFINITION. Sys2Proof/Machine/Timers.lean: timer channels, encoders and watchdogs (13_timers_capture_watchdogs.md).
-/
namespace Sys2Proof.Machine

/-- A timer channel's state, ch of casement c. -/
def Dev.tmr (d : Dev) (c ch : Nat) : Tmr := Table.get {} d.tmrs (32 * c + ch)

/-- Writes a timer channel's state. -/
def Dev.setTmr (d : Dev) (c ch : Nat) (t : Tmr) : Dev := { d with tmrs := Table.put {} d.tmrs (32 * c + ch) t }

/-- The page of channel ch of casement c (R279). -/
def tmrPage (c ch : Nat) : Nat := pgTmr c (ch / 8)

/-- A field of channel ch. -/
def Dev.tf (d : Dev) (c ch : Nat) (f : Fld) : Nat := d.f (tmrPage c ch) (f.at (0x40 * (ch % 8)))

/-- Writes a field of channel ch. -/
def Dev.setTf (d : Dev) (c ch : Nat) (f : Fld) (x : Nat) : Dev := d.setF (tmrPage c ch) (f.at (0x40 * (ch % 8))) x

/-- TMR_CMP of channel ch. -/
def Dev.tmrCmp (d : Dev) (c ch : Nat) : Nat := d.r64 (tmrPage c ch) (0x108 + 0x40 * (ch % 8))

/-- A ball of the casement by its number (R279). -/
def Dev.ball (d : Dev) (c pin : Nat) : BallIn := Table.get {} d.tio (8 * c + pin)

/-- A ball takes a level. -/
def Dev.ballSet (d : Dev) (c pin : Nat) (lvl : Bool) : Dev :=
  { d with tio := Table.put {} d.tio (8 * c + pin) ((d.ball c pin).set d.tick lvl) }

/-- The register of a channel's compare time. -/
def tmrCmpAddr (c ch : Nat) : Nat := tmrPage c ch + 0x108 + 0x40 * (ch % 8)

/-- Arms a channel at a compare time (R281). [DEDUCED (log 63)] -/
def Dev.tmrArm (d : Dev) (c ch v : Nat) : Dev :=
  let d := d.setR64 (tmrPage c ch) (0x108 + 0x40 * (ch % 8)) v
  (d.setTf c ch F.TMR_ST_ARMED 1).setTmr c ch { (d.tmr c ch) with armTick := d.tick + 1 }

/-- A fabric write of TMR_CMP (R281): it arms; one in the tick of a commit to the channel counts as the earlier (R283). -/
def Dev.tmrWrite (d : Dev) (c ch v : Nat) : Dev :=
  d.tmrArm c ch (if d.committed (tmrCmpAddr c ch) then d.tmrCmp c ch else v)

/-- A ball driven by a firing (R280, R281): ACT sets it high or low or toggles it. -/
def actLevel (act : Nat) (lvl : Bool) : Bool :=
  match act with | 0 => lvl | 1 => true | 2 => false | _ => !lvl

/-- A driven level leaves for its ball, which it reaches 24 ticks later (R280). -/
def Dev.tioDrive (d : Dev) (c pin : Nat) (lvl : Bool) : Dev :=
  { d with tioOut := d.tioOut ++ [(d.tick + 24, 8 * c + pin, lvl)] }

/-- The compare time after the firing tick (R282): what the reload leaves, under the writes that landed in the tick; a commit stands. -/
def Dev.tmrLanded (d : Dev) (c ch v : Nat) : Nat :=
  let a := tmrCmpAddr c ch
  if d.committed a then d.tmrCmp c ch
  else (d.landedAt a 8).foldl (fun v x =>
    if x.2.1 = 8 then x.2.2
    else if x.1 = a then v / 2 ^ 32 * 2 ^ 32 + x.2.2 % 2 ^ 32
    else v % 2 ^ 32 + x.2.2 % 2 ^ 32 * 2 ^ 32) v

/-- An armed compare channel whose time has come fires, then reloads or disarms (R281, R282), by its fields as at the start of the tick;
a write that landed in the tick applies after it. -/
def Dev.timerFire (d : Dev) (c ch : Nat) : Dev :=
  let p := tmrPage c ch
  let n := ch % 8
  let s := d.atTick
  let cmp := s.tmrCmp c ch
  if !d.live p || d.tf c ch F.TMR_CFG_MODE != 2 || s.tf c ch F.TMR_ST_ARMED != 1 || d.count < cmp || d.acted 1 (32 * c + ch) then d
  else
    let per := s.tf c ch F.TMR_PER_PER
    let again := (d.tmr c ch).armTick == d.tick + 1
    let lvl := actLevel (d.tf c ch F.TMR_CFG_ACT) (d.tmr c ch).drv
    let d := (d.act 1 (32 * c + ch)).setTmr c ch { (d.tmr c ch) with drv := lvl }
    let d := if d.tf c ch F.TMR_CFG_OUT_EN = 1 then d.tioDrive c (d.tf c ch F.TMR_CFG_PIN) lvl else d
    let d := (d.pulse (evCas c (48 + ch))).irq p n
    let d := if cmp < d.count then (d.setTf c ch F.TMR_ST_LATE 1).irq p (16 + n) else d
    let next := if per = 0 then cmp else cmp + ((d.count - cmp) / per + 1) * per
    let d := if per = 0 && !again then d.setTf c ch F.TMR_ST_ARMED 0 else d
    d.setR64 p (0x108 + 0x40 * n) (d.tmrLanded c ch next)

/-- The count of the latest tick in which a generator held 0 (R283, 14 R312); 0 before its first period start. -/
def Dev.zeroBase (d : Dev) (n : Nat) : Nat := ((Table.get {} d.pwms n).lastZero).getD 0

/-- A commit of offset v to a channel (R283): its base is taken as at the start of the tick. [DEDUCED (log 63)] -/
def Dev.timerCommit (d : Dev) (c ch v : Nat) : Dev :=
  if !d.live (tmrPage c ch) then d
  else if d.tf c ch F.TMR_CFG_MODE ≠ 2 then d.setTf c ch F.TMR_ST_CDROP 1
  else
    let s := d.atTick
    let base := if d.tf c ch F.TMR_CFG_CBASE_SRC = 0 then s.r64 (tmrPage c ch) (0x118 + 0x40 * (ch % 8))
      else s.zeroBase (6 * c + d.tf c ch F.TMR_CFG_CBASE_GEN)
    (d.noteCommit (tmrCmpAddr c ch)).tmrArm c ch ((base + v) % 2 ^ 64)

/-- An edge polarity EDGE selects (R284, Table 13-3). -/
def edgeQualifies (edge : Nat) (rising : Bool) : Bool :=
  edge == 3 || (edge == 1 && rising) || (edge == 2 && !rising)

/-- The filtered level of a capture channel changes (R284, R285). -/
def Dev.tmrLevel (d : Dev) (c ch : Nat) (level : Bool) : Dev :=
  let p := tmrPage c ch
  let n := ch % 8
  let d := d.setTf c ch F.TMR_ST_LEVEL (b2n level)
  if !edgeQualifies (d.tf c ch F.TMR_CFG_EDGE) level then d
  else
    let t := d.tmr c ch
    if t.presc < d.tf c ch F.TMR_CFG_PRESC then d.setTmr c ch { t with presc := t.presc + 1 }
    else
      let d := (d.setTmr c ch { t with presc := 0 }).act 11 (32 * c + ch)
      let d := if d.tf c ch F.TMR_ST_NEW = 1 then (d.setTf c ch F.TMR_ST_OVERRUN 1).irq p (8 + n) else d
      let d := d.setR64 p (0x120 + 0x40 * n) d.count
      let d := d.setTf c ch F.TMR_ST_NEW 1
      let d := (d.pulse (evCas c (48 + ch))).irq p n
      d.deliver c 2 ch (d.count % 2 ^ 32) d.count

/-- A capture channel samples its ball, once every 2^K ticks from the enable on (R284). [DEDUCED (log 63)] -/
def Dev.tmrSample (d : Dev) (c ch : Nat) : Dev :=
  let t := d.tmr c ch
  if !d.live (tmrPage c ch) || d.tf c ch F.TMR_CFG_MODE != 1 || decide (d.tick < t.sampleAt) then d
  else
    let lvl := d.tf c ch F.TMR_ST_LEVEL == 1
    let r := ballFilter (d.tf c ch F.TMR_CFG_FILT_N) lvl t.run (d.ball c (d.tf c ch F.TMR_CFG_PIN)).sync
    let d := d.setTmr c ch { t with sampleAt := d.tick + 2 ^ d.tf c ch F.TMR_CFG_FILT_K, run := r.2 }
    if r.1 == lvl then d else d.tmrLevel c ch r.1

/-- Channels of the casement that drive a ball (R280). -/
def Dev.tioDrivers (d : Dev) (c pin : Nat) (on : Nat → Bool) : Nat :=
  ((List.range 32).filter (fun ch => on (ch / 8) && d.tf c ch F.TMR_CFG_MODE == 2 &&
    d.tf c ch F.TMR_CFG_OUT_EN == 1 && d.tf c ch F.TMR_CFG_PIN == pin)).length

/-- The ball of a capture channel takes a level, unless a channel drives it (R279, R280), and the channel takes the sample that is due
(R284). -/
def Dev.timerCapture (d : Dev) (c ch : Nat) (level : Bool) : Dev :=
  let pin := d.tf c ch F.TMR_CFG_PIN
  let d := if d.tioDrivers c pin (fun q => d.live (pgTmr c q)) = 0 then d.ballSet c pin level else d
  d.tmrSample c ch

/-- A read of TMR_CAP_LO without the peek attribute clears NEW; a capture of the same tick counts as landing after it, so that NEW
stays and no overrun is left of it (R285). -/
def Dev.timerCapRead (d : Dev) (c ch : Nat) : Dev :=
  if !d.acted 11 (32 * c + ch) then d.setTf c ch F.TMR_ST_NEW 0
  else
    let p := tmrPage c ch
    let ovr : Fld := ⟨0x24, 8 + ch % 8, 1⟩
    let s := d.atTick
    (d.setTf c ch F.TMR_ST_OVERRUN (s.tf c ch F.TMR_ST_OVERRUN)).setF p ovr (s.f p ovr)

/-- What a read of a timer page that is no peek finds: a channel's registers as they stood before a capture of the same tick (R285). -/
def Dev.capEarlier (d : Dev) (p : PageInfo) (o : Nat) : Dev :=
  if p.kind = .timer && decide (0x100 ≤ o ∧ o < 0x300) &&
      d.acted 11 (32 * (p.inst / 4) + 8 * (p.inst % 4) + (o - 0x100) / 0x40) then d.atTick
  else d

/-- The timer balls in a tick: driven levels that reach them, and what their synchronizers show (R280, R284). -/
def Dev.tioTick (d : Dev) : Dev :=
  let out := d.tioOut.filter (fun e => decide (e.1 ≤ d.tick))
  let d := { d with tioOut := d.tioOut.filter (fun e => decide (d.tick < e.1)) }
  let d := out.foldl (fun d e => d.ballSet (e.2.1 / 8) (e.2.1 % 8) e.2.2) d
  { d with tio := Table.upd {} (fun _ b => b.tick d.tick) d.tio }

/-- The end of a tick (R281, R284): the firings and samples that were due in it and no command has taken. [DESIGN CHOICE (log 145)] -/
def Dev.timersEnd (d : Dev) : Dev :=
  d.tmrs.foldl (fun d e => (d.timerFire (e.1 / 32) (e.1 % 32)).tmrSample (e.1 / 32) (e.1 % 32)) d

/-- The enable check of timer page p of casement c (R280, R286). -/
def Dev.timerCheck (d : Dev) (c p : Nat) : List (Nat × Nat) :=
  (List.range 8).flatMap (fun n =>
    let ch := 8 * p + n
    let o := 0x100 + 0x40 * n
    let mode := d.tf c ch F.TMR_CFG_MODE
    let per := d.tf c ch F.TMR_PER_PER
    (if mode = 3 ∨ (mode = 1 ∧ d.tf c ch F.TMR_CFG_EDGE = 0) then [(o, 1)] else []) ++
    (if 12 < d.tf c ch F.TMR_CFG_FILT_K ∨ 5 < d.tf c ch F.TMR_CFG_CBASE_GEN then [(o, 2)] else []) ++
    (if d.tf c ch F.TMR_CFG_CBASE_SRC = 1 ∧ d.tf c ch F.TMR_CFG_CBASE_GEN ≤ 5 then
      d.refCheck (pgTmr c p) (pgPwm c (d.tf c ch F.TMR_CFG_CBASE_GEN)) o else []) ++
    (if mode = 2 ∧ d.tf c ch F.TMR_CFG_OUT_EN = 1 ∧
        1 < d.tioDrivers c (d.tf c ch F.TMR_CFG_PIN) (fun q => q == p || d.en (pgTmr c q)) then [(o, 0x101)] else []) ++
    (if 1 ≤ per ∧ per < 6 then [(o + 0x10, 2)] else []))

/-- Enabling a timer page: prescalers and filters start, driven levels are low (R280, R284); a channel armed meanwhile stays armed. [DEDUCED (log 63)] -/
def Dev.timerEnable (d : Dev) (c p : Nat) : Dev :=
  d.forN 8 (fun n d =>
    let ch := 8 * p + n
    let next := d.tick + 2 ^ d.tf c ch F.TMR_CFG_FILT_K
    let d := d.setTmr c ch { (d.tmr c ch) with drv := false, presc := 0, run := 0, sampleAt := next }
    if d.tf c ch F.TMR_CFG_MODE = 2 ∧ d.tf c ch F.TMR_CFG_OUT_EN = 1 then d.ballSet c (d.tf c ch F.TMR_CFG_PIN) false else d)

/-- Clearing EN of a timer page: every channel disarms and the balls it drives become inputs, which their pull-downs hold low (R280,
R286). -/
def Dev.timerDisable (d : Dev) (c p : Nat) : Dev :=
  d.forN 8 (fun n d =>
    let ch := 8 * p + n
    let pin := d.tf c ch F.TMR_CFG_PIN
    let d := (d.setTf c ch F.TMR_ST_ARMED 0).setTmr c ch {}
    if d.tf c ch F.TMR_CFG_MODE = 2 ∧ d.tf c ch F.TMR_CFG_OUT_EN = 1 then
      ({ d with tioOut := d.tioOut.filter (fun e => e.2.1 != 8 * c + pin) }).ballSet c pin false
    else d)

/-- An encoder's state. -/
def Dev.enc (d : Dev) (e : Nat) : Enc := Table.get {} d.encs e

/-- Writes an encoder's state. -/
def Dev.setEnc (d : Dev) (e : Nat) (x : Enc) : Dev := { d with encs := Table.put {} d.encs e x }

/-- Whether a filtered change of A or B counts, and upward, under MODE (R287); quadrature counts up when A leads B. -/
def encCount (mode : Nat) (a b a' b' : Bool) : Option Bool :=
  match mode with
  | 0 => if a != a' then some (a' != b) else if b != b' then some (a == b') else none
  | 1 => if !a && a' then some (!b) else none
  | _ => if !a && a' then some (!b) else none

/-- A counting edge (R287): position, stamp, period and STALLED. -/
def Dev.encStep (d : Dev) (e : Nat) (up : Bool) : Dev :=
  let p := pgEnc e
  let x := d.enc e
  let pos := d.f p F.ENC_POS_POS
  let d := d.setF p F.ENC_POS_POS (if up then pos + 1 else pos + (2 ^ 32 - 1))
  let per := match x.edge with
    | some t => min (d.tick - t) 0xFFFFFFFF
    | none => 0xFFFFFFFF
  let d := d.setF p F.ENC_PERIOD_PERIOD per
  let d := d.setR64 p 0x60 d.count
  (d.setB p F.ENC_STATUS_STALLED false).setEnc e { x with edge := some d.tick }

/-- A filtered change of A and B (R287). -/
def Dev.encAb (d : Dev) (e : Nat) (a' b' : Bool) : Dev :=
  let p := pgEnc e
  let x := d.enc e
  let d1 := d.setEnc e { x with a := a', b := b' }
  if x.a != a' && x.b != b' && d.f p F.ENC_CTRL_MODE < 2 then
    ((d1.setB p F.ENC_STATUS_QERR true).irq p 0).inc p F.ENC_ERR_CNT_ERR
  else match encCount (d.f p F.ENC_CTRL_MODE) x.a x.b a' b' with
    | none => d1
    | some up => d1.encStep e (if d.f p F.ENC_CTRL_MODE < 2 then up != d.on p F.ENC_CTRL_DIR else up)

/-- A change of the filtered index ball (R288). -/
def Dev.encIdx (d : Dev) (e : Nat) (lvl : Bool) : Dev :=
  let p := pgEnc e
  let x := d.enc e
  let act := lvl != d.on p F.ENC_CTRL_IDX_POL
  let was := x.i != d.on p F.ENC_CTRL_IDX_POL
  let d := d.setEnc e { x with i := lvl }
  if was || !act then d
  else
    let d := d.setF p F.ENC_IPOS_IPOS (d.f p F.ENC_POS_POS)
    let d := ((d.pulse (1816 + e)).setB p F.ENC_STATUS_IDX_SEEN true).irq p 1
    let m := d.f p F.ENC_CTRL_IDX_MODE
    let d := if m = 1 ∨ (m = 2 ∧ x.idxSeen = false) then d.setF p F.ENC_POS_POS (d.f p F.ENC_IVAL_IVAL) else d
    d.setEnc e { (d.enc e) with idxSeen := true }

/-- An encoder samples its balls, once every 2^K ticks from the enable on (R284, R287): first A and B, then the index (R288). [DEDUCED (log 63)] -/
def Dev.encSample (d : Dev) (e : Nat) : Dev :=
  let p := pgEnc e
  let x := d.enc e
  if !d.live p || decide (d.tick < x.sampleAt) then d
  else
    let n := d.f p F.ENC_CTRL_FILT_N
    let ra := ballFilter n x.a x.runA x.ballA.sync
    let rb := ballFilter n x.b x.runB x.ballB.sync
    let ri := ballFilter n x.i x.runI x.ballI.sync
    let d := d.setEnc e { x with
      sampleAt := d.tick + 2 ^ d.f p F.ENC_CTRL_FILT_K, runA := ra.2, runB := rb.2, runI := ri.2 }
    let d := if ra.1 == x.a && rb.1 == x.b then d else d.encAb e ra.1 rb.1
    if ri.1 == x.i then d else d.encIdx e ri.1

/-- The balls A and B of an encoder take levels, and it takes the sample that is due (R284, R287). [DESIGN CHOICE (log 137)] -/
def Dev.encoderEdge (d : Dev) (e : Nat) (a' b' : Bool) : Dev :=
  let x := d.enc e
  (d.setEnc e { x with ballA := x.ballA.set d.tick a', ballB := x.ballB.set d.tick b' }).encSample e

/-- The index ball of an encoder takes a level, and it takes the sample that is due (R284, R288). [DESIGN CHOICE (log 137)] -/
def Dev.encoderIndex (d : Dev) (e : Nat) (lvl : Bool) : Dev :=
  let x := d.enc e
  (d.setEnc e { x with ballI := x.ballI.set d.tick lvl }).encSample e

/-- No counting edge for 2^32 ticks sets STALLED (R287). -/
def Dev.encoderStalled (d : Dev) (e : Nat) : Dev :=
  let p := pgEnc e
  if d.live p && (match (d.enc e).edge with | some t => decide (t + 2 ^ 32 ≤ d.tick) | none => decide (2 ^ 32 ≤ d.tick)) then
    d.setB p F.ENC_STATUS_STALLED true
  else d

/-- A write of ENC_PRESET (R289): it sets the position after its tick's count and index. -/
def Dev.encPreset (d : Dev) (e v : Nat) : Dev := d.setEnc e { d.enc e with preset := some v }

/-- A zero event of device generator n latches the encoders of its wing that name it (R289). -/
def Dev.encLatch (d : Dev) (n : Nat) : Dev :=
  d.forN 8 (fun i d =>
    let e := 8 * (n / 48) + i
    let p := pgEnc e
    if d.live p && d.on p F.ENC_CTRL_LATCH_EN && d.f p F.ENC_CTRL_LGEN == n % 48 then d.act 8 e else d)

/-- The end of a tick for an encoder: the sample that was due in it, then a latch, then a preset (R289). [DEDUCED (log 63)] -/
def Dev.encEnd (d : Dev) (e : Nat) : Dev :=
  let p := pgEnc e
  let d := (d.encSample e).encoderStalled e
  let d := if d.acted 8 e then
      (let pos := d.f p F.ENC_POS_POS
       ((d.setF p F.ENC_LPOS_LPOS pos).setR64 p 0x58 d.count).deliver (e / 8) 4 e pos d.count)
    else d
  match (d.enc e).preset with
  | some v => (d.setF p F.ENC_POS_POS v).setEnc e { d.enc e with preset := none }
  | none => d

/-- The balls of the encoders in a tick (R284). -/
def Dev.encTick (d : Dev) : Dev :=
  { d with encs := Table.upd {} (fun _ x =>
      { x with ballA := x.ballA.tick d.tick, ballB := x.ballB.tick d.tick, ballI := x.ballI.tick d.tick }) d.encs }

/-- The enable check of an encoder page (R290). -/
def Dev.encCheck (d : Dev) (e : Nat) : List (Nat × Nat) :=
  let p := pgEnc e
  (if d.f p F.ENC_CTRL_MODE = 3 ∨ d.f p F.ENC_CTRL_IDX_MODE = 3 then [(0x40, 1)] else []) ++
  (if 47 < d.f p F.ENC_CTRL_LGEN ∨ 12 < d.f p F.ENC_CTRL_FILT_K then [(0x40, 2)] else [])

/-- Enabling an encoder page: no index seen yet, and its filters start (R284, R288). -/
def Dev.encEnable (d : Dev) (e : Nat) : Dev :=
  d.setEnc e { (d.enc e) with
    idxSeen := false, runA := 0, runB := 0, runI := 0, sampleAt := d.tick + 2 ^ d.f (pgEnc e) F.ENC_CTRL_FILT_K }

/-- A watchdog's page. -/
def Wd.page : Wd → Nat
  | .core k => pgWdCore k
  | .cas c => pgWdCas c

/-- A watchdog's key among the window starts. -/
def Wd.key : Wd → Nat
  | .core k => k
  | .cas c => 8 + c

/-- A watchdog's event (R293). -/
def Wd.event : Wd → Nat
  | .core k => 1832 + k
  | .cas c => evCas c 108

/-- Elapsed ticks e of a watchdog's window (R291). -/
def Dev.wdElapsed (d : Dev) (w : Wd) : Nat := d.tick - Table.get 0 d.wds w.key

/-- A window starts in this tick. -/
def Dev.wdWindow (d : Dev) (w : Wd) : Dev := { d with wds := Table.put 0 d.wds w.key d.tick }

/-- A watchdog's expiry (R293): ACTION 2 asks for a warm reset. -/
def Dev.wdExpire (d : Dev) (w : Wd) (early : Bool) : Dev :=
  let p := w.page
  let d := (d.setB p F.WD_STATUS_EXPIRED true).setB p F.WD_STATUS_CAUSE early
  let d := ((d.inc p F.WD_EXP_CNT_EXPIRIES).irq p 0).pulse w.event
  let d := if d.f p F.WD_CTRL_ACTION = 2 then
    { d with sys := { d.sys with resetReq := some (match w with | .core k => (3, k) | .cas c => (4, c)) } } else d
  d.shutter

/-- A feed lands (R291-R293): ignored while EXPIRED or in the closing tick, early, or accepted; two feeds of one tick
count as one. -/
def Dev.wdFeed (d : Dev) (w : Wd) : Dev :=
  let p := w.page
  if !d.live p || Table.get 0 d.wds (64 + w.key) == d.tick + 1 then d
  else
    let d := { d with wds := Table.put 0 d.wds (64 + w.key) (d.tick + 1) }
    let e := d.wdElapsed w
    if d.on p F.WD_STATUS_EXPIRED || decide (6000 * d.f p F.WD_MAX_MAX ≤ e) then
      d.setB p F.WD_STATUS_FEED_IGNORED true
    else if e < 6000 * d.f p F.WD_MIN_MIN then d.wdExpire w true
    else (d.wdWindow w).inc p F.WD_FEEDS_FEEDS

/-- A window closes without an accepted feed (R291). -/
def Dev.wdLate (d : Dev) (w : Wd) : Dev :=
  let p := w.page
  if d.live p && !d.on p F.WD_STATUS_EXPIRED && decide (6000 * d.f p F.WD_MAX_MAX ≤ d.wdElapsed w) then
    d.wdExpire w false
  else d

/-- The end of a tick for the watchdogs: a window that closed in it (R291). [DESIGN CHOICE (log 145)] -/
def Dev.wdsEnd (d : Dev) : Dev := d.forN 21 (fun k d => d.wdLate (if k < 5 then .core k else .cas (k - 5)))

/-- A write of 1 to WD_ACK (R293). [DEDUCED (log 61)] -/
def Dev.wdAck (d : Dev) (w : Wd) : Dev :=
  ((d.setB w.page F.WD_STATUS_EXPIRED false).wdWindow w).shutter

/-- Clearing EN of a watchdog (R294). -/
def Dev.wdDisable (d : Dev) (w : Wd) : Dev := (d.setB w.page F.WD_STATUS_EXPIRED false).shutter

/-- An enabled group page selects the watchdog in SG_SYS (Table 13-7). -/
def Dev.wdSelected (d : Dev) (w : Wd) : Bool :=
  (List.range 24).any (fun g => d.en (pgGroup g) &&
    bitAt (d.reg (pgGroup g + 0x84)) (match w with | .core k => k | .cas c => 5 + c))

/-- The enable check of a watchdog page (R295, Table 13-7). -/
def Dev.wdCheck (d : Dev) (w : Wd) : List (Nat × Nat) :=
  let p := w.page
  let isCas := match w with | .cas _ => true | _ => false
  (if d.f p F.WD_CTRL_ACTION = 3 ∨ (isCas = true ∧ d.f p F.WD_CTRL_FEED_SRC = 3) then [(0x40, 1)] else []) ++
  (if d.f p F.WD_CTRL_ACTION = 1 ∧ d.wdSelected w = false then [(0x40, 0x101)] else []) ++
  (if d.f p F.WD_MAX_MAX ≤ d.f p F.WD_MIN_MIN then [(0x44, 3)] else []) ++
  (if d.f p F.WD_MAX_MAX = 0 then [(0x48, 2)] else [])

/-- A feed signal reaches a casement watchdog (R292): a job-done pulse of a descriptor, or a launch event. -/
def Dev.wdCasFeed (d : Dev) (c : Nat) (job : Option Nat) (lev : Option Nat) : Dev :=
  let p := pgWdCas c
  let s := d.f p F.WD_CTRL_FEED_SRC
  let hit := (match job with | some x => (s == 0 || s == 2) && x == d.f p F.WD_CTRL_FEED_DESC | none => false) ||
    (match lev with | some x => (s == 1 || s == 2) && x == d.f p F.WD_CTRL_FEED_LEV | none => false)
  if hit then d.wdFeed (.cas c) else d

end Sys2Proof.Machine
end

