-- ==== Sys2Proof/Machine/Pwm.lean ====
section
/-!
DEFINITION. Sys2Proof/Machine/Pwm.lean: the PWM generators (10_pwm_generation.md). A generator is named by its
device number n = 6c + g (R218).
-/
namespace Sys2Proof.Machine

/-- The page of generator n. -/
def pwmPage (n : Nat) : Nat := pgPwm (n / 6) (n % 6)

/-- A generator's state. -/
def Dev.pwm (d : Dev) (n : Nat) : Pwm := Table.get {} d.pwms n

/-- Writes a generator's state. -/
def Dev.setPwm (d : Dev) (n : Nat) (w : Pwm) : Dev := { d with pwms := Table.put {} d.pwms n w }

/-- PERIOD_OFF in effect (R222): an expert-only field. -/
def Dev.pwmOff (d : Dev) (n : Nat) : Bool := d.expert (pwmPage n) && d.on (pwmPage n) F.PWM_XCTRL_PERIOD_OFF

/-- The counter. -/
def Dev.pwmCnt (d : Dev) (n : Nat) : Nat := d.f (pwmPage n) F.PWM_CNT_CNT

/-- PERIOD_ACT. -/
def Dev.pwmPer (d : Dev) (n : Nat) : Nat := d.f (pwmPage n) F.PWM_PERIOD_ACT_PERIOD

/-- The counter counts under R220: enabled, its start past and no restart awaited (R236). -/
def Dev.pwmCounting (d : Dev) (n : Nat) : Bool :=
  d.live (pwmPage n) && !d.on (pwmPage n) F.PWM_STATUS_WAIT_START && (d.pwm n).startDue.isNone

/-- Events pulse (R241): from the first period start on, and not while a stall holds. -/
def Dev.pwmEvents (d : Dev) (n : Nat) : Bool :=
  d.pwmCounting n && d.on (pwmPage n) F.PWM_STATUS_RUNNING && !d.on (pwmPage n) F.PWM_STATUS_STALL

/-- The level a force holds REF at, when it is in effect (R240). [DEDUCED (log 58)] -/
def Dev.pwmForced (d : Dev) (n : Nat) : Option Bool :=
  let p := pwmPage n
  if !d.expert p then none
  else match (((d.pwm n).force.map Prod.snd).getD (d.f p F.PWM_XCTRL_REF_FORCE)) with
    | 1 => some false
    | 2 => some true
    | _ => none

/-- A change of an output, or the release of both, goes into the output pipeline (R225, R227): it leaves the ball 24 ticks after its
position in steps, moved by the skew in force at the start of the tick (03 R81, R82). -/
def Dev.padEdge (d : Dev) (n out : Nat) (on : Bool) (pos : Nat) : Dev :=
  let s := d.atTick
  let skew : Int := match out with
    | 0 => s.fs (pwmPage n) F.PWM_SKEW_SKEW_H
    | 1 => s.fs (pwmPage n) F.PWM_SKEW_SKEW_L
    | _ => 0
  let w := d.pwm n
  d.setPwm n { w with pipe := w.pipe ++ [⟨out, on, (16 * ((pos : Int) + 384) + skew).toNat⟩] }

/-- A change leaves the output pipeline (R225, R236). -/
def Pwm.leave (w : Pwm) (e : PadEdge) : Pwm :=
  match e.out with
  | 0 => { w with outH := e.on }
  | 1 => { w with outL := e.on }
  | _ => { w with freed := true, outH := false, outL := false }

/-- The pads of generator n in a tick: they show what leaves the pipeline in it (R225). -/
def Dev.pipeTick (d : Dev) (n : Nat) : Dev :=
  let w := d.pwm n
  let out := w.pipe.filter (fun e => decide (e.pos / 256 ≤ d.tick))
  if out.isEmpty then d
  else
    let rest := w.pipe.filter (fun e => decide (d.tick < e.pos / 256))
    (d.setPwm n (out.foldl Pwm.leave { w with pipe := rest })).padRefresh (n / 6) (n % 6)

/-- The pending output turns on at its position (R226). -/
def Dev.turnOn (d : Dev) (n o pos : Nat) : Dev :=
  let d := d.setB (pwmPage n) (if o = 0 then F.PWM_OUT_H_ON else F.PWM_OUT_L_ON) true
  (d.setPwm n { d.pwm n with dead := none }).padEdge n o true pos

/-- REF takes a level at a position in steps (R224, R226): a turn-on due before it takes place, the other output turns off there, and this
one's turn-on is due after its dead time, while the outputs are released. A level REF has already makes no edge. -/
def Dev.refEdge (d : Dev) (n : Nat) (hi : Bool) (pos : Nat) : Dev :=
  let p := pwmPage n
  if d.on p F.PWM_OUT_REF == hi then d
  else
    let d := match (d.pwm n).dead with
      | some (o, t) => if t < pos then d.turnOn n o t else d
      | none => d
    let d := d.setB p F.PWM_OUT_REF hi
    let d := if hi then d.setB p F.PWM_OUT_L_ON false else d.setB p F.PWM_OUT_H_ON false
    let due := if hi then (0, pos + d.f p F.PWM_DTR_DTR) else (1, pos + d.f p F.PWM_DTF_DTF)
    let w := d.pwm n
    if w.released then (d.setPwm n { w with dead := some due }).padEdge n (if hi then 1 else 0) false pos
    else d.setPwm n { w with dead := none }

/-- The outputs are released at a period start (R236, R239): off, with the turn-on that REF's level asks for due. -/
def Dev.pwmRelease (d : Dev) (n : Nat) : Dev :=
  let p := pwmPage n
  let w := d.pwm n
  if w.released || w.clearTick == some d.tick || d.pairForced (n / 6) (n % 6) then d
  else
    let pos := 16 * d.tick
    let due := if d.on p F.PWM_OUT_REF then (0, pos + d.f p F.PWM_DTR_DTR) else (1, pos + d.f p F.PWM_DTF_DTF)
    let d := (d.setB p F.PWM_OUT_H_ON false).setB p F.PWM_OUT_L_ON false
    let d := d.setB p F.PWM_STATUS_RESUME_PENDING false
    (d.setPwm n { w with released := true, dead := some due }).padEdge n 2 false pos

/-- Hop delay from generator n to generator n + 1 (R234). -/
def syncHop (n : Nat) : Nat := if n = 47 then 24 else if n % 6 = 5 then 12 else 2

/-- SYNC_OUT of generator n pulses (R234). -/
def Dev.syncOut (d : Dev) (n : Nat) : Dev :=
  if d.on (pwmPage n) F.PWM_CTRL_SYNC_OUT_EN && n < 95 then
    let w := d.pwm (n + 1)
    d.setPwm (n + 1) { w with syncDue := w.syncDue.filter (fun t => decide (d.tick ≤ t)) ++ [d.tick + syncHop n] }
  else d

/-- The counter holds 0 in a running generator (R241, R234): the zero event, its ADC triggers, its encoder latches,
its modulator starts and SYNC_OUT. -/
def Dev.pwmZero (d : Dev) (n : Nat) : Dev :=
  let c := n / 6
  let g := n % 6
  if d.acted 7 n then d
  else
    let d := (d.act 7 n).pulse (evCas c (3 * g))
    let d := d.setPwm n { d.pwm n with lastZero := some d.count }
    let d := d.adcTrigger c g 0
    let d := d.encLatch n
    let d := d.sdZero c g
    d.syncOut n

/-- The register a write of kind r goes to: 0 set compare, 1 clear compare, 2 period. -/
def pwmShadow (r : Nat) : Fld :=
  match r with | 0 => F.PWM_CMPSET_CMPSET | 1 => F.PWM_CMPCLR_CMPCLR | _ => F.PWM_PERIOD_PERIOD

/-- Writes of a reload tick that landed before it was known to be one are held (R229): the shadow is again what it was, and they count
as late. -/
def Dev.holdEntered (d : Dev) (n : Nat) : Dev :=
  let p := pwmPage n
  let w := d.pwm n
  let l := w.entered.filter (fun e => e.due == d.tick)
  if l.isEmpty then d
  else
    let d := l.foldr (fun e d => d.setF p (pwmShadow e.reg) e.old) d
    let d := ((d.setB p F.PWM_STATUS_LATE_UPDATE true).irq p 0).incBy p F.PWM_LATE_CNT_LATE l.length
    d.setPwm n { w with held := w.held ++ l, entered := [] }

/-- The transfer of a reload tick (R229, R230): period, and in shadow mode the compares, as the shadows stood at its start. -/
def Dev.pwmTransfer (d : Dev) (n : Nat) : Dev :=
  let p := pwmPage n
  let s := d.atTick
  let d := (d.holdEntered n).setF p F.PWM_PERIOD_ACT_PERIOD (s.f p F.PWM_PERIOD_PERIOD)
  if d.on p F.PWM_CTRL_UPD then d
  else
    let d := d.setF p F.PWM_CMPSET_ACT_CMPSET (s.f p F.PWM_CMPSET_CMPSET)
    d.setF p F.PWM_CMPCLR_ACT_CMPCLR (s.f p F.PWM_CMPCLR_CMPCLR)

/-- A period start, the counter taking `cnt` (R221, R236, R239): the outputs are released. -/
def Dev.pwmPeriodStart (d : Dev) (n cnt : Nat) : Dev :=
  let p := pwmPage n
  let d := d.setF p F.PWM_CNT_CNT cnt
  let d := d.setPwm n { d.pwm n with wrapDue := false, startDue := none }
  let d := (d.setB p F.PWM_STATUS_WAIT_START false).setB p F.PWM_STATUS_STALL false
  let d := d.setB p F.PWM_STATUS_RUNNING true
  let d := d.pwmRelease n
  if cnt = 0 then d.pwmZero n else d

/-- A reload tick, the counter taking `cnt` (R221): a transfer, a period start, and the comparator latches it clears. -/
def Dev.pwmReloadTick (d : Dev) (n cnt : Nat) : Dev :=
  let d := d.pwmTransfer n
  let d := d.setPwm n { d.pwm n with reloadTick := some d.tick }
  (d.pwmPeriodStart n cnt).cmpAutoClear (n / 6) (n % 6)

/-- The value a sync load gives generator n (R234). -/
def Dev.syncValue (d : Dev) (n : Nat) : Nat :=
  let v := d.f (pwmPage n) F.PWM_SYNC_PHASE_PHASE + syncHop (n - 1)
  if d.pwmOff n then v else v % (d.pwmPer n + 1)

/-- A SYNC_OUT pulse arrives in this tick at a generator that takes it (R234): enabled, and not restarted in the tick (R220). -/
def Dev.syncNow (d : Dev) (n : Nat) : Bool :=
  let w := d.pwm n
  w.syncDue.contains d.tick && d.live (pwmPage n) && d.on (pwmPage n) F.PWM_CTRL_SYNC_IN_EN && w.startDue.isNone && !d.acted 6 n

/-- The sync pulses of this tick and of earlier ones are past. -/
def Dev.syncPast (d : Dev) (n : Nat) : Dev :=
  let w := d.pwm n
  d.setPwm n { w with syncDue := w.syncDue.filter (fun t => decide (d.tick < t)) }

/-- A sync load (R220, R221, R234, R235): in place of the wrap that was due, if one was; one that gives the value the counter would have
held changes nothing. -/
def Dev.syncTake (d : Dev) (n : Nat) : Dev :=
  let p := pwmPage n
  let wrap := (d.pwm n).wrapDue
  let v := d.syncValue n
  let nat := if wrap then 0 else d.pwmCnt n
  let d := d.syncPast n
  let d := if v ≠ nat then
      ((d.setB p F.PWM_STATUS_SYNC_SLIP true).irq p 3).setPwm n { d.pwm n with slip := some d.tick }
    else d
  if v = nat && !wrap && !d.on p F.PWM_STATUS_WAIT_START then d
  else if v = 0 || wrap then d.pwmReloadTick n v
  else
    let d := (d.setB p F.PWM_STATUS_WAIT_START false).setB p F.PWM_STATUS_STALL false
    d.setF p F.PWM_CNT_CNT v

/-- SYNC_LOAD: a SYNC_OUT pulse arrives at generator n (R234). -/
def Dev.syncLoad (d : Dev) (n : Nat) : Dev := if d.syncNow n then d.syncTake n else d.syncPast n

/-- The counter wraps at PERIOD_ACT (R220, R221), unless a sync load of the tick gives its value. -/
def Dev.pwmReload (d : Dev) (n : Nat) : Dev :=
  if d.pwmCounting n && (d.pwm n).wrapDue then (if d.syncNow n then d.syncTake n else d.pwmReloadTick n 0) else d

/-- A SYNC_SLIP of this tick is undone: a restart comes before the sync load that made it (R220). -/
def Dev.undoSlip (d : Dev) (n : Nat) : Dev :=
  let p := pwmPage n
  if (d.pwm n).slip == some d.tick then
    let d := d.setB p F.PWM_STATUS_SYNC_SLIP (d.atTick.on p F.PWM_STATUS_SYNC_SLIP)
    d.setF p ⟨0x24, 3, 1⟩ (d.atTick.f p ⟨0x24, 3, 1⟩)
  else d

/-- A launch restart (R233), which comes before a sync load and a wrap of its tick (R220). -/
def Dev.pwmRestart (d : Dev) (n : Nat) : Dev :=
  if !d.live (pwmPage n) then d
  else
    let d := ((d.undoSlip n).act 6 n).syncPast n
    if (d.pwm n).reloadTick == some d.tick && d.pwmCnt n == 0 then d else d.pwmReloadTick n 0

/-- The counter holds PERIOD_ACT (R241). -/
def Dev.pwmPeriodEvent (d : Dev) (n : Nat) : Dev :=
  let w := d.pwm n
  if d.pwmEvents n && !d.pwmOff n && d.pwmCnt n == d.pwmPer n && !w.wrapDue && !d.syncNow n &&
      Table.get 0 w.seen 2 != d.tick + 1 then
    let d := d.setPwm n { w with seen := Table.put 0 w.seen 2 (d.tick + 1) }
    (d.pulse (evCas (n / 6) (3 * (n % 6) + 1))).adcTrigger (n / 6) (n % 6) 1
  else d

/-- The counter reaches 0xFFFF_FFFF under PERIOD_OFF (R222). -/
def Dev.pwmStall (d : Dev) (n : Nat) : Dev :=
  let p := pwmPage n
  if d.pwmCounting n && d.pwmOff n && d.pwmCnt n == 0xFFFFFFFF && !d.on p F.PWM_STATUS_STALL then
    (d.setB p F.PWM_STATUS_STALL true).irq p 4
  else d

/-- A compare edge of one tick: its step, whether it clears REF, whether it is a catch-up. -/
structure PwmEdge where
  step : Nat
  clr : Bool
  late : Bool
  deriving DecidableEq, Repr

/-- The edges of compare r (0 set, 1 clear) due in this tick (R223, R232). -/
def Dev.pwmEdges (d : Dev) (n r : Nat) : List PwmEdge :=
  let p := pwmPage n
  let w := d.pwm n
  let v := if r = 0 then d.f p F.PWM_CMPSET_ACT_CMPSET else d.f p F.PWM_CMPCLR_ACT_CMPCLR
  let hit := v / 16 == d.pwmCnt n && !w.wrapDue && !d.syncNow n && decide (Table.get 0 w.seen (3 + r) ≤ d.tick)
  (if hit && Table.get 0 w.seen r != d.tick + 1 then [⟨v % 16, r == 1, false⟩] else []) ++
    (w.catchUp.filter (fun e => e.1 == r && e.2.1 ≤ d.tick)).map (fun e => ⟨e.2.2, r == 1, true⟩)

/-- The edges of a tick in the order of their steps; at equal steps the clear is applied and the set discarded (R224). -/
def orderEdges (l : List PwmEdge) : List PwmEdge :=
  let kept := l.filter (fun e => e.clr || !(l.any (fun x => x.clr && x.step == e.step)))
  (List.range 16).flatMap (fun s => kept.filter (fun e => e.step == s))

/-- REF takes the edges of a tick in turn; a force in effect keeps it (R224, R240). -/
def Dev.applyEdges (d : Dev) (n : Nat) (l : List PwmEdge) : Dev :=
  if (d.pwmForced n).isSome then d
  else (orderEdges l).foldl (fun d e => d.refEdge n (!e.clr) (16 * d.tick + e.step)) d

/-- Compares match (R223, R236): from the tick after the enable on, also while the counter is held at 0 for its start. -/
def Dev.pwmMatching (d : Dev) (n : Nat) : Bool := d.live (pwmPage n) && (d.pwm n).startDue.isNone

/-- A set or clear compare matches (R223, R224, R232, R241). -/
def Dev.pwmMatch (d : Dev) (n : Nat) : Dev :=
  let p := pwmPage n
  if !d.pwmMatching n then d
  else
    let s := d.pwmEdges n 0
    let k := d.pwmEdges n 1
    let late := ((s ++ k).filter (·.late)).length
    let w := d.pwm n
    let seen := if s.any (fun e => !e.late) then Table.put 0 w.seen 0 (d.tick + 1) else w.seen
    let seen := if k.any (fun e => !e.late) then Table.put 0 seen 1 (d.tick + 1) else seen
    let d := d.setPwm n { w with seen := seen, catchUp := w.catchUp.filter (fun e => d.tick < e.2.1) }
    let d := d.applyEdges n (s ++ k)
    let d := if late = 0 then d
      else ((d.setB p F.PWM_STATUS_CATCHUP_USED true).irq p 1).incBy p F.PWM_CATCHUP_CNT_CATCHUP late
    let ev := d.f p F.PWM_CTRL_CMP_EV
    if d.pwmEvents n && ((ev % 2 == 1 && !s.isEmpty) || (ev / 2 == 1 && !k.isEmpty)) then
      (d.pulse (evCas (n / 6) (3 * (n % 6) + 2))).adcTrigger (n / 6) (n % 6) 2
    else d

/-- This tick is a reload tick or in the guard window of one (R221, R229). -/
def Dev.pwmGuard (d : Dev) (n : Nat) : Bool :=
  let w := d.pwm n
  w.reloadTick == some d.tick || w.wrapDue ||
    (d.pwmCounting n && !d.pwmOff n && decide (d.pwmPer n ≤ d.pwmCnt n + 3) && decide (d.pwmCnt n ≤ d.pwmPer n))

/-- A dead time ends and the pending output turns on (R226), unless REF changes in the tick at or before its position. -/
def Dev.deadTimeExpire (d : Dev) (n : Nat) : Dev :=
  match (d.pwm n).dead with
  | none => d
  | some (o, pos) =>
    if d.tick < pos / 16 || !d.live (pwmPage n) then d
    else if d.pwmMatching n && (d.pwmEdges n 0 ++ d.pwmEdges n 1).any (fun e => decide (16 * d.tick + e.step ≤ pos)) then d
    else d.turnOn n o pos

/-- A write joins those of its kind: last, or, under a commit of the same tick, before it (R228). -/
def joinWrite (under : Bool) (l : List PwmWrite) (x : PwmWrite) : List PwmWrite :=
  if under then
    l.takeWhile (fun e => !(e.reg == x.reg && e.due == x.due)) ++ [x] ++ l.dropWhile (fun e => !(e.reg == x.reg && e.due == x.due))
  else l ++ [x]

/-- A write or a commit of a compare or period lands (R228-R231); a fabric write in the tick of a commit to the same register counts as
the earlier. -/
def Dev.pwmWrite (d : Dev) (n r v : Nat) (commit : Bool) : Dev :=
  let p := pwmPage n
  let a := p + (pwmShadow r).ofs
  let under := !commit && d.committed a
  let d := if commit then d.noteCommit a else d
  let w := d.pwm n
  let shown := if under then d else d.setF p (pwmShadow r) v
  if !d.en p then shown
  else if d.on p F.PWM_CTRL_UPD && r < 2 then
    shown.setPwm n { w with pend := joinWrite under w.pend ⟨r, v, d.tick + 12, 0⟩ }
  else if d.pwmGuard n then
    let d := ((d.setB p F.PWM_STATUS_LATE_UPDATE true).irq p 0).inc p F.PWM_LATE_CNT_LATE
    d.setPwm n { w with held := joinWrite under w.held ⟨r, v, d.tick, 0⟩ }
  else
    let now := w.entered.filter (fun e => e.due == d.tick)
    let old := ((now.find? (fun e => under && e.reg == r)).map PwmWrite.old).getD (d.f p (pwmShadow r))
    shown.setPwm n { w with entered := joinWrite under now ⟨r, v, d.tick, old⟩ }

/-- An immediate-mode value becomes active, 12 ticks after its landing, and is judged (R231, R232). -/
def Dev.compareActivate (d : Dev) (n : Nat) : Dev :=
  let p := pwmPage n
  let w := d.pwm n
  match w.pend with
  | [] => d
  | e :: rest =>
    if d.tick < e.due || !d.live p then d
    else
      let act := if e.reg = 0 then F.PWM_CMPSET_ACT_CMPSET else F.PWM_CMPCLR_ACT_CMPCLR
      let old := d.f p act
      let now := if w.wrapDue then 0 else d.pwmCnt n
      let passed := decide (e.val / 16 ≤ now) && e.val != old
      let up := d.on p F.PWM_CTRL_CATCHUP
      let d := d.setF p act e.val
      let d := d.setPwm n { w with
        pend := rest
        seen := Table.put 0 w.seen (3 + e.reg) (d.tick + 1)
        catchUp := if passed && up then w.catchUp ++ [(e.reg, d.tick + 1, e.val % 16)] else w.catchUp }
      if passed && !up then
        ((d.setB p F.PWM_STATUS_EDGE_PASSED true).irq p 2).inc p F.PWM_PASSED_CNT_PASSED
      else d

/-- A write of REF_FORCE in place of `old` (R240): it takes effect in the tick after it lands. [DEDUCED (log 58)] -/
def Dev.refForce (d : Dev) (n old : Nat) : Dev :=
  let w := d.pwm n
  if d.en (pwmPage n) then d.setPwm n { w with force := some (d.tick, (w.force.map Prod.snd).getD old) } else d

/-- A force written in an earlier tick takes effect at step 0 of this one (R240). [DEDUCED (log 58)] -/
def Dev.forceTick (d : Dev) (n : Nat) : Dev :=
  match (d.pwm n).force with
  | none => d
  | some (t, _) =>
    if d.tick ≤ t then d
    else
      let d := d.setPwm n { d.pwm n with force := none }
      match d.pwmForced n with
      | some hi => d.refEdge n hi (16 * d.tick)
      | none => d

/-- Held writes enter the shadow in the tick after the reload tick, in landing order (R229). -/
def Dev.heldTick (d : Dev) (n : Nat) : Dev :=
  let w := d.pwm n
  match w.reloadTick with
  | none => d
  | some t =>
    if d.tick ≤ t then d
    else
      let d := w.held.foldl (fun d e => d.setF (pwmPage n) (pwmShadow e.reg) e.val) d
      d.setPwm n { w with held := [], reloadTick := none }

/-- The counter of generator n in the next tick (R220); a wrap awaits its reload, and a start its tick. -/
def Dev.pwmCount (d : Dev) (n : Nat) : Dev :=
  let p := pwmPage n
  let w := d.pwm n
  match w.startDue with
  | some t => if t ≤ d.tick && d.live p then d.pwmPeriodStart n 0 else d
  | none =>
    if !d.pwmCounting n || w.wrapDue then d
    else if !d.pwmOff n && d.pwmCnt n == d.pwmPer n then d.setPwm n { w with wrapDue := true }
    else if d.pwmCnt n == 0xFFFFFFFF then d
    else d.setF p F.PWM_CNT_CNT (d.pwmCnt n + 1)

/-- What the start of a tick does to generator n. -/
def Dev.pwmTick (d : Dev) (n : Nat) : Dev :=
  if d.live (pwmPage n) then (((d.heldTick n).pwmCount n).forceTick n).pipeTick n else d

/-- The end of a tick (R220-R241): what was due of generator n in it and no command has taken, in the order in which one depends on another. [DESIGN CHOICE (log 145)] -/
def Dev.pwmEnd (d : Dev) (n : Nat) : Dev :=
  if !d.live (pwmPage n) then d
  else
    let d := (d.syncLoad n).pwmReload n
    let d := d.forN (d.pwm n).pend.length (fun _ d => d.compareActivate n)
    (((d.pwmStall n).pwmPeriodEvent n).pwmMatch n).deadTimeExpire n

/-- Enabling a generator (R236, R240). -/
def Dev.pwmEnable (d : Dev) (n : Nat) : Dev :=
  let p := pwmPage n
  let wait := d.f p F.PWM_CTRL_START == 1
  let d := d.setPwm n (Pwm.cut { (d.pwm n) with
    held := [], pend := [], entered := [], reloadTick := none, startDue := if wait then none else some (d.tick + 1)
    wrapDue := false, force := none, seen := [(3, d.tick + 1), (4, d.tick + 1)], catchUp := [] })
  let d := d.setF p F.PWM_PERIOD_ACT_PERIOD (d.f p F.PWM_PERIOD_PERIOD)
  let d := d.setF p F.PWM_CMPSET_ACT_CMPSET (d.f p F.PWM_CMPSET_CMPSET)
  let d := d.setF p F.PWM_CMPCLR_ACT_CMPCLR (d.f p F.PWM_CMPCLR_CMPCLR)
  let d := d.setF p F.PWM_CNT_CNT 0
  let d := (d.setB p F.PWM_OUT_H_ON false).setB p F.PWM_OUT_L_ON false
  let d := d.setB p F.PWM_OUT_REF ((d.pwmForced n).getD false)
  let d := (d.setB p F.PWM_STATUS_WAIT_START wait).setB p F.PWM_STATUS_RUNNING false
  let d := d.setB p F.PWM_STATUS_STALL false
  d.padRefresh (n / 6) (n % 6)

/-- Clearing EN of a generator (R237). [DEDUCED (log 57)] -/
def Dev.pwmDisable (d : Dev) (n : Nat) : Dev :=
  let p := pwmPage n
  let d := d.setPwm n (Pwm.cut { (d.pwm n) with
    held := [], pend := [], entered := [], reloadTick := none, startDue := none, wrapDue := false, syncDue := []
    force := none, catchUp := [] })
  let d := (d.setB p F.PWM_STATUS_WAIT_START false).setB p F.PWM_STATUS_RUNNING false
  let d := d.setB p F.PWM_STATUS_RESUME_PENDING false
  d.padRefresh (n / 6) (n % 6)

/-- The enable check of a generator (R243, Table 10-7). -/
def Dev.pwmCheck (d : Dev) (n : Nat) : List (Nat × Nat) :=
  let p := pwmPage n
  let per := d.f p F.PWM_PERIOD_PERIOD
  let dtr := d.f p F.PWM_DTR_DTR
  let dtf := d.f p F.PWM_DTF_DTF
  let cs := pgCasSrc (n / 6)
  (if 2 ≤ d.f p F.PWM_CTRL_START then [(0x40, 1)] else []) ++
  (if d.on p F.PWM_CTRL_SYNC_IN_EN && n == 0 then [(0x40, 0x101)] else []) ++
  (if shootThrough (d.f cs (F.CS_PAIR_SAFE_H.at (4 * (n % 6)))) (d.f cs (F.CS_PAIR_SAFE_L.at (4 * (n % 6))))
      (d.on p F.PWM_CTRL_POL_H) (d.on p F.PWM_CTRL_POL_L) then [(0x40, 0x102)] else []) ++
  (if !d.pwmOff n && (decide (per < 32) || decide (0x0FFFFFFF < per)) then [(0x44, 2)] else []) ++
  (if !d.pwmOff n && decide (16 * (per + 1) ≤ dtr + dtf) then [(0x44, 0x103)] else []) ++
  (if 0x0FFFFFFF < d.f p F.PWM_SYNC_PHASE_PHASE then [(0x50, 2)] else []) ++
  (if dtr < 16 then [(0x54, 2)] else []) ++
  (if dtf < 16 then [(0x58, 2)] else []) ++
  (if d.expert p && d.f p F.PWM_XCTRL_REF_FORCE == 3 then [(0x80, 2)] else [])

end Sys2Proof.Machine
end

