-- ==== Sys2Proof/Machine/Crc.lean ====
section
/-!
DEFINITION. Sys2Proof/Machine/Crc.lean: the cyclic redundancy codes the spec names.
-/
namespace Sys2Proof.Machine

/-- One byte of the IEEE 802.3 CRC-32, least significant bit first. -/
def crc32Byte (c b : Nat) : Nat :=
  (List.range 8).foldl (fun c _ => if c % 2 = 1 then (c / 2) ^^^ 0xEDB88320 else c / 2) (c ^^^ b)

/-- CRC-32 of IEEE 802.3 over bytes (03 R79, 06 R162). -/
def crc32 (l : List Byte) : Nat := (l.foldl (fun c b => crc32Byte c b.toNat) 0xFFFFFFFF) ^^^ 0xFFFFFFFF

/-- One byte of the CRC-8 with polynomial x^8 + x^2 + x + 1. -/
def crc8Byte (c b : Nat) : Nat :=
  (List.range 8).foldl (fun c _ => if 128 ≤ c then (2 * c ^^^ 0x07) % 256 else 2 * c) (c ^^^ b)

/-- The CRC-8 of a flit's payload, from 0x00, most significant bit first (05 R137). [DESIGN CHOICE (log 147)] -/
def crc8 (l : List Byte) : Nat := l.foldl (fun c b => crc8Byte c b.toNat) 0

end Sys2Proof.Machine
end

