-- ==== Sys2Proof/Machine/Threshold.lean ====
section
/-!
DEFINITION. Sys2Proof/Machine/Threshold.lean: the Threshold links (14_threshold_links.md). Link l is TL_l; it is link l mod 2 of
casement l / 2.
-/
namespace Sys2Proof.Machine

/-- A link's state. -/
def Dev.tl (d : Dev) (l : Nat) : Tl := Table.get {} d.tls l

/-- Writes a link's state. -/
def Dev.setTl (d : Dev) (l : Nat) (x : Tl) : Dev := { d with tls := Table.put {} d.tls l x }

/-- LSTATE (Table 14-3). -/
def Dev.lstate (d : Dev) (l : Nat) : Nat := d.f (pgTlc l) F.TLC_STATUS_LSTATE

/-- LSTATE is BOUND or LOCKED. -/
def Dev.tlBound (d : Dev) (l : Nat) : Bool := d.lstate l == 4 || d.lstate l == 5

/-- Writes LSTATE, with NB_STAT.BOUND and LOCKED (Table 14-7). -/
def Dev.setLstate (d : Dev) (l x : Nat) : Dev :=
  let d := d.setF (pgTlc l) F.TLC_STATUS_LSTATE x
  (d.setB (pgTlnb l) F.NB_STAT_BOUND (x == 4 || x == 5)).setB (pgTlnb l) F.NB_STAT_LOCKED (x == 5)

/-- Writes NB_STAT.RESULT (R306). -/
def Dev.nbResult (d : Dev) (l r : Nat) : Dev := (d.setF (pgTlnb l) F.NB_STAT_RESULT r).irq (pgTlnb l) 0

/-- A counter of the counter page (Table 14-9). -/
def Dev.tlCount (d : Dev) (l : Nat) (f : Fld) : Dev := d.inc (pgTlcnt l) f

/-- SLOT in ticks. [DEDUCED (log 64)] -/
def Dev.tlSlot (d : Dev) (l : Nat) : Nat := d.f (pgTlc l) F.TL_CTRL_SLOT

/-- The link's first event number: frame arrived; then ATTACH and DETACH (Table 4-12). -/
def tlEvent (l : Nat) : Nat := evCas (l / 2) (98 + 3 * (l % 2))

/-- The Shutter matrix forces remote channel q (11 R253, R254); a group latch is seen in its stamp tick (R318). -/
def Dev.rchForced (d : Dev) (l q : Nat) : Bool :=
  let c := l / 2
  let g := d.rchGroup c (32 * (l % 2) + q)
  !d.en (pgCasSrc c) || 24 ≤ g || !d.en (pgGroup g) || (d.latched g && !(Table.get {} d.groups g).recording)

/-- Bit q of the FORCED mask (R318). -/
def Dev.chForced (d : Dev) (l q : Nat) : Bool :=
  !d.tlBound l || d.f (pgTlnb l) F.NB_CFG_NCH ≤ q || d.rchForced l q

/-- The FORCED mask of a SYNC. -/
def Dev.forcedMask (d : Dev) (l : Nat) : Nat :=
  (List.range 32).foldl (fun a q => a + b2n (d.chForced l q) * 2 ^ q) 0

/-- The safe states of a SYNC, 2 bits per channel (R317, 11 R254). -/
def Dev.safeWord (d : Dev) (l : Nat) : Nat :=
  (List.range 32).foldl (fun a q =>
    a + safeLevel (d.f (pgCasSrc (l / 2)) (F.CS_RCH_SAFE.at (4 * (32 * (l % 2) + q)))) * 4 ^ q) 0

/-- A launched frame that is not sent (R303). -/
def Dev.launchBad (d : Dev) (l : Nat) : Dev :=
  let d := (d.setB (pgTlc l) F.TLC_STATUS_LAUNCH_BAD true).irq (pgTlc l) 3
  d.tlCount l F.TLC_LAUNCH_DROP_COUNT

/-- What a link drops on leaving LOCKED and on leaving BOUND: gate commands are not sent (R314), launched frames count as
dropped (R303), and a TIME_REQ of a slot boundary is forgotten. -/
def Dev.tlDrop (d : Dev) (l : Nat) : Dev :=
  let x := d.tl l
  let d := if d.lstate l = 5 then d
    else (d.incBy (pgTlcnt l) F.TLC_GC_DROP_COUNT x.gates.length).setTl l { x with gates := [], copy := none }
  if d.tlBound l then d
  else
    let x := d.tl l
    let d := (List.range (x.samples.length + x.users.length + (x.reqs.filter (·.2)).length)).foldl (fun (d : Dev) _ => d.launchBad l) d
    d.setTl l { x with samples := [], users := [], reqs := [], outstanding := [] }

/-- The link sees its FORCED mask and safe states: a change makes an urgent SYNC pending (R318). -/
def Dev.tlSee (d : Dev) (l : Nat) : Dev :=
  if d.lstate l = 0 then d
  else
    let d := d.tlDrop l
    let x := d.tl l
    let m := d.forcedMask l
    let s := d.safeWord l
    if m = x.mask ∧ s = x.safe then d
    else d.setTl l { x with mask := m, safe := s, urgent := some (x.urgent.getD d.tick) }

/-- Every enabled link sees its mask. -/
def Dev.tlSeeAll (d : Dev) : Dev := (d.tls.map (·.1)).foldl (fun (d : Dev) l => if d.en (pgTlc l) then d.tlSee l else d) d

/-- The conditions of R314 under which a command for channel q is discarded: its counter. -/
def Dev.gateRefusal (d : Dev) (l q : Nat) : Option Fld :=
  if d.lstate l ≠ 5 then some F.TLC_GC_DROP_COUNT
  else if d.f (pgTlnb l) F.NB_CFG_NCH ≤ q then some F.TLC_GC_DROP_COUNT
  else if d.chForced l q then some F.TLC_GC_FORCED_COUNT
  else none

/-- The base of a gate command in steps, as at the start of the tick (R312); `none` is EARLIEST. -/
def Dev.gateBase (d : Dev) (l : Nat) : Option Nat :=
  let s := d.atTick
  match d.f (pgTlc l) F.TL_CTRL_GC_BASE_SRC with
  | 1 => some (16 * s.zeroBase (6 * (l / 2) + d.f (pgTlc l) F.TL_CTRL_GC_GEN))
  | 2 => some (16 * s.r64 (pgTlc l) 0x48)
  | _ => none

/-- A gate command lands (R312-R314). `idx` is the target index of 08 Table 8-2: the link in bit 6, the channel below. -/
def Dev.gateCommit (d : Dev) (c idx v : Nat) : Dev :=
  let l := 2 * c + idx / 64
  let q := idx % 64
  if 128 ≤ idx ∨ d.domOn (domLink (l / 16)) = false then d
  else match d.gateRefusal l q with
    | some f => d.tlCount l f
    | none =>
      let x := d.tl l
      d.setTl l { x with gates := x.gates ++ [⟨q, nbits v 31 1 == 1, nbits v 0 31, d.gateBase l, d.tick⟩] }

/-- The frames of R302 in their order of precedence; a SYNC stands twice, as urgent and as routine. -/
inductive TxKind where
  | urgent | gate | timeReq | routine | bind | unbind | sample | user
  deriving DecidableEq, Repr

/-- A frame pending since tick t may start (R302). -/
def Dev.txReady (d : Dev) (t : Option Nat) : Bool := match t with | some t => t + 2 ≤ d.tick | none => false

/-- The highest pending frame that may start (R302). -/
def Dev.txNext (d : Dev) (l : Nat) : Option TxKind :=
  let x := d.tl l
  let bind : Bool := d.txReady x.bindAt
  if d.txReady x.urgent then some .urgent
  else if x.copy.isSome || d.txReady (x.gates.head?.map (·.tick)) then some .gate
  else if d.txReady (x.reqs.head?.map (·.1)) then some .timeReq
  else if d.txReady x.sync then some .routine
  else if bind then some .bind
  else if d.txReady (x.unbindAt.map (·.1)) then some .unbind
  else if d.txReady (x.samples.head?.map (·.1)) then some .sample
  else if d.txReady (x.users.head?.map (·.1)) then some .user
  else none

/-- The transmitter stands at a character boundary with no frame in progress (R297, R302). [DEDUCED (log 71)] -/
def Dev.txFree (d : Dev) (l : Nat) : Bool :=
  d.live (pgTlc l) && !d.clocksStill && d.lstate l != 0 && d.tick % 10 == 0 && (d.tl l).frameEnd ≤ d.tick

/-- The characters of a frame between SOF and EOF (R298). -/
def frameBytes (kind seq : Nat) (payload : List Byte) : List Byte :=
  let body := [BitVec.ofNat 8 kind, BitVec.ofNat 8 seq, BitVec.ofNat 8 payload.length] ++ payload
  body ++ bytesLE 4 (crc32 body)

/-- A frame starts with the next SEQ (R298, R300). -/
def Dev.txSend (d : Dev) (l kind : Nat) (payload : List Byte) : Dev :=
  let x := d.tl l
  let d := d.tlCount l F.TLC_TX_FRAMES_COUNT
  d.setTl l { x with
    line := frameBytes kind x.txSeq payload
    frameEnd := d.tick + 10 * (9 + payload.length)
    gateSeqs := Table.put false x.gateSeqs x.txSeq (kind == 2)
    txSeq := (x.txSeq + 1) % 256 }

/-- The payload of a SYNC (Table 14-2). -/
def Dev.syncPayload (d : Dev) (l : Nat) : List Byte :=
  let x := d.tl l
  bytesLE 8 (16 * d.count) ++ bytesLE 4 (d.f (pgTltt l) F.TT_OFFSET_OFFSET) ++ bytesLE 4 x.mask ++ bytesLE 8 x.safe ++
    bytesLE 1 (b2n (d.tlBound l) + 2 * d.f (pgTltt l) F.TT_STAT_MEAS_VALID)

/-- TX_SYNC: an urgent SYNC, or a routine one when no other frame goes before it. -/
def Dev.txSync (d : Dev) (l : Nat) : Dev :=
  if !d.txFree l then d
  else match d.txNext l with
    | some .urgent => (d.setTl l { (d.tl l) with urgent := none }).txSend l 1 (d.syncPayload l)
    | some .routine => (d.setTl l { (d.tl l) with sync := none }).txSend l 1 (d.syncPayload l)
    | _ => d

/-- The earliest edge of a frame of n commands that starts now (R313). -/
def Dev.earliest (d : Dev) (l n : Nat) : Nat :=
  let dly := (d.f (pgTltt l) F.TT_DELAY_DELAY + 15) / 16
  16 * (d.count + 10 * (9 + 6 * n) + dly +
    Nat.max (d.f (pgTlc l) F.TL_LEAD_LEAD) (d.f (pgTlnb l) F.NB_ANN_INFO_NODE_DEC))

/-- The edge of a command, and whether it was late (R313). -/
def gateEdge (earliest : Nat) (g : GateCmd) : Nat × Bool :=
  match g.base with
  | none => (earliest + g.ofs, false)
  | some b => if b + g.ofs < earliest then (earliest, true) else (b + g.ofs, false)

/-- The six payload bytes of one command (Table 14-2). -/
def gateBytes (g : GateCmd) (edge : Nat) : List Byte := bytesLE 1 (g.ch + 32 * b2n g.level) ++ bytesLE 5 edge

/-- TX_GATE (R313-R315): a second copy, or a frame of the oldest commands, at most 8, that are still to be sent. [DEDUCED (log 71)] -/
def Dev.txGate (d : Dev) (l : Nat) : Dev :=
  if !d.txFree l || d.txNext l != some .gate then d
  else
    let x := d.tl l
    match x.copy with
    | some b =>
      let d := d.tlCount l F.TLC_TX_FRAMES_COUNT
      d.setTl l { x with copy := none, line := b, frameEnd := d.tick + 10 * (b.length + 2) }
    | none =>
      let d := x.gates.foldl (fun (d : Dev) g => match d.gateRefusal l g.ch with
        | some f => d.tlCount l f
        | none => d) d
      let ok := x.gates.filter (fun g => (d.gateRefusal l g.ch).isNone)
      let now := ok.take 8
      let d := d.setTl l { x with gates := ok.drop 8 }
      if now.isEmpty then d
      else
        let e := d.earliest l now.length
        let edges := now.map (fun g => (g, gateEdge e g))
        let d := d.incBy (pgTlcnt l) F.TLC_GC_SENT_COUNT now.length
        let d := d.incBy (pgTlcnt l) F.TLC_GC_LATE_COUNT (edges.filter (fun g => g.2.2)).length
        let d := d.txSend l 2 (edges.flatMap (fun g => gateBytes g.1 g.2.1))
        if d.on (pgTlc l) F.TL_CTRL_REPEAT then d.setTl l { (d.tl l) with copy := some (d.tl l).line } else d

/-- TX_TIME_REQ (R309): its number is the sender's own, and t1 is taken to within one step of the frame's start. [DESIGN CHOICE (log 65, 66)] -/
def Dev.txTimeReq (d : Dev) (l : Nat) : Dev :=
  if !d.txFree l || d.txNext l != some .timeReq then d
  else
    let (i, d) := d.takeFresh
    let (j, d) := d.takeFresh
    let no := (Config.freeValue i).toNat % 256
    let err : Int := ((Config.freeValue j).toNat % 3 : Nat) - 1
    let t1 := codeOf 64 (16 * (d.count : Int) + err)
    let x := d.tl l
    let d := d.setTl l { x with
      reqs := x.reqs.drop 1
      outstanding := x.outstanding ++ [(no, t1, d.tick + 2 * d.tlSlot l)] }
    d.txSend l 3 (bytesLE 1 no)

/-- TX_BIND (R306): the BIND carries NB_CFG and SLOT. [DEDUCED (log 73)] -/
def Dev.txBind (d : Dev) (l : Nat) : Dev :=
  if !d.txFree l || d.txNext l != some .bind then d
  else
    let x := d.tl l
    let nb := pgTlnb l
    (d.setTl l { x with bindAt := none }).txSend l 4 (bytesLE 8 x.heldId ++ bytesLE 1 (d.f nb F.NB_CFG_NCH) ++
      bytesLE 1 (d.f nb F.NB_CFG_NVAL) ++ bytesLE 1 (d.f nb F.NB_CFG_LOSS) ++ bytesLE 2 (d.tlSlot l))

/-- TX_UNBIND (R308, R323). -/
def Dev.txUnbind (d : Dev) (l : Nat) : Dev :=
  if !d.txFree l || d.txNext l != some .unbind then d
  else
    let x := d.tl l
    (d.setTl l { x with unbindAt := none }).txSend l 5 (bytesLE 8 ((x.unbindAt.map (·.2)).getD 0))

/-- TX_SAMPLE (R303). -/
def Dev.txSample (d : Dev) (l : Nat) : Dev :=
  if !d.txFree l || d.txNext l != some .sample then d
  else
    let x := d.tl l
    (d.setTl l { x with samples := x.samples.drop 1 }).txSend l 6 (bytesLE 8 ((x.samples.head?.map (·.2)).getD 0))

/-- TX_USER (R303). -/
def Dev.txUser (d : Dev) (l : Nat) : Dev :=
  if !d.txFree l || d.txNext l != some .user then d
  else
    let x := d.tl l
    (d.setTl l { x with users := x.users.drop 1 }).txSend l 9 ((x.users.head?.map (·.2)).getD [])

/-- A SEND_TL_FRAME launch action (R303). `time` is the scheduled TIME of the entry. -/
def Dev.tlLaunch (d : Dev) (l kind time : Nat) : Dev :=
  let x := d.tl l
  let p := pgTlc l
  if d.domOn (domLink (l / 16)) = false then d
  else if !d.tlBound l then d.launchBad l
  else if kind = 3 then d.setTl l { x with reqs := x.reqs ++ [(d.tick, true)] }
  else if kind = 6 then
    d.setTl l { x with samples := x.samples ++ [(d.tick, (time + d.f p F.TL_SAMPLE_OFS_OFS) % 2 ^ 64)] }
  else if kind = 9 then
    let b := (List.range (d.f p F.TL_TXLEN_LEN)).map (fun k =>
      BitVec.ofNat 8 (bitsOf (d.reg (p + 0x80 + 4 * (k / 4))) (8 * (k % 4)) 8))
    d.setTl l { x with users := x.users ++ [(d.tick, b)] }
  else d.launchBad l

/-- SLOT_BOUNDARY (R301, R309): a routine SYNC becomes pending, at the first boundary of every 300,000 counts a TIME_REQ, and the
slot that ends is judged silent or not (R321). [DEDUCED (log 64)] -/
def Dev.slotBoundary (d : Dev) (l : Nat) : Dev :=
  let x := d.tl l
  let slot := d.tlSlot l
  if !d.live (pgTlc l) || d.clocksStill || slot = 0 || d.count / slot ≤ x.slotNo then d
  else
    let n := d.count / slot
    let first := decide (n * slot / 300000 ≠ (n * slot - slot) / 300000)
    d.setTl l { x with
      slotNo := n
      sync := some d.tick
      reqs := if d.tlBound l && first then x.reqs ++ [(d.tick, false)] else x.reqs
      silent := if x.heard then 0 else x.silent + 1
      heard := false }

/-- Alignment is gained or lost (R297). -/
def Dev.rxAlign (d : Dev) (l : Nat) (up : Bool) : Dev :=
  let p := pgTlc l
  if !d.live p || d.on p F.TLC_STATUS_ALIGNED == up then d
  else
    let d := d.setB p F.TLC_STATUS_ALIGNED up
    if up then d else d.tlCount l F.TLC_ALIGN_LOSS_COUNT

/-- A valid upstream frame with its SEQ (R299, R300): a duplicate is counted, missing values add to RX_GAP, and what the
frame does follows. [DEDUCED (log 68)] -/
def Dev.rxFrame (d : Dev) (l seq : Nat) (g : Dev → Dev) : Dev :=
  let p := pgTlc l
  if !d.live p || d.clocksStill || !d.on p F.TLC_STATUS_ALIGNED then d
  else
    let x := d.tl l
    let d := (d.tlCount l F.TLC_RX_FRAMES_COUNT).setTl l { x with heard := true, rxSeq := some seq }
    if x.rxSeq = some seq then d.tlCount l F.TLC_RX_DUP_COUNT
    else
      let d := match x.rxSeq with
        | some q => d.incBy (pgTlcnt l) F.TLC_RX_GAP_COUNT ((seq + 255 - q) % 256)
        | none => d
      (g d).tlSee l

/-- RX_FRAME_INVALID (R299, R300): a frame with a bad CRC (0), with a bad character, length or kind (1), or one that repeats the
previous SEQ (2). -/
def Dev.rxInvalid (d : Dev) (l why : Nat) : Dev :=
  let p := pgTlc l
  if !d.live p || d.clocksStill || !d.on p F.TLC_STATUS_ALIGNED then d
  else match why with
    | 0 => d.tlCount l F.TLC_RX_CRC_COUNT
    | 1 => d.tlCount l F.TLC_RX_CODE_COUNT
    | _ => match (d.tl l).rxSeq with
      | some q => d.rxFrame l q id
      | none => d

/-- The link goes back to SEEK: no node is recorded (R304). [DEDUCED (log 69)] -/
def Dev.tlSeek (d : Dev) (l : Nat) : Dev :=
  let x := d.tl l
  let d := (d.setLstate l 1).setB (pgTlnb l) F.NB_ANN_INFO_VALID false
  d.setTl l { x with bindAt := none, silent := 0 }

/-- A node is detached (R321), with RESULT r. [DEDUCED (log 69)] -/
def Dev.tlDetach (d : Dev) (l r : Nat) : Dev :=
  let p := pgTlc l
  let d := d.tlSeek l
  let d := (d.setB p F.TLC_STATUS_DETACHED true).irq p 1
  let d := (d.tlCount l F.TLC_DET_COUNT).nbResult l r
  ((d.pulse (tlEvent l + 2)).shutter).tlSee l

/-- An announcement in SEEK or UNBOUND is recorded (R305); a new node raises ATTACH. -/
def Dev.annRecord (d : Dev) (l : Nat) (a : Announce) : Dev :=
  let nb := pgTlnb l
  let fresh := d.lstate l == 1 || d.r64 nb 0x48 != a.id.toNat
  let d := ((d.setF nb F.NB_ANN_CLASS_CLASS a.cls.toNat).setF nb F.NB_ANN_CLASS_NCH a.nch.toNat).setF nb F.NB_ANN_CLASS_NVAL a.nval.toNat
  let d := (d.setR64 nb 0x48 a.id.toNat).setF nb F.NB_ANN_INFO_NODE_DEC a.dec.toNat
  let d := (d.setF nb F.NB_ANN_INFO_PROTO 1).setB nb F.NB_ANN_INFO_VALID true
  let d := d.setTl l { (d.tl l) with annTick := d.tick }
  if fresh then ((d.setLstate l 2).pulse (tlEvent l + 1)).irq (pgTlc l) 0 else d

/-- BIND goes out for the node recorded (R306, R323); BIND_ACK is due within 20 slots. -/
def Dev.tlBind (d : Dev) (l id : Nat) (again : Bool) : Dev :=
  (d.setLstate l 3).setTl l { (d.tl l) with
    heldId := id, rebind := again, bindAt := some d.tick, bindDue := d.tick + 20 * d.tlSlot l }

/-- ANNOUNCE (R305, R321, R323). [DEDUCED (log 72)] -/
def Dev.announce (d : Dev) (l seq : Nat) (a : Announce) : Dev :=
  d.rxFrame l seq (fun d =>
    match d.lstate l with
    | 1 | 2 => d.annRecord l a
    | 4 | 5 => (d.tlDetach l 9).annRecord l a
    | 6 => if a.id.toNat = (d.tl l).heldId then d.tlBind l a.id.toNat true else (d.tlDetach l 8).annRecord l a
    | _ => d)

/-- NB_CMD.BIND (R306). [DEDUCED (log 72)] -/
def Dev.nbBind (d : Dev) (l : Nat) : Dev :=
  let nb := pgTlnb l
  if d.lstate l ≠ 2 then d.nbResult l 0xB
  else if d.r64 nb 0x48 ≠ d.r64 nb 0x58 then d.nbResult l 3
  else if d.f nb F.NB_ANN_CLASS_NCH < d.f nb F.NB_CFG_NCH ∨ d.f nb F.NB_ANN_CLASS_NVAL < d.f nb F.NB_CFG_NVAL then d.nbResult l 4
  else d.tlBind l (d.r64 nb 0x48) false

/-- LSTATE between BOUND and LOCKED (R311). -/
def Dev.tlRelock (d : Dev) (l : Nat) : Dev :=
  let p := pgTltt l
  let o := d.fs p F.TT_OFFSET_OFFSET
  if !d.tlBound l then d
  else d.setLstate l (if d.on p F.TT_STAT_NODE_LOCKED && d.on p F.TT_STAT_MEAS_VALID && decide (-14 ≤ o ∧ o ≤ 14) then 5 else 4)

/-- Writes NODE_LOCKED; a change raises the interrupt of the time-transfer page (Table 14-9). [DEDUCED (log 70)] -/
def Dev.setNodeLocked (d : Dev) (l : Nat) (b : Bool) : Dev :=
  let p := pgTltt l
  if d.on p F.TT_STAT_NODE_LOCKED == b then d else (d.setB p F.TT_STAT_NODE_LOCKED b).irq p 0

/-- BIND_ACK (R306, R321): the node is bound, or rebound after a debug halt (R323). [DEDUCED (log 70)] -/
def Dev.bindAck (d : Dev) (l seq id : Nat) : Dev :=
  d.rxFrame l seq (fun d =>
    let x := d.tl l
    if d.lstate l ≠ 3 ∨ id ≠ x.heldId ∨ x.bindDue < d.tick then d
    else
      let d := ((d.setLstate l 4).setR64 (pgTlnb l) 0x68 id).nbResult l (if x.rebind then 0xA else 1)
      let d := (d.setB (pgTlc l) F.TLC_STATUS_DETACHED false).setB (pgTltt l) F.TT_STAT_MEAS_VALID false
      let d := (d.setNodeLocked l false).setTl l { x with bindAt := none, silent := 0, heard := true, status := none, rebind := false }
      d.shutter)

/-- GATE frames among the SEQs a STATUS reports missing (R316): `k` of the SEQs between the two reported ones are missing, and
which of them the node does not say. [DESIGN CHOICE (log 67)] -/
def Dev.gateLost (d : Dev) (l from_ to_ k : Nat) : Dev :=
  let x := d.tl l
  let n := (to_ + 255 - from_) % 256
  let g := ((List.range n).filter (fun i => Table.get false x.gateSeqs ((from_ + 1 + i) % 256))).length
  let lo := k - (n - g)
  let hi := Nat.min k g
  if hi = 0 then d
  else
    let (i, d) := d.takeFresh
    let lost := if hi ≤ lo then hi else lo + (Config.freeValue i).toNat % (hi - lo + 1)
    if lost = 0 then d
    else ((d.incBy (pgTlcnt l) F.TLC_GC_LOST_COUNT lost).setB (pgTlc l) F.TLC_STATUS_GATE_LOST true).irq (pgTlc l) 2

/-- STATUS_FRAME (R311, R316). -/
def Dev.statusFrame (d : Dev) (l seq : Nat) (s : NodeStatus) : Dev :=
  d.rxFrame l seq (fun d =>
    if !d.tlBound l then d
    else
      let q := s.lastSeq.toNat
      let g := s.gaps.toNat
      let d := d.setR64 (pgTlnb l) 0x70
        (s.flags.toNat + 2 ^ 8 * q + 2 ^ 16 * g + 2 ^ 24 * s.late.toNat + 2 ^ 32 * s.dropped.toNat)
      let d := match (d.tl l).status with
        | some (q0, g0) => d.gateLost l q0 q ((g + 256 - g0) % 256)
        | none => d
      let d := d.setTl l { (d.tl l) with status := some (q, g) }
      (d.setNodeLocked l (bitAt s.flags 0)).tlRelock l)

/-- A complete measurement (R310); the half of an odd sum goes to either neighbour, which the rounding leaves open. [DESIGN CHOICE (log 66)] -/
def Dev.ttMeasure (d : Dev) (l t1 t2 t3 t4 : Nat) : Dev :=
  let p := pgTltt l
  let diff : Nat → Nat → Int := fun a b => signedOf 64 (a + 2 ^ 64 - b)
  let sum := diff t4 t1 - diff t3 t2 + d.fs p F.TT_ASYM_ASYM
  let (i, d) := d.takeFresh
  let delay := if sum % 2 = 0 then sum / 2 else sum / 2 + ((Config.freeValue i).toNat % 2 : Nat)
  let offset := diff t2 t1 - delay
  let d := (((d.setR64 p 0x40 t1).setR64 p 0x48 t2).setR64 p 0x50 t3).setR64 p 0x58 t4
  let d := (d.setF p F.TT_DELAY_DELAY (codeOf 32 delay)).setF p F.TT_OFFSET_OFFSET (codeOf 32 offset)
  (d.setB p F.TT_STAT_MEAS_VALID true).inc p F.TT_CNT_COUNT

/-- TIME_RESP (R309, R310): `t4` is the stamp the device takes. -/
def Dev.timeResp (d : Dev) (l seq no t2 t3 t4 : Nat) : Dev :=
  d.rxFrame l seq (fun d =>
    let x := d.tl l
    if !d.tlBound l then d
    else match x.outstanding.find? (fun o => o.1 == no) with
      | none => d.inc (pgTltt l) F.TT_MISS_COUNT
      | some o =>
        let d := d.setTl l { x with outstanding := x.outstanding.erase o }
        (d.ttMeasure l o.2.1 t2 t3 t4).tlRelock l)

/-- TIME_RESP_MISS (R309): a TIME_RESP has not arrived within 2 slots. -/
def Dev.timeRespMiss (d : Dev) (l : Nat) : Dev :=
  let x := d.tl l
  match x.outstanding.find? (fun o => o.2.2 < d.tick) with
  | none => d
  | some o => (d.setTl l { x with outstanding := x.outstanding.erase o }).inc (pgTltt l) F.TT_MISS_COUNT

/-- SENSOR (R320). -/
def Dev.sensor (d : Dev) (l seq first time : Nat) (vals : List W32) : Dev :=
  d.rxFrame l seq (fun d =>
    if !d.tlBound l then d
    else
      let p := pgTlc l
      let d := (d.setR64 p 0x108 time).setR64 p 0x100 d.count
      let d := (List.range vals.length).foldl (fun (d : Dev) j =>
        let s := first + j
        let v := vals.getD j 0
        if d.f (pgTlnb l) F.NB_CFG_NVAL ≤ s ∨ 64 ≤ s then d.tlCount l F.TLC_VAL_DROP_COUNT
        else (d.setReg (p + 0x200 + 4 * s) v).deliver (l / 2) 3 (64 * (l % 2) + s) v.toNat d.count) d
      d.pulse (tlEvent l))

/-- An upstream USER frame (R320). [DEDUCED (log 68)] -/
def Dev.userFrame (d : Dev) (l seq : Nat) (payload : List Byte) : Dev :=
  d.rxFrame l seq (fun d =>
    let p := pgTlc l
    let d := (List.range 16).foldl (fun (d : Dev) w =>
      if 4 * w < payload.length then
        let old := bytesLE 4 (d.reg (p + 0xC0 + 4 * w)).toNat
        let new := (List.range 4).map (fun k => payload.getD (4 * w + k) (old.getD k 0))
        d.setReg (p + 0xC0 + 4 * w) (BitVec.ofNat 32 (valueLE new))
      else d) d
    ((d.setF p F.TL_RXLEN_LEN payload.length).irq p 4).pulse (tlEvent l))

/-- NB_CMD.UNBIND (R308). -/
def Dev.nbUnbind (d : Dev) (l : Nat) : Dev :=
  if d.lstate l < 3 ∨ 5 < d.lstate l then d.nbResult l 0xB
  else
    let id := (d.tl l).heldId
    let d := (d.tlSeek l).nbResult l 7
    (d.setTl l { (d.tl l) with unbindAt := some (d.tick, id) }).tlSee l

/-- NB_CMD.ACK_DETACH (R321). -/
def Dev.ackDetach (d : Dev) (l : Nat) : Dev := (d.setB (pgTlc l) F.TLC_STATUS_DETACHED false).shutter

/-- BIND_TIMEOUT (R306). -/
def Dev.bindTimeout (d : Dev) (l : Nat) : Dev :=
  let x := d.tl l
  if d.lstate l ≠ 3 ∨ d.tick ≤ x.bindDue then d
  else ((d.setLstate l 2).nbResult l 6).setTl l { x with bindAt := none, rebind := false, annTick := d.tick }

/-- ANNOUNCE_TIMEOUT (R305). -/
def Dev.announceTimeout (d : Dev) (l : Nat) : Dev :=
  if d.lstate l ≠ 2 ∨ d.tick < (d.tl l).annTick + 180000 then d else d.tlSeek l

/-- DETACH (R321): DET_SLOTS silent slots. -/
def Dev.detachSilent (d : Dev) (l : Nat) : Dev :=
  if d.tlBound l && d.f (pgTlc l) F.TL_CTRL_DET_SLOTS ≤ (d.tl l).silent then d.tlDetach l 8 else d

/-- RESUME_TIMEOUT (R323). -/
def Dev.resumeTimeout (d : Dev) (l : Nat) : Dev :=
  if d.lstate l ≠ 6 ∨ d.tick < (d.tl l).resumeDue then d else d.tlDetach l 8

/-- The end of a tick for a link: what was due in it and no command has taken, of its slot, its time-outs and its transmitter. [DESIGN CHOICE (log 145)] -/
def Dev.linkEnd (d : Dev) (l : Nat) : Dev :=
  let d := (((d.slotBoundary l).detachSilent l).bindTimeout l).announceTimeout l
  let d := (d.timeRespMiss l).resumeTimeout l
  if !d.txFree l then d
  else match d.txNext l with
    | some .urgent | some .routine => d.txSync l
    | some .gate => d.txGate l
    | some .timeReq => d.txTimeReq l
    | some .bind => d.txBind l
    | some .unbind => d.txUnbind l
    | some .sample => d.txSample l
    | some .user => d.txUser l
    | none => d

/-- The end of a tick for the links. -/
def Dev.linksEnd (d : Dev) : Dev := d.tls.foldl (fun d e => d.linkEnd e.1) d

/-- A debug halt ends (R323): a link that held a node enters RESUME and sends UNBIND first. -/
def Dev.tlResume (d : Dev) (l : Nat) : Dev :=
  if d.lstate l < 3 ∨ 5 < d.lstate l then d
  else
    let x := d.tl l
    (d.setLstate l 6).setTl l { x with
      frameEnd := d.tick, bindAt := none, unbindAt := some (d.tick, x.heldId), resumeDue := d.tick + 600000 }

/-- Enabling the control page enters SEEK (R304); the first SEQ is the sender's own. [DESIGN CHOICE (log 65)] -/
def Dev.tlEnable (d : Dev) (l : Nat) : Dev :=
  let (i, d) := d.takeFresh
  let d := d.setLstate l 1
  d.setTl l {
    txSeq := (Config.freeValue i).toNat % 256
    slotNo := d.count / Nat.max 1 (d.tlSlot l)
    mask := d.forcedMask l
    safe := d.safeWord l }

/-- Disabling the control page (R322): the frame in progress ends, the binding is forgotten. [DEDUCED (log 73)] -/
def Dev.tlDisable (d : Dev) (l : Nat) : Dev :=
  let x := d.tl l
  let p := pgTlc l
  let d := (d.setLstate l 0).setB (pgTlnb l) F.NB_ANN_INFO_VALID false
  let d := (d.setB p F.TLC_STATUS_DETACHED false).setB p F.TLC_STATUS_ALIGNED false
  (d.setTl l { frameEnd := x.frameEnd, line := x.line }).shutter

/-- The transmitter of a disabled link is idle (R322). -/
def Dev.tlIdle (d : Dev) (l : Nat) : Bool := (d.tl l).frameEnd ≤ d.tick

/-- The enable check of the control page of link l (R324, 01 R27). [DEDUCED (log 15)] -/
def Dev.tlCheck (d : Dev) (l : Nat) : List (Nat × Nat) :=
  let p := pgTlc l
  let src := d.f p F.TL_CTRL_GC_BASE_SRC
  let gen := d.f p F.TL_CTRL_GC_GEN
  (if d.on pgClk (if l < 16 then F.PLL_STAT_TL0_LOCK else F.PLL_STAT_TL1_LOCK) then [] else [(8, 0xB)]) ++
  (if d.en (pgCasSrc (l / 2)) then [] else [(8, 0x101)]) ++
  (if src = 3 then [(0x40, 1)] else []) ++
  (if d.tlSlot l < 6000 ∨ 60000 < d.tlSlot l ∨ d.f p F.TL_CTRL_DET_SLOTS < 2 ∨ 5 < gen then [(0x40, 2)] else []) ++
  (if src = 1 ∧ gen ≤ 5 then d.refCheck p (pgPwm (l / 2) gen) 0x40 else []) ++
  (if d.f p F.TL_LEAD_LEAD < 1800 then [(0x44, 2)] else []) ++
  (if 32 < d.f p F.TL_TXLEN_LEN then [(0x54, 2)] else [])

end Sys2Proof.Machine
end

