-- ==== Sys2Proof/Machine/Debug.lean ====
section
/-!
DEFINITION. Sys2Proof/Machine/Debug.lean: the trace unit, halt, single step and resume as the device sees them
(22_vopen_debug_and_trace.md R479-R487). Access levels and the TAP are in Vopen.lean.
-/
namespace Sys2Proof.Machine

/-- The trace unit runs (R486): PD_DBG on, TRC_CTRL.EN 1, not stopped, not halted. -/
def Dev.tracing (d : Dev) : Bool :=
  d.domOn domDbg && d.on pgDbg F.TRC_CTRL_EN && !d.on pgDbg F.TRC_CTRL_STOPPED && !d.sys.halted

/-- Bytes of ALIGN (R486). -/
def alignBytes : List Byte := List.replicate 12 0xFF

/-- Bytes enter the buffer, if it has room for them. -/
def Dev.traceRoom (d : Dev) (l : List Byte) : Bool := d.trace.buf.length + l.length ≤ 4096

/-- Bytes of a packet: header, stamp, payload (R486). -/
def packetBytes (kind n port info stamp : Nat) (payload : List Byte) : List Byte :=
  bytesLE 4 (kind + n * 16 + port * 256 + info * 65536) ++ bytesLE 8 stamp ++ payload

/-- A packet reaches the trace unit (R486, R487): with an ALIGN and an OVERFLOW before it where they are due; dropped where it does
not fit. -/
def Dev.tracePacket (d : Dev) (l : List Byte) : Dev :=
  if !d.tracing then d
  else
    let t := d.trace
    let due := 4096 ≤ t.sent
    let extra := (if due then alignBytes else []) ++ (if t.lost = 0 then [] else packetBytes 3 0 0 0 t.lost [])
    let all := extra ++ l
    if d.traceRoom all then
      let d := { d with trace := { t with
        buf := t.buf ++ all, lost := 0, sent := (if due then 0 else t.sent) + all.length
        first := if t.buf.isEmpty then d.tick else t.first } }
      d.incBy pgDbg F.TRC_PKTS_PKTS (if t.lost = 0 then 1 else 2)
    else ({ d with trace := { t with lost := t.lost + 1 } }).inc pgDbg F.TRC_DROP_DROPS

/-- The knocks that have arrived give KNOCK packets where their ports are enabled (R485, R486). -/
def Dev.knockSee (d : Dev) : Dev :=
  let (now, later) := d.knocks.partition (fun (k : Knock) => k.due ≤ d.tick)
  now.foldl (fun (d : Dev) (k : Knock) =>
    if bitAt (d.reg (pgDbg + 0x48 + 4 * (k.port / 32))) (k.port % 32) then
      d.tracePacket (packetBytes 1 (k.payload.length - 1) k.port k.lane d.count k.payload)
    else d) { d with knocks := later }

/-- What the trace unit sees of event e: a packet for each pulse, or for its becoming asserted, 24 ticks later with the stamp of its
assertion (R486, 04 R107). -/
def Dev.traceEvent (d : Dev) (e : Nat) : Dev :=
  let t := d.trace
  let pkt : Nat → List Byte := fun stamp => packetBytes 2 0 0 e stamp []
  if isLevel e then
    let run := d.levelRun none e
    let d := { d with trace := { t with seen := Table.put false t.seen e run.isSome } }
    match run with
    | some r => if Table.get false t.seen e then d else d.tracePacket (pkt r.count)
    | none => d
  else
    let n := d.pulsesSeen none e
    let here := d.recent.filter (fun x => x.ev == e && decide (x.tick + 24 ≤ d.tick))
    let d := { d with trace := { t with mark := Table.put 0 t.mark e n } }
    ((here.take (n - Table.get 0 t.mark e)).reverse).foldl (fun d x => d.tracePacket (pkt x.count)) d

/-- The selected events, each once. -/
def Dev.tracedEvents (d : Dev) : List Nat :=
  ((List.range 16).filterMap (fun i =>
    let r := d.reg (pgDbg + 0x80 + 4 * i)
    if bitAt r 31 then some (bitsOf r 0 11) else none)).eraseDups

/-- The trace unit follows the knocker ports and the events. -/
def Dev.traceSee (d : Dev) : Dev :=
  let d := d.knockSee
  if d.tracing then d.tracedEvents.foldl (fun (d : Dev) e => d.traceEvent e) d else d

/-- What the trace unit holds of the selected events from now on: nothing seen before counts. [DEDUCED (log 118)] -/
def Dev.traceMarks (d : Dev) : Dev :=
  d.tracedEvents.foldl (fun (d : Dev) e =>
    let t := d.trace
    if isLevel e then { d with trace := { t with seen := Table.put false t.seen e (d.levelSeen none e) } }
    else { d with trace := { t with mark := Table.put 0 t.mark e (d.pulsesSeen none e) } }) d

/-- One byte leaves on the trace port every 8 ticks with DEST = 0 (R487): TRC_CLK runs at 750 MHz, a nibble on each edge. -/
def Dev.traceTick (d : Dev) : Dev :=
  if d.tracing && !d.on pgDbg F.TRC_CTRL_DEST && d.tick % 8 == 0 then
    { d with trace := { d.trace with out := d.trace.buf.head?, buf := d.trace.buf.drop 1 } }
  else d

/-- The ring of R487: in the usable data region of a stack and aligned to its size. -/
def Dev.traceRingOk (d : Dev) : Bool :=
  let b := d.r64 pgDbg 0xC0
  let l := d.f pgDbg F.TRC_RING_SIZE_LOG2
  12 ≤ l && l ≤ 30 && b % 2 ^ l == 0 && hbmBase 0 ≤ b && b + 2 ^ l ≤ hbmBase 2 &&
    (b - hbmBase 0) / 0x400000000 == (b + 2 ^ l - 1 - hbmBase 0) / 0x400000000 &&
    d.hbmInRegion b && (List.range 4).any (fun r =>
      let s := (b - hbmBase 0) / 0x400000000
      hbmBase s + d.crStart s r * 0x100000 ≤ b && b + 2 ^ l ≤ d.crEnd s r)

/-- A write of TRC_CTRL at a sufficient level (R487): EN := 1 rewinds TRC_WPTR and starts with an ALIGN; a ring that breaks R487
is answered with LIVE_RANGE. [DEDUCED (log 118)] -/
def Dev.trcCtrl (d : Dev) (v : W32) : Dev × Option Nat :=
  let d := d.setReg (pgDbg + 0x40) ((d.reg (pgDbg + 0x40) &&& 0x9) ||| (v &&& 0x6))
  if !bitAt v 0 then (d.setB pgDbg F.TRC_CTRL_EN false, none)
  else if d.on pgDbg F.TRC_CTRL_DEST && !d.traceRingOk then (d.setB pgDbg F.TRC_CTRL_EN false, some 9)
  else if d.on pgDbg F.TRC_CTRL_EN then ((d.setF pgDbg F.TRC_WPTR_WPTR 0).setB pgDbg F.TRC_CTRL_STOPPED false, none)
  else
    let d := ((d.setB pgDbg F.TRC_CTRL_EN true).setB pgDbg F.TRC_CTRL_STOPPED false).setF pgDbg F.TRC_WPTR_WPTR 0
    let d := { d with trace := { d.trace with
      buf := alignBytes, sent := 12, lost := 0, first := d.tick, round := false } }
    (d.traceMarks, none)

/-- TRACE_LINE_WRITE (R487): a line that is full, or whose first byte is 1 µs old, is written to the ring. [DEDUCED (log 118)] -/
def Dev.traceLine (d : Dev) : Dev :=
  let t := d.trace
  if !d.tracing || !d.on pgDbg F.TRC_CTRL_DEST || t.buf.isEmpty || d.clocksStill then d
  else if t.buf.length < 64 ∧ d.tick < t.first + 6000 then d
  else if t.round ∧ d.f pgDbg F.TRC_WPTR_WPTR = 0 ∧ d.on pgDbg F.TRC_CTRL_MODE = true then
    d.setB pgDbg F.TRC_CTRL_STOPPED true
  else
    let w := d.f pgDbg F.TRC_WPTR_WPTR
    let a := d.r64 pgDbg 0xC0 + w
    let l := t.buf.take 64
    let line := l ++ List.replicate (64 - l.length) 0
    let d := if (d.memCause a 64 true false).isNone then d.putClean a line else d
    let w' := (w + 64) % 2 ^ d.f pgDbg F.TRC_RING_SIZE_LOG2
    ({ d with trace := { t with buf := t.buf.drop 64, first := d.tick, round := t.round || w' == 0 } }).setF pgDbg F.TRC_WPTR_WPTR w'

/-- A halt request is accepted and its drain starts (R479, R480): source 1 VO_CTRL, 2 breakpoint, 3 event. -/
def Dev.haltRequest (d : Dev) (src core bp : Nat) : Dev :=
  if d.sys.halted || d.sys.drain.isSome || d.clocksStill then d
  else { d with sys := { d.sys with drain := some (src, core, bp) } }

/-- A breakpoint of core k matches its next instruction (R479). -/
def Dev.bpMatches (d : Dev) (k i : Nat) : Bool :=
  let c := d.core k
  let b := Table.get 0 c.bps i
  d.domOn k && c.running && !c.bpSkip && bitAt b 0 && bitsOf b 2 46 == bitsOf c.arch.pcc.addr 2 46

/-- Whether the event in DBG_HALT_EV has been asserted (R479). -/
def Dev.haltEventSeen (d : Dev) : Bool :=
  let r := d.reg (pgDbg + 0x14)
  let e := bitsOf r 0 11
  d.domOn domDbg && bitAt r 31 && (if isLevel e then d.levelSeen none e else d.trace.haltMark < d.pulsesSeen none e)

/-- The halt event's pulses up to now have been seen. -/
def Dev.haltEventMark (d : Dev) : Dev :=
  { d with trace := { d.trace with haltMark := d.pulsesSeen none (bitsOf (d.reg (pgDbg + 0x14)) 0 11) } }

/-- The pads of every pair follow (R236, R253, R481). -/
def Dev.allPads (d : Dev) : Dev := d.forN 96 (fun n d => d.padRefresh (n / 6) (n % 6))

/-- HALT_DRAIN_DONE (R480, R481): every core has drained and all divided clocks stop. -/
def Dev.haltDone (d : Dev) : Dev :=
  match d.sys.drain with
  | none => d
  | some (src, core, bp) =>
    let d := { d with
      cores := Table.upd {} (fun _ (c : Core) => { c with arch := c.arch.landAll c.cps, cps := [], resv := none }) d.cores
      adcs := Table.upd {} (fun _ (a : Adc) => { a with convs := [] }) d.adcs }
    let d := d.tracePacket (packetBytes 4 0 0 0 d.count [])
    let d := (d.setB pgDbg F.DBG_STAT_HALTED true).inc pgDbg F.DBG_HALT_CNT_HALTS
    let d := (d.setR64 pgDbg 8 d.count).setReg (pgDbg + 0x10) (BitVec.ofNat 32 (src + core * 4 + bp * 32))
    ({ d with sys := { d.sys with halted := true, drain := none, stepResult := 0 } }).allPads

/-- RESUME (R484, Table 22-9): every clock restarts. -/
def Dev.resume (d : Dev) : Dev :=
  let d := { d with sys := { d.sys with halted := false, step := none } }
  let d := d.setB pgDbg F.DBG_STAT_HALTED false
  let d := { d with
    pwms := Table.upd {} (fun _ (w : Pwm) => w.cut) d.pwms
    cores := Table.upd {} (fun _ (c : Core) => { c with bpSkip := true, resv := none }) d.cores
    dmas := Table.upd {} (fun _ (x : Dma) => if x.words = [] then x else { x with abort := true }) d.dmas }
  let d := d.forN 96 (fun n d => d.sdResume (n / 6) (n % 6))
  let d := d.forN 24 (fun k d =>
    if k < 5 ∨ 8 ≤ k then { d with wds := Table.put 0 d.wds k (d.tick + 1) } else d)
  let d := d.forN 32 (fun l d => if d.live (pgTlc l) then d.tlResume l else d)
  let d := if d.domOn domHostio then
      let d := d.setLink false 0 0
      let d := d.forN 4 (fun p d =>
        if d.on (pgEth p) F.ETH_STATUS_LINK then (d.setB (pgEth p) F.ETH_STATUS_LINK false).irq (pgEth p) 9 else d)
      d.forN 8 (fun m d =>
        if d.canState m < 2 then ((d.setCan m { d.can m with tx := none }).canGo m 3).canLeave m else d)
    else d
  d.allPads

/-- Any reset ends a halt and a drain (R481). -/
def Dev.haltEnded (d : Dev) : Dev := { d with sys := { d.sys with halted := false, drain := none, step := none } }

/-- The pair of a step is held, failed or recovering (R483). [DEDUCED (log 119)] -/
def Dev.stepHeld (d : Dev) (k : Nat) : Bool :=
  !d.domOn k || !(d.core k).running || d.on (pgIntc k) F.LS_STAT_FAILED || d.on (pgIntc k) F.LS_STAT_RECOVERING

end Sys2Proof.Machine
end

