-- ==== Sys2Proof/Machine/Interrupt.lean ====
section
/-!
DEFINITION. Sys2Proof/Machine/Interrupt.lean: the interrupt controllers and the start of an application pair
(17_capabilities_and_exceptions.md R380, R385, R393).
-/
namespace Sys2Proof.Machine

/-- INT_SRC_e of core k (Table 17-13). -/
def intSrcAt (k e : Nat) : Nat := pgIntsrc k (e / 512) + 0x40 + 4 * (e % 512)

/-- PEND of event e at core k: a pulse not yet cleared, or an asserted level event (R393), as seen 24 ticks later (04 R107). [DEDUCED (log 17)] -/
def Dev.intPending (d : Dev) (k e : Nat) : Bool :=
  if isLevel e then d.levelSeen none e else decide (Table.get 0 (d.core k).intMark e < d.pulsesSeen none e)

/-- PEND of a source is cleared up to now. -/
def Dev.intClear (d : Dev) (k e : Nat) : Dev :=
  let c := d.core k
  d.setCore k { c with intMark := Table.put 0 c.intMark e (d.pulsesSeen none e) }

/-- PEND of a pulse source sets again, as a rollback leaves it (19 R420). -/
def Dev.intAgain (d : Dev) (k e : Nat) : Dev :=
  let c := d.core k
  if isLevel e || d.pulsesSeen none e == 0 then d
  else d.setCore k { c with intMark := Table.put 0 c.intMark e (d.pulsesSeen none e - 1) }

/-- Door source j of SP's controller is pending (R385). -/
def Dev.doorPending (d : Dev) (j : Nat) : Bool :=
  let r : DoorReq := Table.get {} d.dreqs j
  bitAt r.type 31 && !r.taken

/-- A source that may be delivered: (level, EVENT, target). -/
abbrev IntSource := Nat × Nat × Nat

/-- The pending event sources of core k whose level is 1-6 and whose pages are enabled (R393). -/
def Dev.eventSources (d : Dev) (k : Nat) : List IntSource :=
  d.regs.filterMap (fun e =>
    let q := (e.1 - pgIntsrc k 0) / 0x1000
    let i := (e.1 % 0x1000 - 0x40) / 4
    if pgIntsrc k 0 + 0x40 ≤ e.1 ∧ e.1 < pgIntsrc k 4 ∧ 0x40 ≤ e.1 % 0x1000 ∧ i < 512 then
      let lvl := bitsOf e.2 0 3
      let ev := 512 * q + i
      if 1 ≤ lvl && lvl ≤ 6 && d.en (pgIntsrc k q) && d.intPending k ev then some (lvl, ev, bitsOf e.2 3 8) else none
    else none)

/-- The pending door sources of SP (R385). -/
def Dev.doorSources (d : Dev) : List IntSource :=
  (List.range 4).filterMap (fun j =>
    let v := d.reg (pgIntc 4 + 0x58 + 4 * j)
    let lvl := bitsOf v 0 3
    if 1 ≤ lvl && lvl ≤ 6 && d.doorPending j then some (lvl, 0x800 + j, bitsOf v 3 8) else none)

/-- The sources core k may take. -/
def Dev.intSources (d : Dev) (k : Nat) : List IntSource :=
  if d.domOn k && d.en (pgIntc k) then d.eventSources k ++ (if k = 4 then d.doorSources else []) else []

/-- The better of two sources: the higher level, then the lower EVENT. -/
def intBetter (a b : IntSource) : Bool := b.1 < a.1 || (a.1 == b.1 && a.2.1 < b.2.1)

/-- The source that would be taken (INT_TOP, R393). -/
def Dev.intTop (d : Dev) (k : Nat) : Option IntSource :=
  (d.intSources k).foldl (fun (best : Option IntSource) s => match best with
    | none => some s
    | some b => if intBetter s b then some s else best) none

/-- INT_TOP as it reads. -/
def Dev.intTopWord (d : Dev) (k : Nat) : Nat :=
  match d.intTop k with
  | none => 0
  | some (l, e, _) => l + e * 8

/-- The source an interrupt entry takes: its pulse PEND is cleared, a door request is taken, INT_TAKEN counts (R385, R393). -/
def Dev.intTake (d : Dev) (k e : Nat) : Dev :=
  let d := d.inc (pgIntc k) F.INT_TAKEN_TAKEN
  let c := d.core k
  if 0x800 ≤ e then
    let r : DoorReq := Table.get {} d.dreqs (e - 0x800)
    let d := { d with dreqs := Table.put {} d.dreqs (e - 0x800) { r with taken := true } }
    d.setCore k { c with taken := e :: c.taken }
  else if isLevel e then d
  else (d.setCore k { c with taken := e :: c.taken }).intClear k e

/-- The registers a start block loads (R380). -/
def Dev.startArch (d : Dev) (a : Nat) : Arch :=
  let w : Nat → W64 := fun o => BitVec.ofNat 64 (valueLE (d.memBytes (a + o) 8))
  { pcc := d.capAt a
    ddc := d.capAt (a + 0x10)
    trapBase := d.capAt (a + 0x20)
    rsp := w 0x30
    rspLim := w 0x38
    dsp := w 0x40
    dspLim := w 0x48 }

/-- An address of a 16-byte slot of the return stack (15 Table 15-3). [DEDUCED (log 96)] -/
def rspOk (v : W64) : Bool := v.toNat % 16 == 0 && wordPoison v.toNat

/-- A start block can be used (R380): 64-byte aligned in Core SRAM, unpoisoned, with tagged PCC and DDC and a return stack in Core SRAM. [DEDUCED (log 101)] -/
def Dev.startOk (d : Dev) (a : Nat) : Bool :=
  a % 64 == 0 && wordPoison a && wordPoison (a + 127) && !d.poisonedRange a 128 &&
    (d.startArch a).pcc.tag && (d.startArch a).ddc.tag && rspOk (d.startArch a).rsp && rspOk (d.startArch a).rspLim

/-- CORE_GO (R380): a held application pair starts, or START_FAIL sets. [DEDUCED (log 6, 101)] -/
def Dev.coreGo (d : Dev) (k : Nat) : Dev :=
  let p := pgIntc k
  if 4 ≤ k ∨ d.on p F.INTC_STATUS_HELD = false ∨ d.on p F.LS_STAT_FAILED = true then d
  else
    let a := d.r64 p 0x40
    if !d.startOk a then d.setB p F.INTC_STATUS_START_FAIL true
    else
      let d := d.setB p F.INTC_STATUS_HELD false
      (d.setCore k { d.core k with arch := d.startArch a, running := true }).checkpoint k

end Sys2Proof.Machine
end

