-- ==== Sys2Proof/Machine/Sysreg.lean ====
section
/-!
DEFINITION. Sys2Proof/Machine/Sysreg.lean: the system registers of Tables 15-3, 17-5 and 18-1 without the permissions they need, the retirement
of an instruction, and the reply to a remote DOOR (17_capabilities_and_exceptions.md R378, R384, R385).
-/
namespace Sys2Proof.Machine

/-- An instruction of the core retires: the distances of coprocessor results grow (15 R346), and so does the number of instructions behind
an arithmetic exception (17 R388). -/
def Core.retired (c : Core) : Core :=
  { c with
    cps := c.cps.map (fun o => { o with dist := o.dist + 1 })
    since := if c.arch.arithPend then c.since + 1 else 0
    bpSkip := false }

/-- PCC at another address (17 R371). -/
def Arch.goto (a : Arch) (pc : W64) : Arch := { a with pcc := a.pcc.move pc }

/-- The address of the next instruction. -/
def Arch.pc (a : Arch) : W64 := a.pcc.addr

/-- Sets or clears one flag of ST: 0 C, 1 Z, 2 N, 3 V. -/
def Arch.setFlag (a : Arch) (i : Nat) (b : Bool) : Arch := { a with st := putBits a.st i 1 (b2n b) }

/-- CPSTAT (Table 15-2). -/
def Core.cpstat (c : Core) : W64 :=
  let out := c.cps.filter (fun o => !o.landed)
  BitVec.ofNat 64 (out.length + ((List.range 8).foldl (fun a n => a + b2n (out.any (fun o => o.cq == n)) * 2 ^ n) 0) * 2 ^ 8)

/-- The capability registers among the system registers (Tables 17-5, 18-1). -/
def sysCap (r : Nat) : Bool :=
  r == 0x10 || r == 0x19 || (0x40 ≤ r && r < 0xC0 && (r % 16 == 8 || r % 16 == 9)) || (0xC0 ≤ r && r < 0xE0)

/-- A capability system register. -/
def Arch.sysCapRead (a : Arch) (r : Nat) : Capability :=
  if r = 0x10 then a.trapBase
  else if r = 0x19 then a.ttb
  else if r < 0xC0 then (let s := a.saved ((r - 0x40) / 16); if r % 16 = 8 then s.pcc else s.ddc)
  else Table.get {} a.doors (r - 0xC0)

/-- Writes a capability system register. -/
def Arch.sysCapWrite (a : Arch) (r : Nat) (c : Capability) : Arch :=
  if r = 0x10 then { a with trapBase := c }
  else if r = 0x19 then { a with ttb := c }
  else if r < 0xC0 then
    let n := (r - 0x40) / 16
    let s := a.saved n
    { a with sets := Table.put {} a.sets n (if r % 16 = 8 then { s with pcc := c } else { s with ddc := c }) }
  else { a with doors := Table.put {} a.doors (r - 0xC0) c }

/-- A field of a save set that is no capability (Table 17-5), i = 0-6. -/
def SaveSet.word (s : SaveSet) (i : Nat) : W64 :=
  match i with | 0 => s.pc | 1 => s.st | 2 => s.a | 3 => s.x | 4 => s.y | 5 => s.cause | _ => s.faddr

/-- Writes a field of a save set. -/
def SaveSet.setWord (s : SaveSet) (i : Nat) (v : W64) : SaveSet :=
  match i with
  | 0 => { s with pc := v } | 1 => { s with st := v } | 2 => { s with a := v } | 3 => { s with x := v }
  | 4 => { s with y := v } | 5 => { s with cause := v } | _ => { s with faddr := v }

/-- System register r as MFS reads it; `none` for a number without a register (R378, R396). A capability register reads its address. [DEDUCED (log 106)] -/
def Dev.sysRead (d : Dev) (k r : Nat) : Option W64 :=
  let c := d.core k
  let a := c.arch
  if sysCap r then some (a.sysCapRead r).addr
  else if 0x20 ≤ r ∧ r < 0x30 then some (Table.get 0 a.tlbl (r - 0x20))
  else if 0x40 ≤ r ∧ r < 0xC0 ∧ r % 16 < 7 then some ((a.saved ((r - 0x40) / 16)).word (r % 16))
  else if 0xE0 ≤ r ∧ r < 0x100 ∧ r % 8 < 5 ∧ k = 4 then
    let q : DoorReq := Table.get {} d.dreqs ((r - 0xE0) / 8)
    some (match r % 8 with | 0 => q.type | 1 => q.a | 2 => q.x | 3 => q.y | _ => 0)
  else match r with
    | 0 => some a.st
    | 1 => some a.dsp
    | 2 => some a.dspLim
    | 3 => some a.rsp
    | 4 => some a.rspLim
    | 5 => some c.cpstat
    | 6 => some (BitVec.ofNat 64 (a.occ.toNat + a.spill.toNat * 2 ^ 8))
    | 7 => some (a.depth.setWidth 64)
    | 8 => some a.arithPc
    | 9 => some a.arithCause
    | 10 => some (a.doorAttr.setWidth 64)
    | 0x18 => some a.xlate
    | _ => none

/-- The waiting DOOR of an application pair completes (R384): A and Z take their values and it retires. -/
def Dev.doorComplete (d : Dev) (j : Nat) (v : W64) (z : Bool) : Dev :=
  let c := d.core j
  let a := ({ c.arch with a := v }.setFlag 1 z).goto (c.arch.pc + 4)
  d.setCore j ({ c with arch := a, doorWait := none }.retired)

/-- A reply of SP to remote door request j (R385): it completes the waiting DOOR, or is late. A pair that recovers takes it afterwards. -/
def Dev.dreqReply (d : Dev) (j : Nat) (v : W64) : Dev :=
  let q : DoorReq := Table.get {} d.dreqs j
  let put : DoorReq → Dev → Dev := fun q d => { d with dreqs := Table.put {} d.dreqs j q }
  if bitAt q.type 31 then
    let d := put { q with type := putBits q.type 31 1 0, taken := false } d
    if d.on (pgIntc j) F.LS_STAT_RECOVERING then d.setCore j { d.core j with reply := some v }
    else if (d.core j).doorWait.isSome then d.doorComplete j v true else d
  else put { q with type := q.type ||| 0x40000000 } d

/-- System register r as MTS writes it: the fault code where it breaks its rule, 1 ILLEGAL or 2 ALIGN (R327, R378, R396). -/
def Dev.sysWrite (d : Dev) (k r : Nat) (v : W64) : Except Nat Dev :=
  let a := d.arch k
  let ok : Arch → Except Nat Dev := fun a => .ok (d.setArch k a)
  if sysCap r then ok (a.sysCapWrite r { (a.sysCapRead r) with addr := v, tag := false })
  else if 0x40 ≤ r ∧ r < 0xC0 ∧ r % 16 < 7 then
    let n := (r - 0x40) / 16
    ok { a with sets := Table.put {} a.sets n ((a.saved n).setWord (r % 16) v) }
  else if 0xE0 ≤ r ∧ r < 0x100 ∧ r % 8 = 4 ∧ k = 4 then .ok (d.dreqReply ((r - 0xE0) / 8) v)
  else match r with
    | 0 => ok (a.putSt v)
    | 1 => if v.toNat % 8 = 0 then ok { a with dsp := v } else .error 2
    | 2 => if v.toNat % 8 = 0 then ok { a with dspLim := v } else .error 2
    | 3 => if rspOk v then ok { a with rsp := v } else .error 2
    | 4 => if rspOk v then ok { a with rspLim := v } else .error 2
    | 8 => ok { a with arithPc := v }
    | 9 => ok { a with arithCause := v }
    | 10 => ok { a with doorAttr := v.setWidth 16 }
    | 0x18 => ok { a with xlate := v &&& 0xFF01 }
    | _ => .error 1

end Sys2Proof.Machine
end

