-- ==== Sys2Proof/Machine/DebugSpace.lean ====
section
/-!
DEFINITION. Sys2Proof/Machine/DebugSpace.lean: the debug space (22_vopen_debug_and_trace.md R478, R485, Tables 22-5, 22-7, 22-8).
-/
namespace Sys2Proof.Machine

/-- An access that ends with an error response is answered with its cause (01 R32). -/
def Dev.answerError (d : Dev) (cause : Nat) : Dev := { d with resp := { error := some cause } }

/-- An access that returns data. -/
def Dev.answer (d : Dev) (v : Nat) : Dev := { d with resp := { data := v } }

/-- The Vopen access level in effect (22 R475): 0 NONE, 1 NONINVASIVE, 2 FULL. -/
def Dev.dbgLevel (d : Dev) : Nat := if d.domOn domDbg then d.f pgDbg F.DBG_STAT_LEVEL else 0

/-- What an offset of the debug space is (Table 22-5). -/
inductive DbgPart where
  | knocker (j : Nat)
  | window (k o : Nat)
  | control (o : Nat)
  | none
  deriving DecidableEq, Repr

/-- The part of the debug space at an address. -/
def dbgPart (a : Nat) : DbgPart :=
  let o := a - 0xF0000000
  if o < 0x200 then .knocker (o / 16)
  else if 0x10000 ≤ o ∧ o < 0x15000 then .window ((o - 0x10000) / 0x1000) (o % 0x1000)
  else if 0x20000 ≤ o ∧ o < 0x21000 then .control (o % 0x1000)
  else .none

/-- A slot of a core debug window that may be accessed while the device runs (R478). -/
def dbgRunning (o : Nat) : Bool := (0x80 ≤ o && o < 0xA0) || (0xA0 ≤ o && o < 0xA8)

/-- The 8-byte slot at an offset of core k's debug window as it reads (Table 22-7). [DEDUCED (log 124)] -/
def Dev.windowRead (d : Dev) (k o : Nat) : W64 :=
  let c := d.core k
  let a := c.arch
  if o = 0 then a.a else if o = 8 then a.x else if o = 0x10 then a.y
  else if o = 0x18 then a.st else if o = 0x20 then a.pc
  else if o = 0x28 then
    BitVec.ofNat 64 (b2n d.sys.halted + b2n (d.on (pgIntc k) F.INTC_STATUS_HELD || d.on (pgIntc k) F.LS_STAT_FAILED) * 2 +
      b2n (d.on (pgIntc k) F.LS_STAT_RECOVERING) * 4)
  else if 0x80 ≤ o ∧ o < 0xA0 then Table.get 0 c.bps ((o - 0x80) / 8)
  else if o = 0xA0 then BitVec.ofNat 64 (b2n c.maskInt)
  else if 0x100 ≤ o ∧ o < 0x340 then
    let n := (o - 0x100) / 0x20
    match (o - 0x100) % 0x20 with
    | 0 => BitVec.ofNat 64 (a.cap n).bits
    | 8 => BitVec.ofNat 64 ((a.cap n).bits / 2 ^ 64)
    | 0x10 => BitVec.ofNat 64 (b2n (a.cap n).tag)
    | _ => 0
  else if 0x800 ≤ o then (d.sysRead k ((o - 0x800) / 8)).getD 0
  else 0

/-- A capability register written by the debugger: any of the 18 of Table 22-7. -/
def Arch.putCap (a : Arch) (n : Nat) (c : Capability) : Arch :=
  if n = 16 then { a with pcc := c } else if n = 17 then { a with ddc := c } else a.setCap n c

/-- The 8-byte slot at an offset of core k's debug window is written (Table 22-7): no write sets a tag. -/
def Dev.windowWrite (d : Dev) (k o : Nat) (v : W64) : Dev :=
  let c := d.core k
  let a := c.arch
  if o = 0 then d.setArch k { a with a := v }
  else if o = 8 then d.setArch k { a with x := v }
  else if o = 0x10 then d.setArch k { a with y := v }
  else if o = 0x18 then d.setArch k (a.putSt v)
  else if o = 0x20 then d.setArch k (a.goto v)
  else if 0x80 ≤ o ∧ o < 0xA0 then
    d.setCore k { c with bps := Table.put 0 c.bps ((o - 0x80) / 8) (v &&& 0x0000FFFFFFFFFFFD) }
  else if o = 0xA0 then d.setCore k { c with maskInt := bitAt v 0 }
  else if 0x100 ≤ o ∧ o < 0x340 then
    let n := (o - 0x100) / 0x20
    let b := (a.cap n).bits
    match (o - 0x100) % 0x20 with
    | 0 => d.setArch k (a.putCap n (.ofBits (b / 2 ^ 64 * 2 ^ 64 + v.toNat) false))
    | 8 => d.setArch k (a.putCap n (.ofBits (b % 2 ^ 64 + v.toNat * 2 ^ 64) false))
    | _ => d
  else if 0x800 ≤ o then
    match d.sysWrite k ((o - 0x800) / 8) v with
    | .ok d => d
    | .error _ => d
  else d

/-- Bytes [b, b + len) of a slot's value replaced. -/
def putBytes (old : W64) (b len v : Nat) : W64 := putBits old (8 * b) (8 * len) v

/-- Whether a requester is a Sahxel core (01 Table 1-12). -/
def coreReq (r : Nat) : Bool := 1 ≤ r && r ≤ 5

/-- Why an access to the debug space is refused (R478): a cause of Table 1-11, or 0x100 plus a status of Table 22-4. -/
def Dev.dbgCause (d : Dev) (w : Who) (a len : Nat) (write : Bool) : Option Nat :=
  let dbg := w.req == 0x3F0
  if dbgPart a = .none then some 8
  else if !d.domOn domDbg then some 7
  else if a % Nat.max len 1 ≠ 0 then some 1
  else match dbgPart a with
    | .knocker _ => if write && coreReq w.req then none else some 3
    | .window _ o =>
      if !dbg || d.dbgLevel != 2 then some 3
      else if !d.sys.halted && !dbgRunning o then some 0x106 else none
    | .control o =>
      let word := findWord .dbg o
      if len ≠ 4 ∧ ¬ (len = 8 ∧ o % 8 = 0 ∧ (word.map (·.pair)).getD false = true) then some 2
      else if !write then none
      else if !dbg then some 3
      else if o = 0x14 ∧ d.dbgLevel ≠ 2 then some 0x104
      else match word with
        | none => none
        | some r => if r.fields.any (fun f => f.ty = .rw) then none else some 4
    | .none => some 8

/-- A word of the control block takes its RW fields (Table 22-8); the answer is the cause of a refusal. -/
def Dev.controlWrite (d : Dev) (o : Nat) (v : W32) : Dev × Option Nat :=
  match findWord .dbg o with
  | none => (d, none)
  | some r =>
    if o = 0x40 then d.trcCtrl v
    else
      let m := r.fields.foldl (fun (m : W32) f => if f.ty = .rw then m ||| fieldMask 32 f.lsb f.width else m) 0
      let d := d.setReg (pgDbg + o) ((d.reg (pgDbg + o) &&& ~~~ m) ||| (v &&& m))
      if o = 0x14 then (d.haltEventMark, none)
      else if 0x80 ≤ o ∧ o < 0xC0 then (d.traceMarks, none)
      else (d, none)

/-- A write to the debug space by a requester. -/
def Dev.dbgWrite (d : Dev) (w : Who) (a len v : Nat) : Dev :=
  match d.dbgCause w a len true with
  | some c => (if c < 0x100 then d.logAt pgFerr w.req a len true c else d).answerError c
  | none =>
    match dbgPart a with
    | .knocker j =>
      { d with knocks := d.knocks ++ [⟨d.tick, 32 * (w.req - 1) + j, 0, bytesLE len v⟩], resp := {} }
    | .window k o =>
      let s := o / 8 * 8
      { d.windowWrite k s (putBytes (d.windowRead k s) (o % 8) len v) with resp := {} }
    | .control o =>
      let (d, c) := d.controlWrite o (BitVec.ofNat 32 v)
      let (d, c') := if len = 8 then d.controlWrite (o + 4) (BitVec.ofNat 32 (v / 2 ^ 32)) else (d, none)
      match c <|> c' with
      | some x => (d.logAt pgFerr w.req a len true x).answerError x
      | none => { d with resp := {} }
    | .none => d

/-- A word of the control block as it reads. A read of an RC register that is no peek clears it. -/
def Dev.controlRead (d : Dev) (o : Nat) (peek : Bool) : Dev × Nat :=
  match findWord .dbg o with
  | none => (d, 0)
  | some r =>
    let v := d.reg (pgDbg + o)
    if !peek && r.fields.any (fun f => f.ty = .rc) then (d.setReg (pgDbg + o) 0, v.toNat) else (d, v.toNat)

/-- A read of the debug space by a requester; reads of the debug bus master carry the peek attribute (R34). [DEDUCED (log 124)] -/
def Dev.dbgRead (d : Dev) (w : Who) (a len : Nat) (peek : Bool) : Dev :=
  match d.dbgCause w a len false with
  | some c => (if c < 0x100 then d.logAt pgFerr w.req a len false c else d).answerError c
  | none =>
    match dbgPart a with
    | .window k o => d.answer (bitsOf (d.windowRead k (o / 8 * 8)) (8 * (o % 8)) (8 * len))
    | .control o =>
      let peek := peek || w.req == 0x3F0
      let (d, lo) := d.controlRead o peek
      let (d, hi) := if len = 8 then d.controlRead (o + 4) peek else (d, 0)
      d.answer (lo + hi * 2 ^ 32)
    | _ => d

end Sys2Proof.Machine
end

