-- ==== Sys2Proof/Machine/Ethernet.lean ====
section
/-!
DEFINITION. Sys2Proof/Machine/Ethernet.lean: the Ethernet ports (21_host_and_network_interfaces.md R460-R465). Credits are held
in units of a bit / 6,000,000, so that one kbit/s gains one unit a tick.
-/
namespace Sys2Proof.Machine

/-- A port's state. -/
def Dev.eth (d : Dev) (p : Nat) : Eth := Table.get {} d.eths p

/-- Writes a port's state. -/
def Dev.setEth (d : Dev) (p : Nat) (x : Eth) : Dev := { d with eths := Table.put {} d.eths p x }

/-- A port that runs, with its link up. -/
def Dev.ethUp (d : Dev) (p : Nat) : Bool := d.live (pgEth p) && d.on (pgEth p) F.ETH_STATUS_LINK && !d.clocksStill

/-- The line rate in Mb/s by its code (Table 21-6). -/
def rateOf (code : Nat) : Nat := match code with | 0 => 10 | 1 => 100 | 2 => 1000 | _ => 2500

/-- The port's rate: as configured, or as negotiated (Table 21-6). -/
def Dev.ethRate (d : Dev) (p : Nat) : Nat :=
  let q := pgEth p
  if d.on q F.ETH_CTRL_IFACE then 2500
  else if d.on q F.ETH_CTRL_AN_EN then (if d.on q F.ETH_STATUS_LINK then rateOf (d.f q F.ETH_STATUS_SPEED) else 1000)
  else rateOf (d.f q F.ETH_CTRL_SPEED)

/-- Ticks a number of bytes takes on the line, rounded up. -/
def Dev.ethTicks (d : Dev) (p bytes : Nat) : Nat := (48000 * bytes + d.ethRate p - 1) / d.ethRate p

/-- The offset of queue q's registers. -/
def txq (p q : Nat) : Nat := pgEth p + 0x10 * q

/-- A transmit queue runs and holds a descriptor. -/
def Dev.txqHolds (d : Dev) (p q : Nat) : Bool :=
  let a := txq p q
  d.on a F.ETH_TXQ_CFG_EN && d.ringHolds a F.ETH_TXQ_PTR_HEAD F.ETH_TXQ_PTR_TAIL

/-- The address of the descriptor at HEAD of queue q. -/
def Dev.txDesc (d : Dev) (p q : Nat) : Nat := d.r64 (txq p q) 0x100 + 32 * d.f (txq p q) F.ETH_TXQ_PTR_HEAD

/-- The address of the receive descriptor at HEAD. -/
def Dev.rxDesc (d : Dev) (p : Nat) : Nat := d.r64 (pgEth p) 0x180 + 32 * d.f (pgEth p) F.ETH_RXQ_PTR_HEAD

/-- The shown entry of the stamp FIFO: the oldest, or with none no valid entry. [DESIGN CHOICE (log 110)] -/
def Dev.txtsShow (d : Dev) (p : Nat) : Dev :=
  match (d.eth p).fifo with
  | (s, i) :: _ => (d.setR64 (pgEth p) 0x88 s).setReg (pgEth p + 0x90) (BitVec.ofNat 32 (i + 2 ^ 31))
  | [] =>
    let (i, d) := d.takeFresh
    (d.setR64 (pgEth p) 0x88 (Config.freeValue i).toNat).setReg (pgEth p + 0x90) 0

/-- A byte of a frame. -/
def frameByte (l : List Byte) (i : Nat) : Nat := (l.getD i 0).toNat

/-- A big-endian 16-bit field of a frame. -/
def frame16 (l : List Byte) (i : Nat) : Nat := 256 * frameByte l i + frameByte l (i + 1)

/-- Where a frame's PTP message begins: EtherType 0x88F7, or UDP port 319 over IPv4 or IPv6, VLAN-tagged or not (R461). -/
def ptpAt (l : List Byte) : Option Nat :=
  let o := if frame16 l 12 = 0x8100 then 16 else 12
  match frame16 l o with
  | 0x88F7 => some (o + 2)
  | 0x0800 =>
    let ip := o + 2
    let h := 4 * (frameByte l ip % 16)
    if frameByte l (ip + 9) = 17 ∧ frame16 l (ip + h + 2) = 319 then some (ip + h + 8) else none
  | 0x86DD =>
    let ip := o + 2
    if frameByte l (ip + 6) = 17 ∧ frame16 l (ip + 42) = 319 then some (ip + 48) else none
  | _ => none

/-- ETH_TXTS_INFO's fields of a frame: sequenceId, messageType, domainNumber; zeros for other frames (R461). -/
def ptpInfo (l : List Byte) : Nat :=
  match ptpAt l with
  | none => 0
  | some o => frame16 l (o + 30) + (frameByte l o % 16) * 2 ^ 16 + frameByte l (o + 4) * 2 ^ 20

/-- A stamp enters the FIFO, or is dropped when it is full (R461). -/
def Dev.txtsPush (d : Dev) (p stamp info : Nat) : Dev :=
  let x := d.eth p
  if 16 ≤ x.fifo.length then d.inc (pgEth p) F.ETH_TXTS_DROP_DROPS
  else
    let d := d.setEth p { x with fifo := x.fifo ++ [(stamp, info)] }
    if x.fifo.isEmpty then d.txtsShow p else d

/-- ETH_TXTS_READ (R461): a read of ETH_TXTS_INFO; one that is no peek pops the entry. -/
def Dev.txtsRead (d : Dev) (p : Nat) (peek : Bool) : Dev :=
  let d := { d with resp := { data := (d.reg (pgEth p + 0x90)).toNat } }
  let x := d.eth p
  if peek || x.fifo.isEmpty then d else (d.setEth p { x with fifo := x.fifo.drop 1 }).txtsShow p

/-- The stamp of the count of a message time-stamp point is taken to within two ticks (R460): the error is free. [DESIGN CHOICE (log 110)] -/
def Dev.ethStamp (d : Dev) (at_ : Nat) (lat : Int) : Nat × Dev :=
  let (i, d) := d.takeFresh
  (codeOf 64 ((at_ : Int) + lat + ((Config.freeValue i).toNat % 5 : Nat) - 2), d)

/-- The segments of a cycle, as (start, end, gates): entries in turn, cut at the cycle's end, the last one lasting until it (R465). -/
def GateList.segments (g : GateList) : List (Nat × Nat × Nat) :=
  let n := g.entries.length
  (g.entries.zipIdx.foldl (fun (s : Nat × List (Nat × Nat × Nat)) e =>
    let stop := if e.2 + 1 = n then g.cycle else Nat.min g.cycle (s.1 + e.1.2)
    (stop, s.2 ++ [(s.1, stop, e.1.1)])) (0, [])).2

/-- The position of a count in its cycle. -/
def GateList.pos (g : GateList) (now : Nat) : Nat := codeOf 64 ((now : Int) - g.base) % Nat.max g.cycle 1

/-- The entry that a count falls in (R462). -/
def GateList.entryAt (g : GateList) (now : Nat) : Nat :=
  (g.segments.findIdx? (fun s => s.1 ≤ g.pos now && g.pos now < s.2.1)).getD 0

/-- Counts for which a gate stays open from a position on; none while it never closes. [DEDUCED (log 112)] -/
def GateList.openSpan (g : GateList) (q pos : Nat) : Option Nat :=
  let ahead := g.segments.filter (fun s => pos < s.2.1) |>.map (fun s => (Nat.max s.1 pos - pos, s.2.2))
  let again := g.segments.map (fun s => (s.1 + g.cycle - pos, s.2.2))
  ((ahead ++ again).find? (fun s => nbits s.2 q 1 = 0)).map (·.1)

/-- The first cycle start of a list at or after a count (R462). -/
def GateList.startFrom (g : GateList) (t : Nat) : Option Nat :=
  if g.cycle = 0 then none
  else if t ≤ g.base then some g.base else some (g.base + (t - g.base + g.cycle - 1) / g.cycle * g.cycle)

/-- The list that governs the gates: the operational one while ETH_GCL_CTRL.EN is 1 (R465). [DEDUCED (log 112)] -/
def Dev.gates (d : Dev) (p : Nat) : Option GateList :=
  if d.on (pgEth p) F.ETH_GCL_CTRL_EN then (d.eth p).oper else none

/-- Counts until queue q's gate next closes; `some 0`: it is closed (R465). A pending list counts from its start. -/
def Dev.gateSpan (d : Dev) (p q : Nat) : Option Nat :=
  match d.gates p with
  | none => none
  | some g =>
    let s := g.openSpan q (g.pos d.count)
    match (d.eth p).pend with
    | none => s
    | some (g', t) =>
      match g'.startFrom t with
      | none => s
      | some t0 =>
        let left := t0 - d.count
        if (s.getD (left + 1)) ≤ left then s else (g'.openSpan q 0).map (· + left)

/-- IDLESLOPE of queue q. [DEDUCED (log 112)] -/
def Dev.idleSlope (d : Dev) (p q : Nat) : Nat := d.f (pgEth p) (F.ETH_CBS_IDLESLOPE.at (4 * q))

/-- The shapers' credits follow the time since they were last brought up to date (R465, IEEE 802.1Qav). [DEDUCED (log 112)] -/
def Dev.creditSee (d : Dev) (p : Nat) : Dev :=
  let x := d.eth p
  let dt : Int := (d.tick - x.credAt : Nat)
  let rate : Int := 1000 * (d.ethRate p : Int)
  let frame : Int := 8 * (d.f (pgEth p) F.ETH_MTU_MTU : Int) * 6000000
  let d := d.forN 8 (fun q d =>
    let idle : Int := d.idleSlope p q
    if idle = 0 then { d with eths := Table.put {} d.eths p { d.eth p with credit := Table.put 0 (d.eth p).credit q 0 } }
    else
      let c := Table.get 0 (d.eth p).credit q
      let c' : Int :=
        if (x.tx.map (·.q)) = some q then max (c + (idle - rate) * dt) (frame * (idle - rate) / rate)
        else if d.txqHolds p q then min (c + idle * dt) (frame * idle / rate)
        else if c < 0 then min (c + idle * dt) 0 else 0
      d.setEth p { d.eth p with credit := Table.put 0 (d.eth p).credit q c' })
  d.setEth p { d.eth p with credAt := d.tick }

/-- A frame buffer lies in the memories of Table 21-7. -/
def Dev.ethMem (d : Dev) (a len : Nat) : Bool :=
  let ok : Nat → Bool := fun b => match memAt b with
    | some (.coreSram, _) | some (.wing, _) | some (.scratch, _) => true
    | some (.hbm, k) => !d.domOn k || d.hbmInRegion b
    | _ => false
  ok a && ok (a + len - 1)

/-- A field of a descriptor's words. -/
def descFld (w : List W32) (k lsb n : Nat) : Nat := bitsOf (w.getD k 0) lsb n

/-- The words of a 32-byte descriptor, read once; poisoned ones read as all ones, which no descriptor may hold. -/
def Dev.ethDesc (d : Dev) (a : Nat) : List W32 :=
  if d.poisonedRange a 32 then List.replicate 8 0xFFFFFFFF
  else (List.range 8).map (fun k => BitVec.ofNat 32 (d.load (a + 4 * k) 4))

/-- Reserved fields of a descriptor are zero (Table 21-7). -/
def descZero (w : List W32) : Bool :=
  descFld w 2 20 12 == 0 && descFld w 3 0 32 == 0 && descFld w 6 0 32 == 0 && descFld w 7 0 32 == 0

/-- BUF_ADDR. -/
def descBuf (w : List W32) : Nat := descFld w 0 0 32 + descFld w 1 0 32 * 2 ^ 32

/-- A transmit descriptor keeps Table 21-7. -/
def Dev.txDescOk (d : Dev) (p : Nat) (w : List W32) : Bool :=
  let len := descFld w 2 0 14
  descZero w && 14 ≤ len && len + 4 ≤ d.f (pgEth p) F.ETH_MTU_MTU && d.ethMem (descBuf w) len

/-- A transmit descriptor ends (R464): STATUS, STAMP, HEAD, its interrupt; after an error its ring stops. [DEDUCED (log 111)] -/
def Dev.txEnd (d : Dev) (p q : Nat) (w : List W32) (status : Nat) (stamp : Option Nat) : Dev :=
  let a := d.txDesc p q
  let d := d.putClean (a + 8) (bytesLE 4 (putBits (w.getD 2 0) 16 4 status).toNat)
  let d := match stamp with | some s => d.putClean (a + 16) (bytesLE 8 s) | none => d
  let r := txq p q
  let d := d.setF r F.ETH_TXQ_PTR_HEAD ((d.f r F.ETH_TXQ_PTR_HEAD + 1) % 2 ^ d.f r F.ETH_TXQ_CFG_LOG2)
  let d := if status = 2 ∨ status = 4 then d.setB r F.ETH_TXQ_CFG_EN false else d
  if descFld w 2 15 1 = 1 then d.irq (pgEth p) q else d

/-- Bytes of a frame on the line with its gap: preamble and SFD, frame padded to 60 bytes, FCS, 12 bytes of gap (R463, R465). -/
def lineBytes (len : Nat) : Nat := 8 + Nat.max len 60 + 4 + 12

/-- A queue may be selected at this boundary (R465), by its gate, its descriptor and its shaper. -/
def Dev.txqEligible (d : Dev) (p q : Nat) : Bool :=
  d.txqHolds p q && d.gateSpan p q != some 0 &&
    (d.idleSlope p q == 0 || decide (0 ≤ Table.get 0 (d.eth p).credit q))

/-- The frame and its gap end before the queue's gate closes (R465). -/
def Dev.txqFits (d : Dev) (p q : Nat) : Bool :=
  match d.gateSpan p q with
  | none => true
  | some s => d.ethTicks p (lineBytes (descFld (d.ethDesc (d.txDesc p q)) 2 0 14)) ≤ s

/-- The frame that starts now: the end of its SFD leaves after eight bytes, and it ends with its FCS (R460, R463). [DESIGN CHOICE (log 110)] -/
def Dev.ethSent (d : Dev) (p q : Nat) (w : List W32) (l : List Byte) (bad : Bool) : EthTx :=
  { q := q, words := w, frame := l, poison := bad, bus := false, sfd := d.tick + d.ethTicks p 8
    ends := d.tick + d.ethTicks p (12 + Nat.max l.length 60) }

/-- The end of the SFD of the frame in transmission leaves in this tick, and is stamped (R460). -/
def Dev.ethSfd (d : Dev) (p : Nat) : Dev :=
  match (d.eth p).tx with
  | none => d
  | some t =>
    if t.sfd = d.tick ∧ t.bus = false then
      let (stamp, d) := d.ethStamp d.count (d.f (pgEth p) F.ETH_TX_LAT_TX_LAT : Int)
      d.setEth p { d.eth p with tx := some { t with stamp := stamp } }
    else d

/-- ETH_FRAME_TRANSMIT (R464, R465): the selected queue's frame starts. -/
def Dev.ethTransmit (d : Dev) (p : Nat) : Dev :=
  if !d.ethUp p || !d.on (pgEth p) F.ETH_CTRL_TX_EN || (d.eth p).tx.isSome then d
  else
    let d := d.creditSee p
    let order := (List.range 8).reverse
    match order.find? (fun q => d.txqEligible p q && (!d.txDescOk p (d.ethDesc (d.txDesc p q)) || d.txqFits p q)) with
    | none => d
    | some q =>
      let w := d.ethDesc (d.txDesc p q)
      if !d.txDescOk p w then d.txEnd p q w 4 none
      else
        let a := descBuf w
        let len := descFld w 2 0 14
        match d.rangeCause a len false with
        | some (c, b) =>
          let d := d.memViolation (0x310 + p) b 64 false c
          d.setEth p { d.eth p with tx := some { q := q, words := w, frame := [], poison := false, bus := true, sfd := d.tick, ends := d.tick } }
        | none =>
          let (d, l, bad) := d.getRange a len
          d.setEth p { d.eth p with tx := some (d.ethSent p q w l bad) }

/-- ETH_TX_DONE (R464, R460, R461): the frame ends; one with poison went out with an inverted FCS. [DEDUCED (log 3, 111)] -/
def Dev.ethTxDone (d : Dev) (p : Nat) : Dev :=
  match (d.eth p).tx with
  | none => d
  | some t =>
    if d.clocksStill || decide (d.tick < t.ends) then d
    else
      let d := d.creditSee p
      let d := d.setEth p { d.eth p with tx := none }
      if t.bus then d.txEnd p t.q t.words 2 none
      else
        let ts := descFld t.words 2 14 1 == 1
        let d := d.inc (pgEth p) F.ETH_TX_CNT_FRAMES
        let d := d.txEnd p t.q t.words (if t.poison then 3 else 0) (if ts then some t.stamp else none)
        if ts then d.txtsPush p t.stamp (ptpInfo t.frame) else d

/-- A frame is for this port (R463): its address, broadcast, multicast, or PROMISC. -/
def Dev.ethMine (d : Dev) (p : Nat) (l : List Byte) : Bool :=
  let q := pgEth p
  let mac := bytesLE 6 ((d.reg (q + 0x48)).toNat + bitsOf (d.reg (q + 0x4C)) 0 16 * 2 ^ 32)
  d.on q F.ETH_CTRL_PROMISC || frameByte l 0 % 2 == 1 || l.take 6 == mac

/-- A delivered frame goes into the receive descriptor at HEAD (R464). -/
def Dev.ethDeliver (d : Dev) (p : Nat) (l : List Byte) (stamp : Nat) : Dev :=
  let q := pgEth p
  let a := d.rxDesc p
  let w := d.ethDesc a
  let size := 64 * d.f q F.ETH_RXQ_CFG_BUF_LINES
  let cut := l.take size
  let cause := d.rangeCause (descBuf w) cut.length true
  let status := if !descZero w || !d.ethMem (descBuf w) (Nat.max cut.length 1) then 4
    else if cause.isSome then 2 else if size < l.length then 1 else 0
  let d := match status with
    | 4 => d
    | 2 => match cause with
      | some (c, b) => d.memViolation (0x310 + p) b 64 true c
      | none => d
    | _ => (d.putRange (descBuf w) cut false).inc q F.ETH_RX_CNT_FRAMES
  let word := putBits (putBits (w.getD 2 0) 0 14 l.length) 16 4 status
  let d := d.putClean (a + 8) (bytesLE 4 word.toNat)
  let d := d.putClean (a + 16) (bytesLE 8 stamp)
  let d := d.setF q F.ETH_RXQ_PTR_HEAD ((d.f q F.ETH_RXQ_PTR_HEAD + 1) % 2 ^ d.f q F.ETH_RXQ_CFG_LOG2)
  let d := if status = 2 ∨ status = 4 then d.setB q F.ETH_RXQ_CFG_EN false else d
  if descFld w 2 15 1 = 1 then d.irq q 8 else d

/-- ETH_FRAME_RECEIVE (R460, R463, R464): a frame, without its FCS, whose FCS and alignment are good or not; `sfd` is the count of the tick in
which the end of its SFD reached the MAC. -/
def Dev.ethReceive (d : Dev) (p : Nat) (l : List Byte) (good : Bool) (sfd : Nat) : Dev :=
  let q := pgEth p
  if !d.ethUp p || !d.on q F.ETH_CTRL_RX_EN then d
  else if !good || d.f q F.ETH_MTU_MTU < l.length + 4 then d.inc q F.ETH_RX_ERR_ERRORS
  else if !d.ethMine p l then d
  else if !d.on q F.ETH_RXQ_CFG_EN || !d.ringHolds q F.ETH_RXQ_PTR_HEAD F.ETH_RXQ_PTR_TAIL then
    d.inc q F.ETH_RX_DROP_DROPS
  else
    let (stamp, d) := d.ethStamp sfd (-(d.f q F.ETH_RX_LAT_RX_LAT : Int))
    d.ethDeliver p l stamp

/-- ETH_LINK_CHANGE (R464): the link comes up at a speed code, or goes down. -/
def Dev.ethLink (d : Dev) (p : Nat) (up : Option Nat) : Dev :=
  let q := pgEth p
  if !d.domOn domHostio then d
  else
    let was := d.on q F.ETH_STATUS_LINK
    let d := d.setB q F.ETH_STATUS_LINK up.isSome
    let d := match up with | some s => d.setF q F.ETH_STATUS_SPEED s | none => d
    if was != up.isSome then d.irq q 9 else d

/-- A write of ETH_MDIO_GO (R463); ignored while BUSY. -/
def Dev.mdioGo (d : Dev) : Dev :=
  let q := pgEth 0
  if d.on q F.ETH_MDIO_STAT_BUSY || !d.live q then d
  else
    (d.setEth 0 { d.eth 0 with mdio := some (d.reg (q + 0x60)).toNat }).setB q F.ETH_MDIO_STAT_BUSY true

/-- MDIO_FRAME_END (R463): a read frame brings its data. -/
def Dev.mdioEnd (d : Dev) (data : Nat) : Dev :=
  let q := pgEth 0
  match (d.eth 0).mdio with
  | none => d
  | some c =>
    let d := (d.setEth 0 { d.eth 0 with mdio := none }).setB q F.ETH_MDIO_STAT_BUSY false
    let d := if nbits c 10 1 = 1 then d.setF q F.ETH_MDIO_STAT_DATA data else d
    d.irq q 10

/-- The administrative list as it stands. -/
def Dev.admList (d : Dev) (p : Nat) : GateList :=
  let q := pgEth p
  { base := d.r64 q 0x200
    cycle := d.f q F.ETH_GCL_CYCLE_CYCLE
    entries := (List.range (d.f q F.ETH_GCL_LEN_LEN)).map (fun i =>
      (bitsOf (d.reg (q + 0x800 + 8 * i)) 0 8, (d.reg (q + 0x804 + 8 * i)).toNat)) }

/-- A write of ETH_GCL_CTRL.GO (R465): the list becomes, or replaces, the pending one. [DEDUCED (log 112)] -/
def Dev.gclGo (d : Dev) (p : Nat) : Dev :=
  (d.setEth p { d.eth p with pend := some (d.admList p, d.r64 (pgEth p) 0x210) }).setB (pgEth p) F.ETH_GCL_STAT_PENDING true

/-- GCL_CHANGE (R462, R465): at the first cycle start at or after the change count the pending list becomes operational. -/
def Dev.gclChange (d : Dev) (p : Nat) : Dev :=
  let q := pgEth p
  match (d.eth p).pend with
  | none => d
  | some (g, t) =>
    if !d.live q then d
    else match g.startFrom t with
    | none => d
    | some t0 =>
      if d.count < t0 then d
      else
        let d := d.setEth p { d.eth p with pend := none, oper := some g }
        let d := d.forN 128 (fun i d =>
          let e := g.entries.getD i (0, 0)
          (d.setReg (q + 0xC00 + 8 * i) (BitVec.ofNat 32 e.1)).setReg (q + 0xC04 + 8 * i) (BitVec.ofNat 32 e.2))
        let d := (d.setB q F.ETH_GCL_STAT_PENDING false).setB q F.ETH_GCL_STAT_OPER_VALID true
        d.setF q F.ETH_GCL_STAT_ENTRY (g.entryAt d.count)

/-- GATE_ENTRY_ADVANCE (R462): the current entry is the one the count falls in. -/
def Dev.gateAdvance (d : Dev) (p : Nat) : Dev :=
  match (d.eth p).oper with
  | none => d
  | some g => if d.live (pgEth p) then d.setF (pgEth p) F.ETH_GCL_STAT_ENTRY (g.entryAt d.count) else d

/-- At the end of a tick, a list whose change is due and the current entry of each port that no command has brought up to date. [DESIGN CHOICE (log 145)] -/
def Dev.ethsEnd (d : Dev) : Dev := d.eths.foldl (fun d e => (d.gclChange e.1).gateAdvance e.1) d

/-- A port whose EN was cleared is idle: no frame is in transmission (R463). -/
def Dev.ethIdle (d : Dev) (p : Nat) : Bool := (d.eth p).tx.isNone

/-- A ring lies in Core SRAM or wing memory and is aligned (R464). -/
def ringOk (b n : Nat) : Bool :=
  b % 64 == 0 && ((0x10000000 ≤ b && b + n ≤ 0x12000000) || (0x20000000 ≤ b && b + n ≤ 0x21000000))

/-- The enable check of an Ethernet port (R463, Table 21-9). -/
def Dev.ethCheck (d : Dev) (p : Nat) : List (Nat × Nat) :=
  let q := pgEth p
  let on := (List.range 8).filter (fun k => d.idleSlope p k != 0)
  (if d.on pgClk F.PLL_STAT_ETH_LOCK then [] else [(8, 0xB)]) ++
  (if d.f q F.ETH_CTRL_IFACE = 0 ∧ d.f q F.ETH_CTRL_SPEED = 3 then [(0x40, 1)] else []) ++
  (if d.f q F.ETH_CTRL_IFACE = 1 ∧ d.f q F.ETH_CTRL_AN_EN = 1 then [(0x40, 0x101)] else []) ++
  (if d.f q F.ETH_MTU_MTU < 64 ∨ 9018 < d.f q F.ETH_MTU_MTU then [(0x44, 2)] else []) ++
  (match on with
    | k :: _ => if 1000 * d.ethRate p < (on.map (d.idleSlope p)).sum then [(0x1C0 + 4 * k, 0x102)] else []
    | [] => []) ++
  (List.range 9).flatMap (fun k =>
    let o := if k = 8 then 0x180 else 0x100 + 0x10 * k
    let c := d.reg (q + o + 8)
    let l := bitsOf c 0 4
    (if l < 2 ∨ 12 < l then [(o + 8, 2)] else []) ++
    (if bitAt c 4 && !ringOk (d.r64 q o) (32 * 2 ^ l) then [(o, 0x103)] else [])) ++
  (if d.f q F.ETH_RXQ_CFG_BUF_LINES = 0 then [(0x188, 2)] else [])

end Sys2Proof.Machine
end

