-- ==== Sys2Proof/Machine/Float.lean ====
section
/-!
DEFINITION. Sys2Proof/Machine/Float.lean: exact binary floating-point arithmetic on integers, with FP32 as the lanes
compute it (05_loop_engine_architecture.md R111) and the common part of binary64 (15 R336).
-/
namespace Sys2Proof.Machine

/-- An exact finite number: (-1)^neg × m × 2^e, and whether a positive remainder below the last place was cut off. -/
structure Exact where
  neg : Bool
  m : Nat
  e : Int
  sticky : Bool := false
  deriving DecidableEq, Repr

/-- A floating-point operand. -/
inductive FNum where
  | nan
  | inf (neg : Bool)
  | fin (x : Exact)
  deriving DecidableEq, Repr

/-- Unpacks a number with `eb` exponent and `mb` fraction bits, by IEEE 754. -/
def unpackF (eb mb v : Nat) : FNum :=
  let neg := (v / 2 ^ (eb + mb)) % 2 == 1
  let ex := (v / 2 ^ mb) % 2 ^ eb
  let fr := v % 2 ^ mb
  let bias : Int := 2 ^ (eb - 1) - 1
  if ex = 2 ^ eb - 1 then (if fr = 0 then .inf neg else .nan)
  else if ex = 0 then .fin ⟨neg, fr, 1 - bias - mb, false⟩
  else .fin ⟨neg, fr + 2 ^ mb, (ex : Int) - bias - mb, false⟩

/-- Rounds to `p` significant bits, and no place below 2^emin, to nearest with ties to even. -/
def roundSig (p : Nat) (emin : Int) (x : Exact) : Nat × Int :=
  let len := if x.m = 0 then 0 else x.m.log2 + 1
  let sh := max (len - p) (emin - x.e).toNat
  if sh = 0 then (x.m, x.e)
  else
    let q := x.m / 2 ^ sh
    let r := x.m % 2 ^ sh
    let h := 2 ^ (sh - 1)
    let up := decide (h < r) || (r == h && (x.sticky || q % 2 == 1))
    (if up then q + 1 else q, x.e + sh)

/-- The exponent of the leading bit of m × 2^e. -/
def leadExp (m : Nat) (e : Int) : Int := (m.log2 : Int) + e

/-- A signed integer aligned to exponent `lo`. -/
def Exact.at (x : Exact) (lo : Int) : Int :=
  let v : Int := (x.m * 2 ^ (x.e - lo).toNat : Nat)
  if x.neg then -v else v

/-- The exact sum. A zero sum is negative only when both addends are. -/
def Exact.add (x y : Exact) : Exact :=
  let lo := min x.e y.e
  let s := x.at lo + y.at lo
  if s = 0 then ⟨x.neg && y.neg, 0, 0, false⟩ else ⟨decide (s < 0), s.natAbs, lo, false⟩

/-- The exact product. -/
def Exact.mul (x y : Exact) : Exact := ⟨x.neg != y.neg, x.m * y.m, x.e + y.e, false⟩

/-- The opposite. -/
def Exact.negate (x : Exact) : Exact := { x with neg := !x.neg }

/-- The quotient by a number that is not zero, to more than 60 significant bits. -/
def Exact.div (x y : Exact) : Exact :=
  let n := x.m * 2 ^ 130
  ⟨x.neg != y.neg, n / y.m, x.e - y.e - 130, n % y.m != 0⟩

/-- The greatest r below 2^`bits` with `ok r`, for an `ok` that holds up to a bound and not beyond it. -/
def bitSearch (ok : Nat → Bool) (bits : Nat) : Nat :=
  (List.range bits).foldr (fun i r => if ok (r + 2 ^ i) then r + 2 ^ i else r) 0

/-- The square root of a number that is not negative. -/
def Exact.sqrt (x : Exact) : Exact :=
  let odd := x.e % 2 = 1
  let m := (if odd then 2 * x.m else x.m) * 2 ^ 128
  let e := if odd then x.e - 1 else x.e
  let r := bitSearch (fun r => r * r ≤ m) 128
  ⟨x.neg, r, e / 2 - 64, r * r != m⟩

/-- The reciprocal square root of a positive number. -/
def Exact.rsqrt (x : Exact) : Exact :=
  let odd := x.e % 2 = 1
  let m := if odd then 2 * x.m else x.m
  let e := if odd then x.e - 1 else x.e
  let r := bitSearch (fun r => r * r * m ≤ 2 ^ 200) 101
  ⟨false, r, -(e / 2) - 100, r * r * m != 2 ^ 200⟩

/-- Whether x < y. -/
def Exact.lt (x y : Exact) : Bool :=
  let lo := min x.e y.e
  decide (x.at lo < y.at lo)

/-- x × 2^k as an integer, rounded to nearest with ties to even. -/
def Exact.toInt (x : Exact) (k : Nat) : Int :=
  let e := x.e + k
  let v : Int := if x.neg then -(x.m : Int) else x.m
  if 0 ≤ e then v * 2 ^ e.toNat else rne v (-e).toNat

/-- An FP32 operand as every lane unit reads it (R111): the number, and whether it was a NaN. [DEDUCED (log 43)] -/
def f32read (v : Nat) : Exact × Bool :=
  match unpackF 8 23 (v % 2 ^ 32) with
  | .nan => (⟨false, 0, 0, false⟩, true)
  | .inf neg => (⟨neg, 2 ^ 24 - 1, 104, false⟩, false)
  | .fin x => (if x.m < 2 ^ 23 then ⟨x.neg, 0, 0, false⟩ else x, false)

/-- An FP32 result (R111): rounded to nearest even; below the smallest normal number zero of its sign; overflow gives
the largest finite value of its sign. -/
def f32pack (x : Exact) : Nat :=
  let s := b2n x.neg * 2 ^ 31
  if x.m = 0 then s
  else
    let r := roundSig 24 (-100000) x
    let ex := leadExp r.1 r.2
    if ex < -126 then s
    else if 127 < ex then s + 0x7F7FFFFF
    else s + (ex + 127).toNat * 2 ^ 23 + (r.1 * 2 ^ (23 - r.1.log2) / 2 ^ (r.1.log2 - 23)) % 2 ^ 23

/-- a × b + c, or c - a × b, fused (FMA.F, FMS.F): the result and FPNAN. A NaN input gives +0.0 (R111). [DEDUCED (log 43)] -/
def f32fma (sub : Bool) (a b c : Nat) : Nat × Bool :=
  let x := f32read a
  let y := f32read b
  let z := f32read c
  let p := x.1.mul y.1
  let nan := x.2 || y.2 || z.2
  (if nan then 0 else f32pack ((if sub then p.negate else p).add z.1), nan)

/-- Q1.31 to FP32 (CVT.QF). -/
def f32ofQ (q : Int) : Nat := f32pack ⟨decide (q < 0), q.natAbs, -31, false⟩

/-- FP32 to Q1.31 (CVT.FQ): the value, whether it was clamped, FPNAN. -/
def f32toQ (v : Nat) : Int × Bool × Bool :=
  let x := f32read v
  let i := x.1.toInt 31
  (satI 32 i, i != satI 32 i, x.2)

/-- RCP.F, SQRT.F and RSQRT.F, numbered 1 to 3 (R111, Table 6-2): the result and FPNAN. A NaN input gives +0.0. -/
def f32recip (op v : Nat) : Nat × Bool :=
  let x := f32read v
  let s := b2n x.1.neg * 2 ^ 31
  let big := s + 0x7F7FFFFF
  if x.2 then (0, true)
  else match op with
    | 1 => (if x.1.m = 0 then big else f32pack (Exact.div ⟨false, 1, 0, false⟩ x.1), false)
    | 2 => if x.1.m = 0 then (s, false) else if x.1.neg then (0, true) else (f32pack x.1.sqrt, false)
    | _ => if x.1.m = 0 then (big, false) else if x.1.neg then (0, true) else (f32pack x.1.rsqrt, false)

/-- CLAMP.F (R111): the result, SAT_LIM, SAT_DIR, FPNAN. [DEDUCED (log 43)] -/
def f32clamp (x lo hi : Nat) : Nat × Bool × Bool × Bool :=
  let a := f32read x
  let l := f32read lo
  let h := f32read hi
  let below := a.1.lt l.1
  let above := h.1.lt a.1
  let r := if h.1.lt l.1 || below then l.1 else if above then h.1 else a.1
  (f32pack r, below || above, above, a.2 || l.2 || h.2)

end Sys2Proof.Machine
end

