-- ==== Sys2Proof/Machine/Trig.lean ====
section
/-!
DEFINITION. Sys2Proof/Machine/Trig.lean: the TRIG unit (05_loop_engine_architecture.md R110, 06 Table 6-5), and sines for
the test-signal generator (09 R212). Results lie within 2^-29 of the exact value and are otherwise free.
-/
namespace Sys2Proof.Machine

/-- π/2 in units of 2^-60. -/
def halfPi : Int := 1811004864519280711

/-- 1/√3 in units of 2^-60. -/
def invSqrt3 : Int := 665639541039271463

/-- Sine and cosine of an angle in [0, π/2), both in units of 2^-60, by their power series. -/
def sinCosSeries (t : Int) : Int × Int :=
  let t2 := t * t / 2 ^ 60
  let step := fun (a : Int × Int) (k : Nat) =>
    let n := a.1 * t2 / 2 ^ 60
    let n := -n / (((k + 1) * (k + 2) : Nat) : Int)
    (n, a.2 + n)
  let c := ([0, 2, 4, 6, 8, 10, 12, 14, 16, 18, 20].foldl step (2 ^ 60, 2 ^ 60)).2
  let s := ([1, 3, 5, 7, 9, 11, 13, 15, 17, 19, 21].foldl step (t, t)).2
  (s, c)

/-- Sine and cosine of u / 2^32 of a full cycle, in units of 2^-60. -/
def sinCosTurn (u : Nat) : Int × Int :=
  let q : Nat := u % 2 ^ 32 / 2 ^ 30
  let r : Nat := u % 2 ^ 30
  let sc := sinCosSeries ((r : Int) * halfPi / 2 ^ 30)
  match q with
  | 0 => (sc.1, sc.2)
  | 1 => (sc.2, -sc.1)
  | 2 => (-sc.1, -sc.2)
  | _ => (-sc.2, sc.1)

/-- atan(2^-i) / π in units of 2^-60. -/
def atanTable : List Int :=
  [288230376151711744, 170152326516859149, 89903816322610130, 45636580940690243, 22906848936661854, 11464591286504527] ++
  [5733694560339141, 2867022240843862, 1433532993509479, 716769230984551, 358384957273935, 179192521359767] ++
  [89596266020236, 44798133677662, 22399066922274, 11199533471567, 5599766737088, 2799883368707] ++
  [1399941684374, 699970842189, 349985421095, 174992710548, 87496355274, 43748177637] ++
  [21874088818, 10937044409, 5468522205, 2734261102, 1367130551, 683565276] ++
  [341782638, 170891319, 85445659, 42722830, 21361415, 10680707] ++
  [5340354, 2670177, 1335088, 667544, 333772, 166886] ++
  [83443, 41722, 20861, 10430, 5215, 2608]

/-- Rotates (x, y), x ≥ 0, onto the x axis and sums the angle, in units of 2^-60 of π. -/
def cordic (x y : Int) : Int :=
  (atanTable.foldl (fun (a : Nat × Int × Int × Int) k =>
    let i := a.1
    let x := a.2.1
    let y := a.2.2.1
    if 0 ≤ y then (i + 1, x + y / 2 ^ i, y - x / 2 ^ i, a.2.2.2 + k)
    else (i + 1, x - y / 2 ^ i, y + x / 2 ^ i, a.2.2.2 - k)) (0, x * 2 ^ 40, y * 2 ^ 40, 0)).2.2.2

/-- The angle of (x, y) in units of 2^-60 of π. -/
def atan2Pi (y x : Int) : Int :=
  if 0 ≤ x then cordic x y
  else if 0 ≤ y then 2 ^ 60 - cordic (-x) y
  else -(2 ^ 60) - cordic (-x) y

/-- A TRIG result in units of 2^-31 near a value in units of 2^-60: within 2^-29 of it, and otherwise free. [DESIGN CHOICE (log 41)] -/
def trigNear (op a b j : Nat) (x : Int) : Int := rne x 29 + clampI (-3) 3 (Config.trigError op a b j)

/-- Whether a value in units of 2^-60 lies outside the Q1.31 range. -/
def outsideQ (x : Int) : Bool := decide (x < -(2 ^ 60)) || decide (2 ^ 60 - 2 ^ 29 < x)

/-- A result delivered in Q1.31: +1.0 is delivered as 1 - 2^-31, and a value outside the range is clamped (R110). -/
def trigQ (op a b j : Nat) (x : Int) : Nat :=
  if outsideQ x then (if x < 0 then 2 ^ 31 else 2 ^ 31 - 1) else codeOf 32 (satI 32 (trigNear op a b j x))

/-- TRIG operation `op` (Table 6-5) on V_A, V_(A + 1) and V_B: the results for V_D and V_(D + 1), and SAT_ARITH. An odd
pair member that the operation does not take is ignored. [DESIGN CHOICE (log 41, 42)] -/
def trigOp (op va va1 vb : Nat) : Nat × Nat × Bool :=
  let sc := sinCosTurn va
  let pk := sinCosTurn vb
  let a := signedOf 32 va
  let a1 := signedOf 32 va1
  let b := signedOf 32 vb
  match op with
  | 1 => (trigQ 1 va 0 0 sc.1, 0, false)
  | 2 => (trigQ 2 va 0 0 sc.2, 0, false)
  | 3 => (trigQ 3 va 0 0 sc.1, trigQ 3 va 0 1 sc.2, false)
  | 4 => (if a = 0 ∧ b = 0 then Config.atanOrigin.toNat else if a = 0 ∧ b < 0 then 2 ^ 31
      else codeOf 32 (trigNear 4 va vb 0 (atan2Pi a b)), 0, false)
  | 5 =>
    let β := (a + 2 * b) * invSqrt3 / 2 ^ 31
    (va % 2 ^ 32, trigQ 5 va vb 1 β, outsideQ β)
  | 6 =>
    let x := (a * pk.2 + a1 * pk.1) / 2 ^ 31
    let y := (a1 * pk.2 - a * pk.1) / 2 ^ 31
    (trigQ 6 (va * 2 ^ 32 + va1) vb 0 x, trigQ 6 (va * 2 ^ 32 + va1) vb 1 y, outsideQ x || outsideQ y)
  | _ =>
    let x := (a * pk.2 - a1 * pk.1) / 2 ^ 31
    let y := (a1 * pk.2 + a * pk.1) / 2 ^ 31
    (trigQ 7 (va * 2 ^ 32 + va1) vb 0 x, trigQ 7 (va * 2 ^ 32 + va1) vb 1 y, outsideQ x || outsideQ y)

end Sys2Proof.Machine
end

