-- ==== Sys2Proof/Machine/Microword.lean ====
section
/-!
DEFINITION. Sys2Proof/Machine/Microword.lean: the fields of a microword and what each lane unit computes
(06_microword_and_control_store.md, 05 R109-R111).
-/
namespace Sys2Proof.Machine

/-- Bits [hi : lo] of a microword (06 Table 6-1). -/
def mw (w hi lo : Nat) : Nat := (w / 2 ^ lo) % 2 ^ (hi - lo + 1)

/-- Window of sash n (05 R120). -/
def sashBase (n : Nat) : Nat := 0x40000000 + n * 0x100000

/-- Lane memory of lane i of sash n, byte a (05 Table 5-3). -/
def laneMem (n i a : Nat) : Nat := sashBase n + 0xC0000 + i * 0x4000 + a % 0x4000

/-- Sash memory of sash n, byte a. -/
def sashMem (n a : Nat) : Nat := sashBase n + 0x80000 + a % 0x10000

/-- Memory selected by MEM_SP. -/
def mwMem (n i sp a : Nat) : Nat := if sp = 0 then laneMem n i a else sashMem n a

/-- V_r of a lane. -/
def Lane.vr (l : Lane) (r : Nat) : Nat := (Table.get 0 l.v r).toNat

/-- V_r as a signed number. -/
def Lane.vs (l : Lane) (r : Nat) : Int := signedOf 32 (l.vr r)

/-- ACC_k as a signed number. -/
def Lane.accs (l : Lane) (k : Nat) : Int := signedOf 64 (Table.get 0 l.acc k).toNat

/-- P_k. -/
def Lane.pr (l : Lane) (k : Nat) : Nat := (Table.get 0 l.p k).toNat

/-- The residue modulo 7 of a w-bit two's-complement integer (05 R132). [DESIGN CHOICE (log 40)] -/
def residue (w v : Nat) : BitVec 3 := BitVec.ofInt 3 (signedOf w v % 7)

/-- The residue of the value that register k of a lane holds (05 R112). -/
def Lane.valRes (l : Lane) (k : Nat) : BitVec 3 :=
  if k < 32 then residue 32 (l.vr k)
  else if k < 48 then residue 64 (Table.get 0 l.acc (k - 32)).toNat
  else if k < 52 then residue 16 (l.pr (k - 48))
  else if k < 60 then residue 64 (Table.get 0 l.t (k - 52)).toNat
  else BitVec.ofNat 3 (b2n (match k with
    | 60 => l.pred | 61 => l.satLim | 62 => l.satDir | 63 => l.satArith | _ => l.fpnan))

/-- Whether the residue that register k holds is that of its value. -/
def Lane.sound (l : Lane) (k : Nat) : Bool := Table.get 0 l.res k == l.valRes k

/-- Registers are given the residues of their values, as they are when written (05 R132). -/
def Lane.renew (l : Lane) (ks : List Nat) : Lane :=
  { l with res := ks.foldl (fun t k => Table.put 0 t k (l.valRes k)) l.res }

/-- The width of a result. -/
def Dest.width : Dest → Nat
  | .acc _ => 64
  | .p _ => 16
  | .pred => 1
  | _ => 32

/-- The registers a result reaches, by number. -/
def Dest.keys : Dest → List Nat
  | .none => []
  | .v r => [r]
  | .pair r => [r, r + 1]
  | .lim r _ _ => [r, 61, 62]
  | .acc k => [32 + k]
  | .p k => [48 + k]
  | .pred => [60]

/-- A checked result takes the residue that the independent path forms from those of its operands: that of the result, unless an operand's
residue is not that of its value (05 R132). [DESIGN CHOICE (log 40)] -/
def InFlight.seal (o : InFlight) (l : Lane) (srcs : List Nat) : InFlight :=
  let r := residue o.dest.width o.val
  { o with res := if srcs.all l.sound then r else ~~~r }

/-- Whether a result's residue is that of the value arriving at its register (05 R132). -/
def InFlight.agrees (o : InFlight) : Bool := o.res == residue o.dest.width o.val

/-- A 32-bit result: its code, and whether saturation clamped it. -/
def satQ (x : Int) : Nat × Bool := (codeOf 32 (satI 32 x), x != satI 32 x)

/-- What a unit computes: value, second value, SAT_ARITH, FPNAN. -/
structure UnitOut where
  val : Nat
  val2 : Nat := 0
  sat : Bool := false
  nan : Bool := false
  deriving DecidableEq, Repr

/-- The outcome of a saturating operation. -/
def outQ (x : Int) : UnitOut := ⟨(satQ x).1, 0, (satQ x).2, false⟩

/-- MAC0 and MAC1 (Table 6-2); products are rounded at bit 31 (05 R110). -/
def macOp (op a b c : Nat) : UnitOut :=
  let x := signedOf 32 a
  let y := signedOf 32 b
  let z := signedOf 32 c
  match op with
  | 1 => outQ (rne (x * y) 31 + z)
  | 2 => outQ (z - rne (x * y) 31)
  | 3 => outQ (rne (x * y) 31 + z)
  | 4 => let r := f32fma false a b c; ⟨r.1, 0, false, r.2⟩
  | 5 => let r := f32fma true a b c; ⟨r.1, 0, false, r.2⟩
  | 6 => ⟨f32ofQ x, 0, false, false⟩
  | _ => let r := f32toQ a; ⟨codeOf 32 r.1, 0, r.2.1, r.2.2⟩

/-- ADD without its compares (Table 6-3). -/
def addOp (op a b : Nat) (pred : Bool) : UnitOut :=
  let x := signedOf 32 a
  let y := signedOf 32 b
  match op with
  | 1 => outQ (x + y)
  | 2 => outQ (x - y)
  | 3 => outQ (x + y)
  | 4 => outQ (x - y)
  | 5 => ⟨codeOf 32 (x + y), 0, false, false⟩
  | 6 => ⟨codeOf 32 (x - y), 0, false, false⟩
  | 7 => ⟨a % 2 ^ 32, 0, false, false⟩
  | 8 => outQ (-x)
  | 9 => outQ (if x < 0 then -x else x)
  | 10 => outQ (x * 2 ^ (b % 32))
  | 11 => ⟨codeOf 32 (x / 2 ^ (b % 32)), 0, false, false⟩
  | _ => ⟨(if pred then a else b) % 2 ^ 32, 0, false, false⟩

/-- ADD compares: CMPLT, CMPGE, CMPEQ (R141). -/
def cmpOp (op a b : Nat) : Bool :=
  match op with
  | 12 => decide (signedOf 32 a < signedOf 32 b)
  | 13 => decide (signedOf 32 b ≤ signedOf 32 a)
  | _ => a % 2 ^ 32 == b % 2 ^ 32

/-- CLAMP (Table 6-4): the result, SAT_LIM, SAT_DIR, FPNAN. -/
def clampOp (op x lo hi : Nat) : Nat × Bool × Bool × Bool :=
  if op = 2 then f32clamp x lo hi
  else
    let a := signedOf 32 x
    let l := signedOf 32 lo
    let h := signedOf 32 hi
    (codeOf 32 (max l (min a h)), decide (a < l) || decide (h < a), decide (h < a), false)

/-- Whether ACCUM is permitted (Table 6-4, R142). -/
def integPermits (ic : Nat) (l : Lane) (term : Int) : Bool :=
  match ic with
  | 0 => !(l.satLim && (if l.satDir then decide (0 ≤ term) else decide (term < 0)))
  | 1 => true
  | 2 => false
  | _ => l.pred

/-- A TBL descriptor (R144). -/
structure TblDesc where
  data : Nat
  space : Nat
  nx : Nat
  ny : Nat
  deriving DecidableEq, Repr

/-- Reads a descriptor word. -/
def tblDesc (v : Nat) : TblDesc := ⟨nbits v 0 16 / 4 * 4, nbits v 16 1, nbits v 17 4, nbits v 21 4⟩

/-- Number of nodes of a table. -/
def TblDesc.nodes (t : TblDesc) (two : Bool) : Nat :=
  if two then (2 ^ t.ny + 1) * (2 ^ t.nx + 1) else 2 ^ t.nx + 1

/-- The descriptor is valid (R144). -/
def TblDesc.ok (t : TblDesc) (two : Bool) : Bool :=
  decide (1 ≤ t.nx) && decide (t.nx ≤ 12) && (!two || (decide (1 ≤ t.ny) && decide (t.ny ≤ 6))) &&
    decide (t.data + 4 * t.nodes two ≤ (if t.space = 0 then 0x4000 else 0x10000))

/-- Segment index and fraction of an input over 2^k segments (R144). -/
def tblSeg (k x : Nat) : Nat × Nat :=
  let u := (x + 2 ^ 31) % 2 ^ 32
  (u / 2 ^ (32 - k), u % 2 ^ (32 - k))

/-- The addresses of the nodes a fetch at (x, y) reads, as node numbers. -/
def tblNodes (t : TblDesc) (two : Bool) (x y : Nat) : List Nat :=
  let i := (tblSeg t.nx x).1
  if two then
    let j := (tblSeg t.ny y).1
    let w := 2 ^ t.nx + 1
    [j * w + i, j * w + i + 1, (j + 1) * w + i, (j + 1) * w + i + 1]
  else [i, i + 1]

/-- Interpolation, rounded once to nearest even (R144). -/
def tblValue (t : TblDesc) (two : Bool) (x y : Nat) (node : Nat → Int) : Nat :=
  let i := (tblSeg t.nx x).1
  let f : Int := (tblSeg t.nx x).2
  let kx := 32 - t.nx
  if two then
    let j := (tblSeg t.ny y).1
    let g : Int := (tblSeg t.ny y).2
    let ky := 32 - t.ny
    let w := 2 ^ t.nx + 1
    let row := fun r => (2 ^ kx - f) * node (r * w + i) + f * node (r * w + i + 1)
    codeOf 32 (rne ((2 ^ ky - g) * row j + g * row (j + 1)) (kx + ky))
  else codeOf 32 (rne (2 ^ kx * node i + f * (node (i + 1) - node i)) kx)

/-- Why a word's lane operation is a lane fault: FAULT_INFO.UNIT and CAUSE (05 Table 5-5). -/
abbrev LaneFault := Nat × Nat

/-- A 32-bit word of lane or sash memory as a signed number. -/
def Dev.q31 (d : Dev) (a : Nat) : Int := signedOf 32 (d.load a 4)

/-- TBL (R144) in lane i of sash n: the fetch may meet a bad descriptor or poison. -/
def Dev.tblOp (d : Dev) (n i : Nat) (l : Lane) (w : Nat) : Except LaneFault Nat :=
  let two := mw w 128 127 == 2
  let da := laneMem n i (l.pr (2 + mw w 129 129) / 4 * 4)
  if d.poisoned da then .error (5, 2)
  else
    let t := tblDesc (d.load da 4)
    if !t.ok two then .error (7, 4)
    else
      let r := mw w 134 130
      let x := l.vr (if two then r / 2 * 2 else r)
      let y := l.vr (r / 2 * 2 + 1)
      let addr := fun k => mwMem n i t.space (t.data + 4 * k)
      if (tblNodes t two x y).any (fun k => d.poisoned (addr k)) then .error (5, 2)
      else .ok (tblValue t two x y (fun k => d.q31 (addr k)))

/-- The words that a word's TBL operation reads (R144). -/
def Dev.tblReads (d : Dev) (n i : Nat) (l : Lane) (w : Nat) : List Nat :=
  if mw w 128 127 = 0 then []
  else
    let two := mw w 128 127 == 2
    let da := laneMem n i (l.pr (2 + mw w 129 129) / 4 * 4)
    let t := tblDesc (d.load da 4)
    let r := mw w 134 130
    da :: (if !t.ok two then [] else
      (tblNodes t two (l.vr (if two then r / 2 * 2 else r)) (l.vr (r / 2 * 2 + 1))).map (fun k => mwMem n i t.space (t.data + 4 * k)))

/-- The memory address of a word's MEM operation (R143). -/
def mwAddr (n i : Nat) (l : Lane) (w : Nat) : Nat :=
  mwMem n i (mw w 168 168) ((l.pr (mw w 170 169) + 4 * mw w 176 171) / 4 * 4)

/-- Latency of a unit (Table 6-6). -/
def LaneUnit.latency : LaneUnit → Nat
  | .add | .lim | .inc => 1
  | .mem | .integ => 2
  | .mac0 | .mac1 => 4
  | .tbl => 6
  | .trig => 8
  | .rcp => 10

/-- A residue-checked unit (05 Table 5-1). -/
def LaneUnit.checked : LaneUnit → Bool
  | .add | .integ | .mac0 | .mac1 | .rcp => true
  | _ => false

/-- FAULT_INFO.UNIT of a unit (05 Table 5-5). -/
def LaneUnit.code : LaneUnit → Nat
  | .add => 0 | .mac0 => 1 | .mac1 => 2 | .integ => 3 | .rcp => 4 | _ => 5

/-- Precedence among results of one word (06 R147), highest first. -/
def LaneUnit.rank : LaneUnit → Nat
  | .add => 0 | .lim => 1 | .mem => 2 | .inc => 2 | .integ => 3 | .mac1 => 4 | .mac0 => 5 | .tbl => 6 | .trig => 7 | .rcp => 8

/-- What an issue knows of its word: identifier, sash, lane, cycle, tick, and the suppression of PW (R150). -/
structure IssueAt where
  word : Nat
  sash : Nat
  lane : Nat
  cycle : Nat
  tick : Nat
  mute : Bool
  deriving DecidableEq, Repr

/-- A result in flight from its unit's output. -/
def IssueAt.op (c : IssueAt) (u : LaneUnit) (dst : Dest) (o : UnitOut) (lat : Nat := u.latency) : InFlight :=
  { word := c.word, lane := c.lane, unit := u, dest := dst, val := o.val, val2 := o.val2, sat := o.sat, nan := o.nan
    checked := u.checked, mute := c.mute, issue := c.cycle, due := c.cycle + lat, tick := c.tick }

/-- The registers a MAC operation on V_A, V_B and V_C reads. -/
def macSrcs (op a b c : Nat) : List Nat := if op = 6 ∨ op = 7 then [a] else [a, b, c]

/-- The MAC operations of a word. -/
def IssueAt.macs (c : IssueAt) (l : Lane) (w : Nat) : List InFlight :=
  (if mw w 36 34 = 0 then [] else
    [(c.op .mac0 (.v (mw w 56 52)) (macOp (mw w 36 34) (l.vr (mw w 41 37)) (l.vr (mw w 46 42)) (l.vr (mw w 51 47)))).seal l
      (macSrcs (mw w 36 34) (mw w 41 37) (mw w 46 42) (mw w 51 47))]) ++
  (if mw w 59 57 = 0 then [] else
    [(c.op .mac1 (.v (mw w 79 75)) (macOp (mw w 59 57) (l.vr (mw w 64 60)) (l.vr (mw w 69 65)) (l.vr (mw w 74 70)))).seal l
      (macSrcs (mw w 59 57) (mw w 64 60) (mw w 69 65) (mw w 74 70))])

/-- The registers an ADD operation on V_A and V_B reads. -/
def addSrcs (op a b : Nat) : List Nat :=
  if op = 7 ∨ op = 8 ∨ op = 9 then [a] else if op = 15 then [a, b, 60] else [a, b]

/-- The ADD operation of a word. -/
def IssueAt.adds (c : IssueAt) (l : Lane) (w : Nat) : List InFlight :=
  let op := mw w 83 80
  let a := l.vr (mw w 88 84)
  let b := l.vr (mw w 93 89)
  let srcs := addSrcs op (mw w 88 84) (mw w 93 89)
  if op = 0 then []
  else if 12 ≤ op ∧ op ≤ 14 then [(c.op .add .pred ⟨b2n (cmpOp op a b), 0, false, false⟩).seal l srcs]
  else [(c.op .add (.v (mw w 98 94)) (addOp op a b l.pred)).seal l srcs]

/-- The LIM operation of a word. -/
def IssueAt.lims (c : IssueAt) (l : Lane) (w : Nat) : List InFlight :=
  let op := mw w 100 99
  if op = 0 then []
  else
    let k := mw w 108 106
    let r := clampOp op (l.vr (mw w 105 101)) (l.vr (2 * k)) (l.vr (2 * k + 1))
    [c.op .lim (.lim (mw w 113 109) r.2.1 r.2.2.1) ⟨r.1, 0, false, r.2.2.2⟩]

/-- The INTEG operation of a word (R142, R146). -/
def IssueAt.integs (c : IssueAt) (l : Lane) (w : Nat) : List InFlight :=
  let k := mw w 121 118
  let r := mw w 126 122
  match mw w 115 114 with
  | 1 =>
    if integPermits (mw w 117 116) l (l.vs r) then
      let x := l.accs k + l.vs r
      [(c.op .integ (.acc k) ⟨codeOf 64 (satI 64 x), 0, x != satI 64 x, false⟩).seal l [32 + k, r]]
    else []
  | 2 => [(c.op .integ (.acc k) ⟨codeOf 64 (l.vs r), 0, false, false⟩).seal l [r]]
  | 3 => [(c.op .integ (.v r) (outQ (l.accs k))).seal l [32 + k]]
  | _ => []

/-- The TRIG operation of a word (Table 6-5). -/
def IssueAt.trigs (c : IssueAt) (l : Lane) (w : Nat) : List InFlight :=
  let op := mw w 142 140
  let a := mw w 147 143
  let pairIn := op == 6 || op == 7
  let o := trigOp op (l.vr (if pairIn then a / 2 * 2 else a)) (l.vr (a / 2 * 2 + 1)) (l.vr (mw w 152 148))
  let dst := mw w 157 153
  if op = 0 then []
  else [c.op .trig (if op = 3 ∨ 5 ≤ op then .pair (dst / 2 * 2) else .v dst) ⟨o.1, o.2.1, o.2.2, false⟩]

/-- The RECIP operation of a word, in place (Table 6-2). -/
def IssueAt.rcps (c : IssueAt) (l : Lane) (w : Nat) : List InFlight :=
  let op := mw w 160 158
  let r := mw w 165 161
  if op = 0 then []
  else
    let x := f32recip (if op ≤ 3 then op else op - 3) (if op ≤ 3 then l.vr r else f32ofQ (l.vs r))
    [(c.op .rcp (.v r) ⟨x.1, 0, false, x.2⟩).seal l [r]]

/-- The words of memory that a word reads in one lane. -/
def Dev.mwReads (d : Dev) (n i : Nat) (l : Lane) (w : Nat) : List Nat :=
  (if mw w 167 166 = 1 then [mwAddr n i l w] else []) ++ d.tblReads n i l w

/-- The loads and pointer writes of a word (R143). -/
def Dev.mwMems (d : Dev) (c : IssueAt) (l : Lane) (w : Nat) : Except LaneFault (List InFlight) :=
  let op := mw w 167 166
  let ps := mw w 170 169
  let inc := if mw w 177 177 = 1 then [c.op .inc (.p ps) ⟨(l.pr ps + 4) % 65536, 0, false, false⟩] else []
  let a := mwAddr c.sash c.lane l w
  match op with
  | 1 => if d.poisoned a then .error (5, 2)
    else .ok (c.op .mem (.v (mw w 182 178)) ⟨d.load a 4, 0, false, false⟩ :: inc)
  | 2 => .ok inc
  | 3 => .ok [c.op .mem (.p ps) ⟨l.vr (mw w 182 178) % 65536, 0, false, false⟩ 1]
  | _ => .ok []

/-- Every result a word issues in one lane, or its lane fault. -/
def Dev.mwOps (d : Dev) (c : IssueAt) (l : Lane) (w : Nat) : Except LaneFault (List InFlight) :=
  match d.mwMems c l w with
  | .error e => .error e
  | .ok ms =>
    let rest := c.macs l w ++ c.adds l w ++ c.lims l w ++ c.integs l w ++ c.trigs l w ++ c.rcps l w ++ ms
    if mw w 128 127 = 0 then .ok rest
    else match d.tblOp c.sash c.lane l w with
      | .error e => .error e
      | .ok v => .ok (c.op .tbl (.v (mw w 139 135)) ⟨v, 0, false, false⟩ :: rest)

/-- The store a word defers in one lane (R148, 09 R207). -/
def mwStore (c : IssueAt) (l : Lane) (w : Nat) : List Deferred :=
  if mw w 167 166 = 2 ∧ c.mute = false then
    let a := mwAddr c.sash c.lane l w
    [⟨c.lane, a, l.vr (mw w 182 178), a == laneMem c.sash c.lane 0x3FFC⟩]
  else []

/-- A result's value reaches its register (R145, R147, R150); a bound inbound register keeps its delivery (05 R113), which the
truth value reports. -/
def Lane.landVal (l : Lane) (o : InFlight) (bound : Nat → Bool) : Lane × Bool :=
  let l1 := { l with satArith := l.satArith || o.sat, fpnan := l.fpnan || o.nan }
  if o.mute then (l1, false)
  else
    let put := fun (l : Lane) r v => if bound r then l else { l with v := Table.put 0 l.v r (BitVec.ofNat 32 v) }
    match o.dest with
    | .none => (l1, false)
    | .v r => (put l1 r o.val, bound r)
    | .pair r => (put (put l1 r o.val) (r + 1) o.val2, bound r || bound (r + 1))
    | .lim r s t => ({ put l1 r o.val with satLim := s, satDir := t }, bound r)
    | .acc k => ({ l1 with acc := Table.put 0 l1.acc k (BitVec.ofNat 64 o.val) }, false)
    | .p k => ({ l1 with p := Table.put 0 l1.p k (BitVec.ofNat 16 o.val) }, false)
    | .pred => ({ l1 with pred := o.val == 1 }, false)

/-- A result reaches its register, which takes the residue of its value with it (05 R112, R132). -/
def Lane.land (l : Lane) (o : InFlight) (bound : Nat → Bool) : Lane × Bool :=
  let r := l.landVal o bound
  (r.1.renew ((if o.sat then [63] else []) ++ (if o.nan then [64] else []) ++
    (if o.mute then [] else o.dest.keys.filter (fun k => !bound k))), r.2)

end Sys2Proof.Machine
end

