-- ==== Sys2Proof/Machine/Supervision.lean ====
section
/-!
DEFINITION. Sys2Proof/Machine/Supervision.lean: Peephole monitors, test-signal injection and capture
(09_supervision_and_tuning.md).
-/
namespace Sys2Proof.Machine

/-- The page of monitor m, lane L_m. -/
def monPage (m : Nat) : Nat := pgMon (m / 4) (m % 4)

/-- A monitor's state. -/
def Dev.mon (d : Dev) (m : Nat) : Mon := Table.get {} d.mons m

/-- Writes a monitor's state. -/
def Dev.setMon (d : Dev) (m : Nat) (x : Mon) : Dev := { d with mons := Table.put {} d.mons m x }

/-- A source word in INB_i_k format names a source (05 Table 5-5). -/
def srcIs (v cls idx : Nat) : Bool := nbits v 0 1 == 1 && nbits v 1 3 == cls && nbits v 4 8 == idx

/-- A delivery reaches the monitors whose sources it comes from (R204): model inputs hold it, and a measured value of a
basic-level monitor awaits its processing. `lo` and `hi` bound the casements reached. -/
def Dev.monArrive (d : Dev) (lo hi cls idx val stamp : Nat) : Dev :=
  d.forN (16 * (hi - lo)) (fun k d =>
    let m := 16 * lo + k
    let p := monPage m
    let x := d.mon m
    let x := if srcIs (d.f p F.PH_WSRC_WSRC) cls idx then { x with w0 := BitVec.ofNat 32 val } else x
    let x := if srcIs (d.f p (F.PH_WSRC_WSRC.at 4)) cls idx then { x with w1 := BitVec.ofNat 32 val } else x
    let x := if d.live p && !d.expert p && srcIs (d.f p F.PH_YSRC_YSRC) cls idx then
      { x with arrived := x.arrived ++ [(val, stamp)] } else x
    d.setMon m x)

/-- A commit landed at a target of casement c, seen by commit-observed inputs (R204): `kind` 1 set compare, 2 clear
compare, 3 timer compare. -/
def Dev.commitObserve (d : Dev) (c kind idx val : Nat) : Dev :=
  { d with landedVals := Table.put 0 d.landedVals (256 * c + 64 * kind + idx) (val % 2 ^ 32) }

/-- A sum of Q1.31 products, saturated at every step (07 R183). -/
def sumQ (l : List (Int × Int)) : Int := l.foldl (fun a e => satI 32 (a + rne (e.1 * e.2) 31)) 0

/-- A saturating left shift (06 SHL.Q). -/
def shlQ (x : Int) (k : Nat) : Int := satI 32 (x * 2 ^ k)

/-- A Q1.31 word of a page. -/
def Dev.pq (d : Dev) (p o : Nat) : Int := signedOf 32 (d.reg (p + o)).toNat

/-- A model input bound by the source word `v`, zero where not VALID (R204): the latest value landed at the target it observes, or the
latest delivery `w` of its source. -/
def Dev.monInput (d : Dev) (m v : Nat) (w : W32) : Int :=
  if nbits v 0 1 = 0 then 0
  else if nbits v 1 3 = 5 then
    signedOf 32 (Table.get 0 d.landedVals (256 * (m / 16) + 64 * nbits v 10 2 + nbits v 4 5))
  else signedOf 32 w.toNat

/-- The model inputs of a monitor (R204). -/
def Dev.monInputs (d : Dev) (m : Nat) : List Int :=
  let p := monPage m
  [d.monInput m (d.f p F.PH_WSRC_WSRC) (d.mon m).w0, d.monInput m (d.f p (F.PH_WSRC_WSRC.at 4)) (d.mon m).w1]

/-- The prediction of a basic-level monitor (R205). -/
def Dev.monPredict (d : Dev) (m : Nat) : Int :=
  let p := monPage m
  let w := d.monInputs m
  let n := d.f p F.PH_CTRL_ORDER
  shlQ (sumQ ((List.range n).map (fun j => (d.pq p (0x160 + 4 * j), d.pq p (0x1A0 + 4 * j))) ++
    (List.range 2).map (fun j => (d.pq p (0x170 + 4 * j), w.getD j 0)))) (nbits (d.reg (p + 0x190)).toNat 0 4)

/-- The stepped state X'_r (R205). -/
def Dev.monStep (d : Dev) (m r : Nat) : Nat :=
  let p := monPage m
  let w := d.monInputs m
  let n := d.f p F.PH_CTRL_ORDER
  codeOf 32 (shlQ (sumQ ((List.range n).map (fun j => (d.pq p (0x100 + 16 * r + 4 * j), d.pq p (0x1A0 + 4 * j))) ++
    (List.range 2).map (fun j => (d.pq p (0x140 + 8 * r + 4 * j), w.getD j 0)))) (nbits (d.reg (p + 0x180 + 4 * r)).toNat 0 4))

/-- The stepped states take effect (R205, R206). -/
def Dev.monUpdate (d : Dev) (m : Nat) : Dev :=
  let p := monPage m
  let x := d.mon m
  match x.steps with
  | [] => d
  | (t, vals) :: rest =>
    if d.tick < t || !d.live p then d
    else
      let d := d.forN vals.length (fun r d =>
        if x.stepKept.contains r then d else d.setReg (p + 0x1A0 + 4 * r) (BitVec.ofNat 32 (vals.getD r 0)))
      d.setMon m { x with steps := rest, stepKept := [] }

/-- A measured delivery is processed or skipped (R205), after a step that takes effect in its tick; a state written in the tick stands
(R206). -/
def Dev.monDelivery (d : Dev) (m : Nat) : Dev :=
  let p := monPage m
  let d := d.monUpdate m
  let x := d.mon m
  match x.arrived with
  | [] => d
  | (y, s) :: rest =>
    let d := d.setMon m { x with arrived := rest }
    if !d.live p || d.expert p then d
    else if (match x.lastStep with | some t => decide (d.tick < t + 48) | none => false) then
      ((d.inc p F.PH_SKIP_CNT_SKIPS).setB p F.MON_STATUS_SKIPPED true).irq p 1
    else
      let yhat := d.monPredict m
      let r := satI 32 (signedOf 32 y - yhat)
      d.setMon m { x with
        arrived := rest
        lastStep := some d.tick
        judges := x.judges ++ [(codeOf 32 r, codeOf 32 yhat, s, d.tick + 6)]
        steps := [(d.tick + 48, (List.range (d.f p F.PH_CTRL_ORDER)).map (d.monStep m))]
        stepKept := (List.range 4).filter (fun r => !(d.landedAt (p + 0x1A0 + 4 * r) 4).isEmpty) }

/-- A write of PH_X_r during a step stands (R206). -/
def Dev.monXWrite (d : Dev) (m r : Nat) : Dev :=
  let x := d.mon m
  if x.steps.isEmpty then d else d.setMon m { x with stepKept := r :: x.stepKept }

/-- A record becomes final: PH_LAST takes its counts (R208). -/
def Dev.monFinal (d : Dev) (m : Nat) (w : Window) : Dev :=
  let p := monPage m
  ((d.setF p F.PH_LAST_VIOL w.viol).setF p F.PH_LAST_SAMPLES (min w.samples 0x7FFF)).setB p F.PH_LAST_TRIG w.trig

/-- The window registers follow the current record (Table 9-3). -/
def Dev.monShow (d : Dev) (m : Nat) : Dev :=
  let p := monPage m
  match (d.mon m).cur with
  | none => d
  | some w =>
    let d := (d.setR64 p 0x68 w.lo).setR64 p 0x70 w.hi
    (d.setF p F.PH_CUR_VIOL (min w.viol 0xFFFF)).setF p F.PH_CUR_SAMPLES (min w.samples 0xFFFF)

/-- The current window is open (STATUS.WIN_OPEN). -/
def Dev.monOpen (d : Dev) (m : Nat) : Bool :=
  d.live (monPage m) && (match (d.mon m).cur with
    | some w => decide (w.lo ≤ d.count) && decide (d.count < w.hi)
    | none => false)

/-- An ARM_MONITOR firing with scheduled time `time` reaches a lane (04 R104, R208). -/
def Dev.monArm (d : Dev) (m time len : Nat) : Dev :=
  let x := d.mon m
  if !d.live (monPage m) then d
  else
    let d := match x.prev with
      | some w => if w.final then d else d.monFinal m w
      | none => d
    let prev := x.cur.map (fun w => if d.count < w.hi then { w with hi := min w.hi time } else w)
    (d.setMon m { x with prev := prev, cur := some ⟨time, time + len, 0, 0, false, false⟩ }).monShow m

/-- A capture trigger (R216), which has no effect only while capture is stopped: POST further records are formed from the latest on. [DEDUCED (log 158)] -/
def Dev.capTrigger (d : Dev) (n lane : Nat) : Dev :=
  let p := pgCap n
  let x : Cap := Table.get {} d.caps n
  if bitAt (d.reg (p + 0x54)) (16 + lane) then
    let d := { d with caps := Table.put {} d.caps n { x with trigSince := true } }
    if d.live p && d.on p ⟨0x54, 20, 1⟩ && !d.on p ⟨0x10, 1, 1⟩ then
      let d := (d.setF p ⟨0x10, 2, 1⟩ 1).setReg (p + 0x64) (d.reg (p + 0x5C))
      let k := nbits (d.reg (p + 0x54)).toNat 0 16
      let d := { d with caps := Table.put {} d.caps n { x with trigSince := true, post := some k } }
      if k = 0 then (d.setF p ⟨0x10, 1, 1⟩ 1).setF p ⟨0x10, 0, 1⟩ 0 else d
    else d
  else d

/-- A window triggers (R209, Table 9-2). -/
def Dev.monTrigger (d : Dev) (m : Nat) : Dev :=
  let p := monPage m
  let c := m / 16
  let a := d.f p F.PH_CTRL_ACTIONS
  let d := (d.setB p F.MON_STATUS_TRIGGERED true).inc p F.PH_TRIG_CNT_TRIGS
  let d := if a % 2 = 1 && !d.acted 9 (m / 4) then (d.act 9 (m / 4)).pulse (evCas c (104 + m / 4 % 4)) else d
  let d := if a / 2 % 2 = 1 then d.irq p 0 else d
  let d := if a / 4 % 2 = 1 then
      (let x := d.mon m
       d.setMon m { x with vtrips := x.vtrips ++ [(d.tick + 6, d.f p F.PH_CTRL_VTRIP)] })
    else d
  let d := if a / 8 % 2 = 1 then
    let k := d.f p F.PH_CTRL_REDIR_DESC
    let was := bitAt (d.reg (pgJq c + 0x80 + 4 * (k / 32))) (k % 32)
    let d := d.setF (pgJq c) ⟨0x80 + 4 * (k / 32), k % 32, 1⟩ 1
    if was then d else { d with redirTick := Table.put 0 d.redirTick (256 * c + k) (d.tick + 1) }
  else d
  d.capTrigger (m / 4) (m % 4)

/-- A residual is judged (R208). -/
def Dev.monJudge (d : Dev) (m : Nat) : Dev :=
  let p := monPage m
  let x := d.mon m
  match x.judges with
  | [] => d
  | (r, yhat, s, t) :: rest =>
    if d.tick < t || !d.live p then d
    else
      let d := (d.setReg (p + 0x80) (BitVec.ofNat 32 r)).setR64 p 0x88 s
      let d := if d.expert p then d else d.setReg (p + 0x84) (BitVec.ofNat 32 yhat)
      let close := fun (o : Option Window) (d : Dev) => match o with
        | some w => if !w.final && decide (w.hi ≤ s) then d.monFinal m w else d
        | none => d
      let fin := fun (o : Option Window) => o.map (fun w => if w.hi ≤ s then { w with final := true } else w)
      let d := close x.cur (close x.prev d)
      let rv := signedOf 32 r
      let viol := decide (rv < d.fs p F.PH_RLO_RLO) || decide (d.fs p F.PH_RHI_RHI < rv)
      let inside := fun (o : Option Window) => match o with
        | some w => decide (w.lo ≤ s) && decide (s < w.hi)
        | none => false
      let add := fun (w : Window) => { w with samples := w.samples + 1, viol := if viol then w.viol + 1 else w.viol }
      let hot := fun (w : Window) => decide (d.f p F.PH_THRESH_THRESH < w.viol) && !w.trig
      let mark := fun (w : Window) => if hot w then { w with trig := true } else w
      let cur := fin x.cur
      let prev := fin x.prev
      let base := { x with judges := rest, cur := cur, prev := prev }
      if inside x.cur then
        match cur with
        | some w =>
          let d := (d.setMon m { base with cur := some (mark (add w)) }).monShow m
          if hot (add w) then d.monTrigger m else d
        | none => d.setMon m base
      else if inside x.prev && (match x.prev with | some w => !w.final | none => false) then
        match prev with
        | some w =>
          let d := d.setMon m { base with prev := some (mark (add w)) }
          if hot (add w) then d.monTrigger m else d
        | none => d.setMon m base
      else (d.setMon m base).inc p F.PH_OUTSIDE_CNT_OUTSIDE

/-- Microcode presents a residual (R207): it is judged 6 ticks after the release of the store. -/
def Dev.monPresent (d : Dev) (m r stamp : Nat) : Dev :=
  let x := d.mon m
  if d.live (monPage m) && d.expert (monPage m) then
    d.setMon m { x with judges := x.judges ++ [(r, 0, stamp, d.tick + 6)] }
  else d

/-- The virtual trips of a triggered monitor that reach the Shutter matrix by this tick (R209). -/
def Dev.monVtrip (d : Dev) (m : Nat) : Dev :=
  let x := d.mon m
  let now := x.vtrips.filter (fun e => decide (e.1 ≤ d.tick))
  if now.isEmpty then d
  else
    let d := d.setMon m { x with vtrips := x.vtrips.filter (fun e => decide (d.tick < e.1)) }
    now.foldl (fun d e => (d.act 10 e.2).vtSet (BitVec.ofNat 64 (2 ^ e.2))) d

/-- Enabling a monitor: both records empty (R210). -/
def Dev.monEnable (d : Dev) (m : Nat) : Dev :=
  let x := d.mon m
  let p := monPage m
  let d := (((d.setR64 p 0x68 0).setR64 p 0x70 0).setReg (p + 0x78) 0)
  d.setMon m { x with arrived := [], lastStep := none, judges := [], steps := [], stepKept := [], cur := none, prev := none }

/-- Clearing EN of a monitor (R210). -/
def Dev.monDisable (d : Dev) (m : Nat) : Dev :=
  let x := d.mon m
  d.setMon m { x with arrived := [], lastStep := none, judges := [], steps := [], stepKept := [], cur := none, prev := none }

/-- The page of a source of CLASS 0 to 4 of casement c (05 Table 5-4). -/
def srcPage (c cls idx : Nat) : Nat :=
  match cls with
  | 0 => pgAdc c (idx / 3)
  | 1 => pgSd c
  | 2 => pgTmr c (idx / 8)
  | 3 => pgTlc (2 * c + idx / 64)
  | _ => pgEnc idx

/-- Largest INDEX of a CLASS (05 Table 5-4). -/
def srcMax (cls : Nat) : Nat := match cls with | 0 => 11 | 1 => 5 | 2 => 31 | 3 => 127 | _ => 15

/-- The checks of one bound source in INB_i_k format at offset o of the page at `own` (05 R131, R210): reserved classes, range, disabled page,
encoder of the other wing. -/
def Dev.srcCheck (d : Dev) (own c v o code : Nat) (commit : Bool) : List (Nat × Nat) :=
  let cls := nbits v 1 3
  let idx := nbits v 4 8
  if nbits v 0 1 = 0 then []
  else if commit && cls == 5 then
    (if nbits idx 6 2 = 0 ∨ nbits idx 5 1 = 1 then [(o, 1)] else []) ++
    (if (nbits idx 6 2 = 1 ∨ nbits idx 6 2 = 2) ∧ 5 < nbits idx 0 5 then [(o, 2)] else [])
  else if 4 < cls then [(o, 1)]
  else if srcMax cls < idx then [(o, 2)]
  else
    d.refCheck own (srcPage c cls idx) o ++
    (if cls = 4 ∧ idx / 8 ≠ c / 8 then [(o, code)] else [])

/-- The enable check of a monitor (R210, Table 9-4). -/
def Dev.monCheck (d : Dev) (m : Nat) : List (Nat × Nat) :=
  let p := monPage m
  let c := m / 16
  let n := d.f p F.PH_CTRL_ORDER
  (if n = 0 ∨ 5 ≤ n then [(0x40, 2)] else []) ++
  (if d.fs p F.PH_RHI_RHI < d.fs p F.PH_RLO_RLO then [(0x48, 3)] else []) ++
  (if !d.expert p && !d.on p ⟨0x50, 0, 1⟩ then [(0x50, 0x101)] else []) ++
  d.srcCheck p c (d.f p F.PH_YSRC_YSRC) 0x50 0x102 false ++
  (List.range 2).flatMap (fun j => d.srcCheck p c (d.f p (F.PH_WSRC_WSRC.at (4 * j))) (0x54 + 4 * j) 0x102 true) ++
  (List.range 5).flatMap (fun r => if 15 < (d.reg (p + 0x180 + 4 * r)).toNat then [(0x180 + 4 * r, 2)] else [])

/-- A test-signal generator's state. -/
def Dev.inj (d : Dev) (n : Nat) : Inj := Table.get {} d.injs n

/-- Writes a generator's state. -/
def Dev.setInj (d : Dev) (n : Nat) (x : Inj) : Dev := { d with injs := Table.put {} d.injs n x }

/-- The current g of generator n. -/
def Dev.injG (d : Dev) (n : Nat) : Int := d.fs (pgInj n) F.INJ_VALUE_G

/-- Generator n acts at POINT `pt` on jobs of descriptor `desc` in lane i (R211), up to the end of the tick in which EN is cleared
(R213). -/
def Dev.injActs (d : Dev) (n pt i : Nat) (desc : Option Nat) : Bool :=
  let p := pgInj n
  (d.live p || (d.inj n).off) && d.f p F.INJ_CTRL_POINT == pt && bitAt (d.reg (p + 0x40)) (5 + i) &&
    (match desc with | some x => d.f p F.INJ_CTRL_DESC == x | none => true)

/-- The second tap of the PRBS register of length N (Table 9-7). [DEDUCED (log 52)] -/
def prbsTap (n : Nat) : Option Nat :=
  match n with
  | 7 => some 6 | 9 => some 5 | 11 => some 9 | 15 => some 14 | 20 => some 3 | 23 => some 18 | 31 => some 28 | _ => none

/-- The PRBS register advances one step. [DEDUCED (log 52)] -/
def prbsNext (n r : Nat) : Nat :=
  let fb := (nbits r (n - 1) 1 + nbits r ((prbsTap n).getD 1 - 1) 1) % 2
  (2 * r + fb) % 2 ^ n

/-- Enabling a generator (R212): u_0 is the first count START + m × STEP after the present one. -/
def Dev.injEnable (d : Dev) (n : Nat) : Dev :=
  let p := pgInj n
  let start := d.r64 p 0x50
  let step := max 1 (d.f p F.INJ_STEP_STEP)
  let at_ := d.count + 1
  let u0 := if at_ ≤ start then start else start + (at_ - start + step - 1) / step * step
  let f0 := (d.reg (p + 0x68)).toNat
  let d := (d.setF p F.INJ_VALUE_G 0).setF p F.INJ_STEPS_K 0
  let d := d.setF p F.INJ_INCR_INC f0
  d.setInj n { next := some u0, k := 0, phi := 0, inc := f0, prbs := 2 ^ d.f p F.INJ_PRBS_N - 1, held := 0, history := [(d.count, 0)] }

/-- The value of TYPE at update k (Table 9-6). -/
def Dev.injValue (d : Dev) (n : Nat) : Int :=
  let p := pgInj n
  let x := d.inj n
  let ofs := d.fs p F.INJ_OFS_OFS
  let amp := d.fs p F.INJ_AMP_AMP
  let scaled := fun (v : Int) => satI 32 (ofs + rne (amp * v) 31)
  match d.f p F.INJ_CTRL_TYPE with
  | 0 => 0
  | 1 | 2 | 3 => scaled (satI 32 (trigNear 8 x.phi 0 0 (sinCosTurn x.phi).1))
  | 4 => satI 32 (if nbits x.prbs (d.f p F.INJ_PRBS_N - 1) 1 = 1 then ofs + amp else ofs - amp)
  | 5 => satI 32 (ofs + amp)
  | _ => scaled (d.q31 (sashMem n (d.f p F.INJ_TBL_OFS + 4 * (x.k % max 1 (d.f p F.INJ_TBL_LEN)))))

/-- The generator's state after update k (Table 9-6). -/
def Dev.injNext (d : Dev) (n : Nat) : Inj :=
  let p := pgInj n
  let x := d.inj n
  let df := (d.reg (p + 0x70)).toNat
  let ty := d.f p F.INJ_CTRL_TYPE
  let x := { x with k := x.k + 1, next := x.next.map (· + max 1 (d.f p F.INJ_STEP_STEP)) }
  if ty = 1 then { x with phi := (x.phi + (d.reg (p + 0x68)).toNat) % 2 ^ 32 }
  else if ty = 2 then { x with phi := (x.phi + x.inc) % 2 ^ 32, inc := x.inc + df }
  else if ty = 3 then { x with phi := (x.phi + x.inc) % 2 ^ 32, inc := x.inc + x.inc * df / 2 ^ 32 }
  else if ty = 4 then
    (if x.held + 1 < d.f p F.INJ_PRBS_HOLD then { x with held := x.held + 1 }
     else { x with held := 0, prbs := prbsNext (d.f p F.INJ_PRBS_N) x.prbs })
  else x

/-- The generator ends at this update (R212). -/
def Dev.injEnds (d : Dev) (n : Nat) : Bool :=
  let p := pgInj n
  let x := d.inj n
  let ty := d.f p F.INJ_CTRL_TYPE
  (d.f p F.INJ_COUNT_COUNT != 0 && x.k == d.f p F.INJ_COUNT_COUNT) ||
    ((ty == 2 || ty == 3) && decide ((d.reg (p + 0x6C)).toNat < x.inc))

/-- An update tick of generator n (R212). -/
def Dev.injUpdate (d : Dev) (n : Nat) : Dev :=
  let p := pgInj n
  match (d.inj n).next with
  | none => d
  | some u =>
    if !d.live p || d.count < u then d
    else if d.injEnds n then
      let x := d.inj n
      let d := d.setInj n { x with next := none, history := (d.count, 0) :: x.history }
      let d := (d.setF p F.INJ_VALUE_G 0).setB p F.INJ_STATUS_RUNNING false
      (d.setB p F.INJ_STATUS_DONE true).irq p 0
    else
      let g := codeOf 32 (d.injValue n)
      let x := d.injNext n
      let d := (d.setF p F.INJ_VALUE_G g).setB p F.INJ_STATUS_RUNNING true
      let d := (d.inc p F.INJ_STEPS_K).setF p F.INJ_INCR_INC x.inc
      d.setInj n { x with history := (d.count, g) :: x.history }

/-- Clearing EN of a generator: g is zero from the next tick (R213). -/
def Dev.injDisable (d : Dev) (n : Nat) : Dev := d.setInj n { d.inj n with next := none, off := true }

/-- The end of a tick in which EN of a generator was cleared (R213). -/
def Dev.injEnd (d : Dev) (n : Nat) : Dev :=
  let x := d.inj n
  if x.off then
    ((d.setInj n { x with off := false, history := (d.count + 1, 0) :: x.history }).setF (pgInj n) F.INJ_VALUE_G 0).setB
      (pgInj n) F.INJ_STATUS_RUNNING false
  else d

/-- The ends of generators in a tick. -/
def Dev.injsEnd (d : Dev) : Dev := d.injs.foldl (fun d e => if e.2.off then d.injEnd e.1 else d) d

/-- A use of g in an update tick sees the new value (R212). -/
def Dev.injDue (d : Dev) (n : Nat) : Dev := if d.injs.any (fun e => e.1 == n) then d.injUpdate n else d

/-- Descriptor i of casement c (08 R185). -/
def descAddr (c i : Nat) : Nat := 0x30000000 + c * 0x80000 + 0x7C000 + i * 0x40

/-- The enable check of an injection page (R213, Table 9-9). -/
def Dev.injCheck (d : Dev) (n : Nat) : List (Nat × Nat) :=
  let p := pgInj n
  let ty := d.f p F.INJ_CTRL_TYPE
  let ofs := d.f p F.INJ_TBL_OFS
  let len := d.f p F.INJ_TBL_LEN
  (if ty = 7 ∨ d.f p F.INJ_CTRL_POINT = 3 then [(0x40, 1)] else []) ++
  (if d.load (descAddr (n / 4) (d.f p F.INJ_CTRL_DESC)) 4 < 2 ^ 31 then [(0x40, 2)] else []) ++
  (if d.f p F.INJ_STEP_STEP < 6 then [(0x58, 2)] else []) ++
  (if (ty = 2 ∨ ty = 3) ∧ (d.reg (p + 0x6C)).toNat ≤ (d.reg (p + 0x68)).toNat then [(0x68, 3)] else []) ++
  (if d.f p F.INJ_PRBS_HOLD = 0 then [(0x74, 2)] else []) ++
  (if ty = 4 ∧ prbsTap (d.f p F.INJ_PRBS_N) = none then [(0x74, 0x102)] else []) ++
  (if len = 0 ∨ 16384 < len then [(0x78, 2)] else []) ++
  (if ty = 6 ∧ (ofs % 4 ≠ 0 ∨ 0x10000 < ofs + 4 * len) then [(0x78, 0x101)] else [])

/-- A capture unit's state. -/
def Dev.cap (d : Dev) (n : Nat) : Cap := Table.get {} d.caps n

/-- Writes a capture unit's state. -/
def Dev.setCap (d : Dev) (n : Nat) (x : Cap) : Dev := { d with caps := Table.put {} d.caps n x }

/-- Record size of capture unit n (Table 9-10). -/
def Dev.capSize (d : Dev) (n : Nat) : Nat := if d.f (pgCap n) ⟨0x40, 8, 5⟩ ≤ 12 then 64 else 128

/-- A lane of a sash. -/
def Dev.lane (d : Dev) (n i : Nat) : Lane := Table.get {} d.lanes (4 * n + i)

/-- g held at a count (Table 9-11, KIND 5). -/
def Inj.heldAt (x : Inj) (t : Nat) : Nat := ((x.history.find? (fun e => e.1 ≤ t)).map (·.2)).getD 0

/-- Signal s of a record (Table 9-11). `committed` maps 8 × lane + binding to the value committed. -/
def Dev.capSignal (d : Dev) (n s stamp : Nat) (committed : Table Nat) : Nat :=
  let v := (d.reg (pgCap n + 0x100 + 4 * s)).toNat
  let i := nbits v 3 2
  let k := nbits v 5 12
  match nbits v 0 3 with
  | 1 => (d.lane n i).vr (24 + k)
  | 2 => (d.lane n i).vr k
  | 3 => d.load (laneMem n i (4 * k)) 4
  | 4 => Table.get 0 committed (8 * i + k)
  | 5 => (d.inj n).heldAt stamp
  | 6 => (d.reg (monPage (4 * n + i) + 0x80)).toNat
  | _ => 0

/-- What a record of the job that now ends on sash n would hold (R214): its stamp, of the lowest lane that ran, and its signals. -/
def Dev.capValues (d : Dev) (n first : Nat) (committed : Table Nat) : Nat × List Nat :=
  let p := pgCap n
  let stamp := (Table.get 0 (d.lane n first).t (d.f p ⟨0x40, 14, 3⟩)).toNat
  (stamp, (List.range (d.f p ⟨0x40, 8, 5⟩)).map (fun s => d.capSignal n s stamp committed))

/-- A job of descriptor `desc` completed its write-back on sash n (R214-R216); `vals` is what it held at its end. -/
def Dev.capForm (d : Dev) (n desc : Nat) (vals : Nat × List Nat) : Dev :=
  let p := pgCap n
  let x := d.cap n
  if !d.live p || d.on p ⟨0x10, 1, 1⟩ || d.f p ⟨0x40, 0, 8⟩ != desc then d
  else
    let dec := d.f p ⟨0x44, 0, 16⟩
    let d := d.setCap n { x with dec := if x.dec = 0 then dec else x.dec - 1 }
    if x.dec ≠ 0 then d
    else
      let seq := (d.reg (p + 0x5C)).toNat
      let d := d.setReg (p + 0x5C) (BitVec.ofNat 32 (seq + 1))
      let size := d.capSize n
      let info := desc + n * 2 ^ 8 + b2n (d.on (pgInj n) F.INJ_STATUS_RUNNING) * 2 ^ 14 + b2n x.trigSince * 2 ^ 15
      let rec_ := (bytesLE 8 vals.1 ++ bytesLE 4 seq ++ bytesLE 4 info ++
        vals.2.flatMap (fun v => bytesLE 4 v) ++ List.replicate 128 0).take size
      let x := d.cap n
      let full := decide (8 ≤ x.buffer.length)
      let post := x.post.map (fun q => q - 1)
      let d := d.setCap n { x with buffer := if full then x.buffer else x.buffer ++ [rec_], trigSince := false, post := post }
      let d := if full then (d.inc p ⟨0x60, 0, 32⟩).setF p ⟨0x10, 3, 1⟩ 1 else d
      let next := (d.reg (p + 0x58)).toNat + size * (d.cap n).buffer.length
      let stop := (d.on p ⟨0x40, 13, 1⟩ && decide (2 ^ d.f p ⟨0x50, 0, 5⟩ < next + size)) || post == some 0
      if stop then (d.setF p ⟨0x10, 1, 1⟩ 1).setF p ⟨0x10, 0, 1⟩ 0 else d

/-- The HBM controller accepts the oldest buffered record (R215); EN being 0, BUSY clears with the buffer (R217). -/
def Dev.capWritten (d : Dev) (n : Nat) : Dev :=
  let p := pgCap n
  let x := d.cap n
  match x.buffer with
  | [] => d
  | r :: rest =>
    let w := (d.reg (p + 0x58)).toNat
    let a := d.r64 p 0x48 + w
    let d := d.putClean a r
    let d := d.setReg (p + 0x58) (BitVec.ofNat 32 ((w + r.length) % 2 ^ d.f p ⟨0x50, 0, 5⟩))
    d.setCap n { x with buffer := rest }

/-- Enabling a capture page (R217). -/
def Dev.capEnable (d : Dev) (n : Nat) : Dev :=
  let p := pgCap n
  let d := ((d.setReg (p + 0x58) 0).setReg (p + 0x5C) 0).setF p ⟨0x10, 1, 1⟩ 0
  (d.setF p ⟨0x10, 0, 1⟩ 1).setCap n {}

/-- Clearing EN of a capture page (R217): buffered records are still written. -/
def Dev.capDisable (d : Dev) (n : Nat) : Dev := d.setF (pgCap n) ⟨0x10, 0, 1⟩ 0

end Sys2Proof.Machine
end

