-- ==== Sys2Proof/Machine/Jobs.lean ====
section
/-!
DEFINITION. Sys2Proof/Machine/Jobs.lean: job descriptors, queues, posts, misses and fallbacks (08_job_scheduling.md).
-/
namespace Sys2Proof.Machine

/-- A sash's state. -/
def Dev.sash (d : Dev) (n : Nat) : Sash := Table.get {} d.sashes n

/-- Writes a sash's state. -/
def Dev.setSash (d : Dev) (n : Nat) (x : Sash) : Dev := { d with sashes := Table.put {} d.sashes n x }

/-- The queue of casement c, oldest first. -/
def Dev.queue (d : Dev) (c : Nat) : List Job := Table.get [] d.queues c

/-- Word k of a job's descriptor copy (Table 8-1). -/
def Job.w (j : Job) (k : Nat) : Nat := (j.words.getD k 0).toNat

/-- A field of a job's descriptor copy. -/
def Job.fld (j : Job) (k lsb w : Nat) : Nat := nbits (j.w k) lsb w

/-- PROG. -/
def Job.prog (j : Job) : Nat := j.fld 0 0 16
/-- TPL_JOB (R186). -/
def Job.tplJob (j : Job) : Bool := j.fld 0 21 1 == 1
/-- The device-wide template page a template job names (R167). -/
def Job.tplPage (j : Job) : Nat := 32 * j.home + j.fld 0 16 5
/-- PIN. -/
def Job.pin (j : Job) : Nat := j.fld 0 22 2
/-- LANES. -/
def Job.laneMask (j : Job) : Nat := j.fld 0 24 4
/-- CTX_ADDR. -/
def Job.ctxAddr (j : Job) : Nat := j.w 2
/-- CTX_LINES. -/
def Job.ctxLines (j : Job) : Nat := j.fld 3 0 8
/-- WB_LINES. -/
def Job.wbLines (j : Job) : Nat := j.fld 3 8 8
/-- ACC_N. -/
def Job.accN (j : Job) : Nat := j.fld 3 16 5
/-- STRIDE, in bytes. -/
def Job.stride (j : Job) : Nat := 64 * j.fld 3 21 11
/-- STEAL_SLACK, in ticks. -/
def Job.slack (j : Job) : Nat := 8 * j.fld 1 16 16

/-- The base of a device-wide template page. -/
def tplBase (t : Nat) : Nat := pgTpl (t / 32) (t % 32)

/-- A descriptor as it stood in scratch memory at the start of the tick (R185). -/
def Dev.descWords (d : Dev) (c i : Nat) : List W32 :=
  (List.range 16).map (fun k => BitVec.ofNat 32 (d.atTick.load (descAddr c i + 4 * k) 4))

/-- Whether a descriptor's line was poisoned at the start of the tick, or its read finds it so (R189, 05 R123). -/
def Dev.descPoisoned (d : Dev) (c i : Nat) : Bool :=
  d.atTick.poisoned (descAddr c i) ||
    d.upsets.any (fun e => e.2 == 2 && decide (descAddr c i ≤ e.1) && decide (e.1 < descAddr c i + 64))

/-- A sash runs a job of the queue of casement c under its own casement: JQ_STAT.RUNNING. -/
def Dev.sashRuns (d : Dev) (c i : Nat) : Bool :=
  match (d.sash (4 * c + i)).job with
  | some r => r.job.home == c
  | none => false

/-- The queue's status registers follow its contents (Table 8-5); IRQ_PEND[2] sets when the depth reaches 64 (R200). -/
def Dev.jqRefresh (d : Dev) (c : Nat) : Dev :=
  let p := pgJq c
  let q := d.queue c
  let d := if q.length = 64 ∧ d.f p F.JQ_STAT_DEPTH ≠ 64 then d.irq p 2 else d
  let d := (d.setF p F.JQ_STAT_DEPTH q.length).setB p F.JQ_STATUS_FULL (q.length == 64)
  let d := d.setF p F.JQ_STAT_OLDEST_DESC ((q.head?.map (·.desc)).getD 0)
  d.setF p F.JQ_STAT_RUNNING ((List.range 4).foldl (fun a i => a + b2n (d.sashRuns c i) * 2 ^ i) 0)

/-- Writes a queue. -/
def Dev.setQueue (d : Dev) (c : Nat) (q : List Job) : Dev :=
  ({ d with queues := Table.put [] d.queues c q }).jqRefresh c

/-- The active bank of a sash (06 R159): false A, true B. -/
def Dev.csActive (d : Dev) (n : Nat) : Bool := d.on (pgSash n) F.CS_STAT_ACTIVE

/-- ROM entry of a template (06 Table 6-12). -/
def romEntry (prog : Nat) : Option Nat :=
  match prog with
  | 1 => some 0x040 | 2 => some 0x080 | 3 => some 0x000 | 4 => some 0x0C0 | 5 => some 0x140 | 6 => some 0x1A0 | _ => none

/-- The program-counter value a program ID resolves to on a sash (06 R160); ROM addresses have bit 12 set (R151). -/
def Dev.resolve (d : Dev) (n prog : Nat) : Option Nat :=
  match romEntry prog with
  | some e => some (4096 + e)
  | none =>
    if prog < 0x100 then none
    else
      let o := if d.csActive n then 0x240 else 0x200
      let hit := (List.range 16).find? (fun e =>
        let v := (d.reg (pgSash n + o + 4 * e)).toNat
        nbits v 31 1 == 1 && nbits v 0 16 == prog)
      hit.map (fun e => nbits (d.reg (pgSash n + o + 4 * e)).toNat 16 12)

/-- The program ID of a job (07 R167). -/
def Dev.jobProg (d : Dev) (j : Job) : Nat :=
  if j.tplJob then d.f (tplBase j.tplPage) F.TPL_CTRL_PROG else j.prog

/-- The lanes a post is judged for (R189). -/
def Dev.postLanes (d : Dev) (j : Job) : Nat :=
  if j.tplJob then d.f (tplBase j.tplPage) F.TPL_CTRL_LANES else j.laneMask

/-- A region lies in the wing memory of a casement's wing. -/
def inWing (c a k : Nat) : Bool :=
  let b := 0x20000000 + c / 8 * 0x800000
  decide (b ≤ a) && decide (a + k ≤ b + 0x800000)

/-- A region lies in a casement's scratch below its descriptors. -/
def inScratch (c a k : Nat) : Bool :=
  let b := 0x30000000 + c * 0x80000
  decide (b ≤ a) && decide (a + k ≤ b + 0x7C000)

/-- The target index of lane i of binding b (Table 8-2). [DEDUCED (log 30)] -/
def Job.target (j : Job) (b i : Nat) : Nat := j.fld (4 + b) 3 7 + i * j.fld (4 + b) 10 5

/-- A binding's index lies in its kind's range for a lane (R187, R189). -/
def Job.targetOk (j : Job) (b i : Nat) : Bool :=
  let t := j.target b i
  match j.fld (4 + b) 0 3 with
  | 0 => true
  | 1 | 2 => decide (t < 6)
  | 3 => decide (t < 32)
  | _ => decide (t < 128) && decide (t % 64 < 32)

/-- A reserved bit, word or KIND of a descriptor is non-zero (Tables 8-1, 8-2). -/
def Job.reserved (j : Job) : Bool :=
  j.fld 0 28 3 != 0 || j.fld 1 11 5 != 0 ||
    (List.range 7).any (fun b => j.fld (4 + b) 20 12 != 0 || decide (4 < j.fld (4 + b) 0 3)) ||
    (List.range 4).any (fun k => j.w (12 + k) != 0)

/-- A user job's context is impossible (Table 8-3, code 7). [DEDUCED (log 30)] -/
def Job.badContext (j : Job) : Bool :=
  j.ctxAddr % 64 != 0 || decide (j.ctxLines < j.wbLines) || decide (16 < j.accN) ||
    decide (64 * j.ctxLines < 8 * j.accN) ||
    (j.ctxLines != 0 && (List.range 4).any (fun i => bitAt (BitVec.ofNat 4 j.laneMask) i &&
      !inWing j.home (j.ctxAddr + i * j.stride) (64 * j.ctxLines) &&
      !inScratch j.home (j.ctxAddr + i * j.stride) (64 * j.ctxLines)))

/-- Every lane context lies in wing memory (R196). -/
def Job.wingContext (j : Job) : Bool :=
  (List.range 4).all (fun i => !bitAt (BitVec.ofNat 4 j.laneMask) i ||
    inWing j.home (j.ctxAddr + i * j.stride) (64 * j.ctxLines))

/-- JQ_CTRL.MODE of a casement. -/
def Dev.jqMode (d : Dev) (c : Nat) : Nat := d.f (pgJq c) F.JQ_CTRL_MODE

/-- JQ_CTRL.MODE as dequeues and steals of this cycle take it (R191). -/
def Dev.jqModeNow (d : Dev) (c : Nat) : Nat := d.atCycle.jqMode c

/-- A sash takes jobs: enabled, not quarantined. -/
def Dev.sashServes (d : Dev) (n : Nat) : Bool := d.live (pgSash n) && !d.on (pgSash n) F.SASH_STATUS_QUARANTINED

/-- A sash may serve a job under the steal modes (R191, R196). -/
def Dev.maySrv (d : Dev) (j : Job) (n : Nat) : Bool :=
  let c := n / 4
  if c = j.home then d.jqMode c != 0 || n % 4 == j.pin
  else c / 8 == j.home / 8 && d.jqMode j.home == 2 && d.jqMode c == 2 && d.live (pgWing (c / 8)) &&
    !j.tplJob && j.wingContext && j.slack != 0

/-- Why a post is refused (R189, Table 8-3): the first failing check. -/
def Dev.postRefusal (d : Dev) (j : Job) : Option Nat :=
  let lanes := BitVec.ofNat 4 (d.postLanes j)
  if !d.live (pgJq j.home) then some 1
  else if 64 ≤ (d.queue j.home).length then some 2
  else if j.fld 0 31 1 = 0 then some 3
  else if d.descPoisoned j.home j.desc then some 4
  else if j.reserved then some 5
  else if (List.range 7).any (fun b => (List.range 4).any (fun i => bitAt lanes i && !j.targetOk b i)) then some 6
  else if !j.tplJob && j.badContext then some 7
  else if !j.tplJob && j.laneMask == 0 then some 8
  else if !j.tplJob && !(List.range 64).any (fun n => d.maySrv j n && d.sashServes n && (d.resolve n j.prog).isSome) then some 9
  else if j.tplJob && !d.en (tplBase j.tplPage) then some 10
  else none

/-- A refused post is counted and recorded (R189). [DEDUCED (log 32)] -/
def Dev.refusePost (d : Dev) (c desc code : Nat) (fallback : Bool) : Dev :=
  let p := pgJq c
  let d := ((d.inc p F.JQ_REFUSED_CNT_REFUSED).setB p F.JQ_STATUS_REFUSED true).irq p 0
  if d.on p F.JQ_REFUSE_VALID then d
  else
    let d := (d.setF p F.JQ_REFUSE_DESC desc).setF p F.JQ_REFUSE_CODE code
    (d.setB p F.JQ_REFUSE_FALLBACK fallback).setB p F.JQ_REFUSE_VALID true

/-- The redirect bit of a descriptor acts on a post of this tick (R190, 09 R209). [DEDUCED (log 32)] -/
def Dev.redirected (d : Dev) (c i : Nat) : Bool :=
  bitAt (d.reg (pgJq c + 0x80 + 4 * (i / 32))) (i % 32) && decide (Table.get 0 d.redirTick (256 * c + i) ≤ d.tick)

/-- The job a post of descriptor i of casement c posts: a redirected one is its fallback (R188, R190). -/
def Dev.posting (d : Dev) (c i : Nat) (deadline : Option Nat) (fallback : Bool) : Job :=
  let redir := !fallback && d.redirected c i
  let i' := if redir then nbits (((d.descWords c i).getD 1 0).toNat) 0 8 else i
  ⟨d.jobSeq, c, i', d.descWords c i', deadline, d.count, d.tick, fallback || redir⟩

/-- A post of descriptor i is judged and, if it passes, enters the queue of casement c behind the jobs there (R188-R190). -/
def Dev.enterPost (d : Dev) (c i : Nat) (deadline : Option Nat) (fallback : Bool) : Dev :=
  let d := d.readErr (descAddr c i) 64
  let j := d.posting c i deadline fallback
  let fb := j.fallback
  let d := if fb then d.inc (pgJq c) F.JQ_FALLBACKS_FALLBACKS else d
  match d.postRefusal j with
  | some code => d.refusePost c i code fb
  | none =>
    let d := { d with jobSeq := d.jobSeq + 1 }
    (d.inc (pgJq c) F.JQ_POSTED_POSTED).setQueue c (d.queue c ++ [j])

/-- The posts of a tick go back: its jobs leave the queue, and what they counted and recorded stands as at the start of the tick. -/
def Dev.unpost (d : Dev) (c : Nat) : Dev :=
  let p := pgJq c
  let s := d.atTick
  let d := (d.setF p F.JQ_POSTED_POSTED (s.f p F.JQ_POSTED_POSTED)).setF p F.JQ_FALLBACKS_FALLBACKS (s.f p F.JQ_FALLBACKS_FALLBACKS)
  let d := (d.setF p F.JQ_REFUSED_CNT_REFUSED (s.f p F.JQ_REFUSED_CNT_REFUSED)).setReg (p + 0x58) (s.reg (p + 0x58))
  let d := d.setF p F.JQ_STATUS_REFUSED (s.f p F.JQ_STATUS_REFUSED)
  let d : Dev := d.setReg (p + 0x24) ((d.reg (p + 0x24) &&& ~~~5#32) ||| (s.reg (p + 0x24) &&& 5#32))
  d.setQueue c ((d.queue c).filter (fun j => j.entered != d.tick))

/-- The posts of this tick to a queue, in their order (R188). -/
def Dev.postsOf (d : Dev) (c : Nat) : List PostRec :=
  let l := d.present.posts.filter (fun x => x.cas == c)
  (List.range 66).flatMap (fun k => l.filter (fun x => x.order == k))

/-- The posts of this tick to a queue are made again, in their order. -/
def Dev.repost (d : Dev) (c : Nat) : Dev :=
  (d.postsOf c).foldl (fun d x => d.enterPost c x.desc x.deadline x.fallback) d

/-- A post of descriptor i into the queue of casement c (R188): it enters behind the posts of its tick that come before it in `order`, and
ahead of those that come after it. -/
def Dev.post (d : Dev) (c i : Nat) (deadline : Option Nat) (fallback : Bool) (order : Nat) : Dev :=
  let late := d.present.posts.any (fun x => x.cas == c && decide (order < x.order))
  let x : PostRec := ⟨c, order, i, deadline, fallback⟩
  let d := { d with present := { d.present with posts := d.present.posts ++ [x] } }
  if late then (d.unpost c).repost c else d.enterPost c i deadline fallback

/-- The deadline of a post with an offset (R188): none for offset 0. -/
def Dev.offsetDeadline (d : Dev) (ofs : Nat) : Option Nat := if ofs = 0 then none else some (d.count + ofs)

/-- A failure of a job: its fallback, where a flag asks for one, is to be posted in the next tick (R199). -/
def Dev.failJob (d : Dev) (j : Job) (n : Nat) (flags : List Nat) : Dev :=
  if !j.fallback && flags.any (fun b => j.fld 1 b 1 == 1) then
    { d with fallbacks := d.fallbacks ++ [⟨j, n, d.tick⟩] }
  else d

/-- The oldest failure's fallback is posted in the tick after it (R199), behind those of lower sashes in that tick (R188). [DEDUCED (log 31)] -/
def Dev.fallbackPost (d : Dev) : Dev :=
  match d.fallbacks with
  | [] => d
  | f :: rest =>
    if d.tick ≤ f.tick then d
    else
      let d := { d with fallbacks := rest }
      d.post f.job.home (f.job.fld 1 0 8) (d.offsetDeadline (f.job.w 11)) true (1 + f.sash)

/-- How and when a job ended (15 Table 15-11): 1 written back, 2 aborted or timed out, 3 missed. -/
def Dev.noteEnd (d : Dev) (j : Job) (code : Nat) : Dev :=
  { d with jobEnds := Table.put (0, 0) d.jobEnds (256 * j.home + j.desc) (code, d.count) }

/-- A miss is recorded in the home queue (R198). -/
def Dev.recordMiss (d : Dev) (j : Job) : Dev :=
  let p := pgJq j.home
  let d := ((d.noteEnd j 3).pulse (evCas j.home 88)).inc p F.JQ_MISSED_MISSED
  let d := d.inc p ⟨0x100 + 4 * (j.desc / 4), 8 * (j.desc % 4), 8⟩
  (d.setB p F.JQ_STATUS_MISS true).irq p 1

/-- Every queued job is removed when EN clears (R201). [DEDUCED (log 33)] -/
def Dev.jqEmpty (d : Dev) (c : Nat) : Dev :=
  (d.incBy (pgJq c) F.JQ_FLUSHED_FLUSHED (d.queue c).length).setQueue c []

/-- A flush removes every queued job; it acts before the posts of its own tick, which are judged against the empty queue (R201). [DEDUCED (log 2, 33)] -/
def Dev.jqFlush (d : Dev) (c : Nat) : Dev :=
  let posted := d.present.posts.any (fun x => x.cas == c)
  let d := if posted then d.unpost c else d
  let d := (d.incBy (pgJq c) F.JQ_FLUSHED_FLUSHED (d.queue c).length).setQueue c []
  if posted then d.repost c else d

/-- A queued job whose deadline has come is removed as a miss (04 R103). -/
def Dev.missQueued (d : Dev) (c k : Nat) : Dev :=
  match (d.queue c)[k]? with
  | none => d
  | some j =>
    match j.deadline with
    | none => d
    | some t =>
      if d.count < t then d
      else
        let d := d.setQueue c ((d.queue c).eraseIdx k)
        (d.recordMiss j).failJob j (4 * c) [9]

/-- No running job of a descriptor (R193). -/
def Dev.descIdle (d : Dev) (c i : Nat) : Bool :=
  !(d.sashes.any (fun e => match e.2.job with
    | some r => r.job.home == c && r.job.desc == i
    | none => false))

/-- A job has been in its queue since before the present core cycle (R192). -/
def Dev.available (d : Dev) (j : Job) : Bool := decide (j.entered < d.tick / 2 * 2)

/-- WS_STAT: casements of a wing in WING mode (Table 8-6). -/
def Dev.wingCas (d : Dev) (w : Nat) : Nat :=
  (List.range 8).foldl (fun a k => a + b2n (d.jqMode (8 * w + k) == 2) * 2 ^ k) 0

/-- The enable check of a queue page (R200). -/
def Dev.jqCheck (d : Dev) (c : Nat) : List (Nat × Nat) := if d.jqMode c = 3 then [(0x40, 1)] else []

end Sys2Proof.Machine
end

