-- ==== Sys2Proof/Machine/Template.lean ====
section
/-!
DEFINITION. Sys2Proof/Machine/Template.lean: template pages and the laws of the ROM templates
(07_control_law_templates.md).
-/
namespace Sys2Proof.Machine

/-- What a context word holds (R178): its range. `free` words have none; `reserved` words are named by no table. -/
inductive TcKind where
  | free | gain | shift | fp | vdc | lin | bit | outs | reserved
  deriving DecidableEq, Repr

/-- Context words of Table 7-4, for 0x0001 to 0x0004. [DEDUCED (log 27)] -/
def tcKindPi (prog w : Nat) : TcKind :=
  if w = 0 then .lin
  else if w = 3 ∨ w = 4 ∨ w = 8 ∨ w = 10 then .gain
  else if w = 9 ∨ w = 11 then .shift
  else if w = 12 then (if prog = 3 ∨ prog = 4 then .free else .reserved)
  else if w = 16 then .vdc
  else if w < 28 then .free
  else if w < 31 ∧ prog = 2 then (if w = 29 then .shift else .gain)
  else if 64 ≤ w ∧ w < 195 then .free
  else if w = 195 then (if prog = 4 then .reserved else .free)
  else if w = 196 then .free
  else if prog = 4 ∧ 32 ≤ w ∧ w < 52 then .fp
  else if prog = 4 ∧ w = 52 then .bit
  else if prog = 4 ∧ 200 ≤ w ∧ w < 210 then .fp
  else .reserved

/-- Context words of 0x0005 (Table 7-8). -/
def tcKindDq (w : Nat) : TcKind :=
  if 3 ≤ w ∧ w ≤ 6 ∨ 11 ≤ w ∧ w ≤ 13 ∨ w = 16 then .gain
  else if 7 ≤ w ∧ w ≤ 10 then .shift
  else if w = 17 then .fp
  else if w = 18 then .vdc
  else if w = 19 then .bit
  else if w < 28 ∨ 192 ≤ w ∧ w < 200 then .free
  else .reserved

/-- Context words of 0x0006 (Table 7-9). -/
def tcKindSs (w : Nat) : TcKind :=
  if w = 0 then .outs
  else if 3 ≤ w ∧ w ≤ 6 ∨ 8 ≤ w ∧ w < 164 then .free
  else if 164 ≤ w ∧ w < 175 then .shift
  else if 175 ≤ w ∧ w ≤ 188 ∨ 192 ≤ w ∧ w ≤ 202 then .free
  else .reserved

/-- What context word w is under PROG (R177, R178). [DEDUCED (log 27)] -/
def tcKind (prog w : Nat) : TcKind :=
  if 1 ≤ prog ∧ prog ≤ 4 then tcKindPi prog w
  else if prog = 5 then tcKindDq w
  else if prog = 6 then tcKindSs w
  else if 0x100 ≤ prog then .free
  else .reserved

/-- Reset value of context word w under PROG (Tables 7-4, 7-7, 7-8, 7-9; R177). -/
def tcReset (prog w : Nat) : Nat :=
  if 1 ≤ prog ∧ prog ≤ 4 then
    match w with
    | 0 => 0x00020100 | 1 => 0x7FFFFFFF | 3 => 0x7FFFFFFF | 6 => 0x80000000 | 7 => 0x7FFFFFFF
    | 14 => 0x80000000 | 15 => 0x7FFFFFFF | 16 => 0x7FFFFFFF | 19 => 0x80000000 | 20 => 0x7FFFFFFF
    | 21 => 0x80000000 | 26 => 0x80000000 | 27 => 0x7FFFFFFF | 64 => 0x80000000 | 66 => 0x7FFFFFFF
    | _ => 0
  else if prog = 5 then
    match w with
    | 0 => 0x7FFFFFFF | 11 => 0x7FFFFFFF | 16 => 0x7FFFFFFF | 17 => 0x3F800000 | 18 => 0x7FFFFFFF
    | 20 => 0x80000000 | 21 => 0x7FFFFFFF | 26 => 0x80000000 | 27 => 0x7FFFFFFF | _ => 0
  else if prog = 6 then
    match w with
    | 0 => 1 | 175 => 0x80000000 | 176 => 0x7FFFFFFF | 177 => 0x80000000 | 178 => 0x7FFFFFFF
    | 179 => 0x80000000 | 180 => 0x7FFFFFFF | 187 => 0x80000000 | 188 => 0x7FFFFFFF | _ => 0
  else 0

/-- An FP32 word is zero or a finite normal number (R178). -/
def fpOk (v : Nat) : Bool :=
  nbits v 0 31 == 0 || (nbits v 23 8 != 0 && nbits v 23 8 != 255)

/-- LIN_DESC is in range (R178). -/
def linOk (v : Nat) : Bool :=
  let nx := nbits v 17 4
  let data := nbits v 0 16
  nbits v 16 1 == 0 && decide (1 ≤ nx) && decide (nx ≤ 6) && data % 4 == 0 &&
    decide (0x100 ≤ data) && decide (data + 4 * (2 ^ nx + 1) ≤ 0x300)

/-- A value lies in a context word's range (R178). -/
def tcOk (k : TcKind) (v : Nat) : Bool :=
  match k with
  | .gain => decide (v < 2 ^ 31)
  | .shift => decide (v ≤ 15)
  | .fp => fpOk v
  | .vdc => decide (1 ≤ v) && decide (v ≤ 0x7FFFFFFF)
  | .lin => linOk v
  | .bit => decide (v ≤ 1)
  | .outs => decide (1 ≤ v) && decide (v ≤ 3)
  | _ => true

/-- Offset of TC_i_w (R177). -/
def tcOfs (i w : Nat) : Nat := 0x100 + 0x3C0 * i + 4 * w

/-- A context word of a device-wide template page. -/
def Dev.tc (d : Dev) (t i w : Nat) : Nat := (d.reg (tplBase t + tcOfs i w)).toNat

/-- A write that changes PROG resets every context word (R177). -/
def Dev.tplProg (d : Dev) (t prog : Nat) : Dev :=
  if prog = d.f (tplBase t) F.TPL_CTRL_PROG then d
  else
    let d := d.forN 960 (fun k d =>
      d.setReg (tplBase t + 0x100 + 4 * k) (BitVec.ofNat 32 (tcReset prog (k % 240))))
    d.setF (tplBase t) F.TPL_CTRL_PROG prog

/-- Bound pairs of a program's context (R178). -/
def boundPairs (prog : Nat) : List Nat :=
  if prog ≤ 4 then [6, 14, 19, 26] else if prog = 5 then [20, 26] else [175, 177, 179, 187]

/-- The enable check of a template page (R178, Table 7-3). -/
def Dev.tplCheck (d : Dev) (t : Nat) : List (Nat × Nat) :=
  let p := tplBase t
  let prog := d.f p F.TPL_CTRL_PROG
  let known := decide (1 ≤ prog) && decide (prog ≤ 6)
  (if known || (d.expert p && decide (0x100 ≤ prog)) then [] else [(0x40, 0x101)]) ++
  (if d.f p F.TPL_CTRL_LANES = 0 then [(0x40, 0x102)] else []) ++
  (if !known then [] else
    (List.range 4).flatMap (fun i =>
      if !bitAt (d.reg (p + 0x40)) (16 + i) then []
      else
        (List.range 240).flatMap (fun w =>
          let k := tcKind prog w
          if tcOk k (d.tc t i w) then []
          else [(tcOfs i w, match k with | .lin => 0x103 | .fp => 0x104 | _ => 2)]) ++
        (boundPairs prog).flatMap (fun w =>
          if signedOf 32 (d.tc t i (w + 1)) < signedOf 32 (d.tc t i w) then [(tcOfs i w, 3)] else [])))

/-- Timing of a template (Table 7-1): index of its waiting word, cycles from the wake to the end of its first commit word, and its
commit words. -/
def lawTiming (prog : Nat) : Nat × Nat × Nat :=
  match prog with
  | 1 => (8, 53, 2) | 2 => (10, 58, 2) | 3 => (8, 54, 2) | 4 => (14, 76, 2) | 5 => (12, 92, 6) | _ => (20, 118, 3)

/-- The ROM words of a template: the first, and how many (06 Table 6-12). -/
def romRange (prog : Nat) : Nat × Nat :=
  match prog with
  | 1 => (0x040, 64) | 2 => (0x080, 64) | 3 => (0x000, 64) | 4 => (0x0C0, 128) | 5 => (0x140, 96) | _ => (0x1A0, 96)

/-- The ROM word a template issues as its k-th: 0x0003 issues its words in order (07 R184); of the others the spec prints no listing, and
some issue more words than their range holds. [DESIGN CHOICE (log 23)] -/
def romAddr (prog k : Nat) : Nat :=
  if prog = 3 ∨ k = 0 then (romRange prog).1 + k else (romRange prog).1 + Config.romStep prog k % (romRange prog).2

/-- How many words a template issues (07 Table 7-1). -/
def lawWords (prog : Nat) : Nat := (lawTiming prog).1 + (lawTiming prog).2.1 + (lawTiming prog).2.2

/-- The context words a template loads (07 Tables 7-4, 7-7, 7-8, 7-9), but for LIN_DESC and the nodes, which its TBL reads. [DEDUCED (log 159)] -/
def lawReads (prog : Nat) : List Nat :=
  if prog ≤ 4 then (List.range 27).map (· + 1) ++ [194] ++ (if prog = 2 then [28, 29, 30, 195] else []) ++
    (if prog = 4 then (List.range 21).map (· + 32) ++ (List.range 10).map (· + 200) else [])
  else if prog = 5 then List.range 28
  else [0] ++ (List.range 4).map (· + 3) ++ (List.range 181).map (· + 8) ++ (List.range 8).map (· + 192)

/-- As which of its words a template loads context word w: 0x0003 loads KY, OY, BF, YF and what fills unbound slots in its prologue, the rest
after the wake (07 R184). [DESIGN CHOICE (log 25)] -/
def loadStep (prog w : Nat) : Nat :=
  let k := Config.romLoadStep prog w
  if prog ≠ 3 then k % lawWords prog
  else if [1, 2, 4, 13, 16, 194].contains w then k % 8 else 9 + k % 53

/-- As which of its words a template issues its TBL: 0x0003 word 0x00D (07 Table 7-10). [DESIGN CHOICE (log 25)] -/
def tblStep (prog : Nat) : Nat :=
  if prog = 3 then 0x00D else (lawTiming prog).1 + 1 + Config.romTblStep prog % ((lawTiming prog).2.1 - 1)

/-- What a law computes for one lane: committed values by binding, state words, the accumulators, FPNAN. -/
structure LawOut where
  commits : List Nat
  state : List (Nat × Nat)
  acc0 : Int
  acc1 : Int
  nan : Bool
  deriving DecidableEq, Repr

/-- What a law reads: context words, inbound slots with the context word that stands in for an unbound one, if one does, the accumulators,
the linearised feedback. -/
structure LawIn where
  c : Nat → Nat
  slot : Nat → Option Nat → Nat
  acc0 : Int
  acc1 : Int
  lin : Nat → Nat

/-- A Q1.31 context word. -/
def LawIn.q (x : LawIn) (w : Nat) : Int := signedOf 32 (x.c w)

/-- A Q1.31 product, saturated. -/
def mulQ (a b : Int) : Int := satI 32 (rne (a * b) 31)

/-- A saturating sum. -/
def addQ (a b : Int) : Int := satI 32 (a + b)

/-- cl(x, a, b) (R179): CLAMP, which yields the lower bound of an inverted pair. -/
def cl (x a b : Int) : Int := max a (min x b)

/-- q(): an accumulator clamped to Q1.31 (05 R110). -/
def accQ (a : Int) : Int := satI 32 a

/-- ACCUM under SIGN after a trial clamp of `ut` against a pair of bounds (06 R142, R180). -/
def accumSign (acc ki ut lo hi : Int) : Int :=
  let satLim := decide (ut < lo) || decide (hi < ut)
  let dir := decide (hi < ut)
  if satLim && (if dir then decide (0 ≤ ki) else decide (ki < 0)) then acc else satI 64 (acc + ki)

/-- A compare value: round(dz × K) + B by MULI, clamped (R179). -/
def compareQ (dz k b lo hi : Int) : Nat := codeOf 32 (cl (satI 32 (rne (dz * k) 31 + b)) lo hi)

/-- FP32 product. [DEDUCED (log 28)] -/
def fMulW (a b : Nat) : Nat := (f32fma false a b 0).1

/-- One resonator (R181). [DEDUCED (log 28)] -/
def resonator (x : LawIn) (h ef : Nat) : Nat :=
  let b := 32 + 5 * h
  let t := fMulW (x.c b) ef
  let t := (f32fma false (x.c (b + 1)) (x.c 200) t).1
  let t := (f32fma false (x.c (b + 2)) (x.c 201) t).1
  let t := (f32fma true (x.c (b + 3)) (x.c (202 + 2 * h)) t).1
  (f32fma true (x.c (b + 4)) (x.c (203 + 2 * h)) t).1

/-- ys, the input of the linearisation table (R179). -/
def LawIn.ys (x : LawIn) : Int := satI 32 (rne (x.q 1 * signedOf 32 (x.slot 0 none)) 31 + x.q 2)

/-- The laws 0x0001 to 0x0004 (R179, R181). -/
def lawPi (prog : Nat) (x : LawIn) : LawOut :=
  let y := signedOf 32 (x.slot 0 none)
  let yl := signedOf 32 (x.lin (codeOf 32 x.ys))
  let yf := satI 32 (rne (x.q 3 * yl) 31 + mulQ (x.q 4) (x.q 194))
  let e := cl (addQ (x.q 5) (-yf)) (x.q 6) (x.q 7)
  let p := shlQ (mulQ (x.q 8) e) (x.c 9)
  let ki := shlQ (mulQ (x.q 10) e) (x.c 11)
  let ds := satI 32 (rne (x.q 30 * x.q 195) 31 + shlQ (mulQ (x.q 28) (addQ (x.q 194) (-yf))) (x.c 29))
  let ff := signedOf 32 (x.slot 2 (some 13))
  let ef := f32ofQ e
  let rs := (List.range 4).map (fun h => resonator x h ef)
  let sum := rs.foldl (fun a r => (f32fma false r 0x3F800000 a).1) 0
  let xt := match prog with
    | 2 => ds
    | 3 => mulQ (x.q 12) ff
    | 4 => satI 32 (rne (x.q 12 * ff) 31 + (f32toQ sum).1)
    | _ => 0
  let s1 := addQ p xt
  let ut := addQ (addQ s1 (accQ x.acc0)) ki
  let acc := accumSign x.acc0 ki ut (x.q 14) (x.q 15)
  let u := cl (addQ s1 (accQ acc)) (x.q 14) (x.q 15)
  let rv := (f32recip 1 (f32ofQ (signedOf 32 (x.slot 1 (some 16))))).1
  let dn := (f32toQ (fMulW (f32ofQ u) rv)).1
  let dd := cl (addQ dn (if 0 ≤ y then x.q 17 else x.q 18)) (x.q 19) (x.q 20)
  let dz := if dd < x.q 21 then 0 else dd
  let satLim := decide (ut < x.q 14) || decide (x.q 15 < ut)
  let hold := x.c 52 == 1 && satLim
  { commits := [compareQ dz (x.q 22) (x.q 23) (x.q 26) (x.q 27), compareQ dz (x.q 24) (x.q 25) (x.q 26) (x.q 27)]
    state := [(194, codeOf 32 yf), (196, codeOf 32 u)] ++
      (if prog = 2 then [(195, codeOf 32 ds)] else []) ++
      (if prog = 4 && !hold then
        [(201, x.c 200), (200, ef)] ++
          (List.range 4).flatMap (fun h => [(203 + 2 * h, x.c (202 + 2 * h)), (202 + 2 * h, rs.getD h 0)])
       else [])
    acc0 := acc
    acc1 := x.acc1
    nan := false }

/-- √3/2 in Q1.31. -/
def sqrt3Half : Int := 0x6ED9EBA1

/-- The law 0x0005 (R182). [DEDUCED (log 28, 29)] -/
def lawDq (pair : Bool) (x : LawIn) : LawOut :=
  let ia := mulQ (x.q 0) (signedOf 32 (x.slot 0 none))
  let ib := mulQ (x.q 0) (signedOf 32 (x.slot 1 none))
  let th := x.slot 2 none
  let ab := trigOp 5 (codeOf 32 ia) 0 (codeOf 32 ib)
  let dq := trigOp 6 ab.1 ab.2.1 th
  let id := signedOf 32 dq.1
  let iq := signedOf 32 dq.2.1
  let emax := x.q 11
  let ed := cl (addQ (x.q 1) (-id)) (-emax) emax
  let eq := cl (addQ (x.q 2) (-iq)) (-emax) emax
  let pd := shlQ (mulQ (x.q 3) ed) (x.c 7)
  let kid := shlQ (mulQ (x.q 4) ed) (x.c 8)
  let pq := shlQ (mulQ (x.q 5) eq) (x.c 9)
  let kiq := shlQ (mulQ (x.q 6) eq) (x.c 10)
  let sd := addQ pd (-(mulQ (x.q 13) iq))
  let sq := addQ (addQ pq (mulQ (x.q 12) id)) (x.q 14)
  let vmax := x.q 16
  let accd := accumSign x.acc0 kid (addQ (addQ sd (accQ x.acc0)) kid) (-vmax) vmax
  let vd := cl (addQ sd (accQ accd)) (-vmax) vmax
  let vm2 := fMulW (f32ofQ vmax) (f32ofQ vmax)
  let dif := (f32fma true (f32ofQ vd) (f32ofQ vd) vm2).1
  let root := f32recip 2 dif
  let vqm := (f32toQ root.1).1
  let accq := accumSign x.acc1 kiq (addQ (addQ sq (accQ x.acc1)) kiq) (-vqm) vqm
  let vq := cl (addQ sq (accQ accq)) (-vqm) vqm
  let v := trigOp 7 (codeOf 32 vd) (codeOf 32 vq) ((th + x.c 15) % 2 ^ 32)
  let al := signedOf 32 v.1
  let be := signedOf 32 v.2.1
  let half := rne (-al) 1
  let va := al
  let vb := satI 32 (half + rne (sqrt3Half * be) 31)
  let vc := satI 32 (half - rne (sqrt3Half * be) 31)
  let z := if x.c 19 = 1 then rne (max va (max vb vc) + min va (min vb vc)) 1 else 0
  let rv := (f32recip 1 (f32ofQ (signedOf 32 (x.slot 3 (some 18))))).1
  let m := fun (w : Int) =>
    cl (f32toQ (fMulW (fMulW (x.c 17) (f32ofQ (satI 32 (w - z)))) rv)).1 (x.q 20) (x.q 21)
  let c0 := fun w => compareQ (m w) (x.q 22) (x.q 23) (x.q 26) (x.q 27)
  let c1 := fun w => compareQ (m w) (x.q 24) (x.q 25) (x.q 26) (x.q 27)
  { commits := if pair then [c0 va, c1 va, c0 vb, c1 vb, c0 vc, c1 vc] else [c0 va, c0 vb, c0 vc]
    state := [(196, codeOf 32 vd), (197, codeOf 32 vq), (198, codeOf 32 id), (199, codeOf 32 iq)]
    acc0 := accd
    acc1 := accq
    nan := root.2 }

/-- The law 0x0006 (R183). -/
def lawSs (x : LawIn) : LawOut :=
  let w := fun j => signedOf 32 (x.slot j (some (3 + j)))
  let v := fun o => shlQ (sumQ ((List.range 8).map (fun j => (x.q (104 + 8 * o + j), x.q (192 + j))) ++
    (List.range 4).map (fun j => (x.q (128 + 4 * o + j), w j)))) (x.c (172 + o))
  let u := fun o => cl (v o) (x.q (175 + 2 * o)) (x.q (176 + 2 * o))
  let xr := fun r => shlQ (sumQ ((List.range 8).map (fun j => (x.q (8 + 8 * r + j), x.q (192 + j))) ++
    (List.range 4).map (fun j => (x.q (72 + 4 * r + j), w j)) ++
    (List.range 3).map (fun o => (x.q (140 + 3 * r + o), addQ (u o) (-(v o)))))) (x.c (164 + r))
  { commits := (List.range (x.c 0)).map (fun o => compareQ (u o) (x.q (181 + 2 * o)) (x.q (182 + 2 * o)) (x.q 187) (x.q 188))
    state := (List.range 8).map (fun r => (192 + r, codeOf 32 (xr r))) ++
      (List.range 3).map (fun o => (200 + o, codeOf 32 (u o)))
    acc0 := x.acc0
    acc1 := x.acc1
    nan := false }

/-- The law of a ROM template. -/
def lawOf (prog : Nat) (pair : Bool) (x : LawIn) : LawOut :=
  if prog ≤ 4 then lawPi prog x else if prog = 5 then lawDq pair x else lawSs x

end Sys2Proof.Machine
end

