-- ==== Sys2Proof/Machine/Sash.lean ====
section
/-!
DEFINITION. Sys2Proof/Machine/Sash.lean: the sash sequencer, its results, faults and replays, job start and end, and the
control store (05_loop_engine_architecture.md, 06_microword_and_control_store.md, 07, 08).
-/
namespace Sys2Proof.Machine

/-- Writes a lane. -/
def Dev.setLane (d : Dev) (n i : Nat) (l : Lane) : Dev := { d with lanes := Table.put {} d.lanes (4 * n + i) l }

/-- The cycle of a sash: core cycles less those it was frozen (05 R118, 06 R145). -/
def Dev.cyc (d : Dev) (n : Nat) : Nat :=
  match (d.sash n).freeze with
  | some f => f.since
  | none => d.tick / 2 - (d.sash n).lost

/-- The lanes of a mask, ascending. -/
def laneList (m : Nat) : List Nat := (List.range 4).filter (fun i => nbits m i 1 == 1)

/-- V_r of lane i of sash n is an inbound register with a valid binding (05 R112). -/
def Dev.inbBound (d : Dev) (n i r : Nat) : Bool :=
  decide (24 ≤ r) && decide (r < 32) && d.on (pgSash n) (F.INB_VALID.at (0x20 * i + 4 * (r - 24)))

/-- Clears IN_USE of a template page and leaves the sash without a job (07 R170, 05 R134); STATUS.FPNAN is set at a job's end
(Table 5-5), which before a write-back was jobEnd. [DEDUCED (log 44)] -/
def Dev.endRun (d : Dev) (n : Nat) : Dev :=
  let x := d.sash n
  let d := match x.job with
    | some r => if r.phase != Phase.writeBack && (laneList r.lanes).any (fun i => (d.lane n i).fpnan) then
        d.setB (pgSash n) F.SASH_STATUS_FPNAN true else d
    | none => d
  let d := d.setSash n { x with job := none, ops := [], words := [], freeze := none, lastIssue := some (d.tick / 2 - x.lost) }
  let p := pgSash n
  let d := ((d.setB p F.SASH_STATUS_RUNNING false).setB p F.SASH_STATUS_WAITING false).setB p F.SASH_STATUS_FROZEN false
  let d := d.setB p F.PC_SNAP_RUN false
  match x.job with
  | none => d
  | some r =>
    let d := match r.tpl with
      | some t => d.setB (tplBase t) F.TPL_STATUS_IN_USE false
      | none => d
    d.jqRefresh r.job.home

/-- The job has issued its last commit (04 R103): it has issued END, no commit is left, and none met the deadline. -/
def Dev.lastCommitDone (d : Dev) (n : Nat) (r : Running) : Bool :=
  !r.dropped && match r.phase with
  | .ended => (d.sash n).words.all (fun w => w.commits.isEmpty)
  | .writeBack => true
  | _ => false

/-- The FAULT_INFO bits [21:8] of a word: address, bank, ROM (05 Table 5-5). -/
def WordRec.where_ (w : WordRec) : Nat := w.addr % 4096 + b2n (w.bank && !w.rom) * 2 ^ 12 + b2n w.rom * 2 ^ 13

/-- A lane fault (05 R134, R135, R138): the job ends at once. `where_` holds FAULT_INFO bits [21:8]. [DEDUCED (log 35)] -/
def Dev.laneFault (d : Dev) (n lane unit cause where_ : Nat) (inj : Bool) : Dev :=
  match (d.sash n).job with
  | none => d
  | some r =>
    let p := pgSash n
    let d := (d.setB p F.SASH_STATUS_LANE_FAULT true).irq p 0
    let d := if cause = 2 then d.setB p F.SASH_STATUS_POISON_ABORT true else d
    let d := d.inc p ⟨0x48, 8 * lane, 8⟩
    let d := if d.on p F.FAULT_INFO_VALID then d
      else
        let v := lane + unit * 2 ^ 2 + cause * 2 ^ 5 + where_ * 2 ^ 8 + b2n inj * 2 ^ 22 + 2 ^ 31
        (d.setReg (p + 0x4C) (BitVec.ofNat 32 v)).setR64 p 0x50 d.count
    let d := d.pulse (evCas (n / 4) (84 + n % 4))
    let x := d.sash n
    let d := d.setSash n { x with aborts := x.aborts + 1 }
    let lim := d.f p F.SASH_CTRL_FAULT_LIMIT
    let d := if lim ≠ 0 ∧ lim ≤ x.aborts + 1 ∧ d.on p F.SASH_STATUS_QUARANTINED = false then
      (d.setB p F.SASH_STATUS_QUARANTINED true).irq p 1 else d
    let due := !d.lastCommitDone n r && (match r.job.deadline with | some t => decide (t ≤ d.count) | none => false)
    let d := if r.missed then d else if due then d.recordMiss r.job else d.noteEnd r.job 2
    let d := d.failJob r.job n (if r.missed || due then [8, 9] else [8])
    d.endRun n

/-- The result of unit `u` in lane `lane` is corrupted by RES_INJECT (05 R136), having been issued or replayed in tick t. -/
def Dev.injected (d : Dev) (n lane u t : Nat) : Bool :=
  let p := pgSash n
  d.expert p && d.f p F.RES_INJECT_COUNT != 0 && d.f p F.RES_INJECT_LANE == lane && d.f p F.RES_INJECT_UNIT == u &&
    decide ((d.sash n).injTick < t)

/-- One corruption is used up. -/
def Dev.useInjection (d : Dev) (n : Nat) (b : Bool) : Dev :=
  if b then d.setF (pgSash n) F.RES_INJECT_COUNT (d.f (pgSash n) F.RES_INJECT_COUNT - 1) else d

/-- Whether result a is written before result b (06 R145, R147): by due cycle, then issue, then rising precedence. [DEDUCED (log 39)] -/
def InFlight.before (a b : InFlight) : Bool :=
  decide (a.due < b.due) || (a.due == b.due && (decide (a.issue < b.issue) ||
    (a.issue == b.issue && decide (b.unit.rank < a.unit.rank))))

/-- A result that lands overtakes one that awaits its replay for the same register and would have been written before it (06 R147). -/
def InFlight.overtaken (y o : InFlight) : Bool :=
  !o.mute && y.lane == o.lane && y.before o && y.dest.keys.any (fun k => o.dest.keys.contains k)

/-- A result is written (05 R113, 06 R145): it leaves the list of results in flight. -/
def Dev.landOp (d : Dev) (n : Nat) (o : InFlight) : Dev :=
  let r := (d.lane n o.lane).land o (fun v => d.inbBound n o.lane v)
  let d := d.setLane n o.lane r.1
  let d := if r.2 then d.setB (pgSash n) F.SASH_STATUS_INBOUND_WR true else d
  let x := d.sash n
  d.setSash n { x with ops := (x.ops.erase o).map (fun y => if y.overtaken o then { y with mute := true } else y) }

/-- Replaces a result in flight. -/
def Sash.mark (x : Sash) (o o' : InFlight) : Sash := { x with ops := x.ops.map (fun y => if y = o then o' else y) }

/-- One result is written and checked (05 R132, R133). `bad` says that its value went wrong in the unit. A result that is not checked may
be written after its word has ended (R122). [DESIGN CHOICE (log 40)] -/
def Dev.writeResult (d : Dev) (n : Nat) (o : InFlight) (bad : Bool) : Dev :=
  let x := d.sash n
  let inj := o.checked && d.injected n o.lane o.unit.code o.tick
  if x.job.isNone then d
  else if !(o.checked && (bad || inj || !o.agrees)) then d.landOp n o
  else match x.words.find? (fun w => w.id == o.word) with
    | none => d
    | some w => match x.freeze with
      | some f =>
        if f.word = w.id then
          let d := d.useInjection n inj
          d.setSash n { ((d.sash n).mark o { o with bad := true }) with freeze := some { f with len := max f.len (1 + o.unit.latency) } }
        else d
      | none =>
        let d := d.useInjection n inj
        if w.replayed then d.laneFault n o.lane o.unit.code 1 w.where_ inj
        else
          let x := (d.sash n).mark o { o with bad := true }
          let d := d.setSash n { x with
            words := x.words.map (fun y => if y.id = w.id then { y with replayed := true } else y)
            freeze := some ⟨d.tick / 2 - x.lost, 1 + o.unit.latency, w.id, d.tick⟩ }
          (d.inc (pgSash n) F.REPLAY_CNT_REPLAYS).setB (pgSash n) F.SASH_STATUS_FROZEN true

/-- Inserts a result in writing order, ahead of those that are written with it. -/
def insertOp (o : InFlight) : List InFlight → List InFlight
  | [] => [o]
  | x :: r => if x.before o then x :: insertOp o r else o :: x :: r

/-- The results due by now, in writing order, but for those awaiting a replay. [DEDUCED (log 39)] -/
def Dev.dueOps (d : Dev) (n : Nat) : List InFlight :=
  ((d.sash n).ops.filter (fun o => decide (o.due ≤ d.cyc n) && !o.bad)).foldr insertOp []

/-- The results of sash n that are due are written and checked; `bad` names those, as lane and unit, that went wrong in their unit (05
R132, R133). [DEDUCED (log 39)] -/
def Dev.writeback (d : Dev) (n : Nat) (bad : List (Nat × Nat)) : Dev :=
  (d.dueOps n).foldl (fun d o => d.writeResult n o (bad.contains (o.lane, o.unit.code))) d

/-- A replay freeze ends: the replayed results are rewritten, and a second mismatch is a lane fault (05 R133, R134). [DESIGN CHOICE (log 40)] -/
def Dev.replayEnd (d : Dev) (n : Nat) (bad : List (Nat × Nat)) : Dev :=
  let x := d.sash n
  match x.freeze with
  | none => d
  | some f =>
    if d.tick / 2 < f.since + x.lost + f.len then d
    else
      let d := d.setSash n { x with freeze := none, lost := x.lost + f.len }
      let d := d.setB (pgSash n) F.SASH_STATUS_FROZEN false
      let again := (x.ops.filter (fun o => o.bad)).foldr insertOp []
      again.foldl (fun d o =>
        match (d.sash n).job, (d.sash n).words.find? (fun w => w.id == o.word) with
        | some _, some w =>
          let inj := d.injected n o.lane o.unit.code (f.tick + 1)
          if bad.contains (o.lane, o.unit.code) || inj || !o.agrees then
            (d.useInjection n inj).laneFault n o.lane o.unit.code 1 w.where_ inj
          else d.landOp n o
        | _, _ => d) d

/-- A word whose checked results are all written can end (05 R122). [DEDUCED (log 3)] -/
def Dev.wordDone (d : Dev) (n : Nat) (w : WordRec) : Bool :=
  decide (w.issue + 1 ≤ d.cyc n) && (d.sash n).freeze.isNone && !(d.sash n).ops.any (fun o => o.checked && o.word == w.id)

/-- The value of a commit after OUTPUT injection (09 R211, Table 9-5). -/
def Dev.injectOut (d : Dev) (n : Nat) (r : Running) (b lane v : Nat) : Nat :=
  let p := pgInj n
  if !r.stolen && d.injActs n 2 lane (some r.job.desc) && bitAt (d.reg (p + 0x44)) b then
    let k := rne (d.injG n * d.fs p F.INJ_OGAIN_OGAIN) 31
    codeOf 32 (satI 32 (if bitAt (d.reg (p + 0x44)) (8 + b) then signedOf 32 v - k else signedOf 32 v + k))
  else v

/-- The first tick from t on, cycle by cycle, in which the commit bus of a casement is free of the flits listed (05 R127). [DEDUCED (log 38)] -/
def busSlot (fs : List Flit) (home t : Nat) : Nat :=
  let busy := fun k => fs.any (fun f => f.cas == home && f.since.isNone && f.due / 2 == t / 2 + k)
  t + 2 * (((List.range 64).find? (fun k => !busy k)).getD 64)

/-- A commit that a home sash of the casement has released in this cycle. -/
def Flit.fresh (f : Flit) (home cyc : Nat) : Bool :=
  f.cas == home && f.left == cyc && !f.stolen && !f.retried && f.since.isNone

/-- The commits released in this cycle are carried in ascending sash number, 12 cycles after they left and one cycle later for each ahead of
them (05 R127). -/
def Dev.busOrder (d : Dev) (home : Nat) : Dev :=
  let cyc := d.tick / 2
  let mine := d.flits.filter (fun f => f.fresh home cyc)
  let rest := d.flits.filter (fun f => !f.fresh home cyc)
  let placed := ((List.range 64).flatMap (fun n => mine.filter (fun f => f.sash == n))).foldl
    (fun l f => l ++ [(f, busSlot (rest ++ l.map (fun e => { e.1 with due := e.2 })) home (2 * cyc + 24))]) ([] : List (Flit × Nat))
  { d with flits := d.flits.map (fun f =>
      if f.fresh home cyc then { f with due := ((placed.find? (fun e => e.1 == f)).map Prod.snd).getD f.due } else f) }

/-- A commit flit leaves for the bus of its home casement, from a thief over the wing crossbar, 4.7 ns later (05 R127). [DEDUCED (log 38)] -/
def Dev.sendFlit (d : Dev) (f : Flit) : Dev :=
  let f := { f with left := d.tick / 2, due := busSlot d.flits f.cas (d.tick / 2 * 2 + (if f.stolen then 53 else 24)) }
  let d := { d with flits := d.flits ++ [f] }
  if f.stolen then d else d.busOrder f.cas

/-- A word's commit leaves the sash (05 R127, 04 R103): none from the deadline on. -/
def Dev.releaseCommit (d : Dev) (n : Nat) (r : Running) (w : WordRec) : Dev :=
  let late := match r.job.deadline with | some t => decide (t ≤ d.count) | none => false
  if w.slot = 0 ∨ w.commits = [] then d
  else if late then d.setSash n { d.sash n with job := some { r with dropped := true } }
  else
    let d := d.injDue n
    let b := w.slot - 1
    let bind := r.job.w (4 + b)
    let vals := w.commits.map (fun e => (e.1, d.injectOut n r b e.1 e.2))
    let r' := { r with
      commits := r.commits + 1
      committed := vals.foldl (fun t e => Table.put 0 t (8 * e.1 + b) e.2) r.committed }
    let d := d.setSash n { d.sash n with job := some r' }
    if nbits bind 0 3 = 0 then d
    else
      let flit : Flit := {
        job := r.job.id, sash := n, cas := r.job.home
        fence := if nbits bind 15 1 = 1 then some (nbits bind 16 4) else none
        lane := (w.commits.head?.map (·.1)).getD 0
        word := w.where_
        shares := vals.map (fun e => ⟨nbits bind 0 3, r.job.target b e.1, e.2⟩)
        due := 0
        stolen := r.stolen }
      d.sendFlit flit

/-- A released store to a knocker byte of lane memory reaches its port 6 ticks later (22 R485). -/
def Dev.knockStore (d : Dev) (n : Nat) (s : Deferred) : Dev :=
  let o := s.addr - laneMem n s.lane 0
  let go : Nat → Dev := fun p => { d with knocks := d.knocks ++ [⟨d.tick + 6, p, s.lane, bytesLE 4 s.val⟩] }
  match o with
  | 0x3FF8 => go (160 + n)
  | 0x3FF0 => go (224 + 2 * (n / 4))
  | 0x3FF4 => go (225 + 2 * (n / 4))
  | _ => d

/-- A lane's store of a 32-bit word at the end of a cycle (05 R121): bytes that a fabric write has reached since keep that write's value. -/
def Dev.laneStore (d : Dev) (a v : Nat) : Dev :=
  let d := d.forN 4 (fun k d =>
    let b : Byte := BitVec.ofNat 8 (v / 2 ^ (8 * k))
    if d.present.fabric.any (fun e => e.1 == a + k) then
      { d with present := { d.present with fabric := d.present.fabric.map (fun e => if e.1 = a + k then (e.1, b) else e) } }
    else d.setByte (a + k) b)
  d.clearUpsets a 4

/-- A microword ends and releases its stores and its commit (05 R122, 09 R207). -/
def Dev.wordEnd (d : Dev) (n : Nat) : Dev :=
  let x := d.sash n
  match x.job, x.words.find? (d.wordDone n) with
  | some r, some w =>
    let d := d.setSash n { x with words := x.words.filter (fun y => y.id != w.id) }
    let d := w.stores.foldl (fun d s =>
      let d := (d.laneStore s.addr s.val).knockStore n s
      if s.residual then
        d.monPresent (4 * n + s.lane) s.val
          (Table.get 0 (d.lane n s.lane).t (d.f (monPage (4 * n + s.lane)) F.PH_XCTRL_STAMP_SLOT)).toNat
      else d) d
    d.releaseCommit n r w
  | _, _ => d

/-- LANE0, the lowest-numbered enabled lane (06 Table 6-9). [DEDUCED (log 35, 36)] -/
def lane0 (lanes : Nat) : Nat := (laneList lanes).headD 0

/-- A branch condition (06 Table 6-9). [DEDUCED (log 36)] -/
def Dev.branch (d : Dev) (n lanes code : Nat) : Bool :=
  let ls := (laneList lanes).map (d.lane n)
  let l0 := d.lane n (lane0 lanes)
  match code with
  | 0 => ls.any (·.pred)
  | 1 => ls.all (·.pred)
  | 2 => l0.pred
  | 3 => ls.any (·.satLim)
  | 4 => ls.all (·.satLim)
  | 5 => l0.satLim
  | 6 => ls.any (·.satArith)
  | _ => ls.any (·.fpnan)

/-- The sequencer's next state after a word (06 R152, R153); `none` is a lane fault with cause SEQ. -/
def Dev.sequence (d : Dev) (n : Nat) (r : Running) (x : Sash) (w : Nat) : Option (Sash × Bool) :=
  let tgt := mw w 19 7
  let bc := mw w 6 4
  let next := (x.pc + 1) % 8192
  match mw w 3 0 with
  | 0 => some ({ x with pc := next }, false)
  | 1 => some ({ x with pc := tgt }, false)
  | 2 => some ({ x with pc := if d.branch n r.lanes bc then tgt else next }, false)
  | 3 => some ({ x with pc := if d.branch n r.lanes bc then next else tgt }, false)
  | 4 => if x.stack.length < 4 then some ({ x with stack := next :: x.stack, pc := tgt }, false) else none
  | 5 => match x.stack with
    | a :: s => some ({ x with stack := s, pc := a }, false)
    | [] => none
  | 6 => some (if x.lc0 ≠ 0 then { x with lc0 := x.lc0 - 1, pc := tgt } else { x with pc := next }, false)
  | 7 => some (if x.lc1 ≠ 0 then { x with lc1 := x.lc1 - 1, pc := tgt } else { x with pc := next }, false)
  | 8 => some ({ x with lc0 := tgt, pc := next }, false)
  | 9 => some ({ x with lc1 := tgt, pc := next }, false)
  | 10 =>
    let v := if bc / 4 = 0 then r.start.getD d.count + 8 * tgt
      else (Table.get 0 (d.lane n (lane0 r.lanes)).t (nbits tgt 10 3)).toNat + 8 * nbits tgt 0 10
    some ({ x with tw := Table.put (BitVec.allOnes 64) x.tw (bc % 4) (BitVec.ofNat 64 v), pc := next }, false)
  | 11 => some ({ x with pc := next }, true)
  | _ => none

/-- The event of EVENT_k: a write of EVSEL_k takes effect from the next cycle (06 R157). -/
def Dev.evSel (d : Dev) (n k : Nat) : Nat := d.atCycle.f (pgSash n) (F.EVSEL_EVENT.at (4 * k))

/-- EVSEL_k was written in this cycle: the latch mark is that of the new event, and the old one's is kept beside it. -/
def Dev.evMoved (d : Dev) (n k : Nat) : Bool := (Table.get (0, 0) (d.sash n).evWas k).1 == d.tick / 2 + 1

/-- An event is asserted for this sash as it sees it under R107, or a pulse of it is latched (06 Table 6-10). -/
def Dev.sashEvent (d : Dev) (n k : Nat) : Bool :=
  let e := d.evSel n k
  let x := d.sash n
  let mark := if d.evMoved n k then (Table.get (0, 0) x.evWas k).2 else Table.get 0 x.evMark k
  d.levelSeen (some (n / 4)) e || decide (mark < d.pulsesSeen (some (n / 4)) e)

/-- A wait condition (06 Table 6-10). -/
def Dev.waitTrue (d : Dev) (n wc : Nat) (r : Running) : Bool :=
  let x := d.sash n
  let c := n / 4
  if wc < 9 then
    let k := wc - 1
    let ls := (laneList r.lanes).filter (fun i => d.inbBound n i (24 + k))
    !ls.isEmpty && ls.all (fun i => decide (Table.get 0 (d.lane n i).floor k ≤ (Table.get 0 (d.lane n i).t k).toNat))
  else if wc < 13 then decide ((Table.get (BitVec.allOnes 64) x.tw (wc - 9)).toNat ≤ d.present.cycle.count)
  else if wc = 13 then !d.flits.any (fun f => f.job == r.job.id && f.since.isNone)
  else if wc = 14 then !d.flits.any (fun f => f.job == r.job.id && f.since.isSome)
  else if wc = 15 then !(d.queue c).isEmpty
  else if wc < 32 then d.sashEvent n (wc - 16)
  else if wc < 34 then
    decide (Table.get 0 x.tlMark (wc - 32) < d.pulsesSeen (some c) (evCas c (98 + 3 * (wc - 32))))
  else if wc < 42 then Table.get false x.sill (wc - 34)
  else decide (Table.get 0 x.sibMark (wc - 42) < d.pulsesSeen (some c) (evCas c (84 + (wc - 42))))

/-- A completed wait consumes its condition (06 Table 6-10, R157). -/
def Dev.waitConsume (d : Dev) (n wc : Nat) (r : Running) : Dev :=
  let x := d.sash n
  let c := n / 4
  if wc < 9 then
    (laneList r.lanes).foldl (fun d i =>
      let k := wc - 1
      if d.inbBound n i (24 + k) then
        let l := d.lane n i
        d.setLane n i { l with floor := Table.put 0 l.floor k ((Table.get 0 l.t k).toNat + 1) }
      else d) d
  else if 16 ≤ wc ∧ wc < 32 then
    let k := wc - 16
    let seen := d.pulsesSeen (some c) (d.evSel n k)
    d.setSash n (if d.evMoved n k then { x with evWas := Table.put (0, 0) x.evWas k (d.tick / 2 + 1, seen) }
      else { x with evMark := Table.put 0 x.evMark k seen })
  else if 32 ≤ wc ∧ wc < 34 then
    d.setSash n { x with tlMark := Table.put 0 x.tlMark (wc - 32) (d.pulsesSeen (some c) (evCas c (98 + 3 * (wc - 32)))) }
  else if 34 ≤ wc ∧ wc < 42 then d.setSash n { x with sill := Table.put false x.sill (wc - 34) false }
  else if 42 ≤ wc then
    d.setSash n { x with sibMark := Table.put 0 x.sibMark (wc - 42) (d.pulsesSeen (some c) (evCas c (84 + (wc - 42)))) }
  else d

/-- Sets the phase of a sash's job, with STATUS.WAITING. -/
def Dev.setPhase (d : Dev) (n : Nat) (r : Running) (ph : Phase) : Dev :=
  let w := match ph with | .waiting .. => true | .waking _ => true | _ => false
  (d.setSash n { d.sash n with job := some { r with phase := ph } }).setB (pgSash n) F.SASH_STATUS_WAITING w

/-- A waiting word's condition is true: it is consumed, and the successor issues in the next cycle when it was true at
issue, else 5 cycles later (06 R156, R158). -/
def Dev.waitWake (d : Dev) (n : Nat) : Dev :=
  match (d.sash n).job with
  | none => d
  | some r => match r.phase with
    | .waiting wc t issue _ =>
      let now := d.cyc n
      if !d.live (pgSash n) || !d.waitTrue n wc r || (t != 0 && decide (issue + 16 * t ≤ now)) then d
      else (d.waitConsume n wc r).setPhase n r (.waking (if now = issue then issue + 1 else now + 5))
    | _ => d

/-- A template's sample wait times out: the job ends with neither commit nor write-back (07 R173). -/
def Dev.tplTimeout (d : Dev) (n : Nat) (r : Running) : Dev :=
  let d := match r.tpl with
    | some t =>
      let p := tplBase t
      ((d.setB p F.TPL_STATUS_TIMEOUT true).irq p 0).inc p F.TPL_TIMEOUTS_TIMEOUTS
    | none => d
  ((d.noteEnd r.job 2).failJob r.job n [10]).endRun n

/-- A wait times out (06 R156): word TGT issues; a template's job ends (07 R173). -/
def Dev.waitTimeout (d : Dev) (n : Nat) : Dev :=
  match (d.sash n).job with
  | none => d
  | some r => match r.phase with
    | .waiting _ t issue tgt =>
      if t = 0 ∨ d.cyc n < issue + 16 * t ∨ !d.live (pgSash n) ∨ r.missed then d
      else if r.law.isSome then d.tplTimeout n r
      else (d.setSash n { d.sash n with pc := tgt }).setPhase n r .run
    | _ => d

/-- A delivery bound for a casement is due and has not been written (05 R126). -/
def Dev.deliveryDue (d : Dev) (c : Nat) : Bool :=
  d.deliveries.any (fun v => decide (v.due ≤ d.tick) && (if v.cls = 4 then v.place == c / 8 else v.place == c))

/-- The sash can issue a word now: enabled, running, not frozen nor waiting, one word a cycle, and every earlier result, word and
delivery of this cycle settled (05 R114, R126, 06 R145). -/
def Dev.canIssue (d : Dev) (n : Nat) : Bool :=
  let x := d.sash n
  let now := d.cyc n
  d.live (pgSash n) && !d.clocksStill && x.freeze.isNone &&
    (match x.job with
      | some r => (match r.phase with | .run => true | .waking c => decide (c ≤ now) | _ => false)
      | none => false) &&
    (match x.lastIssue with | some c => decide (c < now) | none => true) &&
    !x.ops.any (fun o => decide (o.due ≤ now)) && !x.words.any (d.wordDone n) && !d.deliveryDue (n / 4)

/-- PC_SNAP and the job's start count at an issue (06 R153, Table 6-14). [DEDUCED (log 157)] -/
def Dev.noteIssue (d : Dev) (n : Nat) (r : Running) : Dev :=
  let x := d.sash n
  let p := pgSash n
  let d := d.setSash n { x with
    job := some { r with start := some (r.start.getD d.count), phase := .run }
    lastIssue := some (d.cyc n)
    nextWord := x.nextWord + 1 }
  ((d.setF p F.PC_SNAP_PC x.pc).setB p F.PC_SNAP_RUN true).setB p F.SASH_STATUS_WAITING false

/-- The residue-checked units that Table 7-10 lists for words 0x009 to 0x03E of template 0x0003 (07 R184), and those of its prologue: 0 ADD,
1 MAC0, 2 MAC1, 3 INTEG, 4 RECIP. [DESIGN CHOICE (log 23)] -/
def listedUnits (k : Nat) : List Nat :=
  if k < 8 then (if k = Config.romPrologue 0 % 8 then [3] else []) ++ (if k = Config.romPrologue 1 % 8 then [2] else [])
  else match k with
  | 0x009 => [0, 2] | 0x00A => [0, 4] | 0x013 => [2] | 0x015 => [1] | 0x017 => [0] | 0x019 => [1, 2]
  | 0x01D => [0] | 0x01E => [0] | 0x01F => [0] | 0x020 => [0] | 0x021 => [0] | 0x023 => [3] | 0x025 => [3] | 0x027 => [0]
  | 0x029 => [1] | 0x02D => [1] | 0x031 => [1] | 0x035 => [0] | 0x037 => [0] | 0x038 => [0] | 0x039 => [1, 2] | _ => []

/-- The residue-checked units of a microword (06 Tables 6-1, 6-2, 6-4). -/
def checkedUnits (w : Nat) : List Nat :=
  (if mw w 83 80 != 0 then [0] else []) ++ (if mw w 36 34 != 0 then [1] else []) ++ (if mw w 59 57 != 0 then [2] else []) ++
    (if mw w 115 114 != 0 then [3] else []) ++ (if mw w 160 158 != 0 then [4] else [])

/-- The residue-checked units of ROM word k (07 R175, R506): those of its bits, which the spec does not print, and those of Table
7-10. The prologue of 0x0003 issues no MAC0 or RECIP (R506), and its first MAC0 is that of word 0x015 (05, the example of R134). A commit word
(`commit`) ends as it issues, so that Table 7-1 holds: it has none but ADD, whose result is written in that cycle, and word 0x03E has none. [DESIGN CHOICE (log 23)] -/
def romUnits (k : Nat) (commit : Bool) : List Nat :=
  if k = 0x03E then []
  else (List.range 5).filter (fun u => (listedUnits k).contains u ||
    ((!commit || u == 0) && (checkedUnits (Config.romWord k).toNat).contains u && !(u == 1 && decide (k < 0x015)) &&
      !(u == 4 && decide (k < 0x009))))

/-- The inbound registers and accumulators that a unit of a word of 0x0003 reads, as Table 7-10 names them (07 R184). -/
def romSrcs (k u : Nat) : List Nat :=
  if u = 3 then [32] else if k = 0x009 then [24] else if k = 0x00A ∧ u = 4 then [25] else if k = 0x015 ∧ u = 1 then [26] else []

/-- Words of ROM template jobs carry the residue-checked operations of their listing (07 R175, R506), whose values the law
gives. -/
def Dev.lawOps (d : Dev) (n : Nat) (r : Running) (id k : Nat) (commit : Bool) : List InFlight :=
  let units := romUnits k commit
  (laneList r.lanes).flatMap (fun i =>
    let c : IssueAt := ⟨id, n, i, d.cyc n, d.tick, false⟩
    let l := d.lane n i
    let op : Nat → LaneUnit → List InFlight := fun u y =>
      if units.contains u then [(c.op y .none ⟨0, 0, false, false⟩).seal l (if k < 64 then romSrcs k u else [])] else []
    op 0 .add ++ op 1 .mac0 ++ op 2 .mac1 ++ op 3 .integ ++ op 4 .rcp)

/-- What the law of a job reads in lane i. -/
def Dev.lawIn (d : Dev) (n i : Nat) : LawIn :=
  let l := d.lane n i
  let c := fun w => d.load (laneMem n i (4 * w)) 4
  { c := c
    slot := fun k sub => match sub with
      | some w => if d.inbBound n i (24 + k) then l.vr (24 + k) else c w
      | none => l.vr (24 + k)
    acc0 := l.accs 0
    acc1 := l.accs 1
    lin := fun x =>
      let t := tblDesc (c 0)
      tblValue t false x 0 (fun k => d.q31 (mwMem n i t.space (t.data + 4 * k))) }

/-- A register a template leaves with a value the spec does not give. [DESIGN CHOICE (log 24)] -/
def freeWord (k : Nat) : W32 := (Config.freeValue k).truncate 32

/-- The registers of a lane after the words of a ROM template: the accumulators by its law, the others free (07 R506). [DESIGN CHOICE (log 24)] -/
def Lane.afterLaw (l : Lane) (o : LawOut) (seed : Nat) (bound : Nat → Bool) : Lane :=
  let l' : Lane := { l with
    v := (List.range 32).foldl (fun t r => if bound r then t else Table.put 0 t r (freeWord (seed + r))) l.v
    p := (List.range 4).foldl (fun t k => Table.put 0 t k ((freeWord (seed + 32 + k)).truncate 16)) l.p
    acc := Table.put 0 (Table.put 0 l.acc 0 (BitVec.ofInt 64 o.acc0)) 1 (BitVec.ofInt 64 o.acc1)
    pred := bitAt (freeWord (seed + 36)) 0
    satLim := bitAt (freeWord (seed + 36)) 1
    satDir := bitAt (freeWord (seed + 36)) 2
    satArith := bitAt (freeWord (seed + 36)) 3
    fpnan := l.fpnan || o.nan }
  l'.renew (((List.range 52).filter (fun k => !bound k)) ++ [60, 61, 62, 63, 64])

/-- The law of a template job is computed for one lane. -/
def Dev.runLaw (d : Dev) (n prog : Nat) (pair : Bool) (i : Nat) : Dev :=
  let o := lawOf prog pair (d.laneView.lawIn n i)
  let seed := d.fresh
  let d := { d with fresh := seed + 37 }
  let d := d.setLane n i ((d.lane n i).afterLaw o seed (d.inbBound n i))
  let d := o.state.foldl (fun d e => d.laneStore (laneMem n i (4 * e.1)) e.2) d
  match (d.sash n).job with
  | some r =>
    let outs := (List.range o.commits.length).map (fun b => (b, i, o.commits.getD b 0))
    d.setSash n { d.sash n with job := some { r with lawOut := r.lawOut ++ outs } }
  | none => d

/-- The words that the table of a law reads in lane i: its descriptor and the two nodes (07 R179, 06 R144). -/
def Dev.lawNodes (d : Dev) (n i : Nat) : List Nat :=
  let x := d.lawIn n i
  let t := tblDesc (x.c 0)
  laneMem n i 0 :: (if !t.ok false then [] else
    (tblNodes t false (codeOf 32 x.ys) 0).map (fun k => mwMem n i t.space (t.data + 4 * k)))

/-- The fault that the TBL of a law meets in lane i: poison, or a bad descriptor (05 R123, 06 R144). -/
def Dev.lawTblFault (d : Dev) (n prog i : Nat) : Option LaneFault :=
  if 5 ≤ prog then none
  else if d.poisoned (laneMem n i 0) then some (5, 2)
  else if !(tblDesc (d.load (laneMem n i 0) 4)).ok false then some (7, 4)
  else if (d.lawNodes n i).any d.poisoned then some (5, 2)
  else none

/-- The fault that the k-th word of a template meets in lane i: its loads and its TBL read poison, or a bad descriptor (05 R123, 06
R144, 07 R506). [DEDUCED (log 26)] -/
def Dev.lawFault (d : Dev) (n prog i k : Nat) : Option LaneFault :=
  if (lawReads prog).any (fun w => d.poisoned (laneMem n i (4 * w)) && loadStep prog w == k) then some (5, 2)
  else match d.lawTblFault n prog i with
    | some f => if k = tblStep prog then some f else none
    | none => none

/-- The words of lane memory that the k-th word of a template reads in lane i. [DEDUCED (log 159)] -/
def Dev.lawFetches (d : Dev) (n prog i k : Nat) : List Nat :=
  ((lawReads prog).filter (fun w => loadStep prog w == k)).map (fun w => laneMem n i (4 * w)) ++
    (if prog ≤ 4 ∧ k = tblStep prog then d.lawNodes n i else [])

/-- Words are read and decoded (05 R123). -/
def Dev.readErrs (d : Dev) (l : List Nat) : Dev := if d.upsets.isEmpty then d else l.foldl (fun d a => d.readErr a 4) d

/-- What the lanes read in this cycle, the words they read being decoded (05 R121, R123). -/
def Dev.laneReads (d : Dev) (l : List Nat) : Dev := d.laneView.readErrs l

/-- A word of a ROM template job issues (07 R173-R175, Table 7-1): the prologue, the waiting word, the law at the first word after
the wake, the commit words, END. [DEDUCED (log 155); DESIGN CHOICE (log 23)] -/
def Dev.lawIssue (d : Dev) (n prog : Nat) (r : Running) : Dev :=
  let k := (d.sash n).pc % 4096
  let idx := r.step
  let tm := lawTiming prog
  let id := (d.sash n).nextWord
  let d := d.noteIssue n r
  let reads := (laneList r.lanes).flatMap (fun i => d.laneView.lawFetches n prog i idx)
  let d := d.readErrs reads
  let v := d.laneReads reads
  match (laneList r.lanes).findSome? (fun i => (v.lawFault n prog i idx).map (fun f => (i, f))) with
  | some (i, f) => d.laneFault n i f.1 f.2 (k + 2 ^ 13) false
  | none =>
    let d := if idx = tm.1 + 1 then (laneList r.lanes).foldl (fun d i => d.runLaw n prog r.pair i) d else d
    let out := match (d.sash n).job with | some r => r.lawOut | none => []
    let first := tm.1 + tm.2.1
    let b := idx - first
    let commits := if idx < first ∨ (!r.pair && prog ≤ 4 && 0 < b) then []
      else (out.filter (fun e => e.1 == b)).map (fun e => (e.2.1, e.2.2))
    let w : WordRec := { id := id, addr := k, rom := true, bank := false, issue := d.cyc n, slot := b + 1, commits := commits }
    let x := d.sash n
    let d := d.setSash n { x with
      words := x.words ++ [w], ops := x.ops ++ d.lawOps n r id k (decide (first ≤ idx)), pc := 4096 + romAddr prog (idx + 1) }
    match (d.sash n).job with
    | none => d
    | some r =>
      let r := { r with step := idx + 1 }
      if idx = tm.1 then d.setPhase n r (.waiting 1 255 (d.cyc n) 0)
      else if idx + 1 = lawWords prog then d.setPhase n r .ended
      else d.setPhase n r .run

/-- The 192 bits at the program counter, or a fetch fault (06 R151). -/
def Dev.mwFetch (d : Dev) (n : Nat) : Option Nat :=
  let x := d.sash n
  if x.pc < 4096 then
    let b := d.csActive n
    if (if b then x.lenB else x.lenA) ≤ x.pc then none
    else some (d.load (sashBase n + (if b then 0x20000 else 0) + 24 * x.pc) 24)
  else if x.pc < 4096 + 512 then some (Config.romWord (x.pc - 4096)).toNat
  else none

/-- A word's codes are not reserved, and a waiting word's SOP is NEXT (06 Tables 6-2, 6-4, 6-8, 6-10, R156). -/
def mwLegal (w : Nat) : Bool :=
  mw w 160 158 != 7 && mw w 128 127 != 3 && decide (mw w 3 0 < 12) && decide (mw w 25 20 < 0x2E) &&
    (mw w 25 20 == 0 || mw w 3 0 == 0)

/-- A word issues to every enabled lane (05 R114, 06 R148-R150). [DEDUCED (log 155)] -/
def Dev.mwIssue (d : Dev) (n : Nat) (r : Running) (w : Nat) : Dev :=
  let x0 := d.sash n
  let id := x0.nextWord
  let rom := decide (4096 ≤ x0.pc)
  let here := (x0.pc % 4096) + b2n (d.csActive n && !rom) * 2 ^ 12 + b2n rom * 2 ^ 13
  let d := d.noteIssue n r
  let r := match (d.sash n).job with | some r => r | none => r
  let pw := mw w 191 191 == 1
  let at_ := fun i => (⟨id, n, i, d.cyc n, d.tick, pw && !(d.lane n i).pred⟩ : IssueAt)
  let ls := laneList r.lanes
  let reads := ls.flatMap (fun i => d.laneView.mwReads n i (d.lane n i) w)
  let d := d.readErrs reads
  let v := d.laneReads reads
  match ls.findSome? (fun i => match v.mwOps (at_ i) (d.lane n i) w with | .error f => some (i, f) | .ok _ => none) with
  | some (i, f) => d.laneFault n i f.1 f.2 here false
  | none =>
    match d.sequence n r (d.sash n) w with
    | none => d.laneFault n (lane0 r.lanes) 7 4 here false
    | some (x, ends) =>
      let ops := ls.flatMap (fun i => match v.mwOps (at_ i) (d.lane n i) w with | .error _ => [] | .ok l => l)
      let stores := ls.flatMap (fun i => mwStore (at_ i) (d.lane n i) w)
      let slot := mw w 185 183
      let commits := if slot = 0 then [] else
        (ls.filter (fun i => !(at_ i).mute)).map (fun i => (i, (d.lane n i).vr (mw w 190 186)))
      let rec_ : WordRec := { id := id, addr := x0.pc % 4096, rom := rom, bank := d.csActive n, issue := d.cyc n,
                              stores := stores, slot := slot, commits := commits }
      let d := d.setSash n { x with words := x.words ++ [rec_], ops := x.ops ++ ops }
      if ends then d.setPhase n r .ended
      else if mw w 25 20 ≠ 0 then d.setPhase n r (.waiting (mw w 25 20) (mw w 33 26) (d.cyc n) (mw w 19 7))
      else d

/-- The sequencer fetches and issues a word (05 R114, 06 R151): `found` tells what the fetched word's code
said, `errs` which words of memory have gone wrong by now, correctably or (true) not (05 R123). [DEDUCED (log 35); DESIGN CHOICE (log 82)] -/
def Dev.microwordIssue (d : Dev) (n : Nat) (found : CodeCheck) (errs : List (Nat × Bool)) : Dev :=
  let d := d.upset errs
  match (d.sash n).job with
  | none => d
  | some r =>
    if !d.canIssue n then d
    else
      let p := pgSash n
      let x := d.sash n
      let rom := decide (4096 ≤ x.pc)
      let here := (x.pc % 4096) + b2n (d.csActive n && !rom) * 2 ^ 12 + b2n rom * 2 ^ 13
      let d := if found = .corrected then d.inc p F.CS_ECC_CORR else d
      if found = .uncorrectable then (d.inc p F.CS_ECC_UNCORR).laneFault n (lane0 r.lanes) 7 4 here false
      else match r.law with
        | some prog => d.lawIssue n prog r
        | none => match d.mwFetch n with
          | none => d.laneFault n (lane0 r.lanes) 7 4 here false
          | some w => if mwLegal w then d.mwIssue n r w else d.laneFault n (lane0 r.lanes) 7 4 here false

/-- A delivery reaches its destinations (05 R126): registers of every bound slot, after ERROR-point injection (09 R211), and the
monitors. `lo` and `hi` bound the casements. -/
def Dev.deliverTo (d : Dev) (lo hi : Nat) (v : Delivery) : Dev :=
  let d := d.forN (32 * 4 * (hi - lo)) (fun q d =>
    let n := 4 * lo + q / 32
    let i := q / 8 % 4
    let k := q % 8
    let d := if q % 32 = 0 then d.injDue n else d
    if d.domOn (domCas (n / 4)) && srcIs (d.reg (pgSash n + 0x100 + 0x20 * i + 4 * k)).toNat v.cls v.idx then
      let l := d.lane n i
      let val := if d.injActs n 1 i none && d.f (pgInj n) F.INJ_CTRL_SLOT == k then
        codeOf 32 (satI 32 (signedOf 32 v.val - d.injG n)) else v.val
      let l' : Lane := { l with
        v := Table.put 0 l.v (24 + k) (BitVec.ofNat 32 val)
        t := Table.put 0 l.t k (BitVec.ofNat 64 v.stamp) }
      d.setLane n i (l'.renew [24 + k, 52 + k])
    else d)
  d.monArrive lo hi v.cls v.idx v.val v.stamp

/-- The casements a delivery can reach: its own, or those of its wing for an encoder (05 R125). -/
def Delivery.reach (v : Delivery) : Nat × Nat :=
  if v.cls = 4 then (8 * v.place, 8 * v.place + 8) else (v.place, v.place + 1)

/-- The first delivery that is due arrives (05 R126). -/
def Dev.inboundDelivery (d : Dev) : Dev :=
  match d.deliveries.find? (fun v => decide (v.due ≤ d.tick)) with
  | none => d
  | some v => { d with deliveries := d.deliveries.erase v }.deliverTo v.reach.1 v.reach.2 v

/-- Counts flits sent again or dropped (05 R137). -/
def Dev.xport (d : Dev) (n : Nat) (drop : Bool) : Dev :=
  let p := pgSash n
  if drop then ((d.inc p F.XPORT_CNT_DROP).setB p F.SASH_STATUS_XPORT_DROP true).irq p 2
  else d.inc p F.XPORT_CNT_RETRY

/-- The sashes of a delivery with a slot bound to it. -/
def Dev.boundSashes (d : Dev) (v : Delivery) : List Nat :=
  ((List.range (4 * (v.reach.2 - v.reach.1))).map (· + 4 * v.reach.1)).filter (fun n =>
    (List.range 32).any (fun q => srcIs (d.reg (pgSash n + 0x100 + 4 * q)).toNat v.cls v.idx))

/-- The k-th delivery's flit fails its CRC (05 R137): sent again 8 ticks later, or dropped the second time. [DEDUCED (log 156)] -/
def Dev.retryDelivery (d : Dev) (k : Nat) : Dev :=
  match d.deliveries[k]? with
  | none => d
  | some v =>
    let d := (d.boundSashes v).foldl (fun d n => d.xport n v.retried) d
    if v.retried then { d with deliveries := d.deliveries.eraseIdx k }
    else { d with deliveries := d.deliveries.set k { v with due := v.due + 8, retried := true } }

/-- The k-th commit flit fails its CRC (05 R137): a dropped one ends its job as a lane fault, cause TRANSPORT. -/
def Dev.retryCommit (d : Dev) (k : Nat) : Dev :=
  match d.flits[k]? with
  | none => d
  | some f =>
    if f.since.isSome then d
    else
      let d := d.xport f.sash f.retried
      if f.retried then
        let d := { d with flits := d.flits.eraseIdx k }
        match (d.sash f.sash).job with
        | some r => if r.job.id = f.job then d.laneFault f.sash f.lane 6 3 f.word false else d
        | none => d
      else { d with flits := d.flits.set k { f with due := f.due + 8, retried := true } }

/-- A line on its way into sash or lane memory, at byte a, fails its CRC (05 R137): counted, and poisoned when it is dropped; a line of a
streamer when its transfer writes it. [DESIGN CHOICE (log 82)] -/
def Dev.retryLine (d : Dev) (n a : Nat) (again streamed : Bool) : Dev :=
  let d := d.xport n again
  if !again then d
  else if streamed then { d with lostLines := a / 64 * 64 :: d.lostLines }
  else d.setPoison a true

/-- A fabric access from or to sash n fails its CRC (05 R137): when it is dropped its requester gets an error response. [DESIGN CHOICE (log 82)] -/
def Dev.retryAccess (d : Dev) (n : Nat) (again : Bool) : Dev :=
  let d := d.xport n again
  if again then { d with resp := { error := some 0 } } else d

/-- A flit fails its CRC (05 R137). -/
def Dev.flitRetry (d : Dev) (x : FlitPlace) : Dev :=
  match x with
  | .delivery k => d.retryDelivery k
  | .commit k => d.retryCommit k
  | .line n i a streamed again =>
    d.retryLine n (match i with | some i => laneMem n i a | none => sashMem n a) again streamed
  | .access n again => d.retryAccess n again

/-- Registers of a lane at a job's start (05 R112, 06 R154). [DEDUCED (log 37)] -/
def Lane.start (l : Lane) (bound : Nat → Bool) (post : Nat) : Lane :=
  { v := Table.keep bound l.v
    t := Table.keep (fun k => bound (24 + k)) l.t
    res := Table.keep (fun k => bound k || (decide (52 ≤ k) && decide (k < 60) && bound (k - 28))) l.res
    floor := (List.range 8).foldl (fun t k => Table.put 0 t k post) [] }

/-- One lane's context is copied at dequeue (08 R194): lines with their poison, then the accumulators. -/
def Dev.copyContext (d : Dev) (n i : Nat) (j : Job) : Dev :=
  let src := j.ctxAddr + i * j.stride
  let d := { d.copyLines src (laneMem n i 0) j.ctxLines with present := d.present }
  let l := d.lane n i
  let l' : Lane := { l with
    acc := (List.range j.accN).foldl (fun t k => Table.put 0 t k (BitVec.ofNat 64 (d.load (laneMem n i (8 * k)) 8))) l.acc }
  d.setLane n i (l'.renew ((List.range j.accN).map (· + 32)))

/-- One lane's template context is copied at dequeue, as it stood at the start of the cycle (07 R168). -/
def Dev.copyTemplate (d : Dev) (n i t : Nat) : Dev :=
  let s := d.atCycle
  let d := d.forN 240 (fun w d => d.store (laneMem n i (4 * w)) 4 (s.tc t i w))
  let d := (d.forN 15 (fun k d => d.setPoison (laneMem n i (64 * k)) false)).clearUpsets (laneMem n i 0) 960
  let l := d.lane n i
  let acc := Table.put 0 l.acc 0 (BitVec.ofNat 64 (s.tc t i 192 + s.tc t i 193 * 2 ^ 32))
  let acc := if d.f (tplBase t) F.TPL_CTRL_PROG = 5 then
    Table.put 0 acc 1 (BitVec.ofNat 64 (s.tc t i 194 + s.tc t i 195 * 2 ^ 32)) else acc
  let l' : Lane := { l with acc := acc }
  d.setLane n i (l'.renew [32, 33])

/-- REFERENCE-point injection at dequeue (09 R211). -/
def Dev.injectRef (d : Dev) (n i : Nat) (j : Job) : Dev :=
  if j.home = n / 4 ∧ d.injActs n 0 i (some j.desc) = true then
    let a := laneMem n i (4 * d.f (pgInj n) F.INJ_CTRL_WORD)
    d.store a 4 (codeOf 32 (satI 32 (d.q31 a + d.injG n)))
  else d

/-- Sash n takes a job (08 R192, R194; 06 R154; 07 R168-R170). [DEDUCED (log 37)] -/
def Dev.takeJob (d : Dev) (n : Nat) (j : Job) (entry : Nat) (stolen : Bool) : Dev :=
  let p := pgSash n
  let tpl := if j.tplJob then some j.tplPage else none
  let mask := match tpl with | some t => d.f (tplBase t) F.TPL_CTRL_LANES | none => j.laneMask
  let lanes := d.f p F.SASH_CTRL_LANE_EN &&& mask
  let law := if 4096 ≤ entry then some (d.jobProg j) else none
  let pair := match tpl with | some t => d.on (tplBase t) F.TPL_CTRL_OUTMODE | none => true
  let run : Running := { job := j, lanes := lanes, entry := entry, tpl := tpl, law := law, stolen := stolen, pair := pair }
  let d := d.injDue n
  let x := d.sash n
  let c := n / 4
  let ev : Nat → Nat := d.pulsesSeen (some c)
  let d := d.setQueue j.home ((d.queue j.home).erase j)
  let d := d.setSash n { x with
    job := some run, pc := entry, stack := [], lc0 := 0, lc1 := 0, tw := [], words := [], ops := []
    freeze := none
    evMark := (List.range 16).foldl (fun t k => Table.put 0 t k (ev (d.f p (F.EVSEL_EVENT.at (4 * k))))) []
    evWas := []
    tlMark := (List.range 2).foldl (fun t h => Table.put 0 t h (ev (evCas c (98 + 3 * h)))) []
    sibMark := (List.range 4).foldl (fun t s => Table.put 0 t s (ev (evCas c (84 + s)))) [] }
  let d := (laneList lanes).foldl (fun (d : Dev) i => d.setLane n i ((d.lane n i).start (d.inbBound n i) j.post)) d
  let d : Dev := match tpl with
    | some t => ((laneList mask).foldl (fun (d : Dev) i => d.copyTemplate n i t) d).setB (tplBase t) F.TPL_STATUS_IN_USE true
    | none => (laneList lanes).foldl (fun (d : Dev) i => d.copyContext n i j) d
  let d := if stolen then d else (laneList lanes).foldl (fun (d : Dev) i => d.injectRef n i j) d
  ((d.setB p F.SASH_STATUS_RUNNING true).setB p F.PC_SNAP_RUN true).jqRefresh j.home

/-- Sash n is at its job boundary and may take a job: no job, no pending swap (06 R155). -/
def Dev.atBoundary (d : Dev) (n : Nat) : Bool :=
  d.sashServes n && (d.sash n).job.isNone && !d.on (pgSash n) F.CS_STAT_SWAP_PENDING && !d.clocksStill

/-- Sash n can take job j of its home queue (08 R192), at the entry given. -/
def Dev.canTake (d : Dev) (n : Nat) (j : Job) : Option Nat :=
  let tplOk := !j.tplJob || (d.en (tplBase j.tplPage) && !d.on (tplBase j.tplPage) F.TPL_STATUS_IN_USE)
  if d.available j && (d.jqModeNow (n / 4) != 0 || n % 4 == j.pin) && tplOk && d.descIdle j.home j.desc then
    d.resolve n (d.jobProg j)
  else none

/-- The oldest job of a list that a test admits, with what the test answers. -/
def firstJob (ok : Job → Option Nat) (q : List Job) : Option (Job × Nat) :=
  q.findSome? (fun j => (ok j).map (fun e => (j, e)))

/-- What a sash takes in a cycle: the sash, the job, and its entry. -/
abbrev Choice := Nat × Job × Nat

/-- A job can no longer be taken once others are: it is one of them, or shares its descriptor or its template page with one (08 R192, R193,
07 R170). -/
def Job.gone (j : Job) (l : List Choice) : Bool :=
  l.any (fun x => x.2.1 == j || (x.2.1.home == j.home && x.2.1.desc == j.desc) ||
    (x.2.1.tplJob && j.tplJob && x.2.1.tplPage == j.tplPage))

/-- What the sashes of casement c at their job boundaries take in this cycle, in ascending sash number, each from the jobs left by those
before it (08 R192). -/
def Dev.homeChoices (d : Dev) (c : Nat) : List Choice :=
  ((List.range 4).map (· + 4 * c)).foldl (fun l n =>
    if !d.atBoundary n then l
    else match firstJob (fun j => if j.gone l then none else d.canTake n j) (d.queue c) with
      | none => l
      | some (j, e) => l ++ [(n, j, e)]) []

/-- A sash at its job boundary takes the oldest eligible job of its queue (08 R192). -/
def Dev.jobDequeue (d : Dev) (n : Nat) : Dev :=
  match (d.homeChoices (n / 4)).find? (fun x => x.1 == n) with
  | none => d
  | some (_, j, e) => d.takeJob n j e false

/-- Thief n may take job j of another casement (08 R196, R202). -/
def Dev.canSteal (d : Dev) (n : Nat) (j : Job) : Option Nat :=
  let w := n / 4 / 8
  let inTime := match j.deadline with | some t => decide (d.count + j.slack ≤ t) | none => true
  if d.available j && d.atCycle.live (pgWing w) && d.jqModeNow j.home == 2 && !j.tplJob && j.wingContext && j.slack != 0 && inTime &&
      decide (j.post + d.f (pgWing w) F.WS_AGE_STEAL_AGE ≤ d.count) && d.descIdle j.home j.desc then
    d.resolve n j.prog
  else none

/-- What thief n takes of the other casements of its wing, in cyclic order, from what those in `l` leave (08 R196). -/
def Dev.thiefJob (d : Dev) (n : Nat) (l : List Choice) : Option (Job × Nat) :=
  let c := n / 4
  let homes := (List.range 7).map (fun k => 8 * (c / 8) + (c % 8 + 1 + k) % 8)
  homes.findSome? (fun h => firstJob (fun j => if j.gone l then none else d.canSteal n j) (d.queue h))

/-- What the sashes of wing w take in this cycle: first the home sashes, then the thieves in ascending sash number (08 R192, R196). -/
def Dev.wingChoices (d : Dev) (w : Nat) : List Choice × List Choice :=
  let homes := (List.range 8).flatMap (fun k => d.homeChoices (8 * w + k))
  (homes, ((List.range 32).map (· + 32 * w)).foldl (fun l n =>
    if !d.atBoundary n || d.jqModeNow (n / 4) != 2 || homes.any (fun x => x.1 == n) then l
    else match d.thiefJob n (homes ++ l) with
      | none => l
      | some (j, e) => l ++ [(n, j, e)]) [])

/-- An idle sash steals an eligible job of another casement of its wing (08 R196, R197). -/
def Dev.jobSteal (d : Dev) (n : Nat) : Dev :=
  let c := n / 4
  let w := c / 8
  match (d.wingChoices w).2.find? (fun x => x.1 == n) with
  | none => d
  | some (_, j, e) =>
    let d := d.takeJob n j e true
    let d := (d.inc (pgJq j.home) F.JQ_STOLEN_STOLEN).inc (pgJq c) F.JQ_THEFTS_THEFTS
    let d := d.inc (pgWing w) F.WS_STEALS_STEALS
    d.setReg (pgWing w + 0x4C) (BitVec.ofNat 32 (n + j.home * 2 ^ 8 + j.desc * 2 ^ 12))

/-- A job is complete (08 R195, 07 R171, 13 R292, 09 R214). [DEDUCED (log 44)] -/
def Dev.jobDone (d : Dev) (n : Nat) (r : Running) (record : Bool) : Dev :=
  let d := ((d.noteEnd r.job 1).pulse (evCas (n / 4) (80 + n % 4))).inc (pgJq r.job.home) F.JQ_DONE_DONE
  let d := d.endRun n
  let d := d.wdCasFeed r.job.home (some r.job.desc) none
  if record && !r.stolen then d.capForm n r.job.desc r.cap else d

/-- The last result of a job that issued END is written (06 R155): its write-back begins; a disabled template page's is
skipped (07 R172). [DEDUCED (log 34)] -/
def Dev.jobEnd (d : Dev) (n : Nat) : Dev :=
  let x := d.sash n
  match x.job with
  | none => d
  | some r =>
    if r.phase ≠ .ended ∨ x.ops ≠ [] ∨ x.words ≠ [] ∨ x.freeze ≠ none ∨ r.dropped ∨ r.missed then d
    else
      let r := { r with cap := d.capValues n (lane0 r.lanes) r.committed }
      let d := if (laneList r.lanes).any (fun i => (d.lane n i).fpnan) then d.setB (pgSash n) F.SASH_STATUS_FPNAN true else d
      match r.tpl with
      | some t => if d.en (tplBase t) then d.setPhase n r .writeBack else d.jobDone n r false
      | none =>
        let d := (laneList r.lanes).foldl (fun d i =>
          (d.forN r.job.accN (fun k d => d.store (laneMem n i (8 * k)) 8 (Table.get 0 (d.lane n i).acc k).toNat)).clearUpsets
            (laneMem n i 0) (8 * r.job.accN)) d
        d.setPhase n r .writeBack

/-- State word w of lane i is written back (07 R171), unless software wrote it meanwhile: the accumulators in their words, of which 0x0006
has none (R183), the others from lane memory. -/
def Dev.writeBackWord (d : Dev) (n t i w : Nat) (r : Running) : Dev :=
  let l := d.lane n i
  let prog5 := d.f (tplBase t) F.TPL_CTRL_PROG == 5
  let prog6 := d.f (tplBase t) F.TPL_CTRL_PROG == 6
  let v := if (w = 192 ∨ w = 193) ∧ prog6 = false then nbits (Table.get 0 l.acc 0).toNat (32 * (w - 192)) 32
    else if prog5 && (w == 194 || w == 195) then nbits (Table.get 0 l.acc 1).toNat (32 * (w - 194)) 32
    else d.load (laneMem n i (4 * w)) 4
  if r.kept.contains (256 * i + w) then ((d.setB (tplBase t) F.TPL_STATUS_WB_KEPT true).irq (tplBase t) 1)
  else d.setReg (tplBase t + tcOfs i w) (BitVec.ofNat 32 v)

/-- A completed template job writes its state words back (07 R171). -/
def Dev.tplWriteBack (d : Dev) (n : Nat) : Dev :=
  match (d.sash n).job with
  | none => d
  | some r => match r.tpl with
    | none => d
    | some t =>
      if r.phase ≠ .writeBack then d
      else
        let p := tplBase t
        if !d.en p then d.jobDone n r false
        else
          let d := (laneList r.lanes).foldl (fun d i => d.forN 48 (fun k d => d.writeBackWord n t i (192 + k) r)) d
          let d := (d.inc p F.TPL_RUNS_RUNS).setR64 p 0x50 d.count
          d.jobDone n r true

/-- Software writes a context word of page t while a job of it runs: a state word is kept (07 R171). -/
def Dev.tplKeep (d : Dev) (t i w : Nat) : Dev :=
  let prog5 := d.f (tplBase t) F.TPL_CTRL_PROG == 5
  let ws := if w = 192 ∨ w = 193 then [192, 193] else if prog5 && (w == 194 || w == 195) then [194, 195] else [w]
  if w < 192 then d
  else d.forN 64 (fun n d =>
    match (d.sash n).job with
    | some r => if r.tpl = some t then
        d.setSash n { d.sash n with job := some { r with kept := ws.map (fun x => 256 * i + x) ++ r.kept } } else d
    | none => d)

/-- A user job's write-back completes (08 R195). -/
def Dev.jobWriteBack (d : Dev) (n : Nat) : Dev :=
  match (d.sash n).job with
  | none => d
  | some r =>
    if r.phase ≠ .writeBack ∨ r.tpl ≠ none then d
    else
      let d := (laneList r.lanes).foldl (fun d i =>
        d.forN r.job.wbLines (fun k d =>
          let dst := r.job.ctxAddr + i * r.job.stride + 64 * k
          let src := laneMem n i (64 * k)
          d.copyLines src dst 1)) d
      d.jobDone n r true

/-- A running job whose deadline has come before its last commit is a miss (04 R103, 08 R198); it ends with its tick, until which a lane fault
of it is recorded beside the miss (05 R138). -/
def Dev.missRunning (d : Dev) (n : Nat) : Dev :=
  match (d.sash n).job with
  | none => d
  | some r => match r.job.deadline with
    | none => d
    | some t =>
      if d.count < t || d.lastCommitDone n r || r.missed then d
      else
        let d := d.recordMiss r.job
        d.setSash n { d.sash n with job := some { r with missed := true } }

/-- A job that missed its deadline is aborted, and its fallback is to be posted (04 R103, 08 R199). -/
def Dev.missEnd (d : Dev) (n : Nat) : Dev :=
  match (d.sash n).job with
  | none => d
  | some r => if r.missed then (d.failJob r.job n [9]).endRun n else d

/-- The jobs that missed their deadlines in a tick end with it. -/
def Dev.missesEnd (d : Dev) : Dev := d.sashes.foldl (fun d e => d.missEnd e.1) d

/-- A pending swap inverts the active bank (06 R164): at a job boundary, or with no job running in a cycle after that of the request. -/
def Dev.bankSwap (d : Dev) (n : Nat) : Dev :=
  let p := pgSash n
  if d.on p F.CS_STAT_SWAP_PENDING && (d.sash n).job.isNone && decide ((d.sash n).swapAt ≤ d.tick / 2) && d.domOn (domCas (n / 4)) then
    let d := d.setB p F.CS_STAT_ACTIVE (!d.csActive n)
    ((d.setB p F.CS_STAT_SWAP_PENDING false).setF p F.CS_STAT_RESULT 7).irq p 4
  else d

/-- UCODE_VER of the inactive bank. -/
def Dev.inactiveVer (d : Dev) (n : Nat) : Fld := if d.csActive n then F.UCODE_VER_A_VER else F.UCODE_VER_B_VER

/-- RESULT of a load command. -/
def Dev.loadResult (d : Dev) (n code : Nat) : Dev := d.setF (pgSash n) F.CS_STAT_RESULT code

/-- OPEN := 1 (06 R164, R165). [DEDUCED (log 6)] -/
def Dev.loadOpen (d : Dev) (n : Nat) : Dev :=
  let p := pgSash n
  if d.on p F.CS_STAT_SWAP_PENDING || d.on p F.CS_STAT_CHECKING then d.loadResult n 8
  else
    let d := d.setF p (d.inactiveVer n) 0
    (d.setB p F.LOAD_CTRL_OPEN true).setB p F.CS_STAT_OPEN true

/-- CHECK (06 R164, R165). -/
def Dev.loadCheck (d : Dev) (n : Nat) : Dev :=
  let p := pgSash n
  if !d.on p F.CS_STAT_OPEN then d.loadResult n 8
  else
    let d := ((d.setB p F.LOAD_CTRL_OPEN false).setB p F.CS_STAT_OPEN false).setB p F.CS_STAT_CHECKING true
    d.setSash n { d.sash n with check := some (d.f p F.LOAD_VER_VER, d.f p F.LOAD_LEN_LEN, d.f p F.LOAD_CRC_CRC) }

/-- SWAP (06 R164, R165). -/
def Dev.loadSwap (d : Dev) (n : Nat) : Dev :=
  let p := pgSash n
  if d.f p (d.inactiveVer n) = 0 ∨ d.on p F.CS_STAT_OPEN = true ∨ d.on p F.CS_STAT_CHECKING = true then d.loadResult n 8
  else (d.setB p F.CS_STAT_SWAP_PENDING true).setSash n { d.sash n with swapAt := d.tick / 2 + 1 }

/-- CANCEL (06 R165). -/
def Dev.loadCancel (d : Dev) (n : Nat) : Dev :=
  let p := pgSash n
  if d.on p F.CS_STAT_SWAP_PENDING then (d.setB p F.CS_STAT_SWAP_PENDING false).loadResult n 9 else d.loadResult n 8

/-- OPEN := 0 without another command (06 R164). -/
def Dev.loadClose (d : Dev) (n : Nat) : Dev :=
  let p := pgSash n
  (d.setB p F.LOAD_CTRL_OPEN false).setB p F.CS_STAT_OPEN false

/-- A write of LOAD_CTRL (06 R164, R165): its commands in the order OPEN, CHECK, SWAP, CANCEL. -/
def Dev.loadCtrl (d : Dev) (n : Nat) (v : W32) : Dev :=
  let d := if bitAt v 0 then d.loadOpen n
    else if bitAt v 1 || bitAt v 2 || bitAt v 3 then d else d.loadClose n
  let d := if bitAt v 1 then d.loadCheck n else d
  let d := if bitAt v 2 then d.loadSwap n else d
  if bitAt v 3 then d.loadCancel n else d

/-- Directory entries of the inactive bank. -/
def Dev.loadDir (d : Dev) (n : Nat) : List Nat :=
  let o := if d.csActive n then 0x200 else 0x240
  (List.range 16).map (fun e => (d.reg (pgSash n + o + 4 * e)).toNat)

/-- Bytes of an image's VERSION, LENGTH, directory and words in the inactive bank (06 R162). -/
def Dev.loadBytes (d : Dev) (n ver len : Nat) : List Byte :=
  bytesLE 4 ver ++ bytesLE 4 len ++ (d.loadDir n).flatMap (bytesLE 4) ++
    d.bytes (sashBase n + (if d.csActive n then 0 else 0x20000)) (24 * len)

/-- The result of a check, in the order of 06 R164. -/
def Dev.loadJudge (d : Dev) (n ver len crc : Nat) : Nat :=
  let dir := (d.loadDir n).filter (fun v => nbits v 31 1 == 1)
  let ids := dir.map (fun v => nbits v 0 16)
  if ver = 0 ∨ len = 0 ∨ 4096 < len then 3
  else if crc32 (d.loadBytes n ver len) ≠ crc then 2
  else if ids.any (fun i => decide (1 < ids.count i)) then 4
  else if ids.any (fun i => decide (i < 0x100)) then 6
  else if dir.any (fun v => decide (len ≤ nbits v 16 12)) then 5
  else 1

/-- The background check of an image ends (06 R164). -/
def Dev.loadCheckDone (d : Dev) (n : Nat) : Dev :=
  match (d.sash n).check with
  | none => d
  | some (ver, len, crc) =>
    let p := pgSash n
    let res := d.loadJudge n ver len crc
    let x := d.sash n
    let d := d.setSash n (if res = 1 then
        (if d.csActive n then { x with check := none, lenA := len } else { x with check := none, lenB := len })
      else { x with check := none })
    let d := if res = 1 then d.setF p (d.inactiveVer n) ver else d
    (((d.setB p F.CS_STAT_CHECKING false).loadResult n res).irq p 3)

/-- A write of EVSEL_k (06 R157): from the next cycle EVENT_k is the new event, with its latch clear. -/
def Dev.evselWrite (d : Dev) (n k v : Nat) : Dev :=
  let was := if d.evMoved n k then (d.sash n).evWas
    else Table.put (0, 0) (d.sash n).evWas k (d.tick / 2 + 1, Table.get 0 (d.sash n).evMark k)
  let d := d.setF (pgSash n) (F.EVSEL_EVENT.at (4 * k)) v
  let x := d.sash n
  d.setSash n { x with evMark := Table.put 0 x.evMark k (d.pulsesSeen (some (n / 4)) (v % 2048)), evWas := was }

/-- Enabling a sash clears QUARANTINED and its abort count (05 R130). -/
def Dev.sashEnable (d : Dev) (n : Nat) : Dev :=
  (d.setB (pgSash n) F.SASH_STATUS_QUARANTINED false).setSash n { d.sash n with aborts := 0 }

/-- Clearing EN of a sash aborts its job (05 R130). -/
def Dev.sashDisable (d : Dev) (n : Nat) : Dev :=
  let d := d.missEnd n
  (match (d.sash n).job with | some r => d.noteEnd r.job 2 | none => d).endRun n

/-- The enable check of a sash page (05 R131). -/
def Dev.sashCheck (d : Dev) (n : Nat) : List (Nat × Nat) :=
  let p := pgSash n
  (if d.expert p && decide (4 < d.f p F.RES_INJECT_UNIT) then [(0x5C, 2)] else []) ++
  (if d.expert p && d.f p F.RES_INJECT_COUNT == 3 then [(0x5C, 2)] else []) ++
  (List.range 32).flatMap (fun q => d.srcCheck p (n / 4) (d.reg (p + 0x100 + 4 * q)).toNat (0x100 + 4 * q) 0x101 false)

/-- The launch release of fenced commits (04 R94): those that reached their hold in an earlier tick. The truth value
selects them. -/
def Flit.fenced (f : Flit) (c mask now : Nat) : Bool :=
  f.cas == c && (match f.fence with | some g => nbits mask g 1 == 1 | none => false) &&
    (match f.since with | some t => decide (t < now) | none => false)

end Sys2Proof.Machine
end

