-- ==== Sys2Proof/Machine/Launch.lean ====
section
/-!
DEFINITION. Sys2Proof/Machine/Launch.lean: commits reaching their targets (05_loop_engine_architecture.md R127) and the launch tables
(04_time_base_and_launch.md R93-R100).
-/
namespace Sys2Proof.Machine

/-- One lane's share of a commit lands at its target (R127, 08 Table 8-2). -/
def Dev.landShare (d : Dev) (c : Nat) (s : Share) : Dev :=
  let d := match s.kind with
    | 1 => d.pwmWrite (6 * c + s.index) 0 s.val true
    | 2 => d.pwmWrite (6 * c + s.index) 1 s.val true
    | 3 => d.timerCommit c s.index s.val
    | 4 => d.gateCommit c s.index s.val
    | _ => d
  d.commitObserve c s.kind s.index s.val

/-- A commit lands at its targets. -/
def Dev.landFlit (d : Dev) (f : Flit) : Dev := f.shares.foldl (fun d s => d.landShare f.cas s) d

/-- The commits that reach their targets by now: they land in the order of their issue, or hold for a fence (R127, 04 R94). -/
def Dev.commitLand (d : Dev) : Dev :=
  let here : Flit → Bool := fun f => f.since.isNone && decide (f.due ≤ d.tick)
  let now := d.flits.filter (fun f => here f && f.fence.isNone)
  let rest := (d.flits.filter (fun f => !(here f && f.fence.isNone))).map (fun f =>
    if here f then { f with since := some d.tick } else f)
  now.foldl (fun d f => d.landFlit f) { d with flits := rest }

/-- A COMMIT_FENCE releases what was held at the start of the tick (04 R94). -/
def Dev.fenceRelease (d : Dev) (c mask : Nat) : Dev :=
  let go := d.flits.filter (fun f => f.fenced c mask d.tick)
  let rest := d.flits.filter (fun f => !f.fenced c mask d.tick)
  go.foldl (fun d f => d.landFlit f) { d with flits := rest }

/-- The entry page of entry e of casement c, moved to the entry's own registers. -/
def lePage (c e : Nat) : Nat := pgLent c (e / 64) + 0x20 * (e % 64)

/-- LE_TIME. -/
def Dev.leTime (d : Dev) (c e : Nat) : Nat := d.r64 (lePage c e) 0x100

/-- LE_PERIOD. -/
def Dev.lePeriod (d : Dev) (c e : Nat) : Nat := d.r64 (lePage c e) 0x108

/-- The anchor of an entry. [DEDUCED (log 48)] -/
def Dev.anchor (d : Dev) (c e : Nat) : Anchor := Table.get {} d.anchors (256 * c + e)

/-- The entry is anchored in this tick (R95, R97). -/
def Dev.setAnchor (d : Dev) (c e : Nat) : Dev :=
  { d with anchors := Table.put {} d.anchors (256 * c + e) ⟨d.tick, d.count⟩ }

/-- An entry's arming, or a change of its TIME, anchors it (04 R95, R97). -/
def Dev.entryWritten (d : Dev) (before : Dev) (c e : Nat) : Dev :=
  let armed := d.on (lePage c e) F.LE_CTRL_ARM
  if (armed && !before.on (lePage c e) F.LE_CTRL_ARM) || d.leTime c e != before.leTime c e then d.setAnchor c e else d

/-- The entries of an entry page are anchored (R93). -/
def Dev.anchorPage (d : Dev) (c q : Nat) : Dev := d.forN 64 (fun i d => d.setAnchor c (64 * q + i))

/-- An entry page is enabled, or its control page (R93). -/
def Dev.lentEnable (d : Dev) (c q : Nat) : Dev := if d.en (pgLctl c) then d.anchorPage c q else d

/-- The control page is enabled (R93). -/
def Dev.lctlEnable (d : Dev) (c : Nat) : Dev :=
  d.forN 4 (fun q d => if d.en (pgLent c q) then d.anchorPage c q else d)

/-- The scheduled time an entry fires at next: TIME in expert level, else the first frame time past its anchor (R95, R97). -/
def Dev.leDue (d : Dev) (c e : Nat) : Nat :=
  if d.expert (pgLctl c) then d.leTime c e
  else
    let base := d.r64 (pgLctl c) 0x40 + d.leTime c e
    let per := Nat.max 1 (d.f (pgLctl c) F.LNCH_FRAME_PERIOD_PERIOD)
    let a := (d.anchor c e).count
    if a < base then base else base + ((a - base) / per + 1) * per

/-- An entry fires in this tick (R93, R95). -/
def Dev.leFires (d : Dev) (c e : Nat) : Bool :=
  d.en (pgLctl c) && d.en (pgLent c (e / 64)) && d.on (lePage c e) F.LE_CTRL_ARM &&
    decide ((d.anchor c e).tick < d.tick) && decide (d.leDue c e ≤ d.count)

/-- A firing: its entry with the fields as they stood at the start of the tick (R98). -/
structure Firing where
  e : Nat
  time : Nat
  period : Nat
  action : Nat
  arg : Nat
  aux : Nat

/-- The firing of an entry. [DEDUCED (log 49)] -/
def Dev.firing (d : Dev) (c e : Nat) : Firing where
  e := e
  time := d.leDue c e
  period := if d.expert (pgLctl c) then d.lePeriod c e else d.f (pgLctl c) F.LNCH_FRAME_PERIOD_PERIOD
  action := d.f (lePage c e) F.LE_CTRL_ACTION
  arg := d.f (lePage c e) F.LE_ARG_ARG
  aux := d.f (lePage c e) F.LE_AUX_AUX

/-- Repeats passed without a firing are counted (R96, R97). -/
def Dev.leSkipped (d : Dev) (c n : Nat) : Dev :=
  if n = 0 then d else (d.incBy (pgLctl c) F.LNCH_SKIP_CNT_SKIP n).irq (pgLctl c) 1

/-- A late firing is counted (R95, R100). [DEDUCED (log 50)] -/
def Dev.leLate (d : Dev) (c : Nat) (f : Firing) : Dev :=
  if d.count ≤ f.time then d
  else
    let d := d.setB (lePage c f.e) F.LE_CTRL_LATE true
    let d := (d.inc (pgLctl c) F.LNCH_LATE_CNT_LATE).setF (pgLctl c) F.LNCH_LAST_LATE_ENTRY f.e
    d.irq (pgLctl c) 0

/-- The reload of an expert entry, or the next anchor of a basic one (R96, R97). [DEDUCED (log 48)] -/
def Dev.leReload (d : Dev) (c : Nat) (f : Firing) : Dev :=
  let p := lePage c f.e
  let d := d.leLate c f
  if d.expert (pgLctl c) then
    let m := if f.period = 0 then 0 else (d.count - f.time) / f.period + 1
    let forever := d.on p F.LE_COUNT_FOREVER
    let d := if f.period = 0 then d.setF p F.LE_COUNT_COUNT 0
      else
        let d := d.setR64 p 0x100 (f.time + m * f.period)
        if forever then d else d.setF p F.LE_COUNT_COUNT (d.f p F.LE_COUNT_COUNT - m)
    let d := if d.f p F.LE_COUNT_COUNT = 0 ∧ forever = false then
      (d.setB p F.LE_CTRL_ARM false).setB p F.LE_CTRL_DONE true else d
    (d.leSkipped c (m - 1)).setAnchor c f.e
  else (d.leSkipped c ((d.count - f.time) / Nat.max 1 f.period)).setAnchor c f.e

/-- The firings of a tick that name an action, in ascending entry index. -/
def ofAction (l : List Firing) (a : Nat) : List Firing := l.filter (fun f => f.action == a)

/-- The union of the argument masks of firings. -/
def argMask (l : List Firing) : Nat := l.foldl (fun m f => m ||| f.arg) 0

/-- The deadline of a POST_JOB firing (R102). -/
def Firing.deadline (f : Firing) : Option Nat :=
  if f.aux ≠ 0 then some (f.time + f.aux) else if f.period = 0 then none else some (f.time + f.period)

/-- The RAISE_EVENT firings of a tick (Table 4-4, R94, R99). -/
def Dev.raiseEvents (d : Dev) (c : Nat) (l : List Firing) : Dev :=
  let d := d.forN 8 (fun n d =>
    if l.any (fun f => nbits f.arg 8 1 == 0 && nbits f.arg 0 3 == n) then
      (d.pulse (evCas c (90 + n))).wdCasFeed c none (some n) else d)
  l.foldl (fun d f =>
    if nbits f.arg 8 1 = 0 || !d.en pgEvf then d
    else if nbits f.arg 9 1 = 0 then d.swSet (nbits f.arg 0 7) else d.swClear (nbits f.arg 0 7)) d

/-- The SEND_TL_FRAME firings of a tick: of those that name one frame kind on one link, the highest-indexed (R99). [DEDUCED (log 154)] -/
def Dev.sendFrames (d : Dev) (c : Nat) (l : List Firing) : Dev :=
  let key : Firing → Nat := fun f => 2 * nbits f.arg 8 4 + nbits f.arg 0 1
  l.foldl (fun d f =>
    if l.any (fun g => decide (f.e < g.e) && key g == key f) then d
    else
      let k := 2 * c + nbits f.arg 0 1
      if d.live (pgTlc k) then d.tlLaunch k (nbits f.arg 8 4) f.time else d) d

/-- The actions of a tick, in the order of Table 4-6. -/
def Dev.launchActions (d : Dev) (c : Nat) (l : List Firing) : Dev :=
  let restart := argMask (ofAction l 1)
  let d := d.forN 6 (fun g d => if nbits restart g 1 = 1 then d.pwmRestart (6 * c + g) else d)
  let d := d.fenceRelease c (argMask (ofAction l 4))
  let d := (ofAction l 2).foldl (fun d f =>
    d.forN 4 (fun j d => if nbits f.arg j 1 = 1 then d.adcStart (4 * c + j) (nbits f.arg 8 2) 0 else d)) d
  let d := (ofAction l 3).foldl (fun d f =>
    d.forN 16 (fun i d => if nbits f.arg i 1 = 1 then d.monArm (16 * c + i) f.time f.aux else d)) d
  let d := (ofAction l 5).foldl (fun d f => d.post c (nbits f.arg 0 8) f.deadline false 0) d
  (d.sendFrames c (ofAction l 6)).raiseEvents c (ofAction l 7)

/-- An entry as it stood at the start of the tick. -/
def Dev.entryBack (d : Dev) (c e : Nat) : Dev :=
  let s := d.atTick
  let d := d.forN 8 (fun i d => d.setReg (lePage c e + 0x100 + 4 * i) (s.reg (lePage c e + 0x100 + 4 * i)))
  { d with anchors := Table.put {} d.anchors (256 * c + e) (s.anchor c e) }

/-- The writes to an entry that land in the tick of its firing apply after the reload (R98). -/
def Dev.entryLand (d : Dev) (c e : Nat) : Dev :=
  let s := d
  let ws := (d.landedAt (lePage c e + 0x100) 0x20).flatMap (fun x => halves x.1 x.2.1 x.2.2)
  let d := ws.foldl (fun (d : Dev) h => match findWord .lent (h.1 % 0x1000) with
    | some r => d.setReg h.1 (r.merge (d.reg h.1) h.2)
    | none => d) d
  if ws.isEmpty then d else d.entryWritten s c e

/-- LAUNCH_FIRE (R93-R99): every entry of casement c whose time has come fires, with its fields as at the start of the tick,
unless a page's EN is cleared in it. [DEDUCED (log 49, 50)] -/
def Dev.launchFire (d : Dev) (c : Nat) : Dev :=
  if !d.domOn (domCas c) || d.clocksStill || d.acted 0 c then d
  else
    let s := d.atTick
    let on : Nat → Bool := fun e => d.en (pgLctl c) && d.en (pgLent c (e / 64))
    let l := ((List.range 256).filter (fun e => on e && s.leFires c e)).map (fun e => s.firing c e)
    let d := d.act 0 c
    let d := if l.any (fun f => decide (f.time < d.count)) then d.pulse (evCas c 109) else d
    let d := l.foldl (fun d f => ((d.entryBack c f.e).leReload c f).entryLand c f.e) d
    d.launchActions c l

/-- The end of a tick: the firings that were due in it and no command has made. [DESIGN CHOICE (log 145)] -/
def Dev.launchEnd (d : Dev) : Dev := d.forN 16 (fun c d => if d.live (pgLctl c) then d.launchFire c else d)

/-- LNCH_STAT.ARMED (Table 4-7). -/
def Dev.armedCount (d : Dev) (c : Nat) : Nat :=
  ((List.range 256).filter (fun e => d.en (pgLent c (e / 64)) && d.on (lePage c e) F.LE_CTRL_ARM)).length

/-- The enable check of entry page q (Table 4-8, R94). -/
def Dev.lentCheck (d : Dev) (c q : Nat) : List (Nat × Nat) :=
  let x := d.expert (pgLent c q)
  (if !d.en (pgLctl c) then [(8, 5)] else []) ++
  (if x != d.expert (pgLctl c) then [(8, 0x101)] else []) ++
  (List.range 64).flatMap (fun i =>
    let e := 64 * q + i
    let o := 0x100 + 0x20 * i
    (if !x && decide (d.f (pgLctl c) F.LNCH_FRAME_PERIOD_PERIOD ≤ d.leTime c e) then [(o, 0x102)] else []) ++
    (if x && decide (2 ^ 63 ≤ d.lePeriod c e) then [(o + 8, 2)] else []) ++
    (if x && decide (1 ≤ d.lePeriod c e ∧ d.lePeriod c e ≤ 5) then [(o + 8, 0x103)] else []) ++
    (if 8 ≤ d.f (lePage c e) F.LE_CTRL_ACTION then [(o + 0x14, 1)] else []))

/-- The enable check of the control page (Table 4-8). -/
def Dev.lctlCheck (d : Dev) (c : Nat) : List (Nat × Nat) :=
  let x := d.expert (pgLctl c)
  (if (List.range 4).any (fun q => d.en (pgLent c q) && d.expert (pgLent c q) != x) then [(8, 0x101)] else []) ++
  (if !x && decide (d.f (pgLctl c) F.LNCH_FRAME_PERIOD_PERIOD < 6) then [(0x48, 2)] else [])

end Sys2Proof.Machine
end

