-- ==== Sys2Proof/Machine/Crypto.lean ====
section
/-!
DEFINITION. Sys2Proof/Machine/Crypto.lean: the functions by which the boot ROM and the Vopen controller check signatures and
responses (03_clocks_power_reset.md R75, R77; 22_vopen_debug_and_trace.md R474): SHA-256, HMAC, SHA-384 and
ECDSA verification on P-384.
-/
namespace Sys2Proof.Machine

/-- Bytes of a value, most significant first. -/
def bytesBE (k v : Nat) : List Byte := (bytesLE k v).reverse

/-- The `n` parts of `w` bits of a number, the most significant first. -/
def wordsOf (w n v : Nat) : List (BitVec w) := (List.range n).map (fun i => BitVec.ofNat w (v >>> (w * (n - 1 - i))))

/-- The round constants of SHA-384, four to a number; SHA-256 takes the upper halves of the first 64. -/
def shaConstants : List W64 :=
  [0x428a2f98d728ae227137449123ef65cdb5c0fbcfec4d3b2fe9b5dba58189dbbc,
   0x3956c25bf348b53859f111f1b605d019923f82a4af194f9bab1c5ed5da6d8118,
   0xd807aa98a303024212835b0145706fbe243185be4ee4b28c550c7dc3d5ffb4e2,
   0x72be5d74f27b896f80deb1fe3b1696b19bdc06a725c71235c19bf174cf692694,
   0xe49b69c19ef14ad2efbe4786384f25e30fc19dc68b8cd5b5240ca1cc77ac9c65,
   0x2de92c6f592b02754a7484aa6ea6e4835cb0a9dcbd41fbd476f988da831153b5,
   0x983e5152ee66dfaba831c66d2db43210b00327c898fb213fbf597fc7beef0ee4,
   0xc6e00bf33da88fc2d5a79147930aa72506ca6351e003826f142929670a0e6e70,
   0x27b70a8546d22ffc2e1b21385c26c9264d2c6dfc5ac42aed53380d139d95b3df,
   0x650a73548baf63de766a0abb3c77b2a881c2c92e47edaee692722c851482353b].flatMap (wordsOf 64 4) ++
  [0xa2bfe8a14cf10364a81a664bbc423001c24b8b70d0f89791c76c51a30654be30,
   0xd192e819d6ef5218d69906245565a910f40e35855771202a106aa07032bbd1b8,
   0x19a4c116b8d2d0c81e376c085141ab532748774cdf8eeb9934b0bcb5e19b48a8,
   0x391c0cb3c5c95a634ed8aa4ae3418acb5b9cca4f7763e373682e6ff3d6b2b8a3,
   0x748f82ee5defb2fc78a5636f43172f6084c87814a1f0ab728cc702081a6439ec,
   0x90befffa23631e28a4506cebde82bde9bef9a3f7b2c67915c67178f2e372532b,
   0xca273eceea26619cd186b8c721c0c207eada7dd6cde0eb1ef57d4f7fee6ed178,
   0x06f067aa72176fba0a637dc5a2c898a6113f9804bef90dae1b710b35131c471b,
   0x28db77f523047d8432caab7b40c724933c9ebe0a15c9bebc431d67c49c100d4c,
   0x4cc5d4becb3e42b6597f299cfc657e2a5fcb6fab3ad6faec6c44198c4a475817].flatMap (wordsOf 64 4)

/-- One SHA-2 of word width w: its big sigmas by their rotations, its small sigmas by two rotations and a shift, its constants and
its first hash value. -/
structure ShaKind (w : Nat) where
  bigA : List Nat
  bigE : List Nat
  near : Nat × Nat × Nat
  far : Nat × Nat × Nat
  consts : List (BitVec w)
  start : List (BitVec w)

/-- SHA-256. -/
def sha256Kind : ShaKind 32 := {
  bigA := [2, 13, 22], bigE := [6, 11, 25], near := (7, 18, 3), far := (17, 19, 10)
  consts := (shaConstants.take 64).map (fun c => c.extractLsb' 32 32)
  start := wordsOf 32 8 0x6a09e667bb67ae853c6ef372a54ff53a510e527f9b05688c1f83d9ab5be0cd19 }

/-- SHA-384. -/
def sha384Kind : ShaKind 64 := {
  bigA := [28, 34, 39], bigE := [14, 18, 41], near := (1, 8, 7), far := (19, 61, 6)
  consts := shaConstants
  start := wordsOf 64 8
    0xcbbb9d5dc1059ed8629a292a367cd5079159015a3070dd17152fecd8f70e593967332667ffc00b318eb44a8768581511db0c2e0d64f98fa747b5481dbefa4fa4 }

/-- The sum modulo 2 of the rotations of a word. -/
def turned {w : Nat} (rs : List Nat) (x : BitVec w) : BitVec w := rs.foldl (fun acc r => acc ^^^ x.rotateRight r) 0

/-- A small sigma. -/
def smallSigma {w : Nat} (r : Nat × Nat × Nat) (x : BitVec w) : BitVec w := turned [r.1, r.2.1] x ^^^ (x >>> r.2.2)

/-- What the rounds of a block work on: the last four values of the A column and of the E column, newest first, and the next
sixteen words of the message schedule. -/
structure ShaRun (w : Nat) where
  a : List (BitVec w)
  e : List (BitVec w)
  next : List (BitVec w)

/-- One round: both columns take a new value, and the schedule moves on by one word. -/
def ShaRun.round {w : Nat} (m : ShaKind w) (r : ShaRun w) (c : BitVec w) : ShaRun w :=
  let at_ (l : List (BitVec w)) (i : Nat) : BitVec w := l.getD i 0
  let a := at_ r.a
  let e := at_ r.e
  let word := at_ r.next
  let choice := (e 0 &&& (e 1 ^^^ e 2)) ^^^ e 2
  let most := (a 0 &&& (a 1 ||| a 2)) ||| (a 1 &&& a 2)
  let mix := c + word 0 + e 3 + turned m.bigE (e 0) + choice
  { a := (mix + turned m.bigA (a 0) + most) :: r.a.take 3
    e := (a 3 + mix) :: r.e.take 3
    next := r.next.drop 1 ++ [word 0 + smallSigma m.near (word 1) + word 9 + smallSigma m.far (word 14)] }

/-- The hash after a block of sixteen words. -/
def shaBlock {w : Nat} (m : ShaKind w) (h block : List (BitVec w)) : List (BitVec w) :=
  let r := m.consts.foldl (ShaRun.round m) ⟨h.take 4, h.drop 4, block⟩
  List.zipWith (· + ·) h (r.a ++ r.e)

/-- The hash after `n` blocks of bytes. -/
def shaBlocks {w : Nat} (m : ShaKind w) : Nat → List Byte → List (BitVec w) → List (BitVec w)
  | 0, _, h => h
  | n + 1, l, h => shaBlocks m n (l.drop (2 * w)) (shaBlock m h (wordsOf w 16 (valueBE (l.take (2 * w)))))

/-- The eight words of a message's hash. Its padding is one bit and then its length in bits, as a number that fills the last of the
blocks it takes. -/
def shaWords {w : Nat} (m : ShaKind w) (l : List Byte) : List (BitVec w) :=
  let blocks := (l.length + w / 4) / (2 * w) + 1
  shaBlocks m blocks (l ++ 0x80 :: bytesBE (2 * w * blocks - l.length - 1) (8 * l.length)) m.start

/-- SHA-256. -/
def sha256 (l : List Byte) : List Byte := (shaWords sha256Kind l).flatMap (fun x => bytesBE 4 x.toNat)

/-- SHA-384. -/
def sha384 (l : List Byte) : List Byte := ((shaWords sha384Kind l).take 6).flatMap (fun x => bytesBE 8 x.toNat)

/-- HMAC with SHA-256, for a key of at most 64 bytes. -/
def hmacSha256 (key msg : List Byte) : List Byte :=
  let k := key ++ List.replicate (64 - key.length) 0
  sha256 (k.map (· ^^^ 0x5c) ++ sha256 (k.map (· ^^^ 0x36) ++ msg))

/-- The prime of P-384. -/
def ecP : Nat := 2 ^ 384 - 2 ^ 128 - 2 ^ 96 + 2 ^ 32 - 1
/-- The coefficient b of P-384. -/
def ecB : Nat := 0xb3312fa7e23ee7e4988e056be3f82d19181d9c6efe8141120314088f5013875ac656398d8a2ed19d2a85c8edd3ec2aef
/-- The order of P-384. -/
def ecN : Nat := 0xffffffffffffffffffffffffffffffffffffffffffffffffc7634d81f4372ddf581a0db248b0a77aecec196accc52973
/-- The base point's x. -/
def ecGx : Nat := 0xaa87ca22be8b05378eb1c71ef320ad746e1d3b628ba79b9859f741e082542a385502f25dbf55296c3a545e3872760ab7
/-- The base point's y. -/
def ecGy : Nat := 0x3617de4a96262c6f5d9e98bf9292dc29f8f41dbd289a147ce9da3113b5f0b8c00a60b1ce1d7e819d7a431d7c90ea0e5f

/-- b^e modulo m over the low `n` bits of e. -/
def powMod (m b e : Nat) : Nat → Nat
  | 0 => 1
  | n + 1 =>
    let h := powMod m b (e / 2) n
    if e % 2 = 1 then h * h % m * b % m else h * h % m

/-- The inverse modulo a prime. -/
def invMod (m x : Nat) : Nat := powMod m (x % m) (m - 2) 384

/-- Subtraction modulo p. -/
def ecSub (a b : Nat) : Nat := (a + (ecP - b % ecP)) % ecP

/-- A point in Jacobian coordinates; Z = 0 is the point at infinity. -/
structure EcPoint where
  x : Nat
  y : Nat
  z : Nat
  deriving DecidableEq, Repr

/-- Doubling (a = -3). -/
def EcPoint.double (q : EcPoint) : EcPoint :=
  let zz := q.z * q.z % ecP
  let yy := q.y * q.y % ecP
  let s := 4 * q.x * yy % ecP
  let m := 3 * ecSub q.x zz * (q.x + zz) % ecP
  let x := ecSub (m * m) (2 * s)
  ⟨x, ecSub (m * ecSub s x) (8 * yy * yy), 2 * q.y * q.z % ecP⟩

/-- Addition. -/
def EcPoint.add (a b : EcPoint) : EcPoint :=
  if a.z = 0 then b else if b.z = 0 then a
  else
    let az := a.z * a.z % ecP
    let bz := b.z * b.z % ecP
    let u1 := a.x * bz % ecP
    let u2 := b.x * az % ecP
    let s1 := a.y * b.z % ecP * bz % ecP
    let s2 := b.y * a.z % ecP * az % ecP
    let h := ecSub u2 u1
    let r := ecSub s2 s1
    if h = 0 then (if r = 0 then a.double else ⟨1, 1, 0⟩)
    else
      let hh := h * h % ecP
      let hhh := h * hh % ecP
      let v := u1 * hh % ecP
      let x := ecSub (ecSub (r * r) hhh) (2 * v)
      ⟨x, ecSub (r * ecSub v x) (s1 * hhh), a.z * b.z % ecP * h % ecP⟩

/-- k times a point, over the low `n` bits of k. -/
def EcPoint.mul (q : EcPoint) (k : Nat) : Nat → EcPoint
  | 0 => ⟨1, 1, 0⟩
  | n + 1 =>
    let h := (q.mul (k / 2) n).double
    if k % 2 = 1 then h.add q else h

/-- ECDSA on P-384 with SHA-384: whether (r, s) signs the message under the public key (qx, qy). -/
def ecdsaVerify (qx qy r s : Nat) (msg : List Byte) : Bool :=
  let onCurve := qx < ecP && qy < ecP && qy * qy % ecP == ecSub (qx * qx * qx + ecB) (3 * qx)
  if !onCurve || r == 0 || ecN ≤ r || s == 0 || ecN ≤ s then false
  else
    let e := valueBE (sha384 msg)
    let w := invMod ecN s
    let pt := ((⟨ecGx, ecGy, 1⟩ : EcPoint).mul (e * w % ecN) 384).add ((⟨qx, qy, 1⟩ : EcPoint).mul (r * w % ecN) 384)
    if pt.z = 0 then false
    else
      let zi := invMod ecP pt.z
      pt.x * (zi * zi % ecP) % ecP % ecN == r

end Sys2Proof.Machine
end

