-- ==== Sys2Proof/Machine/System.lean ====
section
/-!
DEFINITION. Sys2Proof/Machine/System.lean: power domains, resets, the temperature supervision, the OTP commands and the boot ROM
(02_package_and_signals.md R49, R50; 03_clocks_power_reset.md).
-/
namespace Sys2Proof.Machine

/-! Power domains -/

/-- The domain a domain requires (Table 3-3). -/
def requiredDom (b : Nat) : Option Nat :=
  if b < 4 ∨ b = 5 ∨ b = 6 ∨ b = 29 then some 4
  else if 7 ≤ b ∧ b < 23 then some (5 + (b - 7) / 8)
  else if b = 23 ∨ b = 24 then some (b - 18)
  else if b = 27 ∨ b = 28 then some (b - 22)
  else none

/-- The register pages of a switched domain (Table 1-3). -/
def domPages (b : Nat) : List Nat :=
  if b < 5 then pgIntc b :: (List.range 4).map (pgIntsrc b)
  else if b < 7 then pgWing (b - 5) :: (List.range 8).map (fun e => pgEnc (8 * (b - 5) + e))
  else if b < 23 then casPages (b - 7)
  else if b < 25 then [pgHbm (b - 23), pgCode (b - 23), pgScrub (b - 23), pgSill (b - 23)]
  else if b < 27 then (List.range 8).flatMap (fun c => anaPages (8 * (b - 25) + c))
  else if b < 29 then
    (List.range 16).flatMap (fun i =>
      let l := 16 * (b - 27) + i
      [pgTlc l, pgTlnb l, pgTltt l, pgTlcnt l])
  else if b = 29 then
    [pgPf 0, pgPf 1, pgDma] ++ (List.range 4).map pgEth ++ (List.range 8).map pgCan ++ [pgXspi, pgI2c]
  else []

/-- PWR_STAT bit of a domain. -/
def Dev.statOn (d : Dev) (b : Nat) : Bool := bitAt (d.reg (pgPwr + 0x44)) b

/-- PWR_TRANS bit of a domain. [DEDUCED (log 127)] -/
def Dev.inTrans (d : Dev) (b : Nat) : Bool := bitAt (d.reg (pgPwr + 0x48)) b

/-- What a domain is, or will be at the end of its transition. [DEDUCED (log 127)] -/
def Dev.domTarget (d : Dev) (b : Nat) : Bool := d.statOn b != d.inTrans b

/-- The Vopen access level is above NONE (22 R475). -/
def Dev.debugging (d : Dev) : Bool := d.f pgDbg F.DBG_STAT_LEVEL != 0

/-- Why a change of a domain is refused, given the changes still accepted: the lowest code of Table 3-5 (R60). [DEDUCED (log 126, 127)] -/
def Dev.pwrCode (d : Dev) (acc : List Nat) (req b : Nat) : Option Nat :=
  let on := nbits req b 1 == 1
  let needsOff := on && (match requiredDom b with
    | none => false
    | some r => if acc.contains r then nbits req r 1 != 1 else !(d.statOn r && !d.inTrans r))
  let needed := !on && ((b == domDbg && d.debugging) || (List.range 31).any (fun x =>
    requiredDom x == some b && d.domTarget x && !(acc.contains x && nbits req x 1 == 0)))
  let pages := !on && (domPages b).any (fun p => d.en p || d.busy p)
  if needsOff then some 1
  else if needed then some 2
  else if pages then some 3
  else if d.inTrans b then some 4
  else if !on && b == 4 then some 5
  else none

/-- The changes of a write that are accepted: refusals are repeated until none is left (R60). -/
def Dev.pwrAccept (d : Dev) (req : Nat) : Nat → List Nat → List Nat
  | 0, acc => acc
  | n + 1, acc => d.pwrAccept req n (acc.filter (fun b => (d.pwrCode acc req b).isNone))

/-- PWR_ERR records a refusal unless one is held (Table 3-4). -/
def Dev.pwrErr (d : Dev) (b code : Nat) : Dev :=
  if d.on pgPwr F.PWR_ERR_VALID then d
  else ((d.setF pgPwr F.PWR_ERR_DOMAIN b).setF pgPwr F.PWR_ERR_CODE code).setB pgPwr F.PWR_ERR_VALID true

/-- The tables of a casement's blocks go back to reset. -/
def Dev.dropCas (d : Dev) (c : Nat) : Dev :=
  let out : Nat → Nat → Bool := fun n k => k / n != c
  { d with
    sashes := Table.keep (out 4) d.sashes
    lanes := Table.keep (out 16) d.lanes
    queues := Table.drop d.queues c
    flits := d.flits.filter (fun (x : Flit) => x.cas != c && x.sash / 4 != c)
    fallbacks := d.fallbacks.filter (fun (x : Fallback) => x.job.home != c)
    deliveries := d.deliveries.filter (fun (x : Delivery) => x.cls == 3 || x.place != c)
    mons := Table.keep (out 16) d.mons
    injs := Table.keep (out 4) d.injs
    caps := Table.keep (out 4) d.caps
    pwms := Table.keep (out 6) d.pwms
    tmrs := Table.keep (out 32) d.tmrs
    tio := Table.keep (out 8) d.tio
    wds := Table.drop (Table.drop d.wds (8 + c)) (72 + c)
    redirTick := Table.keep (out 256) d.redirTick
    landedVals := Table.keep (out 256) d.landedVals
    tioOut := d.tioOut.filter (fun e => e.2.1 / 8 != c)
    jobEnds := Table.keep (out 256) d.jobEnds
    anchors := Table.keep (out 256) d.anchors }

/-- The Vopen control block and the trace unit go back to reset, with what debug space holds for the cores. [DEDUCED (log 125)] -/
def Dev.dropDbg (d : Dev) : Dev :=
  { d with
    regs := Table.keep (fun a => a / 0x1000 * 0x1000 != pgDbg) d.regs
    trace := {}
    cores := Table.upd {} (fun _ (c : Core) => { c with bps := [], maskInt := true, bpSkip := false }) d.cores }

/-- What a domain holds is lost: its registers, its memory and the state of its blocks (R61, R63). -/
def Dev.dropBlocks (d : Dev) (b : Nat) : Dev :=
  let d := (d.dropDomainRegs b).dropDomainMem b
  let d := { d with
    l2ok := Table.keep (fun k => match memAt (64 * k) with | some (_, x) => x != b | none => true) d.l2ok }
  if b < 4 then { d with cores := Table.drop d.cores b, dreqs := Table.drop d.dreqs b }
  else if b = 4 then { d with cores := Table.drop d.cores 4, dreqs := [] }
  else if b < 7 then
    { d with
      encs := Table.keep (fun e => e / 8 != b - 5) d.encs
      deliveries := d.deliveries.filter (fun (x : Delivery) => !(x.cls == 3 && x.place == b - 5)) }
  else if b < 23 then d.dropCas (b - 7)
  else if b < 25 then { d with hbms := Table.drop d.hbms (b - 23) }
  else if b < 27 then
    let out : Nat → Nat → Bool := fun n k => k / n != b - 25
    { d with
      cmps := Table.keep (out 192) d.cmps
      adcs := Table.keep (out 32) d.adcs
      sdIns := Table.keep (out 48) d.sdIns
      sdClks := Table.keep (out 16) d.sdClks }
  else if b < 29 then { d with tls := Table.keep (fun l => l / 16 != b - 27) d.tls }
  else if b = 29 then
    { d with pfs := [], dmas := [], dmaLast := 7, eths := [], cans := [], xspi := {}, i2c := {} }
  else d.dropDbg

/-- The serdes PLLs whose domain is off or whose enable is clear lose lock (R57). -/
def Dev.serdesFollow (d : Dev) : Dev :=
  d.forN 3 (fun i d =>
    let dom := match i with | 0 => domHostio | 1 => domLink 0 | _ => domLink 1
    if d.domOn dom && bitAt (d.reg (pgClk + 0x44)) i then d else d.setF pgClk ⟨0x40, 2 + i, 1⟩ 0)

/-- A domain's transition starts (R61): a domain that switches off counts as off from now, and its contents are lost. -/
def Dev.startTrans (d : Dev) (b no : Nat) : Dev :=
  let d := d.setF pgPwr ⟨0x48, b, 1⟩ 1
  let d := { d with sys := { d.sys with pwrBatch := Table.put 0 d.sys.pwrBatch b no } }
  if d.statOn b then (d.dropBlocks b).serdesFollow else d

/-- Judges a set of changes (R60) and starts those that are accepted, where the
domain is not in the requested state already; refused bits read back the domain's state. -/
def Dev.pwrJudge (d : Dev) (req : Nat) (changes : List Nat) : Dev :=
  let acc := d.pwrAccept req 32 changes
  let refused := changes.filter (fun b => !acc.contains b)
  let back := refused.foldl (fun (v : W32) b => putBits v b 1 (b2n (d.domTarget b))) (BitVec.ofNat 32 req)
  let d' := d.setReg (pgPwr + 0x40) (back &&& 0x7FFFFFFF)
  let d' : Dev := match refused.head? with
    | none => d'
    | some b => d'.pwrErr b ((d.pwrCode (b :: acc) req b).getD 1)
  let no := d.sys.pwrNo + 1
  let d' := { d' with sys := { d'.sys with pwrNo := no } }
  (acc.foldl (fun (d : Dev) b => if d.domTarget b == (nbits req b 1 == 1) then d else d.startTrans b (no + 1)) d').shutter

/-- A write of PWR_REQ (R60): with EN = 0 it is stored only. [DEDUCED (log 126)] -/
def Dev.pwrReq (d : Dev) (v : W32) : Dev :=
  let old := d.reg (pgPwr + 0x40)
  let v := v &&& 0x7FFFFFFF
  if !d.en pgPwr then d.setReg (pgPwr + 0x40) v
  else d.pwrJudge v.toNat ((List.range 31).filter (fun b => bitAt v b != bitAt old b))

/-- The power page is enabled: PWR_REQ is judged against PWR_STAT (R60). -/
def Dev.pwrEnable (d : Dev) : Dev :=
  let v := d.reg (pgPwr + 0x40)
  d.pwrJudge v.toNat ((List.range 31).filter (fun b => bitAt v b != d.statOn b))

/-- The place of a switch-off in the order of R61. [DEDUCED (log 126)] -/
def offRank (b : Nat) : Nat := if b < 4 then 2 else if b = 5 ∨ b = 6 then 1 else 0

/-- A domain's transition may end now: the transitions of its write that come before it have ended (R61). [DEDUCED (log 126)] -/
def Dev.transReady (d : Dev) (b : Nat) : Bool :=
  let no := Table.get 0 d.sys.pwrBatch b
  let mates := (List.range 31).filter (fun x => x != b && d.inTrans x && Table.get 0 d.sys.pwrBatch x == no)
  if d.statOn b then !mates.any (fun x => d.statOn x && offRank x < offRank b)
  else !mates.any (fun x => d.statOn x) &&
    (match requiredDom b with | none => true | some r => d.statOn r && !d.inTrans r)

/-- The core of a pair that powers on is held, with no event behind it (R63, 17 R380). -/
def Dev.pairPowerOn (d : Dev) (k : Nat) (testOk : Bool) : Dev :=
  let d := d.setCore k { intMark := d.seenPulses }
  if testOk then d else d.failPair k 3

/-- A domain's transition ends (R61, R63): `testOk` is the outcome of a pair's comparator test (19 R413). [DEDUCED (log 3, 56)] -/
def Dev.transitionEnd (d : Dev) (b : Nat) (testOk : Bool) : Dev :=
  if d.sys.reset != .none || !d.inTrans b || !d.transReady b then d
  else
    let on := !d.statOn b
    let no := Table.get 0 d.sys.pwrBatch b
    let d := (d.setF pgPwr ⟨0x48, b, 1⟩ 0).setF pgPwr ⟨0x44, b, 1⟩ (b2n on)
    let d := { d with sys := { d.sys with pwrBatch := Table.drop d.sys.pwrBatch b } }
    let d : Dev := if on && b < 4 then d.pairPowerOn b testOk else d
    let d : Dev := if on && (b == 25 || b == 26) then
      { d with sys := { d.sys with
        cmpOnly := Table.put false d.sys.cmpOnly (b - 25) (bitAt (d.reg (pgPwr + 0x50)) (b - 25)) } } else d
    let last := 2 ≤ no && !(List.range 31).any (fun x => d.inTrans x && Table.get 0 d.sys.pwrBatch x == no)
    (if last then d.irq pgPwr 0 else d).shutter

/-- A serdes PLL locks (R57): 0 Ethernet, 1 and 2 the Threshold halves. -/
def Dev.serdesLock (d : Dev) (i : Nat) : Dev :=
  let dom := match i with | 0 => domHostio | 1 => domLink 0 | _ => domLink 1
  if i < 3 ∧ d.domOn dom = true ∧ bitAt (d.reg (pgClk + 0x44)) i = true ∧ d.clocksStill = false then
    d.setF pgClk ⟨0x40, 2 + i, 1⟩ 1
  else d

/-! Resets -/

/-- A register whose value a warm reset keeps (Table 3-8): the Shutter pages but for their ownership, the temperature page, RST_CAUSE
and RST_INFO, and what PLL_STAT says of the root PLL. -/
def warmKeeps (a : Nat) : Bool :=
  let own := a % 0x1000 == 0x28
  match pageAt a with
  | some p =>
    (match p.kind with
      | .group | .flt | .cassrc | .vt | .temp => !own
      | .sysid => a == pgSysid + 0x44 || a == pgSysid + 0x48
      | .clk => a == pgClk + 0x40
      | _ => false)
  | none => false

/-- A device in which a reset of a kind is in progress: every switched domain off, every memory lost. -/
def Dev.resetBase (d : Dev) (kind : ResetKind) : Dev :=
  { pulses := []
    fresh := d.fresh
    fltBall := d.fltBall
    ains := d.ains
    pads := d.pads
    sys := { reset := kind, porstLow := d.sys.porstLow, wrstLow := d.sys.wrstLow
             vddAon := d.sys.vddAon, vddIo33 := d.sys.vddIo33 } }

/-- Every switched domain reads off until the sequence ends (R70). -/
def Dev.domainsOff (d : Dev) : Dev := d.setReg (pgPwr + 0x44) 0x80000000

/-- A fuse that a command was blowing when it was cut short is blown or not (R84): bit i of the `n` staged bits. [DESIGN CHOICE (log 131)] -/
def freeBits (seed : Nat) (v : Nat) : Nat → Nat
  | 0 => 0
  | n + 1 => freeBits seed v n + b2n (nbits v n 1 == 1 && (Config.freeValue (seed + n)).getLsbD 0) * 2 ^ n

/-- Words whose staged bits are each blown or not. -/
def freeWords (seed : Nat) (l : List W32) : List W32 :=
  (List.range l.length).map (fun i => BitVec.ofNat 32 (freeBits (seed + 32 * i) (l.getD i 0).toNat 32))

/-- ORs words into a table of fuses. -/
def blowWords (t : Table W32) (base : Nat) (l : List W32) : Table W32 :=
  (List.range l.length).foldl (fun t i => Table.put 0 t (base + i) (Table.get 0 t (base + i) ||| l.getD i 0)) t

/-- What a fuse command blows (R84, Table 3-17). -/
def Otp.blow (o : Otp) : OtpCmd → Otp
  | .rollbackAdv => { o with rollback := o.rollback + 1 }
  | .revoke n => { o with revoked := o.revoked ||| BitVec.ofNat 4 (2 ^ n) }
  | .field s l =>
    let w := l.getD 0 0
    if s = 0 then { o with bootOrder := o.bootOrder ||| w.truncate 2 }
    else if s = 1 then { o with xspiFast := o.xspiFast || bitAt w 0 }
    else if s = 2 then { o with dbgCut := o.dbgCut ||| w.truncate 2 }
    else if 4 ≤ s ∧ s < 8 then { o with keyHash := blowWords o.keyHash (12 * (s - 4)) (l.take 12) }
    else if s = 8 then { o with dbgKey := blowWords o.dbgKey 0 (l.take 8) }
    else o

/-- What a command cut short has blown: each of its fuses, or not; a key slot is then programmed and matches no key (R84). [DESIGN CHOICE (log 131)] -/
def Otp.blowPart (o : Otp) (seed : Nat) : OtpCmd → Otp
  | .rollbackAdv => if (Config.freeValue seed).getLsbD 0 then o.blow .rollbackAdv else o
  | .revoke n => if (Config.freeValue seed).getLsbD 0 then o.blow (.revoke n) else o
  | .field s l =>
    let o := o.blow (.field s (freeWords seed l))
    if 4 ≤ s ∧ s < 8 then { o with keyCut := o.keyCut ||| BitVec.ofNat 4 (2 ^ (s - 4)) } else o

/-- The fuses as a reset finds them (R84). [DESIGN CHOICE (log 131)] -/
def Dev.cutFuses (d : Dev) (o : Otp) : Otp :=
  match d.otpCmd with
  | none => o
  | some c => o.blowPart d.fresh c

/-- A power-on reset starts (R69-R71): `o` are the fuses, which the shadow takes over; a fault ball that is low stays a fault (02 R48). [DEDUCED (log 51); DESIGN CHOICE (log 8)] -/
def Dev.powerOnReset (d : Dev) (o : Otp) : Dev :=
  let b := d.resetBase .powerOn
  ({ b with otp := d.cutFuses o, fresh := d.fresh + 512 }.domainsOff).fltRefresh.shutter.stamp

/-- RST_CAUSE takes a cause, RST_INFO its core or casement (Table 3-10). [DEDUCED (log 128)] -/
def Dev.addCause (d : Dev) (cause info : Nat) : Dev :=
  let d := d.setF pgSysid ⟨0x44, cause, 1⟩ 1
  if cause = 3 then d.setF pgSysid F.RST_INFO_CORE info
  else if cause = 4 then d.setF pgSysid F.RST_INFO_CAS info else d

/-- A warm reset starts (R69-R71, Table 3-8), or its cause joins a reset in progress. [DEDUCED (log 128, 129)] -/
def Dev.warmReset (d : Dev) (cause info : Nat) : Dev :=
  if d.sys.reset != .none then
    { d.addCause cause info with sys := { d.sys with resetReq := none } }
  else
    let b := d.resetBase .warm
    let restart := d.sys.standby
    let b := { b with
      regs := Table.keep warmKeeps d.regs
      otp := d.otp
      fresh := d.fresh + 512
      groups := d.groups
      time := { count := d.time.count, tick := d.time.tick }
      sys := { b.sys with
        tsArmed := d.sys.tsArmed
        clkHeld := d.sys.clkHeld || restart
        pllWake := d.sys.pllWake || restart
        relockWait := d.sys.relockWait || restart || cause == 5
        overtempHold := cause == 6 } }
    let b := b.setReg (pgClk + 0x40) (b.reg (pgClk + 0x40) &&& (if restart then 0xFF02 else 0xFF03))
    (((b.addCause cause info).inc pgSysid F.RST_INFO_WARM_CNT).domainsOff).shutter.stamp

/-- A block's request for a warm reset is acted on. -/
def Dev.resetAsked (d : Dev) : Dev :=
  match d.sys.resetReq with
  | none => d
  | some (c, i) => d.warmReset c i

/-- What every command leaves: the event fabric, the links, the vectors and the trace have seen the events, and a reset asked for has started. -/
def Dev.settle (d : Dev) : Dev := d.levelSee.tlSeeAll.msixSee.traceSee.resetAsked

/-- The reference is lost or the root PLL loses lock (R58): a warm reset restarts the root PLL (Table 3-8), and the count holds until it
has locked. In standby, and until the PLL has restarted after it, the checks are suspended. -/
def Dev.clockLoss (d : Dev) (noRef noLock : Bool) : Dev :=
  if d.sys.standby || d.sys.pllWake || !(noRef || noLock) then d
  else
    let d := d.setB pgClk F.PLL_STAT_REF_PRESENT (d.on pgClk F.PLL_STAT_REF_PRESENT && !noRef)
    let d := if noLock && d.on pgClk F.PLL_STAT_ROOT_LOCK then d.inc pgClk F.PLL_STAT_LOSS_CNT else d
    let d := (d.setB pgClk F.PLL_STAT_ROOT_LOCK false).warmReset 5 0
    { d with sys := { d.sys with clkHeld := true, relockWait := true } }

/-- The root PLL has held lock for 50 us (R58). -/
def Dev.rootRelock (d : Dev) : Dev :=
  if d.sys.standby then d
  else
    let d := (d.setB pgClk F.PLL_STAT_ROOT_LOCK true).setB pgClk F.PLL_STAT_REF_PRESENT true
    { d with sys := { d.sys with clkHeld := false, relockWait := false, pllWake := false } }

/-- WRST_N falls (02 R49, 03 R66): in standby it wakes the device. -/
def Dev.wrstFall (d : Dev) : Dev :=
  let wake := d.sys.standby
  let d := { d with sys := { d.sys with wrstLow := true } }
  if wake then d.warmReset 7 0 else d

/-- A domain that keeps standby from being entered (R65): any but PD_SUP_4, PD_HOSTIO and a mixed-signal half powered on in
comparator-only mode. -/
def Dev.standbyBlocks (d : Dev) (b : Nat) : Bool :=
  (d.statOn b || d.inTrans b) && b != 4 && b != domHostio &&
    !((b == 25 || b == 26) && !d.inTrans b && Table.get false d.sys.cmpOnly (b - 25))

/-- Standby is requested (R65): accepted, or refused with STANDBY_BLOCKED. [DEDUCED (log 152)] -/
def Dev.standbyEnter (d : Dev) : Dev :=
  match (List.range 31).find? (fun b => d.standbyBlocks b) with
  | some b => d.pwrErr b 6
  | none =>
    let d := (d.setB pgRst F.FOUT_STAT_RESET_HOLD true).foutUpdate
    let d := ((d.setF pgPwr ⟨0x44, domHostio, 1⟩ 0).setF pgPwr ⟨0x48, domHostio, 1⟩ 0).setF pgPwr ⟨0x44, 4, 1⟩ 0
    let d := ((d.dropBlocks domHostio).dropBlocks 4).serdesFollow
    let d := d.setB pgClk F.PLL_STAT_ROOT_LOCK false
    { d with sys := { d.sys with
      standby := true, romWaiting := false, pwrBatch := Table.drop d.sys.pwrBatch domHostio } }.shutter

/-! Temperature (R72, R73) -/

/-- The eight trimmed readings arrive. [DEDUCED (log 59, 62, 129)] -/
def Dev.temperature (d : Dev) (t : List Int) : Dev :=
  let v := (List.range 8).map (fun i => satI 16 (t.getD i 0))
  let d := d.forN 8 (fun i d => d.setF pgTemp (F.TS_VAL_VALUE.at (4 * i)) (codeOf 16 (v.getD i 0)))
  let hot := v.foldl (fun a x => if a < x then x else a) (v.headD 0)
  let who := (v.findIdx? (fun x => x == hot)).getD 0
  let d := (d.setF pgTemp F.TS_HOT_SENSOR who).setF pgTemp F.TS_HOT_VALUE (codeOf 16 hot)
  let d := if d.fs pgTemp F.TS_PEAK_PEAK < hot then d.setF pgTemp F.TS_PEAK_PEAK (codeOf 16 hot) else d
  let warn := d.fs pgTemp F.TS_WARN_WARN
  let d : Dev :=
    if warn ≤ hot then
      (if d.sys.tsArmed then { d.irq pgTemp 0 with sys := { d.sys with tsArmed := false } } else d)
    else if hot < warn - d.f pgTemp F.TS_HYST_HYST then { d with sys := { d.sys with tsArmed := true } }
    else d
  let d : Dev := if v.all (fun x => x ≤ 1920) then { d with sys := { d.sys with overtempHold := false } } else d
  if 2160 ≤ hot then
    let d := d.warmReset 6 0
    { d with sys := { d.sys with overtempHold := true } }
  else d

/-- A read of TS_PEAK: the peak restarts from the hottest reading (Table 3-15). -/
def Dev.peakRead (d : Dev) (peek : Bool) : Dev :=
  let d := { d with resp := { data := d.f pgTemp F.TS_PEAK_PEAK } }
  if peek then d else d.setF pgTemp F.TS_PEAK_PEAK (d.f pgTemp F.TS_HOT_VALUE)

/-! OTP commands (R83, R84) -/

/-- Words of a key have a blown fuse. -/
def anyBlown (t : Table W32) (base n : Nat) : Bool := (List.range n).any (fun i => Table.get 0 t (base + i) != 0)

/-- KEY_PROG of a slot (Table 3-16): a fuse of it is blown, or its programming was interrupted (R84). -/
def Otp.slotUsed (o : Otp) (n : Nat) : Bool := anyBlown o.keyHash (12 * n) 12 || o.keyCut.getLsbD n

/-- DBG_MAX (R83): 2 FULL, 1 NONINVASIVE, 0 NONE. -/
def Otp.dbgMax (o : Otp) : Nat := if o.dbgCut = 0 then 2 else if o.dbgCut = 1 then 1 else 0

/-- A command refuses (R84). [DEDUCED (log 130)] -/
def Dev.otpRefuse (d : Dev) : Dev := d.setB pgOtp F.OTP_STAT_REFUSED true

/-- A command starts. [DEDUCED (log 130)] -/
def Dev.otpStart (d : Dev) (c : OtpCmd) : Dev :=
  { (d.setB pgOtp F.OTP_STAT_BUSY true).setB pgOtp F.OTP_STAT_REFUSED false with otpCmd := some c }

/-- A write of OTP_CTRL (R83, R84). [DEDUCED (log 130)] -/
def Dev.otpGo (d : Dev) (v : W32) : Dev :=
  let sel := bitsOf v 8 4
  let n := b2n (bitAt v 0) + b2n (bitAt v 1) + b2n (bitAt v 4)
  if n = 0 then d
  else if !d.en pgOtp || n != 1 || d.on pgOtp F.OTP_STAT_BUSY then d.otpRefuse
  else if bitAt v 0 then (if 64 ≤ d.otp.rollback then d.otpRefuse else d.otpStart .rollbackAdv)
  else if bitAt v 1 then d.otpStart (.revoke (bitsOf v 2 2))
  else if sel = 3 ∨ 9 ≤ sel then d.otpRefuse
  else if 4 ≤ sel ∧ sel < 8 ∧ d.otp.slotUsed (sel - 4) = true then d.otpRefuse
  else if sel = 8 ∧ anyBlown d.otp.dbgKey 0 8 = true then d.otpRefuse
  else d.otpStart (.field sel ((List.range 12).map (fun i => Table.get 0 d.otpData i)))

/-- A command completes (R84): the shadow shows it at once. A page whose EN was cleared becomes idle (R74). -/
def Dev.otpDone (d : Dev) : Dev :=
  match d.otpCmd with
  | none => d
  | some c => { (d.setB pgOtp F.OTP_STAT_BUSY false).irq pgOtp 0 with otp := d.otp.blow c, otpCmd := none }

/-- OTP_STAT as the shadow gives it (Table 3-16). -/
def Dev.otpStat (d : Dev) : Nat :=
  let o := d.otp
  o.rollback % 128 + o.revoked.toNat * 2 ^ 8 + o.bootOrder.toNat * 2 ^ 12 + b2n o.xspiFast * 2 ^ 14 +
    o.dbgMax * 2 ^ 16 + o.dbgCut.toNat * 2 ^ 18 +
    ((List.range 4).foldl (fun a n => a + b2n (o.slotUsed n) * 2 ^ n) 0) * 2 ^ 20 +
    b2n (anyBlown o.dbgKey 0 8) * 2 ^ 24 +
    b2n (d.on pgOtp F.OTP_STAT_REFUSED) * 2 ^ 30 + b2n (d.on pgOtp F.OTP_STAT_BUSY) * 2 ^ 31

/-! The boot ROM (R75-R78, 21 R472) -/

/-- Bytes of the factory image before its CRC. -/
def Otp.fcalBytes (o : Otp) : List Byte := (List.range 2047).flatMap (fun w => bytesLE 4 (o.fcalWord w).toNat)

/-- The factory image's CRC holds (R79). [DESIGN CHOICE (log 10)] -/
def Otp.fcalGood (o : Otp) : Bool := crc32 o.fcalBytes == (o.fcalWord 2047).toNat

/-- A field of an image. [DEDUCED (log 132)] -/
def imgField (img : List Byte) (o n : Nat) : Nat := valueLE ((img.drop o).take n)

/-- MAGIC is present. [DEDUCED (log 133)] -/
def magicOk (img : List Byte) : Bool := imgField img 0 4 == 0x49584D54

/-- Payload bytes of an image. -/
def payloadLen (img : List Byte) : Nat := imgField img 0x20 4

/-- The header and address fields of an image are valid (R76, R77). [DEDUCED (log 133)] -/
def formatOk (img : List Byte) : Bool :=
  let load := imgField img 0x10 8
  let entry := imgField img 0x18 8
  let n := payloadLen img
  magicOk img && imgField img 4 4 == 1 && imgField img 8 4 ≤ 64 && imgField img 0xC 4 < 4 &&
    load % 64 == 0 && n % 64 == 0 && 0x10000000 ≤ load && load + n ≤ 0x11FF0000 && load ≤ entry && entry < load + n &&
    imgField img 0x24 4 == 0 && imgField img 0xE8 24 == 0

/-- verify (R77): the code of Table 3-12 of an image in the boot window; 0 accepts. [DEDUCED (log 132, 133)] -/
def Otp.verify (o : Otp) (img : List Byte) : Nat :=
  let slot := imgField img 0xC 4
  let key := (img.drop 0x28).take 96
  if !formatOk img then 3
  else if o.revoked.getLsbD slot then 5
  else if o.keyCut.getLsbD slot || sha384 key != (List.range 12).flatMap (fun w => bytesLE 4 (Table.get 0 o.keyHash (12 * slot + w)).toNat) then 4
  else if imgField img 8 4 < o.rollback then 6
  else if !ecdsaVerify (valueLE (key.take 48)) (valueLE (key.drop 48)) (imgField img 0x88 48) (imgField img 0xB8 48)
      (img.take 0x88 ++ (img.drop 0x100).take (payloadLen img)) then 7
  else 0

/-- The root capabilities (17 Table 17-6). [DESIGN CHOICE (log 8)] -/
def rootArch (entry : Nat) : Arch :=
  let base : Capability := { xp := 34, tag := true }
  { pcc := { base with addr := BitVec.ofNat 64 entry, perms := 0x30D }
    ddc := { base with perms := 0x01B }
    caps := [(0, { perms := 0x0C0, lm := 0x1000, tag := true }),
      (1, { addr := 0xE0000000, perms := 0x023, otype := 1, sealing := 1, xp := 14, tag := true })] }

/-- The boot ROM's workspace is zeroed (R77). -/
def Dev.zeroWorkspace (d : Dev) : Dev :=
  let out : Nat → Bool := fun a => !(0x11FF0000 ≤ a && a < 0x12000000)
  { d with
    mem := Table.keep out d.mem
    tags := Table.keep (fun k => out (16 * k)) d.tags
    poison := Table.keep (fun k => !(0x1000000000000 ≤ k && !out (8 * (k - 0x1000000000000)))) d.poison }

/-- The jump to ENTRY with the root capabilities (R77, 17 R379, 19 R428): the payload is in place. [DEDUCED (log 6)] -/
def Dev.bootJump (d : Dev) (img : List Byte) : Dev :=
  let n := payloadLen img
  let d := d.putClean (imgField img 0x10 8) ((img.drop 0x100).take n)
  let d := (d.zeroWorkspace.setB pgSysid F.BOOT_STAT_DONE true).closeWindows
  let d := { d with sys := { d.sys with romWaiting := false, xspiLeft := false } }
  (d.setCore 4 { arch := rootArch (imgField img 0x18 8), running := true, intMark := (d.core 4).intMark }).checkpoint 4

/-- A source's attempt with an image in the boot window: 1, 2 the xSPI copies, 3 PCIe. [DEDUCED (log 134)] -/
def Dev.bootTry (d : Dev) (source code : Nat) (img : List Byte) : Dev :=
  let d := (d.setF pgSysid F.BOOT_STAT_SOURCE source).setF pgSysid F.BOOT_STAT_CODE code
  if code = 0 then d.bootJump img else d

/-- One xSPI copy, whose flash holds `f` (R472): the header is read, then the payload it names. -/
def Dev.bootCopy (d : Dev) (source : Nat) (f : List Byte) : Dev :=
  let hdr := f.take 0x100 ++ List.replicate (0x100 - f.length) 0
  let n := payloadLen hdr
  let img := if formatOk hdr then hdr ++ (f.drop 0x100).take n ++ List.replicate (n - (f.length - 0x100)) 0 else hdr
  let d := d.putClean 0x11000000 img
  d.bootTry source (d.otp.verify img) img

/-- The xSPI source: copy A, then copy B (R75). NO_IMAGE where neither holds MAGIC. [DEDUCED (log 133, 135)] -/
def Dev.bootXspi (d : Dev) (a b : List Byte) : Dev :=
  let d := d.bootCopy 1 a
  if d.bootDone then d
  else
    let d := d.bootCopy 2 b
    if !d.bootDone && !magicOk a && !magicOk b then d.setF pgSysid F.BOOT_STAT_CODE 2 else d

/-- The ROM waits for a doorbell (R78). [DEDUCED (log 134)] -/
def Dev.bootWait (d : Dev) (xspi : Bool) : Dev :=
  if d.bootDone then d else { d with sys := { d.sys with romWaiting := true, xspiLeft := xspi } }

/-- The boot ROM runs (R75, R80): `a` and `b` are what the flash holds at the two copies. [DEDUCED (log 6)] -/
def Dev.bootRom (d : Dev) (a b : List Byte) : Dev :=
  if !d.otp.fcalGood then d.setF pgSysid F.BOOT_STAT_CODE 1
  else match d.otp.bootOrder.toNat with
    | 0 => (d.bootXspi a b).bootWait false
    | 1 => d.bootWait true
    | 2 => d.bootXspi a b
    | _ => d.bootWait false

/-- A doorbell while the ROM waits (R472): the image's first `len` bytes of the boot window. [DEDUCED (log 134, 135)] -/
def Dev.bootDoorbell (d : Dev) (len : Nat) (a b : List Byte) : Dev :=
  if !d.sys.romWaiting || d.bootDone then d
  else
    let img := d.bytes 0x11000000 (if len < 0x140 ∨ 0xFF0000 < len then 0 else len)
    let code := if img.isEmpty || (formatOk img && len < 0x100 + payloadLen img) then 3 else d.otp.verify img
    let left := d.sys.xspiLeft
    let d := d.bootTry 3 code img
    if d.bootDone || !left then d
    else (d.bootXspi a b).bootWait false

/-- The reset sequence ends (Table 3-9, R59): `testOk` is the outcome of SP's comparator test, `a` and `b` the flash copies, `level` says
that the Vopen level is above NONE. [DEDUCED (log 6)] -/
def Dev.sequenceEnd (d : Dev) (level testOk : Bool) (a b : List Byte) : Dev :=
  let x := d.sys
  if x.reset == .none || x.porstLow || x.wrstLow || x.overtempHold || x.relockWait || x.clkHeld then d
  else
    let on : W32 := if level then 0xE0000010 else 0xA0000010
    let d := (d.setReg (pgPwr + 0x44) on).setReg (pgPwr + 0x40) (on &&& 0x7FFFFFFF)
    let d := (d.setB pgClk F.PLL_STAT_ROOT_LOCK true).setB pgClk F.PLL_STAT_REF_PRESENT true
    let d := { d with sys := { d.sys with reset := .none, rstoutHigh := true, vddAon := true } }.shutter
    if testOk then d.bootRom a b else d.failPair 4 3

end Sys2Proof.Machine
end

