-- ==== Sys2Proof/Machine/PageCheck.lean ====
section
/-!
DEFINITION. Sys2Proof/Machine/PageCheck.lean: the enable check of every page, what enabling and disabling a block does, and when a
stopping block is idle (01_register_pages.md R22-R27).
-/
namespace Sys2Proof.Machine

/-- The range of INDEX for each KIND of CAP_SEL (Table 9-11). -/
def capIndexMax (kind : Nat) : Nat :=
  match kind with | 1 => 7 | 2 => 31 | 3 => 4095 | 4 => 6 | _ => 4095

/-- The capture ring is aligned to its size and lies in a usable region of its wing's stack (R215). -/
def Dev.capRingOk (d : Dev) (n : Nat) : Bool :=
  let p := pgCap n
  let b := d.r64 p 0x48
  let s := n / 32
  let size := 2 ^ d.f p F.CAP_SIZE_LOG2
  b % size == 0 && (List.range 4).any (fun r =>
    hbmBase s + d.crStart s r * 0x100000 ≤ b && b + size ≤ d.crEnd s r)

/-- The enable check of a capture page (09 R217, Table 9-13). -/
def Dev.capCheck (d : Dev) (n : Nat) : List (Nat × Nat) :=
  let p := pgCap n
  let nsig := d.f p F.CAP_CTRL_NSIG
  let log := d.f p F.CAP_SIZE_LOG2
  let s := n / 32
  d.dependCheck (pgHbm s) 8 ++
  (if nsig = 0 ∨ 16 < nsig then [(0x40, 2)] else []) ++
  (if d.domOn (domHbm s) && !d.capRingOk n then [(0x48, 0x101)] else []) ++
  (if log < 12 ∨ 30 < log then [(0x50, 2)] else []) ++
  (List.range 16).flatMap (fun i =>
    let v := d.reg (p + 0x100 + 4 * i)
    let k := bitsOf v 0 3
    let o := 0x100 + 4 * i
    (if k = 7 then [(o, 1)] else []) ++
    (if capIndexMax k < bitsOf v 5 12 then [(o, 2)] else []) ++
    (if k = 0 ∧ i < nsig then [(o, 0x102)] else []))

/-- The enable check of the temperature page: the documented ranges (Table 3-12). -/
def Dev.tempCheck (d : Dev) : List (Nat × Nat) :=
  (if d.fs pgTemp F.TS_WARN_WARN < -880 ∨ 2400 < d.fs pgTemp F.TS_WARN_WARN then [(0x64, 2)] else []) ++
  (if d.f pgTemp F.TS_HYST_HYST = 0 then [(0x68, 2)] else [])

/-- The enable check of an interrupt controller page (17 R393, 19 R429): SP has the door sources, the application pairs the time-out. -/
def Dev.intcCheck (d : Dev) (k : Nat) : List (Nat × Nat) :=
  let p := pgIntc k
  let b := d.r64 p 0x108
  (if k < 4 ∧ d.f p F.RDOOR_TMO_TMO = 0 then [(0x54, 2)] else []) ++
  (List.range 4).flatMap (fun j =>
    let v := d.reg (p + 0x58 + 4 * j)
    if k = 4 ∧ (bitsOf v 0 3 = 7 ∨ 239 < bitsOf v 3 8) then [(0x58 + 4 * j, 2)] else []) ++
  (if d.f p F.LS_CTRL_RB_REPEAT_MAX = 0 then [(0x100, 2)] else []) ++
  (if b % 4096 ≠ 0 ∨ wordPoison b = false then [(0x108, 4)] else [])

/-- The enable check of a source page (17 R393). -/
def Dev.intsrcCheck (d : Dev) (k q : Nat) : List (Nat × Nat) :=
  (List.range 512).flatMap (fun i =>
    let v := d.reg (pgIntsrc k q + 0x40 + 4 * i)
    if bitsOf v 0 3 = 7 ∨ 239 < bitsOf v 3 8 then [(0x40 + 4 * i, 2)] else [])

/-- The enable check of a node-binding page (14 Table 14-11). -/
def Dev.tlnbCheck (d : Dev) (l : Nat) : List (Nat × Nat) :=
  let p := pgTlnb l
  if 32 < d.f p F.NB_CFG_NCH ∨ 64 < d.f p F.NB_CFG_NVAL ∨ d.f p F.NB_CFG_LOSS < 2 then [(0x54, 2)] else []

/-- The enable check of a time-transfer page (14 Table 14-12). -/
def Dev.tlttCheck (d : Dev) (l : Nat) : List (Nat × Nat) :=
  let a := d.fs (pgTltt l) F.TT_ASYM_ASYM
  if a < -1048576 ∨ 1048576 < a then [(0x68, 2)] else []

/-- The enable check of a page: (offset, code) of every inconsistency (R22, R23). -/
def Dev.pageCheck (d : Dev) (p : PageInfo) : List (Nat × Nat) :=
  let n := p.inst
  match p.kind with
  | .temp => d.tempCheck
  | .lintel =>
    let t := d.fs pgLintel F.LT_TRIM_TRIM
    if t < -858993 ∨ 858993 < t then [(0x48, 2)] else []
  | .pwm => d.pwmCheck n
  | .adc => d.adcCheck n
  | .sd => d.sdCheck n
  | .cmp => d.cmpCheck p.base
  | .timer => d.timerCheck (n / 4) (n % 4)
  | .wd => d.wdCheck (.cas n)
  | .wdc => d.wdCheck (.core n)
  | .enc => d.encCheck n
  | .sash => d.sashCheck n
  | .jq => d.jqCheck n
  | .tpl => d.tplCheck n
  | .lctl => d.lctlCheck n
  | .lent => d.lentCheck (n / 4) (n % 4)
  | .tlc => d.tlCheck n
  | .tlnb => d.tlnbCheck n
  | .tltt => d.tlttCheck n
  | .group => d.groupCheck n (d.expert p.base)
  | .cassrc => d.casSrcCheck n
  | .mon => d.monCheck n
  | .inj => d.injCheck n
  | .cap => d.capCheck n
  | .hbm => d.hbmCheck n
  | .code => d.codeCheck n
  | .scrub => if d.f p.base F.SCR_CTRL_PERIOD = 0 then [(0x40, 2)] else []
  | .sill => if d.en (pgCode n) then [] else [(8, 5)]
  | .pf => d.pfCheck n
  | .dma => d.dmaCheck
  | .eth => d.ethCheck n
  | .can => d.canCheck n
  | .xspi => d.xspiCheck
  | .i2c => d.i2cCheck
  | .intc => d.intcCheck n
  | .intsrc => d.intsrcCheck (n / 4) (n % 4)
  | .clk | .pwr | .sysid | .rst | .otp | .evf | .own | .ferr | .fcal | .wing | .tlcnt | .flt | .vt | .dbg => []

/-- The failure a check reports: the lowest offset, there the lowest code (R23). -/
def firstFailure (l : List (Nat × Nat)) : Option (Nat × Nat) :=
  l.foldl (fun (a : Option (Nat × Nat)) x => match a with
    | none => some x
    | some y => if x.1 < y.1 ∨ (x.1 = y.1 ∧ x.2 < y.2) then some x else a) none

/-- What a block does once its page is enabled. -/
def Dev.enableEffect (d : Dev) (p : PageInfo) : Dev :=
  let n := p.inst
  match p.kind with
  | .pwr => d.pwrEnable
  | .pwm => d.pwmEnable n
  | .adc => d.adcEnable n
  | .sd => d.sdEnable n
  | .cmp => d.cmpEnable (n / 4) (n % 4)
  | .timer => d.timerEnable (n / 4) (n % 4)
  | .wd => d.wdWindow (.cas n)
  | .wdc => d.wdWindow (.core n)
  | .enc => d.encEnable n
  | .sash => d.sashEnable n
  | .lctl => d.lctlEnable n
  | .lent => d.lentEnable (n / 4) (n % 4)
  | .tlc => d.tlEnable n
  | .mon => d.monEnable n
  | .inj => d.injEnable n
  | .cap => d.capEnable n
  | .code => d.codeEnable n
  | .group | .flt | .cassrc | .vt => d.shutter
  | .clk | .sysid | .rst | .temp | .lintel | .evf | .own | .ferr | .otp | .fcal | .jq | .tpl | .wing | .tlnb | .tltt | .tlcnt
  | .hbm | .scrub | .sill | .pf | .dma | .eth | .can | .xspi | .i2c | .intc | .intsrc | .dbg => d

/-- What a block does at once when EN of its page is cleared (R24). -/
def Dev.disableEffect (d : Dev) (p : PageInfo) : Dev :=
  let n := p.inst
  match p.kind with
  | .pwm => d.pwmDisable n
  | .adc => d.adcDisable n
  | .sd => d.sdDisable n
  | .cmp => d.cmpDisable (n / 4) (n % 4)
  | .timer => d.timerDisable (n / 4) (n % 4)
  | .wd => d.wdDisable (.cas n)
  | .wdc => d.wdDisable (.core n)
  | .sash => d.sashDisable n
  | .jq => d.jqEmpty n
  | .tlc => d.tlDisable n
  | .mon => d.monDisable n
  | .inj => d.injDisable n
  | .cap => d.capDisable n
  | .hbm | .code => d.mbFlush n
  | .sill => d.sillDisable n
  | .dma => d.dmaDisable
  | .can => d.canLeave n
  | .group | .flt | .cassrc | .vt => d.shutter
  | .clk | .pwr | .sysid | .rst | .temp | .lintel | .evf | .own | .ferr | .otp | .fcal | .enc | .tpl | .wing | .lctl | .lent | .tlnb
  | .tltt | .tlcnt | .scrub | .pf | .eth | .xspi | .i2c | .intc | .intsrc | .dbg => d

/-- A stopping block has reached idle (R24, R74). -/
def Dev.blockIdle (d : Dev) (p : PageInfo) : Bool :=
  let n := p.inst
  match p.kind with
  | .otp => d.otpCmd.isNone
  | .sash => (d.sash n).job.isNone
  | .tpl => !d.on p.base F.TPL_STATUS_IN_USE
  | .cap => (d.cap n).buffer.isEmpty
  | .tlc => d.tlIdle n
  | .dma => d.dmaIdle
  | .eth => d.ethIdle n
  | .can => (d.can n).tx.isNone
  | .xspi => d.xspi.cmd.isNone
  | .i2c => d.i2c.cmd.isNone
  | _ => true

/-- BLOCK_IDLE (R24, R74): STATUS.BUSY of a stopping block clears. -/
def Dev.becomeIdle (d : Dev) (p : PageInfo) : Dev :=
  if d.domOn p.dom && d.busy p.base && d.blockIdle p then d.setB p.base F.H_BUSY false else d

/-- A failed enable check (R22): EN stays 0, CHECK reports, CHECK_FAIL sets. -/
def Dev.checkFailed (d : Dev) (p o code : Nat) : Dev :=
  ((d.setReg (p + 0xC) (BitVec.ofNat 32 (code + o * 2 ^ 16))).setB p F.H_CHECK_FAIL true).irq p 30

/-- A write that sets EN from 0 to 1 (R22-R24); EXPERT has been applied. [DEDUCED (log 150)] -/
def Dev.enablePage (d : Dev) (p : PageInfo) : Dev :=
  if d.busy p.base then d.checkFailed p.base 8 9
  else match firstFailure (d.pageCheck p) with
    | some (o, c) => d.checkFailed p.base o c
    | none => ((d.setReg (p.base + 0xC) 0).setB p.base F.H_EN true).enableEffect p

/-- A write that clears EN (R24): the stop behaviour starts. -/
def Dev.disablePage (d : Dev) (p : PageInfo) : Dev :=
  ((d.setB p.base F.H_EN false).setB p.base F.H_BUSY true).disableEffect p

/-- A change of EXPERT reaches a group's vote at once (11 R252, R253). -/
def Dev.expertEffect (d : Dev) (p : PageInfo) : Dev := if p.kind = .group then d.shutter else d

/-- A write of ENABLE (R22-R25); the second case of R25 has been refused before. -/
def Dev.writeEnable (d : Dev) (p : PageInfo) (v : W32) : Dev :=
  let was := d.en p.base
  if was then
    if bitAt v 0 then d else ((d.disablePage p).setB p.base F.H_EXPERT (bitAt v 1)).expertEffect p
  else
    let d := (d.setB p.base F.H_EXPERT (bitAt v 1)).expertEffect p
    if bitAt v 0 then d.enablePage p else d

end Sys2Proof.Machine
end

