-- ==== Sys2Proof/Machine/Own.lean ====
section
/-!
DEFINITION. Sys2Proof/Machine/Own.lean: who may access a register page, and the page-ownership page
(01_register_pages.md R34-R37, 17 R375).
-/
namespace Sys2Proof.Machine

/-- Authority over an object type (R34, R36, R375). -/
def Dev.authority (d : Dev) (w : Who) (t : Nat) : Bool :=
  if w.req = 0x3F0 then d.dbgLevel == 2
  else if w.req = 0x300 ∨ w.req = 0x301 then
    d.f (pgPf (w.req - 0x300)) F.PF_OTYPE_OTYPE == t && t != 0 && t != 1
  else if coreReq w.req then w.otype == some t && (t != 1 || w.req == 5)
  else false

/-- Authority to write the registers of the page-ownership page (R37). [DEDUCED (log 11)] -/
def Dev.ownAuthority (d : Dev) (w : Who) : Bool :=
  if w.req = 0x3F0 then d.dbgLevel == 2
  else if w.req = 0x300 ∨ w.req = 0x301 then d.f (pgPf (w.req - 0x300)) F.PF_OTYPE_OTYPE != 0
  else if coreReq w.req then
    match w.otype with
    | some t => t != 1 || w.req == 5
    | none => false
  else false

/-- A write of a page's offset is authorised: R34, with FOUT_CTRL (02 R50), WD_FEED (13 R292), PF_TSNAP_GO (21 R457), BOOT_DB and the
xSPI page before DONE (21 R472). [DEDUCED (log 11)] -/
def Dev.mayWrite (d : Dev) (w : Who) (p : PageInfo) (o : Nat) : Bool :=
  if p.kind = .own ∧ 0x40 ≤ o ∧ o < 0x50 then d.ownAuthority w
  else if p.kind = .wdc ∧ o = 0x4C then w.req == p.inst + 1
  else if p.kind = .rst ∧ o = 0xC0 then w.req == 5
  else if p.kind = .pf ∧ o = 0x50 ∧ w.req = 0x300 + p.inst then true
  else if p.kind = .pf ∧ p.inst = 0 ∧ o = 0x180 ∧ w.req = 0x300 ∧ d.bootDone = false then true
  else if p.kind = .xspi ∧ d.bootDone = false then false
  else d.authority w (d.otype p.base)

/-- A read is authorised (R34). -/
def Dev.mayRead (d : Dev) (w : Who) : Bool :=
  if w.req = 0x3F0 then 1 ≤ d.dbgLevel
  else if w.req = 0x300 ∨ w.req = 0x301 then true
  else coreReq w.req && w.load

/-- What a requester has staged in the page-ownership page (R36). -/
def Dev.stage (d : Dev) (req : Nat) : OwnStage := Table.get {} d.own req

/-- Writes what a requester has staged. -/
def Dev.setStage (d : Dev) (req : Nat) (s : OwnStage) : Dev := { d with own := Table.put {} d.own req s }

/-- The code of an OWN_GO write, 0 where it transfers (R36). [DEDUCED (log 14)] -/
def Dev.ownCode (d : Dev) (w : Who) : Nat :=
  let s := d.stage w.req
  match pageAt (s.pageLo.toNat + s.pageHi.toNat * 2 ^ 32) with
  | none => 3
  | some p =>
    if !d.authority w (d.otype p.base) then 1
    else if d.on p.base F.H_LOCKED then 2
    else if bitsOf s.type 0 12 = 0 then 4
    else 0

/-- OWN_GO (R36): the transfer, or its refusal; the code is held for the requester. A page in a domain that is off keeps its
reset ownership. [DEDUCED (log 14)] -/
def Dev.ownGo (d : Dev) (w : Who) : Dev :=
  let s := d.stage w.req
  let c := d.ownCode w
  let d := d.setStage w.req { s with stat := BitVec.ofNat 32 c }
  if c ≠ 0 then d
  else match pageAt (s.pageLo.toNat + s.pageHi.toNat * 2 ^ 32) with
    | none => d
    | some p =>
      if d.domOn p.dom then
        (d.setF p.base F.H_OTYPE (bitsOf s.type 0 12)).setB p.base F.H_LOCKED (bitAt s.type 31)
      else d

/-- A write of a register of the page-ownership page. [DEDUCED (log 11)] -/
def Dev.ownWrite (d : Dev) (w : Who) (o : Nat) (v : W32) : Dev :=
  let s := d.stage w.req
  match o with
  | 0x40 => d.setStage w.req { s with pageLo := v }
  | 0x44 => d.setStage w.req { s with pageHi := v &&& 0xFFFF }
  | 0x48 => d.setStage w.req { s with type := v &&& 0x80000FFF }
  | 0x4C => if bitAt v 0 then d.ownGo w else d
  | _ => d

/-- A register of the page-ownership page as a requester reads it. -/
def Dev.ownRead (d : Dev) (req o : Nat) : W32 :=
  let s := d.stage req
  match o with
  | 0x40 => s.pageLo
  | 0x44 => s.pageHi
  | 0x48 => s.type
  | 0x50 => s.stat
  | _ => 0

end Sys2Proof.Machine
end

