-- ==== Sys2Proof/Machine/Fabric.lean ====
section
/-!
DEFINITION. Sys2Proof/Machine/Fabric.lean: an access to a register page: its violations, the fields it writes, the effects it has, and what
it reads (01_register_pages.md R20-R33 and the register tables).
-/
namespace Sys2Proof.Machine

/-- The register word at an offset of a page (R19). Offsets that Table 17-12 and Table 21-9 give to some instances only are reserved on the others. -/
def wordAt (p : PageInfo) (o : Nat) : Option RWord :=
  if p.kind = .intc ∧ p.inst = 4 ∧ (0x40 ≤ o ∧ o < 0x48 ∨ o = 0x54) then none
  else if p.kind = .intc ∧ p.inst ≠ 4 ∧ 0x58 ≤ o ∧ o < 0x68 then none
  else if p.kind = .eth ∧ p.inst ≠ 0 ∧ 0x60 ≤ o ∧ o < 0x6C then none
  else findWord p.kind o

/-- A field that a write can change. -/
def RType.writable : RType → Bool
  | .rw | .rwl | .wo | .w1c | .w1s => true
  | .ro | .rc => false

/-- A word all of whose fields are read-only, where it names a register (R31); the image words of an FCAL page are (03 R79). -/
def readOnlyAt (p : PageInfo) (o : Nat) : Bool :=
  if o < 0x40 then [0x00, 0x04, 0x0C, 0x14, 0x18, 0x1C, 0x28].contains o
  else if p.kind = .fcal ∧ 0x800 ≤ o then true
  else match wordAt p o with
    | none => false
    | some r => !r.fields.any (fun f => f.ty.writable)

/-- The block-specific interrupts of a page, as a mask of IRQ_EN (R20); CHECK_FAIL and VIOL are common. -/
def irqMask : PageKind → W32
  | .pwr | .temp | .otp | .inj | .flt | .sd | .wd | .wdc | .tlnb | .tltt | .sill | .xspi => 0xC0000001
  | .lintel | .lctl | .tpl | .mon | .group | .adc | .enc | .ferr | .scrub | .i2c => 0xC0000003
  | .jq => 0xC0000007
  | .can => 0xC000000F
  | .sash | .pwm | .tlc => 0xC000001F
  | .cmp => 0xC000003F
  | .dma => 0xC00000FF
  | .eth => 0xC00007FF
  | .timer => 0xC0FFFFFF
  | _ => 0xC0000000

/-- The offsets an access covers. -/
def offsets (o len : Nat) : List Nat := if len = 8 then [o, o + 4] else [o]

/-- A write of one word as its field types have it. -/
def Dev.storeWord (d : Dev) (p : PageInfo) (o : Nat) (v : W32) : Dev :=
  let a := p.base + o
  match o with
  | 0x08 => d.writeEnable p v
  | 0x10 =>
    let old := match wordAt p o with
      | some r => r.merge (d.reg a) v
      | none => d.reg a
    d.setReg a (old &&& ~~~ (v &&& 0x40000000))
  | 0x20 => d.setReg a (v &&& irqMask p.kind)
  | 0x24 => d.setReg a (d.reg a &&& ~~~ v)
  | _ =>
    if o < 0x40 then d
    else match wordAt p o with
      | some r => d.setReg a (r.merge (d.reg a) v)
      | none => d

/-- A write of 4 or 8 bytes as the field types have it. -/
def Dev.storeAll (d : Dev) (p : PageInfo) (o len v : Nat) : Dev :=
  (halves o len v).foldl (fun (d : Dev) h => d.storeWord p h.1 h.2) d

/-- The width of an access is permitted at an offset (R31); JQ_POST takes 64-bit accesses only, SILL_START 64-bit
writes only (08 R200, 20 R445). [DEDUCED (log 20)] -/
def sizeOk (p : PageInfo) (o len : Nat) (write : Bool) : Bool :=
  let wide := (p.kind = .jq ∧ (o = 0x48 ∨ o = 0x4C)) ∨ (write = true ∧ p.kind = .sill ∧ (o = 0x40 ∨ o = 0x44))
  if len = 4 then !decide wide
  else len == 8 && (match wordAt p o with | some r => r.pair | none => false)

/-- A write would change a non-live field while EN is 1 (R25, R28). -/
def Dev.notLive (d : Dev) (p : PageInfo) (o : Nat) (v : W32) : Bool :=
  if o = 8 then bitAt v 0 && bitAt v 1 != d.expert p.base
  else if o < 0x40 then false
  else match wordAt p o with
    | none => false
    | some r => r.fields.any (fun f => f.ty = .rw && bitsOf v f.lsb f.width != bitsOf (d.reg (p.base + o)) f.lsb f.width)

/-- The values an INT_SRC or DSRC word may not hold (17 Tables 17-12, 17-13). -/
def badSource (v : W32) : Bool := bitsOf v 0 3 == 7 || 239 < bitsOf v 3 8

/-- A register's documented range is broken, whatever EN: `d` holds the word as written (10 R29; 19 Table 19-4; 21 Tables 21-4, 21-9, 21-11, 21-13). [DEDUCED (log 13)] -/
def Dev.neverValid (d : Dev) (p : PageInfo) (o : Nat) : Bool :=
  let v := d.reg (p.base + o)
  match p.kind with
  | .intc =>
    let b := d.r64 p.base 0x108
    (o == 0x108 || o == 0x10C) && (b % 4096 != 0 || !wordPoison b)
  | .dma => 0x100 ≤ o && o < 0x200 && o % 0x20 == 0x10 && 2 ^ bitsOf (d.reg (p.base + o - 8)) 0 4 ≤ bitsOf v 0 12
  | .eth =>
    ((0x100 ≤ o && o < 0x180 && o % 0x10 == 0xC) || o == 0x18C) &&
      2 ^ bitsOf (d.reg (p.base + o - 4)) 0 4 ≤ bitsOf v 0 12
  | .can =>
    0x100 ≤ o && o < 0xD00 && (wordAt p o).isSome && bitAt (d.reg (p.base + 0x54)) ((o - 0x100) / 0x60)
  | .i2c => o == 0x44 && (v.toNat % 128 < 8 || 0x78 ≤ v.toNat % 128)
  | _ => false

/-- A live field lies outside its documented range (R29): `d` holds the word as written. [DEDUCED (log 13, 15)] -/
def Dev.outOfRange (d : Dev) (p : PageInfo) (o : Nat) : Bool :=
  let b := p.base
  let v := d.reg (b + o)
  let n := p.inst
  match p.kind with
  | .temp =>
    (o == 0x64 && (decide (d.fs b F.TS_WARN_WARN < -880) || decide (2400 < d.fs b F.TS_WARN_WARN))) ||
      (o == 0x68 && d.f b F.TS_HYST_HYST == 0)
  | .lintel => o == 0x48 && (decide (d.fs b F.LT_TRIM_TRIM < -858993) || decide (858993 < d.fs b F.LT_TRIM_TRIM))
  | .lent =>
    let e := 64 * (n % 4) + (o - 0x100) / 0x20
    let c := n / 4
    if o < 0x100 || 0x900 ≤ o then false
    else match (o - 0x100) % 0x20 with
      | 0 | 4 => !d.expert b && decide (d.f (pgLctl c) F.LNCH_FRAME_PERIOD_PERIOD ≤ d.leTime c e)
      | 8 | 0xC => (1 ≤ d.lePeriod c e && d.lePeriod c e ≤ 5) || 2 ^ 63 ≤ d.lePeriod c e
      | 0x14 => 8 ≤ bitsOf v 4 4
      | _ => false
  | .sash =>
    (o == 0x5C && (4 < d.f b F.RES_INJECT_UNIT || d.f b F.RES_INJECT_COUNT == 3)) ||
      (o == 0x94 && (d.f b F.LOAD_LEN_LEN == 0 || 4096 < d.f b F.LOAD_LEN_LEN))
  | .tpl => 0x100 ≤ o && !tcOk (tcKind (d.f b F.TPL_CTRL_PROG) ((o - 0x100) / 4 % 240)) v.toNat
  | .jq => o == 0x40 && bitsOf v 0 2 == 3
  | .mon => 0x180 ≤ o && o ≤ 0x190 && 15 < v.toNat
  | .pwm =>
    (o == 0x44 && (v.toNat < 32 || 0x0FFFFFFF < v.toNat)) || (o == 0x50 && 0x0FFFFFFF < v.toNat) ||
      (o == 0x80 && d.f b F.PWM_XCTRL_REF_FORCE == 3)
  | .timer => 0x100 ≤ o && (o - 0x100) % 0x40 == 0x10 && 1 ≤ v.toNat && v.toNat ≤ 5
  | .tlc => (o == 0x44 && bitsOf v 0 24 < 1800) || (o == 0x54 && 32 < bitsOf v 0 6)
  | .tlnb => o == 0x54 && !(d.tlnbCheck n).isEmpty
  | .tltt => o == 0x68 && !(d.tlttCheck n).isEmpty
  | .intc =>
    (o == 0x54 && bitsOf v 0 16 == 0) || (0x58 ≤ o && o < 0x68 && badSource v) || (o == 0x100 && d.f b F.LS_CTRL_RB_REPEAT_MAX == 0)
  | .intsrc => 0x40 ≤ o && badSource v
  | .hbm =>
    (o == 0x40 && d.f b F.HBM_CTRL_MODE == 3) ||
      (o == 0x4C && (d.f b F.HBM_MB_AGE_AGE == 0 || 1000 < d.f b F.HBM_MB_AGE_AGE)) ||
      (o == 0x50 && v.toNat % 2048 != 0) || (o == 0x58 && 8388608 < d.f b F.HBM_INVAL_PAGES_PAGES)
  | .scrub => o == 0x40 && d.f b F.SCR_CTRL_PERIOD == 0
  | .pf => o == 0x40 && bitsOf v 0 12 == 1
  | .eth => (o == 0x208 && v.toNat < 6) || (o == 0x20C && (bitsOf v 0 8 == 0 || 128 < bitsOf v 0 8))
  | .xspi =>
    (o == 0x44 && !([0, 3, 4].contains (bitsOf v 16 3))) || (o == 0x4C && 256 < bitsOf v 0 9)
  | .i2c => o == 0x48 && 32 < bitsOf v 8 6
  | _ => false

/-- The words of a write as they would stand. -/
def Dev.asWritten (d : Dev) (p : PageInfo) (o len v : Nat) : Dev :=
  (halves o len v).foldl (fun (d : Dev) h =>
    if h.1 < 0x40 then d
    else match wordAt p h.1 with
      | some r => d.setReg (p.base + h.1) (r.merge (d.reg (p.base + h.1)) h.2)
      | none => d) d

/-- A directory register of a bank that is active or not open (06 R161). [DEDUCED (log 18)] -/
def Dev.dirClosed (d : Dev) (p : PageInfo) (o : Nat) : Bool :=
  p.kind == .sash && 0x200 ≤ o && o < 0x280 &&
    !((decide (0x240 ≤ o) != d.on p.base F.CS_STAT_ACTIVE) && d.on p.base F.CS_STAT_OPEN)

/-- An expert-only field is accessed with EXPERT = 0 (R26). -/
def Dev.expertOnly (d : Dev) (p : PageInfo) (o : Nat) : Bool :=
  !d.expert p.base && (match wordAt p o with | some r => r.fields.any (·.expert) | none => false)

/-- The first violation of an access to a page, in the order of Table 11-1's causes of 01 R32: 01, 02, 03, 06, 04, 05, 09. -/
def Dev.pageCause (d : Dev) (w : Who) (p : PageInfo) (o len v : Nat) (write : Bool) : Option Nat :=
  let os := offsets o len
  if o % Nat.max len 1 ≠ 0 then some 1
  else if !sizeOk p o len write then some 2
  else if (if write then !d.mayWrite w p o else !d.mayRead w) then some 3
  else if os.any (d.expertOnly p) then some 6
  else if !write then none
  else if os.all (fun x => readOnlyAt p x) || os.any (d.dirClosed p) then some 4
  else if d.en p.base && (halves o len v).any (fun h => d.notLive p h.1 h.2) then some 5
  else
    let d' := d.asWritten p o len v
    if os.any (d'.neverValid p) || (d.en p.base && os.any (d'.outOfRange p)) then some 9 else none

/-- Comparators whose mode a write of CMP_MODE changed settle (11 R247). -/
def Dev.modesChanged (d : Dev) (p : Nat) (old : W32) : Dev :=
  d.forN 6 (fun k d =>
    if d.en p && d.on p (F.CMP_CFG_CEN.at (8 * k)) && bitsOf (d.reg (p + 0x70)) (2 * k) 2 != bitsOf old (2 * k) 2 then
      d.setF p ⟨0x10, k, 1⟩ 1
    else d)

/-- The bits of a word that are 1. -/
def onesOf (v : W32) (n : Nat) : List Nat := (List.range n).filter (fun i => bitAt v i)

/-- A write to a page of region 0x0 with its effects (02, 03, 04). -/
def Dev.writeSystem (d : Dev) (w : Who) (p : PageInfo) (o len v : Nat) : Dev :=
  let v32 : W32 := BitVec.ofNat 32 v
  let st := d.storeAll p o len v
  match p.kind with
  | .own => if 0x40 ≤ o then (halves o len v).foldl (fun (d : Dev) h => d.ownWrite w h.1 h.2) d else st
  | .pwr =>
    if o = 0x40 then d.pwrReq v32 else if o = 0x54 then (if bitAt v32 0 then d.standbyEnter else d) else st
  | .clk => if o = 0x44 then st.serdesFollow else st
  | .rst =>
    if o = 0x40 then (if bitAt v32 0 then d.warmReset 2 0 else d) else if o = 0xC0 then d.foutWrite v32 else st
  | .otp =>
    if o = 0x44 then d.otpGo v32
    else if 0x80 ≤ o ∧ o < 0xB0 then { d with otpData := Table.put 0 d.otpData ((o - 0x80) / 4) v32 } else st
  | .lintel => if o = 0x58 then (if bitAt v32 0 then d.stepGo else d) else st
  | .evf =>
    if 0x40 ≤ o ∧ o < 0x50 then d.swWord ((o - 0x40) / 4) v32 true
    else if 0x50 ≤ o ∧ o < 0x60 then d.swWord ((o - 0x50) / 4) v32 false else st
  | _ => st

/-- A write of one context word of a template page: a word that the template in PROG does not name stays zero (07 R171, R177). [DEDUCED (log 27)] -/
def Dev.contextWrite (d : Dev) (p : PageInfo) (o : Nat) (v : W32) : Dev :=
  let i := (o - 0x100) / 4 / 240
  let w := (o - 0x100) / 4 % 240
  let prog := d.f p.base F.TPL_CTRL_PROG
  if 1 ≤ prog ∧ prog ≤ 6 ∧ tcKind prog w = .reserved then d else (d.tplKeep p.inst i w).storeWord p o v

/-- A write to a page of a casement's blocks with its effects (04-10, 12, 13). -/
def Dev.writeCasement (d : Dev) (p : PageInfo) (o len v : Nat) : Dev :=
  let v32 : W32 := BitVec.ofNat 32 v
  let n := p.inst
  let st := d.storeAll p o len v
  match p.kind with
  | .lent => if 0x100 ≤ o ∧ o < 0x900 then st.entryWritten d (n / 4) (64 * (n % 4) + (o - 0x100) / 0x20) else st
  | .sash =>
    if o = 0x5C then st.setSash n { st.sash n with injTick := st.tick }
    else if o = 0x8C then d.loadCtrl n v32
    else if 0x180 ≤ o ∧ o < 0x1C0 then d.evselWrite n ((o - 0x180) / 4) (v % 2048) else st
  | .tpl =>
    if o = 0x40 then (d.tplProg n (v % 65536)).storeAll p o len v
    else if 0x100 ≤ o then (halves o len v).foldl (fun (d : Dev) h => d.contextWrite p h.1 h.2) d else st
  | .jq =>
    if o = 0x48 then d.post n (v % 256) (d.offsetDeadline (v / 2 ^ 32 % 2 ^ 32)) false 65
    else if o = 0x54 then (if bitAt v32 0 then d.jqFlush n else d) else st
  | .mon => if 0x1A0 ≤ o ∧ o < 0x1B0 then st.monXWrite n ((o - 0x1A0) / 4) else st
  | .pwm =>
    if o = 0x44 then d.pwmWrite n 2 v false else if o = 0x48 then d.pwmWrite n 0 v false
    else if o = 0x4C then d.pwmWrite n 1 v false
    else if o = 0x80 then st.refForce n (d.f p.base F.PWM_XCTRL_REF_FORCE) else st
  | .adc => if 0x50 ≤ o ∧ o < 0x68 then (d.adcCalWrite n ((o - 0x50) / 8)).storeAll p o len v else st
  | .sd =>
    if 0x80 ≤ o ∧ o < 0x140 ∧ (o % 0x20 = 8 ∨ o % 0x20 = 0xC) then
      (d.sdCalWrite n ((o - 0x80) / 0x20)).storeAll p o len v else st
  | .timer =>
    if 0x100 ≤ o ∧ o < 0x300 ∧ ((o - 0x100) % 0x40 = 8 ∨ (o - 0x100) % 0x40 = 0xC) then
      let k := (o - 0x100) / 0x40
      d.tmrWrite (n / 4) (8 * (n % 4) + k) ((d.asWritten p o len v).r64 p.base (0x108 + 0x40 * k))
    else st
  | .enc => if o = 0x48 then d.encPreset n v else st
  | .wd => if o = 0x50 then (if bitAt v32 0 then d.wdAck (.cas n) else d) else st
  | .wdc =>
    if o = 0x4C then d.wdFeed (.core n) else if o = 0x50 then (if bitAt v32 0 then d.wdAck (.core n) else d) else st
  | _ => st

/-- A write to a page of the Shutter matrix or of comparators with its effects (11). -/
def Dev.writeShutter (d : Dev) (p : PageInfo) (o len v : Nat) : Dev :=
  let v32 : W32 := BitVec.ofNat 32 v
  let n := p.inst
  let st := d.storeAll p o len v
  match p.kind with
  | .cmp =>
    if o = 0x78 then (onesOf v32 6).foldl (fun (d : Dev) k => d.cmpLatchClear (6 * n + k)) d
    else if o = 0x70 then st.modesChanged p.base (d.reg (p.base + 0x70))
    else if 0x44 ≤ o ∧ o < 0x70 ∧ o % 8 = 4 then d.cmpDacWrite (6 * n + (o - 0x44) / 8) (v % 4096) else st
  | .group => if o = 0xAC then (if bitAt v32 0 then d.clearGroups [n] else d) else st.shutter
  | .vt =>
    if o = 0x40 ∨ o = 0x44 then d.vtSet (BitVec.ofNat 64 (v32.toNat * 2 ^ (8 * (o - 0x40))))
    else if o = 0x48 ∨ o = 0x4C then d.vtClr (BitVec.ofNat 64 (v32.toNat * 2 ^ (8 * (o - 0x48))))
    else if o = 0x60 then (if d.en p.base then d.clearGroups (onesOf v32 24) else d) else st.shutter
  | .cassrc => (st.csLive n).shutter
  | _ => st.shutter

/-- The effects of a write of NB_CMD (14 R306, R308, R321). -/
def Dev.nbCmd (d : Dev) (l : Nat) (v : W32) : Dev :=
  let d := if bitAt v 0 then d.nbBind l else d
  let d := if bitAt v 1 then d.nbUnbind l else d
  if bitAt v 2 then d.ackDetach l else d

/-- A write to a page of the links, the cores, HBM, the host or a network with its effects (14, 17, 20, 21). -/
def Dev.writeOuter (d : Dev) (w : Who) (p : PageInfo) (o len v : Nat) : Dev :=
  let v32 : W32 := BitVec.ofNat 32 v
  let n := p.inst
  let st := d.storeAll p o len v
  match p.kind with
  | .tlnb => if o = 0x60 then d.nbCmd n v32 else st
  | .intc => if o = 0x48 then (if bitAt v32 0 then d.coreGo n else d) else (d.lsHold n o).storeAll p o len v
  | .intsrc =>
    let e := 512 * (n % 4) + (o - 0x40) / 4
    if 0x40 ≤ o ∧ bitAt v32 11 = true ∧ o < 0x840 then st.intClear (n / 4) e else st
  | .hbm =>
    if o = 0x40 then (if bitAt v32 2 then st.mbFlush n else st)
    else if o = 0x5C then (if bitAt v32 0 then d.hbmInvalGo n else d) else st
  | .scrub => if o = 0x54 then (if bitAt v32 0 then d.scrGo n else d) else st
  | .sill => if o = 0x40 then (d.sillStart n v).1 else if o = 0x58 then d.sillCancel n (v % 65536) else st
  | .pf =>
    if o = 0x50 then (if bitAt v32 0 && w.req == 0x300 + n then d.tsnapGo n else d)
    else if 0x100 ≤ o ∧ o < 0x180 then st.msixBind n ((o - 0x100) / 4)
    else if o = 0x180 then (if w.req = 0x300 ∧ n = 0 then d.bootDoorbell (v % 2 ^ 24) [] [] else d)
    else st
  | .dma =>
    if 0x100 ≤ o ∧ o < 0x200 ∧ o % 0x20 = 0xC then
      let k := (o - 0x100) / 0x20
      st.dmaEnWrite k (d.on (chPage k) F.CH_EN_EN)
    else st
  | .eth =>
    if o = 0x64 then (if bitAt v32 0 && n == 0 then d.mdioGo else d)
    else if o = 0x218 then (if bitAt v32 1 then st.gclGo n else st)
    else if 0x40 ≤ o ∧ o < 0x200 then (d.creditSee n).storeAll p o len v else st
  | .can =>
    if o = 0x40 then (if bitAt v32 4 then st.canRecover n else st)
    else if o = 0x54 then d.canTxReq n v32
    else if o = 0x58 then d.canTxCan n v32
    else if o = 0x60 then d.canRelease n v32 else st
  | .xspi =>
    if o = 0x50 then
      let d := if bitAt v32 0 then d.xspiGo else d
      if bitAt v32 1 then d.xspiReset else d
    else st
  | .i2c => if o = 0x4C then (if bitAt v32 0 then d.i2cGo else d) else if 0x800 ≤ o then st.busStands else st
  | _ => st

/-- An accepted write to a page with its effects. [DEDUCED (log 18)] -/
def Dev.pageWrite (d : Dev) (w : Who) (p : PageInfo) (o len v : Nat) : Dev :=
  if o < 0x40 then d.storeAll p o len v
  else match p.kind with
    | .own | .pwr | .clk | .rst | .otp | .lintel | .evf | .sysid | .temp | .ferr | .fcal => d.writeSystem w p o len v
    | .lctl | .lent | .sash | .tpl | .jq | .wing | .mon | .inj | .cap | .pwm | .adc | .sd | .timer | .enc | .wd | .wdc =>
      d.writeCasement p o len v
    | .cmp | .group | .cassrc | .flt | .vt => d.writeShutter p o len v
    | .tlc | .tlnb | .tltt | .tlcnt | .intc | .intsrc | .hbm | .code | .scrub | .sill | .pf | .dma | .eth | .can | .xspi | .i2c =>
      d.writeOuter w p o len v
    | .dbg => d

/-- A word as a read of it returns it, before what the read does (R30). [DEDUCED (log 17, 19)] -/
def Dev.wordValue (d : Dev) (w : Who) (p : PageInfo) (o : Nat) : W32 :=
  let v := d.reg (p.base + o)
  let n := p.inst
  let plain : W32 := match wordAt p o with
    | some r => r.fields.foldl (fun (a : W32) f =>
        if f.ty = .wo ∨ f.ty = .w1s ∧ p.kind ≠ .can then a &&& ~~~ fieldMask 32 f.lsb f.width else a) v
    | none => 0
  if o < 0x40 then
    if p.kind = .mon ∧ o = 0x10 then putBits v 0 1 (b2n (d.monOpen n))
    else if 0x2C ≤ o then 0 else v
  else match p.kind with
    | .own => d.ownRead w.req o
    | .otp =>
      if o = 0x40 then BitVec.ofNat 32 d.otpStat
      else if o = 0x48 then BitVec.ofNat 32 (d.otp.vendorId.toNat + d.otp.mfrId.toNat * 2 ^ 16)
      else if 0x100 ≤ o ∧ o < 0x200 ∧ (o - 0x100) % 0x40 < 0x30 then
        Table.get 0 d.otp.keyHash (12 * ((o - 0x100) / 0x40) + (o - 0x100) % 0x40 / 4)
      else 0
    | .fcal => if 0x800 ≤ o then d.otp.fcalWord (512 * n + (o - 0x800) / 4) else 0
    | .lintel =>
      if o = 0x40 then BitVec.ofNat 32 d.count
      else if o = 0x44 then Table.get 0 d.time.hiLatch w.req
      else if o = 0x68 then BitVec.ofNat 32 d.ltPhase else plain
    | .lctl => if o = 0x4C then BitVec.ofNat 32 (d.armedCount n) else plain
    | .wing => if o = 0x44 then BitVec.ofNat 32 (d.wingCas n) else plain
    | .wd => if o = 0x54 then BitVec.ofNat 32 (Nat.min (d.wdElapsed (.cas n)) 0xFFFFFFFF) else plain
    | .wdc => if o = 0x54 then BitVec.ofNat 32 (Nat.min (d.wdElapsed (.core n)) 0xFFFFFFFF) else plain
    | .evf => if o < 0x60 then 0 else plain
    | .vt => if o < 0x50 then 0 else plain
    | .intc => if o = 0x4C then BitVec.ofNat 32 (d.intTopWord n) else plain
    | .intsrc =>
      let e := 512 * (n % 4) + (o - 0x40) / 4
      putBits plain 11 1 (b2n (o < 0x840 && !isLevel e && d.intPending (n / 4) e))
    | .hbm => if o = 0x48 then BitVec.ofNat 32 (d.hbm n).dirtyCount else plain
    | .code =>
      if 0x60 ≤ o ∧ o < 0x80 then BitVec.ofNat 32 (d.crEnd n ((o - 0x60) / 8) / 2 ^ (8 * (o % 8))) else plain
    | .eth =>
      if 0xC00 ≤ o then
        match (d.eth n).oper with
        | some g =>
          let e := g.entries.getD ((o - 0xC00) / 8) (0, 0)
          BitVec.ofNat 32 (if o % 8 = 0 then e.1 else e.2)
        | none => 0
      else plain
    | _ => plain

/-- A read clears ERR_INFO (R33): the violations of its peripheral cycle are then logged as the first of a fresh record. -/
def Dev.errCleared (d : Dev) (p : Nat) : Dev :=
  let e := Table.get (⟨0, 0, []⟩ : ErrCycle) d.errLog p
  let d := (d.setReg (p + 0x1C) 0).setF p ⟨0x10, 31, 1⟩ 0
  if e.cyc = d.tick / 8 + 1 then
    e.viols.foldl (fun (d : Dev) v => d.logRecord p v)
      { d with errLog := Table.put ⟨0, 0, []⟩ d.errLog p { e with before := 0 } }
  else d

/-- What a read that is no peek does to the word it reads: RC fields clear, and ERR_INFO with its copy (R33). -/
def Dev.readEffect (d : Dev) (p : PageInfo) (o : Nat) : Dev :=
  let a := p.base + o
  if o = 0x1C then d.errCleared p.base
  else if o < 0x40 then d
  else if p.kind = .temp ∧ o = 0x6C then d.peakRead false
  else if p.kind = .timer ∧ 0x100 ≤ o ∧ o < 0x300 ∧ (o - 0x100) % 0x40 = 0x20 then
    d.timerCapRead (p.inst / 4) (8 * (p.inst % 4) + (o - 0x100) / 0x40)
  else if p.kind = .eth ∧ o = 0x90 then d.txtsRead p.inst false
  else match wordAt p o with
    | some r =>
      d.setReg a (r.fields.foldl (fun (v : W32) f => if f.ty = .rc then v &&& ~~~ fieldMask 32 f.lsb f.width else v) (d.reg a))
    | none => d

/-- ERR_INFO as a clearing read returns it: the record from before the violations of its peripheral cycle (R33). -/
def Dev.errEarlier (d : Dev) (p : Nat) : Dev :=
  let e := Table.get (⟨0, 0, []⟩ : ErrCycle) d.errLog p
  if e.cyc = d.tick / 8 + 1 then d.setReg (p + 0x1C) e.before else d

/-- An accepted read of a page: its data, and what it does unless it carries the peek attribute (R13, R33). A 32-bit read of LT_NOW_LO
latches the high word; a 64-bit read returns the count (04 R87). [DEDUCED (log 20)] -/
def Dev.pageRead (d : Dev) (w : Who) (p : PageInfo) (o len : Nat) (peek : Bool) : Dev :=
  if p.kind = .lintel ∧ o = 0x40 ∧ len = 4 then d.ltNowLo w.req
  else if p.kind = .lintel ∧ o = 0x40 ∧ len = 8 then d.answer d.count
  else
    let os := offsets o len
    let seen := if peek then d else (d.errEarlier p.base).capEarlier p o
    let data := ((os.zip [0, 32]).map (fun x => (seen.wordValue w p x.1).toNat * 2 ^ x.2)).foldl (· + ·) 0
    let d := if peek then d else os.foldl (fun (d : Dev) x => d.readEffect p x) d
    d.answer data

/-- A write of `len` bytes by a requester to a physical address of the register-page window or the debug space (R31, R32). -/
def Dev.busWrite (d : Dev) (w : Who) (a len v : Nat) : Dev :=
  let v := v % 2 ^ (8 * len)
  if 0xF0000000 ≤ a ∧ a < 0xF1000000 then d.dbgWrite w a len v
  else match pageAt a with
    | none => (d.logAt pgFerr w.req a len true 8).answerError 8
    | some p =>
      if !d.domOn p.dom then (d.logAt pgFerr w.req a len true 7).answerError 7
      else match d.pageCause w p (a % 0x1000) len v true with
        | some c => (d.logAt p.base w.req a len true c).answerError c
        | none => { (d.pageWrite w p (a % 0x1000) len v).noteLanded a len v with resp := {} }

/-- A read of `len` bytes by a requester (R31, R32). [DEDUCED (log 20)] -/
def Dev.busRead (d : Dev) (w : Who) (a len : Nat) (peek : Bool) : Dev :=
  if 0xF0000000 ≤ a ∧ a < 0xF1000000 then d.dbgRead w a len peek
  else match pageAt a with
    | none => (d.logAt pgFerr w.req a len false 8).answerError 8
    | some p =>
      if !d.domOn p.dom then (d.logAt pgFerr w.req a len false 7).answerError 7
      else match d.pageCause w p (a % 0x1000) len 0 false with
        | some c => (d.logAt p.base w.req a len false c).answerError c
        | none => d.pageRead w p (a % 0x1000) len (peek || w.req == 0x3F0)

end Sys2Proof.Machine
end

