-- ==== Sys2Proof/Machine/Flags.lean ====
section
/-!
DEFINITION. Sys2Proof/Machine/Flags.lean: the flags of Sahxel instructions, their integer and floating-point arithmetic, and arithmetic
exceptions (15_sahxel_programming_model.md R327, R328, R336; 17 R388).
-/
namespace Sys2Proof.Machine

/-- The flags C, Z, N and V of ST (Table 15-2). -/
structure Flags where
  c : Bool
  z : Bool
  n : Bool
  v : Bool
  deriving DecidableEq, Repr

/-- The flags of ST. -/
def Arch.flags (a : Arch) : Flags := ⟨bitAt a.st 0, bitAt a.st 1, bitAt a.st 2, bitAt a.st 3⟩

/-- Writes the flags of ST. -/
def Arch.setFlags (a : Arch) (f : Flags) : Arch :=
  { a with st := putBits a.st 0 4 (b2n f.c + b2n f.z * 2 + b2n f.n * 4 + b2n f.v * 8) }

/-- Addition and its flags (R328). -/
def addFlags (x y : W64) : Flags :=
  { c := decide (2 ^ 64 ≤ x.toNat + y.toNat), z := x + y == 0, n := (x + y).msb, v := decide (x.toInt + y.toInt ≠ (x + y).toInt) }

/-- Subtraction: C is the borrow. -/
def subFlags (x y : W64) : Flags :=
  { c := decide (x.toNat < y.toNat), z := x - y == 0, n := (x - y).msb, v := decide (x.toInt - y.toInt ≠ (x - y).toInt) }

/-- Logical results: C and V are cleared. -/
def logicFlags (r : W64) : Flags := { c := false, z := r == 0, n := r.msb, v := false }

/-- A product does not fit in 64 signed bits. -/
def mulOverflow (x y : W64) : Bool := decide (x.toInt * y.toInt ≠ (x * y).toInt)

/-- Result and flags of a multiplication; the spec gives it no carry, so C is the bit given. [DESIGN CHOICE (log 84)] -/
def mulFlags (x y : W64) (c : Bool) : Flags := { c := c, z := x * y == 0, n := (x * y).msb, v := mulOverflow x y }

/-- The integer divisions of R336: 0 DIV, 1 DIVU, 2 REM, 3 REMU; the quotient is truncated. [DEDUCED (log 86)] -/
def divide (op : Nat) (x y : W64) : W64 :=
  match op with
  | 0 => BitVec.sdiv x y
  | 1 => x / y
  | 2 => BitVec.srem x y
  | _ => x % y

/-- Flags of a division by a divisor that is not zero; C is the bit given. [DESIGN CHOICE (log 84)] -/
def divFlags (op : Nat) (x y : W64) (c : Bool) : Flags :=
  let r := divide op x y
  { c := c, z := r == 0, n := r.msb, v := op == 0 && x == 0x8000000000000000 && y == 0xFFFFFFFFFFFFFFFF }

/-- Flags of a division by zero (R336). -/
def zeroDivisor : Flags := { c := false, z := true, n := false, v := false }

/-- What a floating-point operation gives (R336). -/
inductive FResult where
  | num (bits : Nat)
  | quiet
  | invalid
  | overflow (neg : Bool)
  deriving DecidableEq, Repr

/-- The infinity of a sign. -/
def f64inf (neg : Bool) : Nat := b2n neg * 2 ^ 63 + 0x7FF0000000000000

/-- An exact value rounded to binary64, subnormals kept (R336). -/
def f64round (x : Exact) : FResult :=
  let s := b2n x.neg * 2 ^ 63
  let (m, e) := roundSig 53 (-1074) x
  if m = 0 then .num s
  else
    let ex := leadExp m e
    if 1023 < ex then .overflow x.neg
    else if ex < -1022 then .num (s + m * 2 ^ (e + 1074).toNat)
    else .num (s + (ex + 1023).toNat * 2 ^ 52 + (m * 2 ^ (52 - m.log2) / 2 ^ (m.log2 - 52)) % 2 ^ 52)

/-- An operand of binary64, or of binary32 with SZ 0b10 (Table 15-6). -/
def fpOperand (single : Bool) (v : W64) : FNum := if single then unpackF 8 23 (v.toNat % 2 ^ 32) else unpackF 11 52 v.toNat

/-- An operand is a signalling NaN. -/
def fpSignal (single : Bool) (v : W64) : Bool := fpOperand single v == .nan && !bitAt v (if single then 22 else 51)

/-- FADD, FSUB, FMUL, FDIV (0-3) by IEEE 754-2019 (R336); `signal`: an operand is a signalling NaN. [DEDUCED (log 85)] -/
def f64arith (op : Nat) (x y : FNum) (signal : Bool) : FResult :=
  if signal then .invalid
  else match x, y with
  | .nan, _ => .quiet
  | _, .nan => .quiet
  | .inf a, .inf b =>
    match op with
    | 0 => if a = b then .num (f64inf a) else .invalid
    | 1 => if a = b then .invalid else .num (f64inf a)
    | 2 => .num (f64inf (a != b))
    | _ => .invalid
  | .inf a, .fin y =>
    match op with
    | 0 | 1 => .num (f64inf a)
    | 2 => if y.m = 0 then .invalid else .num (f64inf (a != y.neg))
    | _ => .num (f64inf (a != y.neg))
  | .fin x, .inf b =>
    match op with
    | 0 => .num (f64inf b)
    | 1 => .num (f64inf (!b))
    | 2 => if x.m = 0 then .invalid else .num (f64inf (x.neg != b))
    | _ => .num (b2n (x.neg != b) * 2 ^ 63)
  | .fin x, .fin y =>
    match op with
    | 0 => f64round (x.add y)
    | 1 => f64round (x.add y.negate)
    | 2 => f64round (x.mul y)
    | _ =>
      if y.m ≠ 0 then f64round (x.div y)
      else if x.m = 0 then .invalid else .num (f64inf (x.neg != y.neg))

/-- Order of two numbers; `none`: unordered. -/
def f64compare (x y : FNum) : Option Ordering :=
  match x, y with
  | .nan, _ => none
  | _, .nan => none
  | .inf a, .inf b => some (if a = b then .eq else if a then .lt else .gt)
  | .inf a, .fin _ => some (if a then .lt else .gt)
  | .fin _, .inf b => some (if b then .gt else .lt)
  | .fin x, .fin y => some (if x.lt y then .lt else if y.lt x then .gt else .eq)

/-- A bit that the spec leaves open. [DESIGN CHOICE (log 84)] -/
def Dev.freeBit (d : Dev) : Bool × Dev := ((Config.freeValue d.fresh).getLsbD 0, d.takeFresh.2)

/-- A number the spec leaves open. [DESIGN CHOICE (log 141)] -/
def Dev.freeWord (d : Dev) : W64 × Dev := (Config.freeValue d.fresh, d.takeFresh.2)

/-- The default quiet NaN (R336). [DESIGN CHOICE (log 83)] -/
def defaultQuiet : W64 :=
  let p := Config.defaultNan
  BitVec.ofNat 64 (bitsOf p 51 1 * 2 ^ 63 + 0x7FF8000000000000 + bitsOf p 0 51)

/-- A quiet NaN whose sign and payload the spec leaves open. [DESIGN CHOICE (log 83)] -/
def quietOf (v : W64) : W64 := (v &&& 0x8007FFFFFFFFFFFF) ||| 0x7FF8000000000000

/-- An arithmetic exception becomes pending as its instruction completes (17 R388): 0 integer overflow, 1 divide by zero, 2 FP invalid,
3 FP overflow. [DEDUCED (log 87)] -/
def Arch.raise (a : Arch) (bit : Nat) : Arch :=
  if a.arithPend then { a with arithCause := a.arithCause ||| BitVec.ofNat 64 (2 ^ bit + 2 ^ 8) }
  else { a with arithPend := true, arithPc := a.pc, arithCause := BitVec.ofNat 64 (2 ^ bit) }

/-- Raises an arithmetic exception where a condition holds. [DEDUCED (log 87)] -/
def Arch.raiseIf (a : Arch) (b : Bool) (bit : Nat) : Arch := if b then a.raise bit else a

end Sys2Proof.Machine
end

