-- ==== Sys2Proof/Machine/Xlate.lean ====
section
/-!
DEFINITION. Sys2Proof/Machine/Xlate.lean: address translation of the Sahxel cores (18_address_translation.md R394-R411).
-/
namespace Sys2Proof.Machine

/-- What a part of an instruction did: the device after it, and its value or the fault it met (15 R331). -/
structure Act (α : Type) where
  dev : Dev
  out : Except CFault α

/-- The next part, where the first met no fault. -/
def Act.bind {α β : Type} (x : Act α) (f : Dev → α → Act β) : Act β :=
  match x.out with
  | .ok a => f x.dev a
  | .error e => ⟨x.dev, .error e⟩

/-- A value. -/
def Dev.ok {α : Type} (d : Dev) (a : α) : Act α := ⟨d, .ok a⟩

/-- A fault: code, detail, SAVE_FADDR. -/
def Dev.fault {α : Type} (d : Dev) (code detail faddr : Nat) : Act α := ⟨d, .error ⟨code, detail, faddr⟩⟩

/-- An illegal instruction (15 R335). -/
def Dev.illegal {α : Type} (d : Dev) : Act α := d.fault 1 0 0

/-- A fault unless a condition holds. -/
def Dev.require (d : Dev) (b : Bool) (code detail faddr : Nat) : Act Unit := if b then d.ok () else d.fault code detail faddr

/-- XLATE_CTRL.EN. -/
def Arch.xlateOn (a : Arch) : Bool := bitAt a.xlate 0

/-- XLATE_CTRL.ASID. -/
def Arch.asid (a : Arch) : Nat := bitsOf a.xlate 8 8

/-- The range of an entry contains a virtual address (R404, R407). -/
def TlbEntry.holds (e : TlbEntry) (va : Nat) : Bool :=
  if e.big then e.vpn / 16 == va / 65536 else e.vpn == va / 4096

/-- An entry matches a lookup (R404). -/
def TlbEntry.hits (e : TlbEntry) (va asid : Nat) : Bool := e.holds va && (e.glob || e.asid == asid)

/-- The physical address an entry gives (R407). -/
def TlbEntry.pa (e : TlbEntry) (va : Nat) : Nat :=
  if e.big then e.ppn / 16 * 65536 + va % 65536 else e.ppn * 4096 + va % 4096

/-- An entry permits an access: 0 load, 1 store or atomic, 2 fetch (R399). -/
def TlbEntry.allows (e : TlbEntry) (acc : Nat) : Bool :=
  match acc with | 0 => true | 1 => e.w | _ => e.x

/-- The fault of a translation (Table 18-4). -/
def xlateFault (reason level acc va : Nat) : CFault := ⟨0x0A, reason + level * 16 + acc * 256, va⟩

/-- One entry read of a walk (R401): the entry, or the reason it fails. -/
def Dev.walkRead (d : Dev) (k a : Nat) : Dev × Except Nat Nat :=
  let t := (d.arch k).ttb
  let inMem := wordPoison a || (match memAt a with | some (.hbm, _) => true | _ => false)
  if !inMem then (d, .error 5)
  else if !(t.tag && t.sealing == 0 && t.has permLoad && t.covers a 8) then (d, .error 7)
  else match d.memCause a 8 false false with
    | some c => (d.memViolation (k + 1) a 8 false c, .error 9)
    | none =>
      let (d, l, p) := d.getMem true a 8
      if p then (d, .error 6) else (d, .ok (valueLE l))

/-- A walk from a level down (R398, R399): the page entry, or the reason and level of the fault. `fuel` is the number of
levels left. -/
def Dev.walkFrom (d : Dev) (k va : Nat) : Nat → Nat → Dev × Except (Nat × Nat) Nat
  | 0, _ => (d, .error (1, 0))
  | n + 1, table =>
    match d.walkRead k (table + 8 * nbits va (12 + 9 * n) 9) with
    | (d, .error r) => (d, .error (r, 3 - n))
    | (d, .ok e) =>
      if nbits e 0 1 = 0 then (d, .error (1, 3 - n))
      else if n = 0 then (if nbits e 5 7 = 0 then (d, .ok e) else (d, .error (10, 3)))
      else if nbits e 1 11 = 0 then d.walkFrom k va n (nbits e 12 36 * 4096) else (d, .error (10, 3 - n))

/-- The TLB entry a page entry fills (R404, R407). -/
def entryOf (pte va asid : Nat) (slot : Option Nat) : TlbEntry where
  asid := asid
  glob := nbits pte 3 1 == 1
  big := nbits pte 4 1 == 1
  vpn := va / 4096
  ppn := nbits pte 12 36
  w := nbits pte 1 1 == 1
  x := nbits pte 2 1 == 1
  slot := slot

/-- A walk of a virtual address for an access under an ASID. -/
def Dev.walk (d : Dev) (k va acc asid : Nat) (slot : Option Nat) : Act TlbEntry :=
  match d.walkFrom k va 4 (d.arch k).ttb.addr.toNat with
  | (d, .ok pte) => d.ok (entryOf pte va asid slot)
  | (d, .error (r, l)) => ⟨d, .error (xlateFault r l acc va)⟩

/-- The TLB of a core. -/
def Dev.setTlb (d : Dev) (k : Nat) (t : List TlbEntry) : Dev := d.setCore k { d.core k with tlb := t }

/-- The entries a lookup matches. An unlocked entry may have been evicted before (R404); which ones the spec leaves open. [DESIGN CHOICE (log 103)] -/
def Dev.tlbMatches (d : Dev) (k va asid : Nat) : Dev × List TlbEntry :=
  let all := (d.core k).tlb
  let hit := all.filter (fun e => e.hits va asid)
  if hit.all (fun e => e.slot.isSome) then (d, hit)
  else
    let (w, d) := d.freeWord
    let gone := ((List.range all.length).zip all).filter (fun x =>
      x.2.hits va asid && x.2.slot.isNone && w.getLsbD (x.1 % 64))
    let lost := gone.map (·.2)
    (d.setTlb k (all.filter (fun e => !lost.contains e)), hit.filter (fun e => !lost.contains e))

/-- A fresh entry is used, and filled where it permits the access (R400, R403). -/
def Dev.useFresh (d : Dev) (va acc : Nat) (k : Nat) (fill : Bool) (e : TlbEntry) : Act Nat :=
  if e.allows acc then (if fill then d.setTlb k (e :: (d.core k).tlb) else d).ok (e.pa va)
  else ⟨d, .error (xlateFault (if acc = 1 then 2 else 3) 0 acc va)⟩

/-- The physical address of an access (R397-R408). [DEDUCED (log 104); DESIGN CHOICE (log 103)] -/
def Dev.translate (d : Dev) (k va acc : Nat) : Act Nat :=
  let a := d.arch k
  if 2 ^ 48 ≤ va then ⟨d, .error (xlateFault 4 0 acc va)⟩
  else if !a.xlateOn then d.ok va
  else
    let (d, hit) := d.tlbMatches k va a.asid
    match hit with
    | [] => (d.walk k va acc a.asid none).bind (fun d e => d.useFresh va acc k true e)
    | [e] =>
      if e.allows acc then d.ok (e.pa va)
      else
        let d := if e.slot.isNone then d.setTlb k ((d.core k).tlb.filter (fun x => x != e)) else d
        (d.walk k va acc a.asid none).bind (fun d f => d.useFresh va acc k e.slot.isNone f)
    | _ =>
      ⟨d.setTlb k ((d.core k).tlb.filter (fun e => e.slot.isSome || !e.hits va a.asid)), .error (xlateFault 8 0 acc va)⟩

/-- TLBL_n as it stands with its slot locked (Table 18-1). -/
def lockWord (asid va : Nat) : W64 := BitVec.ofNat 64 (asid + nbits va 12 36 * 2 ^ 12 + 2 ^ 63)

/-- The entry of a lock slot is installed in place of its previous one; unlocked entries for the address give way to it (R409). [DESIGN CHOICE (log 103)] -/
def Dev.installLock (d : Dev) (k n va : Nat) (e : TlbEntry) : Dev :=
  let c := d.core k
  let keep := c.tlb.filter (fun x => x.slot != some n && !(x.slot.isNone && x.hits va e.asid))
  d.setCore k { c with tlb := e :: keep }

/-- The lock slots are walked again after a pair reset; a slot whose walk fails is cleared (R406). -/
def Dev.relock (d : Dev) (k : Nat) : Dev :=
  (List.range 16).foldl (fun (d : Dev) n =>
    let a := d.arch k
    let t : W64 := Table.get 0 a.tlbl n
    if !bitAt t 63 then d
    else
      let va := bitsOf t 12 36 * 4096
      let asid := bitsOf t 0 8
      let r := d.walk k va 0 asid (some n)
      match r.out with
      | .ok e => r.dev.installLock k n va e
      | .error _ => r.dev.setArch k { r.dev.arch k with tlbl := Table.put 0 a.tlbl n 0 }) d

end Sys2Proof.Machine
end

