-- ==== Sys2Proof/Machine/Operands.lean ====
section
/-!
DEFINITION. Sys2Proof/Machine/Operands.lean: how a Sahxel core reaches memory and its operands: checks, loads, stores, effective
addresses, commit points (15_sahxel_programming_model.md R329-R331; 16 R357, R362; 17 R374; 19 R419).
-/
namespace Sys2Proof.Machine

/-- A capability's check as a fault (17 R374, Table 17-8). -/
def Dev.capCheckAt (d : Dev) (c : Capability) (reg : Nat) (n : Need) (va len : Nat) : Act Unit :=
  match c.check n va len with
  | none => d.ok ()
  | some kind => d.fault 9 (kind + 16 * reg) va

/-- A permission that PCC must have (17 R378, 18 R409). -/
def Dev.needPcc (d : Dev) (k p : Nat) : Act Unit := d.require ((d.arch k).pcc.has p) 9 (3 + 16 * 16) 0

/-- Register pages and debug space (01 Table 1-1). -/
def isPage (a : Nat) : Bool := 0xE0000000 ≤ a && a < 0xF1000000

/-- Sash windows. -/
def isSashMem (a : Nat) : Bool := 0x40000000 ≤ a && a < 0x44000000

/-- Device memory (Table 16-2). -/
def isDevice (a : Nat) : Bool := isPage a || isSashMem a

/-- Cacheable coherent memory other than the boot ROM, in which atomics are permitted (15 R337). -/
def isCoherent (a : Nat) : Bool :=
  match memAt a with
  | some (.coreSram, _) | some (.wing, _) | some (.scratch, _) | some (.hbm, _) => true
  | _ => false

/-- The core executes a step of Vopen (22 R483). [DEDUCED (log 119)] -/
def Dev.stepping (d : Dev) (k : Nat) : Bool := d.sys.step == some k

/-- A step leaves an instruction of this kind unexecuted (R483): fault code 0 of the model. -/
def Dev.notInStep (d : Dev) (k : Nat) : Act Unit := d.require (!d.stepping k) 0 0 0

/-- The instruction is a commit point (19 R419). [DEDUCED (log 102)] -/
def Dev.commits (d : Dev) (k : Nat) : Dev := d.setCore k { d.core k with commit := true }

/-- A commit point's record becomes current, in JOURNALED mode (19 R420). -/
def Dev.commitDone (d : Dev) (k : Nat) : Dev :=
  let c := d.core k
  if !c.commit then d
  else
    let d := d.setCore k { c with commit := false }
    if d.fastMode k then d else d.checkpoint k

/-- Requester of a core's access through a capability (01 R34). -/
def coreWho (k : Nat) (c : Capability) : Who :=
  ⟨k + 1, if c.sealing = 1 then some c.otype.toNat else none, true⟩

/-- A violation of an access to memory, as the core's bus fault (R330, 01 R32). -/
def Dev.memFault {α : Type} (d : Dev) (k pa len : Nat) (write : Bool) (cause va : Nat) : Act α :=
  (d.memViolation (k + 1) pa len write cause).fault 3 cause va

/-- The value a page access returned, or the core's bus fault. [DEDUCED (log 102)] -/
def Dev.pageAnswer (d : Dev) (va : Nat) : Act Nat :=
  match d.resp.error with
  | some c => d.fault 3 c va
  | none => d.ok d.resp.data

/-- Bytes at a physical address as a load, and whether they carry poison. [DEDUCED (log 21)] -/
def Dev.readPhys (d : Dev) (k : Nat) (c : Capability) (pa len va : Nat) : Act (Nat × Bool) :=
  if isPage pa then
    (d.notInStep k).bind fun d _ =>
      ((d.commits k).busRead (coreWho k c) pa len false).pageAnswer va |>.bind fun d v => d.ok (v, false)
  else
    ((if isSashMem pa then d.notInStep k else d.ok ())).bind fun d _ =>
      let d := if isSashMem pa then d.commits k else d
      match d.memCause pa len false false with
      | some x => d.memFault k pa len false x va
      | none =>
        let (d, l, p) := d.getMem true pa len
        d.ok (valueLE l, p)

/-- Bytes stored at a physical address. -/
def Dev.writePhys (d : Dev) (k : Nat) (c : Capability) (pa len v va : Nat) (poison : Bool) : Act Unit :=
  if isPage pa then
    (d.notInStep k).bind fun d _ =>
      ((d.commits k).busWrite (coreWho k c) pa len v).pageAnswer va |>.bind fun d _ => d.ok ()
  else
    ((if isSashMem pa then d.notInStep k else d.ok ())).bind fun d _ =>
      let d := if isSashMem pa then d.commits k else d
      match d.memCause pa len true false with
      | some x => d.memFault k pa len true x va
      | none =>
        if isSashMem pa then (d.putMem k pa (bytesLE len v) (fun _ => poison)).ok ()
        else (d.coreStore k pa (bytesLE len v) poison).ok ()

/-- The checks of an access before it is made (R330, 17 R374, 18 R395): its physical address. `acc` as in 18 Table 18-4. -/
def Dev.access (d : Dev) (k : Nat) (c : Capability) (reg : Nat) (n : Need) (va len acc : Nat) : Act Nat :=
  (d.require (va % len == 0) 2 0 va).bind fun d _ =>
  (d.capCheckAt c reg n va len).bind fun d _ => d.translate k va acc

/-- A load of `len` bytes through a capability; poison passed on. -/
def Dev.loadRaw (d : Dev) (k : Nat) (c : Capability) (reg va len : Nat) : Act (Nat × Bool) :=
  (d.access k c reg .read va len 0).bind fun d pa => d.readPhys k c pa len va

/-- A load that consumes its data: poison is a fault (16 R367). -/
def Dev.loadVal (d : Dev) (k : Nat) (c : Capability) (reg va len : Nat) : Act Nat :=
  (d.loadRaw k c reg va len).bind fun d r => if r.2 then d.fault 4 0 va else d.ok r.1

/-- A store of `len` bytes through a capability. -/
def Dev.storeVal (d : Dev) (k : Nat) (c : Capability) (reg va len v : Nat) (poison : Bool) : Act Unit :=
  (d.access k c reg .write va len 1).bind fun d pa => d.writePhys k c pa len v va poison

/-- A memory operand's address and what its mode does to X and Y (Table 15-4). -/
structure Ea where
  addr : W64
  cap : Capability
  reg : Nat
  x : W64
  y : W64

/-- Size in bytes that SZ names. -/
def szBytes (sz : BitVec 2) : Nat := 2 ^ sz.toNat

/-- The effective address of an M-format instruction (Table 15-4); `none` for an immediate or a reserved mode. [DEDUCED (log 89)] -/
def Arch.ea (a : Arch) (m : MOperand) : Option Ea :=
  let disp := m.disp.signExtend 64
  let size := BitVec.ofNat 64 (szBytes m.sz)
  let at_ : W64 → Option Ea := fun b => some ⟨b + disp, a.ddc, 17, a.x, a.y⟩
  match m.mode.toNat with
  | 1 => at_ a.x
  | 2 => at_ a.y
  | 3 => at_ (a.x + a.y * size)
  | 4 => at_ a.dsp
  | 5 => some ⟨a.x + disp, a.ddc, 17, a.x + size, a.y⟩
  | 6 => some ⟨a.y + disp, a.ddc, 17, a.x, a.y + size⟩
  | 7 => some ⟨a.x - size + disp, a.ddc, 17, a.x - size, a.y⟩
  | 8 => some ⟨a.pcc.addr + disp, a.pcc, 16, a.x, a.y⟩
  | 9 => some ⟨(a.cap m.aux.toNat).addr + disp, a.cap m.aux.toNat, m.aux.toNat, a.x, a.y⟩
  | _ => none

/-- The effective address of an instruction that has one; else it is illegal (R329, R335). [DEDUCED (log 89)] -/
def Dev.eaOf (d : Dev) (k : Nat) (m : MOperand) : Act Ea :=
  match (d.arch k).ea m with
  | some e => d.ok e
  | none => d.illegal

/-- An operand that is read: its value, and X and Y after its mode's update. -/
def Dev.readOperand (d : Dev) (k : Nat) (m : MOperand) : Act (W64 × W64 × W64) :=
  let a := d.arch k
  if m.mode = 0 then d.ok (m.disp.signExtend 64, a.x, a.y)
  else (d.eaOf k m).bind fun d e =>
    (d.loadVal k e.cap e.reg e.addr.toNat (szBytes m.sz)).bind fun d v => d.ok (BitVec.ofNat 64 v, e.x, e.y)

/-- The address of an operand that is written; immediate and PC-relative modes are illegal (R329). -/
def Dev.storeEa (d : Dev) (k : Nat) (m : MOperand) : Act Ea := if m.mode = 8 then d.illegal else d.eaOf k m

/-- What becomes of the program counter: the next instruction, that with a checkpoint behind this one, this one again, one the
instruction has set itself, or an exception's vector. -/
inductive Flow where
  | next | mark | stay | set | entered
  deriving DecidableEq, Repr

/-- A breakpoint of the core matches and would be acted on (22 R479). -/
def Dev.bpStops (d : Dev) (k : Nat) : Bool :=
  !d.sys.halted && d.dbgLevel == 2 && (List.range 4).any (fun i => d.bpMatches k i)

/-- An automatic checkpoint is due (19 R415). -/
def Dev.chkDue (d : Dev) (k : Nat) : Bool :=
  let n := d.lsInterval k
  n != 0 && decide ((d.core k).chkTick + 6000 * n ≤ d.tick)

/-- The core is at an instruction boundary with its clock running, or stepped. -/
def Dev.coreRuns (d : Dev) (k : Nat) : Bool :=
  let c := d.core k
  d.domOn k && c.running && !d.on (pgIntc k) F.LS_STAT_RECOVERING && !d.on (pgIntc k) F.LS_STAT_FAILED &&
    (if d.sys.halted then d.stepping k else !d.clocksStill && d.sys.drain.isNone)

/-- A result whose distance has come has not landed: the instruction at that distance waits (R346). -/
def Core.waitsForResult (c : Core) : Bool := c.cps.any (fun o => o.lat ≤ o.dist && !o.landed)

/-- The core issues its next instruction: no wait, no checkpoint due, no arithmetic exception that must come first (17 R388). [DEDUCED (log 87)] -/
def Dev.coreReady (d : Dev) (k : Nat) : Bool :=
  let c := d.core k
  d.coreRuns k && !c.wfi && c.doorWait.isNone && !d.chkDue k && !d.bpStops k && !c.waitsForResult &&
    !(c.arch.arithPend && (c.arch.pa || decide (225 ≤ c.since)))

/-- A result is due at its register. -/
def CpOp.due (o : CpOp) : Bool := o.landed && decide (o.lat ≤ o.dist)

/-- The results still due; one behind which a later result of its register stands is dead (R346). -/
def opsLeft : List CpOp → List CpOp
  | [] => []
  | o :: r => if o.due then opsLeft r else { o with dead := o.dead || r.any (fun p => p.due && p.cq == o.cq) } :: opsLeft r

/-- Results whose distance has come become the values of their registers (R346). -/
def Core.collect (c : Core) : Core :=
  { c with arch := c.arch.landAll (c.cps.filter (·.due)), cps := opsLeft c.cps }

/-- A step ends (22 R483): the device is halted again. -/
def Dev.stepEnd (d : Dev) (k res : Nat) : Dev :=
  if !d.stepping k then d
  else
    let c := d.core k
    let d := d.setCore k { c with resv := none, bpSkip := true }
    { d with sys := { d.sys with step := none, stepResult := res } }

/-- One word of an instruction is fetched (17 R374, 16 R365, 18 R394). [DEDUCED (log 21); DESIGN CHOICE (log 140)] -/
def Dev.fetchWord (d : Dev) (k va : Nat) : Act Unit :=
  (d.access k (d.arch k).pcc 16 .fetch va 4 2).bind fun d pa =>
    if isPage pa then
      let cause := match pageAt pa with
        | none => if dbgPart pa = .none then some 8 else if d.domOn domDbg then none else some 7
        | some p => if d.domOn p.dom then none else some 7
      match cause with
      | some c => d.memFault k pa 4 false c va
      | none => d.ok ()
    else match d.memCause pa 4 false false with
      | some c => d.memFault k pa 4 false c va
      | none =>
        let (d, _, p) := d.getMem true pa 4
        if p then d.fault 4 0 va else d.ok ()

/-- An instruction of `len` bytes is fetched. [DEDUCED (log 95); DESIGN CHOICE (log 140)] -/
def Dev.fetch (d : Dev) (k len : Nat) : Act Unit :=
  let pc := (d.arch k).pc
  (d.fetchWord k pc.toNat).bind fun d _ => if len = 8 then d.fetchWord k (pc + 4).toNat else d.ok ()

/-- A precise fault of the instruction at `pc` (17 R387). After a device access that met an error, the record that has become current
stands for the state with the fault taken (19 R420). -/
def Dev.faultEnd (d : Dev) (k : Nat) (pc : W64) (f : CFault) : Dev :=
  let c := d.core k
  if c.commit && !d.fastMode k then
    let d := d.setCore k { c with commit := false }
    let t := d.takeFault k pc f
    if t.on (pgIntc k) F.LS_STAT_RECOVERING || t.on (pgIntc k) F.LS_STAT_FAILED then (d.checkpoint k).takeFault k pc f
    else t.checkpoint k
  else (d.setCore k { c with commit := false }).takeFault k pc f

/-- The core executes one instruction of `len` bytes whose effect is `body`. Where the instruction cannot issue, nothing happens. [DESIGN CHOICE (log 138, 140)] -/
def Dev.instr (d : Dev) (k len : Nat) (body : Dev → Act Flow) : Dev :=
  if !d.coreReady k then d
  else
    let start := d
    let d := d.setCore k (d.core k).collect
    let pc := (d.arch k).pc
    let r := (d.fetch k len).bind fun d _ => body d
    match r.out with
    | .error f => if f.code = 0 then start.stepEnd k 3 else (r.dev.faultEnd k pc f).stepEnd k 2
    | .ok .stay => (r.dev.commitDone k).stepEnd k 1
    | .ok flow =>
      let on := flow = .next ∨ flow = .mark
      let d := if on then r.dev.setArch k ((r.dev.arch k).goto (pc + BitVec.ofNat 64 len)) else r.dev
      let d := d.setCore k (d.core k).retired
      (if flow = .mark then d.checkpoint k else d.commitDone k).stepEnd k (if flow = .entered then 2 else 1)

end Sys2Proof.Machine
end

