-- ==== Sys2Proof/Machine/CoreAlu.lean ====
section
/-!
DEFINITION. Sys2Proof/Machine/CoreAlu.lean: Sahxel loads and stores of registers, arithmetic and logic with a memory operand, the register
group and the immediate groups (15_sahxel_programming_model.md R328-R336).
-/
namespace Sys2Proof.Machine

/-- A, X or Y by the register code of Table 15-5. -/
def Arch.gpr (a : Arch) (r : Nat) : W64 := match r with | 0 => a.a | 1 => a.x | _ => a.y

/-- Writes A, X or Y. -/
def Arch.setGpr (a : Arch) (r : Nat) (v : W64) : Arch :=
  match r with | 0 => { a with a := v } | 1 => { a with x := v } | _ => { a with y := v }

/-- The mode updates register r after the access (Table 15-4): the spec does not say which of a load's two writes stands. [DESIGN CHOICE (log 88)] -/
def clashes (m : MOperand) (r : Nat) : Bool := (r == 1 && m.mode == 5) || (r == 2 && m.mode == 6)

/-- Register r takes a value beside its mode's update of X and Y. [DESIGN CHOICE (log 88)] -/
def Dev.writeGpr (d : Dev) (k : Nat) (m : MOperand) (r : Nat) (v x y : W64) : Dev :=
  let (v, d) := if clashes m r then d.freeWord else (v, d)
  d.setArch k ({ d.arch k with x := x, y := y }.setGpr r v)

/-- GETA, GETX and GETY (Table 15-6, R328): narrow loads zero-extend; ST is unchanged. -/
def Dev.getReg (d : Dev) (k : Nat) (m : MOperand) (r : Nat) : Dev :=
  d.instr k 4 fun d => (d.readOperand k m).bind fun d v => (d.writeGpr k m r v.1 v.2.1 v.2.2).ok .next

/-- PUTA, PUTX and PUTY. A register that its mode decrements is stored as it then stands. -/
def Dev.putReg (d : Dev) (k : Nat) (m : MOperand) (r : Nat) : Dev :=
  d.instr k 4 fun d => (d.storeEa k m).bind fun d e =>
    let a := d.arch k
    let v := if r = 1 ∧ m.mode = 7 then e.x else a.gpr r
    (d.storeVal k e.cap e.reg e.addr.toNat (szBytes m.sz) v.toNat false).bind fun d _ =>
      (d.setArch k { d.arch k with x := e.x, y := e.y }).ok .next

/-- ADR (Table 15-6): SZ names the register; 0b11 is illegal. [DEDUCED (log 90)] -/
def Dev.adr (d : Dev) (k : Nat) (m : MOperand) : Dev :=
  d.instr k 4 fun d =>
    if m.sz = 3 then d.illegal
    else (d.eaOf k m).bind fun d e => (d.writeGpr k m m.sz.toNat e.addr e.x e.y).ok .next

/-- What an operation does with A and its operand. -/
abbrev AluOp := Dev → Arch → W64 → Dev × Arch

/-- An operation that needs nothing but registers. -/
def plainOp (f : Arch → W64 → Arch) : AluOp := fun d a v => (d, f a v)

/-- An M-format operation on A (R329). -/
def Dev.alu (d : Dev) (k : Nat) (m : MOperand) (op : AluOp) : Dev :=
  d.instr k 4 fun d => (d.readOperand k m).bind fun d v =>
    let (d, a) := op d { d.arch k with x := v.2.1, y := v.2.2 } v.1
    (d.setArch k a).ok .next

/-- ADD, on register r. -/
def opAdd (r : Nat) : AluOp := plainOp fun a v => (a.setGpr r (a.gpr r + v)).setFlags (addFlags (a.gpr r) v)
/-- SUB. -/
def opSub (r : Nat) : AluOp := plainOp fun a v => (a.setGpr r (a.gpr r - v)).setFlags (subFlags (a.gpr r) v)
/-- CMP: writes no register (R328). -/
def opCmp (r : Nat) : AluOp := plainOp fun a v => a.setFlags (subFlags (a.gpr r) v)
/-- A logical operation (R328). -/
def opLogic (f : W64 → W64 → W64) (r : Nat) : AluOp := plainOp fun a v =>
  (a.setGpr r (f (a.gpr r) v)).setFlags (logicFlags (f (a.gpr r) v))
/-- ADDV (R336). -/
def opAddV : AluOp := plainOp fun a v =>
  (({ a with a := a.a + v }).setFlags (addFlags a.a v)).raiseIf (addFlags a.a v).v 0
/-- SUBV. -/
def opSubV : AluOp := plainOp fun a v =>
  (({ a with a := a.a - v }).setFlags (subFlags a.a v)).raiseIf (subFlags a.a v).v 0
/-- MUL; MULV traps on overflow. -/
def opMul (trap : Bool) : AluOp := fun d a v =>
  let (c, d) := d.freeBit
  (d, (({ a with a := a.a * v }).setFlags (mulFlags a.a v c)).raiseIf (trap && mulOverflow a.a v) 0)
/-- DIV, DIVU, REM, REMU (R336). -/
def opDiv (op : Nat) : AluOp := fun d a v =>
  if v = 0 then (d, (({ a with a := 0 }).setFlags zeroDivisor).raise 1)
  else
    let (c, d) := d.freeBit
    (d, ({ a with a := divide op a.a v }).setFlags (divFlags op a.a v c))

/-- A floating-point result with its flags; C and V have no meaning for it and are left open. [DESIGN CHOICE (log 84)] -/
def Dev.fpResult (d : Dev) (a : Arch) (r : W64) (z : Bool) : Dev × Arch :=
  let (c, d) := d.freeBit
  let (v, d) := d.freeBit
  (d, ({ a with a := r }).setFlags { c := c, z := z, n := r.msb, v := v })

/-- FADD, FSUB, FMUL, FDIV (R336). -/
def opFloat (op : Nat) (single : Bool) : AluOp := fun d a v =>
  match f64arith op (unpackF 11 52 a.a.toNat) (fpOperand single v) (fpSignal false a.a || fpSignal single v) with
  | .num b => d.fpResult a (BitVec.ofNat 64 b) (b % 2 ^ 63 == 0)
  | .quiet =>
    let (w, d) := d.freeWord
    d.fpResult a (quietOf w) false
  | .invalid => (d, ({ a with a := defaultQuiet }).raise 2)
  | .overflow neg => (d, ({ a with a := BitVec.ofNat 64 (f64inf neg) }).raise 3)

/-- FCMP: flags as subtraction sets them (R328); for unordered numbers the spec gives none. [DESIGN CHOICE (log 84)] -/
def opFcmp (single : Bool) : AluOp := fun d a v =>
  match f64compare (unpackF 11 52 a.a.toNat) (fpOperand single v) with
  | some o => (d, a.setFlags { c := o == .lt, z := o == .eq, n := o == .lt, v := false })
  | none =>
    let (w, d) := d.freeWord
    (d, a.setFlags ⟨bitAt w 0, bitAt w 1, bitAt w 2, bitAt w 3⟩)

/-- A floating-point instruction takes binary32 or binary64 operands; other sizes are illegal (Table 15-6). -/
def Dev.floatAlu (d : Dev) (k : Nat) (m : MOperand) (op : Bool → AluOp) : Dev :=
  if m.sz = 2 ∨ m.sz = 3 then d.alu k m (op (m.sz == 2)) else d.instr k 4 fun d => d.illegal

/-- An R-format operation: RD from RD and RS (Table 15-5); register code 0b11 is illegal (R335). [DEDUCED (log 91)] -/
def Dev.regOp (d : Dev) (k : Nat) (rd rs : BitVec 2) (op : Nat → AluOp) : Dev :=
  d.instr k 4 fun d =>
    if rd = 3 ∨ rs = 3 then d.illegal
    else
      let a := d.arch k
      let (d, a) := op rd.toNat d a (a.gpr rs.toNat)
      (d.setArch k a).ok .next

/-- MOV and SEXTn: RD takes a value of RS, ST unchanged (R328). -/
def opMove (f : W64 → W64) (r : Nat) : AluOp := plainOp fun a v => a.setGpr r (f v)
/-- NEG: 0 - RS. -/
def opNeg (r : Nat) : AluOp := plainOp fun a v => (a.setGpr r (0 - v)).setFlags (subFlags 0 v)
/-- NOT and the shifts: RD takes a logical result of RS. [DEDUCED (log 91)] -/
def opUnary (f : W64 → W64) (r : Nat) : AluOp := plainOp fun a v => (a.setGpr r (f v)).setFlags (logicFlags (f v))
/-- FCVT: the spec names the conversion without saying what it converts, so its result and flags are left open. [DESIGN CHOICE (log 84)] -/
def opConvert (r : Nat) : AluOp := fun d a _ =>
  let (v, d) := d.freeWord
  let (w, d) := d.freeWord
  (d, (a.setGpr r v).setFlags ⟨bitAt w 0, bitAt w 1, bitAt w 2, bitAt w 3⟩)

/-- Sign extension from `n` bits. -/
def sext (n : Nat) (v : W64) : W64 := (v.setWidth n).signExtend 64

/-- MOVCQ (R346): CQn as it stands; a number above 7 is illegal. [DEDUCED (log 92)] -/
def Dev.movcq (d : Dev) (k : Nat) (rd : BitVec 2) (n : BitVec 6) : Dev :=
  d.instr k 4 fun d =>
    if rd = 3 ∨ 8 ≤ n.toNat then d.illegal
    else
      let a := d.arch k
      (d.setArch k (a.setGpr rd.toNat (Table.get 0 a.cq n.toNat))).ok .next

/-- An immediate-group operation of `len` bytes (Tables 15-5, 15-6). -/
def Dev.immOp (d : Dev) (k len : Nat) (rd : BitVec 2) (imm : W64) (op : Nat → AluOp) : Dev :=
  d.instr k len fun d =>
    if rd = 3 then d.illegal
    else
      let (d, a) := op rd.toNat d (d.arch k) imm
      (d.setArch k a).ok .next

end Sys2Proof.Machine
end

