-- ==== Sys2Proof/Machine/CoreFlow.lean ====
section
/-!
DEFINITION. Sys2Proof/Machine/CoreFlow.lean: the stacks, branches and calls, block instructions and atomics of the Sahxel cores
(15_sahxel_programming_model.md R332-R344).
-/
namespace Sys2Proof.Machine

/-- What PUSH stores: A, X, Y, or the RW fields of ST (R332). -/
def Arch.pushed (a : Arch) (r : Nat) : W64 := if r = 3 then a.st &&& stMask else a.gpr r

/-- PUSH (R332). -/
def Dev.push (d : Dev) (k r : Nat) : Dev :=
  d.instr k 4 fun d =>
    let a := d.arch k
    let at_ := a.dsp - 8
    if at_.toNat < a.dspLim.toNat then d.fault 5 0 0
    else (d.storeVal k a.ddc 17 at_.toNat 8 (a.pushed r).toNat false).bind fun d _ =>
      (d.setArch k { d.arch k with dsp := at_ }).ok .next

/-- POP (R332). -/
def Dev.pop (d : Dev) (k r : Nat) : Dev :=
  d.instr k 4 fun d =>
    let a := d.arch k
    (d.loadVal k a.ddc 17 a.dsp.toNat 8).bind fun d v =>
      let a := { d.arch k with dsp := a.dsp + 8 }
      let w := BitVec.ofNat 64 v
      (d.setArch k (if r = 3 then a.putSt w else a.setGpr r w)).ok .next

/-- DROP n, n = 1-255 (R332). -/
def Dev.dropSlots (d : Dev) (k n : Nat) : Dev :=
  d.instr k 4 fun d =>
    if n = 0 then d.illegal
    else
      let a := d.arch k
      (d.setArch k { a with dsp := a.dsp + BitVec.ofNat 64 (8 * n) }).ok .next

/-- The check of a branch, call or jump target against PCC and the tables (17 R374, 18 R402). [DEDUCED (log 95)] -/
def Dev.targetOk (d : Dev) (k : Nat) (t : W64) : Act Unit :=
  (d.capCheckAt (d.arch k).pcc 16 .fetch t.toNat 4).bind fun d _ =>
    (d.translate k t.toNat 2).bind fun d _ => d.ok ()

/-- The program counter takes a checked target. [DEDUCED (log 95)] -/
def Dev.jumpTo (d : Dev) (k : Nat) (t : W64) : Act Flow :=
  (d.targetOk k t).bind fun d _ => (d.setArch k ((d.arch k).goto t)).ok .set

/-- An access to the 16-byte slot of the return stack at a physical address is possible (R333). [DEDUCED (log 94)] -/
def Dev.slotOk (d : Dev) (k at_ : Nat) (write : Bool) : Act Unit :=
  if !(wordPoison at_ && wordPoison (at_ + 15)) then d.fault 7 2 0
  else match d.memCause at_ 16 write false with
    | some c => d.memFault k at_ 16 write c at_
    | none => d.ok ()

/-- CALL and CALLI (R333): the limit, the slot, the target, then the store. [DEDUCED (log 94)] -/
def Dev.callTo (d : Dev) (k : Nat) (t : W64) : Act Flow :=
  let a := d.arch k
  let at_ := a.rsp - 16
  if at_.toNat < a.rspLim.toNat then d.fault 6 0 0
  else (d.slotOk k at_.toNat true).bind fun d _ =>
    (d.targetOk k t).bind fun d _ =>
      let d := d.coreStore k at_.toNat (bytesLE 16 (a.pc + 4).toNat) false
      (d.setArch k { (d.arch k).goto t with rsp := at_ }).ok .set

/-- RET (R333): a tagged slot is refused. [DEDUCED (log 94)] -/
def Dev.ret (d : Dev) (k : Nat) : Dev :=
  d.instr k 4 fun d =>
    let a := d.arch k
    let at_ := a.rsp.toNat
    (d.slotOk k at_ false).bind fun d _ =>
      if d.tag at_ then d.fault 7 1 0
      else if d.poisonedRange at_ 16 then d.fault 4 0 at_
      else
        let t := BitVec.ofNat 64 (valueLE (d.memBytes at_ 8))
        (d.targetOk k t).bind fun d _ => (d.setArch k { (d.arch k).goto t with rsp := a.rsp + 16 }).ok .set

/-- A branch condition holds (Table 15-7); `none`: reserved. -/
def condHolds (c : Nat) (f : Flags) : Option Bool :=
  match c with
  | 0 => some true
  | 1 => some f.z
  | 2 => some (!f.z)
  | 3 => some f.c
  | 4 => some (!f.c)
  | 5 => some f.n
  | 6 => some (!f.n)
  | 7 => some f.v
  | 8 => some (!f.v)
  | 9 => some (!f.c && !f.z)
  | 10 => some (f.c || f.z)
  | 11 => some (f.n == f.v)
  | 12 => some (f.n != f.v)
  | 13 => some (!f.z && f.n == f.v)
  | 14 => some (f.z || f.n != f.v)
  | _ => none

/-- The target of a word offset from the address of the branch (R334). -/
def wordTarget (pc off : W64) : W64 := pc + off * 4

/-- Bcc (Tables 15-5, 15-7). -/
def Dev.bcc (d : Dev) (k : Nat) (c : BitVec 4) (off : BitVec 22) : Dev :=
  d.instr k 4 fun d =>
    let a := d.arch k
    match condHolds c.toNat a.flags with
    | none => d.illegal
    | some false => d.ok .next
    | some true => d.jumpTo k (wordTarget a.pc (off.signExtend 64))

/-- JMP: PCC.address takes the effective address. [DEDUCED (log 90)] -/
def Dev.jmp (d : Dev) (k : Nat) (m : MOperand) : Dev :=
  d.instr k 4 fun d => (d.eaOf k m).bind fun d e =>
    (d.jumpTo k e.addr).bind fun d f => (d.setArch k { d.arch k with x := e.x, y := e.y }).ok f

/-- CALL. -/
def Dev.call (d : Dev) (k : Nat) (off : BitVec 26) : Dev :=
  d.instr k 4 fun d => d.callTo k (wordTarget (d.arch k).pc (off.signExtend 64))

/-- CALLI. [DEDUCED (log 90)] -/
def Dev.calli (d : Dev) (k : Nat) (m : MOperand) : Dev :=
  d.instr k 4 fun d => (d.eaOf k m).bind fun d e =>
    (d.callTo k e.addr).bind fun d f => (d.setArch k { d.arch k with x := e.x, y := e.y }).ok f

/-- Elements of a block instruction, one at a time (R342, R343): at most `n`; `elem` says whether it was the last. [DEDUCED (log 93)] -/
def Dev.blockLoop (k : Nat) (elem : Dev → Act Bool) : Nat → Dev → Act Flow
  | 0, d => d.ok .stay
  | n + 1, d => (elem d).bind fun d fin => if fin then d.ok .next else Dev.blockLoop k elem n (d.commitDone k)

/-- A block instruction of which up to `n` elements are performed before it stops; a step performs one (22 R483). `none` of A left
at its start: `empty`. `two`: Y is an address too. [DEDUCED (log 93)] -/
def Dev.block (d : Dev) (k : Nat) (sz : BitVec 2) (n : Nat) (two : Bool) (empty : Arch → Arch) (elem : Nat → Dev → Act Bool) : Dev :=
  d.instr k 4 fun d =>
    let s := szBytes sz
    let a := d.arch k
    if a.a = 0 then (d.setArch k (empty a)).ok .next
    else if a.x.toNat % s ≠ 0 then d.fault 2 0 a.x.toNat
    else if two && a.y.toNat % s != 0 then d.fault 2 0 a.y.toNat
    else Dev.blockLoop k (elem s) (if d.stepping k then Nat.min n 1 else n) d

/-- An element of BMOV, or of BMOVD (`down`) (Table 15-8); poison is copied (R344). -/
def Dev.moveElem (k : Nat) (down : Bool) (s : Nat) (d : Dev) : Act Bool :=
  let a := d.arch k
  (d.loadRaw k a.ddc 17 a.x.toNat s).bind fun d v =>
    (d.storeVal k a.ddc 17 a.y.toNat s v.1 v.2).bind fun d _ =>
      let b := d.arch k
      let w := BitVec.ofNat 64 s
      let next := if down then { b with x := a.x - w, y := a.y - w } else { b with x := a.x + w, y := a.y + w }
      (d.setArch k { next with a := a.a - 1 }).ok (a.a == 1)

/-- An element of BFILL. -/
def Dev.fillElem (k : Nat) (s : Nat) (d : Dev) : Act Bool :=
  let a := d.arch k
  (d.storeVal k a.ddc 17 a.x.toNat s a.y.toNat false).bind fun d _ =>
    (d.setArch k { d.arch k with x := a.x + BitVec.ofNat 64 s, a := a.a - 1 }).ok (a.a == 1)

/-- An element of BFIND: a poisoned one is a fault (R344). -/
def Dev.findElem (k : Nat) (s : Nat) (d : Dev) : Act Bool :=
  let a := d.arch k
  (d.loadVal k a.ddc 17 a.x.toNat s).bind fun d v =>
    let b := d.arch k
    if v = a.y.toNat % 2 ^ (8 * s) then (d.setArch k (b.setFlag 1 true)).ok true
    else
      let b := { b with x := a.x + BitVec.ofNat 64 s, a := a.a - 1 }
      (d.setArch k (if a.a = 1 then b.setFlag 1 false else b)).ok (a.a == 1)

/-- The address of an atomic (R337): its modes, its access check, its place. `sizeOk`: SZ is one it takes. -/
def Dev.atomicAt (d : Dev) (k : Nat) (m : MOperand) (sizeOk : Bool) : Act (Nat × Nat) :=
  if !sizeOk || m.mode == 5 || m.mode == 6 || m.mode == 7 then d.illegal
  else (d.storeEa k m).bind fun d e =>
    let va := e.addr.toNat
    let n := szBytes m.sz
    (d.access k e.cap e.reg .both va n 1).bind fun d pa =>
      if !isCoherent pa then d.fault 8 0 va
      else match d.memCause pa n true false with
        | some c => d.memFault k pa n true c va
        | none => d.ok (pa, va)

/-- TAS (R338). [DEDUCED (log 148)] -/
def Dev.tas (d : Dev) (k : Nat) (m : MOperand) : Dev :=
  d.instr k 4 fun d => (d.atomicAt k m (m.sz == 0)).bind fun d p =>
    let (d, l, bad) := d.getMem true p.1 1
    if bad then d.fault 4 0 p.2
    else
      let old := BitVec.ofNat 64 (valueLE l)
      let d := (d.coreStore k p.1 [0xFF] false).commits k
      (d.setArch k ({ d.arch k with a := old }.setFlags { c := false, z := old == 0, n := false, v := false })).ok .next

/-- LR and SC take 32 or 64 bits (R337). -/
def lrSize (m : MOperand) : Bool := m.sz == 2 || m.sz == 3

/-- LR (R339). -/
def Dev.loadReserved (d : Dev) (k : Nat) (m : MOperand) : Dev :=
  d.instr k 4 fun d => (d.atomicAt k m (lrSize m)).bind fun d p =>
    let (d, l, bad) := d.getMem true p.1 (szBytes m.sz)
    if bad then d.fault 4 0 p.2
    else
      let c := d.core k
      (d.setCore k { c with arch := { c.arch with a := BitVec.ofNat 64 (valueLE l) }, resv := some (p.1 / 64) }).ok .next

/-- SC (R339): Z tells whether it stored; the reservation goes either way. [DEDUCED (log 148)] -/
def Dev.storeConditional (d : Dev) (k : Nat) (m : MOperand) : Dev :=
  d.instr k 4 fun d => (d.atomicAt k m (lrSize m)).bind fun d p =>
    let held := (d.core k).resv == some (p.1 / 64)
    let d := if held then d.coreStore k p.1 (bytesLE (szBytes m.sz) (d.arch k).a.toNat) false else d
    let d := d.commits k
    let c := d.core k
    (d.setCore k { c with arch := c.arch.setFlag 1 held, resv := none }).ok .next

end Sys2Proof.Machine
end

