-- ==== Sys2Proof/Machine/CoreSys.lean ====
section
/-!
DEFINITION. Sys2Proof/Machine/CoreSys.lean: barriers, doors, traps and returns, the capability group, system registers, the TLB group,
CHKPT, CPWAIT and WFI of the Sahxel cores (16 R364; 17 R376-R392; 18 R409; 19 R416; 15 R349).
-/
namespace Sys2Proof.Machine

/-- An instruction without an effect on the state of a model that holds memory coherent and no instruction cache: FENCE, IBAR,
ICINV.ALL (16 R364). [DEDUCED (log 47); DESIGN CHOICE (log 138)] -/
def Dev.barrier (d : Dev) (k : Nat) : Dev := d.instr k 4 fun d => d.ok .next

/-- ICINV: X is translated as a load through DDC (16 R364). -/
def Dev.icinv (d : Dev) (k : Nat) : Dev :=
  d.instr k 4 fun d =>
    let a := d.arch k
    (d.capCheckAt a.ddc 17 .read a.x.toNat 1).bind fun d _ =>
      (d.translate k a.x.toNat 0).bind fun d _ => d.ok .next

/-- The pair of DOOR n is usable (17 R381). -/
def doorUsable (code data : Capability) : Bool :=
  code.tag && code.sealing == 2 && code.has permExecute && data.tag && data.sealing != 0 && data.otype == code.otype

/-- A capability of a door link, spilled. [DEDUCED (log 97)] -/
def Dev.spillLink (d : Dev) (k rsp depth : Nat) (pcc ddc : Capability) : Dev :=
  let d := (d.spillWord k rsp (frameHeader (d.arch k).lvl 2 false)).spillWord k (rsp + 8) depth
  (d.coreStoreCap k (rsp + 0x10) pcc).coreStoreCap k (rsp + 0x20) ddc

/-- Entry through a local door (R381). -/
def Dev.doorEnter (d : Dev) (k : Nat) (code data : Capability) : Act Flow :=
  let a := d.arch k
  let depth := a.depth.toNat
  let link := a.pcc.move (a.pc + 4)
  let inside : Arch → Arch := fun b => { b with pcc := code.opened, ddc := data.opened, depth := b.depth + 1 }
  if depth < 4 then (d.setArch k (inside { a with links := (link, a.ddc) :: a.links })).ok .set
  else
    let rsp := a.rsp - 0x30
    if a.rsp.toNat < a.rspLim.toNat + 0x30 then d.fault 6 0 0
    else if depth = 65535 then d.fault 0x0B 4 0
    else (d.slotOk k rsp.toNat true).bind fun d _ =>
      let d := d.spillLink k rsp.toNat depth link a.ddc
      (d.setArch k (inside { d.arch k with rsp := rsp })).ok .set

/-- A remote door of an application pair: the request is placed and the DOOR waits (17 R384). -/
def Dev.remoteDoor (d : Dev) (k : Nat) (code : Capability) : Act Flow :=
  (d.notInStep k).bind fun d _ =>
    let c := d.core k
    let q : DoorReq := { type := BitVec.ofNat 64 (code.otype.toNat + 2 ^ 31), a := c.arch.a, x := c.arch.x, y := c.arch.y, taken := false }
    let d := { d with dreqs := Table.put {} d.dreqs k q }
    ((d.setCore k { c with doorWait := some d.tick }).commits k).ok .stay

/-- DOOR n (R381, R384). `remote` selects the row: a DOOR whose DOOR_ATTR bit differs is the other one. -/
def Dev.door (d : Dev) (k n : Nat) (remote : Bool) : Dev :=
  if (d.arch k).doorAttr.getLsbD n ≠ remote ∨ (d.arch k).arithPend = true then d
  else d.instr k 4 fun d =>
    let a := d.arch k
    let code : Capability := Table.get {} a.doors (2 * n)
    let data : Capability := Table.get {} a.doors (2 * n + 1)
    if remote && k == 4 then d.fault 0x0B 5 0
    else if !doorUsable code data then d.fault 0x0B 1 0
    else if remote then d.remoteDoor k code
    else d.doorEnter k code data

/-- RDOOR_TMO has passed without a reply (R384): the request is withdrawn and the DOOR completes with Z = 0. -/
def Dev.doorTimeout (d : Dev) (k : Nat) : Dev :=
  match (d.core k).doorWait with
  | none => d
  | some t =>
    if !d.coreRuns k || decide (d.tick < t + 6000 * d.f (pgIntc k) F.RDOOR_TMO_TMO) then d
    else
      let q : DoorReq := Table.get {} d.dreqs k
      let d := { d with dreqs := Table.put {} d.dreqs k { q with type := putBits q.type 31 1 0 } }
      d.doorComplete k 0 false

/-- The waits of remote doors that have run out by the end of a tick (R384). [DESIGN CHOICE (log 145)] -/
def Dev.doorsEnd (d : Dev) : Dev := d.cores.foldl (fun d e => d.doorTimeout e.1) d

/-- The frame at RSP is a door-link frame with tagged slots (R382, R383). [DEDUCED (log 97)] -/
def Dev.linkFrameOk (d : Dev) (rsp depth : Nat) : Bool :=
  wordPoison rsp && wordPoison (rsp + 0x2F) &&
    (let h := valueLE (d.memBytes rsp 16)
     nbits h 4 4 == 2 && nbits h 8 24 == 0 && nbits h 32 16 == 0x5A11 && nbits h 48 16 == 0 && nbits h 64 64 == depth) &&
    d.tag (rsp + 0x10) && d.tag (rsp + 0x20)

/-- DOOR.OUT (R382). -/
def Dev.doorOut (d : Dev) (k : Nat) : Dev :=
  if (d.arch k).arithPend then d
  else d.instr k 4 fun d =>
    let a := d.arch k
    let depth := a.depth.toNat
    if depth = 0 then d.fault 0x0B 2 0
    else if depth ≤ 4 then
      match a.links with
      | (p, c) :: r => (d.setArch k { a with pcc := p, ddc := c, links := r, depth := a.depth - 1 }).ok .set
      | [] => d.fault 0x0B 2 0
    else
      let rsp := a.rsp.toNat
      if !d.linkFrameOk rsp (depth - 1) then d.fault 0x0B 3 0
      else
        (d.setArch k { a with
          pcc := d.capAt (rsp + 0x10), ddc := d.capAt (rsp + 0x20), rsp := a.rsp + 0x30, depth := a.depth - 1 }).ok .set

/-- TRAP n (R387, Table 17-11). -/
def Dev.trap (d : Dev) (k n : Nat) : Dev :=
  if (d.arch k).arithPend then d
  else d.instr k 4 fun d =>
    let a := d.arch k
    (d.takeException k a.lvl n (a.pc + 4) (causeWord 0x0D n 0) 0).ok .entered

/-- RTE at the current level (R391). -/
def Dev.rte (d : Dev) (k : Nat) : Dev :=
  if (d.arch k).arithPend then d
  else d.instr k 4 fun d =>
    let n := (d.arch k).lvl
    match d.rteFailure k n with
    | some f => d.fault 0x0C f 0
    | none => (d.restoreSet k n).ok .set

/-- KRD (R376). -/
def Capability.field (c : Capability) (sel : Nat) : Option W64 :=
  match sel with
  | 0 => some c.addr
  | 1 => some (BitVec.ofNat 64 c.base)
  | 2 => some (BitVec.ofNat 64 c.len)
  | 3 => some (c.perms.setWidth 64)
  | 4 => some (c.otype.setWidth 64)
  | 5 => some (c.sealing.setWidth 64)
  | 6 => some (BitVec.ofNat 64 (b2n c.tag))
  | 7 => some (c.xp.setWidth 64)
  | _ => none

/-- KRD: a field of CS; other values of SEL are illegal. [DEDUCED (log 98)] -/
def Dev.krd (d : Dev) (k : Nat) (o : KOperand) : Dev :=
  d.instr k 4 fun d =>
    let a := d.arch k
    match (a.cap o.cs.toNat).field o.sel.toNat with
    | none => d.illegal
    | some v => (d.setArch k { a with a := v }).ok .next

/-- CD takes a capability made of CS and A. -/
def Dev.kmake (d : Dev) (k : Nat) (o : KOperand) (f : Arch → Capability → Capability) : Dev :=
  d.instr k 4 fun d =>
    let a := d.arch k
    (d.setArch k (a.setCap o.cd.toNat (f a (a.cap o.cs.toNat)))).ok .next

/-- The result of KLOCK or KOPEN, or its CAP fault. -/
def Dev.kseal (d : Dev) (k : Nat) (o : KOperand) (r : Arch → Except (Nat × Bool) Capability) : Dev :=
  d.instr k 4 fun d =>
    let a := d.arch k
    match r a with
    | .ok c => (d.setArch k (a.setCap o.cd.toNat c)).ok .next
    | .error (kind, onCt) => d.fault 9 (kind + 16 * (if onCt then o.ct.toNat else o.cs.toNat)) 0

/-- KLOCK. -/
def Dev.klock (d : Dev) (k : Nat) (o : KOperand) : Dev :=
  d.kseal k o fun a => (a.cap o.cs.toNat).lock (a.cap o.ct.toNat) (bitsOf a.a 0 12) (o.sel.getLsbD 0)

/-- KOPEN. -/
def Dev.kopen (d : Dev) (k : Nat) (o : KOperand) : Dev :=
  d.kseal k o fun a => (a.cap o.cs.toNat).unlock (a.cap o.ct.toNat)

/-- The address of KLD and KST, its capability and register number (R376). -/
def Arch.kaddr (a : Arch) (o : KOperand) : W64 × Capability × Nat :=
  if o.sel.getLsbD 0 then (a.x, a.ddc, 17)
  else ((a.cap o.cs.toNat).addr + a.x, a.cap o.cs.toNat, o.cs.toNat)

/-- A 16-byte access to a device: the bus fault of cause SIZE, or of what comes before it (01 R31, 17 R372). [DEDUCED (log 99)] -/
def Dev.deviceSize (d : Dev) (k pa : Nat) (write : Bool) (va : Nat) : Act Flow :=
  (d.notInStep k).bind fun d _ =>
    let d := d.commits k
    if isPage pa then
      let who : Who := ⟨k + 1, none, true⟩
      ((if write then d.busWrite who pa 16 0 else d.busRead who pa 16 true).pageAnswer va).bind fun d _ => d.fault 3 2 va
    else match d.memCause pa 16 write false with
      | some c => d.memFault k pa 16 write c va
      | none => d.memFault k pa 16 write 2 va

/-- KLD: 16 aligned bytes; without LOAD_CAP the tag is cleared (R372). [DEDUCED (log 98)] -/
def Dev.kld (d : Dev) (k : Nat) (o : KOperand) : Dev :=
  d.instr k 4 fun d =>
    let (va, c, reg) := (d.arch k).kaddr o
    (d.access k c reg .read va.toNat 16 0).bind fun d pa =>
      if isDevice pa then d.deviceSize k pa false va.toNat
      else match d.memCause pa 16 false false with
        | some x => d.memFault k pa 16 false x va.toNat
        | none =>
          let (d, l, p) := d.getMem true pa 16
          if p then d.fault 4 0 va.toNat
          else
            let v := Capability.ofBits (valueLE l) (wordPoison pa && d.tag pa && c.has permLoadCap)
            (d.setArch k ((d.arch k).setCap o.cd.toNat v)).ok .next

/-- A store through this capability of a tagged value lacks STORE_CAP (R376). [DEDUCED (log 98)] -/
def lacksStoreCap (c : Capability) (tagged : Bool) (va : Nat) : Bool :=
  tagged && !c.has permStoreCap && (match c.check .write va 16 with | none | some 4 => true | _ => false)

/-- KST: CD is stored. [DEDUCED (log 98)] -/
def Dev.kst (d : Dev) (k : Nat) (o : KOperand) : Dev :=
  d.instr k 4 fun d =>
    let (va, c, reg) := (d.arch k).kaddr o
    let v := (d.arch k).cap o.cd.toNat
    (d.require (va.toNat % 16 == 0) 2 0 va.toNat).bind fun d _ =>
      if lacksStoreCap c v.tag va.toNat then d.fault 9 (3 + 16 * reg) va.toNat
      else (d.access k c reg .write va.toNat 16 1).bind fun d pa =>
        if isDevice pa then d.deviceSize k pa true va.toNat
        else match d.memCause pa 16 true false with
          | some x => d.memFault k pa 16 true x va.toNat
          | none => (d.coreStoreCap k pa v).ok .next

/-- KDDC: DDC := CS. -/
def Dev.kddc (d : Dev) (k : Nat) (o : KOperand) : Dev :=
  d.instr k 4 fun d =>
    let a := d.arch k
    (d.setArch k { a with ddc := a.cap o.cs.toNat }).ok .next

/-- KJMP: PCC := CS, once CS passes the check of a target (R374). [DEDUCED (log 99)] -/
def Dev.kjmp (d : Dev) (k : Nat) (o : KOperand) : Dev :=
  d.instr k 4 fun d =>
    let c := (d.arch k).cap o.cs.toNat
    (d.capCheckAt c o.cs.toNat .fetch c.addr.toNat 4).bind fun d _ =>
      (d.translate k c.addr.toNat 2).bind fun d _ => (d.setArch k { d.arch k with pcc := c }).ok .set

/-- What a move of system register r needs in PCC (R378, 18 R396); `write`: it is an MTS. -/
def Dev.sysAllowed (d : Dev) (k r : Nat) (write : Bool) : Act Unit :=
  let sys := 6 ≤ r || (write && (r == 3 || r == 4))
  (if sys then d.needPcc k permSysreg else d.ok ()).bind fun d _ =>
    if 0x18 ≤ r ∧ r < 0x30 then d.needPcc k permTlb else d.ok ()

/-- KMFS: CD := capability system register A[11:0]. -/
def Dev.kmfs (d : Dev) (k : Nat) (o : KOperand) : Dev :=
  d.instr k 4 fun d =>
    let a := d.arch k
    let r := bitsOf a.a 0 12
    (d.sysAllowed k r false).bind fun d _ =>
      if sysCap r then (d.setArch k (a.setCap o.cd.toNat (a.sysCapRead r))).ok .next else d.illegal

/-- KMTS: capability system register A[11:0] := CS, tag kept. -/
def Dev.kmts (d : Dev) (k : Nat) (o : KOperand) : Dev :=
  d.instr k 4 fun d =>
    let a := d.arch k
    let r := bitsOf a.a 0 12
    (d.sysAllowed k r true).bind fun d _ =>
      if sysCap r then (d.setArch k (a.sysCapWrite r (a.cap o.cs.toNat))).ok .next else d.illegal

/-- MFS (R327, R378): a number without a register is illegal. [DEDUCED (log 106)] -/
def Dev.mfs (d : Dev) (k : Nat) (rd : BitVec 2) (r : Nat) : Dev :=
  d.instr k 4 fun d =>
    if rd = 3 then d.illegal
    else (d.sysAllowed k r false).bind fun d _ =>
      match d.sysRead k r with
      | none => d.illegal
      | some v => (d.setArch k ((d.arch k).setGpr rd.toNat v)).ok .next

/-- DREQ_j.REP of SP: its write is a commit point (19 R419). [DEDUCED (log 106)] -/
def isRep (k r : Nat) : Bool := k == 4 && 0xE0 ≤ r && r < 0x100 && r % 8 == 4

/-- MTS (R327, R378). [DEDUCED (log 106)] -/
def Dev.mts (d : Dev) (k : Nat) (rs : BitVec 2) (r : Nat) : Dev :=
  d.instr k 4 fun d =>
    if rs = 3 then d.illegal
    else (d.sysAllowed k r true).bind fun d _ =>
      match d.sysWrite k r ((d.arch k).gpr rs.toNat) with
      | .ok d => (if isRep k r then d.commits k else d).ok .next
      | .error c => d.fault c 0 0

/-- A TLB operation: TLB in PCC, then its effect (18 R409). -/
def Dev.tlbOp (d : Dev) (k : Nat) (f : Dev → Act Unit) : Dev :=
  d.instr k 4 fun d => (d.needPcc k permTlb).bind fun d _ => (f d).bind fun d _ => d.ok .next

/-- The TLB keeps its locked entries and the unlocked ones that a test keeps. -/
def Dev.tlbKeep (d : Dev) (k : Nat) (keep : TlbEntry → Bool) : Act Unit :=
  (d.setTlb k ((d.core k).tlb.filter (fun e => e.slot.isSome || keep e))).ok ()

/-- TLBI.VA. -/
def Dev.tlbiVa (d : Dev) (k : Nat) : Dev :=
  d.tlbOp k fun d =>
    let a := d.arch k
    d.tlbKeep k fun e => !e.hits (a.x.toNat % 2 ^ 48) (bitsOf a.a 0 8)

/-- TLBI.ASID. -/
def Dev.tlbiAsid (d : Dev) (k : Nat) : Dev :=
  d.tlbOp k fun d =>
    let a := d.arch k
    d.tlbKeep k fun e => e.glob || e.asid != bitsOf a.a 0 8

/-- TLBI.ALL. -/
def Dev.tlbiAll (d : Dev) (k : Nat) : Dev := d.tlbOp k fun d => d.tlbKeep k fun _ => false

/-- TLBLOCK: X is walked as a load and locked in slot A[3:0]. -/
def Dev.tlbLock (d : Dev) (k : Nat) : Dev :=
  d.tlbOp k fun d =>
    let a := d.arch k
    let va := a.x.toNat
    let n := bitsOf a.a 0 4
    if 2 ^ 48 ≤ va then ⟨d, .error (xlateFault 4 0 0 va)⟩
    else (d.walk k va 0 a.asid (some n)).bind fun d e =>
      let d := d.installLock k n va e
      (d.setArch k { d.arch k with tlbl := Table.put 0 a.tlbl n (lockWord a.asid va) }).ok ()

/-- TLBUNLOCK of slot A[3:0]. -/
def Dev.tlbUnlock (d : Dev) (k : Nat) : Dev :=
  d.tlbOp k fun d =>
    let a := d.arch k
    let n := bitsOf a.a 0 4
    let d := d.setTlb k ((d.core k).tlb.filter (fun e => e.slot != some n))
    (d.setArch k { d.arch k with tlbl := Table.put 0 a.tlbl n (putBits (Table.get 0 a.tlbl n) 63 1 0) }).ok ()

/-- What TLBPROBE reports of an entry (18 Table 18-6). -/
def TlbEntry.probe (e : TlbEntry) (va : Nat) : W64 :=
  BitVec.ofNat 64 (1 + b2n e.w * 2 + b2n e.x * 4 + b2n e.slot.isSome * 8 + b2n e.big * 16 + e.pa va / 4096 * 4096)

/-- TLBPROBE: no fault and no fill. Of several matching entries the spec does not say which is reported. [DESIGN CHOICE (log 103)] -/
def Dev.tlbProbe (d : Dev) (k : Nat) : Dev :=
  d.tlbOp k fun d =>
    let a := d.arch k
    let va := a.x.toNat
    let (d, hit) := if va < 2 ^ 48 then d.tlbMatches k va a.asid else (d, [])
    match hit with
    | [] => (d.setArch k { d.arch k with a := 0 }).ok ()
    | [e] => (d.setArch k { d.arch k with a := e.probe va }).ok ()
    | e :: r =>
      let (w, d) := d.freeWord
      (d.setArch k { d.arch k with a := ((e :: r).getD (w.toNat % (r.length + 1)) e).probe va }).ok ()

/-- A coprocessor result has not landed. -/
def Core.outstanding (c : Core) : Bool := c.cps.any (fun o => !o.landed)

/-- CHKPT (19 R416): it waits for every coprocessor result; [25:0] not zero is illegal. -/
def Dev.chkpt (d : Dev) (k : Nat) (rest : BitVec 26) : Dev :=
  if rest = 0 ∧ (d.core k).outstanding = true then d
  else d.instr k 4 fun d => if rest ≠ 0 then d.illegal else d.ok .mark

/-- CPWAIT (15 R349): once every result has landed, every CQ register holds its final value. -/
def Dev.cpwait (d : Dev) (k : Nat) : Dev :=
  if (d.core k).outstanding then d
  else d.instr k 4 fun d =>
    let c := d.core k
    (d.setCore k { c with arch := c.arch.landAll c.cps, cps := [] }).ok .next

/-- An enabled source above LVL is pending (17 R392). -/
def Dev.wakes (d : Dev) (k : Nat) : Bool :=
  match d.intTop k with
  | some s => decide ((d.arch k).lvl < s.1)
  | none => false

/-- WFI (17 R392): it retires at once where a source is pending, and else waits. -/
def Dev.waitInt (d : Dev) (k : Nat) : Dev :=
  d.instr k 4 fun d => (d.notInStep k).bind fun d _ =>
    if d.wakes k then d.ok .next else (d.setCore k { d.core k with wfi := true }).ok .stay

/-- A waiting WFI retires (17 R392). -/
def Dev.wfiRetire (d : Dev) (k : Nat) : Dev :=
  let c := d.core k
  if c.wfi then d.setCore k { c with arch := c.arch.goto (c.arch.pc + 4), wfi := false }.retired else d

/-- WFI_WAKE. -/
def Dev.wfiWake (d : Dev) (k : Nat) : Dev :=
  if d.coreRuns k && (d.core k).wfi && d.wakes k then d.wfiRetire k else d

/-- INTERRUPT_ENTRY (17 R386, R387, R393): the best pending source is taken at an instruction boundary. [DEDUCED (log 105)] -/
def Dev.interruptEntry (d : Dev) (k : Nat) : Dev :=
  let c := d.core k
  let free := d.coreRuns k && c.arch.ie && !c.arch.arithPend && c.doorWait.isNone && !(d.sys.halted && c.maskInt)
  match d.intTop k with
  | none => d
  | some (p, e, t) =>
    if !free || decide (p ≤ c.arch.lvl) then d
    else
      let d := d.wfiRetire k
      let d := d.takeException k p (0x110 + t) (d.arch k).pc (causeWord 0x0F 0 e) 0
      (if d.on (pgIntc k) F.LS_STAT_RECOVERING || d.on (pgIntc k) F.LS_STAT_FAILED then d else d.intTake k e).stepEnd k 2

/-- ARITH_EXCEPTION (17 R386, R388): a pending arithmetic exception is delivered at an instruction boundary. -/
def Dev.arithException (d : Dev) (k : Nat) : Dev :=
  let c := d.core k
  if !d.coreRuns k || !c.arch.arithPend then d
  else
    let n := c.arch.lvl
    let d := d.setCore k { c with arch := { c.arch with arithPend := false }, since := 0, wfi := false }
    (d.takeException k n (0x108 + n) c.arch.pc (causeWord 0x0E (bitsOf c.arch.arithCause 0 9) 0) 0).stepEnd k 2

/-- AUTO_CHECKPOINT (19 R415). -/
def Dev.autoCheckpoint (d : Dev) (k : Nat) : Dev := if d.coreRuns k && d.chkDue k then d.checkpoint k else d

end Sys2Proof.Machine
end

