-- ==== Sys2Proof/Machine/CorePort.lean ====
section
/-!
DEFINITION. Sys2Proof/Machine/CorePort.lean: the coprocessor port of the Sahxel cores (15_sahxel_programming_model.md R345-R351).
-/
namespace Sys2Proof.Machine

/-- A coprocessor result (Table 15-10). -/
def cpResult (status value : Nat) : W64 := BitVec.ofNat 64 (status * 2 ^ 60 + value % 2 ^ 60)

/-- BAD_ARG. -/
def cpBadArg : W64 := cpResult 3 0

/-- The port's access to a page register is refused (R351): the cause, with the domain first; `write`: a sealed page capability is
needed. -/
def Dev.portCause (d : Dev) (k : Nat) (c : Capability) (p o len : Nat) (write : Bool) : Option Nat :=
  match pageAt p with
  | none => some 8
  | some i =>
    if !d.domOn i.dom then some 7
    else if (c.check (if write then .write else .read) (p + o) len).isSome then some 3
    else if write && (c.sealing != 1 || !d.mayWrite (coreWho k c) i o) then some 3
    else none

/-- An operation's access to a page register, and its effect where it is accepted (R351): the device and the result. [DEDUCED (log 100)] -/
def Dev.portAccess (d : Dev) (k : Nat) (c : Capability) (p o len : Nat) (write : Bool) (f : Dev → Dev × W64) : Dev × W64 :=
  match d.portCause k c p o len write with
  | some x => (d.logAt (if x = 3 then p else pgFerr) (k + 1) (p + o) len write x, cpResult 2 x)
  | none => f d

/-- A coprocessor operation of latency L issues (R345): its result is on its way to CQn. A ninth waits. -/
def Dev.cpOp (d : Dev) (k : Nat) (o : COperand) (lat : Nat) (commit : Bool) (f : Dev → Arch → Capability → Dev × W64) : Dev :=
  if 8 ≤ ((d.core k).cps.filter (fun x => !x.landed)).length then d
  else d.instr k 4 fun d => (d.notInStep k).bind fun d _ =>
    let a := d.arch k
    let (d, v) := f d a (a.cap o.cap.toNat)
    let c := d.core k
    let d := d.setCore k { c with cps := c.cps ++ [⟨o.cq.toNat, v, lat, 0, false, false⟩] }
    (if commit then d.commits k else d).ok .next

/-- CP0 POST (Table 15-11, 08 R188, R189). -/
def Dev.cpPost (d : Dev) (k : Nat) (o : COperand) : Dev :=
  d.cpOp k o 12 true fun d a c =>
    let desc := bitsOf a.a 0 8
    let cas := bitsOf a.a 8 4
    if bitsOf a.a 12 52 ≠ 0 ∨ bitsOf a.x 32 32 ≠ 0 then (d, cpBadArg)
    else d.portAccess k c (pgJq cas) 0x48 8 true fun d =>
      let dl := d.offsetDeadline a.x.toNat
      let now := d.count
      match d.postRefusal (d.posting cas desc dl false) with
      | some code => (d.post cas desc dl false 65, cpResult 1 code)
      | none => (d.post cas desc dl false 65, cpResult 0 now)

/-- CP0 RDJOB: how the latest finished job of a descriptor ended. [DEDUCED (log 34)] -/
def Dev.cpRdJob (d : Dev) (k : Nat) (o : COperand) : Dev :=
  d.cpOp k o 8 false fun d a c =>
    let desc := bitsOf a.a 0 8
    let cas := bitsOf a.a 8 4
    let at_ := 0x100 + 4 * (desc / 4)
    if bitsOf a.a 12 52 ≠ 0 then (d, cpBadArg)
    else d.portAccess k c (pgJq cas) at_ 4 false fun d =>
      let e : Nat × Nat := Table.get (0, 0) d.jobEnds (256 * cas + desc)
      let miss := bitsOf (d.reg (pgJq cas + at_)) (8 * (desc % 4)) 8
      (d, cpResult 0 (e.1 * 2 ^ 58 + miss * 2 ^ 48 + e.2 % 2 ^ 48))

/-- CP0 RDLANE: a V register, or half of an accumulator. -/
def Dev.cpRdLane (d : Dev) (k : Nat) (o : COperand) : Dev :=
  d.cpOp k o 16 false fun d a c =>
    let n := bitsOf a.a 0 6
    let acc := bitAt a.a 17
    if bitsOf a.a 6 2 ≠ 0 ∨ bitsOf a.a 10 2 ≠ 0 ∨ bitsOf a.a 19 45 ≠ 0 ∨ (acc = false ∧ bitAt a.a 18 = true) ∨
        (acc = true ∧ bitAt a.a 16 = true) then (d, cpBadArg)
    else d.portAccess k c (pgSash n) 0 4 false fun d =>
      let l := d.lane n (bitsOf a.a 8 2)
      let v := if acc then bitsOf (Table.get (0 : W64) l.acc (bitsOf a.a 12 4)) (if bitAt a.a 18 then 32 else 0) 32
        else (Table.get (0 : W32) l.v (bitsOf a.a 12 5)).toNat
      (d, cpResult 0 v)

/-- CP1 START (20 R445). [DEDUCED (log 100)] -/
def Dev.cpStart (d : Dev) (k : Nat) (o : COperand) : Dev :=
  d.cpOp k o 12 true fun d a c =>
    let s := bitsOf a.a 16 1
    if bitsOf a.a 0 16 ≠ 0 ∨ bitsOf a.a 17 47 ≠ 0 then (d, cpBadArg)
    else d.portAccess k c (pgSill s) 0x40 8 true fun d =>
      match d.sillStart s a.x.toNat with
      | (d, .ok n) => (d, cpResult 0 n)
      | (d, .error code) => (d, cpResult 1 code)

/-- The state of a transfer as STAT reports it; UNKNOWN where its number is not among the latest 256 (20 Table 20-6). -/
def Dev.cpState (d : Dev) (s n : Nat) : Dev × W64 :=
  match d.sillState s n with
  | (d, some (st, left)) => (d, cpResult 0 (st + left * 2 ^ 16))
  | (d, none) => (d, cpResult 1 5)

/-- CP1 STAT, and CANCEL with its effect. [DEDUCED (log 100)] -/
def Dev.cpXfer (d : Dev) (k : Nat) (o : COperand) (cancel : Bool) : Dev :=
  d.cpOp k o 8 cancel fun d a c =>
    let s := bitsOf a.a 16 1
    let n := bitsOf a.a 0 16
    if bitsOf a.a 17 47 ≠ 0 then (d, cpBadArg)
    else d.portAccess k c (pgSill s) (if cancel then 0x58 else 0x4C) 4 cancel fun d =>
      (if cancel then d.sillCancel s n else d).cpState s n

/-- The oldest operation whose result has not landed lands (R346). -/
def landFirst : List CpOp → List CpOp
  | [] => []
  | o :: r => if o.landed then o :: landFirst r else { o with landed := true } :: r

/-- CQ_RESULT_LAND (R346): it takes place during a recovery too (19 R420). -/
def Dev.resultLand (d : Dev) (k : Nat) : Dev :=
  let c := d.core k
  if d.clocksStill then d else d.setCore k { c with cps := landFirst c.cps }

end Sys2Proof.Machine
end

