-- ==== Sys2Proof/Machine/HostPort.lean ====
section
/-!
DEFINITION. Sys2Proof/Machine/HostPort.lean: what the host's requests through a PCIe function do (21_host_and_network_interfaces.md R453-R457, R472).
-/
namespace Sys2Proof.Machine

/-- A page access of a function: the page judges it by the function's PF_OTYPE (R453). -/
def pfWho (f : Nat) : Who := ⟨0x300 + f, none, true⟩

/-- A word of the MSI-X table (R457); software sees the standard format. -/
def Dev.msixWrite (d : Dev) (f v word : Nat) (val : W32) : Dev :=
  let x := d.pf f
  let val := if word = 3 then val &&& 1 else if word = 0 then val &&& 0xFFFFFFFC else val
  d.setPf f { x with table := Table.put (if word = 3 then 1 else 0) x.table (4 * v + word) val }

/-- The bits of a function's configuration space that the function page shows or the device acts on (R456, R457). [DEDUCED (log 22)] -/
def Dev.pfConfig (d : Dev) (f : Nat) (bme d3 en mask : Bool) : Dev :=
  let d := (d.setB (pgPf f) F.PF_STAT_BME bme).setB (pgPf f) F.PF_STAT_D3 d3
  d.setPf f { d.pf f with msixEn := en, msixMask := mask }

/-- PCIE_INBOUND_WRITE (R453-R455). Requests come while the link is up, and memory requests outside D3hot. [DEDUCED (log 22)] -/
def Dev.pcieWrite (d : Dev) (f : Nat) (x : PcieWrite) : Dev :=
  match x with
  | .config bme d3 en mask =>
    if d.domOn domHostio && d.on (pgPf f) F.PF_STAT_LINK_UP then { d.pfConfig f bme d3 en mask with resp := {} } else d
  | .bar0 off l => if d.pfUp f then d.busWrite (pfWho f) (0xE0000000 + off.toNat) l.length (valueLE l) else d
  | .bar2 a l ep => if d.pfUp f then d.bar2Write f a.toNat l ep else d
  | .table v word val => if d.pfUp f then { d.msixWrite f v word val with resp := {} } else d

/-- PCIE_INBOUND_READ (R453-R455). -/
def Dev.pcieRead (d : Dev) (f : Nat) (x : PcieRead) : Dev :=
  if !d.pfUp f then d
  else match x with
    | .bar0 off len => d.busRead (pfWho f) (0xE0000000 + off.toNat) len false
    | .bar2 a len => d.bar2Read f a.toNat len
    | .table v word => d.answer ((d.pf f).entry v word).toNat
    | .pba => d.answer (d.pf f).pba.toNat

/-- BOOT_DB (R472): function 0 rings the doorbell with `len` image bytes; `a` and `b` are the images the boot ROM finds in xSPI when it goes on to them. [DEDUCED (log 135)] -/
def Dev.bootDb (d : Dev) (len : Nat) (a b : List Byte) : Dev :=
  if !d.pfUp 0 then d
  else
    let r := d.busWrite (pfWho 0) (pgPf 0 + 0x180) 4 len
    if r.resp.error.isSome then r else { (d.noteLanded (pgPf 0 + 0x180) 4 len).bootDoorbell len a b with resp := {} }

end Sys2Proof.Machine
end

