-- ==== Sys2Proof/Machine/State.lean ====
section
/-!
DEFINITION. Sys2Proof/Machine/State.lean: the whole state as plain data, the ways a step can stop, and the state after reset.
-/
namespace Sys2Proof.Machine

/-- The device and the commands that wait, first in, first out. `otp` is the fuse array and `sec` debug access, which
lie outside what a reset restores. -/
structure State where
  pending : List Instr := []
  otp : Otp := {}
  sec : Vopen := {}
  dev : Dev := {}
  deriving DecidableEq, Repr

/-- No command of this device stops the model: the type has no constructor. -/
inductive Fault where
  deriving DecidableEq, Repr

/-- What the model refuses by name. -/
inductive Refusal where
  /-- Raised by `exec` for a command without a meaning in the model; safe, for the run ends there. No command raises it now. -/
  | notModelled (mnemonic : String)
  deriving DecidableEq, Repr

/-- A power-on reset in progress (03_clocks_power_reset.md R69, R70): every register at its reset value, no switched domain on,
nothing in memory, the fuses unblown but for a valid factory image, no debug level. RESET_SEQUENCE_END ends it. [DESIGN CHOICE (log 8, 10)] -/
def State.reset : State :=
  let regs : Table W32 := [(0xE0002044, 0x80000000)]
  { dev := { regs := regs, present := { tick := { regs := regs }, cycle := { regs := regs } } } }

end Sys2Proof.Machine
end

