-- ==== Sys2Proof/Machine/Pins.lean ====
section
/-!
DEFINITION. Sys2Proof/Machine/Pins.lean: what each signal group shows at its balls in each state of the device (02 R44-R50, Table 2-6).
-/
namespace Sys2Proof.Machine

/-- A signal of Tables 2-3 and 2-4: generators, clocks, links and balls by their device-wide number. -/
inductive Pin where
  | pwmH (n : Nat)
  | pwmL (n : Nat)
  | flt (n : Nat)
  | faultOut
  | porstN
  | wrstN
  | rstoutN
  | ain (n : Nat)
  | sdd (n : Nat)
  | sdc (n : Nat)
  | tlTx (l : Nat)
  | tlRx (l : Nat)
  | tio (n : Nat)
  | encoder (n : Nat)
  | canTx (m : Nat)
  | canRx (m : Nat)
  | pcieTx
  | ethTx (p : Nat)
  | xspiClk
  | xspiCsN
  | xspiRstN
  | xspiDq
  | i2c
  | tapIn
  | tdo
  | trace
  deriving DecidableEq, Repr

/-- What a ball does: high-impedance, driven to a level, an input, an input terminated with 100 Ω, electrical idle, an open drain that is
released, or carrying the signals of its protocol. -/
inductive PinState where
  | highZ | low | high | input | terminated | idle | released | active
  deriving DecidableEq, Repr

/-- A driven level. -/
def pinOf (b : Bool) : PinState := if b then .high else .low

/-- A pad of the table of pads: 2 is high-impedance. -/
def padPin (v : Nat) : PinState := if v = 2 then .highZ else pinOf (v == 1)

/-- A pad of the 3.3 V bank: high-impedance while its supply or that of its logic is absent (R44, R47). [DESIGN CHOICE (log 143)] -/
def Dev.io33 (d : Dev) (x : PinState) : PinState := if d.sys.vddIo33 && d.sys.vddAon then x else .highZ

/-- A pad of another bank, which is high-impedance while the device is unpowered (Table 2-6). -/
def Dev.powered (d : Dev) (x : PinState) : PinState := if d.sys.vddAon then x else .highZ

/-- A transmitter of a link or of a serdes block: electrical idle in a reset, before its page is enabled and in a halt (Table 2-6). -/
def Dev.txPin (d : Dev) (page : Nat) : PinState := if d.sys.reset != .none || !d.live page || d.sys.halted then .idle else .active

/-- What a signal shows (Table 2-6, R46-R50). [DEDUCED (log 146)] -/
def Dev.pin (d : Dev) : Pin → PinState
  | .pwmH n => padPin (d.pairPads (n / 6) (n % 6)).1
  | .pwmL n => padPin (d.pairPads (n / 6) (n % 6)).2
  | .flt _ => d.io33 .input
  | .faultOut => d.io33 (pinOf (!d.faultOut))
  | .porstN => .input
  | .wrstN => d.io33 .input
  | .rstoutN => d.io33 (pinOf d.sys.rstoutHigh)
  | .ain _ => d.powered .input
  | .sdd _ => d.powered .input
  | .sdc n => d.powered (pinOf (d.live (pgSd (n / 2)) && d.sdcLevel (n / 2) (n % 2)))
  | .tlTx l => d.powered (if d.sys.reset == .none && !d.domOn (domLink (l / 16)) then .highZ else d.txPin (pgTlc l))
  | .tlRx _ => d.powered .terminated
  | .tio n => d.powered (if d.tioDrivers (n / 8) (n % 8) (fun q => d.live (pgTmr (n / 8) q)) = 0 then .input
      else pinOf (d.ball (n / 8) (n % 8)).raw)
  | .encoder _ => d.powered .input
  | .canTx m => d.powered (if (d.can m).tx.isSome && !d.sys.halted then .active else .high)
  | .canRx _ => d.powered .input
  | .pcieTx => d.powered (if d.on (pgPf 0) F.PF_STAT_LINK_UP then d.txPin (pgPf 0) else .idle)
  | .ethTx p => d.powered (d.txPin (pgEth p))
  | .xspiClk => d.powered (if d.xspi.cmd.isSome && !d.sys.halted then .active else .low)
  | .xspiCsN => d.powered (pinOf d.xspi.cmd.isNone)
  | .xspiRstN => d.powered (pinOf d.xspiRstN)
  | .xspiDq => d.powered (if d.xspi.cmd.isSome then .active else .input)
  | .i2c => d.powered (if d.i2c.cmd.isSome && !d.sys.halted then .active else .released)
  | .tapIn => d.powered .input
  | .tdo => d.powered (if d.sys.halted then .active else .highZ)
  | .trace => d.powered (if d.tracing && !d.sys.halted && !d.on pgDbg F.TRC_CTRL_DEST then .active else .low)

end Sys2Proof.Machine
end

