-- ==== Sys2Proof/Machine/Tick.lean ====
section
/-!
DEFINITION. Sys2Proof/Machine/Tick.lean: what one tick does to the device whatever is commanded (03 R56, 04 R89, 10 R221, 11 R248, 22 R487).
-/
namespace Sys2Proof.Machine

/-- The end of a tick: what was due in it of launch entries, generators, timers, encoders, modulator clocks, watchdogs, links, gate lists, remote doors and the Shutter matrix and no
command has taken; and the jobs that missed their deadlines in it. [DESIGN CHOICE (log 145)] -/
def Dev.tickEnd (d : Dev) : Dev :=
  let d := d.launchEnd
  let d := d.forN 96 (fun n d => d.pwmEnd n)
  let d := d.timersEnd
  let d := d.forN 16 (fun e d => d.encEnd e)
  d.missesEnd.injsEnd.sdEnd.wdsEnd.linksEnd.ethsEnd.doorsEnd.shutterEnd

/-- One tick of the clock tree: the present one ends; then the Lintel count, what reaches the Shutter matrix a tick late, the synchronizers of comparators and balls, the PWM counters
and the trace port. [DESIGN CHOICE (log 1)] -/
def Dev.idle (d : Dev) : Dev :=
  let d := d.tickEnd.settle
  let late := d.lateSources
  let d := d.lintelTick.newTick
  let d := if late then d.shutter else d
  let d := d.cmps.foldl (fun d e => d.cmpSync e.1) d
  let d := d.eths.foldl (fun d e => d.ethSfd e.1) d.tioTick.encTick
  (d.forN 96 (fun n d => d.pwmTick n)).traceTick

/-- A tick passes, unless the clocks stand still or a power-on reset holds the count at 0 (03 R58, R69). [DEDUCED (log 51)] -/
def Dev.tickOver (d : Dev) : Dev :=
  if d.clocksStill || d.sys.reset == .powerOn then d else d.idle.settle

end Sys2Proof.Machine
end

