-- ==== Sys2Proof/Machine/Lockstep.lean ====
section
/-!
DEFINITION. Sys2Proof/Machine/Lockstep.lean: the recovery of a lockstep pair, and the patrol scrubber of Core SRAM
(19_lockstep_and_rollback.md R421-R427; 16 R367, R368).
-/
namespace Sys2Proof.Machine

/-- LOCKSTEP_MISMATCH (R421): compared outputs disagree on a lane. -/
def Dev.mismatch (d : Dev) (k lane : Nat) : Dev :=
  let runs := (decide (lane < 704) || k == 4) && d.domOn k && (d.core k).running && !d.on (pgIntc k) F.LS_STAT_FAILED
  if runs && (if d.sys.halted then d.stepping k else !d.clocksStill) then (d.startRollback k 1 lane).stepEnd k 4 else d

/-- An error response meets the unwind of an entry (R422, R425). -/
def Dev.unwindFails (d : Dev) (e : JEntry) : Bool :=
  match d.memCause (64 * e.line) 64 true false with
  | some 3 | none => false
  | some _ => true

/-- One journal entry is unwound (R421): the bytes of its mask take their old values, the line its old tags and poison. -/
def Dev.unwindEntry (d : Dev) (k : Nat) (e : JEntry) : Dev :=
  let a := 64 * e.line
  let d := ((List.range 64).zip e.old).foldl (fun (d : Dev) x =>
    if nbits e.mask x.1 1 = 1 then d.setByte (a + x.1) x.2 else d) d
  let d := ((List.range 4).zip e.tags).foldl (fun (d : Dev) x => d.setTag (a + 16 * x.1) x.2) d
  let d := ((List.range 8).zip e.pois).foldl (fun (d : Dev) x => d.setPoison (a + 8 * x.1) x.2) d
  (d.noteWrite k a 64).hbmTouch a 64

/-- The journal is unwound, newest entry first; the first entry that cannot be corrected (`bad` from here) or meets an error response ends
it: whether all were unwound (R425). -/
def Dev.unwind (d : Dev) (k : Nat) (bad : Option Nat) : List JEntry → Dev × Bool
  | [] => (d, true)
  | e :: r => if bad = some 0 ∨ d.unwindFails e = true then (d, false) else (d.unwindEntry k e).unwind k (bad.map (· - 1)) r

/-- The record's slot reads poisoned (R425). -/
def Dev.slotPoisoned (d : Dev) (k : Nat) : Bool :=
  match (d.core k).chkBase with
  | some b => d.poisonedRange (b + 2048 * d.f (pgIntc k) F.LS_STAT_SLOT) 2048
  | none => false

/-- Sources taken since the record are pending again (R421). -/
def Dev.pendAgain (d : Dev) (k : Nat) : Dev :=
  ((d.core k).taken).foldl (fun (d : Dev) e =>
    if 0x800 ≤ e then
      let q : DoorReq := Table.get {} d.dreqs (e - 0x800)
      { d with dreqs := Table.put {} d.dreqs (e - 0x800) { q with taken := false } }
    else d.intAgain k e) d

/-- The record is restored, sources are pending again, lock slots walked (R421, R406), and a reply that came meanwhile completes its
DOOR (R420). [DEDUCED (log 105)] -/
def Dev.restoreRecord (d : Dev) (k : Nat) (r : CoreRec) : Dev :=
  let c := d.core k
  let d := d.setCore k { c with
    arch := r.arch, cps := r.cps.map (fun o => { o with landed := true }), doorWait := r.doorWait, journal := [], tlb := []
    resv := none, since := 0, wfi := false }
  let d := (d.journalCount k).pendAgain k
  let d := (d.setCore k { d.core k with taken := [] }).relock k
  let p := pgIntc k
  let d := (d.setF p F.LS_LAST_DUR_DUR (Nat.min (d.tick - c.rbTick) 0xFFFFFFFF)).setB p F.LS_STAT_RECOVERING false
  match (d.core k).reply with
  | none => d
  | some v =>
    let d := d.setCore k { d.core k with reply := none }
    if (d.core k).doorWait.isSome then d.doorComplete k v true else d

/-- RECOVERY_COMPLETE (R421, R425): the steps of a recovery, with the outcome of its comparator test and of the reads of its
journal. -/
def Dev.recover (d : Dev) (k : Nat) (testOk : Bool) (journalBad : Option Nat) : Dev :=
  let c := d.core k
  if !d.domOn k || !d.on (pgIntc k) F.LS_STAT_RECOVERING || d.clocksStill then d
  else if !testOk then d.failPair k 3
  else
    match d.unwind k journalBad c.journal with
    | (d, false) => d.failPair k 6
    | (d, true) =>
      if d.slotPoisoned k then d.failPair k 4
      else match (d.core k).record with
        | none => d.failPair k 4
        | some r => d.restoreRecord k r

/-- CSR_PATROL_SCRUB (16 R367, R368, R370): the scrubber reads a line of Core SRAM; `bad` are the words (0-7) with an uncorrectable
error, `fixed` the number of words corrected. [DESIGN CHOICE (log 82)] -/
def Dev.csrScrub (d : Dev) (line : Fin 524288) (fixed : Nat) (bad : List (Fin 8)) : Dev :=
  if d.clocksStill || !d.domOn 4 then d
  else
    let d := d.incBy pgFerr F.CSR_CORR_CORR (Nat.min fixed (8 - bad.eraseDups.length))
    bad.eraseDups.foldl (fun (d : Dev) w =>
      let a := 0x10000000 + 64 * line.val + 8 * w.val
      let d := (d.setPoison a true).inc pgFerr F.CSR_UNCORR_UNCORR
      (d.setR64 pgFerr 0x48 a).irq pgFerr 0) d

end Sys2Proof.Machine
end

