-- ==== Sys2Proof/Machine/Vopen.lean ====
section
/-!
DEFINITION. Sys2Proof/Machine/Vopen.lean: the test access port, the access levels and their challenge-response, the debug bus master and
the commands of VO_CTRL (22_vopen_debug_and_trace.md R473-R484).
-/
namespace Sys2Proof.Machine

/-- Vopen with the device it debugs. -/
abbrev Dbg := Vopen × Dev

/-- A request below its level, or at a wrong time, sets REFUSED (R476, R479, R483). -/
def Dbg.refuse (s : Dbg) : Dbg := ({ s.1 with refused := true }, s.2)

/-- An instruction of the TAP selects a data register, whose capture gives a value. -/
def Dbg.select (s : Dbg) (r : TapReg) (v : Nat) : Dbg := ({ s.1 with ir := r, dr := v }, s.2)

/-- IDCODE of revision B0 (R476). -/
def Dbg.idcode (s : Dbg) : Dbg :=
  s.select .idcode (2 * 2 ^ 28 + 0x9640 * 2 ^ 12 + s.2.otp.mfrId.toNat * 2 + 1)

/-- BYPASS. -/
def Dbg.bypass (s : Dbg) : Dbg := s.select .bypass 0

/-- SAMPLE/PRELOAD: the cells are captured and preloaded; their order in the boundary register, which decides where the level of each ball
(Dev.pin) is captured, is not stated. [DESIGN CHOICE (log 122)] -/
def Dbg.sample (s : Dbg) (data : Nat) : Dbg :=
  let (v, d) := s.2.freeWord
  ({ s.1 with ir := .boundary, dr := v.toNat, boundary := data }, d)

/-- EXTEST: at FULL only; else it selects BYPASS (R476). -/
def Dbg.extest (s : Dbg) : Dbg := if s.2.dbgLevel = 2 then s.select .extest s.1.boundary else s.bypass

/-- The level of VO_STAT: that granted, once PD_DBG is on (R475); a warm reset keeps it. [DEDUCED (log 120)] -/
def Dbg.levelShown (s : Dbg) : Nat := if s.2.domOn domDbg || s.2.sys.reset != .none then s.1.level else 0

/-- The lockout of R474. -/
def Vopen.lockout (v : Vopen) : Bool := 15 ≤ v.fails

/-- VO_STAT as it reads (Table 22-3). -/
def Dbg.stat (s : Dbg) : Nat :=
  s.levelShown + b2n s.2.sys.halted * 4 + b2n s.2.sys.drain.isSome * 8 + b2n s.1.refused * 16 + s.1.fails * 32 +
    b2n s.1.lockout * 512 + s.2.sys.stepResult * 1024

/-- VO_STAT_CAPTURE: REFUSED clears. -/
def Dbg.statCapture (s : Dbg) : Dbg := ({ s.1 with ir := .voStat, dr := s.stat, refused := false }, s.2)

/-- VO_CHAL (R474): a new nonce, of the entropy source's choosing; none while a failure's time runs or after 15 failures. [DESIGN CHOICE (log 141)] -/
def Dbg.chal (s : Dbg) : Dbg :=
  if s.1.lockout || s.1.backoff != 0 then ({ s.1 with ir := .voChal, dr := 0, nonce := none }, s.2)
  else
    let (n, d) := s.2.freeWord
    ({ s.1 with ir := .voChal, dr := n.toNat, nonce := some n }, d)

/-- The response that raises the level (R474): the first 16 bytes of the HMAC. -/
def Dev.macOf (d : Dev) (nonce : W64) (level : Nat) : List Byte :=
  let key := (List.range 8).flatMap (fun i => bytesLE 4 (Table.get 0 d.otp.dbgKey i).toNat)
  let serial := bytesLE 4 (d.otp.fcalWord 2).toNat ++ bytesLE 4 (d.otp.fcalWord 3).toNat
  (hmacSha256 key (bytesLE 8 nonce.toNat ++ bytesLE 1 level ++ serial)).take 16

/-- The level in the control block follows a grant, a lowering and the end of a reset. [DEDUCED (log 120)] -/
def Dev.showLevel (d : Dev) (l : Nat) : Dev := d.setF pgDbg F.DBG_STAT_LEVEL l

/-- PD_DBG is switched on for a level above NONE (R475). [DEDUCED (log 125)] -/
def Dev.dbgOn (d : Dev) : Dev :=
  if d.sys.reset != .none || d.domTarget domDbg then d
  else if d.inTrans domDbg then d.setF pgPwr ⟨0x48, domDbg, 1⟩ 0
  else d.startTrans domDbg 0

/-- VO_RESP (R474): a response is judged, the nonce disarmed. -/
def Dbg.resp (s : Dbg) (level : BitVec 2) (mac : BitVec 128) : Dbg :=
  let v := s.1
  let l := level.toNat
  let good := match v.nonce with
    | none => false
    | some n => decide (l ≤ s.2.otp.dbgMax) && decide (v.level ≤ l) && s.2.macOf n l == bytesLE 16 mac.toNat
  let v := { v with ir := .voResp, nonce := none }
  if good then ({ v with level := l }, if l = 0 then s.2 else s.2.dbgOn.showLevel l)
  else
    let n := Nat.min 15 (v.fails + 1)
    ({ v with fails := n, backoff := 60000000 * 2 ^ (n - 1) }, s.2)

/-- A result of the debug bus master (Table 22-4). -/
def Dbg.busResult (s : Dbg) (status cause data : Nat) (addr : Option Nat) : Dbg :=
  ({ s.1 with ir := .voBus, busStatus := status, busCause := cause, busData := data, busAddr := addr.getD s.1.busAddr }, s.2)

/-- The answer of a page or debug-space access as a result. [DEDUCED (log 121)] -/
def Dbg.busAnswer (s : Dbg) (a : Nat) : Dbg :=
  match s.2.resp.error with
  | none => s.busResult 0 0 s.2.resp.data (some a)
  | some c => if c < 0x100 then s.busResult 2 c 0 (some a) else s.busResult (c - 0x100) 0 0 none

/-- The requester of the debug bus master. -/
def dbgWho : Who := ⟨0x3F0, none, true⟩

/-- A write below FULL is possible in the control block only, where the registers of trace take it (R476, Table 22-8). -/
def traceConfig (a : Nat) : Bool :=
  match dbgPart a with | .control o => o != 0x14 | _ => false

/-- VO_BUS (R477, R482): one access of the debug bus master. What a checkpoint record's bytes are is not stated (19 R414). [DEDUCED (log 121); DESIGN CHOICE (log 149)] -/
def Dbg.bus (s : Dbg) (addr : BitVec 48) (size : BitVec 2) (write : Bool) (data : W64) : Dbg :=
  let a := addr.toNat
  let len := 2 ^ size.toNat
  let d := s.2
  let page := 0xE0000000 ≤ a && a < 0xF1000000
  if d.dbgLevel = 0 then s.refuse
  else if write && d.dbgLevel == 1 && !traceConfig a then s.busResult 4 0 0 none
  else if d.sys.halted && ((write && page && a < 0xF0000000) || hbmBase 0 ≤ a) then s.busResult 5 0 0 none
  else if page then
    (s.1, if write then d.busWrite dbgWho a len data.toNat else d.busRead dbgWho a len true) |> fun (s : Dbg) => s.busAnswer a
  else match d.memCause a len write true with
    | some c => Dbg.busResult (s.1, d.memViolation 0x3F0 a len write c) 2 c 0 (some a)
    | none =>
      if write then Dbg.busResult (s.1, d.putMem 99 a (bytesLE len data.toNat) (fun _ => false)) 0 0 0 (some a)
      else
        let (d, l, p) := d.getMem false a len
        let (v, d) := if d.chkProtected a len then (let (w, d) := d.freeWord; (w.toNat % 2 ^ (8 * len), d)) else (valueLE l, d)
        Dbg.busResult (s.1, d) (if p then 3 else 0) 0 v (some a)

/-- A command of VO_CTRL acts at FULL; at another level it sets REFUSED (R476). -/
def Dbg.atFull (s : Dbg) (ok : Bool) (f : Dev → Dev) : Dbg :=
  let s : Dbg := ({ s.1 with ir := .voCtrl }, s.2)
  if s.2.dbgLevel == 2 && ok then (s.1, f s.2) else s.refuse

/-- HALT (R479, R480). -/
def Dbg.halt (s : Dbg) : Dbg := s.atFull true fun d => d.haltRequest 1 0 0

/-- BREAKPOINT_MATCH (R479). -/
def Dev.breakpoint (d : Dev) (k i : Nat) : Dev :=
  if d.dbgLevel = 2 ∧ d.bpMatches k i = true then d.haltRequest 2 k i else d

/-- HALT_EVENT (R479). -/
def Dev.haltEvent (d : Dev) : Dev :=
  if !d.haltEventSeen then d
  else if d.dbgLevel = 2 then d.haltEventMark.haltRequest 3 0 0 else d.haltEventMark

/-- STEP (R483): refused unless halted; HELD where the pair cannot execute. [DEDUCED (log 119)] -/
def Dbg.step (s : Dbg) (k : Nat) : Dbg :=
  s.atFull s.2.sys.halted fun d =>
    if d.stepHeld k then { d with sys := { d.sys with step := none, stepResult := 4 } }
    else { d with sys := { d.sys with step := some k, stepResult := 0 } }

/-- RESUME (R484): refused unless halted. -/
def Dbg.resume (s : Dbg) : Dbg := s.atFull s.2.sys.halted fun d => d.resume

/-- DEBUG_WARM (03 R69). -/
def Dbg.warm (s : Dbg) : Dbg := s.atFull true fun d => d.warmReset 8 0

/-- At NONE, trace stops and PD_DBG is what PWR_REQ asks for (R475). [DEDUCED (log 125)] -/
def Dev.dbgOff (d : Dev) : Dev :=
  let d := d.setB pgDbg F.TRC_CTRL_EN false
  if d.domTarget domDbg && !bitAt (d.reg (pgPwr + 0x40)) domDbg then d.startTrans domDbg 0 else d

/-- DROP_LEVEL (R473): refused while halted, at NONE, and for a target that is not below the level. [DEDUCED (log 123)] -/
def Dbg.drop (s : Dbg) (l : BitVec 2) : Dbg :=
  let s : Dbg := ({ s.1 with ir := .voCtrl }, s.2)
  if s.2.sys.halted || decide (s.1.level ≤ l.toNat) then s.refuse
  else
    let d := s.2.showLevel l.toNat
    ({ s.1 with level := l.toNat }, if l = 0 then d.dbgOff else d)

/-- One tick of the time that must pass after a failed response. [DEDUCED (log 123)] -/
def Vopen.tick (v : Vopen) : Vopen := { v with backoff := v.backoff - 1 }

end Sys2Proof.Machine
end

