-- ==== Sys2Proof/Machine/Apply.lean ====
section
/-!
DEFINITION. Sys2Proof/Machine/Apply.lean: how a command's effect on the device becomes an effect on the state.
-/
namespace Sys2Proof.Machine

/-- The answer of a command. -/
abbrev Answer := Host.Outcome State Fault Refusal

/-- The state with a new device. A fuse command that the device has lost to a reset leaves its fuses each blown or not, and OTP_STAT
shows them (03 R84). -/
def State.withDev (s : State) (d : Dev) : State :=
  let cut := s.dev.otpCmd.isSome && d.otpCmd.isNone
  let o := s.dev.cutFuses s.otp
  { s with otp := if cut then o else s.otp, dev := { d with otp := if cut then o else d.otp } }

/-- An effect on the device, after which the links, vectors and trace have seen the events. -/
def State.run (s : State) (f : Dev → Dev) : Answer := .next (s.withDev (f s.dev).settle)

/-- An effect of clocked logic: none while the clocks stand still (03 R58, R65; 22 R480). [DEDUCED (log 4)] -/
def State.clocked (s : State) (f : Dev → Dev) : Answer := if s.dev.clocksStill then .next s else s.run f

/-- An access of an agent to the fabric: there is none while the clocks stand still or a reset is in progress (03 R70, 22 R482). [DEDUCED (log 4)] -/
def State.reach (s : State) (f : Dev → Dev) : Answer :=
  if s.dev.clocksStill || s.dev.sys.reset != .none then .next s else s.run f

/-- A register write of `len` bytes (01 R31). -/
def State.write (s : State) (w : Who) (a len v : Nat) : Answer := s.reach fun d => d.busWrite w a len v

/-- A register read of `len` bytes; its answer is in `resp` (01 R31). -/
def State.read (s : State) (w : Who) (a len : Nat) (peek : Bool) : Answer := s.reach fun d => d.busRead w a len peek

/-- An effect on debug access and the device (22 R473-R484). -/
def State.vopen (s : State) (f : Dbg → Dbg) : Answer :=
  let r := f (s.sec, s.dev)
  .next { s.withDev r.2.settle with sec := r.1 }

/-- A power-on reset starts: debug access is reset too, the fuses stay (03 R69, 22 R473). -/
def State.powerOn (s : State) : Answer := .next { s.withDev (s.dev.powerOnReset s.otp) with sec := {} }

/-- VDD_AON falls below its threshold (02 R47): the pads are high-impedance from then on. [DESIGN CHOICE (log 143)] -/
def State.supplyFall (s : State) : Answer :=
  { s with dev := { s.dev with sys := { s.dev.sys with vddAon := false } } }.powerOn

/-- RESET_SEQUENCE_END (03 R70): a level above NONE keeps PD_DBG on and is shown again (22 R475). -/
def State.sequenceEnd (s : State) (testOk : Bool) (a b : List Byte) : Answer :=
  s.run fun d =>
    let r := d.sequenceEnd (s.sec.level != 0) testOk a b
    if d.sys.reset != .none && r.sys.reset == .none then r.showLevel s.sec.level else r

/-- OTP_COMMAND_DONE (03 R84): the fuses are blown. -/
def State.otpDone (s : State) : Answer :=
  .next { s with
    otp := (match s.dev.otpCmd with | some c => s.otp.blow c | none => s.otp)
    dev := s.dev.otpDone.settle }

/-- The offset of a PWM register (10 Table 10-5). -/
def PwmReg.offset : PwmReg → Nat
  | .cmpSet => 0x48 | .cmpClr => 0x4C | .period => 0x44

/-- The watchdog of a page. -/
def WdPlace.wd : WdPlace → Wd
  | .core k => .core k
  | .cas c => .cas c

/-- A tick without a command (03 R56): the device advances, and the time after a failed response runs (22 R474). [DEDUCED (log 123); DESIGN CHOICE (log 1)] -/
def State.tickOver (s : State) : State := { s.withDev s.dev.tickOver with sec := s.sec.tick }

end Sys2Proof.Machine
end

