-- ==== Sys2Proof/Machine/ExecAcquire.lean ====
section
/-!
DEFINITION. Sys2Proof/Machine/ExecAcquire.lean: the commands of ADC and sigma-delta acquisition (12), one definition each.
-/
namespace Sys2Proof.Machine

/-- ADC_BURST_HOLD (12 R269). -/
def execAdcBurstHold (c : Fin 16) (j : Fin 4) (m : Fin 3) (code : BitVec 16) (s : State) : Answer :=
  s.clocked fun d => d.adcBurstHold (4 * c + j) m code.toNat

/-- ADC_STROBE (12 R269). -/
def execAdcStrobe (c : Fin 16) (j : Fin 4) (m : Fin 3) (code : BitVec 16) (s : State) : Answer :=
  s.clocked fun d => d.adcStrobe (4 * c + j) m code.toNat

/-- SD_CLOCK_START (12 R272). -/
def execSdClockStart (c : Fin 16) (j : Fin 2) (s : State) : Answer := s.clocked fun d => d.sdClockStart c j

/-- SD_WORD_COMPLETE (12 R274). -/
def execSdWordComplete (c : Fin 16) (k : Fin 6) (bits : List Bool) (s : State) : Answer := s.clocked fun d => d.sdWord c k bits

/-- SD_STUCK (12 R273). -/
def execSdStuck (c : Fin 16) (k : Fin 6) (bits : List Bool) (s : State) : Answer := s.clocked fun d => d.sdStuck c k bits

/-- SD_FAST_COMPARE (12 R276). -/
def execSdFastCompare (c : Fin 16) (k : Fin 6) (bits : List Bool) (s : State) : Answer := s.clocked fun d => d.sdFast c k bits

/-- SD_STUCK_END (12 R273). -/
def execSdStuckEnd (c : Fin 16) (k : Fin 6) (bit : Bool) (s : State) : Answer := s.clocked fun d => d.sdStuckEnd c k bit

end Sys2Proof.Machine
end

