-- ==== Sys2Proof/Machine/ExecCapability.lean ====
section
/-!
DEFINITION. Sys2Proof/Machine/ExecCapability.lean: the commands of Sahxel capability, system-register and TLB instructions (15, 17, 18, 19), one definition each.
-/
namespace Sys2Proof.Machine

/-- KRD (17 R376). -/
def execKrd (k : CoreId) (o : KOperand) (s : State) : Answer := s.run fun d => d.krd k o

/-- KADR (17 R376). -/
def execKadr (k : CoreId) (o : KOperand) (s : State) : Answer := s.run fun d => d.kmake k o fun a c => c.setAddr a.a

/-- KINC (17 R376). -/
def execKinc (k : CoreId) (o : KOperand) (s : State) : Answer := s.run fun d => d.kmake k o fun a c => c.setAddr (c.addr + a.a)

/-- KBND (17 R376). -/
def execKbnd (k : CoreId) (o : KOperand) (s : State) : Answer := s.run fun d => d.kmake k o fun a c => c.bound a.a.toNat

/-- KPRM (17 R376). -/
def execKprm (k : CoreId) (o : KOperand) (s : State) : Answer := s.run fun d => d.kmake k o fun a c => c.reduce (a.a.setWidth 16)

/-- KMOV (17 R376). -/
def execKmov (k : CoreId) (o : KOperand) (s : State) : Answer := s.run fun d => d.kmake k o fun _ c => c

/-- KLOCK (17 R376). -/
def execKlock (k : CoreId) (o : KOperand) (s : State) : Answer := s.run fun d => d.klock k o

/-- KOPEN (17 R376). -/
def execKopen (k : CoreId) (o : KOperand) (s : State) : Answer := s.run fun d => d.kopen k o

/-- KLD (17 R376). -/
def execKld (k : CoreId) (o : KOperand) (s : State) : Answer := s.run fun d => d.kld k o

/-- KST (17 R376). -/
def execKst (k : CoreId) (o : KOperand) (s : State) : Answer := s.run fun d => d.kst k o

/-- KPC (17 R376). -/
def execKpc (k : CoreId) (o : KOperand) (s : State) : Answer := s.run fun d => d.kmake k o fun a _ => a.pcc

/-- KDDC (17 R376). -/
def execKddc (k : CoreId) (o : KOperand) (s : State) : Answer := s.run fun d => d.kddc k o

/-- KJMP (17 R376). -/
def execKjmp (k : CoreId) (o : KOperand) (s : State) : Answer := s.run fun d => d.kjmp k o

/-- KMFS (17 R376). -/
def execKmfs (k : CoreId) (o : KOperand) (s : State) : Answer := s.run fun d => d.kmfs k o

/-- KMTS (17 R376). -/
def execKmts (k : CoreId) (o : KOperand) (s : State) : Answer := s.run fun d => d.kmts k o

/-- MFS (17 R378). -/
def execMfs (k : CoreId) (rd : BitVec 2) (r : BitVec 12) (s : State) : Answer := s.run fun d => d.mfs k rd r.toNat

/-- MTS (17 R378). -/
def execMts (k : CoreId) (rs : BitVec 2) (r : BitVec 12) (s : State) : Answer := s.run fun d => d.mts k rs r.toNat

/-- TLBI_VA (18 R409). -/
def execTlbiVa (k : CoreId) (s : State) : Answer := s.run fun d => d.tlbiVa k

/-- TLBI_ASID (18 R409). -/
def execTlbiAsid (k : CoreId) (s : State) : Answer := s.run fun d => d.tlbiAsid k

/-- TLBI_ALL (18 R409). -/
def execTlbiAll (k : CoreId) (s : State) : Answer := s.run fun d => d.tlbiAll k

/-- TLBLOCK (18 R409). -/
def execTlblock (k : CoreId) (s : State) : Answer := s.run fun d => d.tlbLock k

/-- TLBUNLOCK (18 R409). -/
def execTlbunlock (k : CoreId) (s : State) : Answer := s.run fun d => d.tlbUnlock k

/-- TLBPROBE (18 R409). -/
def execTlbprobe (k : CoreId) (s : State) : Answer := s.run fun d => d.tlbProbe k

/-- CHKPT (19 R416). -/
def execChkpt (k : CoreId) (rest : BitVec 26) (s : State) : Answer := s.run fun d => d.chkpt k rest

/-- CPWAIT (15 R349). -/
def execCpwait (k : CoreId) (s : State) : Answer := s.run fun d => d.cpwait k

/-- WFI (17 R392). -/
def execWfi (k : CoreId) (s : State) : Answer := s.run fun d => d.waitInt k

/-- WFI_WAKE (17 R392). -/
def execWfiWake (k : CoreId) (s : State) : Answer := s.run fun d => d.wfiWake k

end Sys2Proof.Machine
end

