-- ==== Sys2Proof/Machine/ExecCore.lean ====
section
/-!
DEFINITION. Sys2Proof/Machine/ExecCore.lean: the commands of Sahxel data instructions (15), one definition each.
-/
namespace Sys2Proof.Machine

/-- GETA (15 R329). -/
def execGeta (k : CoreId) (m : MOperand) (s : State) : Answer := s.run fun d => d.getReg k m 0

/-- PUTA (15 R329). -/
def execPuta (k : CoreId) (m : MOperand) (s : State) : Answer := s.run fun d => d.putReg k m 0

/-- GETX (15 R329). -/
def execGetx (k : CoreId) (m : MOperand) (s : State) : Answer := s.run fun d => d.getReg k m 1

/-- PUTX (15 R329). -/
def execPutx (k : CoreId) (m : MOperand) (s : State) : Answer := s.run fun d => d.putReg k m 1

/-- GETY (15 R329). -/
def execGety (k : CoreId) (m : MOperand) (s : State) : Answer := s.run fun d => d.getReg k m 2

/-- PUTY (15 R329). -/
def execPuty (k : CoreId) (m : MOperand) (s : State) : Answer := s.run fun d => d.putReg k m 2

/-- ADR (15 R329). -/
def execAdr (k : CoreId) (m : MOperand) (s : State) : Answer := s.run fun d => d.adr k m

/-- ADD (15 R328). -/
def execAdd (k : CoreId) (m : MOperand) (s : State) : Answer := s.run fun d => d.alu k m (opAdd 0)

/-- SUB (15 R328). -/
def execSub (k : CoreId) (m : MOperand) (s : State) : Answer := s.run fun d => d.alu k m (opSub 0)

/-- AND (15 R328). -/
def execAnd (k : CoreId) (m : MOperand) (s : State) : Answer := s.run fun d => d.alu k m (opLogic (· &&& ·) 0)

/-- OR (15 R328). -/
def execOr (k : CoreId) (m : MOperand) (s : State) : Answer := s.run fun d => d.alu k m (opLogic (· ||| ·) 0)

/-- XOR (15 R328). -/
def execXor (k : CoreId) (m : MOperand) (s : State) : Answer := s.run fun d => d.alu k m (opLogic (· ^^^ ·) 0)

/-- CMP (15 R328). -/
def execCmp (k : CoreId) (m : MOperand) (s : State) : Answer := s.run fun d => d.alu k m (opCmp 0)

/-- ADDV (15 R336). -/
def execAddv (k : CoreId) (m : MOperand) (s : State) : Answer := s.run fun d => d.alu k m opAddV

/-- SUBV (15 R336). -/
def execSubv (k : CoreId) (m : MOperand) (s : State) : Answer := s.run fun d => d.alu k m opSubV

/-- MUL (15 R328). -/
def execMul (k : CoreId) (m : MOperand) (s : State) : Answer := s.run fun d => d.alu k m (opMul false)

/-- MULV (15 R336). -/
def execMulv (k : CoreId) (m : MOperand) (s : State) : Answer := s.run fun d => d.alu k m (opMul true)

/-- DIV (15 R336). -/
def execDiv (k : CoreId) (m : MOperand) (s : State) : Answer := s.run fun d => d.alu k m (opDiv 0)

/-- DIVU (15 R336). -/
def execDivu (k : CoreId) (m : MOperand) (s : State) : Answer := s.run fun d => d.alu k m (opDiv 1)

/-- REM (15 R336). -/
def execRem (k : CoreId) (m : MOperand) (s : State) : Answer := s.run fun d => d.alu k m (opDiv 2)

/-- REMU (15 R336). -/
def execRemu (k : CoreId) (m : MOperand) (s : State) : Answer := s.run fun d => d.alu k m (opDiv 3)

/-- FADD (15 R336). -/
def execFadd (k : CoreId) (m : MOperand) (s : State) : Answer := s.run fun d => d.floatAlu k m (opFloat 0)

/-- FSUB (15 R336). -/
def execFsub (k : CoreId) (m : MOperand) (s : State) : Answer := s.run fun d => d.floatAlu k m (opFloat 1)

/-- FMUL (15 R336). -/
def execFmul (k : CoreId) (m : MOperand) (s : State) : Answer := s.run fun d => d.floatAlu k m (opFloat 2)

/-- FDIV (15 R336). -/
def execFdiv (k : CoreId) (m : MOperand) (s : State) : Answer := s.run fun d => d.floatAlu k m (opFloat 3)

/-- FCMP (15 R328). -/
def execFcmp (k : CoreId) (m : MOperand) (s : State) : Answer := s.run fun d => d.floatAlu k m opFcmp

/-- MOV (15 R328). -/
def execMov (k : CoreId) (rd : BitVec 2) (rs : BitVec 2) (s : State) : Answer := s.run fun d => d.regOp k rd rs (opMove id)

/-- NEG (15 R328). -/
def execNeg (k : CoreId) (rd : BitVec 2) (rs : BitVec 2) (s : State) : Answer := s.run fun d => d.regOp k rd rs opNeg

/-- NOT (15 R328). -/
def execNot (k : CoreId) (rd : BitVec 2) (rs : BitVec 2) (s : State) : Answer := s.run fun d => d.regOp k rd rs (opUnary (fun v => ~~~ v))

/-- SHL (15 R328). -/
def execShl (k : CoreId) (rd : BitVec 2) (rs : BitVec 2) (n : BitVec 6) (s : State) : Answer := 
  s.run fun d => d.regOp k rd rs (opUnary (fun v => v <<< n))

/-- SHR (15 R328). -/
def execShr (k : CoreId) (rd : BitVec 2) (rs : BitVec 2) (n : BitVec 6) (s : State) : Answer := 
  s.run fun d => d.regOp k rd rs (opUnary (fun v => v >>> n))

/-- SAR (15 R328). -/
def execSar (k : CoreId) (rd : BitVec 2) (rs : BitVec 2) (n : BitVec 6) (s : State) : Answer := 
  s.run fun d => d.regOp k rd rs (opUnary (fun v => v.sshiftRight n.toNat))

/-- ROL (15 R328). -/
def execRol (k : CoreId) (rd : BitVec 2) (rs : BitVec 2) (n : BitVec 6) (s : State) : Answer := 
  s.run fun d => d.regOp k rd rs (opUnary (fun v => v.rotateLeft n.toNat))

/-- SEXT8 (15 R328). -/
def execSext8 (k : CoreId) (rd : BitVec 2) (rs : BitVec 2) (s : State) : Answer := s.run fun d => d.regOp k rd rs (opMove (sext 8))

/-- SEXT16 (15 R328). -/
def execSext16 (k : CoreId) (rd : BitVec 2) (rs : BitVec 2) (s : State) : Answer := s.run fun d => d.regOp k rd rs (opMove (sext 16))

/-- SEXT32 (15 R328). -/
def execSext32 (k : CoreId) (rd : BitVec 2) (rs : BitVec 2) (s : State) : Answer := s.run fun d => d.regOp k rd rs (opMove (sext 32))

/-- ADD_REGISTER (15 R328). -/
def execAddRegister (k : CoreId) (rd : BitVec 2) (rs : BitVec 2) (s : State) : Answer := s.run fun d => d.regOp k rd rs opAdd

/-- SUB_REGISTER (15 R328). -/
def execSubRegister (k : CoreId) (rd : BitVec 2) (rs : BitVec 2) (s : State) : Answer := s.run fun d => d.regOp k rd rs opSub

/-- AND_REGISTER (15 R328). -/
def execAndRegister (k : CoreId) (rd : BitVec 2) (rs : BitVec 2) (s : State) : Answer := s.run fun d => d.regOp k rd rs (opLogic (· &&& ·))

/-- OR_REGISTER (15 R328). -/
def execOrRegister (k : CoreId) (rd : BitVec 2) (rs : BitVec 2) (s : State) : Answer := s.run fun d => d.regOp k rd rs (opLogic (· ||| ·))

/-- XOR_REGISTER (15 R328). -/
def execXorRegister (k : CoreId) (rd : BitVec 2) (rs : BitVec 2) (s : State) : Answer := s.run fun d => d.regOp k rd rs (opLogic (· ^^^ ·))

/-- FCVT (15 R336). -/
def execFcvt (k : CoreId) (rd : BitVec 2) (rs : BitVec 2) (s : State) : Answer := s.run fun d => d.regOp k rd rs opConvert

/-- MOVCQ (15 R346). -/
def execMovcq (k : CoreId) (rd : BitVec 2) (n : BitVec 6) (s : State) : Answer := s.run fun d => d.movcq k rd n

/-- LDI (15 R334). -/
def execLdi (k : CoreId) (rd : BitVec 2) (imm : BitVec 20) (s : State) : Answer := s.run fun d => d.immOp k 4 rd (imm.signExtend 64) (opMove id)

/-- ADDI (15 R328). -/
def execAddi (k : CoreId) (rd : BitVec 2) (imm : BitVec 20) (s : State) : Answer := s.run fun d => d.immOp k 4 rd (imm.signExtend 64) opAdd

/-- CMPI (15 R328). -/
def execCmpi (k : CoreId) (rd : BitVec 2) (imm : BitVec 20) (s : State) : Answer := s.run fun d => d.immOp k 4 rd (imm.signExtend 64) opCmp

/-- ANDI (15 R328). -/
def execAndi (k : CoreId) (rd : BitVec 2) (imm : BitVec 20) (s : State) : Answer := 
  s.run fun d => d.immOp k 4 rd (imm.signExtend 64) (opLogic (· &&& ·))

/-- ORI (15 R328). -/
def execOri (k : CoreId) (rd : BitVec 2) (imm : BitVec 20) (s : State) : Answer := 
  s.run fun d => d.immOp k 4 rd (imm.signExtend 64) (opLogic (· ||| ·))

/-- XORI (15 R328). -/
def execXori (k : CoreId) (rd : BitVec 2) (imm : BitVec 20) (s : State) : Answer := 
  s.run fun d => d.immOp k 4 rd (imm.signExtend 64) (opLogic (· ^^^ ·))

/-- LDI_L (15 R334). -/
def execLdiL (k : CoreId) (rd : BitVec 2) (imm : BitVec 48) (s : State) : Answer := s.run fun d => d.immOp k 8 rd (imm.signExtend 64) (opMove id)

/-- ADDI_L (15 R334). -/
def execAddiL (k : CoreId) (rd : BitVec 2) (imm : BitVec 48) (s : State) : Answer := s.run fun d => d.immOp k 8 rd (imm.signExtend 64) opAdd

/-- CMPI_L (15 R334). -/
def execCmpiL (k : CoreId) (rd : BitVec 2) (imm : BitVec 48) (s : State) : Answer := s.run fun d => d.immOp k 8 rd (imm.signExtend 64) opCmp

end Sys2Proof.Machine
end

