-- ==== Sys2Proof/Machine/ExecCoreUnit.lean ====
section
/-!
DEFINITION. Sys2Proof/Machine/ExecCoreUnit.lean: the commands of coprocessor operations, exceptions and lockstep (15, 17, 19), one definition each.
-/
namespace Sys2Proof.Machine

/-- CP0_POST (15 R351). -/
def execCp0Post (k : CoreId) (o : COperand) (s : State) : Answer := s.run fun d => d.cpPost k o

/-- RDJOB (15 R351). -/
def execRdjob (k : CoreId) (o : COperand) (s : State) : Answer := s.run fun d => d.cpRdJob k o

/-- RDLANE (15 R351). -/
def execRdlane (k : CoreId) (o : COperand) (s : State) : Answer := s.run fun d => d.cpRdLane k o

/-- CP1_START (20 R445). -/
def execCp1Start (k : CoreId) (o : COperand) (s : State) : Answer := s.run fun d => d.cpStart k o

/-- CP1_STAT (15 R351). -/
def execCp1Stat (k : CoreId) (o : COperand) (s : State) : Answer := s.run fun d => d.cpXfer k o false

/-- CP1_CANCEL (20 R447). -/
def execCp1Cancel (k : CoreId) (o : COperand) (s : State) : Answer := s.run fun d => d.cpXfer k o true

/-- CQ_RESULT_LAND (15 R346). -/
def execCqResultLand (k : CoreId) (s : State) : Answer := s.run fun d => d.resultLand k

/-- INTERRUPT_ENTRY (17 R387). -/
def execInterruptEntry (k : CoreId) (s : State) : Answer := s.run fun d => d.interruptEntry k

/-- ARITH_EXCEPTION (17 R388). -/
def execArithException (k : CoreId) (s : State) : Answer := s.run fun d => d.arithException k

/-- CORE_GO (17 R380). -/
def execCoreGo (w : Who) (k : Fin 4) (s : State) : Answer := s.write w (pgIntc k + 0x48) 4 (1)

/-- CSR_PATROL_SCRUB (16 R368). -/
def execCsrPatrolScrub (line : Fin 524288) (fixed : Nat) (bad : List (Fin 8)) (s : State) : Answer := s.clocked fun d => d.csrScrub line fixed bad

/-- AUTO_CHECKPOINT (19 R415). -/
def execAutoCheckpoint (k : CoreId) (s : State) : Answer := s.run fun d => d.autoCheckpoint k

/-- LOCKSTEP_MISMATCH (19 R421). -/
def execLockstepMismatch (k : CoreId) (lane : Fin 1088) (s : State) : Answer := s.run fun d => d.mismatch k lane

/-- RECOVERY_COMPLETE (19 R421). -/
def execRecoveryComplete (k : CoreId) (testOk : Bool) (journalBad : Option Nat) (s : State) : Answer := s.clocked fun d => d.recover k testOk journalBad

end Sys2Proof.Machine
end

