-- ==== Sys2Proof/Machine/ExecDebug.lean ====
section
/-!
DEFINITION. Sys2Proof/Machine/ExecDebug.lean: the commands of debug and trace (22), one definition each.
-/
namespace Sys2Proof.Machine

/-- IDCODE (22 R476). -/
def execIdcode (s : State) : Answer := s.vopen fun v => v.idcode

/-- SAMPLE_PRELOAD (22 R476). -/
def execSamplePreload (data : Nat) (s : State) : Answer := s.vopen fun v => v.sample data

/-- EXTEST (22 R476). -/
def execExtest (s : State) : Answer := s.vopen fun v => v.extest

/-- BYPASS (22 R476). -/
def execBypass (s : State) : Answer := s.vopen fun v => v.bypass

/-- VO_STAT_CAPTURE (22 R476). -/
def execVoStatCapture (s : State) : Answer := s.vopen fun v => v.statCapture

/-- VO_CHAL (22 R474). -/
def execVoChal (s : State) : Answer := s.vopen fun v => v.chal

/-- VO_RESP (22 R474). -/
def execVoResp (level : BitVec 2) (mac : BitVec 128) (s : State) : Answer := s.vopen fun v => v.resp level mac

/-- VO_BUS (22 R477). -/
def execVoBus (a : BitVec 48) (sz : BitVec 2) (write : Bool) (data : W64) (s : State) : Answer := s.vopen fun v => v.bus a sz write data

/-- HALT (22 R480). -/
def execHalt (s : State) : Answer := s.vopen fun v => v.halt

/-- BREAKPOINT_MATCH (22 R479). -/
def execBreakpointMatch (k : CoreId) (i : Fin 4) (s : State) : Answer := s.clocked fun d => d.breakpoint k i

/-- HALT_EVENT (22 R479). -/
def execHaltEvent (s : State) : Answer := s.clocked fun d => d.haltEvent

/-- HALT_DRAIN_DONE (22 R480). -/
def execHaltDrainDone (s : State) : Answer := s.run fun d => d.haltDone

/-- STEP (22 R483). -/
def execStep (k : CoreId) (s : State) : Answer := s.vopen fun v => v.step k

/-- RESUME (22 R484). -/
def execResume (s : State) : Answer := s.vopen fun v => v.resume

/-- DEBUG_WARM (03 R69). -/
def execDebugWarm (s : State) : Answer := s.vopen fun v => v.warm

/-- DROP_LEVEL (22 R473). -/
def execDropLevel (level : BitVec 2) (s : State) : Answer := s.vopen fun v => v.drop level

/-- TRC_CTRL_EN (22 R487). -/
def execTrcCtrlEn (v : W32) (s : State) : Answer := s.vopen fun x => x.bus (BitVec.ofNat 48 (pgDbg + 0x40)) 2 true (v.setWidth 64)

/-- TRACE_LINE_WRITE (22 R487). -/
def execTraceLineWrite (s : State) : Answer := s.clocked fun d => d.traceLine

end Sys2Proof.Machine
end

