-- ==== Sys2Proof/Machine/ExecFlow.lean ====
section
/-!
DEFINITION. Sys2Proof/Machine/ExecFlow.lean: the commands of Sahxel control flow, blocks, atomics and doors (15, 16, 17), one definition each.
-/
namespace Sys2Proof.Machine

/-- PUSH (15 R332). -/
def execPush (k : CoreId) (r : Fin 4) (s : State) : Answer := s.run fun d => d.push k r

/-- POP (15 R332). -/
def execPop (k : CoreId) (r : Fin 4) (s : State) : Answer := s.run fun d => d.pop k r

/-- DROP (15 R332). -/
def execDrop (k : CoreId) (n : BitVec 8) (s : State) : Answer := s.run fun d => d.dropSlots k n.toNat

/-- RET (15 R333). -/
def execRet (k : CoreId) (s : State) : Answer := s.run fun d => d.ret k

/-- BCC (15 R334). -/
def execBcc (k : CoreId) (cond : BitVec 4) (off : BitVec 22) (s : State) : Answer := s.run fun d => d.bcc k cond off

/-- JMP (15 R334). -/
def execJmp (k : CoreId) (m : MOperand) (s : State) : Answer := s.run fun d => d.jmp k m

/-- CALL (15 R333). -/
def execCall (k : CoreId) (off : BitVec 26) (s : State) : Answer := s.run fun d => d.call k off

/-- CALLI (15 R333). -/
def execCalli (k : CoreId) (m : MOperand) (s : State) : Answer := s.run fun d => d.calli k m

/-- BMOV (15 R342). -/
def execBmov (k : CoreId) (sz : BitVec 2) (elems : Nat) (s : State) : Answer := s.run fun d => d.block k sz elems true id (Dev.moveElem k false)

/-- BMOVD (15 R342). -/
def execBmovd (k : CoreId) (sz : BitVec 2) (elems : Nat) (s : State) : Answer := s.run fun d => d.block k sz elems true id (Dev.moveElem k true)

/-- BFILL (15 R342). -/
def execBfill (k : CoreId) (sz : BitVec 2) (elems : Nat) (s : State) : Answer := s.run fun d => d.block k sz elems false id (Dev.fillElem k)

/-- BFIND (15 R342). -/
def execBfind (k : CoreId) (sz : BitVec 2) (elems : Nat) (s : State) : Answer := 
  s.run fun d => d.block k sz elems false (fun a => a.setFlag 1 false) (Dev.findElem k)

/-- TAS (15 R338). -/
def execTas (k : CoreId) (m : MOperand) (s : State) : Answer := s.run fun d => d.tas k m

/-- LR (15 R339). -/
def execLr (k : CoreId) (m : MOperand) (s : State) : Answer := s.run fun d => d.loadReserved k m

/-- SC (15 R339). -/
def execSc (k : CoreId) (m : MOperand) (s : State) : Answer := s.run fun d => d.storeConditional k m

/-- FENCE (16 R364). -/
def execFence (k : CoreId) (s : State) : Answer := s.run fun d => d.barrier k

/-- IBAR (16 R364). -/
def execIbar (k : CoreId) (s : State) : Answer := s.run fun d => d.barrier k

/-- ICINV (16 R364). -/
def execIcinv (k : CoreId) (s : State) : Answer := s.run fun d => d.icinv k

/-- ICINV_ALL (16 R364). -/
def execIcinvAll (k : CoreId) (s : State) : Answer := s.run fun d => d.barrier k

/-- DOOR (17 R381). -/
def execDoor (k : CoreId) (n : BitVec 4) (s : State) : Answer := s.run fun d => d.door k n.toNat false

/-- REMOTE_DOOR (17 R384). -/
def execRemoteDoor (k : CoreId) (n : BitVec 4) (s : State) : Answer := s.run fun d => d.door k n.toNat true

/-- REMOTE_DOOR_TIMEOUT (17 R384). -/
def execRemoteDoorTimeout (k : CoreId) (s : State) : Answer := s.clocked fun d => d.doorTimeout k

/-- DREQ_REPLY (17 R385). -/
def execDreqReply (rs : BitVec 2) (j : Fin 4) (s : State) : Answer := s.run fun d => d.mts 4 rs (0xE4 + 8 * j.val)

/-- DOOR_OUT (17 R382). -/
def execDoorOut (k : CoreId) (s : State) : Answer := s.run fun d => d.doorOut k

/-- TRAP (17 R387). -/
def execTrap (k : CoreId) (n : BitVec 8) (s : State) : Answer := s.run fun d => d.trap k n.toNat

/-- RTE (17 R391). -/
def execRte (k : CoreId) (s : State) : Answer := s.run fun d => d.rte k

end Sys2Proof.Machine
end

