-- ==== Sys2Proof/Machine/ExecHbm.lean ====
section
/-!
DEFINITION. Sys2Proof/Machine/ExecHbm.lean: the commands of HBM and the Sill streamers (20), one definition each.
-/
namespace Sys2Proof.Machine

/-- HBM_TEMP_READING (20 R431). -/
def execHbmTempReading (x : Fin 2) (t : BitVec 8) (s : State) : Answer := s.clocked fun d => d.hbmTemp x t.toInt

/-- HBM_READ (20 R435). -/
def execHbmRead (req : BitVec 10) (a : BitVec 48) (len : Nat) (out : Decode) (bitmap : Bool) (s : State) : Answer := 
  s.reach fun d => d.hbmRead req.toNat a.toNat len out bitmap

/-- HBM_WRITE (20 R437). -/
def execHbmWrite (req : BitVec 10) (a : BitVec 48) (bytes : List Byte) (bad : Bool) (s : State) : Answer := 
  s.reach fun d => d.hbmWrite req.toNat a.toNat bytes bad

/-- MB_AGE_WRITEBACK (20 R438). -/
def execMbAgeWriteback (x : Fin 2) (page : BitVec 23) (bad : Bool) (s : State) : Answer := s.clocked fun d => d.mbAged x page.toNat bad

/-- MB_FLUSH (20 R438). -/
def execMbFlush (w : Who) (x : Fin 2) (mode : BitVec 2) (s : State) : Answer := s.write w (pgHbm x + 0x40) 4 (4 + mode.toNat)

/-- HBM_INVAL_GO (20 R436). -/
def execHbmInvalGo (w : Who) (x : Fin 2) (s : State) : Answer := s.write w (pgHbm x + 0x5C) 4 (1)

/-- HBM_PATROL (20 R441). -/
def execHbmPatrol (x : Fin 2) (page : BitVec 23) (out : Decode) (s : State) : Answer := s.clocked fun d => d.hbmPatrol x page.toNat out

/-- SCR_GO (20 R442). -/
def execScrGo (w : Who) (x : Fin 2) (s : State) : Answer := s.write w (pgScrub x + 0x54) 4 (1)

/-- SCRUB_RANGE_DONE (20 R442). -/
def execScrubRangeDone (x : Fin 2) (found : List ScrubPage) (s : State) : Answer := s.clocked fun d => d.scrubDone x found

/-- SILL_START (20 R445). -/
def execSillStart (w : Who) (x : Fin 2) (a : W64) (s : State) : Answer := s.write w (pgSill x + 0x40) 8 (a.toNat)

/-- TRANSFER_START (20 R445). -/
def execTransferStart (x : Fin 2) (s : State) : Answer := s.clocked fun d => d.transferStart x

/-- TRANSFER_COMPLETE (20 R447). -/
def execTransferComplete (x : Fin 2) (n : BitVec 16) (s : State) : Answer := s.clocked fun d => d.transferComplete x n.toNat

/-- TRANSFER_ERROR (20 R447). -/
def execTransferError (x : Fin 2) (n : BitVec 16) (s : State) : Answer := s.clocked fun d => d.transferError x n.toNat

/-- SILL_CANCEL (20 R447). -/
def execSillCancel (w : Who) (x : Fin 2) (n : BitVec 16) (s : State) : Answer := s.write w (pgSill x + 0x58) 4 (n.toNat)

end Sys2Proof.Machine
end

