-- ==== Sys2Proof/Machine/ExecJobs.lean ====
section
/-!
DEFINITION. Sys2Proof/Machine/ExecJobs.lean: the commands of job queues (08), one definition each.
-/
namespace Sys2Proof.Machine

/-- JQ_POST (08 R188). -/
def execJqPost (w : Who) (c : Fin 16) (desc : BitVec 8) (ofs : W32) (s : State) : Answer := 
  s.write w (pgJq c + 0x48) 8 (desc.toNat + ofs.toNat * 2 ^ 32)

/-- FALLBACK_POST (08 R199). -/
def execFallbackPost (s : State) : Answer := s.clocked fun d => d.fallbackPost

/-- JOB_DEQUEUE (08 R192). -/
def execJobDequeue (n : Fin 64) (s : State) : Answer := s.clocked fun d => d.jobDequeue n

/-- JOB_STEAL (08 R196). -/
def execJobSteal (n : Fin 64) (s : State) : Answer := s.clocked fun d => d.jobSteal n

/-- JOB_WRITE_BACK_DONE (08 R195). -/
def execJobWriteBackDone (n : Fin 64) (s : State) : Answer := s.clocked fun d => d.jobWriteBack n

/-- JQ_FLUSH (08 R201). -/
def execJqFlush (w : Who) (c : Fin 16) (s : State) : Answer := s.write w (pgJq c + 0x54) 4 (1)

end Sys2Proof.Machine
end

