-- ==== Sys2Proof/Machine/ExecLink.lean ====
section
/-!
DEFINITION. Sys2Proof/Machine/ExecLink.lean: the commands of Threshold links (14), one definition each.
-/
namespace Sys2Proof.Machine

/-- RX_ALIGN (14 R297). -/
def execRxAlign (l : Fin 32) (up : Bool) (s : State) : Answer := s.clocked fun d => d.rxAlign l up

/-- SLOT_BOUNDARY (14 R301). -/
def execSlotBoundary (l : Fin 32) (s : State) : Answer := s.clocked fun d => d.slotBoundary l

/-- TX_SYNC (14 R302). -/
def execTxSync (l : Fin 32) (s : State) : Answer := s.clocked fun d => d.txSync l

/-- TX_GATE (14 R313). -/
def execTxGate (l : Fin 32) (s : State) : Answer := s.clocked fun d => d.txGate l

/-- TX_TIME_REQ (14 R309). -/
def execTxTimeReq (l : Fin 32) (s : State) : Answer := s.clocked fun d => d.txTimeReq l

/-- TX_BIND (14 R306). -/
def execTxBind (l : Fin 32) (s : State) : Answer := s.clocked fun d => d.txBind l

/-- TX_UNBIND (14 R308). -/
def execTxUnbind (l : Fin 32) (s : State) : Answer := s.clocked fun d => d.txUnbind l

/-- TX_SAMPLE (14 R303). -/
def execTxSample (l : Fin 32) (s : State) : Answer := s.clocked fun d => d.txSample l

/-- TX_USER (14 R303). -/
def execTxUser (l : Fin 32) (s : State) : Answer := s.clocked fun d => d.txUser l

/-- ANNOUNCE (14 R305). -/
def execAnnounce (l : Fin 32) (seq : BitVec 8) (a : Announce) (s : State) : Answer := s.clocked fun d => d.announce l seq.toNat a

/-- BIND_ACK (14 R306). -/
def execBindAck (l : Fin 32) (seq : BitVec 8) (id : W64) (s : State) : Answer := s.clocked fun d => d.bindAck l seq.toNat id.toNat

/-- STATUS_FRAME (14 R311). -/
def execStatusFrame (l : Fin 32) (seq : BitVec 8) (x : NodeStatus) (s : State) : Answer := s.clocked fun d => d.statusFrame l seq.toNat x

/-- TIME_RESP (14 R310). -/
def execTimeResp (l : Fin 32) (seq : BitVec 8) (no : BitVec 8) (t2 : W64) (t3 : W64) (t4 : W64) (s : State) : Answer := 
  s.clocked fun d => d.timeResp l seq.toNat no.toNat t2.toNat t3.toNat t4.toNat

/-- SENSOR (14 R320). -/
def execSensor (l : Fin 32) (seq : BitVec 8) (first : BitVec 8) (time : W64) (vals : List W32) (s : State) : Answer := 
  s.clocked fun d => d.sensor l seq.toNat first.toNat time.toNat vals

/-- USER_FRAME_RECEIVE (14 R320). -/
def execUserFrameReceive (l : Fin 32) (seq : BitVec 8) (payload : List Byte) (s : State) : Answer := 
  s.clocked fun d => d.userFrame l seq.toNat payload

/-- NB_BIND (14 R306). -/
def execNbBind (w : Who) (l : Fin 32) (s : State) : Answer := s.write w (pgTlnb l + 0x60) 4 (1)

/-- NB_UNBIND (14 R308). -/
def execNbUnbind (w : Who) (l : Fin 32) (s : State) : Answer := s.write w (pgTlnb l + 0x60) 4 (2)

/-- ACK_DETACH (14 R321). -/
def execAckDetach (w : Who) (l : Fin 32) (s : State) : Answer := s.write w (pgTlnb l + 0x60) 4 (4)

/-- BIND_TIMEOUT (14 R306). -/
def execBindTimeout (l : Fin 32) (s : State) : Answer := s.clocked fun d => d.bindTimeout l

/-- ANNOUNCE_TIMEOUT (14 R305). -/
def execAnnounceTimeout (l : Fin 32) (s : State) : Answer := s.clocked fun d => d.announceTimeout l

/-- TIME_RESP_MISS (14 R309). -/
def execTimeRespMiss (l : Fin 32) (s : State) : Answer := s.clocked fun d => d.timeRespMiss l

/-- DETACH (14 R321). -/
def execDetach (l : Fin 32) (s : State) : Answer := s.clocked fun d => d.detachSilent l

/-- RESUME_TIMEOUT (14 R323). -/
def execResumeTimeout (l : Fin 32) (s : State) : Answer := s.clocked fun d => d.resumeTimeout l

/-- RX_FRAME_INVALID (14 R299). -/
def execRxFrameInvalid (l : Fin 32) (why : Fin 3) (s : State) : Answer := s.clocked fun d => d.rxInvalid l why

end Sys2Proof.Machine
end

