-- ==== Sys2Proof/Machine/ExecNetwork.lean ====
section
/-!
DEFINITION. Sys2Proof/Machine/ExecNetwork.lean: the commands of Ethernet, CAN, xSPI and I2C (21), one definition each.
-/
namespace Sys2Proof.Machine

/-- ETH_FRAME_RECEIVE (21 R463). -/
def execEthFrameReceive (p : Fin 4) (frame : FrameRead) (good : Bool) (s : State) : Answer :=
  s.clocked fun d => d.ethReceive p frame.bytes good frame.sfd.toNat

/-- ETH_FRAME_TRANSMIT (21 R465). -/
def execEthFrameTransmit (p : Fin 4) (s : State) : Answer := s.clocked fun d => d.ethTransmit p

/-- ETH_TX_DONE (21 R464). -/
def execEthTxDone (p : Fin 4) (s : State) : Answer := s.clocked fun d => d.ethTxDone p

/-- ETH_TXTS_READ (21 R461). -/
def execEthTxtsRead (w : Who) (p : Fin 4) (s : State) : Answer := s.read w (pgEth p + 0x90) 4 false

/-- ETH_LINK_CHANGE (21 R464). -/
def execEthLinkChange (p : Fin 4) (up : Option (BitVec 2)) (s : State) : Answer := s.run fun d => d.ethLink p (up.map (·.toNat))

/-- ETH_MDIO_GO (21 R463). -/
def execEthMdioGo (w : Who) (s : State) : Answer := s.write w (pgEth 0 + 0x64) 4 (1)

/-- MDIO_FRAME_END (21 R463). -/
def execMdioFrameEnd (data : BitVec 16) (s : State) : Answer := s.clocked fun d => d.mdioEnd data.toNat

/-- GCL_GO (21 R465). -/
def execGclGo (w : Who) (p : Fin 4) (en : Bool) (s : State) : Answer := s.write w (pgEth p + 0x218) 4 (2 + b2n en)

/-- GCL_CHANGE (21 R465). -/
def execGclChange (p : Fin 4) (s : State) : Answer := s.clocked fun d => d.gclChange p

/-- GATE_ENTRY_ADVANCE (21 R462). -/
def execGateEntryAdvance (p : Fin 4) (s : State) : Answer := s.clocked fun d => d.gateAdvance p

/-- CAN_FRAME_RECEIVE (21 R468). -/
def execCanFrameReceive (m : Fin 8) (f : CanFrame) (sof : W64) (s : State) : Answer := s.clocked fun d => d.canReceive m f sof.toNat

/-- CAN_ARBITRATION (21 R468). -/
def execCanArbitration (m : Fin 8) (wins : Bool) (s : State) : Answer := s.clocked fun d => d.canArbitrate m wins

/-- CAN_TX_DONE (21 R468). -/
def execCanTxDone (m : Fin 8) (sof : W64) (s : State) : Answer := s.clocked fun d => d.canTxDone m sof.toNat

/-- CAN_TXREQ (21 R468). -/
def execCanTxreq (w : Who) (m : Fin 8) (v : W32) (s : State) : Answer := s.write w (pgCan m + 0x54) 4 (v.toNat)

/-- CAN_TXCAN (21 R468). -/
def execCanTxcan (w : Who) (m : Fin 8) (v : W32) (s : State) : Answer := s.write w (pgCan m + 0x58) 4 (v.toNat)

/-- CAN_RXFULL_RELEASE (21 R468). -/
def execCanRxfullRelease (w : Who) (m : Fin 8) (v : W32) (s : State) : Answer := s.write w (pgCan m + 0x60) 4 (v.toNat)

/-- CAN_BUS_OFF (21 R468). -/
def execCanBusOff (m : Fin 8) (s : State) : Answer := s.clocked fun d => d.canBusOff m

/-- CAN_RECOVER (21 R468). -/
def execCanRecover (w : Who) (m : Fin 8) (ctrl : BitVec 4) (s : State) : Answer := s.write w (pgCan m + 0x40) 4 (16 + ctrl.toNat)

/-- CAN_BUS_JOIN (21 R467). -/
def execCanBusJoin (m : Fin 8) (s : State) : Answer := s.clocked fun d => d.canJoin m

/-- XSPI_GO (21 R469). -/
def execXspiGo (w : Who) (s : State) : Answer := s.write w (pgXspi + 0x50) 4 (1)

/-- XSPI_RESET (21 R469). -/
def execXspiReset (w : Who) (s : State) : Answer := s.write w (pgXspi + 0x50) 4 (2)

/-- XSPI_DONE (21 R469). -/
def execXspiDone (data : List Byte) (s : State) : Answer := s.clocked fun d => d.xspiDone data

/-- I2C_CGO (21 R470). -/
def execI2cCgo (w : Who) (s : State) : Answer := s.write w (pgI2c + 0x4C) 4 (1)

/-- I2C_CONTROLLER_DONE (21 R470). -/
def execI2cControllerDone (x : I2cEnd) (data : List Byte) (s : State) : Answer := s.clocked fun d => d.i2cDone x data

/-- I2C_TARGET_WRITE (21 R471). -/
def execI2cTargetWrite (a : BitVec 7) (data : List Byte) (s : State) : Answer := s.clocked fun d => d.i2cWrite a.toNat data

/-- I2C_TARGET_READ (21 R471). -/
def execI2cTargetRead (a : BitVec 7) (n : Nat) (s : State) : Answer := s.clocked fun d => d.i2cRead a.toNat n

/-- CAN_BUS_ERROR (21 R468). -/
def execCanBusError (m : Fin 8) (e : CanError) (s : State) : Answer := s.clocked fun d => d.canBusError m e

end Sys2Proof.Machine
end

