-- ==== Sys2Proof/Machine/ExecPcie.lean ====
section
/-!
DEFINITION. Sys2Proof/Machine/ExecPcie.lean: the commands of PCIe and DMA (21), one definition each.
-/
namespace Sys2Proof.Machine

/-- PCIE_INBOUND_WRITE (21 R454). -/
def execPcieInboundWrite (f : Fin 2) (x : PcieWrite) (s : State) : Answer := s.reach fun d => d.pcieWrite f x

/-- PCIE_INBOUND_READ (21 R454). -/
def execPcieInboundRead (f : Fin 2) (x : PcieRead) (s : State) : Answer := s.reach fun d => d.pcieRead f x

/-- PCIE_RESET (21 R456). -/
def execPcieReset (flr : Option (Fin 2)) (s : State) : Answer := s.run fun d => d.pcieReset (flr.map (·.val))

/-- MSIX_MESSAGE (21 R457). -/
def execMsixMessage (f : Fin 2) (v : Fin 32) (s : State) : Answer := s.clocked fun d => d.msixMessage f v

/-- PF_TSNAP_GO (21 R457). -/
def execPfTsnapGo (w : Who) (f : Fin 2) (s : State) : Answer := s.write w (pgPf f + 0x50) 4 (1)

/-- BOOT_DB (21 R472). -/
def execBootDb (len : BitVec 24) (flashA : List Byte) (flashB : List Byte) (s : State) : Answer := s.reach fun d => d.bootDb len.toNat flashA flashB

/-- DMA_DESCRIPTOR_START (21 R458). -/
def execDmaDescriptorStart (n : Fin 8) (s : State) : Answer := s.clocked fun d => d.dmaStart n

/-- DMA_DESCRIPTOR_DONE (21 R459). -/
def execDmaDescriptorDone (n : Fin 8) (h : HostSide) (s : State) : Answer := s.clocked fun d => d.dmaDone n h

/-- PCIE_LINK_CHANGE (21 R456). -/
def execPcieLinkChange (up : Option (Fin 5 × Fin 5)) (s : State) : Answer := s.run fun d => d.pcieLink (up.map fun x => (x.1.val, x.2.val))

end Sys2Proof.Machine
end

