-- ==== Sys2Proof/Machine/ExecPower.lean ====
section
/-!
DEFINITION. Sys2Proof/Machine/ExecPower.lean: the commands of resets, clocks, power, temperature and OTP (02, 03), one definition each.
-/
namespace Sys2Proof.Machine

/-- PORST_N_LOW (02 R49). -/
def execPorstNLow (s : State) : Answer := s.run fun d => { d with sys := { d.sys with porstLow := true } }

/-- WRST_N_LOW (02 R49). -/
def execWrstNLow (s : State) : Answer := s.run fun d => d.wrstFall

/-- RESET_PIN_RISE (02 R49). -/
def execResetPinRise (porst : Bool) (s : State) : Answer := 
  s.run fun d =>
    { d with sys := if porst then { d.sys with porstLow := false, vddAon := true } else { d.sys with wrstLow := false } }

/-- VDD_AON_FALL (02 R47, 23 R491): a power-on reset, with the supply gone. -/
def execVddAonFall (s : State) : Answer := s.supplyFall

/-- POWER_ON_RESET (03 R69). -/
def execPowerOnReset (s : State) : Answer := if s.dev.sys.porstLow then s.powerOn else .next s

/-- WARM_RESET (03 R69). -/
def execWarmReset (s : State) : Answer := s.run fun d => if d.sys.wrstLow then d.warmReset 1 0 else d

/-- RST_CTRL_WARM (03 R69). -/
def execRstCtrlWarm (w : Who) (s : State) : Answer := s.write w (pgRst + 0x40) 4 (1)

/-- RESET_SEQUENCE_END (03 R70). -/
def execResetSequenceEnd (testOk : Bool) (flashA : List Byte) (flashB : List Byte) (s : State) : Answer := s.sequenceEnd testOk flashA flashB

/-- FOUT_RELEASE (02 R50). -/
def execFoutRelease (w : Who) (force : Bool) (s : State) : Answer := s.write w (pgRst + 0xC0) 4 (1 + 2 * b2n force)

/-- FOUT_FORCE (02 R50). -/
def execFoutForce (w : Who) (force : Bool) (s : State) : Answer := s.write w (pgRst + 0xC0) 4 (2 * b2n force)

/-- CLOCK_LOSS (03 R58). -/
def execClockLoss (noRef : Bool) (noLock : Bool) (s : State) : Answer := s.run fun d => d.clockLoss noRef noLock

/-- SERDES_PLL_LOCK (03 R57). -/
def execSerdesPllLock (i : Fin 3) (s : State) : Answer := s.run fun d => d.serdesLock i

/-- PWR_REQ_WRITE (03 R60). -/
def execPwrReqWrite (w : Who) (v : W32) (s : State) : Answer := s.write w (pgPwr + 0x40) 4 (v.toNat)

/-- DOMAIN_TRANSITION_END (03 R61). -/
def execDomainTransitionEnd (b : Fin 31) (testOk : Bool) (s : State) : Answer := s.run fun d => d.transitionEnd b testOk

/-- STANDBY_ENTER (03 R65). -/
def execStandbyEnter (w : Who) (s : State) : Answer := s.write w (pgPwr + 0x54) 4 (1)

/-- TEMPERATURE_READING (03 R73). -/
def execTemperatureReading (t : List (BitVec 16)) (s : State) : Answer := s.run fun d => d.temperature (t.map BitVec.toInt)

/-- TS_PEAK_READ (03 R73). -/
def execTsPeakRead (w : Who) (peek : Bool) (s : State) : Answer := s.read w (pgTemp + 0x6C) 4 peek

/-- ROLLBACK_ADV (03 R84). -/
def execRollbackAdv (w : Who) (s : State) : Answer := s.write w (pgOtp + 0x44) 4 (1)

/-- REVOKE (03 R84). -/
def execRevoke (w : Who) (slot : BitVec 2) (s : State) : Answer := s.write w (pgOtp + 0x44) 4 (2 + 4 * slot.toNat)

/-- FIELD_GO (03 R84). -/
def execFieldGo (w : Who) (sel : BitVec 4) (s : State) : Answer := s.write w (pgOtp + 0x44) 4 (16 + 256 * sel.toNat)

/-- OTP_COMMAND_DONE (03 R84). -/
def execOtpCommandDone (s : State) : Answer := s.otpDone

/-- ROOT_PLL_RELOCK (03 R58). -/
def execRootPllRelock (s : State) : Answer := s.run fun d => d.rootRelock

end Sys2Proof.Machine
end

