-- ==== Sys2Proof/Machine/ExecPwm.lean ====
section
/-!
DEFINITION. Sys2Proof/Machine/ExecPwm.lean: the commands of PWM generators (10), one definition each.
-/
namespace Sys2Proof.Machine

/-- PWM_RELOAD (10 R221). -/
def execPwmReload (n : Fin 96) (s : State) : Answer := s.clocked fun d => d.pwmReload n

/-- PWM_PERIOD_EVENT (10 R241). -/
def execPwmPeriodEvent (n : Fin 96) (s : State) : Answer := s.clocked fun d => d.pwmPeriodEvent n

/-- PWM_STALL (10 R222). -/
def execPwmStall (n : Fin 96) (s : State) : Answer := s.clocked fun d => d.pwmStall n

/-- PWM_COMPARE_MATCH (10 R224). -/
def execPwmCompareMatch (n : Fin 96) (s : State) : Answer := s.clocked fun d => d.pwmMatch n

/-- DEAD_TIME_EXPIRE (10 R226). -/
def execDeadTimeExpire (n : Fin 96) (s : State) : Answer := s.clocked fun d => d.deadTimeExpire n

/-- PWM_COMPARE_WRITE (10 R228). -/
def execPwmCompareWrite (w : Who) (n : Fin 96) (r : PwmReg) (v : W32) (s : State) : Answer := s.write w (pwmPage n + r.offset) 4 (v.toNat)

/-- COMPARE_ACTIVATE (10 R231). -/
def execCompareActivate (n : Fin 96) (s : State) : Answer := s.clocked fun d => d.compareActivate n

/-- SYNC_LOAD (10 R234). -/
def execSyncLoad (n : Fin 96) (s : State) : Answer := s.clocked fun d => d.syncLoad n

/-- REF_FORCE_WRITE (10 R240). -/
def execRefForceWrite (w : Who) (n : Fin 96) (f : BitVec 2) (periodOff : Bool) (s : State) : Answer := 
  s.write w (pwmPage n + 0x80) 4 (2 * f.toNat + b2n periodOff)

end Sys2Proof.Machine
end

