-- ==== Sys2Proof/Machine/ExecRegister.lean ====
section
/-!
DEFINITION. Sys2Proof/Machine/ExecRegister.lean: the commands of register accesses (01), one definition each.
-/
namespace Sys2Proof.Machine

/-- REGISTER_WRITE (01 R31). -/
def execRegisterWrite (w : Who) (a : BitVec 48) (sz : BitVec 2) (v : W64) (s : State) : Answer := s.write w a.toNat (2 ^ sz.toNat) v.toNat

/-- ENABLE_SET (01 R22). -/
def execEnableSet (w : Who) (page : BitVec 36) (expert : Bool) (s : State) : Answer := s.write w (0x1000 * page.toNat + 8) 4 (1 + 2 * b2n expert)

/-- ENABLE_CLEAR (01 R24). -/
def execEnableClear (w : Who) (page : BitVec 36) (expert : Bool) (s : State) : Answer := s.write w (0x1000 * page.toNat + 8) 4 (2 * b2n expert)

/-- BLOCK_IDLE (03 R74). -/
def execBlockIdle (page : BitVec 36) (s : State) : Answer := 
  s.clocked fun d => match pageAt (0x1000 * page.toNat) with | some p => d.becomeIdle p | none => d

/-- EXPERT_CHANGE (01 R25). -/
def execExpertChange (w : Who) (page : BitVec 36) (en : Bool) (expert : Bool) (s : State) : Answer := 
  s.write w (0x1000 * page.toNat + 8) 4 (b2n en + 2 * b2n expert)

/-- ERR_INFO_READ (01 R33). -/
def execErrInfoRead (w : Who) (page : BitVec 36) (s : State) : Answer := s.read w (0x1000 * page.toNat + 0x1C) 4 false

/-- CLEARING_READ (00 R13). -/
def execClearingRead (w : Who) (a : BitVec 48) (sz : BitVec 2) (s : State) : Answer := s.read w a.toNat (2 ^ sz.toNat) false

/-- OWN_GO (01 R36). -/
def execOwnGo (w : Who) (s : State) : Answer := s.write w (pgOwn + 0x4C) 4 (1)

end Sys2Proof.Machine
end

