-- ==== Sys2Proof/Machine/ExecSequencer.lean ====
section
/-!
DEFINITION. Sys2Proof/Machine/ExecSequencer.lean: the commands of the sashes (05, 06, 07), one definition each.
-/
namespace Sys2Proof.Machine

/-- MICROWORD_ISSUE (05 R114). -/
def execMicrowordIssue (n : Fin 64) (found : CodeCheck) (errs : List (Nat × Bool)) (s : State) : Answer :=
  s.clocked fun d => d.microwordIssue n found errs

/-- RESULT_WRITEBACK (05 R132). -/
def execResultWriteback (n : Fin 64) (bad : List (Fin 4 × Fin 5)) (s : State) : Answer := 
  s.clocked fun d => d.writeback n (bad.map fun x => (x.1.val, x.2.val))

/-- REPLAY_FREEZE_END (05 R133). -/
def execReplayFreezeEnd (n : Fin 64) (bad : List (Fin 4 × Fin 5)) (s : State) : Answer := 
  s.clocked fun d => d.replayEnd n (bad.map fun x => (x.1.val, x.2.val))

/-- WORD_END (05 R122). -/
def execWordEnd (n : Fin 64) (s : State) : Answer := s.clocked fun d => d.wordEnd n

/-- COMMIT_LAND (05 R127). -/
def execCommitLand (s : State) : Answer := s.clocked fun d => d.commitLand

/-- INBOUND_DELIVERY (05 R126). -/
def execInboundDelivery (s : State) : Answer := s.clocked fun d => d.inboundDelivery

/-- FLIT_RETRY (05 R137): nothing happens unless the CRC of the payload disagrees. -/
def execFlitRetry (x : FlitRead) (s : State) : Answer :=
  s.clocked fun d => if crc8 x.payload = x.crc.toNat then d else d.flitRetry x.place

/-- WAIT_WAKE (06 R156). -/
def execWaitWake (n : Fin 64) (s : State) : Answer := s.clocked fun d => d.waitWake n

/-- WAIT_TIMEOUT (06 R156). -/
def execWaitTimeout (n : Fin 64) (s : State) : Answer := s.clocked fun d => d.waitTimeout n

/-- JOB_END (06 R155). -/
def execJobEnd (n : Fin 64) (s : State) : Answer := s.clocked fun d => d.jobEnd n

/-- BANK_SWAP (06 R164). -/
def execBankSwap (n : Fin 64) (s : State) : Answer := s.clocked fun d => d.bankSwap n

/-- LOAD_OPEN (06 R164). -/
def execLoadOpen (w : Who) (n : Fin 64) (s : State) : Answer := s.write w (pgSash n + 0x8C) 4 (1)

/-- LOAD_CLOSE (06 R164). -/
def execLoadClose (w : Who) (n : Fin 64) (s : State) : Answer := s.write w (pgSash n + 0x8C) 4 (0)

/-- LOAD_CHECK (06 R164). -/
def execLoadCheck (w : Who) (n : Fin 64) (s : State) : Answer := s.write w (pgSash n + 0x8C) 4 (2)

/-- LOAD_CHECK_DONE (06 R164). -/
def execLoadCheckDone (n : Fin 64) (s : State) : Answer := s.clocked fun d => d.loadCheckDone n

/-- LOAD_SWAP (06 R164). -/
def execLoadSwap (w : Who) (n : Fin 64) (isOpen : Bool) (s : State) : Answer := s.write w (pgSash n + 0x8C) 4 (4 + b2n isOpen)

/-- LOAD_CANCEL (06 R165). -/
def execLoadCancel (w : Who) (n : Fin 64) (isOpen : Bool) (s : State) : Answer := s.write w (pgSash n + 0x8C) 4 (8 + b2n isOpen)

/-- EVSEL_WRITE (06 R157). -/
def execEvselWrite (w : Who) (n : Fin 64) (k : BitVec 4) (e : BitVec 11) (s : State) : Answer := 
  s.write w (pgSash n + 0x180 + 4 * k.toNat) 4 (e.toNat)

/-- TPL_PROG_WRITE (07 R177). -/
def execTplProgWrite (w : Who) (t : Fin 512) (v : W32) (s : State) : Answer := s.write w (tplBase t + 0x40) 4 (v.toNat)

/-- TEMPLATE_WRITE_BACK (07 R171). -/
def execTemplateWriteBack (n : Fin 64) (s : State) : Answer := s.clocked fun d => d.tplWriteBack n

end Sys2Proof.Machine
end

