-- ==== Sys2Proof/Machine/ExecShutter.lean ====
section
/-!
DEFINITION. Sys2Proof/Machine/ExecShutter.lean: the commands of fault inputs, comparators, groups and virtual trips (11), one definition each.
-/
namespace Sys2Proof.Machine

/-- FAULT_INPUT_CHANGE (11 R251). -/
def execFaultInputChange (n : Fin 64) (level : BallLevel) (s : State) : Answer :=
  s.run fun d => d.faultInput n level.active level.lasts

/-- COMPARATOR_CHANGE (11 R245). -/
def execComparatorChange (n : Fin 384) (v : Int) (s : State) : Answer := s.run fun d => d.comparatorChange n v

/-- FILTER_SAMPLE (11 R248). -/
def execFilterSample (n : Fin 384) (s : State) : Answer := s.clocked fun d => d.filterSample n

/-- CMP_LATCH_CLEAR (11 R249). -/
def execCmpLatchClear (w : Who) (n : Fin 64) (mask : BitVec 6) (s : State) : Answer := s.write w (pgCmp (n.val / 4) (n.val % 4) + 0x78) 4 (mask.toNat)

/-- CMP_SETTLED (11 R247). -/
def execCmpSettled (n : Fin 384) (v : Int) (s : State) : Answer := s.run fun d => d.cmpSettled n v

/-- LATCH_RECORD (11 R255). -/
def execLatchRecord (g : Fin 24) (s : State) : Answer := s.clocked fun d => d.latchRecord g

/-- SG_CLEAR (11 R258). -/
def execSgClear (w : Who) (g : Fin 24) (s : State) : Answer := s.write w (pgGroup g + 0xAC) 4 (1)

/-- SH_CLR_MULTI (11 R258). -/
def execShClrMulti (w : Who) (gs : BitVec 24) (s : State) : Answer := s.write w (pgVt + 0x60) 4 (gs.toNat)

/-- VT_SET (11 R257). -/
def execVtSet (w : Who) (hi : Bool) (v : W32) (s : State) : Answer := s.write w (pgVt + 0x40 + 4 * b2n hi) 4 (v.toNat)

/-- VT_CLR (11 R257). -/
def execVtClr (w : Who) (hi : Bool) (v : W32) (s : State) : Answer := s.write w (pgVt + 0x48 + 4 * b2n hi) 4 (v.toNat)

end Sys2Proof.Machine
end

