-- ==== Sys2Proof/Machine/ExecSupervision.lean ====
section
/-!
DEFINITION. Sys2Proof/Machine/ExecSupervision.lean: the commands of monitors, test signals and capture (09), one definition each.
-/
namespace Sys2Proof.Machine

/-- MONITOR_DELIVERY (09 R205). -/
def execMonitorDelivery (m : Fin 256) (s : State) : Answer := s.clocked fun d => d.monDelivery m

/-- MODEL_STATE_UPDATE (09 R205). -/
def execModelStateUpdate (m : Fin 256) (s : State) : Answer := s.clocked fun d => d.monUpdate m

/-- RESIDUAL_JUDGE (09 R208). -/
def execResidualJudge (m : Fin 256) (s : State) : Answer := s.clocked fun d => d.monJudge m

/-- PEEPHOLE_VTRIP (09 R209). -/
def execPeepholeVtrip (m : Fin 256) (s : State) : Answer := s.clocked fun d => d.monVtrip m

/-- INJECTION_UPDATE (09 R212). -/
def execInjectionUpdate (n : Fin 64) (s : State) : Answer := s.clocked fun d => d.injUpdate n

/-- CAPTURE_WRITE_DONE (09 R215). -/
def execCaptureWriteDone (n : Fin 64) (s : State) : Answer := s.clocked fun d => d.capWritten n

end Sys2Proof.Machine
end

