-- ==== Sys2Proof/Machine/ExecTime.lean ====
section
/-!
DEFINITION. Sys2Proof/Machine/ExecTime.lean: the commands of time, launches, deadlines and software events (04), one definition each.
-/
namespace Sys2Proof.Machine

/-- LT_NOW_LO_READ (04 R87). -/
def execLtNowLoRead (w : Who) (s : State) : Answer := s.read w (pgLintel + 0x40) 4 false

/-- STEP_GO (04 R91). -/
def execStepGo (w : Who) (s : State) : Answer := s.write w (pgLintel + 0x58) 4 (1)

/-- TRIM_SKIP (04 R90). -/
def execTrimSkip (s : State) : Answer := s.clocked fun d => if d.trimCarry = 0 then d else d.idle

/-- LAUNCH_FIRE (04 R95). -/
def execLaunchFire (c : Fin 16) (s : State) : Answer := s.clocked fun d => d.launchFire c

/-- DEADLINE_MISS (04 R103). -/
def execDeadlineMiss (x : MissPlace) (s : State) : Answer := 
  s.clocked fun d => match x with | .queued c k => d.missQueued c k | .running n => d.missRunning n

/-- EV_SW_SET (04 R108). -/
def execEvSwSet (w : Who) (q : BitVec 2) (v : W32) (s : State) : Answer := s.write w (pgEvf + 0x40 + 4 * q.toNat) 4 (v.toNat)

/-- EV_SW_CLR (04 R108). -/
def execEvSwClr (w : Who) (q : BitVec 2) (v : W32) (s : State) : Answer := s.write w (pgEvf + 0x50 + 4 * q.toNat) 4 (v.toNat)

end Sys2Proof.Machine
end

