-- ==== Sys2Proof/Machine/ExecTimer.lean ====
section
/-!
DEFINITION. Sys2Proof/Machine/ExecTimer.lean: the commands of timers, encoders and watchdogs (13), one definition each.
-/
namespace Sys2Proof.Machine

/-- TIMER_FIRE (13 R281). -/
def execTimerFire (c : Fin 16) (ch : Fin 32) (s : State) : Answer := s.clocked fun d => d.timerFire c ch

/-- TMR_CMP_WRITE (13 R281). -/
def execTmrCmpWrite (w : Who) (c : Fin 16) (ch : Fin 32) (v : W64) (s : State) : Answer := 
  s.write w (tmrPage c ch + 0x108 + 0x40 * (ch.val % 8)) 8 (v.toNat)

/-- TIMER_CAPTURE (13 R284). -/
def execTimerCapture (c : Fin 16) (ch : Fin 32) (level : Bool) (s : State) : Answer := s.clocked fun d => d.timerCapture c ch level

/-- TMR_CAP_READ (13 R285). -/
def execTmrCapRead (w : Who) (c : Fin 16) (ch : Fin 32) (wide : Bool) (s : State) : Answer := 
  s.read w (tmrPage c ch + 0x120 + 0x40 * (ch.val % 8)) (4 + 4 * b2n wide) false

/-- ENCODER_EDGE (13 R287). -/
def execEncoderEdge (e : Fin 16) (a : Bool) (b : Bool) (s : State) : Answer := s.clocked fun d => d.encoderEdge e a b

/-- ENCODER_INDEX (13 R288). -/
def execEncoderIndex (e : Fin 16) (level : Bool) (s : State) : Answer := s.clocked fun d => d.encoderIndex e level

/-- ENCODER_STALLED (13 R287). -/
def execEncoderStalled (e : Fin 16) (s : State) : Answer := s.clocked fun d => d.encoderStalled e

/-- ENC_PRESET (13 R289). -/
def execEncPreset (w : Who) (e : Fin 16) (v : W32) (s : State) : Answer := s.write w (pgEnc e + 0x48) 4 (v.toNat)

/-- WD_FEED (13 R292). -/
def execWdFeed (w : Who) (k : CoreId) (v : W32) (s : State) : Answer := s.write w (pgWdCore k + 0x4C) 4 (v.toNat)

/-- WATCHDOG_EXPIRE (13 R293). -/
def execWatchdogExpire (x : WdPlace) (s : State) : Answer := s.clocked fun d => d.wdLate x.wd

/-- WD_ACK (13 R293). -/
def execWdAck (w : Who) (x : WdPlace) (s : State) : Answer := s.write w (x.wd.page + 0x50) 4 (1)

end Sys2Proof.Machine
end

