-- ==== Sys2Proof/Machine/Dispatch.lean ====
section
/-!
DEFINITION. Sys2Proof/Machine/Dispatch.lean: each command and its meaning.
-/
namespace Sys2Proof.Machine

/-- A command's effect on everything but the queue. -/
def exec (i : Instr) (s : State) : Host.Outcome State Fault Refusal :=
  match i with
  | .registerWrite w a sz v => Sys2Proof.Machine.execRegisterWrite w a sz v s
  | .enableSet w page expert => Sys2Proof.Machine.execEnableSet w page expert s
  | .enableClear w page expert => Sys2Proof.Machine.execEnableClear w page expert s
  | .blockIdle page => Sys2Proof.Machine.execBlockIdle page s
  | .expertChange w page en expert => Sys2Proof.Machine.execExpertChange w page en expert s
  | .errInfoRead w page => Sys2Proof.Machine.execErrInfoRead w page s
  | .clearingRead w a sz => Sys2Proof.Machine.execClearingRead w a sz s
  | .ownGo w => Sys2Proof.Machine.execOwnGo w s
  | .porstNLow => Sys2Proof.Machine.execPorstNLow s
  | .wrstNLow => Sys2Proof.Machine.execWrstNLow s
  | .resetPinRise porst => Sys2Proof.Machine.execResetPinRise porst s
  | .vddAonFall => Sys2Proof.Machine.execVddAonFall s
  | .powerOnReset => Sys2Proof.Machine.execPowerOnReset s
  | .warmReset => Sys2Proof.Machine.execWarmReset s
  | .rstCtrlWarm w => Sys2Proof.Machine.execRstCtrlWarm w s
  | .resetSequenceEnd testOk flashA flashB => Sys2Proof.Machine.execResetSequenceEnd testOk flashA flashB s
  | .foutRelease w force => Sys2Proof.Machine.execFoutRelease w force s
  | .foutForce w force => Sys2Proof.Machine.execFoutForce w force s
  | .clockLoss noRef noLock => Sys2Proof.Machine.execClockLoss noRef noLock s
  | .serdesPllLock k => Sys2Proof.Machine.execSerdesPllLock k s
  | .pwrReqWrite w v => Sys2Proof.Machine.execPwrReqWrite w v s
  | .domainTransitionEnd b testOk => Sys2Proof.Machine.execDomainTransitionEnd b testOk s
  | .standbyEnter w => Sys2Proof.Machine.execStandbyEnter w s
  | .temperatureReading t => Sys2Proof.Machine.execTemperatureReading t s
  | .tsPeakRead w peek => Sys2Proof.Machine.execTsPeakRead w peek s
  | .rollbackAdv w => Sys2Proof.Machine.execRollbackAdv w s
  | .revoke w slot => Sys2Proof.Machine.execRevoke w slot s
  | .fieldGo w sel => Sys2Proof.Machine.execFieldGo w sel s
  | .otpCommandDone => Sys2Proof.Machine.execOtpCommandDone s
  | .ltNowLoRead w => Sys2Proof.Machine.execLtNowLoRead w s
  | .stepGo w => Sys2Proof.Machine.execStepGo w s
  | .trimSkip => Sys2Proof.Machine.execTrimSkip s
  | .launchFire c => Sys2Proof.Machine.execLaunchFire c s
  | .deadlineMiss x => Sys2Proof.Machine.execDeadlineMiss x s
  | .evSwSet w q v => Sys2Proof.Machine.execEvSwSet w q v s
  | .evSwClr w q v => Sys2Proof.Machine.execEvSwClr w q v s
  | .microwordIssue n found errs => Sys2Proof.Machine.execMicrowordIssue n found errs s
  | .resultWriteback n bad => Sys2Proof.Machine.execResultWriteback n bad s
  | .replayFreezeEnd n bad => Sys2Proof.Machine.execReplayFreezeEnd n bad s
  | .wordEnd n => Sys2Proof.Machine.execWordEnd n s
  | .commitLand => Sys2Proof.Machine.execCommitLand s
  | .inboundDelivery => Sys2Proof.Machine.execInboundDelivery s
  | .flitRetry x => Sys2Proof.Machine.execFlitRetry x s
  | .waitWake n => Sys2Proof.Machine.execWaitWake n s
  | .waitTimeout n => Sys2Proof.Machine.execWaitTimeout n s
  | .jobEnd n => Sys2Proof.Machine.execJobEnd n s
  | .bankSwap n => Sys2Proof.Machine.execBankSwap n s
  | .loadOpen w n => Sys2Proof.Machine.execLoadOpen w n s
  | .loadClose w n => Sys2Proof.Machine.execLoadClose w n s
  | .loadCheck w n => Sys2Proof.Machine.execLoadCheck w n s
  | .loadCheckDone n => Sys2Proof.Machine.execLoadCheckDone n s
  | .loadSwap w n isOpen => Sys2Proof.Machine.execLoadSwap w n isOpen s
  | .loadCancel w n isOpen => Sys2Proof.Machine.execLoadCancel w n isOpen s
  | .evselWrite w n k e => Sys2Proof.Machine.execEvselWrite w n k e s
  | .tplProgWrite w t v => Sys2Proof.Machine.execTplProgWrite w t v s
  | .templateWriteBack n => Sys2Proof.Machine.execTemplateWriteBack n s
  | .jqPost w c desc ofs => Sys2Proof.Machine.execJqPost w c desc ofs s
  | .fallbackPost => Sys2Proof.Machine.execFallbackPost s
  | .jobDequeue n => Sys2Proof.Machine.execJobDequeue n s
  | .jobSteal n => Sys2Proof.Machine.execJobSteal n s
  | .jobWriteBackDone n => Sys2Proof.Machine.execJobWriteBackDone n s
  | .jqFlush w c => Sys2Proof.Machine.execJqFlush w c s
  | .monitorDelivery m => Sys2Proof.Machine.execMonitorDelivery m s
  | .modelStateUpdate m => Sys2Proof.Machine.execModelStateUpdate m s
  | .residualJudge m => Sys2Proof.Machine.execResidualJudge m s
  | .peepholeVtrip m => Sys2Proof.Machine.execPeepholeVtrip m s
  | .injectionUpdate n => Sys2Proof.Machine.execInjectionUpdate n s
  | .captureWriteDone n => Sys2Proof.Machine.execCaptureWriteDone n s
  | .pwmReload n => Sys2Proof.Machine.execPwmReload n s
  | .pwmPeriodEvent n => Sys2Proof.Machine.execPwmPeriodEvent n s
  | .pwmStall n => Sys2Proof.Machine.execPwmStall n s
  | .pwmCompareMatch n => Sys2Proof.Machine.execPwmCompareMatch n s
  | .deadTimeExpire n => Sys2Proof.Machine.execDeadTimeExpire n s
  | .pwmCompareWrite w n r v => Sys2Proof.Machine.execPwmCompareWrite w n r v s
  | .compareActivate n => Sys2Proof.Machine.execCompareActivate n s
  | .syncLoad n => Sys2Proof.Machine.execSyncLoad n s
  | .refForceWrite w n f periodOff => Sys2Proof.Machine.execRefForceWrite w n f periodOff s
  | .faultInputChange n level => Sys2Proof.Machine.execFaultInputChange n level s
  | .comparatorChange n v => Sys2Proof.Machine.execComparatorChange n v s
  | .filterSample n => Sys2Proof.Machine.execFilterSample n s
  | .cmpLatchClear w n mask => Sys2Proof.Machine.execCmpLatchClear w n mask s
  | .cmpSettled n v => Sys2Proof.Machine.execCmpSettled n v s
  | .latchRecord g => Sys2Proof.Machine.execLatchRecord g s
  | .sgClear w g => Sys2Proof.Machine.execSgClear w g s
  | .shClrMulti w gs => Sys2Proof.Machine.execShClrMulti w gs s
  | .vtSet w hi v => Sys2Proof.Machine.execVtSet w hi v s
  | .vtClr w hi v => Sys2Proof.Machine.execVtClr w hi v s
  | .adcBurstHold c j m code => Sys2Proof.Machine.execAdcBurstHold c j m code s
  | .adcStrobe c j m code => Sys2Proof.Machine.execAdcStrobe c j m code s
  | .sdClockStart c j => Sys2Proof.Machine.execSdClockStart c j s
  | .sdWordComplete c k bits => Sys2Proof.Machine.execSdWordComplete c k bits s
  | .sdStuck c k bits => Sys2Proof.Machine.execSdStuck c k bits s
  | .sdFastCompare c k bits => Sys2Proof.Machine.execSdFastCompare c k bits s
  | .timerFire c ch => Sys2Proof.Machine.execTimerFire c ch s
  | .tmrCmpWrite w c ch v => Sys2Proof.Machine.execTmrCmpWrite w c ch v s
  | .timerCapture c ch level => Sys2Proof.Machine.execTimerCapture c ch level s
  | .tmrCapRead w c ch wide => Sys2Proof.Machine.execTmrCapRead w c ch wide s
  | .encoderEdge e a b => Sys2Proof.Machine.execEncoderEdge e a b s
  | .encoderIndex e level => Sys2Proof.Machine.execEncoderIndex e level s
  | .encoderStalled e => Sys2Proof.Machine.execEncoderStalled e s
  | .encPreset w e v => Sys2Proof.Machine.execEncPreset w e v s
  | .wdFeed w k v => Sys2Proof.Machine.execWdFeed w k v s
  | .watchdogExpire x => Sys2Proof.Machine.execWatchdogExpire x s
  | .wdAck w x => Sys2Proof.Machine.execWdAck w x s
  | .rxAlign l up => Sys2Proof.Machine.execRxAlign l up s
  | .slotBoundary l => Sys2Proof.Machine.execSlotBoundary l s
  | .txSync l => Sys2Proof.Machine.execTxSync l s
  | .txGate l => Sys2Proof.Machine.execTxGate l s
  | .txTimeReq l => Sys2Proof.Machine.execTxTimeReq l s
  | .txBind l => Sys2Proof.Machine.execTxBind l s
  | .txUnbind l => Sys2Proof.Machine.execTxUnbind l s
  | .txSample l => Sys2Proof.Machine.execTxSample l s
  | .txUser l => Sys2Proof.Machine.execTxUser l s
  | .announce l seq a => Sys2Proof.Machine.execAnnounce l seq a s
  | .bindAck l seq id => Sys2Proof.Machine.execBindAck l seq id s
  | .statusFrame l seq x => Sys2Proof.Machine.execStatusFrame l seq x s
  | .timeResp l seq no t2 t3 t4 => Sys2Proof.Machine.execTimeResp l seq no t2 t3 t4 s
  | .sensor l seq first time vals => Sys2Proof.Machine.execSensor l seq first time vals s
  | .userFrameReceive l seq payload => Sys2Proof.Machine.execUserFrameReceive l seq payload s
  | .nbBind w l => Sys2Proof.Machine.execNbBind w l s
  | .nbUnbind w l => Sys2Proof.Machine.execNbUnbind w l s
  | .ackDetach w l => Sys2Proof.Machine.execAckDetach w l s
  | .bindTimeout l => Sys2Proof.Machine.execBindTimeout l s
  | .announceTimeout l => Sys2Proof.Machine.execAnnounceTimeout l s
  | .timeRespMiss l => Sys2Proof.Machine.execTimeRespMiss l s
  | .detach l => Sys2Proof.Machine.execDetach l s
  | .resumeTimeout l => Sys2Proof.Machine.execResumeTimeout l s
  | .geta k m => Sys2Proof.Machine.execGeta k m s
  | .puta k m => Sys2Proof.Machine.execPuta k m s
  | .getx k m => Sys2Proof.Machine.execGetx k m s
  | .putx k m => Sys2Proof.Machine.execPutx k m s
  | .gety k m => Sys2Proof.Machine.execGety k m s
  | .puty k m => Sys2Proof.Machine.execPuty k m s
  | .adr k m => Sys2Proof.Machine.execAdr k m s
  | .add k m => Sys2Proof.Machine.execAdd k m s
  | .sub k m => Sys2Proof.Machine.execSub k m s
  | .and k m => Sys2Proof.Machine.execAnd k m s
  | .or k m => Sys2Proof.Machine.execOr k m s
  | .xor k m => Sys2Proof.Machine.execXor k m s
  | .cmp k m => Sys2Proof.Machine.execCmp k m s
  | .addv k m => Sys2Proof.Machine.execAddv k m s
  | .subv k m => Sys2Proof.Machine.execSubv k m s
  | .mul k m => Sys2Proof.Machine.execMul k m s
  | .mulv k m => Sys2Proof.Machine.execMulv k m s
  | .div k m => Sys2Proof.Machine.execDiv k m s
  | .divu k m => Sys2Proof.Machine.execDivu k m s
  | .rem k m => Sys2Proof.Machine.execRem k m s
  | .remu k m => Sys2Proof.Machine.execRemu k m s
  | .fadd k m => Sys2Proof.Machine.execFadd k m s
  | .fsub k m => Sys2Proof.Machine.execFsub k m s
  | .fmul k m => Sys2Proof.Machine.execFmul k m s
  | .fdiv k m => Sys2Proof.Machine.execFdiv k m s
  | .fcmp k m => Sys2Proof.Machine.execFcmp k m s
  | .mov k rd rs => Sys2Proof.Machine.execMov k rd rs s
  | .neg k rd rs => Sys2Proof.Machine.execNeg k rd rs s
  | .not k rd rs => Sys2Proof.Machine.execNot k rd rs s
  | .shl k rd rs n => Sys2Proof.Machine.execShl k rd rs n s
  | .shr k rd rs n => Sys2Proof.Machine.execShr k rd rs n s
  | .sar k rd rs n => Sys2Proof.Machine.execSar k rd rs n s
  | .rol k rd rs n => Sys2Proof.Machine.execRol k rd rs n s
  | .sext8 k rd rs => Sys2Proof.Machine.execSext8 k rd rs s
  | .sext16 k rd rs => Sys2Proof.Machine.execSext16 k rd rs s
  | .sext32 k rd rs => Sys2Proof.Machine.execSext32 k rd rs s
  | .addRegister k rd rs => Sys2Proof.Machine.execAddRegister k rd rs s
  | .subRegister k rd rs => Sys2Proof.Machine.execSubRegister k rd rs s
  | .andRegister k rd rs => Sys2Proof.Machine.execAndRegister k rd rs s
  | .orRegister k rd rs => Sys2Proof.Machine.execOrRegister k rd rs s
  | .xorRegister k rd rs => Sys2Proof.Machine.execXorRegister k rd rs s
  | .fcvt k rd rs => Sys2Proof.Machine.execFcvt k rd rs s
  | .movcq k rd n => Sys2Proof.Machine.execMovcq k rd n s
  | .ldi k rd imm => Sys2Proof.Machine.execLdi k rd imm s
  | .addi k rd imm => Sys2Proof.Machine.execAddi k rd imm s
  | .cmpi k rd imm => Sys2Proof.Machine.execCmpi k rd imm s
  | .andi k rd imm => Sys2Proof.Machine.execAndi k rd imm s
  | .ori k rd imm => Sys2Proof.Machine.execOri k rd imm s
  | .xori k rd imm => Sys2Proof.Machine.execXori k rd imm s
  | .ldiL k rd imm => Sys2Proof.Machine.execLdiL k rd imm s
  | .addiL k rd imm => Sys2Proof.Machine.execAddiL k rd imm s
  | .cmpiL k rd imm => Sys2Proof.Machine.execCmpiL k rd imm s
  | .push k r => Sys2Proof.Machine.execPush k r s
  | .pop k r => Sys2Proof.Machine.execPop k r s
  | .drop k n => Sys2Proof.Machine.execDrop k n s
  | .ret k => Sys2Proof.Machine.execRet k s
  | .bcc k cond off => Sys2Proof.Machine.execBcc k cond off s
  | .jmp k m => Sys2Proof.Machine.execJmp k m s
  | .call k off => Sys2Proof.Machine.execCall k off s
  | .calli k m => Sys2Proof.Machine.execCalli k m s
  | .bmov k sz elems => Sys2Proof.Machine.execBmov k sz elems s
  | .bmovd k sz elems => Sys2Proof.Machine.execBmovd k sz elems s
  | .bfill k sz elems => Sys2Proof.Machine.execBfill k sz elems s
  | .bfind k sz elems => Sys2Proof.Machine.execBfind k sz elems s
  | .tas k m => Sys2Proof.Machine.execTas k m s
  | .lr k m => Sys2Proof.Machine.execLr k m s
  | .sc k m => Sys2Proof.Machine.execSc k m s
  | .fence k => Sys2Proof.Machine.execFence k s
  | .ibar k => Sys2Proof.Machine.execIbar k s
  | .icinv k => Sys2Proof.Machine.execIcinv k s
  | .icinvAll k => Sys2Proof.Machine.execIcinvAll k s
  | .door k n => Sys2Proof.Machine.execDoor k n s
  | .remoteDoor k n => Sys2Proof.Machine.execRemoteDoor k n s
  | .remoteDoorTimeout k => Sys2Proof.Machine.execRemoteDoorTimeout k s
  | .dreqReply rs j => Sys2Proof.Machine.execDreqReply rs j s
  | .doorOut k => Sys2Proof.Machine.execDoorOut k s
  | .trap k n => Sys2Proof.Machine.execTrap k n s
  | .rte k => Sys2Proof.Machine.execRte k s
  | .krd k o => Sys2Proof.Machine.execKrd k o s
  | .kadr k o => Sys2Proof.Machine.execKadr k o s
  | .kinc k o => Sys2Proof.Machine.execKinc k o s
  | .kbnd k o => Sys2Proof.Machine.execKbnd k o s
  | .kprm k o => Sys2Proof.Machine.execKprm k o s
  | .kmov k o => Sys2Proof.Machine.execKmov k o s
  | .klock k o => Sys2Proof.Machine.execKlock k o s
  | .kopen k o => Sys2Proof.Machine.execKopen k o s
  | .kld k o => Sys2Proof.Machine.execKld k o s
  | .kst k o => Sys2Proof.Machine.execKst k o s
  | .kpc k o => Sys2Proof.Machine.execKpc k o s
  | .kddc k o => Sys2Proof.Machine.execKddc k o s
  | .kjmp k o => Sys2Proof.Machine.execKjmp k o s
  | .kmfs k o => Sys2Proof.Machine.execKmfs k o s
  | .kmts k o => Sys2Proof.Machine.execKmts k o s
  | .mfs k rd r => Sys2Proof.Machine.execMfs k rd r s
  | .mts k rs r => Sys2Proof.Machine.execMts k rs r s
  | .tlbiVa k => Sys2Proof.Machine.execTlbiVa k s
  | .tlbiAsid k => Sys2Proof.Machine.execTlbiAsid k s
  | .tlbiAll k => Sys2Proof.Machine.execTlbiAll k s
  | .tlblock k => Sys2Proof.Machine.execTlblock k s
  | .tlbunlock k => Sys2Proof.Machine.execTlbunlock k s
  | .tlbprobe k => Sys2Proof.Machine.execTlbprobe k s
  | .chkpt k rest => Sys2Proof.Machine.execChkpt k rest s
  | .cpwait k => Sys2Proof.Machine.execCpwait k s
  | .wfi k => Sys2Proof.Machine.execWfi k s
  | .wfiWake k => Sys2Proof.Machine.execWfiWake k s
  | .cp0Post k o => Sys2Proof.Machine.execCp0Post k o s
  | .rdjob k o => Sys2Proof.Machine.execRdjob k o s
  | .rdlane k o => Sys2Proof.Machine.execRdlane k o s
  | .cp1Start k o => Sys2Proof.Machine.execCp1Start k o s
  | .cp1Stat k o => Sys2Proof.Machine.execCp1Stat k o s
  | .cp1Cancel k o => Sys2Proof.Machine.execCp1Cancel k o s
  | .cqResultLand k => Sys2Proof.Machine.execCqResultLand k s
  | .interruptEntry k => Sys2Proof.Machine.execInterruptEntry k s
  | .arithException k => Sys2Proof.Machine.execArithException k s
  | .coreGo w k => Sys2Proof.Machine.execCoreGo w k s
  | .csrPatrolScrub line fixed bad => Sys2Proof.Machine.execCsrPatrolScrub line fixed bad s
  | .autoCheckpoint k => Sys2Proof.Machine.execAutoCheckpoint k s
  | .lockstepMismatch k lane => Sys2Proof.Machine.execLockstepMismatch k lane s
  | .recoveryComplete k testOk journalBad => Sys2Proof.Machine.execRecoveryComplete k testOk journalBad s
  | .hbmTempReading x t => Sys2Proof.Machine.execHbmTempReading x t s
  | .hbmRead req a len out bitmap => Sys2Proof.Machine.execHbmRead req a len out bitmap s
  | .hbmWrite req a bytes bad => Sys2Proof.Machine.execHbmWrite req a bytes bad s
  | .mbAgeWriteback x page bad => Sys2Proof.Machine.execMbAgeWriteback x page bad s
  | .mbFlush w x mode => Sys2Proof.Machine.execMbFlush w x mode s
  | .hbmInvalGo w x => Sys2Proof.Machine.execHbmInvalGo w x s
  | .hbmPatrol x page out => Sys2Proof.Machine.execHbmPatrol x page out s
  | .scrGo w x => Sys2Proof.Machine.execScrGo w x s
  | .scrubRangeDone x found => Sys2Proof.Machine.execScrubRangeDone x found s
  | .sillStart w x a => Sys2Proof.Machine.execSillStart w x a s
  | .transferStart x => Sys2Proof.Machine.execTransferStart x s
  | .transferComplete x n => Sys2Proof.Machine.execTransferComplete x n s
  | .transferError x n => Sys2Proof.Machine.execTransferError x n s
  | .sillCancel w x n => Sys2Proof.Machine.execSillCancel w x n s
  | .pcieInboundWrite f x => Sys2Proof.Machine.execPcieInboundWrite f x s
  | .pcieInboundRead f x => Sys2Proof.Machine.execPcieInboundRead f x s
  | .pcieReset flr => Sys2Proof.Machine.execPcieReset flr s
  | .msixMessage f v => Sys2Proof.Machine.execMsixMessage f v s
  | .pfTsnapGo w f => Sys2Proof.Machine.execPfTsnapGo w f s
  | .bootDb len flashA flashB => Sys2Proof.Machine.execBootDb len flashA flashB s
  | .dmaDescriptorStart n => Sys2Proof.Machine.execDmaDescriptorStart n s
  | .dmaDescriptorDone n h => Sys2Proof.Machine.execDmaDescriptorDone n h s
  | .ethFrameReceive p frame good => Sys2Proof.Machine.execEthFrameReceive p frame good s
  | .ethFrameTransmit p => Sys2Proof.Machine.execEthFrameTransmit p s
  | .ethTxDone p => Sys2Proof.Machine.execEthTxDone p s
  | .ethTxtsRead w p => Sys2Proof.Machine.execEthTxtsRead w p s
  | .ethLinkChange p up => Sys2Proof.Machine.execEthLinkChange p up s
  | .ethMdioGo w => Sys2Proof.Machine.execEthMdioGo w s
  | .mdioFrameEnd data => Sys2Proof.Machine.execMdioFrameEnd data s
  | .gclGo w p en => Sys2Proof.Machine.execGclGo w p en s
  | .gclChange p => Sys2Proof.Machine.execGclChange p s
  | .gateEntryAdvance p => Sys2Proof.Machine.execGateEntryAdvance p s
  | .canFrameReceive m f sof => Sys2Proof.Machine.execCanFrameReceive m f sof s
  | .canArbitration m wins => Sys2Proof.Machine.execCanArbitration m wins s
  | .canTxDone m sof => Sys2Proof.Machine.execCanTxDone m sof s
  | .canTxreq w m v => Sys2Proof.Machine.execCanTxreq w m v s
  | .canTxcan w m v => Sys2Proof.Machine.execCanTxcan w m v s
  | .canRxfullRelease w m v => Sys2Proof.Machine.execCanRxfullRelease w m v s
  | .canBusOff m => Sys2Proof.Machine.execCanBusOff m s
  | .canRecover w m ctrl => Sys2Proof.Machine.execCanRecover w m ctrl s
  | .canBusJoin m => Sys2Proof.Machine.execCanBusJoin m s
  | .xspiGo w => Sys2Proof.Machine.execXspiGo w s
  | .xspiReset w => Sys2Proof.Machine.execXspiReset w s
  | .xspiDone data => Sys2Proof.Machine.execXspiDone data s
  | .i2cCgo w => Sys2Proof.Machine.execI2cCgo w s
  | .i2cControllerDone x data => Sys2Proof.Machine.execI2cControllerDone x data s
  | .i2cTargetWrite a data => Sys2Proof.Machine.execI2cTargetWrite a data s
  | .i2cTargetRead a n => Sys2Proof.Machine.execI2cTargetRead a n s
  | .idcode => Sys2Proof.Machine.execIdcode s
  | .samplePreload data => Sys2Proof.Machine.execSamplePreload data s
  | .extest => Sys2Proof.Machine.execExtest s
  | .bypass => Sys2Proof.Machine.execBypass s
  | .voStatCapture => Sys2Proof.Machine.execVoStatCapture s
  | .voChal => Sys2Proof.Machine.execVoChal s
  | .voResp level mac => Sys2Proof.Machine.execVoResp level mac s
  | .voBus a sz write data => Sys2Proof.Machine.execVoBus a sz write data s
  | .halt => Sys2Proof.Machine.execHalt s
  | .breakpointMatch k n => Sys2Proof.Machine.execBreakpointMatch k n s
  | .haltEvent => Sys2Proof.Machine.execHaltEvent s
  | .haltDrainDone => Sys2Proof.Machine.execHaltDrainDone s
  | .step k => Sys2Proof.Machine.execStep k s
  | .resume => Sys2Proof.Machine.execResume s
  | .debugWarm => Sys2Proof.Machine.execDebugWarm s
  | .dropLevel level => Sys2Proof.Machine.execDropLevel level s
  | .trcCtrlEn v => Sys2Proof.Machine.execTrcCtrlEn v s
  | .traceLineWrite => Sys2Proof.Machine.execTraceLineWrite s
  | .rootPllRelock => Sys2Proof.Machine.execRootPllRelock s
  | .rxFrameInvalid l why => Sys2Proof.Machine.execRxFrameInvalid l why s
  | .canBusError m e => Sys2Proof.Machine.execCanBusError m e s
  | .pcieLinkChange up => Sys2Proof.Machine.execPcieLinkChange up s
  | .sdStuckEnd c k bit => Sys2Proof.Machine.execSdStuckEnd c k bit s

end Sys2Proof.Machine
end

