-- ==== Sys2Proof/Machine/Step.lean ====
section
/-!
DEFINITION. Sys2Proof/Machine/Step.lean: one step takes the command at the front of the queue; on an empty queue a tick passes.
-/
namespace Sys2Proof.Machine

/-- One step. [DEDUCED (log 2); DESIGN CHOICE (log 1, 139)] -/
def step (s : State) : Host.Outcome State Fault Refusal :=
  match s.pending with
  | c :: rest => exec c { s with pending := rest }
  | [] => .next (s.tickOver)

/-- The state with the command that a word spells at the front of its queue: the command table gives no row any bits, so none. [DESIGN CHOICE (log 5)] -/
def State.withFetchWord (s : State) (nbits w : Nat) : State :=
  match decodeTableWord nbits w with
  | some c => { s with pending := c :: s.pending }
  | none => s

end Sys2Proof.Machine
end

