-- ==== Sys2Proof/Safety.lean ====
section
/-!
DEFINITION. Sys2Proof/Safety.lean: what counts as a safe state and a safe change, in the terms of the claims.
-/
namespace Sys2Proof.Machine

/-- The canonical form of memory: addresses strictly rising, no byte equal to what an unlisted address reads as. [DESIGN CHOICE (log 9)] -/
def memoryWf (m : List Host.Cell) : Bool := Table.wf (fun _ => 0) m

/-- Every fuse blown in one array is blown in another (03 R83: a fuse is never unblown). -/
def Otp.le (o p : Otp) : Prop :=
  o.rollback ≤ p.rollback ∧ o.revoked &&& p.revoked = o.revoked ∧ o.bootOrder &&& p.bootOrder = o.bootOrder ∧
    (o.xspiFast = true → p.xspiFast = true) ∧ o.dbgCut &&& p.dbgCut = o.dbgCut ∧
    (∀ i, Table.get 0 o.keyHash i &&& Table.get 0 p.keyHash i = Table.get 0 o.keyHash i) ∧
    (∀ i, Table.get 0 o.dbgKey i &&& Table.get 0 p.dbgKey i = Table.get 0 o.dbgKey i) ∧
    o.fcal = p.fcal ∧ o.vendorId = p.vendorId ∧ o.mfrId = p.mfrId

/-- Debug access is in a state that 22 R473 and R474 give it: NONE, NONINVASIVE or FULL, and at most 15 counted failures. -/
def Vopen.legal (v : Vopen) : Prop := v.level ≤ 2 ∧ v.fails ≤ 15

/-- No warm reset that a block asked for is still to start (03 R69). -/
def Dev.quiet (d : Dev) : Prop := d.sys.resetReq = none

/-- A safe state. -/
def State.safe (s : State) : Prop := s.sec.legal ∧ s.dev.quiet

end Sys2Proof.Machine
end

