-- ==== Sys2Proof/Certificates/Slice0/Obligations.lean ====
section
/-!
DEFINITION. Sys2Proof/Certificates/Slice0/Obligations.lean: the statements about the device.

Most say of a command what it does: under which conditions `exec` answers a next state, and which. A command's effect on the
device is followed by `settle`, by which the links, the MSI-X vectors and the trace unit see what it changed; what `settle` itself
may change is a statement of its own.
-/
namespace Sys2Proof.Claims
open Sys2Proof.Machine

/-- The command answers a next state: the device `d`, once the links, vectors and trace have seen it. -/
def Does (i : Instr) (s : State) (d : Dev) : Prop := exec i s = .next (s.withDev d.settle)

/-- The command answers a next state whose device, before `settle`, satisfies `P`. -/
def Gives (i : Instr) (s : State) (P : Dev → Prop) : Prop := ∃ d, Does i s d ∧ P d

/-- Clocked logic runs. -/
abbrev Clocked (s : State) : Prop := s.dev.clocksStill = false

/-- Agents reach the fabric: the clocks run and no reset is in progress. -/
abbrev Reached (s : State) : Prop := s.dev.clocksStill = false ∧ s.dev.sys.reset = .none

/-- A write of `len` bytes that page `p` accepts at offset `o`: the fabric is reached, the page's domain is on and no violation of
01 R32 applies. -/
abbrev Accepts (s : State) (w : Who) (p : PageInfo) (o len v : Nat) : Prop :=
  Reached s ∧ s.dev.domOn p.dom = true ∧ s.dev.pageCause w p o len v true = none

/-- A read that page `p` accepts. -/
abbrev Readable (s : State) (w : Who) (p : PageInfo) (o len : Nat) : Prop :=
  Reached s ∧ s.dev.domOn p.dom = true ∧ s.dev.pageCause w p o len 0 false = none

/-- An accepted write: the device `d`, with an answer that is no error; the tick keeps a note of the write. -/
def Wrote (i : Instr) (s : State) (d : Dev) : Prop := ∃ a len v : Nat, Does i s { d.noteLanded a len v with resp := {} }

/-- The pages that commands name. -/
def pageOwn : PageInfo := ⟨.own, 0, pgOwn, domAon⟩
def pageRst : PageInfo := ⟨.rst, 0, pgRst, domAon⟩
def pagePwr : PageInfo := ⟨.pwr, 0, pgPwr, domAon⟩
def pageOtp : PageInfo := ⟨.otp, 0, pgOtp, domAon⟩
def pageTemp : PageInfo := ⟨.temp, 0, pgTemp, domAon⟩
def pageLintel : PageInfo := ⟨.lintel, 0, pgLintel, domAon⟩
def pageEvf : PageInfo := ⟨.evf, 0, pgEvf, domAon⟩
def pageVt : PageInfo := ⟨.vt, 0, pgVt, domAon⟩
def pageGroup (g : Nat) : PageInfo := ⟨.group, g, pgGroup g, domAon⟩
def pageSash (n : Nat) : PageInfo := ⟨.sash, n, pgSash n, domCas (n / 4)⟩
def pageTpl (t : Nat) : PageInfo := ⟨.tpl, t, tplBase t, domCas (t / 32)⟩
def pageJq (c : Nat) : PageInfo := ⟨.jq, c, pgJq c, domCas c⟩
def pagePwm (n : Nat) : PageInfo := ⟨.pwm, n, pwmPage n, domCas (n / 6)⟩
def pageCmp (n : Nat) : PageInfo := ⟨.cmp, n, pgCmp (n / 4) (n % 4), domAna (n / 4 / 8)⟩
def pageTimer (c ch : Nat) : PageInfo := ⟨.timer, 4 * c + ch / 8, tmrPage c ch, domCas c⟩
def pageEnc (e : Nat) : PageInfo := ⟨.enc, e, pgEnc e, domWing (e / 8)⟩
def pageWdCore (k : Nat) : PageInfo := ⟨.wdc, k, pgWdCore k, domAon⟩
def pageWdCas (c : Nat) : PageInfo := ⟨.wd, c, pgWdCas c, domCas c⟩
def pageTlnb (l : Nat) : PageInfo := ⟨.tlnb, l, pgTlnb l, domLink (l / 16)⟩
def pageIntc (k : Nat) : PageInfo := ⟨.intc, k, pgIntc k, k⟩
def pageHbm (x : Nat) : PageInfo := ⟨.hbm, x, pgHbm x, domHbm x⟩
def pageScrub (x : Nat) : PageInfo := ⟨.scrub, x, pgScrub x, domHbm x⟩
def pageSill (x : Nat) : PageInfo := ⟨.sill, x, pgSill x, domHbm x⟩
def pagePf (f : Nat) : PageInfo := ⟨.pf, f, pgPf f, domHostio⟩
def pageEth (p : Nat) : PageInfo := ⟨.eth, p, pgEth p, domHostio⟩
def pageCan (m : Nat) : PageInfo := ⟨.can, m, pgCan m, domHostio⟩
def pageXspi : PageInfo := ⟨.xspi, 0, pgXspi, domHostio⟩
def pageI2c : PageInfo := ⟨.i2c, 0, pgI2c, domHostio⟩

end Sys2Proof.Claims

open Sys2Proof Sys2Proof.Machine Sys2Proof.Claims

/-! The machine as a whole -/

/-- A step with a command in front of the queue is that command's meaning with the rest of the queue. -/
def Obligations.StepRunsFront : Prop :=
  ∀ (c : Instr) (rest : List Instr) (s : State), step { s with pending := c :: rest } = exec c { s with pending := rest }

/-- First in, first out: a step takes the front command, adds none and leaves the others in their order. -/
def Obligations.QueueFirstInFirstOut : Prop :=
  ∀ s t : State, step s = .next t → t.pending = s.pending.tail

/-- The queue is no part of what a command means: a command leaves every waiting command as it is, and the state it
gives to the rest does not depend on them. -/
def Obligations.CommandIgnoresQueue : Prop :=
  ∀ (i : Instr) (s : State) (q : List Instr),
    (∀ t, exec i s = .next t → exec i { s with pending := q } = .next { t with pending := q }) ∧
    ∃ t, exec i s = .next t

/-- What reset leaves: no command waits; no debug level is granted (22 R473); only PD_AON is on (03 R69, Table 3-3), the count is 0 (04 R85)
and a power-on reset is in progress; nothing is in memory; the state is safe. -/
def Obligations.ResetLeaves : Prop :=
  let d := State.reset.dev
  State.reset.pending = [] ∧ State.reset.sec.level = 0 ∧ d.reg (pgPwr + 0x44) = 0x80000000 ∧
    d.time.count = 0 ∧ d.sys.reset = .powerOn ∧ d.faultOut = true ∧ d.mem = [] ∧ memoryWf d.mem = true ∧ State.reset.safe

/-- Safety is kept by every step: the debug level stays one of 22 R473 with at most 15 failures counted, and no reset request outlives
the command that made it. -/
def Obligations.StepKeepsSafe : Prop := ∀ s t : State, s.safe → step s = .next t → t.safe

/-- A fuse once blown stays blown, whatever step is taken, also where a reset cuts a fuse command short (03 R83, R84). -/
def Obligations.FusesOnlyBlow : Prop := ∀ s t : State, step s = .next t → s.otp.le t.otp

/-- Only a response on VO_RESP raises the debug access level, and only to a level that the OTP permits (22 R474). -/
def Obligations.OnlyResponseRaisesLevel : Prop :=
  ∀ (i : Instr) (s t : State), exec i s = .next t → s.sec.level < t.sec.level →
    ∃ (l : BitVec 2) (mac : BitVec 128), i = .voResp l mac ∧ t.sec.level = l.toNat ∧ l.toNat ≤ s.dev.otp.dbgMax ∧
      s.sec.nonce.isSome = true ∧ t.sec.nonce = none

/-! Register accesses (01) -/

/-- A register write in the register-page window (01 R31, R32, R62; 03 R62): to no page, to a page whose domain is off or with a
violation it is logged and answered with an error, and nothing else changes; else it has its effect. -/
def Sys2Proof.Claims.RegisterWriteAnswers : Prop :=
  ∀ (s : State) (w : Who) (a : BitVec 48) (sz : BitVec 2) (v : W64),
    Reached s → 0xE0000000 ≤ a.toNat → a.toNat < 0xF0000000 →
    let len := 2 ^ sz.toNat
    let x := v.toNat % 2 ^ (8 * len)
    let o := a.toNat % 0x1000
    Does (.registerWrite w a sz v) s (match pageAt a.toNat with
      | none => (s.dev.logAt pgFerr w.req a.toNat len true 8).answerError 8
      | some p =>
        if s.dev.domOn p.dom then match s.dev.pageCause w p o len x true with
          | some c => (s.dev.logAt p.base w.req a.toNat len true c).answerError c
          | none => { (s.dev.pageWrite w p o len x).noteLanded a.toNat len x with resp := {} }
        else (s.dev.logAt pgFerr w.req a.toNat len true 7).answerError 7)

/-- A logged violation (01 R33): the first fills the page's error record and sets its interrupt; a later one sets OVERFLOW and
leaves the record. -/
def Sys2Proof.Claims.ViolationIsLogged : Prop :=
  ∀ (d : Dev) (p req a len cause : Nat) (write : Bool), p % 0x1000 = 0 → pgSysid ≤ p → p < 0xF0000000 →
    let r := d.logAt p req a len write cause
    (d.on p F.H_ERR_VALID = true →
      r.reg (p + 0x14) = d.reg (p + 0x14) ∧ r.reg (p + 0x18) = d.reg (p + 0x18) ∧ bitsOf (r.reg (p + 0x1C)) 0 30 = bitsOf (d.reg (p + 0x1C)) 0 30 ∧
        r.on p F.H_ERR_OVERFLOW = true) ∧
    (d.on p F.H_ERR_VALID = false →
      r.reg (p + 0x14) = BitVec.ofNat 32 a ∧ r.reg (p + 0x18) = BitVec.ofNat 32 (a / 2 ^ 32 % 2 ^ 16) ∧
        bitsOf (r.reg (p + 0x1C)) 0 12 = req % 2 ^ 12 ∧ bitAt (r.reg (p + 0x1C)) 31 = true ∧ bitAt (r.reg (p + 0x24)) 31 = true)

/-- What every page answers (01 R31-R33). -/
def Obligations.RegisterAccesses : Prop :=
  Claims.RegisterWriteAnswers ∧ Claims.ViolationIsLogged

/-- ENABLE (01 R22, R24, R25): clearing EN starts the stop behaviour before EXPERT applies; setting it applies EXPERT and then enables
the page or reports the failed check; EN kept at 1 changes nothing. A group's vote takes EXPERT at once (11 R252). -/
def Sys2Proof.Claims.EnableWrites : Prop :=
  ∀ (s : State) (w : Who) (page : BitVec 36) (p : PageInfo) (en expert : Bool),
    pageAt (0x1000 * page.toNat + 8) = some p → Accepts s w p 8 4 (b2n en + 2 * b2n expert) →
    let d := s.dev
    let x := (d.setB p.base F.H_EXPERT expert).expertEffect p
    let r := if d.en p.base then (if en then d else ((d.disablePage p).setB p.base F.H_EXPERT expert).expertEffect p)
      else if en then x.enablePage p else x
    (en = true → Wrote (.enableSet w page expert) s r) ∧ (en = false → Wrote (.enableClear w page expert) s r) ∧
      Wrote (.expertChange w page en expert) s r

/-- The outcome of setting EN (01 R22, R23): a page still busy, or with a failed check, stays disabled and reports the lowest failing
offset with its code; else EN is 1 before the block acts and CHECK is 0.
That BUSY is judged first is the model's choice (log 150). -/
def Sys2Proof.Claims.EnableJudged : Prop :=
  ∀ (d : Dev) (p : PageInfo), pageAt p.base = some p →
    (d.busy p.base = true → (d.enablePage p).en p.base = d.en p.base ∧ (d.enablePage p).reg (p.base + 0xC) = 0x80009) ∧
    (d.busy p.base = false → ∀ o c, firstFailure (d.pageCheck p) = some (o, c) →
      (d.enablePage p).en p.base = d.en p.base ∧ (d.enablePage p).reg (p.base + 0xC) = BitVec.ofNat 32 (c + o * 2 ^ 16) ∧
        (d.enablePage p).on p.base F.H_CHECK_FAIL = true) ∧
    (d.busy p.base = false → firstFailure (d.pageCheck p) = none →
      ∃ e : Dev, d.enablePage p = e.enableEffect p ∧ e.en p.base = true ∧ e.reg (p.base + 0xC) = 0)

/-- EXPERT changes only while EN reads 0 (01 R25): a write of ENABLE that keeps EN at 1 and changes EXPERT is answered with NOT_LIVE and
changes neither; one that clears EN clears it first and then applies EXPERT; with EN at 0, EXPERT takes its value. -/
def Obligations.ExpertChangesOnlyWhileDisabled : Prop :=
  ∀ (s : State) (w : Who) (page : BitVec 36) (p : PageInfo) (expert : Bool),
    pageAt (0x1000 * page.toNat + 8) = some p → Reached s → s.dev.domOn p.dom = true → s.dev.mayWrite w p 8 = true →
    let d := s.dev
    (d.en p.base = true → d.expert p.base ≠ expert →
      Gives (.expertChange w page true expert) s (fun r => r.resp.error = some 5 ∧ r.reg (p.base + 8) = d.reg (p.base + 8))) ∧
    (d.en p.base = true →
      Wrote (.expertChange w page false expert) s (((d.disablePage p).setB p.base F.H_EXPERT expert).expertEffect p)) ∧
    (d.en p.base = false →
      Wrote (.expertChange w page false expert) s ((d.setB p.base F.H_EXPERT expert).expertEffect p))

/-- A stopping block whose page is busy clears BUSY when it is idle (01 R24, 03 R74). -/
def Sys2Proof.Claims.BlockBecomesIdle : Prop :=
  ∀ (s : State) (page : BitVec 36) (p : PageInfo), Clocked s → pageAt (0x1000 * page.toNat) = some p →
    s.dev.domOn p.dom = true → s.dev.busy p.base = true → s.dev.blockIdle p = true →
    Does (.blockIdle page) s (s.dev.setB p.base F.H_BUSY false)

/-- How a page is enabled, judged, disabled and becomes idle (01 R24, R27-R29, 03 R74). -/
def Obligations.PageEnable : Prop :=
  Claims.EnableWrites ∧ Claims.EnableJudged ∧ Claims.BlockBecomesIdle

/-- Reads that change what they read (01 R13, R33; 03 R73; 04 R87; 13 R285; 21 R461). A read that clears ERR_INFO returns the record from before
the violations of its peripheral cycle, which are then logged as the first of a fresh one. -/
def Obligations.ReadsThatClear : Prop :=
  ∀ (s : State) (w : Who), w.req ≠ 0x3F0 →
    let d := s.dev
    (∀ (page : BitVec 36) (p : PageInfo), pageAt (0x1000 * page.toNat + 0x1C) = some p → Readable s w p 0x1C 4 →
      let seen : ErrCycle := Table.get ⟨0, 0, []⟩ d.errLog p.base
      (seen.cyc ≠ d.tick / 8 + 1 →
        Does (.errInfoRead w page) s { (d.setReg (p.base + 0x1C) 0).setF p.base ⟨0x10, 31, 1⟩ 0 with
          resp := { data := (d.reg (p.base + 0x1C)).toNat } }) ∧
      (seen.cyc = d.tick / 8 + 1 → ∀ v, seen.viols = [v] →
        Gives (.errInfoRead w page) s (fun r => r.resp.data = seen.before.toNat ∧ r.reg (p.base + 0x14) = v.1 ∧
          r.reg (p.base + 0x18) = v.2.1 ∧ r.reg (p.base + 0x1C) = v.2.2 ∧ bitAt (r.reg (p.base + 0x24)) 31 = true))) ∧
    (∀ (a : BitVec 48) (sz : BitVec 2) (p : PageInfo), pageAt a.toNat = some p →
      Readable s w p (a.toNat % 0x1000) (2 ^ sz.toNat) →
      Does (.clearingRead w a sz) s (d.pageRead w p (a.toNat % 0x1000) (2 ^ sz.toNat) false)) ∧
    (Readable s w pageLintel 0x40 4 → Does (.ltNowLoRead w) s { d with
      time := { d.time with hiLatch := Table.put 0 d.time.hiLatch w.req (BitVec.ofNat 32 (d.count / 2 ^ 32)) }
      resp := { data := d.count % 2 ^ 32 } }) ∧
    (Readable s w pageTemp 0x6C 4 →
      Gives (.tsPeakRead w false) s (fun r => r.resp.error = none ∧ r.resp.data % 2 ^ 16 = d.f pgTemp F.TS_PEAK_PEAK ∧
        r.f pgTemp F.TS_PEAK_PEAK = d.f pgTemp F.TS_HOT_VALUE)) ∧
    (Readable s w pageTemp 0x6C 4 →
      Gives (.tsPeakRead w true) s (fun r => r.resp.error = none ∧ r.regs = d.regs)) ∧
    (∀ (c : Fin 16) (ch : Fin 32) (wide : Bool), Readable s w (pageTimer c ch) (0x120 + 0x40 * (ch.val % 8)) (4 + 4 * b2n wide) →
      Gives (.tmrCapRead w c ch wide) s (fun r => r.resp.error = none ∧ r.regs = (d.timerCapRead c ch).regs)) ∧
    (∀ p : Fin 4, Readable s w (pageEth p) 0x90 4 →
      Gives (.ethTxtsRead w p) s (fun r => r.resp.data = (d.reg (pgEth p + 0x90)).toNat ∧ r.eths = (d.txtsRead p false).eths))

/-- Page ownership (01 R36): OWN_GO transfers the staged page to the staged type and reports 0, or reports its refusal and transfers nothing. -/
def Obligations.OwnershipTransfer : Prop :=
  ∀ (s : State) (w : Who), Accepts s w pageOwn 0x4C 4 1 →
    let d := s.dev
    let t := d.stage w.req
    let e := d.setStage w.req { t with stat := BitVec.ofNat 32 (d.ownCode w) }
    (d.ownCode w ≠ 0 → Wrote (.ownGo w) s e) ∧
    (∀ p : PageInfo, d.ownCode w = 0 → pageAt (t.pageLo.toNat + t.pageHi.toNat * 2 ^ 32) = some p → d.domOn p.dom = true →
      Wrote (.ownGo w) s ((e.setF p.base F.H_OTYPE (bitsOf t.type 0 12)).setB p.base F.H_LOCKED (bitAt t.type 31)))

/-! Resets, power and fuses (02, 03) -/

/-- The reset pins (02 R49, 03 R66, R69): each falls and rises; a qualified low starts its reset. PORST_N rises with the supply there. -/
def Sys2Proof.Claims.ResetPins : Prop :=
  ∀ s : State,
    let d := s.dev
    Does .porstNLow s { d with sys := { d.sys with porstLow := true } } ∧
    (d.sys.standby = false → Does .wrstNLow s { d with sys := { d.sys with wrstLow := true } }) ∧
    (d.sys.standby = true → Does .wrstNLow s ({ d with sys := { d.sys with wrstLow := true } }.warmReset 7 0)) ∧
    Does (.resetPinRise true) s { d with sys := { d.sys with porstLow := false, vddAon := true } } ∧
    Does (.resetPinRise false) s { d with sys := { d.sys with wrstLow := false } } ∧
    (d.sys.wrstLow = true → Does .warmReset s (d.warmReset 1 0)) ∧
    (d.sys.porstLow = false → exec .powerOnReset s = .next s)

/-- A power-on reset (03 R69, Table 3-8; 22 R473): every register but PWR_STAT is at its reset value or is driven by a pin, memory and every block's
state are lost, the debug level is NONE and the fuses are kept. PORST_N starts it, and a fall of VDD_AON, whose supply is then gone (02
R47). -/
def Sys2Proof.Claims.PowerOnResetLeaves : Prop :=
  ∀ (s : State) (i : Instr), s.dev.otpCmd = none → (i = .vddAonFall ∨ i = .powerOnReset ∧ s.dev.sys.porstLow = true) →
    ∃ t, exec i s = .next t ∧ t.pending = s.pending ∧ t.otp = s.otp ∧ t.dev.otp = s.otp ∧ t.sec = {} ∧
      (i = .vddAonFall → t.dev.sys.vddAon = false) ∧ t.dev.sys.reset = .powerOn ∧ t.dev.time = {} ∧ t.dev.mem = [] ∧ t.dev.poison = [] ∧ t.dev.tags = [] ∧
      t.dev.cores = [] ∧ t.dev.sashes = [] ∧ t.dev.queues = [] ∧ t.dev.hbms = [] ∧
      t.dev.reg (pgPwr + 0x44) = 0x80000000 ∧ (∀ a, a / 0x1000000 ≠ 0xE7 → a ≠ pgPwr + 0x44 → t.dev.reg a = regReset a)

/-- A warm reset (03 R69, R71, Table 3-8): it sets its cause, counts, keeps the count, the shadow of the fuses, the Shutter and
temperature registers, and loses memory and every block's state. -/
def Sys2Proof.Claims.WarmResetLeaves : Prop :=
  ∀ (d : Dev) (cause info : Nat), d.sys.reset = .none → 1 ≤ cause → cause < 32 →
    let r := d.warmReset cause info
    r.sys.reset = .warm ∧ bitAt (r.reg (pgSysid + 0x44)) cause = true ∧ r.time.count = d.time.count ∧ r.otp = d.otp ∧
      r.mem = [] ∧ r.tags = [] ∧ r.cores = [] ∧ r.sashes = [] ∧ r.queues = [] ∧ r.tls = [] ∧ r.otpCmd = none ∧
      r.reg (pgPwr + 0x44) = 0x80000000 ∧ r.sys.halted = false ∧ r.sys.standby = false ∧ r.quiet

/-- A reset in progress only gains a cause (03 R71). -/
def Sys2Proof.Claims.ResetJoinsReset : Prop :=
  ∀ (d : Dev) (cause info : Nat), d.sys.reset ≠ .none → 1 ≤ cause → cause < 32 →
    let r := d.warmReset cause info
    r.sys.reset = d.sys.reset ∧ bitAt (r.reg (pgSysid + 0x44)) cause = true ∧
      (∀ a, a ≠ pgSysid + 0x44 → a ≠ pgSysid + 0x48 → r.reg a = d.reg a)

/-- The clock and the domains (03 R57, R58, R61): a loss of clock resets the device and holds the count until the PLL relocks, but in standby
and while the PLL restarts after it; a serdes PLL locks; a transition ends, with its PWR_STAT bit as it was asked for. -/
def Sys2Proof.Claims.ClocksAndDomains : Prop :=
  ∀ s : State,
    let d := s.dev
    (∀ a b : Bool, d.sys.standby = false → d.sys.pllWake = false → (a || b) = true →
      Gives (.clockLoss a b) s (fun r => r.sys.reset ≠ .none ∧ r.sys.relockWait = true ∧
        bitAt (r.reg (pgSysid + 0x44)) 5 = true ∧ r.clocksStill = true ∧ r.time.count = d.time.count)) ∧
    (∀ a b : Bool, (d.sys.standby || d.sys.pllWake) = true → Does (.clockLoss a b) s d) ∧
    (d.sys.standby = false → Gives .rootPllRelock s (fun r =>
      r.sys.clkHeld = false ∧ r.sys.relockWait = false ∧ r.on pgClk F.PLL_STAT_ROOT_LOCK = true ∧ r.time = d.time)) ∧
    (∀ i : Fin 3, d.clocksStill = false → bitAt (d.reg (pgClk + 0x44)) i = true →
      d.domOn (match i.val with | 0 => domHostio | 1 => domLink 0 | _ => domLink 1) = true →
      Does (.serdesPllLock i) s (d.setF pgClk ⟨0x40, 2 + i, 1⟩ 1)) ∧
    (∀ (b : Fin 31) (ok : Bool), d.sys.reset = .none → d.inTrans b = true → d.transReady b = true →
      Gives (.domainTransitionEnd b ok) s (fun r => r.statOn b = !d.statOn b ∧ r.inTrans b = false))

/-- The reset sequence ends once no pin, temperature or clock holds it (03 R70, R72): then RSTOUT_N is high and only the domains that the sequence
switches on are on; else it goes on. -/
def Sys2Proof.Claims.ResetSequenceEnds : Prop :=
  ∀ (s : State) (ok : Bool) (a b : List Byte),
    let x := s.dev.sys
    (x.reset ≠ .none → (x.porstLow || x.wrstLow || x.overtempHold || x.relockWait || x.clkHeld) = true →
      Does (.resetSequenceEnd ok a b) s s.dev) ∧
    (x.reset ≠ .none → (x.porstLow || x.wrstLow || x.overtempHold || x.relockWait || x.clkHeld) = false →
      Gives (.resetSequenceEnd ok a b) s (fun r => r.sys.reset = .none ∧ r.sys.rstoutHigh = true ∧
        r.reg (pgPwr + 0x44) = (if s.sec.level = 0 then 0xA0000010 else 0xE0000010)))

/-- How resets come, join and end, and what each leaves (03 R67-R70). -/
def Obligations.Resets : Prop :=
  Claims.ResetPins ∧ Claims.PowerOnResetLeaves ∧ Claims.WarmResetLeaves ∧ Claims.ResetJoinsReset ∧ Claims.ResetSequenceEnds

/-- The junction temperatures (03 R72, R73): the readings and the hottest with the lowest number on a tie are shown; at 135 °C a warm reset
starts and its sequence is held until every sensor reads 120 °C or less. -/
def Sys2Proof.Claims.TemperatureReadings : Prop :=
  ∀ (s : State) (t : List (BitVec 16)), t.length = 8 →
    Gives (.temperatureReading t) s (fun r =>
      (∀ i : Fin 8, r.f pgTemp (F.TS_VAL_VALUE.at (4 * i)) = (t.getD i 0).toNat) ∧
      ((∃ i : Fin 8, 2160 ≤ (t.getD i 0).toInt) → r.sys.reset ≠ .none ∧ r.sys.overtempHold = true ∧
        bitAt (r.reg (pgSysid + 0x44)) 6 = true) ∧
      ((∀ i : Fin 8, (t.getD i 0).toInt ≤ 1920) → r.sys.overtempHold = false))

/-- Writes of the reset, power and fuse registers (02 R50; 03 R60, R65, R69, R84).
That a write takes FORCE before RELEASE, and which domain a refused standby records, are the model's choices (log 151, 152). -/
def Sys2Proof.Claims.PowerRegisterWrites : Prop :=
  ∀ (s : State) (w : Who),
    let d := s.dev
    (Accepts s w pageRst 0x40 4 1 → Wrote (.rstCtrlWarm w) s (d.warmReset 2 0)) ∧
    (∀ f : Bool, Accepts s w pageRst 0xC0 4 (1 + 2 * b2n f) →
      let e := (d.setB pgRst F.FOUT_CTRL_FORCE f).foutUpdate
      Wrote (.foutRelease w f) s (if e.spFailed || f then e.setB pgRst F.FOUT_STAT_REFUSED true
        else (e.setB pgRst F.FOUT_STAT_RESET_HOLD false).foutUpdate)) ∧
    (∀ f : Bool, Accepts s w pageRst 0xC0 4 (2 * b2n f) →
      Wrote (.foutForce w f) s (d.setB pgRst F.FOUT_CTRL_FORCE f).foutUpdate) ∧
    (∀ v : W32, Accepts s w pagePwr 0x40 4 v.toNat → Wrote (.pwrReqWrite w v) s
      (if d.en pgPwr then d.pwrJudge (v &&& 0x7FFFFFFF).toNat
        ((List.range 31).filter (fun b => bitAt (v &&& 0x7FFFFFFF) b != bitAt (d.reg (pgPwr + 0x40)) b))
       else d.setReg (pgPwr + 0x40) (v &&& 0x7FFFFFFF))) ∧
    (Accepts s w pagePwr 0x54 4 1 → Wrote (.standbyEnter w) s d.standbyEnter) ∧
    (Accepts s w pageOtp 0x44 4 1 → d.en pgOtp = true → d.on pgOtp F.OTP_STAT_BUSY = false →
      Wrote (.rollbackAdv w) s (if 64 ≤ d.otp.rollback then d.otpRefuse else d.otpStart .rollbackAdv)) ∧
    (∀ n : BitVec 2, Accepts s w pageOtp 0x44 4 (2 + 4 * n.toNat) → d.en pgOtp = true → d.on pgOtp F.OTP_STAT_BUSY = false →
      Wrote (.revoke w n) s (d.otpStart (.revoke n.toNat))) ∧
    (∀ sel : BitVec 4, Accepts s w pageOtp 0x44 4 (16 + 256 * sel.toNat) → d.en pgOtp = true → d.on pgOtp F.OTP_STAT_BUSY = false →
      Wrote (.fieldGo w sel) s (d.otpGo (BitVec.ofNat 32 (16 + 256 * sel.toNat))))

/-- An accepted fuse command ends (03 R84): the fuses and their shadow are blown, BUSY clears and the page's interrupt 0 sets. -/
def Sys2Proof.Claims.FuseCommandDone : Prop :=
  ∀ (s : State) (c : OtpCmd), s.dev.otpCmd = some c →
    ∃ t, exec .otpCommandDone s = .next t ∧ t.otp = s.otp.blow c ∧
      t.dev = ({ (s.dev.setB pgOtp F.OTP_STAT_BUSY false).irq pgOtp 0 with otp := s.dev.otp.blow c, otpCmd := none }).settle

/-- Clocks, power domains, temperatures and the one-time memory (03 R55-R66, R71-R84). -/
def Obligations.ClocksPowerAndFuses : Prop :=
  Claims.ClocksAndDomains ∧ Claims.TemperatureReadings ∧ Claims.PowerRegisterWrites ∧ Claims.FuseCommandDone

/-! Time (04) -/

/-- STEP_GO (04 R91): a step that no code of Table 4-2 refuses is done at once and the next tick's count takes it; a refused one reports its code
and the blocker, and the count does not move.
What BLOCKER and the other status bit keep is the model's choice (log 153). -/
def Sys2Proof.Claims.StepOfTheCount : Prop :=
  ∀ (s : State) (w : Who), Accepts s w pageLintel 0x58 4 1 →
    let d := s.dev
    (d.stepRefusal = none →
      Gives (.stepGo w) s (fun e => e.on pgLintel F.LT_STAT_STEP_DONE = true ∧ bitAt (e.reg (pgLintel + 0x24)) 0 = true ∧
        e.time = { d.time with stepPending := some (BitVec.ofNat 64 (d.r64 pgLintel 0x50)) } ∧
        e.nextCount = d.time.count + 1 + BitVec.ofInt 64 d.trimCarry + BitVec.ofNat 64 (d.r64 pgLintel 0x50))) ∧
    (∀ c b, d.stepRefusal = some (c, b) → c < 16 → b < 128 →
      Gives (.stepGo w) s (fun e => e.on pgLintel F.LT_STAT_STEP_REFUSED = true ∧ e.f pgLintel F.LT_STAT_REFUSE_CODE = c ∧
        e.f pgLintel F.LT_STAT_BLOCKER = b ∧ bitAt (e.reg (pgLintel + 0x24)) 1 = true ∧ e.time = d.time))

/-- Software events (04 R108): each 1 written to EV_SW_SET_q sets its event, each 1 written to EV_SW_CLR_q clears it, a clear wins over a set of
the same tick, and no other event changes. -/
def Sys2Proof.Claims.SoftwareEvents : Prop :=
  ∀ (s : State) (w : Who) (q : BitVec 2) (v : W32),
    let d := s.dev
    (Accepts s w pageEvf (0x40 + 4 * q.toNat) 4 v.toNat →
      Gives (.evSwSet w q v) s (fun e => ∀ n : Fin 128,
        e.swLevel n = (d.swLevel n || (n.val / 32 == q.toNat && bitAt v (n % 32) && Table.get 0 d.swClr n != d.tick + 1)))) ∧
    (Accepts s w pageEvf (0x50 + 4 * q.toNat) 4 v.toNat →
      Gives (.evSwClr w q v) s (fun e => ∀ n : Fin 128,
        e.swLevel n = (d.swLevel n && !(n.val / 32 == q.toNat && bitAt v (n % 32)))))

/-- The tick (04 R89, R91): once what was due in it is done (`tickEnd`, `settle`), the count takes 1, the trim carry and a pending step, modulo 2^64; the
tick index 1; the step is used up. A TRIM_SKIP is such a tick in which the trim carries. -/
def Sys2Proof.Claims.TrimmedTick : Prop :=
  ∀ (s : State), Clocked s →
    let d := s.dev.tickEnd.settle
    (s.dev.trimCarry ≠ 0 →
      Gives .trimSkip s (fun e => e.time.count = d.time.count + 1 + BitVec.ofInt 64 d.trimCarry + d.time.stepPending.getD 0 ∧
        e.time.tick = d.time.tick + 1 ∧ e.time.stepPending = none ∧ e.time.hiLatch = d.time.hiLatch)) ∧
    (s.dev.trimCarry = 0 → Does .trimSkip s s.dev)

/-- The Lintel count and software events (04 R85-R92, R108). -/
def Obligations.TimeAndSteps : Prop :=
  Claims.SoftwareEvents ∧ Claims.StepOfTheCount ∧ Claims.TrimmedTick

/-- Launch entries (04 R93-R100): an entry fires as its fields stood at the start of the tick, once in it. Without a firing entry nothing
happens; an expert entry without a period that fires is disarmed and DONE, and one that fires late says so. -/
def Sys2Proof.Claims.LaunchFires : Prop :=
  ∀ (s : State) (c : Fin 16), Clocked s → s.dev.domOn (domCas c) = true →
    let d := s.dev
    let v := d.atTick
    let l := (List.range 256).filter (fun e => (d.en (pgLctl c) && d.en (pgLent c (e / 64))) && v.leFires c e)
    (d.acted 0 c = true → Does (.launchFire c) s d) ∧
    (d.acted 0 c = false → l = [] → Gives (.launchFire c) s (fun r => r.regs = d.regs ∧ r.mem = d.mem ∧ r.queues = d.queues ∧
      r.flits = d.flits ∧ r.pulses = d.pulses ∧ r.anchors = d.anchors)) ∧
    (∀ e : Fin 256, d.acted 0 c = false → l = [e.val] → d.expert (pgLctl c) = true → v.expert (pgLctl c) = true → v.lePeriod c e = 0 →
      v.f (lePage c e) F.LE_CTRL_ACTION = 0 → v.on (lePage c e) F.LE_COUNT_FOREVER = false →
      d.landedAt (lePage c e + 0x100) 0x20 = [] →
      Gives (.launchFire c) s (fun r => r.on (lePage c e) F.LE_CTRL_ARM = false ∧ r.on (lePage c e) F.LE_CTRL_DONE = true ∧
        r.mem = d.mem ∧ r.queues = d.queues ∧
        (v.leTime c e < d.count → r.on (lePage c e) F.LE_CTRL_LATE = true ∧ bitAt (r.reg (pgLctl c + 0x24)) 0 = true)))

/-- Deadlines (04 R103, 08 R198): a queued job whose deadline has come leaves its queue as a miss; a running one that has not issued its last
commit is a miss and ends with the tick. A job whose deadline lies ahead is left alone. -/
def Sys2Proof.Claims.DeadlinesMissed : Prop :=
  ∀ (s : State), Clocked s →
    let d := s.dev
    (∀ (c : Fin 16) (k : Nat) (j : Job) (t : Nat), (d.queue c)[k]? = some j → j.deadline = some t →
      Does (.deadlineMiss (.queued c k)) s
        (if d.count < t then d else
          ((d.setQueue c ((d.queue c).eraseIdx k)).recordMiss j).failJob j (4 * c) [9])) ∧
    (∀ (n : Fin 64) (r : Running) (t : Nat), (d.sash n).job = some r → r.job.deadline = some t →
      ((d.count < t ∨ d.lastCommitDone n r = true ∨ r.missed = true) → Does (.deadlineMiss (.running n)) s d) ∧
      (t ≤ d.count → d.lastCommitDone n r = false → r.missed = false → r.job.home < 16 → r.job.desc < 256 →
        Gives (.deadlineMiss (.running n)) s (fun e => (e.sash n).job = some { r with missed := true } ∧ e.mem = d.mem ∧
          Table.get (0, 0) e.jobEnds (256 * r.job.home + r.job.desc) = (3, d.count) ∧
          e.f (pgJq r.job.home) F.JQ_MISSED_MISSED = satInc F.JQ_MISSED_MISSED.width (d.f (pgJq r.job.home) F.JQ_MISSED_MISSED))) ∧
      (r.missed = true → r.job.home < 16 → (∀ i, r.tpl = some i → i < 512) →
        ((d.missEnd n).sash n).job = none ∧ (d.missEnd n).on (pgSash n) F.SASH_STATUS_RUNNING = false ∧ (d.missEnd n).mem = d.mem))

/-- Launch entries and deadlines (04 R93-R103, 08 R198). -/
def Obligations.LaunchesAndDeadlines : Prop :=
  Claims.LaunchFires ∧ Claims.DeadlinesMissed

/-! Sashes (05, 06) -/

/-- A microword issues (05 R114; 06 R148-R153): only where the sash can issue; the words of memory that the command names have gone wrong by
then (05 R123); a word that cannot be corrected, fetched or decoded is a lane
fault with unit SEQ and cause DECODE in the lowest enabled lane; a word with SOP = NEXT and WC = NONE of which no operation faults is added to the words in
flight, and the program counter goes on; it changes no lane and no memory before its results land. -/
def Obligations.MicrowordIssues : Prop :=
  ∀ (s : State) (n : Fin 64), Clocked s →
    let d := s.dev
    let p := pgSash n
    let x := d.sash n
    let here := x.pc % 4096 + b2n (d.csActive n && !decide (4096 ≤ x.pc)) * 2 ^ 12 + b2n (decide (4096 ≤ x.pc)) * 2 ^ 13
    (∀ (c : CodeCheck) (errs : List (Nat × Bool)), d.canIssue n = false → Does (.microwordIssue n c errs) s (d.upset errs)) ∧
    (∀ (errs : List (Nat × Bool)) (r : Running), d.canIssue n = true → x.job = some r →
      Does (.microwordIssue n .uncorrectable errs) s
        (((d.upset errs).inc p F.CS_ECC_UNCORR).laneFault n (lane0 r.lanes) 7 4 here false)) ∧
    (∀ (r : Running), d.canIssue n = true → x.job = some r → r.law = none → (∀ w, d.mwFetch n = some w → mwLegal w = false) →
      Does (.microwordIssue n .good []) s (d.laneFault n (lane0 r.lanes) 7 4 here false)) ∧
    (∀ (r : Running) (w : Nat), d.canIssue n = true → x.job = some r → r.law = none → d.mwFetch n = some w → mwLegal w = true →
      mw w 3 0 = 0 → mw w 25 20 = 0 → d.upsets = [] → d.present.fabric = [] → d.present.fabPois = [] →
      (∀ i ∈ laneList r.lanes, ∃ l, (d.noteIssue n r).mwOps
        ⟨x.nextWord, n, i, d.cyc n, d.tick, mw w 191 191 == 1 && !(d.lane n i).pred⟩ (d.lane n i) w = .ok l) →
      Gives (.microwordIssue n .good []) s (fun e =>
        (e.sash n).pc = (x.pc + 1) % 8192 ∧ (e.sash n).lastIssue = some (d.cyc n) ∧ (e.sash n).nextWord = x.nextWord + 1 ∧
        (∃ y : WordRec, y.id = x.nextWord ∧ y.addr = x.pc % 4096 ∧ y.slot = mw w 185 183 ∧ (e.sash n).words = x.words ++ [y]) ∧
        x.ops <+: (e.sash n).ops ∧ e.lanes = d.lanes ∧ e.mem = d.mem ∧ e.flits = d.flits ∧
        (∀ m, m ≠ n.val → e.sash m = d.sash m)))

/-- Results (05 R113, R132, R133): a due result that agrees with its residue lands in its lane and leaves the flight; one that disagrees for the
first time freezes the sash for its replay and is counted; a replay that ends with no mismatch lifts the freeze, and what was lost moves the
sash's cycles on. -/
def Sys2Proof.Claims.ResultsAndReplays : Prop :=
  ∀ (s : State) (n : Fin 64), Clocked s →
    let d := s.dev
    let p := pgSash n
    let x := d.sash n
    (∀ bad, d.dueOps n = [] → Does (.resultWriteback n bad) s d) ∧
    (∀ (o : InFlight) (r : Running), d.dueOps n = [o] → x.job = some r →
      (o.checked = true → d.injected n o.lane o.unit.code o.tick = false ∧ o.agrees = true) →
        Does (.resultWriteback n []) s (d.landOp n o)) ∧
    (∀ (o : InFlight) (r : Running) (w : WordRec) (i : Fin 4) (u : Fin 5), d.dueOps n = [o] → x.job = some r → x.freeze = none →
      x.words.find? (fun w => w.id == o.word) = some w → w.replayed = false → o.checked = true → o.lane = i → o.unit.code = u →
      d.injected n o.lane o.unit.code o.tick = false →
      Gives (.resultWriteback n [(i, u)]) s (fun e =>
        (e.sash n).freeze = some ⟨d.tick / 2 - x.lost, 1 + o.unit.latency, w.id, d.tick⟩ ∧ e.on p F.SASH_STATUS_FROZEN = true ∧
        e.f p F.REPLAY_CNT_REPLAYS = satInc F.REPLAY_CNT_REPLAYS.width (d.f p F.REPLAY_CNT_REPLAYS) ∧ e.lanes = d.lanes ∧ e.mem = d.mem)) ∧
    (∀ f : Freeze, x.freeze = some f → f.since + x.lost + f.len ≤ d.tick / 2 → x.ops.all (fun o => !o.bad) = true →
      Does (.replayFreezeEnd n []) s
        ((d.setSash n { x with freeze := none, lost := x.lost + f.len }).setB p F.SASH_STATUS_FROZEN false))

/-- A lane fault (05 R134, R135): the job ends at once, the first fault is recorded with its time, the lane counts it, interrupt 0 of the page
sets and the sash's fault event is asserted. -/
def Sys2Proof.Claims.LaneFaultEndsJob : Prop :=
  ∀ (d : Dev) (n : Fin 64) (lane unit cause place : Nat) (inj : Bool) (r : Running), (d.sash n).job = some r → lane < 4 → unit < 8 →
    cause < 8 → place < 2 ^ 14 → r.job.home < 16 → r.job.desc < 256 → (∀ t, r.tpl = some t → t < 512) →
    let p := pgSash n
    let e := d.laneFault n lane unit cause place inj
    (e.sash n).job = none ∧ (e.sash n).ops = [] ∧ e.on p F.SASH_STATUS_LANE_FAULT = true ∧ e.on p F.SASH_STATUS_RUNNING = false ∧
      bitAt (e.reg (p + 0x24)) 0 = true ∧ e.mem = d.mem ∧
      e.f p ⟨0x48, 8 * lane, 8⟩ = satInc 8 (d.f p ⟨0x48, 8 * lane, 8⟩) ∧
      (d.on p F.FAULT_INFO_VALID = true → e.reg (p + 0x4C) = d.reg (p + 0x4C)) ∧
      (d.on p F.FAULT_INFO_VALID = false → e.r64 p 0x50 = d.count ∧ bitsOf (e.reg (p + 0x4C)) 0 2 = lane ∧
        bitsOf (e.reg (p + 0x4C)) 2 3 = unit ∧ bitsOf (e.reg (p + 0x4C)) 5 3 = cause ∧ bitAt (e.reg (p + 0x4C)) 31 = true)

/-- The end of a word (05 R122): the stores it deferred are made and its commit leaves; without a word that can end nothing happens. -/
def Sys2Proof.Claims.WordEnds : Prop :=
  ∀ (s : State) (n : Fin 64), Clocked s →
    let d := s.dev
    let x := d.sash n
    (∀ r, x.job = some r → x.words.find? (d.wordDone n) = none → Does (.wordEnd n) s d) ∧
    (∀ (r : Running) (w : WordRec), x.job = some r → x.words.find? (d.wordDone n) = some w → w.slot = 0 → w.stores = [] →
      Does (.wordEnd n) s (d.setSash n { x with words := x.words.filter (fun y => y.id != w.id) })) ∧
    (∀ (r : Running) (w : WordRec) (y : Deferred), x.job = some r → x.words.find? (d.wordDone n) = some w → w.slot = 0 →
      w.stores = [y] → y.residual = false → d.present.fabric = [] →
      Gives (.wordEnd n) s (fun e => e.mem = (d.store y.addr 4 y.val).mem ∧ e.regs = d.regs ∧ e.lanes = d.lanes ∧ e.flits = d.flits ∧
        (e.sash n).words = x.words.filter (fun y => y.id != w.id))) ∧
    (∀ (r : Running) (w : WordRec), x.job = some r → x.words.find? (d.wordDone n) = some w → w.stores = [] → w.slot ≠ 0 →
      w.commits ≠ [] → (∀ t, r.job.deadline = some t → d.count < t) → nbits (r.job.w (4 + (w.slot - 1))) 0 3 ≠ 0 →
      (d.inj n).next = none →
      Gives (.wordEnd n) s (fun e => e.mem = d.mem ∧ e.regs = d.regs ∧ e.lanes = d.lanes ∧ e.flits.length = d.flits.length + 1 ∧
        ∃ f : Flit, f ∈ e.flits ∧ f.job = r.job.id ∧ f.sash = n ∧ f.cas = r.job.home ∧ f.since = none ∧
          f.shares.length = w.commits.length ∧ f.left = d.tick / 2 ∧ d.tick / 2 * 2 + 24 ≤ f.due))

/-- Commits and deliveries (05 R126, R127, R137; 04 R94): a commit that is due and carries no fence lands, one with a fence is held; a due delivery
leaves the bus for the registers bound to its source. A flit whose CRC fails is sent again 8 ticks later, and is dropped
when it fails again; each is counted; one whose CRC holds is left as it is. `bad` is a payload whose CRC-8 is not `crc`.
How a lost line and a lost access show, and the order of the bits of the CRC, are the model's choices (log 82, 147). -/
def Obligations.FlitsOnTheBuses : Prop :=
  ∀ (s : State) (bad : List Byte) (crc : Byte), Clocked s → crc8 bad ≠ crc.toNat →
    let d := s.dev
    (∀ (x : FlitPlace) (l : List Byte) (y : Byte), crc8 l = y.toNat → Does (.flitRetry ⟨x, l, y⟩) s d) ∧
    ((∀ f ∈ d.flits, f.since.isSome = true ∨ d.tick < f.due) → Does .commitLand s d) ∧
    (∀ f : Flit, d.flits = [f] → f.since = none → f.due ≤ d.tick →
      (f.fence = none → Does .commitLand s (({ d with flits := [] } : Dev).landFlit f)) ∧
      (f.fence ≠ none → Does .commitLand s { d with flits := [{ f with since := some d.tick }] })) ∧
    ((∀ v ∈ d.deliveries, d.tick < v.due) → Does .inboundDelivery s d) ∧
    (∀ v : Delivery, d.deliveries.find? (fun v => decide (v.due ≤ d.tick)) = some v →
      Does .inboundDelivery s (({ d with deliveries := d.deliveries.erase v } : Dev).deliverTo v.reach.1 v.reach.2 v)) ∧
    (∀ (k : Nat) (v : Delivery), d.deliveries[k]? = some v → d.boundSashes v = [] →
      Does (.flitRetry ⟨.delivery k, bad, crc⟩) s (if v.retried then { d with deliveries := d.deliveries.eraseIdx k }
        else { d with deliveries := d.deliveries.set k { v with due := v.due + 8, retried := true } })) ∧
    (∀ (k : Nat) (f : Flit), d.flits[k]? = some f → f.since = none → f.retried = false →
      Does (.flitRetry ⟨.commit k, bad, crc⟩) s { d.inc (pgSash f.sash) F.XPORT_CNT_RETRY with
        flits := d.flits.set k { f with due := f.due + 8, retried := true } }) ∧
    (∀ (n : Fin 64) (i : Option (Fin 4)) (a : Nat) (str : Bool),
      Does (.flitRetry ⟨.line n i a str false, bad, crc⟩) s (d.inc (pgSash n) F.XPORT_CNT_RETRY)) ∧
    (∀ (n : Fin 64) (i : Fin 4) (k : Fin 256), Gives (.flitRetry ⟨.line n (some i) (64 * k) false true, bad, crc⟩) s (fun e =>
      e.poisoned (laneMem n i (64 * k)) = true ∧ e.mem = d.mem ∧ e.on (pgSash n) F.SASH_STATUS_XPORT_DROP = true)) ∧
    (∀ n : Fin 64, Does (.flitRetry ⟨.access n false, bad, crc⟩) s (d.inc (pgSash n) F.XPORT_CNT_RETRY) ∧
      Gives (.flitRetry ⟨.access n true, bad, crc⟩) s (fun e => e.resp.error = some 0 ∧ e.mem = d.mem ∧
        e.on (pgSash n) F.SASH_STATUS_XPORT_DROP = true))

/-- Waits (06 R156-R158; 07 R173): a true condition is consumed and the successor issues one cycle after the issue, or 5 cycles later if it
came true later; a wait that times out goes to its target, or ends a template's job. -/
def Sys2Proof.Claims.WaitsEnd : Prop :=
  ∀ (s : State) (n : Fin 64) (r : Running) (wc t issue tgt : Nat), Clocked s →
    let d := s.dev
    (d.sash n).job = some r → r.phase = .waiting wc t issue tgt → d.live (pgSash n) = true →
    (d.waitTrue n wc r = false → Does (.waitWake n) s d) ∧
    (d.waitTrue n wc r = true → (t = 0 ∨ d.cyc n < issue + 16 * t) →
      Does (.waitWake n) s ((d.waitConsume n wc r).setPhase n r (.waking (if d.cyc n = issue then issue + 1 else d.cyc n + 5)))) ∧
    ((t = 0 ∨ d.cyc n < issue + 16 * t) → Does (.waitTimeout n) s d) ∧
    (t ≠ 0 → issue + 16 * t ≤ d.cyc n → r.missed = false → r.law = none →
      Does (.waitTimeout n) s ((d.setSash n { d.sash n with pc := tgt }).setPhase n r .run)) ∧
    (t ≠ 0 → issue + 16 * t ≤ d.cyc n → r.missed = false → r.law ≠ none → r.job.home < 16 → r.job.desc < 256 → (∀ i, r.tpl = some i → i < 512) →
      Gives (.waitTimeout n) s (fun e => (e.sash n).job = none ∧ e.mem = d.mem ∧ e.on (pgSash n) F.SASH_STATUS_RUNNING = false))

/-- What issued microwords leave: results, the ends of words and of waits, lane faults (05, 06). -/
def Obligations.WordsAndResults : Prop :=
  Claims.ResultsAndReplays ∧ Claims.WordEnds ∧ Claims.LaneFaultEndsJob ∧ Claims.WaitsEnd

/-- The control store's load commands (06 R164, R165): each acts or reports that it comes out of order. -/
def Sys2Proof.Claims.ControlStoreCommands : Prop :=
  ∀ (s : State) (w : Who) (n : Fin 64),
    let d := s.dev
    let p := pgSash n
    let wrong : Dev → Dev := fun e => e.setF p F.CS_STAT_RESULT 8
    let opened : Dev := if d.on p F.CS_STAT_SWAP_PENDING || d.on p F.CS_STAT_CHECKING then wrong d
      else ((d.setF p (d.inactiveVer n) 0).setB p F.LOAD_CTRL_OPEN true).setB p F.CS_STAT_OPEN true
    (Accepts s w (pageSash n) 0x8C 4 1 → Wrote (.loadOpen w n) s opened) ∧
    (Accepts s w (pageSash n) 0x8C 4 0 →
      Wrote (.loadClose w n) s ((d.setB p F.LOAD_CTRL_OPEN false).setB p F.CS_STAT_OPEN false)) ∧
    (Accepts s w (pageSash n) 0x8C 4 2 →
      (d.on p F.CS_STAT_OPEN = false → Wrote (.loadCheck w n) s (wrong d)) ∧
      (d.on p F.CS_STAT_OPEN = true → Gives (.loadCheck w n) s (fun e => e.on p F.CS_STAT_OPEN = false ∧ e.on p F.CS_STAT_CHECKING = true ∧
        (e.sash n).check = some (d.f p F.LOAD_VER_VER, d.f p F.LOAD_LEN_LEN, d.f p F.LOAD_CRC_CRC) ∧ e.mem = d.mem))) ∧
    (Accepts s w (pageSash n) 0x8C 4 4 →
      Wrote (.loadSwap w n false) s
        (if d.f p (d.inactiveVer n) = 0 ∨ d.on p F.CS_STAT_OPEN = true ∨ d.on p F.CS_STAT_CHECKING = true then wrong d
         else (d.setB p F.CS_STAT_SWAP_PENDING true).setSash n { d.sash n with swapAt := d.tick / 2 + 1 })) ∧
    (Accepts s w (pageSash n) 0x8C 4 5 → Wrote (.loadSwap w n true) s (opened.loadSwap n)) ∧
    (Accepts s w (pageSash n) 0x8C 4 8 →
      Wrote (.loadCancel w n false) s (if d.on p F.CS_STAT_SWAP_PENDING
        then (d.setB p F.CS_STAT_SWAP_PENDING false).setF p F.CS_STAT_RESULT 9 else wrong d)) ∧
    (Accepts s w (pageSash n) 0x8C 4 9 → Wrote (.loadCancel w n true) s (opened.loadCancel n))

/-- The end of an image check and a bank swap (06 R164): an image that passes is recorded with its version and length in the inactive bank; at a
job boundary, from the cycle after the request on, a pending swap inverts the active bank. -/
def Sys2Proof.Claims.BanksCheckedAndSwapped : Prop :=
  ∀ (s : State) (n : Fin 64), Clocked s →
    let d := s.dev
    let p := pgSash n
    ((d.sash n).check = none → Does (.loadCheckDone n) s d) ∧
    (∀ ver len crc, (d.sash n).check = some (ver, len, crc) → ver < 2 ^ 32 →
      Gives (.loadCheckDone n) s (fun e => e.on p F.CS_STAT_CHECKING = false ∧ e.f p F.CS_STAT_RESULT = d.loadJudge n ver len crc ∧
        bitAt (e.reg (p + 0x24)) 3 = true ∧ (e.sash n).check = none ∧ e.mem = d.mem ∧
        (d.loadJudge n ver len crc = 1 → e.f p (d.inactiveVer n) = ver ∧
          (if d.csActive n then (e.sash n).lenA else (e.sash n).lenB) = len))) ∧
    (d.on p F.CS_STAT_SWAP_PENDING = true → (d.sash n).job = none → (d.sash n).swapAt ≤ d.tick / 2 → d.domOn (domCas (n / 4)) = true →
      Gives (.bankSwap n) s (fun e => e.csActive n = (!d.csActive n) ∧ e.on p F.CS_STAT_SWAP_PENDING = false ∧
        e.f p F.CS_STAT_RESULT = 7 ∧ bitAt (e.reg (p + 0x24)) 4 = true ∧ e.sashes = d.sashes ∧ e.mem = d.mem)) ∧
    (d.on p F.CS_STAT_SWAP_PENDING = false → Does (.bankSwap n) s d)

/-- The control store of a sash (06 R160-R165). -/
def Obligations.ControlStore : Prop :=
  Claims.ControlStoreCommands ∧ Claims.BanksCheckedAndSwapped

/-! Jobs and templates (07, 08) -/

/-- Event selections and template pages (06 R157; 07 R178): a write of EVSEL_k clears that event's latch; a write of TPL_PROG that changes
PROG gives every context word of the page its reset value for the new program. -/
def Sys2Proof.Claims.SelectionsAndTemplates : Prop :=
  ∀ (s : State) (w : Who),
    let d := s.dev
    (∀ (n : Fin 64) (k : BitVec 4) (e : BitVec 11), Accepts s w (pageSash n) (0x180 + 4 * k.toNat) 4 e.toNat →
      Gives (.evselWrite w n k e) s (fun r => r.f (pgSash n) (F.EVSEL_EVENT.at (4 * k.toNat)) = e.toNat ∧
        Table.get 0 (r.sash n).evMark k.toNat = d.pulsesSeen (some (n / 4)) e.toNat ∧ (r.sash n).job = (d.sash n).job ∧ r.mem = d.mem)) ∧
    (∀ (t : Fin 512) (v : W32), Accepts s w (pageTpl t) 0x40 4 v.toNat →
      (v.toNat % 65536 ≠ d.f (tplBase t) F.TPL_CTRL_PROG →
        Gives (.tplProgWrite w t v) s (fun r => r.f (tplBase t) F.TPL_CTRL_PROG = v.toNat % 65536 ∧ r.mem = d.mem ∧
          ∀ (i : Fin 4) (k : Fin 240), r.tc t i k = tcReset (v.toNat % 65536) k % 2 ^ 32)) ∧
      (v.toNat % 65536 = d.f (tplBase t) F.TPL_CTRL_PROG →
        Gives (.tplProgWrite w t v) s (fun r => ∀ (i : Fin 4) (k : Fin 240), r.tc t i k = d.tc t i k)))

/-- Posts (08 R188-R190, R199, R201): a post that no check refuses is the youngest job of its queue; a refused one is counted and recorded and
leaves the queue; a flush removes every job but those posted in its own tick; a fallback is posted in the tick after its failure, behind the
posts of launch entries and of lower sashes. -/
def Sys2Proof.Claims.PostsAndFlushes : Prop :=
  ∀ (s : State) (w : Who) (c : Fin 16),
    let d := s.dev
    (∀ (i : BitVec 8) (ofs : W32), Accepts s w (pageJq c) 0x48 8 (i.toNat + ofs.toNat * 2 ^ 32) →
      let j := d.posting c i.toNat (d.offsetDeadline ofs.toNat) false
      (d.postRefusal j = none → j.fallback = false →
        Gives (.jqPost w c i ofs) s (fun e => e.queue c = d.queue c ++ [j] ∧ e.jobSeq = d.jobSeq + 1 ∧ e.mem = d.mem ∧
          e.f (pgJq c) F.JQ_POSTED_POSTED = satInc F.JQ_POSTED_POSTED.width (d.f (pgJq c) F.JQ_POSTED_POSTED) ∧
          e.f (pgJq c) F.JQ_STAT_DEPTH = (d.queue c).length + 1)) ∧
      (∀ code, d.postRefusal j = some code → j.fallback = false →
        Gives (.jqPost w c i ofs) s (fun e => e.queue c = d.queue c ∧ e.jobSeq = d.jobSeq ∧ e.mem = d.mem ∧
          e.f (pgJq c) F.JQ_REFUSED_CNT_REFUSED = satInc F.JQ_REFUSED_CNT_REFUSED.width (d.f (pgJq c) F.JQ_REFUSED_CNT_REFUSED) ∧
          e.on (pgJq c) F.JQ_STATUS_REFUSED = true ∧ bitAt (e.reg (pgJq c + 0x24)) 0 = true ∧
          (d.on (pgJq c) F.JQ_REFUSE_VALID = false → e.f (pgJq c) F.JQ_REFUSE_CODE = code ∧ e.f (pgJq c) F.JQ_REFUSE_DESC = i.toNat)))) ∧
    (Accepts s w (pageJq c) 0x54 4 1 → Gives (.jqFlush w c) s (fun e =>
      (d.present.posts.all (fun x => x.cas != c) = true → e.queue c = []) ∧
      (∀ j ∈ e.queue c, j.entered = d.tick) ∧ e.mem = d.mem ∧ e.sashes = d.sashes ∧
      (∀ c' : Fin 16, c' ≠ c → e.queue c' = d.queue c'))) ∧
    (Clocked s →
      (∀ f, d.fallbacks.head? = some f → d.tick ≤ f.tick → Does .fallbackPost s d) ∧
      (d.fallbacks = [] → Does .fallbackPost s d) ∧
      (∀ f rest, d.fallbacks = f :: rest → f.tick < d.tick →
        let e : Dev := { d with fallbacks := rest }
        Does .fallbackPost s (e.post f.job.home (f.job.fld 1 0 8) (e.offsetDeadline (f.job.w 11)) true (1 + f.sash))))

/-- Templates and job queues as software reaches them (07, 08). -/
def Obligations.TemplatesAndQueues : Prop :=
  Claims.SelectionsAndTemplates ∧ Claims.PostsAndFlushes

/-- Dequeues and steals (08 R192-R197): at its boundary a sash takes the oldest eligible job of its queue, unless lower sashes of its casement
choose too, which take theirs first; one that finds none, in WING mode, takes an eligible job of another casement of its wing, which is counted at both. A job taken has left its queue and runs on the lanes that both
sash and job enable. -/
def Sys2Proof.Claims.JobsTaken : Prop :=
  ∀ (s : State) (n : Fin 64), Clocked s →
    let d := s.dev
    let c := n.val / 4
    (d.atBoundary n = false → Does (.jobDequeue n) s d ∧ Does (.jobSteal n) s d) ∧
    (∀ (j : Job) (e : Nat), (d.homeChoices c).find? (fun x => x.1 == n.val) = some (n.val, j, e) →
      Does (.jobDequeue n) s (d.takeJob n j e false) ∧ Does (.jobSteal n) s d) ∧
    (∀ (j : Job) (e : Nat), d.atBoundary n = true → (∀ m, m / 4 = c → m < n → d.atBoundary m = false) →
      firstJob (d.canTake n) (d.queue c) = some (j, e) → Does (.jobDequeue n) s (d.takeJob n j e false)) ∧
    (∀ (j : Job) (e : Nat), d.atBoundary n = true → (∀ m, m / 32 = n.val / 32 → m ≠ n → d.atBoundary m = false) → d.jqModeNow c = 2 →
      firstJob (d.canTake n) (d.queue c) = none →
      ((List.range 7).map (fun k => 8 * (c / 8) + (c % 8 + 1 + k) % 8)).findSome? (fun h => firstJob (d.canSteal n) (d.queue h)) =
        some (j, e) →
      Does (.jobSteal n) s (((((d.takeJob n j e true).inc (pgJq j.home) F.JQ_STOLEN_STOLEN).inc (pgJq c) F.JQ_THEFTS_THEFTS).inc
        (pgWing (c / 8)) F.WS_STEALS_STEALS).setReg (pgWing (c / 8) + 0x4C) (BitVec.ofNat 32 (n + j.home * 2 ^ 8 + j.desc * 2 ^ 12)))) ∧
    (∀ (j : Job) (e : Nat) (st : Bool), j.home < 16 →
      let r := d.takeJob n j e st
      (r.sash n).pc = e ∧ (r.sash n).stack = [] ∧ (r.sash n).words = [] ∧ r.on (pgSash n) F.SASH_STATUS_RUNNING = true ∧
        r.queue j.home = (d.queue j.home).erase j ∧
        ∃ x, (r.sash n).job = some x ∧ x.job = j ∧ x.entry = e ∧ x.stolen = st ∧ x.commits = 0 ∧
          (j.tplJob = false → x.lanes = (d.f (pgSash n) F.SASH_CTRL_LANE_EN &&& j.laneMask)))

/-- The end of a job (06 R155; 07 R171, R172; 08 R195): once all its results have landed the values of its capture record are taken (09
R214), and a user job writes its accumulators into lane memory and
its lines back; a template job writes its state words to its page unless that is disabled; then the sash is free and the job is done. -/
def Sys2Proof.Claims.JobsEnd : Prop :=
  ∀ (s : State) (n : Fin 64) (r : Running), Clocked s →
    let d := s.dev
    let x := d.sash n
    let lanes := laneList r.lanes
    x.job = some r →
    (r.phase = .ended → x.ops = [] → x.words = [] → x.freeze = none → r.dropped = false → r.missed = false →
      lanes.all (fun i => !(d.lane n i).fpnan) = true →
      let q := { r with cap := d.capValues n (lane0 r.lanes) r.committed }
      (r.tpl = none → Does (.jobEnd n) s ((lanes.foldl (fun (d : Dev) i => (d.forN r.job.accN (fun k d =>
        d.store (laneMem n i (8 * k)) 8 (Table.get 0 (d.lane n i).acc k).toNat)).clearUpsets (laneMem n i 0) (8 * r.job.accN)) d).setPhase
          n q .writeBack)) ∧
      (∀ t, r.tpl = some t → d.en (tplBase t) = true → Does (.jobEnd n) s (d.setPhase n q .writeBack)) ∧
      (∀ t, r.tpl = some t → d.en (tplBase t) = false → Does (.jobEnd n) s (d.jobDone n q false))) ∧
    (x.ops ≠ [] → Does (.jobEnd n) s d) ∧
    (r.phase = .writeBack → r.tpl = none →
      Does (.jobWriteBackDone n) s ((lanes.foldl (fun (d : Dev) i => d.forN r.job.wbLines (fun k d =>
        d.copyLines (laneMem n i (64 * k)) (r.job.ctxAddr + i * r.job.stride + 64 * k) 1)) d).jobDone n r true)) ∧
    (∀ t, r.phase = .writeBack → r.tpl = some t →
      Does (.templateWriteBack n) s (if d.en (tplBase t) then
        (((lanes.foldl (fun (d : Dev) i => d.forN 48 (fun k d => d.writeBackWord n t i (192 + k) r)) d).inc (tplBase t)
          F.TPL_RUNS_RUNS).setR64 (tplBase t) 0x50 d.count).jobDone n r true
       else d.jobDone n r false))

/-- Jobs from their start to their end (08). -/
def Obligations.JobsRun : Prop :=
  Claims.JobsTaken ∧ Claims.JobsEnd

/-! Supervision (09) -/

/-- Peephole (09 R205-R209): a measured delivery of a basic-level monitor is judged 6 ticks later and steps the model 48 ticks later, or is skipped
and counted within 48 ticks of the step before; stepped states take effect, before a delivery of their tick, unless software wrote them; a residual outside every window is
counted, one inside is a sample and, outside the limits, a violation; a trip reaches the Shutter matrix. -/
def Sys2Proof.Claims.PeepholeJudges : Prop :=
  ∀ (s : State) (m : Fin 256), Clocked s →
    let d := s.dev
    let p := monPage m
    let x := d.mon m
    (x.arrived = [] → Does (.monitorDelivery m) s (d.monUpdate m)) ∧
    (∀ y t rest, x.arrived = (y, t) :: rest → d.live p = true → d.expert p = false → (∀ q, x.steps.head? = some q → d.tick < q.1) →
      ((∃ u, x.lastStep = some u ∧ d.tick < u + 48) → Does (.monitorDelivery m) s
        ((((d.setMon m { x with arrived := rest }).inc p F.PH_SKIP_CNT_SKIPS).setB p F.MON_STATUS_SKIPPED true).irq p 1)) ∧
      ((∀ u, x.lastStep = some u → u + 48 ≤ d.tick) → Gives (.monitorDelivery m) s (fun e =>
        (e.mon m).arrived = rest ∧ (e.mon m).lastStep = some d.tick ∧ e.regs = d.regs ∧ e.mem = d.mem ∧
        (e.mon m).judges = x.judges ++ [(codeOf 32 (satI 32 (signedOf 32 y - d.monPredict m)), codeOf 32 (d.monPredict m), t, d.tick + 6)] ∧
        (e.mon m).steps = [(d.tick + 48, (List.range (d.f p F.PH_CTRL_ORDER)).map (d.monStep m))]))) ∧
    (∀ t v rest, x.steps = (t, [v]) :: rest → t ≤ d.tick → d.live p = true →
      Does (.modelStateUpdate m) s
        ((if x.stepKept.contains 0 then d else d.setReg (p + 0x1A0) (BitVec.ofNat 32 v)).setMon m { x with steps := rest, stepKept := [] })) ∧
    (x.steps = [] → Does (.modelStateUpdate m) s d) ∧
    (∀ r yhat u t rest, x.judges = (r, yhat, u, t) :: rest → t ≤ d.tick → d.live p = true → d.expert p = true →
      x.prev = none →
      (x.cur = none → Does (.residualJudge m) s
        ((((d.setReg (p + 0x80) (BitVec.ofNat 32 r)).setR64 p 0x88 u).setMon m { x with judges := rest }).inc p F.PH_OUTSIDE_CNT_OUTSIDE)) ∧
      (∀ v : Window, x.cur = some v → v.final = false → v.lo ≤ u → u < v.hi →
        let bad := decide (signedOf 32 r < d.fs p F.PH_RLO_RLO) || decide (d.fs p F.PH_RHI_RHI < signedOf 32 r)
        let viol := if bad then v.viol + 1 else v.viol
        let hot := decide (d.f p F.PH_THRESH_THRESH < viol) && !v.trig
        Gives (.residualJudge m) s (fun e => (e.mon m).judges = rest ∧
          (e.mon m).cur = some { v with samples := v.samples + 1, viol := viol, trig := v.trig || hot } ∧ e.mem = d.mem ∧
          (hot = true → e.on p F.MON_STATUS_TRIGGERED = true)))) ∧
    (x.judges = [] → Does (.residualJudge m) s d) ∧
    (∀ t v, x.vtrips = [(t, v)] → t ≤ d.tick → Does (.peepholeVtrip m) s
      (((d.setMon m { x with vtrips := [] }).act 10 v).vtSet (BitVec.ofNat 64 (2 ^ v)))) ∧
    ((∀ e ∈ x.vtrips, d.tick < e.1) → Does (.peepholeVtrip m) s d)

/-- Test signals and captures (09 R212, R215): an update that is due takes the next value of its type, or ends the generator; an accepted record
leaves the buffer for HBM and moves the write pointer round its ring. -/
def Sys2Proof.Claims.InjectionAndCapture : Prop :=
  ∀ (s : State) (n : Fin 64), Clocked s →
    let d := s.dev
    let p := pgInj n
    (∀ u, (d.inj n).next = some u → d.count < u → Does (.injectionUpdate n) s d) ∧
    (∀ u, (d.inj n).next = some u → u ≤ d.count → d.live p = true → d.injEnds n = true →
      Gives (.injectionUpdate n) s (fun e => (e.inj n).next = none ∧ e.injG n = 0 ∧ e.on p F.INJ_STATUS_RUNNING = false ∧
        e.on p F.INJ_STATUS_DONE = true ∧ bitAt (e.reg (p + 0x24)) 0 = true ∧ e.mem = d.mem)) ∧
    (∀ u, (d.inj n).next = some u → u ≤ d.count → d.live p = true → d.injEnds n = false →
      Gives (.injectionUpdate n) s (fun e => (e.inj n).next = some (u + max 1 (d.f p F.INJ_STEP_STEP)) ∧
        (e.inj n).k = (d.inj n).k + 1 ∧ e.f p F.INJ_VALUE_G = codeOf 32 (d.injValue n) ∧ e.on p F.INJ_STATUS_RUNNING = true ∧
        e.mem = d.mem)) ∧
    ((d.cap n).buffer = [] → Does (.captureWriteDone n) s d) ∧
    (∀ r rest, (d.cap n).buffer = r :: rest →
      Gives (.captureWriteDone n) s (fun e => (e.cap n).buffer = rest ∧
        e.mem = (d.putClean (d.r64 (pgCap n) 0x48 + (d.reg (pgCap n + 0x58)).toNat) r).mem ∧
        e.reg (pgCap n + 0x58) = BitVec.ofNat 32 (((d.reg (pgCap n + 0x58)).toNat + r.length) % 2 ^ d.f (pgCap n) ⟨0x50, 0, 5⟩)))

/-- The peephole monitor, injection and capture (09). -/
def Obligations.Peepholes : Prop :=
  Claims.PeepholeJudges ∧ Claims.InjectionAndCapture

/-! PWM (10) -/

/-- Counter events (10 R220-R222, R229, R241): a wrap that is due, and no sync load of the tick takes, starts a period from 0 with the period in
effect that the shadow held at the start of the tick; the period event pulses once at PERIOD_ACT; a counter that reaches its highest value under PERIOD_OFF stalls. Not due, each does nothing. -/
def Sys2Proof.Claims.PwmCounterEvents : Prop :=
  ∀ (s : State) (n : Fin 96), Clocked s →
    let d := s.dev
    let p := pwmPage n
    let w := d.pwm n
    ((d.pwmCounting n && w.wrapDue) = false → Does (.pwmReload n) s d) ∧
    ((d.pwmCounting n && w.wrapDue) = true → d.syncNow n = false → d.acted 7 n = false →
      Gives (.pwmReload n) s (fun e => e.pwmCnt n = 0 ∧ e.pwmPer n = d.atTick.f p F.PWM_PERIOD_PERIOD ∧ e.on p F.PWM_STATUS_RUNNING = true ∧
        e.on p F.PWM_STATUS_STALL = false ∧ (e.pwm n).wrapDue = false ∧ (e.pwm n).reloadTick = some d.tick ∧
        (e.pwm n).lastZero = some d.count ∧ e.mem = d.mem)) ∧
    (let due := d.pwmEvents n && !d.pwmOff n && d.pwmCnt n == d.pwmPer n && !w.wrapDue && !d.syncNow n &&
       Table.get 0 w.seen 2 != d.tick + 1
     (due = false → Does (.pwmPeriodEvent n) s d) ∧
     (due = true → Gives (.pwmPeriodEvent n) s (fun e =>
       e.pulsesOf (evCas (n / 6) (3 * (n % 6) + 1)) = d.pulsesOf (evCas (n / 6) (3 * (n % 6) + 1)) + 1 ∧
       Table.get 0 (e.pwm n).seen 2 = d.tick + 1 ∧ e.mem = d.mem))) ∧
    (let due := d.pwmCounting n && d.pwmOff n && d.pwmCnt n == 0xFFFFFFFF && !d.on p F.PWM_STATUS_STALL
     Does (.pwmStall n) s (if due then (d.setB p F.PWM_STATUS_STALL true).irq p 4 else d))

/-- Edges and dead time (10 R223-R226): a lone set or clear match moves REF at its step, turns the other output off and, with
the outputs released, sends that into the output pipeline and makes this one's turn-on due after its dead time; a dead time that ends
before REF changes again turns its output on. -/
def Sys2Proof.Claims.PwmEdges : Prop :=
  ∀ (s : State) (n : Fin 96), Clocked s →
    let d := s.dev
    let p := pwmPage n
    let w := d.pwm n
    (d.pwmMatching n = false → Does (.pwmCompareMatch n) s d) ∧
    (∀ (k : Nat) (r : Fin 2), d.pwmMatching n = true → d.pwmForced n = none → k < 16 →
      d.pwmEdges n r = [⟨k, r.val == 1, false⟩] → d.pwmEdges n (1 - r.val) = [] → d.on p F.PWM_OUT_REF = (r.val == 1) →
      d.f p F.PWM_CTRL_CMP_EV = 0 →
      Gives (.pwmCompareMatch n) s (fun e => e.on p F.PWM_OUT_REF = (r.val == 0) ∧
        (r.val = 0 → e.on p F.PWM_OUT_L_ON = false) ∧ (r.val = 1 → e.on p F.PWM_OUT_H_ON = false) ∧
        (e.pwm n).dead = (if w.released then
          some (r.val, 16 * d.tick + k + (if r.val = 0 then d.f p F.PWM_DTR_DTR else d.f p F.PWM_DTF_DTF)) else none) ∧
        (w.released = true → ∃ l x, (e.pwm n).pipe = l ++ [x] ∧ x.out = 1 - r.val ∧ x.on = false) ∧ e.mem = d.mem)) ∧
    (w.dead = none → Does (.deadTimeExpire n) s d) ∧
    (∀ (o : Fin 2) (pos : Nat), w.dead = some (o.val, pos) → pos / 16 ≤ d.tick → d.live p = true →
      (d.pwmMatching n && (d.pwmEdges n 0 ++ d.pwmEdges n 1).any (fun x => decide (16 * d.tick + x.step ≤ pos))) = false →
      Gives (.deadTimeExpire n) s (fun e => (e.pwm n).dead = none ∧
        (o.val = 0 → e.on p F.PWM_OUT_H_ON = true) ∧ (o.val = 1 → e.on p F.PWM_OUT_L_ON = true) ∧ e.mem = d.mem)) ∧
    (∀ (o : Fin 2) (pos : Nat), w.dead = some (o.val, pos) → d.tick < pos / 16 → Does (.deadTimeExpire n) s d)

/-- The PWM generators' counters and pads (10). -/
def Obligations.PwmCountersAndPads : Prop :=
  Claims.PwmCounterEvents ∧ Claims.PwmEdges

/-- Writes of compares and periods (10 R228-R232): stored at once while disabled or in shadow mode outside the guard window, held and counted in it, and on
their way to the active compare 12 ticks later in immediate mode; one in the tick of a commit to its register comes under it; an activated value whose position has passed is caught up or counted. -/
def Sys2Proof.Claims.PwmCompareWrites : Prop :=
  ∀ (s : State) (w : Who) (n : Fin 96) (r : PwmReg) (v : W32),
    let d := s.dev
    let p := pwmPage n
    let x := d.pwm n
    let k := match r with | .cmpSet => 0 | .cmpClr => 1 | .period => 2
    (Accepts s w (pagePwm n) r.offset 4 v.toNat → d.committed (p + (pwmShadow k).ofs) = true →
      Gives (.pwmCompareWrite w n r v) s (fun e => e.f p (pwmShadow k) = d.f p (pwmShadow k) ∧ e.mem = d.mem)) ∧
    (Accepts s w (pagePwm n) r.offset 4 v.toNat → d.committed (p + (pwmShadow k).ofs) = false → Wrote (.pwmCompareWrite w n r v) s
      (if d.en p = false then d.setF p (pwmShadow k) v.toNat
       else if d.on p F.PWM_CTRL_UPD = true ∧ k < 2 then
         (d.setF p (pwmShadow k) v.toNat).setPwm n { x with pend := x.pend ++ [⟨k, v.toNat, d.tick + 12, 0⟩] }
       else if d.pwmGuard n then
         (((d.setB p F.PWM_STATUS_LATE_UPDATE true).irq p 0).inc p F.PWM_LATE_CNT_LATE).setPwm n
           { x with held := x.held ++ [⟨k, v.toNat, d.tick, 0⟩] }
       else (d.setF p (pwmShadow k) v.toNat).setPwm n { x with
         entered := x.entered.filter (fun e => e.due == d.tick) ++ [⟨k, v.toNat, d.tick, d.f p (pwmShadow k)⟩] })) ∧
    (Clocked s → x.pend = [] → Does (.compareActivate n) s d) ∧
    (∀ e rest, Clocked s → x.pend = e :: rest → e.due ≤ d.tick → d.live p = true → e.reg < 2 → e.val < 2 ^ 32 →
      let act := if e.reg = 0 then F.PWM_CMPSET_ACT_CMPSET else F.PWM_CMPCLR_ACT_CMPCLR
      let passed := decide (e.val / 16 ≤ (if x.wrapDue then 0 else d.pwmCnt n)) && e.val != d.f p act
      Gives (.compareActivate n) s (fun t => t.f p act = e.val ∧ (t.pwm n).pend = rest ∧ t.mem = d.mem ∧
        (t.pwm n).catchUp = (if passed && d.on p F.PWM_CTRL_CATCHUP then x.catchUp ++ [(e.reg, d.tick + 1, e.val % 16)] else x.catchUp) ∧
        ((passed && !d.on p F.PWM_CTRL_CATCHUP) = true → t.on p F.PWM_STATUS_EDGE_PASSED = true ∧
          bitAt (t.reg (p + 0x24)) 2 = true)))

/-- Synchronisation and forcing (10 R234, R235, R240): a sync pulse that arrives in the tick at an enabled input loads the phase, and says
SYNC_SLIP where the counter differed; else it passes without effect. A write of REF_FORCE holds its value and takes effect in the tick after it lands. -/
def Sys2Proof.Claims.PwmSyncAndForce : Prop :=
  ∀ (s : State) (n : Fin 96),
    let d := s.dev
    let p := pwmPage n
    let x := d.pwm n
    (Clocked s → d.syncNow n = false → Does (.syncLoad n) s (d.setPwm n { x with syncDue := x.syncDue.filter (fun t => decide (d.tick < t)) })) ∧
    (Clocked s → x.syncDue.contains d.tick = true → d.live p = true → d.on p F.PWM_CTRL_SYNC_IN_EN = true → x.startDue = none →
      d.acted 6 n = false → x.wrapDue = false → d.syncValue n ≠ d.pwmCnt n → d.syncValue n ≠ 0 → d.syncValue n < 2 ^ 32 →
        Gives (.syncLoad n) s (fun e => e.pwmCnt n = d.syncValue n ∧ e.on p F.PWM_STATUS_SYNC_SLIP = true ∧
          bitAt (e.reg (p + 0x24)) 3 = true ∧ (e.pwm n).syncDue = x.syncDue.filter (fun t => decide (d.tick < t)) ∧ e.mem = d.mem)) ∧
    (∀ (w : Who) (f : BitVec 2) (off : Bool), Accepts s w (pagePwm n) 0x80 4 (2 * f.toNat + b2n off) →
      Gives (.refForceWrite w n f off) s (fun e => e.f p F.PWM_XCTRL_REF_FORCE = f.toNat ∧ e.on p F.PWM_XCTRL_PERIOD_OFF = off ∧
        e.on p F.PWM_OUT_REF = d.on p F.PWM_OUT_REF ∧ e.mem = d.mem ∧ (d.en p = true →
          (e.pwm n).force = some (d.tick, (x.force.map Prod.snd).getD (d.f p F.PWM_XCTRL_REF_FORCE)))))

/-- The PWM generators' registers (10 R228-R234). -/
def Obligations.PwmRegisters : Prop :=
  Claims.PwmCompareWrites ∧ Claims.PwmSyncAndForce

/-! Comparators and the Shutter matrix (11) -/

/-- What the matrix settles to (11 R252-R254): a set latch stays set; afterwards no group has an active trip input without its latch set, the pads
of every pair are at their levels, and a pair that is forced is at its safe states, the supplies being there. -/
def Obligations.ShutterSettles : Prop :=
  ∀ d : Dev,
    let r := d.shutter
    (∀ g : Fin 24, d.latched g = true → r.latched g = true) ∧
    (∀ g : Fin 24, r.tripIn g = true → r.latched g = true) ∧
    (∀ g : Fin 24, r.latched g = true → d.latched g = false → (Table.get {} r.groups g).recording = true) ∧
    (∀ (c : Fin 16) (g : Fin 6), (Table.get 0 r.pads (12 * c + 2 * g), Table.get 0 r.pads (12 * c + 2 * g + 1)) = r.pairPads c g) ∧
    (∀ (c : Fin 16) (g : Fin 6), r.pairForced c g = true → d.sys.vddAon = true → d.sys.vddIo33 = true →
      r.pairPads c g = (safeLevel (d.f (pgCasSrc c) (F.CS_PAIR_SAFE_H.at (4 * g))), safeLevel (d.f (pgCasSrc c) (F.CS_PAIR_SAFE_L.at (4 * g)))))

/-- What the matrix leaves alone (11 R253): of the registers only the PWM pages and the group pages change, of the rest of the device only the groups, the
pads, the generators, what has happened in the tick and a reset that it asks for. -/
def Obligations.ShutterFrame : Prop :=
  ∀ d : Dev,
    let r := d.shutter
    (∀ a, a / 0x1000000 ≠ 0xE1 → a / 0x20000 ≠ 0xE7000000 / 0x20000 → r.reg a = d.reg a) ∧
      { r with regs := d.regs, groups := d.groups, pads := d.pads, pwms := d.pwms, sys := d.sys, present := d.present } = d ∧
      { r.present with acted := d.present.acted } = d.present ∧
      { r.sys with resetReq := d.sys.resetReq } = d.sys

/-- Fault balls and virtual trips (11 R251, R257): FLT_LEVEL follows a level of the ball that lasts as long as the deglitch asks, and FLT_SEEN
keeps it; VT_SET and VT_CLR set and clear the trips of their mask and no other; one that set in the tick stays set. -/
def Sys2Proof.Claims.TripSources : Prop :=
  ∀ s : State,
    let d := s.dev
    (∀ (n : Fin 64) (on : Bool) (t : Nat), t < d.deglitch n → Does (.faultInputChange n ⟨on, t⟩) s d) ∧
    (∀ (n : Fin 64) (on : Bool) (t : Nat), d.deglitch n ≤ t → Gives (.faultInputChange n ⟨on, t⟩) s (fun e =>
      e.bit64 pgFlt 0x40 n = on ∧ e.bit64 pgFlt 0x48 n = (d.bit64 pgFlt 0x48 n || on) ∧ Table.get false e.fltBall n = on ∧
        (∀ m : Fin 64, m ≠ n → e.bit64 pgFlt 0x40 m = d.bit64 pgFlt 0x40 m) ∧ e.mem = d.mem)) ∧
    (∀ (w : Who) (hi : Bool) (v : W32), Accepts s w pageVt (0x40 + 4 * b2n hi) 4 v.toNat →
      Gives (.vtSet w hi v) s (fun e => ∀ n : Fin 64,
        e.bit64 pgVt 0x50 n = (d.bit64 pgVt 0x50 n || (n.val / 32 == b2n hi && bitAt v (n % 32))))) ∧
    (∀ (w : Who) (hi : Bool) (v : W32), Accepts s w pageVt (0x48 + 4 * b2n hi) 4 v.toNat →
      Gives (.vtClr w hi v) s (fun e => ∀ n : Fin 64,
        e.bit64 pgVt 0x50 n = (d.bit64 pgVt 0x50 n && !(n.val / 32 == b2n hi && bitAt v (n % 32) && !d.acted 5 n))))

/-- Comparators (11 R245-R249): the raw outputs of the powered, settled comparators of an input follow it with hysteresis, and their synchronizers
show a change two ticks later; a filter takes a sample that is due by majority; a settling ends with the output taken anew; a latch cleared
by its mask bit is its source's level from then on. -/
def Obligations.ComparatorsFollow : Prop :=
  ∀ (s : State) (n : Fin 384),
    let d := s.dev
    let p := cmpPage n
    let k := cmpK n
    (∀ v, Gives (.comparatorChange n v) s (fun e => Table.get 0 e.ains (n / 2) = v ∧ e.reg (p + 0x74) = d.reg (p + 0x74) ∧ e.mem = d.mem ∧
      ∀ i : Fin 384,
        let c : Cmp := Table.get {} d.cmps i
        let b := d.cmpRawFor i v
        (Table.get {} e.cmps i : Cmp) = if i.val / 2 = n.val / 2 ∧ d.cmpUp i = true ∧ d.cmpSettling i = false ∧ b ≠ c.raw then
          { c with raw := b, edges := c.edges ++ [(d.tick + 2, b)] } else c)) ∧
    (Clocked s → d.sampleDue n = false → Does (.filterSample n) s d) ∧
    (Clocked s → d.sampleDue n = true → d.cmpSettling n = false → d.sdRoute (n / 24) (n.val / 2 % 12) = none →
      Gives (.filterSample n) s (fun e =>
        let m := majority (d.cmpCfg n F.CMP_CFG_FILT_M) (d.cmpCfg n F.CMP_CFG_FILT_N) (Table.get {} d.cmps n).window
          (bitAt (d.reg (p + 0x74)) (8 + k)) (bitAt (d.reg (p + 0x74)) k)
        bitAt (e.reg (p + 0x74)) (8 + k) = m.2 ∧ (Table.get {} e.cmps n).window = m.1 ∧
          (Table.get {} e.cmps n).sampleAt = d.tick + 2 ^ d.cmpCfg n F.CMP_CFG_FILT_K ∧
          bitAt (e.reg (p + 0x74)) k = bitAt (d.reg (p + 0x74)) k ∧ e.mem = d.mem)) ∧
    (∀ v, (!d.cmpUp n || !d.cmpSettling n) = true → Does (.cmpSettled n v) s d) ∧
    (∀ v, d.cmpUp n = true → d.cmpSettling n = true →
      Does (.cmpSettled n v) s ((d.setF p ⟨0x10, k, 1⟩ 0).comparatorChange n v)) ∧
    (∀ (w : Who) (g : Fin 64) (mask : BitVec 6), Accepts s w (pageCmp g) 0x78 4 mask.toNat →
      Gives (.cmpLatchClear w g mask) s (fun e => e.mem = d.mem ∧ ∀ i : Fin 6,
        bitAt (e.reg (pgCmp (g / 4) (g % 4) + 0x78)) i =
          (if bitAt mask i then d.cmpLatchSrc (6 * g + i) else bitAt (d.reg (pgCmp (g / 4) (g % 4) + 0x78)) i)))

/-- Group latches (11 R255, R258-R260): the clocked record of a set latch, due two ticks after it, holds its lowest active source, or the safety
pair's failure, and its time; a clear whose group had an active source at the start of the tick is refused with that source, every clear is
while the safety pair has failed; an accepted one clears the latch at the end of the tick, unless a source has risen in it, which is a new
trip with RETRIPPED. -/
def Sys2Proof.Claims.GroupLatches : Prop :=
  ∀ (s : State) (g : Fin 24),
    let d := s.dev
    let p := pgGroup g
    (Clocked s → ((Table.get {} d.groups g).recording = false ∨ d.tick < (Table.get {} d.groups g).due) → Does (.latchRecord g) s d) ∧
    (Clocked s → (Table.get {} d.groups g).recording = true → (Table.get {} d.groups g).due ≤ d.tick →
      Gives (.latchRecord g) s (fun e => e.f p F.SG_CAUSE_SRC = (if (Table.get {} d.groups g).spFail then 0x219
          else (d.activeSources g (fun _ => false)).head?.getD 0x3FF) % 2 ^ F.SG_CAUSE_SRC.width ∧
        e.on p F.SG_CAUSE_CLOCKLESS = (Table.get {} d.groups g).clockless ∧
        e.on p F.SG_CAUSE_VALID = true ∧ e.r64 p 0xB8 = d.count ∧ bitAt (e.reg (p + 0x24)) 0 = true ∧
        (Table.get {} e.groups g).recording = false ∧ e.mem = d.mem ∧ e.pads = d.pads)) ∧
    (∀ (w : Who) (c i : Nat), Accepts s w (pageGroup g) 0xAC 4 1 → d.clearRefusal g [g.val] = some (c, i) → d.clearRefusal g [] = some (c, i) →
      Wrote (.sgClear w g) s (d.refuseClear g (c, i)).shutter) ∧
    (∀ w : Who, Accepts s w (pageGroup g) 0xAC 4 1 → d.clearRefusal g [g.val] = none →
      Wrote (.sgClear w g) s (d.clearGroup g).shutter) ∧
    ((∀ h : Nat, h < 24 → ((d.acted 4 h && d.latched h) = true ↔ h = g.val)) →
      (d.acted 3 g = false → d.activeSources g (fun i => 0x200 ≤ i && i < 0x218 && [g.val].contains (i - 0x200)) = [] →
        d.clearsEnd = (d.setB p F.GROUP_STATUS_LATCHED false).shutter) ∧
      (d.acted 3 g = true → d.clearsEnd = (d.retrip g).shutter)) ∧
    (∀ (w : Who) (gs : BitVec 24), Accepts s w pageVt 0x60 4 gs.toNat →
      Wrote (.shClrMulti w gs) s (if d.en pgVt then d.clearGroups (onesOf (gs.setWidth 32) 24) else d)) ∧
    (∀ (w : Who) (gs : BitVec 24), Accepts s w pageVt 0x60 4 gs.toNat → d.spFailed = true →
      Gives (.shClrMulti w gs) s (fun e => ∀ h : Fin 24, d.latched h = true → e.latched h = true))

/-- Trip sources and the groups they latch (11). -/
def Obligations.TripsAndGroups : Prop :=
  Claims.TripSources ∧ Claims.GroupLatches

/-! Conversions, timers, encoders and watchdogs (12, 13) -/

/-- ADC conversions (12 R265, R269): a burst's next hold is 200 ticks after the one before and adds its value corrected by the core's factory trim and the user calibration; the strobe, 216 ticks after the last, gives
the rounded mean with the time of the first hold, an event and a delivery. A strobe that comes early or names another input does nothing
(the model's choice, log 137). -/
def Sys2Proof.Claims.AdcConversions : Prop :=
  ∀ (s : State) (c : Fin 16) (j : Fin 4) (m : Fin 3) (code : BitVec 16), Clocked s →
    let d := s.dev
    let n := 4 * c.val + j.val
    let p := adcPage n
    let a := d.adc n
    (a.bursting = none → Does (.adcBurstHold c j m code) s d) ∧
    (∀ v, a.bursting = some v → v.input = m → v.lastHold + 200 ≤ d.tick → d.live p = true →
      Gives (.adcBurstHold c j m code) s (fun e => e.mem = d.mem ∧ e.deliveries = d.deliveries ∧
        (e.adc n).convs = a.convs.map (fun x => if x = v then
          { v with lastHold := d.tick, holdsLeft := v.holdsLeft - 1, sum := v.sum + (d.adcConverted n code.toNat v).2 } else x))) ∧
    (a.convs = [] → Does (.adcStrobe c j m code) s d) ∧
    (∀ v rest, a.convs = v :: rest → v.holdsLeft = 0 → v.lastHold + 216 ≤ d.tick → d.live p = true → v.input = m → v.stamp < 2 ^ 64 →
      let res := codeOf 32 (rne (v.sum + (d.adcConverted n code.toNat v).2) v.avg)
      let i := 3 * (n % 4) + v.input
      Gives (.adcStrobe c j m code) s (fun e => e.f p (F.ADC_RES_RES.at (4 * v.input)) = res ∧ e.r64 p (0x80 + 8 * v.input) = v.stamp ∧
        (e.adc n).convs = rest ∧ e.pulsesOf (evCas (n / 4) (18 + i)) = d.pulsesOf (evCas (n / 4) (18 + i)) + 1 ∧
        e.deliveries = d.deliveries ++ [⟨n / 4, 0, i, res, v.stamp, (d.tick + 14 + 1) / 2 * 2, false⟩] ∧ e.mem = d.mem)) ∧
    (∀ v rest, a.convs = v :: rest → d.tick < v.lastHold + 216 ∨ v.input ≠ m → Does (.adcStrobe c j m code) s d)

/-- Sigma-delta inputs (12 R272-R276): a clock makes its first edge when that is due; a sample is counted, and STUCK_LEN equal ones set STUCK and
activate both fast outputs, until a sample differs; a sinc3 word whose last bit is 32 ticks old is, after the two discarded ones, a result
with its time, event and delivery; the fast outputs compare the filter over the samples that are 16 ticks old with the thresholds. -/
def Sys2Proof.Claims.SigmaDeltaInputs : Prop :=
  ∀ (s : State) (c : Fin 16), Clocked s →
    let d := s.dev
    let p := pgSd c
    (∀ j : Fin 2, (d.sdClk c j).first = none → Does (.sdClockStart c j) s d) ∧
    (∀ (j : Fin 2) (t : Nat), (d.sdClk c j).first = some t → d.live p = true →
      (d.tick < t → Does (.sdClockStart c j) s d) ∧
      (t ≤ d.tick → Does (.sdClockStart c j) s (d.setSdClk c j { d.sdClk c j with running := true }))) ∧
    (∀ (k : Fin 6) (bits : List Bool), d.sdActive c k = false → Does (.sdWordComplete c k bits) s d ∧ Does (.sdStuck c k bits) s d ∧
      Does (.sdFastCompare c k bits) s d ∧ ∀ b, Does (.sdStuckEnd c k b) s d) ∧
    (∀ k : Fin 6, d.sdActive c k = true →
      let x := d.sd c k
      let last := d.sdInstant c k x.next
      ((x.got ≤ x.next ∨ d.tick < last + 32) → Does (.sdWordComplete c k []) s d) ∧
      (x.next < x.got → last + 32 ≤ d.tick → x.skip ≠ 0 →
        Does (.sdWordComplete c k []) s (d.setSd c k { x with skip := x.skip - 1, next := x.next + d.f p (F.SD_DEC_R.at (32 * k)) })) ∧
      (x.next < x.got → last + 32 ≤ d.tick → x.skip = 0 → x.calLog = [] →
        let r := d.f p (F.SD_DEC_R.at (32 * k))
        let v := codeOf 32 (satI 32 (rne (d.fs p (F.SD_UGAIN_UGAIN.at (32 * k)) *
          sincQ31 (sincSum 3 r (x.bits.drop (x.got - 1 - x.next))) (r * r * r)) 28 + d.fs p (F.SD_UOFS_UOFS.at (32 * k))))
        Gives (.sdWordComplete c k []) s (fun e => e.f p (F.SD_RES_RES.at (32 * k)) = v ∧ e.r64 p (0x140 + 8 * k) = d.count ∧
          (e.sd c k).next = x.next + r ∧ e.pulsesOf (evCas c (42 + k)) = d.pulsesOf (evCas c (42 + k)) + 1 ∧
          e.deliveries = d.deliveries ++ [⟨c, 1, k, v, d.count, (d.tick + 14 + 1) / 2 * 2, false⟩] ∧ e.mem = d.mem))) ∧
    (∀ (k : Fin 6) (b : Bool), d.sdActive c k = true → (d.sd c k).got + 1 ≤ d.sdInstants c k d.tick →
      let x := d.sd c k
      let len := d.f p (F.SD_CFG_STUCK_LEN.at (32 * k))
      let y : SdIn := { x with bits := (b :: x.bits).take 800, got := x.got + 1 }
      (bitAt (d.reg (p + 0x10)) k = false → len ≠ 0 → len ≤ x.got + 1 → (y.bits.take len).all (· == b) = true →
        Gives (.sdStuck c k [b]) s (fun e => bitAt (e.reg (p + 0x10)) k = true ∧ bitAt (e.reg (p + 0x10)) (6 + k) = true ∧
          bitAt (e.reg (p + 0x24)) 0 = true ∧ bitAt (e.reg (p + 0x170)) k = true ∧ bitAt (e.reg (p + 0x170)) (8 + k) = true)) ∧
      (bitAt (d.reg (p + 0x10)) k = true → b = x.stuckVal → Does (.sdStuckEnd c k b) s (d.setSd c k y)) ∧
      (bitAt (d.reg (p + 0x10)) k = true → b ≠ x.stuckVal → d.on p (F.SD_FC_FC_EN.at (32 * k)) = false →
        Gives (.sdStuckEnd c k b) s (fun e => bitAt (e.reg (p + 0x10)) k = false ∧ bitAt (e.reg (p + 0x170)) k = false ∧
          bitAt (e.reg (p + 0x170)) (8 + k) = false))) ∧
    (∀ k : Fin 6, d.sdActive c k = true → d.on p (F.SD_FC_FC_EN.at (32 * k)) = true →
      let m := d.sdInstants c k (d.tick - 16)
      16 ≤ d.tick → m ≠ 0 → m ≤ (d.sd c k).got →
      let osr := 4 * 2 ^ d.f p (F.SD_FC_OSR.at (32 * k))
      let ord := 1 + d.f p (F.SD_FC_ORD.at (32 * k))
      let v := sincQ31 (sincSum ord osr ((d.sd c k).bits.drop ((d.sd c k).got - m))) (osr ^ ord)
      Gives (.sdFastCompare c k []) s (fun e =>
        bitAt (e.reg (p + 0x170)) k = (decide (d.fs p (F.SD_FC_HI_HI.at (32 * k)) < v) || bitAt (d.reg (p + 0x10)) k) ∧
        bitAt (e.reg (p + 0x170)) (8 + k) = (decide (v < d.fs p (F.SD_FC_LO_LO.at (32 * k))) || bitAt (d.reg (p + 0x10)) k)))

/-- The converters and the sigma-delta inputs (12). -/
def Obligations.Acquisition : Prop :=
  Claims.AdcConversions ∧ Claims.SigmaDeltaInputs

/-- Timer channels (13 R281-R285): a compare that is due by its fields at the start of the tick fires once in it, sends a level to its ball, which
reaches it 24 ticks later, and reloads past the count or disarms; a write of TMR_CMP arms; a capture channel's ball takes a level unless a
channel drives it, and a qualifying edge of the filtered ball takes the count, with OVERRUN where the one before was not read. -/
def Sys2Proof.Claims.TimerChannels : Prop :=
  ∀ (s : State) (c : Fin 16) (ch : Fin 32),
    let d := s.dev
    let v := d.atTick
    let p := tmrPage c ch
    let o := 0x40 * (ch.val % 8)
    let t := d.tmr c ch
    let idle := !d.live p || d.tf c ch F.TMR_CFG_MODE != 2 || v.tf c ch F.TMR_ST_ARMED != 1 || d.count < v.tmrCmp c ch ||
      d.acted 1 (32 * c + ch)
    (Clocked s → idle = true → Does (.timerFire c ch) s d) ∧
    (Clocked s → idle = false → t.armTick ≠ d.tick + 1 → d.landedAt (p + 0x108 + o) 8 = [] → d.committed (p + 0x108 + o) = false →
      let lvl := actLevel (d.tf c ch F.TMR_CFG_ACT) t.drv
      let per := v.tf c ch F.TMR_PER_PER
      Gives (.timerFire c ch) s (fun e => (e.tmr c ch).drv = lvl ∧ e.pulsesOf (evCas c (48 + ch)) = d.pulsesOf (evCas c (48 + ch)) + 1 ∧
        bitAt (e.reg (p + 0x24)) (ch % 8) = true ∧ e.mem = d.mem ∧
        e.tioOut = (if d.tf c ch F.TMR_CFG_OUT_EN = 1 then d.tioOut ++ [(d.tick + 24, 8 * c.val + d.tf c ch F.TMR_CFG_PIN, lvl)]
          else d.tioOut) ∧
        (per = 0 → e.tf c ch F.TMR_ST_ARMED = 0 ∧ e.tmrCmp c ch = v.tmrCmp c ch) ∧
        (per ≠ 0 → e.tf c ch F.TMR_ST_ARMED = d.tf c ch F.TMR_ST_ARMED ∧
          e.tmrCmp c ch = (v.tmrCmp c ch + ((d.count - v.tmrCmp c ch) / per + 1) * per) % 2 ^ 64))) ∧
    (∀ (w : Who) (x : W64), Accepts s w (pageTimer c ch) (0x108 + o) 8 x.toNat → d.committed (p + 0x108 + o) = false →
      Gives (.tmrCmpWrite w c ch x) s (fun e => e.tmrCmp c ch = x.toNat ∧ e.tf c ch F.TMR_ST_ARMED = 1 ∧
        (e.tmr c ch).armTick = d.tick + 1 ∧ e.mem = d.mem)) ∧
    (∀ lvl : Bool, Clocked s →
      let pin := d.tf c ch F.TMR_CFG_PIN
      let free := d.tioDrivers c pin (fun q => d.live (pgTmr c q)) = 0
      let r := ballFilter (d.tf c ch F.TMR_CFG_FILT_N) (d.tf c ch F.TMR_ST_LEVEL == 1) t.run (d.ball c pin).sync
      (free → Gives (.timerCapture c ch lvl) s (fun e => (e.ball c pin).raw = lvl ∧ (e.ball c pin).sync = (d.ball c pin).sync)) ∧
      (¬ free → d.tick < t.sampleAt → Does (.timerCapture c ch lvl) s d) ∧
      (d.live p = true → d.tf c ch F.TMR_CFG_MODE = 1 → t.sampleAt ≤ d.tick → r.1 ≠ (d.tf c ch F.TMR_ST_LEVEL == 1) →
        edgeQualifies (d.tf c ch F.TMR_CFG_EDGE) r.1 = true → t.presc = d.tf c ch F.TMR_CFG_PRESC →
        Gives (.timerCapture c ch lvl) s (fun e => e.r64 p (0x120 + o) = d.count ∧ e.tf c ch F.TMR_ST_NEW = 1 ∧
          e.tf c ch F.TMR_ST_LEVEL = b2n r.1 ∧ (e.tmr c ch).sampleAt = d.tick + 2 ^ d.tf c ch F.TMR_CFG_FILT_K ∧
          (d.tf c ch F.TMR_ST_NEW = 1 → e.tf c ch F.TMR_ST_OVERRUN = 1) ∧
          e.deliveries = d.deliveries ++ [⟨c, 2, ch, d.count % 2 ^ 32, d.count, (d.tick + 14 + 1) / 2 * 2, false⟩] ∧ e.mem = d.mem)))

/-- Encoders (13 R284, R287-R289): the balls take their levels; at a due sample a filtered change of one input counts up or down by its quadrature,
a change of both at once is an error and counts nothing, and the index takes the position and presets it as asked; no edge for 2^32 ticks is
a stall; a preset sets the position at the end of its tick. -/
def Sys2Proof.Claims.EncodersCount : Prop :=
  ∀ (s : State) (e : Fin 16), Clocked s →
    let d := s.dev
    let p := pgEnc e
    let x := d.enc e
    let n := d.f p F.ENC_CTRL_FILT_N
    let a := (ballFilter n x.a x.runA x.ballA.sync).1
    let b := (ballFilter n x.b x.runB x.ballB.sync).1
    let i := (ballFilter n x.i x.runI x.ballI.sync).1
    let due := d.live p && decide (x.sampleAt ≤ d.tick)
    (∀ q r : Bool, due = false →
      Does (.encoderEdge e q r) s (d.setEnc e { x with ballA := x.ballA.set d.tick q, ballB := x.ballB.set d.tick r })) ∧
    (∀ q : Bool, due = false → Does (.encoderIndex e q) s (d.setEnc e { x with ballI := x.ballI.set d.tick q })) ∧
    (∀ q r : Bool, due = true → d.f p F.ENC_CTRL_MODE = 0 → a ≠ x.a → b ≠ x.b → i = x.i →
      Gives (.encoderEdge e q r) s (fun t => t.on p F.ENC_STATUS_QERR = true ∧ t.f p F.ENC_POS_POS = d.f p F.ENC_POS_POS ∧
        bitAt (t.reg (p + 0x24)) 0 = true ∧ (t.enc e).a = a ∧ (t.enc e).b = b ∧ t.mem = d.mem)) ∧
    (∀ q r : Bool, due = true → d.f p F.ENC_CTRL_MODE = 0 → a ≠ x.a → b = x.b → i = x.i →
      Gives (.encoderEdge e q r) s (fun t => (t.enc e).a = a ∧ (t.enc e).b = x.b ∧ t.r64 p 0x60 = d.count ∧ t.mem = d.mem ∧
        t.on p F.ENC_STATUS_STALLED = false ∧ (t.enc e).edge = some d.tick ∧
        t.f p F.ENC_POS_POS = (if (a != x.b) != d.on p F.ENC_CTRL_DIR then d.f p F.ENC_POS_POS + 1 else d.f p F.ENC_POS_POS + (2 ^ 32 - 1)) % 2 ^ 32)) ∧
    (∀ q : Bool, due = true → a = x.a → b = x.b → i ≠ x.i → (i != d.on p F.ENC_CTRL_IDX_POL) = true →
      Gives (.encoderIndex e q) s (fun t => t.f p F.ENC_IPOS_IPOS = d.f p F.ENC_POS_POS ∧ t.on p F.ENC_STATUS_IDX_SEEN = true ∧
        (t.enc e).i = i ∧ (t.enc e).idxSeen = true ∧ t.pulsesOf (1816 + e) = d.pulsesOf (1816 + e) + 1 ∧ t.mem = d.mem ∧
        (d.f p F.ENC_CTRL_IDX_MODE = 1 → t.f p F.ENC_POS_POS = d.f p F.ENC_IVAL_IVAL) ∧
        (d.f p F.ENC_CTRL_IDX_MODE = 0 → t.f p F.ENC_POS_POS = d.f p F.ENC_POS_POS))) ∧
    (∀ t, d.live p = true → x.edge = some t →
      Does (.encoderStalled e) s (if t + 2 ^ 32 ≤ d.tick then d.setB p F.ENC_STATUS_STALLED true else d)) ∧
    (∀ (w : Who) (v : W32), Accepts s w (pageEnc e) 0x48 4 v.toNat → Wrote (.encPreset w e v) s (d.setEnc e { x with preset := some v.toNat })) ∧
    (∀ v, x.preset = some v → v < 2 ^ 32 → (d.encEnd e).f p F.ENC_POS_POS = v ∧ ((d.encEnd e).enc e).preset = none)

/-- The timers and the encoders (13). -/
def Obligations.TimersAndEncoders : Prop :=
  Claims.TimerChannels ∧ Claims.EncodersCount

/-- Watchdogs (13 R291-R293): a feed in its window starts a new one; one too early expires the watchdog; one after the
window, or while it is expired, is ignored; a window that closes without a feed expires it; with ACTION 2 an expiry asks for a warm reset; an
acknowledgement clears EXPIRED and starts a window. -/
def Obligations.WatchdogsExpire : Prop :=
  ∀ (s : State),
    let d := s.dev
    (∀ (k : CoreId) (w : Who) (v : W32), Accepts s w (pageWdCore k) 0x4C 4 v.toNat → d.live (pgWdCore k) = true →
      Table.get 0 d.wds (64 + k) ≠ d.tick + 1 →
      let p := pgWdCore k
      let e := d.wdElapsed (.core k)
      let fed : Dev := { d with wds := Table.put 0 d.wds (64 + k) (d.tick + 1) }
      Wrote (.wdFeed w k v) s
        (if d.on p F.WD_STATUS_EXPIRED || decide (6000 * d.f p F.WD_MAX_MAX ≤ e) then fed.setB p F.WD_STATUS_FEED_IGNORED true
         else if e < 6000 * d.f p F.WD_MIN_MIN then fed.wdExpire (.core k) true
         else (fed.wdWindow (.core k)).inc p F.WD_FEEDS_FEEDS)) ∧
    (∀ x : WdPlace, Clocked s →
      let p := x.wd.page
      let due := d.live p && !d.on p F.WD_STATUS_EXPIRED && decide (6000 * d.f p F.WD_MAX_MAX ≤ d.wdElapsed x.wd)
      (due = false → Does (.watchdogExpire x) s d) ∧
      (due = true → Gives (.watchdogExpire x) s (fun e => e.on p F.WD_STATUS_EXPIRED = true ∧ e.on p F.WD_STATUS_CAUSE = false ∧
        bitAt (e.reg (p + 0x24)) 0 = true ∧ e.pulsesOf x.wd.event = d.pulsesOf x.wd.event + 1 ∧ e.mem = d.mem ∧
        (d.f p F.WD_CTRL_ACTION = 2 → e.sys.resetReq.isSome = true)))) ∧
    (∀ (k : CoreId) (w : Who), Accepts s w (pageWdCore k) 0x50 4 1 →
      Wrote (.wdAck w (.core k)) s ((d.setB (pgWdCore k) F.WD_STATUS_EXPIRED false).wdWindow (.core k)).shutter) ∧
    (∀ (c : Fin 16) (w : Who), Accepts s w (pageWdCas c) 0x50 4 1 →
      Wrote (.wdAck w (.cas c)) s ((d.setB (pgWdCas c) F.WD_STATUS_EXPIRED false).wdWindow (.cas c)).shutter)

/-! Threshold links (14) -/

/-- Sending (14 R300-R303, R306, R308, R309, R313): at a character boundary with no frame in progress the pending frame of highest precedence goes out with the
next SEQ and its CRC, and is counted; a command for another frame sends nothing. A slot boundary makes a routine SYNC pending. -/
def Sys2Proof.Claims.LinkSends : Prop :=
  ∀ (s : State) (l : Fin 32), Clocked s →
    let d := s.dev
    let x := d.tl l
    let nb := pgTlnb l
    let sent : Nat → List Byte → Dev → Prop := fun kind payload e =>
      (e.tl l).line = frameBytes kind x.txSeq payload ∧ (e.tl l).txSeq = (x.txSeq + 1) % 256 ∧
        (e.tl l).frameEnd = d.tick + 10 * (9 + payload.length) ∧ e.mem = d.mem ∧
        e.f (pgTlcnt l) F.TLC_TX_FRAMES_COUNT = satInc F.TLC_TX_FRAMES_COUNT.width (d.f (pgTlcnt l) F.TLC_TX_FRAMES_COUNT)
    (d.txFree l = false → ∀ i ∈ [Instr.txSync l, .txGate l, .txTimeReq l, .txBind l, .txUnbind l, .txSample l, .txUser l], Does i s d) ∧
    (∀ k : TxKind, d.txNext l = some k →
      (k ≠ .urgent ∧ k ≠ .routine → Does (.txSync l) s d) ∧ (k ≠ .gate → Does (.txGate l) s d) ∧
        (k ≠ .timeReq → Does (.txTimeReq l) s d) ∧ (k ≠ .bind → Does (.txBind l) s d) ∧ (k ≠ .unbind → Does (.txUnbind l) s d) ∧
        (k ≠ .sample → Does (.txSample l) s d) ∧ (k ≠ .user → Does (.txUser l) s d)) ∧
    (d.txFree l = true →
      (d.txNext l = some .urgent → Gives (.txSync l) s (fun e => sent 1 (d.syncPayload l) e ∧ (e.tl l).urgent = none)) ∧
      (d.txNext l = some .routine → Gives (.txSync l) s (fun e => sent 1 (d.syncPayload l) e ∧ (e.tl l).sync = none)) ∧
      (∀ b, d.txNext l = some .gate → x.copy = some b → Gives (.txGate l) s (fun e => (e.tl l).line = b ∧ (e.tl l).copy = none ∧
        (e.tl l).txSeq = x.txSeq ∧ (e.tl l).frameEnd = d.tick + 10 * (b.length + 2) ∧ e.mem = d.mem)) ∧
      (∀ g, d.txNext l = some .gate → x.copy = none → x.gates = [g] → d.gateRefusal l g.ch = none →
        Gives (.txGate l) s (fun e => sent 2 (gateBytes g (gateEdge (d.earliest l 1) g).1) e ∧ (e.tl l).gates = [] ∧
          (d.on (pgTlc l) F.TL_CTRL_REPEAT = true → (e.tl l).copy = some (e.tl l).line))) ∧
      (d.txNext l = some .timeReq → Gives (.txTimeReq l) s (fun e => ∃ (no t1 : Nat) (err : Int), -1 ≤ err ∧ err ≤ 1 ∧ no < 256 ∧
        t1 = codeOf 64 (16 * (d.count : Int) + err) ∧ sent 3 (bytesLE 1 no) e ∧ (e.tl l).reqs = x.reqs.drop 1 ∧
          (e.tl l).outstanding = x.outstanding ++ [(no, t1, d.tick + 2 * d.tlSlot l)])) ∧
      (d.txNext l = some .bind → Gives (.txBind l) s (fun e => (e.tl l).bindAt = none ∧
        sent 4 (bytesLE 8 x.heldId ++ bytesLE 1 (d.f nb F.NB_CFG_NCH) ++ bytesLE 1 (d.f nb F.NB_CFG_NVAL) ++
          bytesLE 1 (d.f nb F.NB_CFG_LOSS) ++ bytesLE 2 (d.tlSlot l)) e)) ∧
      (∀ t id, d.txNext l = some .unbind → x.unbindAt = some (t, id) →
        Gives (.txUnbind l) s (fun e => sent 5 (bytesLE 8 id) e ∧ (e.tl l).unbindAt = none)) ∧
      (∀ t v rest, d.txNext l = some .sample → x.samples = (t, v) :: rest →
        Gives (.txSample l) s (fun e => sent 6 (bytesLE 8 v) e ∧ (e.tl l).samples = rest)) ∧
      (∀ t v rest, d.txNext l = some .user → x.users = (t, v) :: rest →
        Gives (.txUser l) s (fun e => sent 9 v e ∧ (e.tl l).users = rest))) ∧
    (d.live (pgTlc l) = true → d.tlSlot l ≠ 0 → x.slotNo < d.count / d.tlSlot l →
      Gives (.slotBoundary l) s (fun e => (e.tl l).sync = some d.tick ∧ (e.tl l).slotNo = d.count / d.tlSlot l ∧ (e.tl l).heard = false ∧
        (e.tl l).silent = (if x.heard then 0 else x.silent + 1) ∧ e.regs = d.regs ∧ e.mem = d.mem)) ∧
    (d.count / d.tlSlot l ≤ x.slotNo → Does (.slotBoundary l) s d)

/-- Receiving (14 R297, R299, R300, R305, R306, R310, R311, R316, R320): a valid frame on an aligned link is counted and its SEQ kept, then it has its effect; a
repeated SEQ has none; an invalid frame is counted by its kind. -/
def Sys2Proof.Claims.LinkReceives : Prop :=
  ∀ (s : State) (l : Fin 32) (seq : BitVec 8), Clocked s →
    let d := s.dev
    let x := d.tl l
    let p := pgTlc l
    let nb := pgTlnb l
    let tt := pgTltt l
    let got := (d.tlCount l F.TLC_RX_FRAMES_COUNT).setTl l { x with heard := true, rxSeq := some seq.toNat }
    d.live p = true →
    (∀ up : Bool, Does (.rxAlign l up) s (if d.on p F.TLC_STATUS_ALIGNED == up then d
      else if up then d.setB p F.TLC_STATUS_ALIGNED true
      else (d.setB p F.TLC_STATUS_ALIGNED false).tlCount l F.TLC_ALIGN_LOSS_COUNT)) ∧
    (d.on p F.TLC_STATUS_ALIGNED = false → ∀ pl, Does (.userFrameReceive l seq pl) s d) ∧
    (d.on p F.TLC_STATUS_ALIGNED = true →
      Does (.rxFrameInvalid l 0) s (d.tlCount l F.TLC_RX_CRC_COUNT) ∧ Does (.rxFrameInvalid l 1) s (d.tlCount l F.TLC_RX_CODE_COUNT) ∧
      (x.rxSeq = some seq.toNat → Does (.rxFrameInvalid l 2) s (got.tlCount l F.TLC_RX_DUP_COUNT) ∧
        ∀ pl, Does (.userFrameReceive l seq pl) s (got.tlCount l F.TLC_RX_DUP_COUNT)) ∧
      (x.rxSeq = none →
        (∀ pl : List Byte, pl.length ≤ 64 → Gives (.userFrameReceive l seq pl) s (fun e =>
          e.f p F.TL_RXLEN_LEN = pl.length ∧ bitAt (e.reg (p + 0x24)) 4 = true ∧ e.mem = d.mem ∧
          e.pulsesOf (tlEvent l) = d.pulsesOf (tlEvent l) + 1 ∧
          ∀ k, k < pl.length → bitsOf (e.reg (p + 0xC0 + 4 * (k / 4))) (8 * (k % 4)) 8 = (pl.getD k 0).toNat)) ∧
        (∀ a : Announce, d.lstate l = 1 → Gives (.announce l seq a) s (fun e =>
          e.lstate l = 2 ∧ e.r64 nb 0x48 = a.id.toNat ∧ e.on nb F.NB_ANN_INFO_VALID = true ∧ bitAt (e.reg (p + 0x24)) 0 = true ∧
          e.pulsesOf (tlEvent l + 1) = d.pulsesOf (tlEvent l + 1) + 1 ∧ e.mem = d.mem)) ∧
        (∀ a : Announce, d.tlBound l = true → Gives (.announce l seq a) s (fun e =>
          e.lstate l = 2 ∧ e.on p F.TLC_STATUS_DETACHED = true ∧ e.f nb F.NB_STAT_RESULT = 9 ∧ e.r64 nb 0x48 = a.id.toNat)) ∧
        (∀ id : W64, d.lstate l = 3 → id.toNat = x.heldId → d.tick ≤ x.bindDue → Gives (.bindAck l seq id) s (fun e =>
          e.lstate l = 4 ∧ e.r64 nb 0x68 = id.toNat ∧ e.f nb F.NB_STAT_RESULT = (if x.rebind then 0xA else 1) ∧
          e.on p F.TLC_STATUS_DETACHED = false ∧ e.on tt F.TT_STAT_MEAS_VALID = false ∧ e.mem = d.mem)) ∧
        (∀ id : W64, d.lstate l ≠ 3 → Does (.bindAck l seq id) s (got.tlSee l)) ∧
        (∀ n : NodeStatus, d.tlBound l = true → x.status = none → Gives (.statusFrame l seq n) s (fun e =>
          e.on tt F.TT_STAT_NODE_LOCKED = bitAt n.flags 0 ∧ (e.tl l).status = some (n.lastSeq.toNat, n.gaps.toNat) ∧ e.mem = d.mem ∧
          e.lstate l = (if bitAt n.flags 0 && d.on tt F.TT_STAT_MEAS_VALID &&
            decide (-14 ≤ d.fs tt F.TT_OFFSET_OFFSET ∧ d.fs tt F.TT_OFFSET_OFFSET ≤ 14) then 5 else 4))) ∧
        (∀ (no : BitVec 8) (t2 t3 t4 : W64), d.tlBound l = true → x.outstanding.find? (fun o => o.1 == no.toNat) = none →
          Does (.timeResp l seq no t2 t3 t4) s ((got.inc tt F.TT_MISS_COUNT).tlSee l)) ∧
        (∀ (no : BitVec 8) (t2 t3 t4 : W64) (o : Nat × Nat × Nat), d.tlBound l = true →
          x.outstanding.find? (fun o => o.1 == no.toNat) = some o → o.2.1 < 2 ^ 64 →
          let diff : Nat → Nat → Int := fun a b => signedOf 64 (a + 2 ^ 64 - b)
          let sum := diff t4.toNat o.2.1 - diff t3.toNat t2.toNat + d.fs tt F.TT_ASYM_ASYM
          Gives (.timeResp l seq no t2 t3 t4) s (fun e => e.r64 tt 0x40 = o.2.1 ∧ e.r64 tt 0x48 = t2.toNat ∧ e.r64 tt 0x50 = t3.toNat ∧
            e.r64 tt 0x58 = t4.toNat ∧ e.on tt F.TT_STAT_MEAS_VALID = true ∧ e.mem = d.mem ∧
            (sum % 2 = 0 → e.f tt F.TT_DELAY_DELAY = codeOf 32 (sum / 2) ∧ e.f tt F.TT_OFFSET_OFFSET = codeOf 32 (diff t2.toNat o.2.1 - sum / 2)) ∧
            (sum % 2 = 1 → e.f tt F.TT_DELAY_DELAY = codeOf 32 (sum / 2) ∨ e.f tt F.TT_DELAY_DELAY = codeOf 32 (sum / 2 + 1)))) ∧
        (∀ (first : BitVec 8) (time : W64) (v : W32), d.tlBound l = true → first.toNat < d.f nb F.NB_CFG_NVAL → first.toNat < 64 →
          Gives (.sensor l seq first time [v]) s (fun e => e.reg (p + 0x200 + 4 * first.toNat) = v ∧ e.r64 p 0x108 = time.toNat ∧
            e.r64 p 0x100 = d.count ∧ e.pulsesOf (tlEvent l) = d.pulsesOf (tlEvent l) + 1 ∧ e.mem = d.mem ∧
            e.deliveries = d.deliveries ++ [⟨l / 2, 3, 64 * (l % 2) + first.toNat, v.toNat, d.count, (d.tick + 24 + 1) / 2 * 2, false⟩]))))

/-- The frames of the Threshold links (14). -/
def Obligations.LinkTraffic : Prop :=
  Claims.LinkSends ∧ Claims.LinkReceives

/-- Binding and detaching (14 R304-R309, R321, R323): a BIND of a recorded node that matches goes out and waits for its answer, any other reports why not; UNBIND and the
timeouts lead back to SEEK or UNBOUND with their results; silence detaches a bound node. -/
def Obligations.LinkBinding : Prop :=
  ∀ (s : State) (l : Fin 32),
    let d := s.dev
    let x := d.tl l
    let p := pgTlc l
    let nb := pgTlnb l
    (∀ w : Who, Accepts s w (pageTlnb l) 0x60 4 1 →
      (d.lstate l ≠ 2 → Wrote (.nbBind w l) s (d.nbResult l 0xB)) ∧
      (d.lstate l = 2 → d.r64 nb 0x48 ≠ d.r64 nb 0x58 → Wrote (.nbBind w l) s (d.nbResult l 3)) ∧
      (d.lstate l = 2 → d.r64 nb 0x48 = d.r64 nb 0x58 →
        (d.f nb F.NB_ANN_CLASS_NCH < d.f nb F.NB_CFG_NCH ∨ d.f nb F.NB_ANN_CLASS_NVAL < d.f nb F.NB_CFG_NVAL) →
        Wrote (.nbBind w l) s (d.nbResult l 4)) ∧
      (d.lstate l = 2 → d.r64 nb 0x48 = d.r64 nb 0x58 → d.f nb F.NB_CFG_NCH ≤ d.f nb F.NB_ANN_CLASS_NCH →
        d.f nb F.NB_CFG_NVAL ≤ d.f nb F.NB_ANN_CLASS_NVAL →
        Gives (.nbBind w l) s (fun e => e.lstate l = 3 ∧ (e.tl l).bindAt = some d.tick ∧ (e.tl l).heldId = d.r64 nb 0x48 ∧
          (e.tl l).bindDue = d.tick + 20 * d.tlSlot l ∧ e.mem = d.mem))) ∧
    (∀ w : Who, Accepts s w (pageTlnb l) 0x60 4 2 →
      ((d.lstate l < 3 ∨ 5 < d.lstate l) → Wrote (.nbUnbind w l) s (d.nbResult l 0xB)) ∧
      (3 ≤ d.lstate l → d.lstate l ≤ 5 → Gives (.nbUnbind w l) s (fun e => e.lstate l = 1 ∧ e.f nb F.NB_STAT_RESULT = 7 ∧
        (e.tl l).unbindAt = some (d.tick, x.heldId) ∧ e.on nb F.NB_ANN_INFO_VALID = false ∧ e.mem = d.mem))) ∧
    (∀ w : Who, Accepts s w (pageTlnb l) 0x60 4 4 → Wrote (.ackDetach w l) s (d.setB p F.TLC_STATUS_DETACHED false).shutter) ∧
    (Clocked s →
      ((d.lstate l ≠ 3 ∨ d.tick ≤ x.bindDue) → Does (.bindTimeout l) s d) ∧
      (d.lstate l = 3 → x.bindDue < d.tick → Gives (.bindTimeout l) s (fun e => e.lstate l = 2 ∧ e.f nb F.NB_STAT_RESULT = 6 ∧
        (e.tl l).bindAt = none ∧ (e.tl l).annTick = d.tick ∧ e.mem = d.mem)) ∧
      ((d.lstate l ≠ 2 ∨ d.tick < x.annTick + 180000) → Does (.announceTimeout l) s d) ∧
      (d.lstate l = 2 → x.annTick + 180000 ≤ d.tick → Gives (.announceTimeout l) s (fun e => e.lstate l = 1 ∧
        e.on nb F.NB_ANN_INFO_VALID = false ∧ e.mem = d.mem)) ∧
      (x.outstanding.find? (fun o => o.2.2 < d.tick) = none → Does (.timeRespMiss l) s d) ∧
      (∀ o, x.outstanding.find? (fun o => o.2.2 < d.tick) = some o → Gives (.timeRespMiss l) s (fun e =>
        (e.tl l).outstanding = x.outstanding.erase o ∧ e.mem = d.mem ∧
        e.f (pgTltt l) F.TT_MISS_COUNT = satInc F.TT_MISS_COUNT.width (d.f (pgTltt l) F.TT_MISS_COUNT))) ∧
      (d.tlBound l = false → Does (.detach l) s d) ∧
      (d.tlBound l = true → d.f p F.TL_CTRL_DET_SLOTS ≤ x.silent → Gives (.detach l) s (fun e => e.lstate l = 1 ∧
        e.on p F.TLC_STATUS_DETACHED = true ∧ e.f nb F.NB_STAT_RESULT = 8 ∧ bitAt (e.reg (p + 0x24)) 1 = true ∧
        e.pulsesOf (tlEvent l + 2) = d.pulsesOf (tlEvent l + 2) + 1 ∧ e.mem = d.mem)) ∧
      ((d.lstate l ≠ 6 ∨ d.tick < x.resumeDue) → Does (.resumeTimeout l) s d) ∧
      (d.lstate l = 6 → x.resumeDue ≤ d.tick → Gives (.resumeTimeout l) s (fun e => e.lstate l = 1 ∧
        e.on p F.TLC_STATUS_DETACHED = true ∧ e.f nb F.NB_STAT_RESULT = 8)))

/-! Sahxel cores -/

namespace Sys2Proof.Claims

/-- Core `k` issues an instruction of `len` bytes: it is ready (15 R346, 17 R388, 22 R479), the results that are due stand in their
registers, and the fetch meets no fault; `d` is the device after it. -/
def Begun (s : State) (k len : Nat) (d : Dev) : Prop :=
  s.dev.coreReady k = true ∧ (s.dev.setCore k (s.dev.core k).collect).fetch k len = d.ok ()

/-- The instruction retires with its program counter where it stands. -/
def Retired (k : Nat) (d : Dev) : Dev := ((d.setCore k (d.core k).retired).commitDone k).stepEnd k 1

/-- The instruction retires and the program counter moves past it. -/
def Finished (s : State) (k len : Nat) (d : Dev) : Dev :=
  Retired k (d.setArch k ((d.arch k).goto ((s.dev.arch k).pc + BitVec.ofNat 64 len)))

/-- The instruction takes a precise fault (17 R387). -/
def Trapped (s : State) (k : Nat) (d : Dev) (code detail faddr : Nat) : Dev :=
  (d.faultEnd k (s.dev.arch k).pc ⟨code, detail, faddr⟩).stepEnd k 2

end Sys2Proof.Claims

/-- Fetching an instruction from memory changes no register of any core and no byte of memory. -/
def Sys2Proof.Claims.FetchKeepsRegisters : Prop :=
  ∀ (s : State) (k : CoreId) (len : Nat) (d : Dev), Begun s k len d →
    d.arch k = (s.dev.core k).collect.arch ∧ (∀ j, j ≠ k.val → d.core j = s.dev.core j) ∧ d.mem = s.dev.mem

/-- Effective addresses (15 Table 15-4): the address, the capability that is checked, X and Y afterwards. Mode 0 is an immediate and modes
10 to 15 are reserved. -/
def Sys2Proof.Claims.EffectiveAddresses : Prop :=
  ∀ (a : Arch) (m : MOperand),
    let disp := m.disp.signExtend 64
    let size : W64 := 1#64 <<< m.sz.toNat
    let ea (e c : Nat) (addr x y : W64) (cap : Capability) : Prop :=
      m.mode.toNat = e → a.ea m = some ⟨addr + disp, cap, c, x, y⟩
    ea 1 17 a.x a.x a.y a.ddc ∧ ea 2 17 a.y a.x a.y a.ddc ∧ ea 3 17 (a.x + a.y * size) a.x a.y a.ddc ∧
    ea 4 17 a.dsp a.x a.y a.ddc ∧ ea 5 17 a.x (a.x + size) a.y a.ddc ∧ ea 6 17 a.y a.x (a.y + size) a.ddc ∧
    ea 7 17 (a.x - size) (a.x - size) a.y a.ddc ∧ ea 8 16 a.pcc.addr a.x a.y a.pcc ∧
    ea 9 m.aux.toNat (a.cap m.aux.toNat).addr a.x a.y (a.cap m.aux.toNat) ∧
    (m.mode = 0 ∨ 10 ≤ m.mode.toNat → a.ea m = none)

/-- Loads and stores of memory that is no device: an aligned load through a capability that permits it gives the little-endian value of the
bytes and leaves registers and memory as they are; a store writes its bytes and no other (15 R330, 17 R374). Translation is off. -/
def Sys2Proof.Claims.LoadsAndStores : Prop :=
  ∀ (d : Dev) (k : CoreId) (c : Capability) (reg va v : Nat) (sz : BitVec 2),
    let len := szBytes sz
    va % len = 0 → va < 2 ^ 48 → (d.arch k).xlateOn = false → isDevice va = false →
    (c.check .read va len = none → d.memCause va len false false = none →
      ∃ (e : Dev) (poison : Bool), e.arch k = d.arch k ∧ e.mem = d.mem ∧
        d.loadRaw k c reg va len = e.ok (valueLE (d.memBytes va len), poison) ∧
        d.loadVal k c reg va len = if poison then e.fault 4 0 va else e.ok (valueLE (d.memBytes va len))) ∧
    (c.check .write va len = none → d.memCause va len true false = none →
      ∃ e : Dev, d.storeVal k c reg va len v false = e.ok () ∧ e.arch k = d.arch k ∧
        e.memBytes va len = bytesLE len v ∧ ∀ a, a < va ∨ va + len ≤ a → e.byte a = d.byte a) ∧
    (∀ kind, c.check .read va len = some kind → d.loadVal k c reg va len = d.fault 9 (kind + 16 * reg) va) ∧
    (∀ kind, c.check .write va len = some kind → d.storeVal k c reg va len v false = d.fault 9 (kind + 16 * reg) va)

/-- GET, PUT and ADR (15 Table 15-6): loads zero-extend, the address modes update X and Y, ST stays. A register that its own mode updates after
the access takes a free value. -/
def Sys2Proof.Claims.RegisterLoadsAndStores : Prop :=
  ∀ (s : State) (k : CoreId) (m : MOperand) (d : Dev), Begun s k 4 d →
    (∀ (e : Dev) (v x y : W64), d.readOperand k m = e.ok (v, x, y) →
      Does (.geta k m) s (Finished s k 4 (e.setArch k { e.arch k with a := v, x := x, y := y })) ∧
      (m.mode ≠ 5 → Does (.getx k m) s (Finished s k 4 (e.setArch k { e.arch k with x := v, y := y }))) ∧
      (m.mode ≠ 6 → Does (.gety k m) s (Finished s k 4 (e.setArch k { e.arch k with x := x, y := v }))) ∧
      (m.mode = 5 → Does (.getx k m) s (Finished s k 4 (e.freeWord.2.setArch k { e.arch k with x := e.freeWord.1, y := y }))) ∧
      (m.mode = 6 → Does (.gety k m) s (Finished s k 4 (e.freeWord.2.setArch k { e.arch k with x := x, y := e.freeWord.1 })))) ∧
    (∀ (f e : Dev) (ea : Ea), d.storeEa k m = f.ok ea →
      let put (v : W64) : Prop := f.storeVal k ea.cap ea.reg ea.addr.toNat (szBytes m.sz) v.toNat false = e.ok ()
      let done : Dev := Finished s k 4 (e.setArch k { e.arch k with x := ea.x, y := ea.y })
      (put (f.arch k).a → Does (.puta k m) s done) ∧ (put (f.arch k).y → Does (.puty k m) s done) ∧
      (put (if m.mode = 7 then ea.x else (f.arch k).x) → Does (.putx k m) s done)) ∧
    (∀ ea : Ea, (d.arch k).ea m = some ea →
      let a := { d.arch k with x := ea.x, y := ea.y }
      (m.sz = 0 → Does (.adr k m) s (Finished s k 4 (d.setArch k { a with a := ea.addr }))) ∧
      (m.sz = 1 → m.mode ≠ 5 → Does (.adr k m) s (Finished s k 4 (d.setArch k { a with x := ea.addr }))) ∧
      (m.sz = 2 → m.mode ≠ 6 → Does (.adr k m) s (Finished s k 4 (d.setArch k { a with y := ea.addr })))) ∧
    (m.sz = 3 → Does (.adr k m) s (Trapped s k d 1 0 0)) ∧
    (m.mode = 8 ∨ (d.arch k).ea m = none →
      ∀ i ∈ [Instr.puta k m, .putx k m, .puty k m], Does i s (Trapped s k d 1 0 0))

/-- How a Sahxel core reaches its operands and memory (15 R328-R331, 17 R374). -/
def Obligations.OperandsAndMemory : Prop :=
  Claims.FetchKeepsRegisters ∧ Claims.EffectiveAddresses ∧ Claims.LoadsAndStores ∧ Claims.RegisterLoadsAndStores

/-- Arithmetic and logic of A with an operand: what stands in A, and C, Z, N and V of ST (15 R328, R336); R336 names no carry of a product or
a quotient, so that bit is free. -/
def Sys2Proof.Claims.OperandArithmetic : Prop :=
  ∀ (s : State) (k : CoreId) (m : MOperand) (d e : Dev) (v x y : W64),
    Begun s k 4 d → d.readOperand k m = e.ok (v, x, y) →
    let a := { e.arch k with x := x, y := y }
    let out (f : Dev) (b : Arch) : Dev := Finished s k 4 (f.setArch k b)
    let sum : Flags := ⟨decide (2 ^ 64 ≤ a.a.toNat + v.toNat), a.a + v == 0, (a.a + v).msb, decide (a.a.toInt + v.toInt ≠ (a.a + v).toInt)⟩
    let dif : Flags := ⟨decide (a.a.toNat < v.toNat), a.a - v == 0, (a.a - v).msb, decide (a.a.toInt - v.toInt ≠ (a.a - v).toInt)⟩
    let logic (r : W64) : Dev := out e ({ a with a := r }.setFlags ⟨false, r == 0, r.msb, false⟩)
    let past : Bool := decide (a.a.toInt * v.toInt ≠ (a.a * v).toInt)
    let prod := { a with a := a.a * v }.setFlags ⟨e.freeBit.1, a.a * v == 0, (a.a * v).msb, past⟩
    let quot (r : W64) (o : Bool) : Dev := out e.freeBit.2 ({ a with a := r }.setFlags ⟨e.freeBit.1, r == 0, r.msb, o⟩)
    Does (.add k m) s (out e ({ a with a := a.a + v }.setFlags sum)) ∧
    Does (.sub k m) s (out e ({ a with a := a.a - v }.setFlags dif)) ∧
    Does (.and k m) s (logic (a.a &&& v)) ∧ Does (.or k m) s (logic (a.a ||| v)) ∧ Does (.xor k m) s (logic (a.a ^^^ v)) ∧
    Does (.cmp k m) s (out e (a.setFlags dif)) ∧
    Does (.addv k m) s (out e (let b := { a with a := a.a + v }.setFlags sum; if sum.v then b.raise 0 else b)) ∧
    Does (.subv k m) s (out e (let b := { a with a := a.a - v }.setFlags dif; if dif.v then b.raise 0 else b)) ∧
    Does (.mul k m) s (out e.freeBit.2 prod) ∧
    Does (.mulv k m) s (out e.freeBit.2 (if past then prod.raise 0 else prod)) ∧
    (v ≠ 0 →
      Does (.div k m) s (quot (a.a.sdiv v) (a.a == 0x8000000000000000 && v == 0xFFFFFFFFFFFFFFFF)) ∧
      Does (.divu k m) s (quot (a.a / v) false) ∧ Does (.rem k m) s (quot (a.a.srem v) false) ∧
      Does (.remu k m) s (quot (a.a % v) false)) ∧
    (v = 0 → ∀ i ∈ [Instr.div k m, .divu k m, .rem k m, .remu k m],
      Does i s (out e (({ a with a := 0 }.setFlags ⟨false, true, false, false⟩).raise 1)))

/-- Floating point (15 R336): the result of IEEE 754 with its Z and N; an invalid operation gives the default quiet NaN and an overflow an
infinity, each with its exception; FCMP sets the flags of an order. Other sizes than 32 and 64 bits are illegal. -/
def Sys2Proof.Claims.FloatingPoint : Prop :=
  ∀ (s : State) (k : CoreId) (m : MOperand) (d : Dev), Begun s k 4 d →
    (∀ (e : Dev) (v x y : W64), d.readOperand k m = e.ok (v, x, y) → m.sz = 2 ∨ m.sz = 3 →
      let a := { e.arch k with x := x, y := y }
      let single := m.sz == 2
      let out (f : Dev) (b : Arch) : Dev := Finished s k 4 (f.setArch k b)
      (∀ p ∈ [(Instr.fadd k m, 0), (.fsub k m, 1), (.fmul k m, 2), (.fdiv k m, 3)],
        let r := f64arith p.2 (unpackF 11 52 a.a.toNat) (fpOperand single v) (fpSignal false a.a || fpSignal single v)
        (∀ b, r = .num b → ∃ c o : Bool, Does p.1 s (out { e with fresh := e.fresh + 2 }
          ({ a with a := BitVec.ofNat 64 b }.setFlags ⟨c, b % 2 ^ 63 == 0, (BitVec.ofNat 64 b).msb, o⟩))) ∧
        (r = .invalid → Does p.1 s (out e ({ a with a := defaultQuiet }.raise 2))) ∧
        (∀ neg, r = .overflow neg → Does p.1 s (out e ({ a with a := BitVec.ofNat 64 (f64inf neg) }.raise 3))) ∧
        (r = .quiet → ∃ (w : W64) (c o : Bool), Does p.1 s (out { e with fresh := e.fresh + 3 }
          ({ a with a := quietOf w }.setFlags ⟨c, false, (quietOf w).msb, o⟩)))) ∧
      (∀ o, f64compare (unpackF 11 52 a.a.toNat) (fpOperand single v) = some o →
        Does (.fcmp k m) s (out e (a.setFlags ⟨o == .lt, o == .eq, o == .lt, false⟩)))) ∧
    (m.sz = 0 ∨ m.sz = 1 → ∀ i ∈ [Instr.fadd k m, .fsub k m, .fmul k m, .fdiv k m, .fcmp k m], Does i s (Trapped s k d 1 0 0))

/-- The register group (15 Table 15-5): RD takes its result of RD and RS; the shifts and NOT clear C and V; moves leave ST as it is. Register code
3, and CQ numbers above 7, are illegal. -/
def Sys2Proof.Claims.RegisterGroup : Prop :=
  ∀ (s : State) (k : CoreId) (rd rs : BitVec 2) (n : BitVec 6) (d : Dev), Begun s k 4 d →
    let a := d.arch k
    let v := a.gpr rs.toNat
    let u := a.gpr rd.toNat
    let set (r : W64) : Arch := a.setGpr rd.toNat r
    let out (b : Arch) : Dev := Finished s k 4 (d.setArch k b)
    let logic (r : W64) : Dev := out ((set r).setFlags ⟨false, r == 0, r.msb, false⟩)
    (rd ≠ 3 → rs ≠ 3 → ∀ p ∈ [
        (Instr.mov k rd rs, out (set v)),
        (.neg k rd rs, out ((set (0 - v)).setFlags (subFlags 0 v))),
        (.not k rd rs, logic (~~~ v)),
        (.shl k rd rs n, logic (v <<< n.toNat)),
        (.shr k rd rs n, logic (v >>> n.toNat)),
        (.sar k rd rs n, logic (v.sshiftRight n.toNat)),
        (.rol k rd rs n, logic (v.rotateLeft n.toNat)),
        (.sext8 k rd rs, out (set ((v.setWidth 8).signExtend 64))),
        (.sext16 k rd rs, out (set ((v.setWidth 16).signExtend 64))),
        (.sext32 k rd rs, out (set ((v.setWidth 32).signExtend 64))),
        (.addRegister k rd rs, out ((set (u + v)).setFlags (addFlags u v))),
        (.subRegister k rd rs, out ((set (u - v)).setFlags (subFlags u v))),
        (.andRegister k rd rs, logic (u &&& v)),
        (.orRegister k rd rs, logic (u ||| v)),
        (.xorRegister k rd rs, logic (u ^^^ v))], Does p.1 s p.2) ∧
    (rd ≠ 3 → rs ≠ 3 → ∃ (w : W64) (f : Flags), Does (.fcvt k rd rs) s
      (Finished s k 4 ({ d with fresh := d.fresh + 2 }.setArch k ((set w).setFlags f)))) ∧
    (rd ≠ 3 → n.toNat < 8 → Does (.movcq k rd n) s (out (set (Table.get 0 a.cq n.toNat)))) ∧
    (rd = 3 ∨ rs = 3 → ∀ i ∈ [Instr.mov k rd rs, .neg k rd rs, .not k rd rs, .shl k rd rs n, .shr k rd rs n, .sar k rd rs n,
        .rol k rd rs n, .sext8 k rd rs, .sext16 k rd rs, .sext32 k rd rs, .addRegister k rd rs, .subRegister k rd rs,
        .andRegister k rd rs, .orRegister k rd rs, .xorRegister k rd rs, .fcvt k rd rs], Does i s (Trapped s k d 1 0 0)) ∧
    (rd = 3 ∨ 8 ≤ n.toNat → Does (.movcq k rd n) s (Trapped s k d 1 0 0))

/-- The immediate groups (15 Table 15-5): the immediate is sign-extended from 20 bits, or from 48 in the long forms, which are 8 bytes long. -/
def Sys2Proof.Claims.ImmediateGroups : Prop :=
  ∀ (s : State) (k : CoreId) (rd : BitVec 2) (i20 : BitVec 20) (i48 : BitVec 48) (d : Dev),
    let a := d.arch k
    let u := a.gpr rd.toNat
    let set (r : W64) : Arch := a.setGpr rd.toNat r
    let v := i20.signExtend 64
    let l := i48.signExtend 64
    let out (len : Nat) (b : Arch) : Dev := Finished s k len (d.setArch k b)
    let logic (r : W64) : Dev := out 4 ((set r).setFlags ⟨false, r == 0, r.msb, false⟩)
    (rd ≠ 3 → Begun s k 4 d → ∀ p ∈ [
        (Instr.ldi k rd i20, out 4 (set v)),
        (.addi k rd i20, out 4 ((set (u + v)).setFlags (addFlags u v))),
        (.cmpi k rd i20, out 4 (a.setFlags (subFlags u v))),
        (.andi k rd i20, logic (u &&& v)),
        (.ori k rd i20, logic (u ||| v)),
        (.xori k rd i20, logic (u ^^^ v))], Does p.1 s p.2) ∧
    (rd ≠ 3 → Begun s k 8 d → ∀ p ∈ [
        (Instr.ldiL k rd i48, out 8 (set l)),
        (.addiL k rd i48, out 8 ((set (u + l)).setFlags (addFlags u l))),
        (.cmpiL k rd i48, out 8 (a.setFlags (subFlags u l)))], Does p.1 s p.2) ∧
    (rd = 3 →
      (Begun s k 4 d → ∀ i ∈ [Instr.ldi k rd i20, .addi k rd i20, .cmpi k rd i20, .andi k rd i20, .ori k rd i20, .xori k rd i20],
        Does i s (Trapped s k d 1 0 0)) ∧
      (Begun s k 8 d → ∀ i ∈ [Instr.ldiL k rd i48, .addiL k rd i48, .cmpiL k rd i48], Does i s (Trapped s k d 1 0 0)))

/-- What the arithmetic of the Sahxel cores leaves (15 R328, R336). -/
def Obligations.ArithmeticAndLogic : Prop :=
  Claims.OperandArithmetic ∧ Claims.FloatingPoint ∧ Claims.RegisterGroup ∧ Claims.ImmediateGroups

/-- The stacks (15 R332, R333): PUSH and CALL move down and PUSH does not pass DSP_LIM; POP and RET move up; a return slot that is tagged is
refused; DROP accesses nothing. -/
def Sys2Proof.Claims.Stacks : Prop :=
  ∀ (s : State) (k : CoreId) (r : Fin 4) (n : BitVec 8) (d : Dev), Begun s k 4 d →
    let a := d.arch k
    let top := (a.dsp - 8).toNat
    let value := if r.val = 3 then a.st &&& 0x81F else a.gpr r
    (∀ e : Dev, a.dspLim.toNat ≤ top → d.storeVal k a.ddc 17 top 8 value.toNat false = e.ok () →
      Does (.push k r) s (Finished s k 4 (e.setArch k { e.arch k with dsp := a.dsp - 8 }))) ∧
    (top < a.dspLim.toNat → Does (.push k r) s (Trapped s k d 5 0 0)) ∧
    (∀ (e : Dev) (v : Nat), d.loadVal k a.ddc 17 a.dsp.toNat 8 = e.ok v →
      let b := { e.arch k with dsp := a.dsp + 8 }
      Does (.pop k r) s (Finished s k 4 (e.setArch k
        (if r.val = 3 then b.putSt (BitVec.ofNat 64 v) else b.setGpr r (BitVec.ofNat 64 v))))) ∧
    (n ≠ 0 → Does (.drop k n) s (Finished s k 4 (d.setArch k { a with dsp := a.dsp + BitVec.ofNat 64 (8 * n.toNat) }))) ∧
    (n = 0 → Does (.drop k n) s (Trapped s k d 1 0 0)) ∧
    (∀ e f : Dev, d.slotOk k a.rsp.toNat false = e.ok () → e.tag a.rsp.toNat = false → e.poisonedRange a.rsp.toNat 16 = false →
      let t : W64 := BitVec.ofNat 64 (valueLE (e.memBytes a.rsp.toNat 8))
      e.targetOk k t = f.ok () →
        Does (.ret k) s (Retired k (f.setArch k { (f.arch k).goto t with rsp := a.rsp + 16 }))) ∧
    (∀ e : Dev, d.slotOk k a.rsp.toNat false = e.ok () → e.tag a.rsp.toNat = true → Does (.ret k) s (Trapped s k e 7 1 0))

/-- Branches, jumps and calls (15 R333, R334, Table 15-7): the sixteen conditions, targets in words from the branch's own address, the return
address in the slot below RSP. -/
def Sys2Proof.Claims.BranchesAndCalls : Prop :=
  ∀ (s : State) (k : CoreId) (c : BitVec 4) (off : BitVec 22) (off26 : BitVec 26) (m : MOperand) (d : Dev), Begun s k 4 d →
    let a := d.arch k
    let cf := a.st.getLsbD 0
    let zf := a.st.getLsbD 1
    let nf := a.st.getLsbD 2
    let vf := a.st.getLsbD 3
    let holds : Bool := match c.toNat with
      | 0 => true | 1 => zf | 2 => !zf | 3 => cf | 4 => !cf | 5 => nf | 6 => !nf | 7 => vf | 8 => !vf
      | 9 => !cf && !zf | 10 => cf || zf | 11 => nf == vf | 12 => nf != vf | 13 => !zf && nf == vf | _ => zf || nf != vf
    let target := a.pc + off.signExtend 64 * 4
    let called (e : Dev) (t : W64) : Dev :=
      let f := e.coreStore k (a.rsp - 16).toNat (bytesLE 16 (a.pc + 4).toNat) false
      f.setArch k { (f.arch k).goto t with rsp := a.rsp - 16 }
    let room := a.rspLim.toNat ≤ (a.rsp - 16).toNat
    (c ≠ 15 → holds = false → Does (.bcc k c off) s (Finished s k 4 d)) ∧
    (∀ e : Dev, c ≠ 15 → holds = true → d.targetOk k target = e.ok () →
      Does (.bcc k c off) s (Retired k (e.setArch k ((e.arch k).goto target)))) ∧
    (c = 15 → Does (.bcc k c off) s (Trapped s k d 1 0 0)) ∧
    (∀ (ea : Ea) (e : Dev), a.ea m = some ea → d.targetOk k ea.addr = e.ok () →
      Does (.jmp k m) s (Retired k (let f := e.setArch k ((e.arch k).goto ea.addr)
        f.setArch k { f.arch k with x := ea.x, y := ea.y }))) ∧
    (∀ e f : Dev, room → d.slotOk k (a.rsp - 16).toNat true = e.ok () → e.targetOk k (a.pc + off26.signExtend 64 * 4) = f.ok () →
      Does (.call k off26) s (Retired k (called f (a.pc + off26.signExtend 64 * 4)))) ∧
    (∀ (ea : Ea) (e f : Dev), a.ea m = some ea → room → d.slotOk k (a.rsp - 16).toNat true = e.ok () → e.targetOk k ea.addr = f.ok () →
      Does (.calli k m) s (Retired k (let g := called f ea.addr
        g.setArch k { g.arch k with x := ea.x, y := ea.y }))) ∧
    (¬ room → Does (.call k off26) s (Trapped s k d 6 0 0))

/-- Block instructions (15 R342, R343, Table 15-8): elements are performed one at a time, so that the registers stand for the rest when the
instruction is left before its end; with A = 0 it ends at once. -/
def Sys2Proof.Claims.BlockInstructions : Prop :=
  ∀ (s : State) (k : CoreId) (sz : BitVec 2) (n : Nat) (d : Dev), Begun s k 4 d →
    let a := d.arch k
    let size := szBytes sz
    let w : W64 := BitVec.ofNat 64 size
    let aligned := a.x.toNat % size = 0
    let both := aligned ∧ a.y.toNat % size = 0
    let left (e : Dev) : Dev := (e.commitDone k).stepEnd k 1
    let out (e : Dev) (last : Bool) : Dev := if last then Finished s k 4 e else left (e.commitDone k)
    (a.a = 0 → Does (.bmov k sz n) s (Finished s k 4 (d.setArch k a)) ∧ Does (.bmovd k sz n) s (Finished s k 4 (d.setArch k a)) ∧
      Does (.bfill k sz n) s (Finished s k 4 (d.setArch k a)) ∧
      Does (.bfind k sz n) s (Finished s k 4 (d.setArch k (a.setFlag 1 false)))) ∧
    (∀ (e f : Dev) (v : Nat) (p : Bool), a.a ≠ 0 → both → d.loadRaw k a.ddc 17 a.x.toNat size = e.ok (v, p) →
      e.storeVal k a.ddc 17 a.y.toNat size v p = f.ok () →
      let b := { f.arch k with a := a.a - 1 }
      Does (.bmov k sz 1) s (out (f.setArch k { b with x := a.x + w, y := a.y + w }) (a.a == 1)) ∧
      Does (.bmovd k sz 1) s (out (f.setArch k { b with x := a.x - w, y := a.y - w }) (a.a == 1))) ∧
    (∀ e : Dev, a.a ≠ 0 → aligned → d.storeVal k a.ddc 17 a.x.toNat size a.y.toNat false = e.ok () →
      Does (.bfill k sz 1) s (out (e.setArch k { e.arch k with x := a.x + w, a := a.a - 1 }) (a.a == 1))) ∧
    (∀ (e : Dev) (v : Nat), a.a ≠ 0 → aligned → d.loadVal k a.ddc 17 a.x.toNat size = e.ok v →
      let b := { e.arch k with x := a.x + w, a := a.a - 1 }
      Does (.bfind k sz 1) s
        (if v = a.y.toNat % 2 ^ (8 * size) then Finished s k 4 (e.setArch k ((e.arch k).setFlag 1 true))
        else out (e.setArch k (if a.a = 1 then b.setFlag 1 false else b)) (a.a == 1))) ∧
    (a.a ≠ 0 → ¬ aligned → ∀ i ∈ [Instr.bmov k sz n, .bmovd k sz n, .bfill k sz n, .bfind k sz n],
      Does i s (Trapped s k d 2 0 a.x.toNat))

/-- TAS, LR and SC (15 R337-R340): TAS writes 0xFF and reports what stood there; LR reserves the 64-byte granule; SC stores only under a
reservation of its granule and gives it up either way. -/
def Sys2Proof.Claims.Atomics : Prop :=
  ∀ (s : State) (k : CoreId) (m : MOperand) (d e : Dev) (pa va : Nat), Begun s k 4 d →
    let bytes := szBytes m.sz
    (∀ (f : Dev) (l : List Byte), d.atomicAt k m (m.sz == 0) = e.ok (pa, va) → e.getMem true pa 1 = (f, l, false) →
      let old : W64 := BitVec.ofNat 64 (valueLE l)
      let g := (f.coreStore k pa [0xFF] false).commits k
      Does (.tas k m) s (Finished s k 4 (g.setArch k ({ g.arch k with a := old }.setFlags ⟨false, old == 0, false, false⟩)))) ∧
    (∀ (f : Dev) (l : List Byte), d.atomicAt k m (m.sz == 2 || m.sz == 3) = e.ok (pa, va) → e.getMem true pa bytes = (f, l, false) →
      let c := f.core k
      Does (.lr k m) s (Finished s k 4 (f.setCore k
        { c with arch := { c.arch with a := BitVec.ofNat 64 (valueLE l) }, resv := some (pa / 64) }))) ∧
    (d.atomicAt k m (m.sz == 2 || m.sz == 3) = e.ok (pa, va) →
      let stored := e.coreStore k pa (bytesLE bytes (e.arch k).a.toNat) false
      let done (f : Dev) (ok : Bool) : Dev :=
        let g := f.commits k
        Finished s k 4 (g.setCore k { g.core k with arch := (g.arch k).setFlag 1 ok, resv := none })
      ((e.core k).resv = some (pa / 64) → Does (.sc k m) s (done stored true)) ∧
      ((e.core k).resv ≠ some (pa / 64) → Does (.sc k m) s (done e false))) ∧
    (m.mode = 5 ∨ m.mode = 6 ∨ m.mode = 7 → ∀ i ∈ [Instr.tas k m, .lr k m, .sc k m], Does i s (Trapped s k d 1 0 0))

/-- Stacks, branches, blocks and atomics (15 R332-R344). -/
def Obligations.ControlFlow : Prop :=
  Claims.Stacks ∧ Claims.BranchesAndCalls ∧ Claims.BlockInstructions ∧ Claims.Atomics

/-- Barriers, doors, traps and returns (16 R364, 17 R381-R392). -/
def Sys2Proof.Claims.DoorsTrapsAndReturns : Prop :=
  ∀ (s : State) (k : CoreId) (n : BitVec 4) (d : Dev), Begun s k 4 d →
    let a := d.arch k
    let code : Capability := Table.get {} a.doors (2 * n.toNat)
    let data : Capability := Table.get {} a.doors (2 * n.toNat + 1)
    let calm := (s.dev.arch k).arithPend = false
    let is (remote : Bool) := (s.dev.arch k).doorAttr.getLsbD n.toNat = remote
    (∀ i ∈ [Instr.fence k, .ibar k, .icinvAll k], Does i s (Finished s k 4 d)) ∧
    (∀ (e : Dev) (pa : Nat), a.ddc.check .read a.x.toNat 1 = none → d.translate k a.x.toNat 0 = e.ok pa →
      Does (.icinv k) s (Finished s k 4 e)) ∧
    (calm → is false → doorUsable code data = true → a.depth.toNat < 4 →
      Does (.door k n) s (Retired k (d.setArch k { a with
        links := (a.pcc.move (a.pc + 4), a.ddc) :: a.links, pcc := code.opened, ddc := data.opened, depth := a.depth + 1 }))) ∧
    (calm → is false → doorUsable code data = false → Does (.door k n) s (Trapped s k d 0x0B 1 0)) ∧
    (calm → is true → k.val ≠ 4 → doorUsable code data = true → d.stepping k = false →
      let q : DoorReq := { type := BitVec.ofNat 64 (code.otype.toNat + 2 ^ 31), a := a.a, x := a.x, y := a.y, taken := false }
      let e := { d with dreqs := Table.put {} d.dreqs k q }
      Does (.remoteDoor k n) s
        ((((e.setCore k { e.core k with doorWait := some d.tick }).commits k).commitDone k).stepEnd k 1)) ∧
    (∀ p c r, calm → a.links = (p, c) :: r → 1 ≤ a.depth.toNat → a.depth.toNat ≤ 4 →
      Does (.doorOut k) s (Retired k (d.setArch k { a with pcc := p, ddc := c, links := r, depth := a.depth - 1 }))) ∧
    (calm → a.depth = 0 → Does (.doorOut k) s (Trapped s k d 0x0B 2 0)) ∧
    (∀ v : BitVec 8, calm →
      let e := d.takeException k a.lvl v.toNat (a.pc + 4) (BitVec.ofNat 64 (0x0D + v.toNat * 256)) 0
      Does (.trap k v) s (((e.setCore k (e.core k).retired).commitDone k).stepEnd k 2)) ∧
    (calm → d.rteFailure k a.lvl = none → Does (.rte k) s (Retired k (d.restoreSet k a.lvl))) ∧
    (∀ f, calm → d.rteFailure k a.lvl = some f → Does (.rte k) s (Trapped s k d 0x0C f 0))

/-- A remote DOOR ends with SP's reply, which is an MTS of REP, or with its time-out (17 R384, R385): A and Z take their values, and it
retires. -/
def Sys2Proof.Claims.RemoteDoorsEnd : Prop :=
  ∀ (s : State),
    (∀ (k : CoreId) (t : Nat), Clocked s → s.dev.coreRuns k = true → (s.dev.core k).doorWait = some t →
      t + 6000 * s.dev.f (pgIntc k) F.RDOOR_TMO_TMO ≤ s.dev.tick →
      Gives (.remoteDoorTimeout k) s fun d =>
        bitAt (Table.get ({} : DoorReq) d.dreqs k).type 31 = false ∧ (d.core k).doorWait = none ∧
        (d.arch k).a = 0 ∧ (d.arch k).st.getLsbD 1 = false ∧ (d.arch k).pc = (s.dev.arch k).pc + 4 ∧ d.mem = s.dev.mem) ∧
    (∀ (rs : BitVec 2) (j : Fin 4) (d : Dev), Begun s 4 4 d → rs ≠ 3 → (d.arch 4).pcc.has permSysreg = true →
      bitAt (Table.get ({} : DoorReq) d.dreqs j).type 31 = true →
      d.on (pgIntc j) F.LS_STAT_RECOVERING = false → (d.core j).doorWait.isSome = true →
      ∃ e : Dev, Does (.dreqReply rs j) s (Finished s 4 4 (e.commits 4)) ∧
        bitAt (Table.get ({} : DoorReq) e.dreqs j).type 31 = false ∧ (e.core j).doorWait = none ∧
        (e.arch j).a = (d.arch 4).gpr rs.toNat ∧ (e.arch j).st.getLsbD 1 = true ∧ (e.arch j).pc = (d.arch j).pc + 4 ∧
        e.mem = d.mem ∧ e.regs = d.regs)

/-- Barriers, doors, traps and returns, and how a remote DOOR ends (16 R364, 17 R381-R392). -/
def Obligations.DoorsAndTraps : Prop :=
  Claims.DoorsTrapsAndReturns ∧ Claims.RemoteDoorsEnd

/-- Entry to an exception level whose save set is free, through a usable vector (17 R387, R390): set n holds the interrupted state, LVL is n,
IE is 0, OCC of the level is 1, PCC and DDC are the vector's, the reservation is gone. -/
def Sys2Proof.Claims.ExceptionEntry : Prop :=
  ∀ (d : Dev) (k : CoreId) (n v : Nat) (pc cause faddr : W64) (code data : Capability), n < 8 →
    (d.arch k).occ.getLsbD n = false → d.vectorAt k v = some (code, data) →
    let a := d.arch k
    let e := d.takeException k n v pc cause faddr
    let b := e.arch k
    b.saved n = { pc := pc, st := a.st, a := a.a, x := a.x, y := a.y, cause := cause, faddr := faddr, pcc := a.pcc, ddc := a.ddc } ∧
    (∀ m, m ≠ n → b.saved m = a.saved m) ∧ b.occ = a.occ ||| (1#8 <<< n) ∧ b.lvl = n ∧ b.ie = false ∧
    b.st.extractLsb' 0 8 = a.st.extractLsb' 0 8 ∧ b.pcc = code ∧ b.ddc = data ∧ b.a = a.a ∧ b.x = a.x ∧ b.y = a.y ∧
    b.rsp = a.rsp ∧ b.dsp = a.dsp ∧ (e.core k).resv = none ∧ (e.core k).cps = [] ∧ e.mem = d.mem ∧ e.regs = d.regs

/-- RTE without a spilled frame undoes an entry (17 R391): PCC with its address, DDC, A, X, Y and ST come back from set n, and the level is no
longer occupied. -/
def Sys2Proof.Claims.ExceptionReturn : Prop :=
  ∀ (d : Dev) (k : CoreId) (n : Nat), n < 8 → d.rteFailure k n = none → (d.arch k).spill.getLsbD n = false →
    let a := d.arch k
    let t := a.saved n
    let b := (d.restoreSet k n).arch k
    a.occ.getLsbD n = true ∧ t.pcc.tag = true ∧ t.ddc.tag = true ∧
    b.pcc = { t.pcc with addr := t.pc } ∧ b.ddc = t.ddc ∧ b.a = t.a ∧ b.x = t.x ∧ b.y = t.y ∧ b.st = t.st &&& 0xF1F ∧ b.lvl ≤ n ∧
    b.occ.getLsbD n = false ∧ (∀ m, m ≠ n → b.occ.getLsbD m = a.occ.getLsbD m) ∧ b.sets = a.sets ∧ b.rsp = a.rsp ∧
    (d.restoreSet k n).mem = d.mem

/-- Exception entry and return (17 R387, R390, R391). -/
def Obligations.ExceptionEntryAndReturn : Prop :=
  Claims.ExceptionEntry ∧ Claims.ExceptionReturn

/-- The capability group (17 R376): the register CD, or A, takes what the instruction makes of CS, CT and A. -/
def Sys2Proof.Claims.CapabilityInstructions : Prop :=
  ∀ (s : State) (k : CoreId) (o : KOperand) (d : Dev), Begun s k 4 d →
    let a := d.arch k
    let cs := a.cap o.cs.toNat
    let ct := a.cap o.ct.toNat
    let out (b : Arch) : Dev := Finished s k 4 (d.setArch k b)
    let cd (c : Capability) : Dev := out (a.setCap o.cd.toNat c)
    let word (v : W64) : Dev := out { a with a := v }
    (∀ p ∈ [(0, cs.addr), (1, BitVec.ofNat 64 cs.base), (2, BitVec.ofNat 64 cs.len), (3, cs.perms.setWidth 64),
        (4, cs.otype.setWidth 64), (5, cs.sealing.setWidth 64), (6, if cs.tag then 1 else 0), (7, cs.xp.setWidth 64)],
      o.sel.toNat = p.1 → Does (.krd k o) s (word p.2)) ∧
    (8 ≤ o.sel.toNat → Does (.krd k o) s (Trapped s k d 1 0 0)) ∧
    Does (.kadr k o) s (cd { cs with addr := a.a, tag := cs.tag && cs.fits a.a && cs.sealing == 0 }) ∧
    Does (.kinc k o) s (cd { cs with addr := cs.addr + a.a, tag := cs.tag && cs.fits (cs.addr + a.a) && cs.sealing == 0 }) ∧
    Does (.kbnd k o) s (cd (cs.bound a.a.toNat)) ∧
    Does (.kprm k o) s (cd { cs with perms := cs.perms &&& a.a.setWidth 16, tag := cs.tag && cs.sealing == 0 }) ∧
    Does (.kmov k o) s (cd cs) ∧ Does (.kpc k o) s (cd a.pcc) ∧
    Does (.kddc k o) s (out { a with ddc := cs }) ∧
    (∀ (e f : Dev) (pa : Nat), d.capCheckAt cs o.cs.toNat .fetch cs.addr.toNat 4 = e.ok () → e.translate k cs.addr.toNat 2 = f.ok pa →
      Does (.kjmp k o) s (Retired k (f.setArch k { f.arch k with pcc := cs }))) ∧
    (∀ c, cs.lock ct (bitsOf a.a 0 12) (o.sel.getLsbD 0) = .ok c → Does (.klock k o) s (cd c)) ∧
    (∀ c, cs.unlock ct = .ok c → Does (.kopen k o) s (cd c)) ∧
    (∀ kind onCt, cs.lock ct (bitsOf a.a 0 12) (o.sel.getLsbD 0) = .error (kind, onCt) →
      Does (.klock k o) s (Trapped s k d 9 (kind + 16 * (if onCt then o.ct.toNat else o.cs.toNat)) 0)) ∧
    (∀ kind onCt, cs.unlock ct = .error (kind, onCt) →
      Does (.kopen k o) s (Trapped s k d 9 (kind + 16 * (if onCt then o.ct.toNat else o.cs.toNat)) 0))

/-- No operation of the capability group yields a tagged capability with a permission that its source lacks, or with bounds outside its
source's (17 R373); sealing needs SEAL and unsealing UNSEAL in a tagged, unsealed authority whose bounds hold the type. -/
def Obligations.CapabilitiesNeverGrow : Prop :=
  ∀ (c t : Capability) (a : W64) (l n : Nat) (m : BitVec 16) (entry : Bool),
    let within (r : Capability) : Prop :=
      r.tag = true → c.tag = true ∧ (∀ p, r.has p = true → c.has p = true) ∧ c.base ≤ r.base ∧ r.top ≤ c.top
    within (c.setAddr a) ∧ within (c.bound l) ∧ within (c.reduce m) ∧ within (c.move a) ∧
    (∀ r, c.lock t n entry = .ok r →
      within r ∧ t.tag = true ∧ t.sealing = 0 ∧ t.has permSeal = true ∧ t.base ≤ n ∧ n < t.top ∧ c.sealing = 0) ∧
    (∀ r, c.unlock t = .ok r →
      within r ∧ t.tag = true ∧ t.sealing = 0 ∧ t.has permUnseal = true ∧ t.base ≤ c.otype.toNat ∧ c.otype.toNat < t.top ∧ r.sealing = 0)

/-- KLD and KST (17 R372, R376): a capability with its tag, which Core SRAM keeps and LOAD_CAP lets through; a tagged capability is stored
only with STORE_CAP. Any other store to the granule clears its tag. -/
def Sys2Proof.Claims.CapabilitiesInMemory : Prop :=
  ∀ (s : State) (k : CoreId) (o : KOperand) (d : Dev), Begun s k 4 d →
    let a := d.arch k
    let va := (a.kaddr o).1.toNat
    let c := (a.kaddr o).2.1
    let reg := (a.kaddr o).2.2
    let v := a.cap o.cd.toNat
    (∀ (e f : Dev) (pa : Nat) (l : List Byte), d.access k c reg .read va 16 0 = e.ok pa → isDevice pa = false →
      e.memCause pa 16 false false = none → e.getMem true pa 16 = (f, l, false) →
      Does (.kld k o) s (Finished s k 4 (f.setArch k ((f.arch k).setCap o.cd.toNat
        (Capability.ofBits (valueLE l) (wordPoison pa && f.tag pa && c.has permLoadCap)))))) ∧
    (∀ (e : Dev) (pa : Nat), va % 16 = 0 → lacksStoreCap c v.tag va = false → d.access k c reg .write va 16 1 = e.ok pa →
      isDevice pa = false → e.memCause pa 16 true false = none →
      Does (.kst k o) s (Finished s k 4 ((e.coreStore k pa (bytesLE 16 v.bits) false).setTag pa (wordPoison pa && v.tag)))) ∧
    (v.tag = true → c.check .write va 16 = none → c.has permStoreCap = false → va % 16 = 0 →
      Does (.kst k o) s (Trapped s k d 9 (3 + 16 * reg) va))

/-- A capability keeps all its fields through its 128 bits (17 Table 17-1). -/
def Sys2Proof.Claims.CapabilityBits : Prop := ∀ c : Capability, Capability.ofBits c.bits c.tag = c

/-- Capabilities in registers and in memory (17 R371-R376). -/
def Obligations.CapabilityGroup : Prop :=
  Claims.CapabilityInstructions ∧ Claims.CapabilitiesInMemory ∧ Claims.CapabilityBits

/-- MFS and MTS, KMFS and KMTS (15 R327, 17 R378, 18 R396): a register, under the SYSREG and TLB permissions of PCC. -/
def Sys2Proof.Claims.SystemRegisterMoves : Prop :=
  ∀ (s : State) (k : CoreId) (rd : BitVec 2) (r : BitVec 12) (o : KOperand) (d : Dev), Begun s k 4 d →
    let a := d.arch k
    let may (n : Nat) (write : Bool) : Prop :=
      (6 ≤ n ∨ (write = true ∧ (n = 3 ∨ n = 4)) → a.pcc.has permSysreg = true) ∧ (0x18 ≤ n → n < 0x30 → a.pcc.has permTlb = true)
    let n := bitsOf a.a 0 12
    (∀ v, rd ≠ 3 → may r.toNat false → d.sysRead k r.toNat = some v →
      Does (.mfs k rd r) s (Finished s k 4 (d.setArch k (a.setGpr rd.toNat v)))) ∧
    (∀ e : Dev, rd ≠ 3 → may r.toNat true → isRep k r.toNat = false → d.sysWrite k r.toNat (a.gpr rd.toNat) = .ok e →
      Does (.mts k rd r) s (Finished s k 4 e)) ∧
    (∀ code, code ≠ 0 → rd ≠ 3 → may r.toNat true → d.sysWrite k r.toNat (a.gpr rd.toNat) = .error code →
      Does (.mts k rd r) s (Trapped s k d code 0 0)) ∧
    (rd ≠ 3 → may r.toNat false → d.sysRead k r.toNat = none → Does (.mfs k rd r) s (Trapped s k d 1 0 0)) ∧
    (rd ≠ 3 → 6 ≤ r.toNat → a.pcc.has permSysreg = false →
      Does (.mfs k rd r) s (Trapped s k d 9 (3 + 16 * 16) 0) ∧ Does (.mts k rd r) s (Trapped s k d 9 (3 + 16 * 16) 0)) ∧
    (may n false → sysCap n = true → Does (.kmfs k o) s (Finished s k 4 (d.setArch k (a.setCap o.cd.toNat (a.sysCapRead n))))) ∧
    (may n true → sysCap n = true → Does (.kmts k o) s (Finished s k 4 (d.setArch k (a.sysCapWrite n (a.cap o.cs.toNat)))))

/-- The registers that MFS and MTS reach (15 Table 15-3, 17 Table 17-5, 18 Table 18-1): what a write keeps, and which writes are refused. -/
def Sys2Proof.Claims.SystemRegisters : Prop :=
  ∀ (d : Dev) (k : CoreId) (v : W64),
    let a := d.arch k
    let w (r : Nat) (b : Arch) : Prop := d.sysWrite k r v = .ok (d.setArch k b)
    (d.sysRead k 0 = some a.st ∧ d.sysRead k 1 = some a.dsp ∧ d.sysRead k 2 = some a.dspLim ∧ d.sysRead k 3 = some a.rsp ∧
      d.sysRead k 4 = some a.rspLim ∧ d.sysRead k 7 = some (a.depth.setWidth 64) ∧ d.sysRead k 8 = some a.arithPc ∧
      d.sysRead k 9 = some a.arithCause ∧ d.sysRead k 10 = some (a.doorAttr.setWidth 64) ∧ d.sysRead k 0x10 = some a.trapBase.addr ∧
      d.sysRead k 0x18 = some a.xlate ∧ d.sysRead k 0x19 = some a.ttb.addr) ∧
    w 0 { a with st := (a.st &&& ~~~ 0x81F) ||| (v &&& 0x81F) } ∧
    (v.toNat % 8 = 0 → w 1 { a with dsp := v } ∧ w 2 { a with dspLim := v }) ∧
    (v.toNat % 16 = 0 → 0x10000000 ≤ v.toNat → v.toNat < 0x12000000 → w 3 { a with rsp := v } ∧ w 4 { a with rspLim := v }) ∧
    (v.toNat % 8 ≠ 0 → ∀ r ∈ [1, 2, 3, 4], d.sysWrite k r v = .error 2) ∧
    (v.toNat % 16 ≠ 0 ∨ v.toNat < 0x10000000 ∨ 0x12000000 ≤ v.toNat → ∀ r ∈ [3, 4], d.sysWrite k r v = .error 2) ∧
    (∀ r ∈ [5, 6, 7, 0x20, 0x2F], d.sysWrite k r v = .error 1) ∧
    w 8 { a with arithPc := v } ∧ w 9 { a with arithCause := v } ∧ w 10 { a with doorAttr := v.setWidth 16 } ∧
    w 0x10 { a with trapBase := { a.trapBase with addr := v, tag := false } } ∧
    w 0x18 { a with xlate := v &&& 0xFF01 } ∧ w 0x19 { a with ttb := { a.ttb with addr := v, tag := false } }

/-- System registers and their moves (15 R327, 17 R378, 18 R396). -/
def Obligations.SystemRegisterGroup : Prop :=
  Claims.SystemRegisterMoves ∧ Claims.SystemRegisters

/-- With EN = 0 the physical address equals the virtual address; with either EN a virtual address at or above 2^48 is a TRANSLATION fault with
reason RANGE (18 R397). -/
def Obligations.TranslationOffAndRange : Prop :=
  ∀ (d : Dev) (k va acc : Nat),
    ((d.arch k).xlate.getLsbD 0 = false → va < 2 ^ 48 → d.translate k va acc = d.ok va) ∧
    (2 ^ 48 ≤ va → d.translate k va acc = ⟨d, .error ⟨0x0A, 4 + 256 * acc, va⟩⟩)

/-- The TLB of a core holds what its translation uses: the one locked entry that matches gives the address and the permissions without a walk
(18 R399, R404, R407); two matching entries are a MULTI_HIT fault. -/
def Sys2Proof.Claims.TranslationFromTlb : Prop :=
  ∀ (d : Dev) (k va acc : Nat) (e e2 : TlbEntry) (before after : List TlbEntry),
    va < 2 ^ 48 → (d.arch k).xlateOn = true → e.slot.isSome = true → e2.slot.isSome = true →
    let asid := (d.arch k).asid
    e.hits va asid = true → (∀ x ∈ before ++ after, x.hits va asid = false) →
    ((d.core k).tlb = before ++ e :: after → e.allows acc = true →
      d.translate k va acc = d.ok (if e.big then e.ppn / 16 * 65536 + va % 65536 else e.ppn * 4096 + va % 4096)) ∧
    ((d.core k).tlb = before ++ e :: e2 :: after → e2.hits va asid = true →
      ∃ f : Dev, d.translate k va acc = ⟨f, .error ⟨0x0A, 8 + 256 * acc, va⟩⟩)

/-- The TLB group (18 R409, Table 18-6): each operation needs TLB in PCC; the invalidations leave locked entries; TLBLOCK walks X and locks it in
the slot of A, TLBUNLOCK frees the slot, TLBPROBE reports without a fault. -/
def Sys2Proof.Claims.TlbOperations : Prop :=
  ∀ (s : State) (k : CoreId) (d : Dev), Begun s k 4 d →
    let a := d.arch k
    let tlb := (d.core k).tlb
    let slot := bitsOf a.a 0 4
    let keep (t : List TlbEntry) : Dev := Finished s k 4 (d.setTlb k t)
    (a.pcc.has permTlb = true →
      Does (.tlbiVa k) s (keep (tlb.filter (fun e => e.slot.isSome || !e.hits (a.x.toNat % 2 ^ 48) (bitsOf a.a 0 8)))) ∧
      Does (.tlbiAsid k) s (keep (tlb.filter (fun e => e.slot.isSome || (e.glob || e.asid != bitsOf a.a 0 8)))) ∧
      Does (.tlbiAll k) s (keep (tlb.filter (fun e => e.slot.isSome || false))) ∧
      (∀ (e : Dev) (t : TlbEntry), a.x.toNat < 2 ^ 48 → d.walk k a.x.toNat 0 a.asid (some slot) = e.ok t →
        let f := e.installLock k slot a.x.toNat t
        Does (.tlblock k) s (Finished s k 4 (f.setArch k { f.arch k with
          tlbl := Table.put 0 a.tlbl slot (BitVec.ofNat 64 (a.asid + nbits a.x.toNat 12 36 * 2 ^ 12 + 2 ^ 63)) }))) ∧
      (let e := d.setTlb k (tlb.filter (fun x => x.slot != some slot))
       Does (.tlbunlock k) s (Finished s k 4 (e.setArch k { e.arch k with
          tlbl := Table.put 0 a.tlbl slot (putBits (Table.get 0 a.tlbl slot) 63 1 0) }))) ∧
      ((∀ e ∈ tlb, e.hits a.x.toNat a.asid = false) → Does (.tlbprobe k) s (Finished s k 4 (d.setArch k { a with a := 0 }))) ∧
      (∀ (before after : List TlbEntry) (e : TlbEntry), a.x.toNat < 2 ^ 48 → tlb = before ++ e :: after → e.slot.isSome = true →
        e.hits a.x.toNat a.asid = true → (∀ x ∈ before ++ after, x.hits a.x.toNat a.asid = false) →
        Does (.tlbprobe k) s (Finished s k 4 (d.setArch k { a with a := e.probe a.x.toNat })))) ∧
    (a.pcc.has permTlb = false → ∀ i ∈ [Instr.tlbiVa k, .tlbiAsid k, .tlbiAll k, .tlblock k, .tlbunlock k, .tlbprobe k],
      Does i s (Trapped s k d 9 (3 + 16 * 16) 0))

/-- The TLB and its instructions (18 R399-R409). -/
def Obligations.TlbGroup : Prop :=
  Claims.TranslationFromTlb ∧ Claims.TlbOperations

/-- CPWAIT (15 R349): it retires only when every outstanding result has landed, and counts as one instruction; after it every CQ register holds
its final value, which is that of the youngest operation of the register that was not already overtaken, and CPSTAT reads 0. -/
def Obligations.CpWait : Prop :=
  ∀ (s : State) (k : CoreId),
    ((∃ o ∈ (s.dev.core k).cps, o.landed = false) → Does (.cpwait k) s s.dev) ∧
    (∀ d : Dev, (∀ o ∈ (s.dev.core k).cps, o.landed = true) → Begun s k 4 d →
      ∃ e : Dev, Does (.cpwait k) s (Finished s k 4 e) ∧ (e.core k).cps = [] ∧ (e.core k).cpstat = 0 ∧
        (∀ (older younger : List CpOp) (o : CpOp), (d.core k).cps = older ++ o :: younger → o.dead = false →
          (∀ p ∈ younger, p.cq = o.cq → p.dead = true) → Table.get 0 (e.arch k).cq o.cq = o.val) ∧
        (∀ n, (∀ o ∈ (d.core k).cps, o.cq = n → o.dead = true) → Table.get 0 (e.arch k).cq n = Table.get 0 (d.arch k).cq n) ∧
        { e.arch k with cq := [] } = { d.arch k with cq := [] } ∧ e.mem = d.mem ∧ e.regs = d.regs)

/-- CHKPT (19 R416): it waits for every result and makes a checkpoint behind itself; bits 25 to 0 that are not zero are illegal. -/
def Sys2Proof.Claims.CheckpointInstruction : Prop :=
  ∀ (s : State) (k : CoreId),
    ((s.dev.core k).outstanding = true → Does (.chkpt k 0) s s.dev) ∧
    (∀ d : Dev, (s.dev.core k).outstanding = false → Begun s k 4 d →
      let f := d.setArch k ((d.arch k).goto ((s.dev.arch k).pc + 4))
      Does (.chkpt k 0) s (((f.setCore k (f.core k).retired).checkpoint k).stepEnd k 1)) ∧
    (∀ (rest : BitVec 26) (d : Dev), rest ≠ 0 → Begun s k 4 d → Does (.chkpt k rest) s (Trapped s k d 1 0 0))

/-- A result lands in the order of issue (15 R346): the oldest operation whose result has not landed is the next. -/
def Sys2Proof.Claims.ResultsLandInOrder : Prop :=
  ∀ (s : State) (k : CoreId) (done rest : List CpOp) (o : CpOp), Clocked s →
    (s.dev.core k).cps = done ++ o :: rest → (∀ x ∈ done, x.landed = true) → o.landed = false →
    Does (.cqResultLand k) s (s.dev.setCore k { s.dev.core k with cps := done ++ { o with landed := true } :: rest })

/-- WFI waits until an enabled source is pending above LVL and then retires, whether IE is set or not (17 R392). -/
def Sys2Proof.Claims.WaitForInterrupt : Prop :=
  ∀ (s : State) (k : CoreId),
    (∀ d : Dev, Begun s k 4 d → d.stepping k = false →
      (d.wakes k = true → Does (.wfi k) s (Finished s k 4 d)) ∧
      (d.wakes k = false → Does (.wfi k) s
        (((d.setCore k { d.core k with wfi := true }).commitDone k).stepEnd k 1))) ∧
    (s.dev.coreRuns k = true → (s.dev.core k).wfi = true → s.dev.wakes k = true →
      Gives (.wfiWake k) s fun d => (d.core k).wfi = false ∧ (d.arch k).pc = (s.dev.arch k).pc + 4 ∧
        (∀ j, j ≠ k.val → d.core j = s.dev.core j) ∧ d.mem = s.dev.mem ∧ d.regs = s.dev.regs)

/-- The coprocessor port (15 R345, R351, Table 15-11): an operation whose page capability passes has its effect as it issues; its result goes
to CQn with the operation's latency. Reserved argument bits give BAD_ARG and a refused access its cause. -/
def Sys2Proof.Claims.CoprocessorPort : Prop :=
  ∀ (s : State) (k : CoreId) (o : COperand) (d : Dev), Begun s k 4 d →
    ((s.dev.core k).cps.filter (fun x => !x.landed)).length < 8 → d.stepping k = false →
    let a := d.arch k
    let c := a.cap o.cap.toNat
    let desc := bitsOf a.a 0 8
    let cas := bitsOf a.a 8 4
    let pipe := bitsOf a.a 16 1
    let lane := bitsOf a.a 0 6
    let issued (e : Dev) (v : W64) (lat : Nat) (commit : Bool) : Dev :=
      let f := e.setCore k { e.core k with cps := (e.core k).cps ++ [⟨o.cq.toNat, v, lat, 0, false, false⟩] }
      Finished s k 4 (if commit then f.commits k else f)
    let value (status v : Nat) : W64 := BitVec.ofNat 64 (status * 2 ^ 60 + v % 2 ^ 60)
    let passes (p off len : Nat) (write : Bool) : Prop := d.portCause k c p off len write = none
    (bitsOf a.a 12 52 = 0 →
      (bitsOf a.x 32 32 = 0 → passes (pgJq cas) 0x48 8 true →
        let post := d.post cas desc (d.offsetDeadline a.x.toNat) false 65
        match d.postRefusal (d.posting cas desc (d.offsetDeadline a.x.toNat) false) with
        | none => Does (.cp0Post k o) s (issued post (value 0 d.count) 12 true)
        | some code => Does (.cp0Post k o) s (issued post (value 1 code) 12 true)) ∧
      (passes (pgJq cas) (0x100 + 4 * (desc / 4)) 4 false →
        let e : Nat × Nat := Table.get (0, 0) d.jobEnds (256 * cas + desc)
        let miss := bitsOf (d.reg (pgJq cas + (0x100 + 4 * (desc / 4)))) (8 * (desc % 4)) 8
        Does (.rdjob k o) s (issued d (value 0 (e.1 * 2 ^ 58 + miss * 2 ^ 48 + e.2 % 2 ^ 48)) 8 false))) ∧
    (bitsOf a.a 6 2 = 0 → bitsOf a.a 10 2 = 0 → bitsOf a.a 18 46 = 0 → passes (pgSash lane) 0 4 false →
      let l := d.lane lane (bitsOf a.a 8 2)
      (bitsOf a.a 17 1 = 0 →
        Does (.rdlane k o) s (issued d (value 0 (Table.get (0 : W32) l.v (bitsOf a.a 12 5)).toNat) 16 false)) ∧
      (bitsOf a.a 16 2 = 2 →
        Does (.rdlane k o) s (issued d (value 0 (bitsOf (Table.get (0 : W64) l.acc (bitsOf a.a 12 4)) 0 32)) 16 false))) ∧
    (bitsOf a.a 0 16 = 0 → bitsOf a.a 17 47 = 0 → passes (pgSill pipe) 0x40 8 true →
      (∀ e n, d.sillStart pipe a.x.toNat = (e, .ok n) → Does (.cp1Start k o) s (issued e (value 0 n) 12 true)) ∧
      (∀ e code, d.sillStart pipe a.x.toNat = (e, .error code) → Does (.cp1Start k o) s (issued e (value 1 code) 12 true))) ∧
    (bitsOf a.a 17 47 = 0 →
      (passes (pgSill pipe) 0x4C 4 false →
        let r := d.cpState pipe (bitsOf a.a 0 16)
        Does (.cp1Stat k o) s (issued r.1 r.2 8 false)) ∧
      (passes (pgSill pipe) 0x58 4 true →
        let r := (d.sillCancel pipe (bitsOf a.a 0 16)).cpState pipe (bitsOf a.a 0 16)
        Does (.cp1Cancel k o) s (issued r.1 r.2 8 true))) ∧
    (bitsOf a.a 17 47 ≠ 0 → Does (.cp1Start k o) s (issued d (value 3 0) 12 true) ∧
      Does (.cp1Stat k o) s (issued d (value 3 0) 8 false) ∧ Does (.cp1Cancel k o) s (issued d (value 3 0) 8 true))

/-- The coprocessor port, the landing of its results, and CHKPT (15 R345-R351, 19 R416). -/
def Obligations.PortAndResults : Prop :=
  Claims.CoprocessorPort ∧ Claims.ResultsLandInOrder ∧ Claims.CheckpointInstruction

/-- Interrupts, arithmetic exceptions and automatic checkpoints are taken at an instruction boundary of a running core (17 R386, R388, R393;
19 R415). -/
def Sys2Proof.Claims.InterruptsAndExceptions : Prop :=
  ∀ (s : State) (k : CoreId), s.dev.coreRuns k = true →
    let c := s.dev.core k
    let sound (d : Dev) : Prop := d.on (pgIntc k) F.LS_STAT_RECOVERING = false ∧ d.on (pgIntc k) F.LS_STAT_FAILED = false
    (∀ p e t, c.arch.ie = true → c.arch.arithPend = false → c.doorWait = none → s.dev.sys.halted = false →
      s.dev.intTop k = some (p, e, t) → c.arch.lvl < p →
      let w := s.dev.wfiRetire k
      let d := w.takeException k p (0x110 + t) (w.arch k).pc (BitVec.ofNat 64 (0x0F + e * 2 ^ 24)) 0
      sound d → Does (.interruptEntry k) s ((d.intTake k e).stepEnd k 2)) ∧
    (c.arch.arithPend = true →
      let d := s.dev.setCore k { c with arch := { c.arch with arithPend := false }, since := 0, wfi := false }
      Does (.arithException k) s ((d.takeException k c.arch.lvl (0x108 + c.arch.lvl) c.arch.pc
        (BitVec.ofNat 64 (0x0E + bitsOf c.arch.arithCause 0 9 * 256)) 0).stepEnd k 2)) ∧
    (s.dev.chkDue k = true → Does (.autoCheckpoint k) s (s.dev.checkpoint k)) ∧
    (s.dev.intTop k = none → Does (.interruptEntry k) s s.dev)

/-- The source that an interrupt controller delivers (17 R393): none of the pending ones has a higher level, or its level and a lower EVENT. -/
def Sys2Proof.Claims.HighestSourceFirst : Prop :=
  ∀ (d : Dev) (k : Nat) (best : IntSource), d.intTop k = some best →
    best ∈ d.intSources k ∧ ∀ x ∈ d.intSources k, x.1 ≤ best.1 ∧ (x.1 = best.1 → best.2.1 ≤ x.2.1)

/-- Which interrupt is delivered, when, and how WFI waits for it (17 R386-R393). -/
def Obligations.InterruptDelivery : Prop :=
  Claims.InterruptsAndExceptions ∧ Claims.HighestSourceFirst ∧ Claims.WaitForInterrupt

/-- CORE_GO (17 R380): a held application pair starts from a sound start block with its registers, behind a checkpoint; another block sets
START_FAIL. -/
def Sys2Proof.Claims.CoreStart : Prop :=
  ∀ (s : State) (w : Who) (k : Fin 4), Accepts s w (pageIntc k) 0x48 4 1 →
    let p := pgIntc k
    let a := s.dev.r64 p 0x40
    s.dev.on p F.INTC_STATUS_HELD = true → s.dev.on p F.LS_STAT_FAILED = false →
    (s.dev.startOk a = true → Gives (.coreGo w k) s fun d =>
      (d.core k).running = true ∧ (d.arch k).pcc = s.dev.capAt a ∧ (d.arch k).ddc = s.dev.capAt (a + 0x10) ∧
      (d.arch k).rsp = BitVec.ofNat 64 (valueLE (s.dev.memBytes (a + 0x30) 8)) ∧
      (d.arch k).dsp = BitVec.ofNat 64 (valueLE (s.dev.memBytes (a + 0x40) 8)) ∧
      d.on p F.INTC_STATUS_HELD = false ∧ (d.core k).journal = [] ∧ d.mem = s.dev.mem ∧ d.resp = {}) ∧
    (s.dev.startOk a = false → Gives (.coreGo w k) s fun d =>
      d.on p F.INTC_STATUS_START_FAIL = true ∧ d.cores = s.dev.cores ∧ d.mem = s.dev.mem ∧ d.resp = {})

/-- Lockstep (19 R421-R425, R428): a mismatch starts a rollback, or fails the pair when one is already under way or the repeats are used up; a
recovery whose comparators pass and whose journal is empty restores the record; a failed test fails the pair. -/
def Sys2Proof.Claims.LockstepRecovery : Prop :=
  ∀ (s : State) (k : CoreId) (lane : Fin 1088), s.dev.domOn k = true → (lane < 704 ∨ k.val = 4) →
    let p := pgIntc k
    let c := s.dev.core k
    (Clocked s → c.running = true → s.dev.on p F.LS_STAT_FAILED = false →
      (s.dev.on p F.LS_STAT_RECOVERING = false → c.repeats < bitsOf (s.dev.lsCtrl k) 4 4 →
        Gives (.lockstepMismatch k lane) s fun d =>
          d.on p F.LS_STAT_RECOVERING = true ∧ d.f p F.LS_STAT_LAST_CAUSE = 1 ∧ (d.core k).repeats = c.repeats + 1 ∧
          (d.core k).resv = none ∧ (d.core k).tlb = [] ∧ (d.core k).record = c.record ∧ (d.core k).journal = c.journal ∧
          d.pulsesOf (1837 + k) = s.dev.pulsesOf (1837 + k) + 1 ∧ d.mem = s.dev.mem) ∧
      (s.dev.on p F.LS_STAT_RECOVERING = true →
        Gives (.lockstepMismatch k lane) s fun d =>
          d.on p F.LS_STAT_FAILED = true ∧ d.f p F.LS_STAT_FAIL_CAUSE = 1 ∧ (d.core k).running = false ∧ d.mem = s.dev.mem)) ∧
    (∀ bad : Option Nat, Clocked s → s.dev.on p F.LS_STAT_RECOVERING = true →
      Gives (.recoveryComplete k false bad) s fun d =>
        d.on p F.LS_STAT_FAILED = true ∧ d.f p F.LS_STAT_FAIL_CAUSE = 3 ∧ (d.core k).running = false ∧ d.mem = s.dev.mem) ∧
    (∀ r, Clocked s → s.dev.on p F.LS_STAT_RECOVERING = true → c.journal = [] → s.dev.slotPoisoned k = false → c.record = some r →
      (∀ n, Table.get (0 : W64) r.arch.tlbl n = 0) → c.reply = none →
      Gives (.recoveryComplete k true none) s fun d =>
        d.on p F.LS_STAT_RECOVERING = false ∧ d.arch k = r.arch ∧ (d.core k).resv = none ∧ (d.core k).wfi = false ∧
        d.mem = s.dev.mem)

/-- The patrol scrubber of Core SRAM (16 R367, R368): a word with an uncorrectable error is poisoned, counted and reported with its address;
corrections are counted; nothing else of the device changes. -/
def Sys2Proof.Claims.PatrolScrubber : Prop :=
  ∀ (s : State) (line : Fin 524288) (n : Nat) (w : Fin 8), Clocked s → s.dev.domOn 4 = true →
    let a := 0x10000000 + 64 * line.val + 8 * w.val
    (Gives (.csrPatrolScrub line n []) s fun d =>
      d.f pgFerr F.CSR_CORR_CORR = Nat.min (s.dev.f pgFerr F.CSR_CORR_CORR + Nat.min n 8) (2 ^ F.CSR_CORR_CORR.width - 1) ∧
      { d with regs := s.dev.regs } = s.dev) ∧
    (Gives (.csrPatrolScrub line n [w]) s fun d =>
      d.poisoned a = true ∧ d.r64 pgFerr 0x48 = a ∧ d.mem = s.dev.mem ∧
      d.f pgFerr F.CSR_UNCORR_UNCORR = Nat.min (s.dev.f pgFerr F.CSR_UNCORR_UNCORR + 1) (2 ^ F.CSR_UNCORR_UNCORR.width - 1) ∧
      (d.reg (pgFerr + 0x24)).getLsbD 0 = true)

/-- The start of a pair, its lockstep recovery, and the scrubber of its memory (17 R380, 19 R421-R428, 16 R367). -/
def Obligations.CoreLifecycle : Prop :=
  Claims.CoreStart ∧ Claims.LockstepRecovery ∧ Claims.PatrolScrubber

/-! HBM and the Sill streamers -/

/-- Temperature sets the refresh rate (20 R431, Table 20-1): it rises above 85, 100 and 115 °C and steps down 3 °C below a threshold. -/
def Sys2Proof.Claims.RefreshRate : Prop :=
  ∀ (s : State) (x : Fin 2) (t : BitVec 8), Clocked s → s.dev.domOn (domHbm x) = true →
    let cur := s.dev.f (pgHbm x) F.HBM_TEMP_REFRESH
    let past (l : Nat) (c : Int) : Prop := c < t.toInt ∨ (l ≤ cur ∧ c - 3 < t.toInt)
    Gives (.hbmTempReading x t) s fun d =>
      d.f (pgHbm x) F.HBM_TEMP_TEMP = t.toNat ∧
      (past 3 115 → d.f (pgHbm x) F.HBM_TEMP_REFRESH = 3) ∧
      (¬ past 3 115 → past 2 100 → d.f (pgHbm x) F.HBM_TEMP_REFRESH = 2) ∧
      (¬ past 3 115 → ¬ past 2 100 → past 1 85 → d.f (pgHbm x) F.HBM_TEMP_REFRESH = 1) ∧
      (¬ past 3 115 → ¬ past 2 100 → ¬ past 1 85 → d.f (pgHbm x) F.HBM_TEMP_REFRESH = 0) ∧
      { d with regs := s.dev.regs } = s.dev

/-- Reads and writes of a stack (20 R430, R435-R439): a page that was never written reads as zero without poison, a page that does not decode is
delivered with poison and logged, a write changes its bytes and no other and makes its page valid; an access that may not be made is
answered with its cause and changes no memory. -/
def Sys2Proof.Claims.HbmAccesses : Prop :=
  ∀ (s : State) (req : BitVec 10) (a : BitVec 48) (len : Nat) (out : Decode) (bytes : List Byte) (bad : Bool), Reached s →
    hbmBase 0 ≤ a.toNat →
    let x := (a.toNat - hbmBase 0) / 0x400000000
    let page := (a.toNat - hbmBase x) / 2048
    let valid := Table.get false (s.dev.hbm x).valid page
    (s.dev.memCause a.toNat len false false = none → valid = false →
      Does (.hbmRead req a len out false) s { s.dev with resp := { data := 0, poison := false } }) ∧
    (s.dev.memCause a.toNat len false false = none → valid = true → (∀ e ∈ (s.dev.hbm x).mb, e.page ≠ page) →
      s.dev.f (pgHbm x) F.HBM_CTRL_MODE = 0 →
      Gives (.hbmRead req a len .clean false) s (fun d =>
        d.resp = { data := valueLE (s.dev.bytes a.toNat len), poison := s.dev.poisoned a.toNat || s.dev.poisoned (a.toNat + len - 1) } ∧
        d.mem = s.dev.mem ∧ d.regs = s.dev.regs) ∧
      Gives (.hbmRead req a len .uncorrectable false) s (fun d =>
        d.resp = { data := valueLE (s.dev.bytes a.toNat len), poison := true } ∧ d.mem = s.dev.mem ∧
        d.r64 (pgScrub x) 0x80 = hbmBase x + 2048 * page ∧ d.pulsesOf (1843 + x) = s.dev.pulsesOf (1843 + x) + 1)) ∧
    (∀ c, s.dev.memCause a.toNat len false false = some c →
      Gives (.hbmRead req a len out false) s fun d => d.resp = { error := some c } ∧ d.mem = s.dev.mem ∧ d.hbms = s.dev.hbms) ∧
    (s.dev.memCause a.toNat bytes.length true false = none → 0 < bytes.length → a.toNat % 2048 + bytes.length ≤ 2048 →
      (∀ e ∈ (s.dev.hbm x).mb, e.page = page → valid = true) →
      Gives (.hbmWrite req a bytes bad) s fun d =>
        d.resp = {} ∧ d.bytes a.toNat bytes.length = bytes ∧
        (∀ b, b < a.toNat ∨ a.toNat + bytes.length ≤ b → d.byte b = s.dev.byte b) ∧
        Table.get false (d.hbm x).valid page = true) ∧
    (∀ c, s.dev.memCause a.toNat bytes.length true false = some c →
      Gives (.hbmWrite req a bytes bad) s fun d => d.resp = { error := some c } ∧ d.mem = s.dev.mem ∧ d.hbms = s.dev.hbms)

/-- HBM: refresh, and the accesses of a stack (20 R430-R439). -/
def Obligations.HbmPagesAndAccesses : Prop :=
  Claims.RefreshRate ∧ Claims.HbmAccesses

/-- The merge buffer and the valid bits (20 R436-R438): an entry that has reached HBM_MB_AGE is written back, a flush leaves no dirty entry, and
an invalidated range reads as zero, without poison, and nothing outside it changes. -/
def Sys2Proof.Claims.HbmPages : Prop :=
  ∀ (s : State) (w : Who) (x : Fin 2) (mode : BitVec 2) (page : BitVec 23) (before after : List MbEntry) (e : MbEntry),
    (Clocked s → (s.dev.hbm x).mb = before ++ e :: after → e.page = page.toNat → e.dirty = true →
      (∀ y ∈ before ++ after, y.page ≠ e.page) → e.last + 6000 * s.dev.f (pgHbm x) F.HBM_MB_AGE_AGE ≤ s.dev.tick →
      Does (.mbAgeWriteback x page false) s (s.dev.setHbm x { s.dev.hbm x with
        mb := before ++ { e with complete := true, dirty := false, mask := 0 } :: after })) ∧
    (Accepts s w (pageHbm x) 0x40 4 (4 + mode.toNat) → Gives (.mbFlush w x mode) s fun d =>
      (∀ y ∈ (d.hbm x).mb, y.dirty = false) ∧ (d.hbm x).mb.map (·.page) = (s.dev.hbm x).mb.map (·.page) ∧
      d.f (pgHbm x) F.HBM_CTRL_MODE = mode.toNat ∧ d.mem = s.dev.mem ∧ d.poison = s.dev.poison ∧ d.resp = {}) ∧
    (Accepts s w (pageHbm x) 0x5C 4 1 →
      let base := s.dev.r64 (pgHbm x) 0x50
      let first := (base - hbmBase x) / 2048
      let n := Nat.min (s.dev.f (pgHbm x) F.HBM_INVAL_PAGES_PAGES) (8388608 - first)
      let lo := hbmBase x + 2048 * first
      hbmBase x ≤ base → base < hbmBase (x + 1) → Gives (.hbmInvalGo w x) s fun d =>
        (∀ a, lo ≤ a → a < lo + 2048 * n → d.byte a = 0) ∧
        (∀ a, a < lo ∨ lo + 2048 * n ≤ a → d.byte a = s.dev.byte a) ∧
        (∀ p, first ≤ p → p < first + n → Table.get false (d.hbm x).valid p = false) ∧
        (∀ p, p < first ∨ first + n ≤ p → Table.get false (d.hbm x).valid p = Table.get false (s.dev.hbm x).valid p) ∧
        d.regs = s.dev.regs ∧ d.resp = {})

/-- The scrubbers (20 R441, R442): the patrol logs a page that does not decode; a range scrub queues behind those before it, and its end
sets its IRQ bit and, after the last, clears RANGE_BUSY.
The queue of range scrubs and a base outside the stack are the model's choices (log 77). -/
def Sys2Proof.Claims.HbmScrubbing : Prop :=
  ∀ (s : State) (w : Who) (x : Fin 2) (page : BitVec 23) (found : List ScrubPage) (range : Nat × Nat) (rest : List (Nat × Nat)),
    let p := pgScrub x
    (Clocked s → s.dev.live p = true → s.dev.on p F.SCR_CTRL_PATROL_EN = true → s.dev.live (pgHbm x) = true →
      s.dev.live (pgCode x) = true → s.dev.f (pgHbm x) F.HBM_CTRL_MODE = 0 → Table.get false (s.dev.hbm x).valid page.toNat = true →
      (∀ e ∈ (s.dev.hbm x).mb, e.page ≠ page.toNat) →
      Gives (.hbmPatrol x page .uncorrectable) s (fun d =>
        d.r64 p 0x80 = hbmBase x + 2048 * page.toNat ∧ d.pulsesOf (1843 + x) = s.dev.pulsesOf (1843 + x) + 1 ∧
        d.mem = s.dev.mem ∧ d.hbms = s.dev.hbms) ∧
      Gives (.hbmPatrol x page .clean) s fun d =>
        (∃ e ∈ (d.hbm x).mb, e.page = page.toNat ∧ e.complete = true ∧ e.dirty = false) ∧ d.mem = s.dev.mem ∧ d.regs = s.dev.regs) ∧
    (Accepts s w (pageScrub x) 0x54 4 1 → Gives (.scrGo w x) s fun d =>
      (d.hbm x).scrubs = (s.dev.hbm x).scrubs ++
        [((s.dev.r64 p 0x48 - hbmBase x) / 2048, if s.dev.r64 p 0x48 < hbmBase x ∨ hbmBase (x + 1) ≤ s.dev.r64 p 0x48 then 0
          else s.dev.f p F.SCR_RANGE_PAGES_PAGES)] ∧
      d.on p F.SCR_STAT_RANGE_BUSY = true ∧ d.mem = s.dev.mem ∧ d.resp = {}) ∧
    (Clocked s → (s.dev.hbm x).scrubs = range :: rest → Gives (.scrubRangeDone x found) s fun d =>
      (d.hbm x).scrubs = rest ∧ (rest = [] → d.on p F.SCR_STAT_RANGE_BUSY = false) ∧
      (d.reg (p + 0x24)).getLsbD 1 = true ∧ d.mem = s.dev.mem)

/-- HBM: the merge buffer, valid bits and scrubbing (20 R436-R442). -/
def Obligations.HbmPagesAndScrubbing : Prop :=
  Claims.HbmPages ∧ Claims.HbmScrubbing

/-- The Sill streamers (20 R445-R447): a start that is accepted takes the next number and the end of the queue; the first waiting transfer
whose condition holds starts while fewer than four run; a transfer that ends leaves the queue with its lines copied, its event and its
count; one that meets an error response keeps the error. -/
def Obligations.StreamerTransfers : Prop :=
  ∀ (s : State) (w : Who) (x : Fin 2) (a : W64) (n : BitVec 16),
    let p := pgSill x
    let h := s.dev.hbm x
    (Accepts s w (pageSill x) 0x40 8 a.toNat →
      (∀ t, s.dev.sillJudge x a.toNat = .ok t → Gives (.sillStart w x a) s fun d =>
        ∃ num, (d.hbm x).queue = h.queue ++ [{ t with num := num }] ∧ (d.hbm x).last = some num ∧
          (∀ m, h.last = some m → num = (m + 1) % 65536) ∧ num < 65536 ∧ d.f p F.SILL_LAST_NUMBER = num ∧
          d.mem = s.dev.mem ∧ d.resp = {}) ∧
      (∀ code, code < 16 → s.dev.sillJudge x a.toNat = .error code → Gives (.sillStart w x a) s fun d =>
        d.f p F.SILL_LAST_CODE = code ∧ d.hbms = s.dev.hbms ∧ d.mem = s.dev.mem ∧ d.resp = {})) ∧
    (∀ (before after : List Transfer) (t : Transfer), Clocked s → s.dev.live p = true →
      (h.queue.filter (·.running)).length < 4 → h.queue = before ++ t :: after → t.running = false →
      s.dev.sillReady t = true →
      (∀ y ∈ before, y.running = true ∨ s.dev.sillReady y = false) → (∀ y ∈ before ++ after, y ≠ t) →
      Gives (.transferStart x) s fun d =>
        (d.hbm x).queue = before ++ { t with running := true } :: after ∧ d.mem = s.dev.mem) ∧
    (∀ t, Clocked s → s.dev.runningXfer x n.toNat = some t → s.dev.failingLine t = none → t.fld 8 22 1 = 0 →
      Gives (.transferComplete x n) s fun d =>
        d.mem = (s.dev.copyTo t t.total).mem ∧ (∀ y ∈ (d.hbm x).queue, y.num ≠ n.toNat) ∧
        d.pulsesOf (1845 + x) = (s.dev.copyTo t t.total).pulsesOf (1845 + x) + 1 ∧ d.sashes = (s.dev.copyTo t t.total).sashes) ∧
    (∀ (t : Transfer) (i : Nat) (c ad : Nat) (wr : Bool), Clocked s → s.dev.runningXfer x n.toNat = some t →
      s.dev.failingLine t = some i → s.dev.lineCause t i = some (c, ad, wr) → c < 16 →
      (s.dev.copyTo t i).on p F.SILL_ERR_INFO_VALID = false →
      Gives (.transferError x n) s fun d =>
        d.mem = (s.dev.copyTo t i).mem ∧ (∀ y ∈ (d.hbm x).queue, y.num ≠ n.toNat) ∧
        d.on p F.SILL_ERR_INFO_VALID = true ∧ d.f p F.SILL_ERR_INFO_NUMBER = n.toNat ∧ d.f p F.SILL_ERR_INFO_CAUSE = c ∧
        (d.reg (p + 0x24)).getLsbD 0 = true) ∧
    (∀ t, Accepts s w (pageSill x) 0x58 4 n.toNat → h.queue.find? (fun y => y.num == n.toNat) = some t →
      Gives (.sillCancel w x n) s fun d =>
        (∀ y ∈ (d.hbm x).queue, y.num ≠ n.toNat) ∧ d.resp = {} ∧
        (t.running = false → d.mem = s.dev.mem ∧ (n.toNat, 4, t.total) ∈ (d.hbm x).final))

/-! PCIe, DMA and boot -/

/-- The host's requests (21 R453-R457): page accesses of BAR0 under the function's authority, memory through windows that grant the direction,
the MSI-X table, and the configuration bits; memory that no window reaches is refused and stays as it is. -/
def Sys2Proof.Claims.HostRequests : Prop :=
  ∀ (s : State) (f : Fin 2), Reached s → s.dev.domOn domHostio = true → s.dev.on (pgPf f) F.PF_STAT_LINK_UP = true →
    (∀ bme d3 en mask : Bool, Gives (.pcieInboundWrite f (.config bme d3 en mask)) s fun d =>
      d.on (pgPf f) F.PF_STAT_BME = bme ∧ d.on (pgPf f) F.PF_STAT_D3 = d3 ∧ (d.pf f).msixEn = en ∧ (d.pf f).msixMask = mask ∧
      (d.pf f).table = (s.dev.pf f).table ∧ d.mem = s.dev.mem ∧ d.resp = {}) ∧
    (s.dev.on (pgPf f) F.PF_STAT_D3 = false →
      (∀ (off : BitVec 28) (l : List Byte), Does (.pcieInboundWrite f (.bar0 off l)) s
        (s.dev.busWrite ⟨0x300 + f, none, true⟩ (0xE0000000 + off.toNat) l.length (valueLE l))) ∧
      (∀ (off : BitVec 28) (len : Nat), Does (.pcieInboundRead f (.bar0 off len)) s
        (s.dev.busRead ⟨0x300 + f, none, true⟩ (0xE0000000 + off.toNat) len false)) ∧
      (∀ (a : BitVec 37) (l : List Byte), s.dev.bar2Accepted f a.toNat l.length true = true →
        s.dev.rangeCause a.toNat l.length true = none →
        Gives (.pcieInboundWrite f (.bar2 a l false)) s fun d =>
          d.resp = {} ∧ d.bytes a.toNat l.length = l ∧ ∀ b, b < a.toNat ∨ a.toNat + l.length ≤ b → d.byte b = s.dev.byte b) ∧
      (∀ (a : BitVec 37) (l : List Byte) (ep : Bool), s.dev.bar2Accepted f a.toNat l.length true = false →
        Gives (.pcieInboundWrite f (.bar2 a l ep)) s fun d => d.resp = { error := some 8 } ∧ d.mem = s.dev.mem ∧ d.poison = s.dev.poison) ∧
      (∀ (a : BitVec 37) (len : Nat), s.dev.bar2Accepted f a.toNat len false = false →
        Gives (.pcieInboundRead f (.bar2 a len)) s fun d => d.resp = { error := some 8 } ∧ d.mem = s.dev.mem) ∧
      (∀ (a : BitVec 37) (len : Nat), s.dev.bar2Accepted f a.toNat len false = true → s.dev.rangeCause a.toNat len false = none →
        let r := s.dev.getRange a.toNat len
        Does (.pcieInboundRead f (.bar2 a len)) s { r.1 with resp := { data := valueLE r.2.1, poison := r.2.2 } }) ∧
      (∀ (v : Fin 32) (word : Fin 4) (val : W32), Gives (.pcieInboundWrite f (.table v word val)) s fun d =>
        (d.pf f).entry v word = (if word.val = 3 then val &&& 1 else if word.val = 0 then val &&& 0xFFFFFFFC else val) ∧
        (∀ (u : Fin 32) (k : Fin 4), u ≠ v ∨ k ≠ word → (d.pf f).entry u k = (s.dev.pf f).entry u k) ∧ d.mem = s.dev.mem) ∧
      (∀ (v : Fin 32) (word : Fin 4), Gives (.pcieInboundRead f (.table v word)) s fun d =>
        d.resp.data = ((s.dev.pf f).entry v word).toNat ∧ { d with resp := s.dev.resp } = s.dev) ∧
      Gives (.pcieInboundRead f .pba) s fun d => d.resp.data = (s.dev.pf f).pba.toNat ∧ { d with resp := s.dev.resp } = s.dev)

/-- Resets and links of the PCIe functions (21 R456): a function-level reset clears one function's configuration, PCIE_PERST_N both and the link;
the link shows its speed and width. -/
def Sys2Proof.Claims.PcieResetsAndLink : Prop :=
  ∀ (s : State), s.dev.domOn domHostio = true →
    (∀ f : Fin 2, Gives (.pcieReset (some f)) s fun d =>
      d.on (pgPf f) F.PF_STAT_BME = false ∧ d.on (pgPf f) F.PF_STAT_D3 = false ∧ (d.pf f).msixEn = false ∧ (d.pf f).table = [] ∧
      (d.pf f).pba = 0 ∧ (∀ g : Fin 2, g ≠ f → d.pf g = s.dev.pf g) ∧
      d.on (pgPf f) F.PF_STAT_LINK_UP = s.dev.on (pgPf f) F.PF_STAT_LINK_UP ∧ d.mem = s.dev.mem) ∧
    (Gives (.pcieReset none) s fun d => ∀ f : Fin 2,
      d.on (pgPf f) F.PF_STAT_LINK_UP = false ∧ d.on (pgPf f) F.PF_STAT_BME = false ∧ (d.pf f).table = [] ∧ d.mem = s.dev.mem) ∧
    (∀ speed width : Fin 5, 1 ≤ speed.val → width.val = 1 ∨ width.val = 2 ∨ width.val = 4 →
      Gives (.pcieLinkChange (some (speed, width))) s fun d => ∀ f : Fin 2,
        d.on (pgPf f) F.PF_STAT_LINK_UP = true ∧ d.f (pgPf f) F.PF_STAT_SPEED = speed ∧ d.f (pgPf f) F.PF_STAT_WIDTH = width ∧
        { d with regs := s.dev.regs } = s.dev) ∧
    (Gives (.pcieLinkChange none) s fun d => ∀ f : Fin 2,
      d.on (pgPf f) F.PF_STAT_LINK_UP = false ∧ { d with regs := s.dev.regs } = s.dev)

/-- The host's requests and the state of its link (21 R453-R456). -/
def Obligations.HostAndLink : Prop :=
  Claims.HostRequests ∧ Claims.PcieResetsAndLink

/-- MSI-X, the time snapshot, the boot doorbell and DMA (21 R457-R459, R472): a vector that is due sends its message or sets its pending bit;
a channel takes the descriptor at HEAD in its turn, and its end writes the status and the time, moves HEAD and, after an error, halts. -/
def Obligations.MessagesAndDma : Prop :=
  ∀ (s : State) (w : Who) (f : Fin 2) (v : Fin 32) (n : Fin 8) (h : HostSide),
    let x := s.dev.pf f
    let p := chPage n
    (Clocked s → s.dev.live (pgPf f) = true → bitAt (s.dev.reg (pgPf f + 0x100 + 4 * v)) 31 = true → bitAt x.due v = true →
      (s.dev.msixOpen f v = true → Gives (.msixMessage f v) s fun d =>
        (d.pf f).sent = some ((x.entry v 0).toNat + (x.entry v 1).toNat * 2 ^ 32, (x.entry v 2).toNat) ∧
        bitAt (d.pf f).due v = false ∧ bitAt (d.pf f).pba v = false ∧ d.regs = s.dev.regs ∧ d.mem = s.dev.mem) ∧
      (s.dev.msixOpen f v = false → Gives (.msixMessage f v) s fun d =>
        (d.pf f).sent = x.sent ∧ bitAt (d.pf f).due v = false ∧ bitAt (d.pf f).pba v = true ∧ d.regs = s.dev.regs ∧ d.mem = s.dev.mem)) ∧
    (Accepts s w (pagePf f) 0x50 4 1 → w.req = 0x300 + f → Gives (.pfTsnapGo w f) s fun d =>
      d.r64 (pgPf f) 0x48 = s.dev.count ∧ d.mem = s.dev.mem ∧ d.resp = {}) ∧
    (∀ (len : BitVec 24) (a b : List Byte), Reached s → s.dev.pfUp 0 = true →
      (s.dev.busWrite ⟨0x300, none, true⟩ (pgPf 0 + 0x180) 4 len.toNat).resp.error = none →
      Does (.bootDb len a b) s
        { (s.dev.noteLanded (pgPf 0 + 0x180) 4 len.toNat).bootDoorbell len.toNat a b with resp := {} }) ∧
    (Clocked s → (∀ i : Fin 8, (s.dev.dma i).words = []) → s.dev.dmaReady n = true →
      (∀ k, 1 ≤ k → k < 8 → (s.dev.dmaLast + k) % 8 = n → ∀ j, 1 ≤ j → j < k → s.dev.dmaReady ((s.dev.dmaLast + j) % 8) = false) →
      (s.dev.dmaLast % 8 = n → ∀ i : Fin 8, i ≠ n → s.dev.dmaReady i = false) →
      s.dev.poisonedRange (s.dev.dmaDesc n) 64 = false →
      Gives (.dmaDescriptorStart n) s fun d =>
        (d.dma n).words = (List.range 16).map (fun k => BitVec.ofNat 32 (s.dev.load (s.dev.dmaDesc n + 4 * k) 4)) ∧
        d.on p F.CH_ST_ACTIVE = true ∧ d.dmaLast = n ∧ d.mem = s.dev.mem) ∧
    (let t := s.dev.dma n
     Clocked s → t.words ≠ [] → t.stop = false → s.dev.dmaDescOk t = false → s.dev.f p F.CH_CFG_LOG2 ≤ 12 →
      Gives (.dmaDescriptorDone n h) s fun d =>
        (d.dma n).words = [] ∧ d.on p F.CH_ST_ACTIVE = false ∧ d.on p F.CH_ST_HALTED = true ∧
        d.f p F.CH_HEAD_HEAD = (s.dev.f p F.CH_HEAD_HEAD + 1) % 2 ^ s.dev.f p F.CH_CFG_LOG2 ∧
        d.bytes (s.dev.dmaDesc n + 0x18) 4 = [4, 0, 0, 0] ∧
        d.bytes (s.dev.dmaDesc n + 0x20) 8 = bytesLE 8 s.dev.count) ∧
    (let t := s.dev.dma n
     Clocked s → t.words ≠ [] → t.stop = false → t.abort = false → s.dev.dmaDescOk t = true → s.dev.dmaDevice t = none →
      t.fld 5 0 1 = 0 → h.fails = none → h.ep = [] → h.data.length = t.len → s.dev.f p F.CH_CFG_LOG2 ≤ 12 →
      Gives (.dmaDescriptorDone n h) s fun d =>
        (d.dma n).words = [] ∧ d.f p F.CH_HEAD_HEAD = (s.dev.f p F.CH_HEAD_HEAD + 1) % 2 ^ s.dev.f p F.CH_CFG_LOG2 ∧
        d.bytes (s.dev.dmaDesc n + 0x20) 8 = bytesLE 8 s.dev.count ∧
        (∀ i, i < t.len → t.dev + i < s.dev.dmaDesc n ∨ s.dev.dmaDesc n + 0x28 ≤ t.dev + i →
          d.byte (t.dev + i) = h.data.getD i 0) ∧
        (∀ b, b < t.dev ∨ t.dev + t.len ≤ b → b < s.dev.dmaDesc n + 0x18 ∨ s.dev.dmaDesc n + 0x28 ≤ b → d.byte b = s.dev.byte b))

/-! Ethernet, CAN, xSPI and I2C -/

/-- Reception (21 R460, R463, R464): a bad or oversized frame is counted, one for another port is ignored, one without a descriptor is dropped
and counted; a frame that fits goes into the buffer of the descriptor at HEAD with its stamp, which is exact to within two ticks. -/
def Sys2Proof.Claims.EthernetReception : Prop :=
  ∀ (s : State) (p : Fin 4) (l : List Byte) (sfd : W64), Clocked s → s.dev.ethUp p = true →
    let q := pgEth p
    s.dev.on q F.ETH_CTRL_RX_EN = true →
    let head := s.dev.f q F.ETH_RXQ_PTR_HEAD
    let drops := s.dev.ringHolds q F.ETH_RXQ_PTR_HEAD F.ETH_RXQ_PTR_TAIL = false ∨ s.dev.on q F.ETH_RXQ_CFG_EN = false
    let fits := l.length + 4 ≤ s.dev.f q F.ETH_MTU_MTU
    (∀ good : Bool, good = false ∨ ¬ fits → Does (.ethFrameReceive p ⟨l, sfd⟩ good) s (s.dev.inc q F.ETH_RX_ERR_ERRORS)) ∧
    (fits → s.dev.ethMine p l = false → Does (.ethFrameReceive p ⟨l, sfd⟩ true) s s.dev) ∧
    (fits → s.dev.ethMine p l = true → drops → Does (.ethFrameReceive p ⟨l, sfd⟩ true) s (s.dev.inc q F.ETH_RX_DROP_DROPS)) ∧
    (fits → s.dev.ethMine p l = true → ¬ drops →
      let a := s.dev.rxDesc p
      let w := s.dev.ethDesc a
      descZero w = true → s.dev.ethMem (descBuf w) (Nat.max l.length 1) = true → s.dev.rangeCause (descBuf w) l.length true = none →
      l.length ≤ 64 * s.dev.f q F.ETH_RXQ_CFG_BUF_LINES → s.dev.f q F.ETH_RXQ_CFG_LOG2 ≤ 12 →
      Gives (.ethFrameReceive p ⟨l, sfd⟩ true) s fun d =>
        d.f q F.ETH_RXQ_PTR_HEAD = (head + 1) % 2 ^ s.dev.f q F.ETH_RXQ_CFG_LOG2 ∧
        d.f q F.ETH_RX_CNT_FRAMES = satInc 32 (s.dev.f q F.ETH_RX_CNT_FRAMES) ∧
        (∃ n : Nat, n < 5 ∧ d.bytes (a + 16) 8 =
          bytesLE 8 (codeOf 64 ((sfd.toNat : Int) - (s.dev.f q F.ETH_RX_LAT_RX_LAT : Int) + (n : Int) - 2))) ∧
        (∀ i, i < l.length → descBuf w + i < a + 8 ∨ a + 24 ≤ descBuf w + i → d.byte (descBuf w + i) = l.getD i 0) ∧
        (∀ b, b < descBuf w ∨ descBuf w + l.length ≤ b → b < a + 8 ∨ a + 24 ≤ b → d.byte b = s.dev.byte b))

/-- Transmission (21 R460, R464, R465): of the queues whose gate is open, whose credit is not negative and whose frame ends before the gate
closes, the highest starts; the end of its SFD is stamped to within two ticks; the frame's end writes STATUS and moves HEAD, and after an error the queue stops. -/
def Sys2Proof.Claims.EthernetTransmission : Prop :=
  ∀ (s : State) (p : Fin 4) (q : Fin 8), Clocked s →
    let e := s.dev.creditSee p
    let may (d : Dev) (n : Nat) : Bool :=
      d.txqEligible p n && (!d.txDescOk p (d.ethDesc (d.txDesc p n)) || d.txqFits p n)
    let w := e.ethDesc (e.txDesc p q)
    (s.dev.ethUp p = true → s.dev.on (pgEth p) F.ETH_CTRL_TX_EN = true → (s.dev.eth p).tx = none →
      may e q = true → (∀ n : Fin 8, q < n → may e n = false) →
      (e.txDescOk p w = false → Does (.ethFrameTransmit p) s (e.txEnd p q w 4 none)) ∧
      (e.txDescOk p w = true → e.rangeCause (descBuf w) (descFld w 2 0 14) false = none →
        Gives (.ethFrameTransmit p) s fun d =>
          let r := e.getRange (descBuf w) (descFld w 2 0 14)
          (∃ stamp, (d.eth p).tx = some ⟨q, w, r.2.1, r.2.2, false, s.dev.tick + s.dev.ethTicks p 8,
            s.dev.tick + s.dev.ethTicks p (12 + Nat.max r.2.1.length 60), stamp⟩) ∧
          d.mem = s.dev.mem)) ∧
    (∀ t, (s.dev.eth p).tx = some t → t.sfd = s.dev.tick → t.bus = false → ∃ n : Nat, n < 5 ∧
      ((s.dev.ethSfd p).eth p).tx = some { t with
        stamp := codeOf 64 ((s.dev.count : Int) + (s.dev.f (pgEth p) F.ETH_TX_LAT_TX_LAT : Int) + (n : Int) - 2) }) ∧
    ((∀ n : Fin 8, may e n = false) → s.dev.ethUp p = true → s.dev.on (pgEth p) F.ETH_CTRL_TX_EN = true → (s.dev.eth p).tx = none →
      Does (.ethFrameTransmit p) s e) ∧
    (∀ t, (s.dev.eth p).tx = some t → t.ends ≤ s.dev.tick → t.q = q.val → s.dev.f (txq p q) F.ETH_TXQ_CFG_LOG2 ≤ 12 →
      let a := s.dev.txDesc p q
      Gives (.ethTxDone p) s fun d =>
        (d.eth p).tx = none ∧
        d.f (txq p q) F.ETH_TXQ_PTR_HEAD = (s.dev.f (txq p q) F.ETH_TXQ_PTR_HEAD + 1) % 2 ^ s.dev.f (txq p q) F.ETH_TXQ_CFG_LOG2 ∧
        d.bytes (a + 8) 4 = bytesLE 4 (putBits (t.words.getD 2 0) 16 4 (if t.bus then 2 else if t.poison then 3 else 0)).toNat ∧
        (t.bus = true → d.on (txq p q) F.ETH_TXQ_CFG_EN = false) ∧
        (t.bus = false → d.f (pgEth p) F.ETH_TX_CNT_FRAMES = satInc 32 (s.dev.f (pgEth p) F.ETH_TX_CNT_FRAMES)) ∧
        (t.bus = false → descFld t.words 2 14 1 = 1 → d.bytes (a + 16) 8 = bytesLE 8 t.stamp) ∧
        (∀ b, b < a + 8 ∨ a + 24 ≤ b → d.byte b = s.dev.byte b))

/-- Frames of the Ethernet ports (21 R460-R465). -/
def Obligations.EthernetFrames : Prop :=
  Claims.EthernetReception ∧ Claims.EthernetTransmission

/-- Links, MDIO and gate lists of the ports (21 R462, R463, R465). -/
def Obligations.EthernetControl : Prop :=
  ∀ (s : State) (w : Who) (p : Fin 4),
    let q := pgEth p
    (∀ up : Option (BitVec 2), s.dev.domOn domHostio = true → Gives (.ethLinkChange p up) s fun d =>
      d.on q F.ETH_STATUS_LINK = up.isSome ∧ (∀ v, up = some v → d.f q F.ETH_STATUS_SPEED = v.toNat) ∧
      (s.dev.on q F.ETH_STATUS_LINK ≠ up.isSome → (d.reg (q + 0x24)).getLsbD 9 = true) ∧ { d with regs := s.dev.regs } = s.dev) ∧
    (Accepts s w (pageEth 0) 0x64 4 1 →
      (s.dev.on (pgEth 0) F.ETH_MDIO_STAT_BUSY = true → Wrote (.ethMdioGo w) s s.dev) ∧
      (s.dev.on (pgEth 0) F.ETH_MDIO_STAT_BUSY = false → s.dev.live (pgEth 0) = true → Gives (.ethMdioGo w) s fun d =>
        d.on (pgEth 0) F.ETH_MDIO_STAT_BUSY = true ∧ (d.eth 0).mdio = some (s.dev.reg (pgEth 0 + 0x60)).toNat ∧
        d.mem = s.dev.mem ∧ d.resp = {})) ∧
    (∀ (data : BitVec 16) (c : Nat), Clocked s → (s.dev.eth 0).mdio = some c → Gives (.mdioFrameEnd data) s fun d =>
      d.on (pgEth 0) F.ETH_MDIO_STAT_BUSY = false ∧ (d.eth 0).mdio = none ∧ (d.reg (pgEth 0 + 0x24)).getLsbD 10 = true ∧
      d.f (pgEth 0) F.ETH_MDIO_STAT_DATA =
        (if c.testBit 10 then data.toNat else s.dev.f (pgEth 0) F.ETH_MDIO_STAT_DATA) ∧ d.mem = s.dev.mem) ∧
    (∀ en : Bool, Accepts s w (pageEth p) 0x218 4 (2 + b2n en) → Gives (.gclGo w p en) s fun d =>
      (d.eth p).pend = some (s.dev.admList p, s.dev.r64 q 0x210) ∧ (d.eth p).oper = (s.dev.eth p).oper ∧
      d.on q F.ETH_GCL_STAT_PENDING = true ∧ d.on q F.ETH_GCL_CTRL_EN = en ∧ d.mem = s.dev.mem ∧ d.resp = {}) ∧
    (∀ g t t0, Clocked s → (s.dev.eth p).pend = some (g, t) → s.dev.live q = true → g.startFrom t = some t0 →
      (t0 ≤ s.dev.count → Gives (.gclChange p) s fun d =>
        (d.eth p).oper = some g ∧ (d.eth p).pend = none ∧ d.on q F.ETH_GCL_STAT_PENDING = false ∧
        d.on q F.ETH_GCL_STAT_OPER_VALID = true ∧ { d with regs := s.dev.regs, eths := s.dev.eths } = s.dev) ∧
      (s.dev.count < t0 → Does (.gclChange p) s s.dev)) ∧
    (∀ g, Clocked s → (s.dev.eth p).oper = some g → s.dev.live q = true → g.entryAt s.dev.count < 128 →
      Gives (.gateEntryAdvance p) s fun d =>
        d.f q F.ETH_GCL_STAT_ENTRY = g.entryAt s.dev.count ∧ { d with regs := s.dev.regs } = s.dev)

/-- CAN frames (21 R466, R468): the lowest free buffer that accepts a frame takes it with its stamp, a frame that only full buffers accept is
lost; the buffer that wins the bus is the offered one, and its frame's end clears the request and sets TXDONE. -/
def Sys2Proof.Claims.CanFrames : Prop :=
  ∀ (s : State) (m : Fin 8) (f : CanFrame) (sof : W64), Clocked s →
    let p := pgCan m
    let takes (b : Nat) : Prop := s.dev.mbAccepts m b f = true
    let full (b : Nat) : Bool := bitAt (s.dev.reg (p + 0x60)) b
    (s.dev.canOn m = true → s.dev.f p F.CAN_CTRL_MODE ≠ 2 → (f.fdf = true → s.dev.on p F.CAN_CTRL_FD_EN = true) →
      s.dev.f p F.CAN_ERRC_REC = 0 → s.dev.on p F.CAN_ERRC_RP = false → s.dev.f p F.CAN_ERRC_TEC < 128 → s.dev.canState m = 0 →
      (∀ b : Fin 32, takes b → full b = false → (∀ c : Fin 32, c < b → takes c → full c = true) →
        Gives (.canFrameReceive m f sof) s fun d =>
          bitAt (d.reg (p + 0x60)) b = true ∧ (∀ c : Fin 32, c ≠ b → bitAt (d.reg (p + 0x60)) c = full c) ∧
          d.reg (p + 0x104 + 0x60 * b) = BitVec.ofNat 32 f.id.toNat ∧ d.r64 (p + 0x110 + 0x60 * b) 0 = sof.toNat ∧
          (∀ i, i < 16 → d.reg (p + 0x120 + 0x60 * b + 4 * i) =
            BitVec.ofNat 32 (valueLE (((f.data.take f.bytes).drop (4 * i)).take 4))) ∧
          (d.reg (p + 0x24)).getLsbD 1 = true ∧ { d with regs := s.dev.regs } = s.dev) ∧
      ((∀ b : Fin 32, ¬ takes b) → Does (.canFrameReceive m f sof) s s.dev) ∧
      ((∀ b : Fin 32, takes b → full b = true) → (∃ b : Fin 32, takes b) → Gives (.canFrameReceive m f sof) s fun d =>
        d.f p F.CAN_RXLOST_LOST = satInc 32 (s.dev.f p F.CAN_RXLOST_LOST) ∧ (d.reg (p + 0x24)).getLsbD 3 = true ∧
        d.reg (p + 0x60) = s.dev.reg (p + 0x60) ∧ { d with regs := s.dev.regs } = s.dev)) ∧
    (∀ b, s.dev.canOn m = true → (s.dev.can m).tx = none → (s.dev.can m).tecOver = false → s.dev.f p F.CAN_CTRL_MODE ≠ 1 →
      s.dev.canOffer m = some b →
      Does (.canArbitration m true) s (s.dev.setCan m { s.dev.can m with tx := some b, frame := some (s.dev.canFrameOf m b) }) ∧ Does (.canArbitration m false) s s.dev) ∧
    (∀ b : Fin 32, (s.dev.can m).tx = some b.val → s.dev.en p = true → s.dev.f p F.CAN_CTRL_MODE < 2 → Gives (.canTxDone m sof) s fun d =>
      (d.can m).tx = none ∧ bitAt (d.reg (p + 0x54)) b = false ∧ bitAt (d.reg (p + 0x5C)) b = true ∧
      d.f p F.CAN_ERRC_TEC = s.dev.f p F.CAN_ERRC_TEC - 1 ∧ d.r64 (p + 0x110 + 0x60 * b) 0 = sof.toNat ∧
      (d.reg (p + 0x24)).getLsbD 0 = true ∧ d.mem = s.dev.mem)

/-- CAN requests and errors (21 R467, R468): requests are set and cancelled and buffers released bit by bit; an error counts; TEC above 255 takes
the controller off the bus, and RECOVER brings it back with its counters cleared. -/
def Sys2Proof.Claims.CanRequestsAndErrors : Prop :=
  ∀ (s : State) (w : Who) (m : Fin 8) (v : W32) (ctrl : BitVec 4) (e : CanError),
    let p := pgCan m
    (Accepts s w (pageCan m) 0x54 4 v.toNat → Wrote (.canTxreq w m v) s (s.dev.setReg (p + 0x54) (s.dev.reg (p + 0x54) ||| v))) ∧
    (Accepts s w (pageCan m) 0x58 4 v.toNat → Wrote (.canTxcan w m v) s (s.dev.setReg (p + 0x54) (s.dev.reg (p + 0x54) &&& ~~~ v))) ∧
    (Accepts s w (pageCan m) 0x60 4 v.toNat → Wrote (.canRxfullRelease w m v) s (s.dev.setReg (p + 0x60) (s.dev.reg (p + 0x60) &&& ~~~ v))) ∧
    (Accepts s w (pageCan m) 0x40 4 (16 + ctrl.toNat) → s.dev.canState m = 2 → s.dev.live p = true → Gives (.canRecover w m ctrl) s fun d =>
      (d.can m).recovering = true ∧ (d.can m).tx = (s.dev.can m).tx ∧ d.canState m = 2 ∧ d.f p F.CAN_CTRL_MODE = ctrl.toNat % 4 ∧
      d.mem = s.dev.mem ∧ d.resp = {}) ∧
    (Clocked s → s.dev.canOn m = true → (s.dev.can m).tecOver = true → Gives (.canBusOff m) s fun d =>
      d.canState m = 2 ∧ (d.can m).tx = none ∧ (d.can m).tecOver = false ∧ (d.can m).recovering = false ∧
      (d.reg (p + 0x24)).getLsbD 2 = true ∧ d.mem = s.dev.mem) ∧
    (Clocked s → s.dev.live p = true → s.dev.canState m = 2 → (s.dev.can m).recovering = true → Gives (.canBusJoin m) s fun d =>
      d.canState m = 0 ∧ d.f p F.CAN_ERRC_TEC = 0 ∧ d.f p F.CAN_ERRC_REC = 0 ∧ d.on p F.CAN_ERRC_RP = false ∧
      (d.can m).recovering = false ∧ (d.reg (p + 0x24)).getLsbD 2 = true ∧ d.mem = s.dev.mem) ∧
    (Clocked s → s.dev.live p = true → s.dev.canState m = 3 → Gives (.canBusJoin m) s fun d =>
      (d.canState m = 1 ↔ 128 ≤ s.dev.f p F.CAN_ERRC_TEC ∨ s.dev.on p F.CAN_ERRC_RP = true) ∧ d.canState m < 2 ∧
      (d.reg (p + 0x24)).getLsbD 2 = true ∧ { d with regs := s.dev.regs } = s.dev) ∧
    (Clocked s → s.dev.canOn m = true → e.lec.val ≠ 0 →
      let tec := s.dev.f p F.CAN_ERRC_TEC + if e.tec then 8 else 0
      let rec' := s.dev.f p F.CAN_ERRC_REC + if e.recUp.val = 0 then 0 else if e.recUp.val = 1 then 1 else 8
      Gives (.canBusError m e) s fun d =>
        d.f p F.CAN_ERRC_LEC = e.lec ∧ d.f p F.CAN_ERRC_TEC = Nat.min tec 255 ∧ (d.can m).tx = none ∧
        ((d.can m).tecOver = true ↔ (s.dev.can m).tecOver = true ∨ 255 < tec) ∧
        d.f p F.CAN_ERRC_REC = (if rec' < 128 then rec' else 127) ∧ d.reg (p + 0x54) = s.dev.reg (p + 0x54) ∧ d.mem = s.dev.mem)

/-- The CAN FD controllers (21 R466-R468). -/
def Obligations.CanControllers : Prop :=
  Claims.CanFrames ∧ Claims.CanRequestsAndErrors

/-- xSPI and the I2C controller (21 R469, R470): a transaction that may start becomes active, and its end brings the data of a read, DONE and an
interrupt; a refused one sets REFUSED; a reset holds XSPI_RST_N low for 10 µs. -/
def Sys2Proof.Claims.SerialControllers : Prop :=
  ∀ (s : State) (w : Who) (l : List Byte) (x : I2cEnd) (c n : Nat),
    let cmd := (s.dev.reg (pgXspi + 0x44)).toNat
    let len := s.dev.f pgXspi F.XSPI_LEN_LEN
    let addr := bitsOf (s.dev.reg (pgXspi + 0x44)) 16 3
    let startable := s.dev.on pgXspi F.XSPI_STATUS_ACTIVE = false ∧ len ≤ 256 ∧ (len % 2 = 0 ∨ s.dev.f pgXspi F.XSPI_CFG_PROTO ≠ 1) ∧
      (addr = 0 ∨ addr = 3 ∨ addr = 4)
    (Accepts s w pageXspi 0x50 4 1 → s.dev.live pgXspi = true →
      (startable → Gives (.xspiGo w) s fun d =>
        d.xspi = { s.dev.xspi with cmd := some (cmd, len) } ∧ d.on pgXspi F.XSPI_STATUS_ACTIVE = true ∧ d.mem = s.dev.mem ∧ d.resp = {}) ∧
      (¬ startable → Gives (.xspiGo w) s fun d =>
        d.xspi = s.dev.xspi ∧ d.on pgXspi F.XSPI_STATUS_REFUSED = true ∧ d.mem = s.dev.mem ∧ d.resp = {})) ∧
    (Accepts s w pageXspi 0x50 4 2 →
      Wrote (.xspiReset w) s { s.dev with xspi := { s.dev.xspi with rstLow := s.dev.tick + 60000 } }) ∧
    (Clocked s → s.dev.xspi.cmd = some (c, n) → n ≤ 256 → Gives (.xspiDone l) s fun d =>
      d.xspi.cmd = none ∧ d.on pgXspi F.XSPI_STATUS_ACTIVE = false ∧ d.on pgXspi F.XSPI_STATUS_DONE = true ∧
      (d.reg (pgXspi + 0x24)).getLsbD 0 = true ∧ d.mem = s.dev.mem ∧
      (∀ i, c.testBit 24 = false → i < n → i < l.length →
        bitsOf (d.reg (pgXspi + 0x100 + i / 4 * 4)) (i % 4 * 8) 8 = (l.getD i 0).toNat) ∧
      (∀ i, c.testBit 24 = true → i < 64 → d.reg (pgXspi + 0x100 + 4 * i) = s.dev.reg (pgXspi + 0x100 + 4 * i))) ∧
    (Accepts s w pageI2c 0x4C 4 1 → s.dev.live pgI2c = true → s.dev.on pgI2c F.I2C_CTRL_CEN = true →
      (s.dev.on pgI2c F.I2C_STATUS_ACTIVE = false → Gives (.i2cCgo w) s fun d =>
        d.i2c = { s.dev.i2c with cmd := some (s.dev.reg (pgI2c + 0x48)).toNat } ∧ d.on pgI2c F.I2C_STATUS_ACTIVE = true ∧
        d.mem = s.dev.mem ∧ d.resp = {}) ∧
      (s.dev.on pgI2c F.I2C_STATUS_ACTIVE = true → Wrote (.i2cCgo w) s s.dev)) ∧
    (let k := match x with | .full => 32 | .nack j => j | .arbLost j => j
     Clocked s → s.dev.i2c.cmd = some c → Gives (.i2cControllerDone x l) s fun d =>
      d.i2c.cmd = none ∧ d.on pgI2c F.I2C_STATUS_ACTIVE = false ∧ d.on pgI2c F.I2C_STATUS_DONE = true ∧
      d.f pgI2c F.I2C_STATUS_COUNT = Nat.min (Nat.min k (c / 256 % 64)) 32 ∧
      ((∃ j, x = .nack j) → d.on pgI2c F.I2C_STATUS_NACK = true) ∧ ((∃ j, x = .arbLost j) → d.on pgI2c F.I2C_STATUS_ARB_LOST = true) ∧
      (d.reg (pgI2c + 0x24)).getLsbD 0 = true ∧ d.mem = s.dev.mem ∧
      (∀ i, c.testBit 7 = true → i < Nat.min (Nat.min k (c / 256 % 64)) 32 → i < l.length →
        bitsOf (d.reg (pgI2c + 0x80 + i / 4 * 4)) (i % 4 * 8) 8 = (l.getD i 0).toNat))

/-- The I2C target (21 R471): a write of a bus controller puts its bytes into the mailbox from the pointer on, a read returns them and moves the
pointer; another address is not answered. -/
def Sys2Proof.Claims.I2cTarget : Prop :=
  ∀ (s : State) (a : BitVec 7) (hi lo : Byte) (l : List Byte) (n : Nat), Clocked s →
    let mail (d : Dev) (i : Nat) : Nat := bitsOf (d.reg (pgI2c + 0x800 + i / 4 * 4)) (i % 4 * 8) 8
    let p := 256 * hi.toNat + lo.toNat
    (s.dev.i2cMine a.toNat = true → p + l.length ≤ 256 → Gives (.i2cTargetWrite a (hi :: lo :: l)) s fun d =>
      d.i2c.ptr = p + l.length ∧ (∀ i, i < l.length → mail d (p + i) = (l.getD i 0).toNat) ∧
      (∀ i, i < p ∨ p + l.length ≤ i → i < 256 → mail d i = mail s.dev i) ∧
      (l ≠ [] → d.on pgI2c F.I2C_STATUS_MBOX_WR = true ∧ (d.reg (pgI2c + 0x24)).getLsbD 1 = true) ∧ d.mem = s.dev.mem) ∧
    (s.dev.i2cMine a.toNat = true → s.dev.i2c.ptr + n ≤ 256 → Gives (.i2cTargetRead a n) s fun d =>
      d.i2c.ptr = s.dev.i2c.ptr + n ∧
      d.resp.data = valueLE ((List.range n).map (fun i => BitVec.ofNat 8 (mail s.dev (s.dev.i2c.ptr + i)))) ∧
      (0 < n → d.on pgI2c F.I2C_STATUS_MBOX_RD = true) ∧ d.mem = s.dev.mem) ∧
    (s.dev.i2cMine a.toNat = false → Does (.i2cTargetWrite a l) s s.dev ∧ Does (.i2cTargetRead a n) s s.dev)

/-- xSPI and I2C (21 R469-R471). -/
def Obligations.SerialPorts : Prop :=
  Claims.SerialControllers ∧ Claims.I2cTarget

/-! Debug and trace -/

namespace Sys2Proof.Claims

/-- The command answers a next state with debug access `v` and the device `d`. -/
def Debugs (i : Instr) (s : State) (v : Vopen) (d : Dev) : Prop := exec i s = .next { s.withDev d.settle with sec := v }

end Sys2Proof.Claims

/-- The test access port (22 R474, R476, R477): what each register captures; a challenge arms a nonce, or none while one may not issue; a response
that fits raises the level, another counts as a failure with its time; the level below which a command of the bus master is refused. -/
def Sys2Proof.Claims.TestAccessPort : Prop :=
  ∀ (s : State) (data : Nat) (level : BitVec 2) (mac : BitVec 128) (a : BitVec 48) (sz : BitVec 2) (w : Bool) (v : W64) (t : W32),
    let d := s.dev
    let x := s.sec
    Debugs .idcode s { x with ir := .idcode, dr := 0x29640000 + d.otp.mfrId.toNat * 2 + 1 } d ∧
    Debugs .bypass s { x with ir := .bypass, dr := 0 } d ∧
    (∃ cells, Debugs (.samplePreload data) s { x with ir := .boundary, dr := cells, boundary := data } { d with fresh := d.fresh + 1 }) ∧
    (d.dbgLevel = 2 → Debugs .extest s { x with ir := .extest, dr := x.boundary } d) ∧
    (d.dbgLevel ≠ 2 → Debugs .extest s { x with ir := .bypass, dr := 0 } d) ∧
    (∃ n, Debugs .voStatCapture s { x with ir := .voStat, dr := n, refused := false } d ∧ n % 4 = Dbg.levelShown (x, d) % 4 ∧
      (x.level ≤ 2 → x.fails ≤ 15 → n / 32 % 16 = x.fails ∧ n / 16 % 2 = b2n x.refused ∧ n / 4 % 2 = b2n d.sys.halted)) ∧
    (x.fails < 15 → x.backoff = 0 → ∃ n : W64, Debugs .voChal s { x with ir := .voChal, dr := n.toNat, nonce := some n } { d with fresh := d.fresh + 1 }) ∧
    (15 ≤ x.fails ∨ x.backoff ≠ 0 → Debugs .voChal s { x with ir := .voChal, dr := 0, nonce := none } d) ∧
    (∀ n, x.nonce = some n → level.toNat ≤ d.otp.dbgMax → x.level ≤ level.toNat → level ≠ 0 →
      d.macOf n level.toNat = bytesLE 16 mac.toNat →
      Debugs (.voResp level mac) s { x with ir := .voResp, nonce := none, level := level.toNat } (d.dbgOn.showLevel level.toNat)) ∧
    (x.nonce = none ∨ d.otp.dbgMax < level.toNat ∨ level.toNat < x.level →
      Debugs (.voResp level mac) s { x with
        ir := .voResp, nonce := none, fails := Nat.min 15 (x.fails + 1), backoff := 60000000 * 2 ^ (Nat.min 15 (x.fails + 1) - 1) } d) ∧
    (d.dbgLevel = 0 → Debugs (.voBus a sz w v) s { x with refused := true } d ∧ Debugs (.trcCtrlEn t) s { x with refused := true } d) ∧
    (d.dbgLevel = 2 → hbmBase 0 ≤ a.toNat → d.sys.halted = true →
      Debugs (.voBus a sz w v) s { x with ir := .voBus, busStatus := 5, busCause := 0, busData := 0 } d) ∧
    (d.dbgLevel = 2 → a.toNat < 0xE0000000 → d.memCause a.toNat (2 ^ sz.toNat) true true = none →
      ∃ e : Dev, Debugs (.voBus a sz true v) s
          { x with ir := .voBus, busStatus := 0, busCause := 0, busData := 0, busAddr := a.toNat } e ∧
        e.bytes a.toNat (2 ^ sz.toNat) = bytesLE (2 ^ sz.toNat) v.toNat ∧
        ∀ b, b < a.toNat ∨ a.toNat + 2 ^ sz.toNat ≤ b → e.byte b = d.byte b) ∧
    (d.dbgLevel = 1 → w = true → traceConfig a.toNat = false →
      Debugs (.voBus a sz w v) s { x with ir := .voBus, busStatus := 4, busCause := 0, busData := 0 } d)

/-- Halt, step and resume (22 R479-R484): requests are taken at level FULL, a drain ends in the halt with its reason, count and time, a step is
granted only while halted, and every refused request sets REFUSED. -/
def Sys2Proof.Claims.HaltStepResume : Prop :=
  ∀ (s : State) (k : CoreId) (i : Fin 4) (level : BitVec 2),
    let d := s.dev
    let x := s.sec
    let asked := { x with ir := .voCtrl }
    let refused := { x with ir := .voCtrl, refused := true }
    let drain (n c b : Nat) : Dev := { d with sys := { d.sys with drain := some (n, c, b) } }
    let idle := d.sys.halted = false ∧ d.sys.drain = none ∧ Clocked s
    (d.dbgLevel = 2 → idle → Debugs .halt s asked (drain 1 0 0)) ∧
    (d.dbgLevel ≠ 2 → ∀ c ∈ [Instr.halt, .step k, .resume, .debugWarm], Debugs c s refused d) ∧
    (d.dbgLevel = 2 → idle → d.bpMatches k i = true → Does (.breakpointMatch k i) s (drain 2 k i)) ∧
    (d.dbgLevel = 2 → idle → d.haltEventSeen = true →
      Does .haltEvent s { d.haltEventMark with sys := { d.sys with drain := some (3, 0, 0) } }) ∧
    (∀ n c b, d.sys.drain = some (n, c, b) → n < 4 → c < 5 → b < 4 → d.tracing = false → Gives .haltDrainDone s fun e =>
      e.sys.halted = true ∧ e.sys.drain = none ∧ e.f pgDbg F.DBG_HALT_REASON_SRC = n ∧ e.f pgDbg F.DBG_HALT_REASON_CORE = c ∧
      e.f pgDbg F.DBG_HALT_REASON_BP = b ∧ e.r64 pgDbg 8 = d.count ∧ e.on pgDbg F.DBG_STAT_HALTED = true ∧
      e.f pgDbg F.DBG_HALT_CNT_HALTS = satInc 32 (d.f pgDbg F.DBG_HALT_CNT_HALTS) ∧ e.mem = d.mem ∧ e.time = d.time) ∧
    (d.dbgLevel = 2 → d.sys.halted = true →
      (d.stepHeld k = false → Debugs (.step k) s asked { d with sys := { d.sys with step := some k.val, stepResult := 0 } }) ∧
      (d.stepHeld k = true → Debugs (.step k) s asked { d with sys := { d.sys with step := none, stepResult := 4 } }) ∧
      (Debugs .resume s asked d.resume ∧ d.resume.sys.halted = false ∧ d.resume.on pgDbg F.DBG_STAT_HALTED = false ∧
        d.resume.mem = d.mem)) ∧
    (d.dbgLevel = 2 → d.sys.halted = false → Debugs (.step k) s refused d ∧ Debugs .resume s refused d) ∧
    (d.dbgLevel = 2 → Debugs .debugWarm s asked (d.warmReset 8 0)) ∧
    (d.sys.halted = false → level.toNat < x.level → level ≠ 0 →
      Debugs (.dropLevel level) s { asked with level := level.toNat } (d.showLevel level.toNat)) ∧
    (d.sys.halted = true ∨ x.level ≤ level.toNat → Debugs (.dropLevel level) s refused d)

/-- Debug access, halt, step and resume (22 R473-R484). -/
def Obligations.DebugAccess : Prop :=
  Claims.TestAccessPort ∧ Claims.HaltStepResume

/-- Trace (22 R486, R487): TRC_CTRL.EN starts with an ALIGN in an empty buffer and rewinds TRC_WPTR; a full line is written to the ring at TRC_WPTR,
which moves on by one line. -/
def Obligations.TraceStartsAndWrites : Prop :=
  ∀ (s : State) (v : W32),
    (1 ≤ s.dev.dbgLevel → s.dev.dbgLevel ≤ 2 → s.dev.sys.halted = false → v.toNat % 4 = 1 → s.dev.on pgDbg F.TRC_CTRL_EN = false →
      ∃ (x : Vopen) (d : Dev), Debugs (.trcCtrlEn v) s x d ∧ x.busStatus = 0 ∧ x.level = s.sec.level ∧
        d.on pgDbg F.TRC_CTRL_EN = true ∧ d.f pgDbg F.TRC_WPTR_WPTR = 0 ∧ d.trace.buf = List.replicate 12 0xFF ∧
        d.trace.lost = 0 ∧ d.mem = s.dev.mem) ∧
    (let t := s.dev.trace
     let w := s.dev.f pgDbg F.TRC_WPTR_WPTR
     let a := s.dev.r64 pgDbg 0xC0 + w
     Clocked s → s.dev.tracing = true → s.dev.on pgDbg F.TRC_CTRL_DEST = true → 64 ≤ t.buf.length → t.round = false →
      s.dev.memCause a 64 true false = none → Gives .traceLineWrite s fun d =>
        d.bytes a 64 = t.buf.take 64 ∧ (∀ b, b < a ∨ a + 64 ≤ b → d.byte b = s.dev.byte b) ∧ d.trace.buf = t.buf.drop 64 ∧
        d.f pgDbg F.TRC_WPTR_WPTR = (w + 64) % 2 ^ s.dev.f pgDbg F.TRC_RING_SIZE_LOG2 % 2 ^ 32) ∧
    (Clocked s → s.dev.tracing = true → s.dev.trace.buf = [] → Does .traceLineWrite s s.dev)

/-- What follows every command, when no block has asked for a reset: the event fabric, the links, the MSI-X vectors and the trace unit take note, and nothing else
changes: no memory, no core, no time, and no register outside the pages of the links and of debug. -/
def Obligations.SettleKeeps : Prop :=
  ∀ d : Dev, d.quiet →
    let e := d.settle
    { e with regs := d.regs, tls := d.tls, pfs := d.pfs, trace := d.trace, knocks := d.knocks, levels := d.levels } = d ∧
    ∀ a, a / 0x1000 ≠ pgDbg / 0x1000 → (∀ l, a / 0x1000 ≠ pgTlc l / 0x1000 ∧ a / 0x1000 ≠ pgTlcnt l / 0x1000) → e.reg a = d.reg a
end

