-- ==== Sys2Proof/Laws/Table.lean ====
section
/-!
SUPPORT. Sys2Proof/Laws/Table.lean: what tables read after an update, and that updates keep the canonical form.
-/
namespace Sys2Proof.Machine

variable {α : Type}

@[simp] theorem Table.get_nil (d : α) (i : Nat) : Table.get d [] i = d := rfl

theorem Table.get_drop_same (d : α) (t : Table α) (i : Nat) : Table.get d (Table.drop t i) i = d := by
  induction t with
  | nil => rfl
  | cons e r ih =>
    obtain ⟨k, v⟩ := e
    by_cases h : k = i
    · simp [Table.drop, h, ih]
    · simp [Table.drop, Table.get, h, ih]

theorem Table.get_drop_ne (d : α) (t : Table α) {i j : Nat} (h : i ≠ j) : Table.get d (Table.drop t i) j = Table.get d t j := by
  induction t with
  | nil => rfl
  | cons e r ih =>
    obtain ⟨k, v⟩ := e
    by_cases hk : k = i
    · subst hk
      simp [Table.drop, Table.get, ih, h]
    · simp [Table.drop, Table.get, hk, ih]

theorem Table.get_place_same (d : α) (t : Table α) (i : Nat) (x : α) (hn : ∀ e ∈ t, e.1 ≠ i) :
    Table.get d (Table.place t i x) i = x := by
  induction t with
  | nil => simp [Table.place, Table.get]
  | cons e r ih =>
    obtain ⟨k, v⟩ := e
    have hk : k ≠ i := hn (k, v) (by simp)
    have hr : ∀ e ∈ r, e.1 ≠ i := fun e he => hn e (by simp [he])
    by_cases hlt : i < k
    · simp [Table.place, hlt, Table.get]
    · simp [Table.place, hlt, Table.get, hk, ih hr]

theorem Table.get_place_ne (d : α) (t : Table α) {i j : Nat} (x : α) (h : i ≠ j) :
    Table.get d (Table.place t i x) j = Table.get d t j := by
  induction t with
  | nil => simp [Table.place, Table.get, h]
  | cons e r ih =>
    obtain ⟨k, v⟩ := e
    by_cases hlt : i < k
    · simp [Table.place, hlt, Table.get, h]
    · simp [Table.place, hlt, Table.get, ih]

theorem Table.drop_no_key (t : Table α) (i : Nat) : ∀ e ∈ Table.drop t i, e.1 ≠ i := by
  induction t with
  | nil => simp [Table.drop]
  | cons e r ih =>
    obtain ⟨k, v⟩ := e
    by_cases hk : k = i
    · simpa [Table.drop, hk] using ih
    · intro e he
      simp only [Table.drop, hk, if_false, List.mem_cons] at he
      rcases he with rfl | he
      · exact hk
      · exact ih e he

/-- A key reads what was written to it. -/
@[simp] theorem Table.get_put_same [DecidableEq α] (d : α) (t : Table α) (i : Nat) (x : α) : Table.get d (Table.put d t i x) i = x := by
  unfold Table.put
  split
  · rename_i h; rw [Table.get_drop_same, h]
  · exact Table.get_place_same d _ i x (Table.drop_no_key t i)

/-- Another key reads what it did, whatever its own unlisted value is. -/
theorem Table.get_put_ne [DecidableEq α] (d d' : α) (t : Table α) {i j : Nat} (x : α) (h : i ≠ j) :
    Table.get d' (Table.put d t i x) j = Table.get d' t j := by
  unfold Table.put
  split
  · exact Table.get_drop_ne d' t h
  · rw [Table.get_place_ne d' _ x h, Table.get_drop_ne d' t h]

theorem Table.wfFrom_mono [DecidableEq α] (d : Nat → α) {t : Table α} {lo lo' : Nat} (hl : lo' ≤ lo) (h : Table.wfFrom d lo t = true) :
    Table.wfFrom d lo' t = true := by
  cases t with
  | nil => rfl
  | cons e r =>
    obtain ⟨k, v⟩ := e
    simp only [Table.wfFrom, Bool.and_eq_true, decide_eq_true_eq] at h ⊢
    exact ⟨⟨Nat.le_trans hl h.1.1, h.1.2⟩, h.2⟩

theorem Table.drop_wfFrom [DecidableEq α] (d : Nat → α) (t : Table α) (i lo : Nat) (h : Table.wfFrom d lo t = true) :
    Table.wfFrom d lo (Table.drop t i) = true := by
  induction t generalizing lo with
  | nil => rfl
  | cons e r ih =>
    obtain ⟨k, v⟩ := e
    simp only [Table.wfFrom, Bool.and_eq_true, decide_eq_true_eq] at h
    by_cases hk : k = i
    · simp only [Table.drop, hk, if_true]
      exact Table.wfFrom_mono d (by omega) (ih (k + 1) h.2)
    · simp only [Table.drop, hk, if_false, Table.wfFrom, Bool.and_eq_true, decide_eq_true_eq]
      exact ⟨h.1, ih (k + 1) h.2⟩

theorem Table.place_wfFrom [DecidableEq α] (d : Nat → α) (t : Table α) (i lo : Nat) (x : α) (hlo : lo ≤ i) (hx : x ≠ d i)
    (hn : ∀ e ∈ t, e.1 ≠ i) (h : Table.wfFrom d lo t = true) : Table.wfFrom d lo (Table.place t i x) = true := by
  induction t generalizing lo with
  | nil => simp [Table.place, Table.wfFrom, hlo, hx]
  | cons e r ih =>
    obtain ⟨k, v⟩ := e
    have hk : k ≠ i := hn (k, v) (by simp)
    have hr : ∀ e ∈ r, e.1 ≠ i := fun e he => hn e (by simp [he])
    simp only [Table.wfFrom, Bool.and_eq_true, decide_eq_true_eq] at h
    by_cases hlt : i < k
    · simp only [Table.place, hlt, if_true, Table.wfFrom, Bool.and_eq_true, decide_eq_true_eq]
      exact ⟨⟨hlo, hx⟩, ⟨by omega, h.1.2⟩, h.2⟩
    · simp only [Table.place, hlt, if_false, Table.wfFrom, Bool.and_eq_true, decide_eq_true_eq]
      exact ⟨h.1, ih (k + 1) (by omega) hr h.2⟩

/-- A write keeps the canonical form. -/
theorem Table.put_wf [DecidableEq α] (d : Nat → α) (t : Table α) (i : Nat) (x : α) (h : Table.wf d t = true) :
    Table.wf d (Table.put (d i) t i x) = true := by
  unfold Table.put Table.wf at *
  split
  · exact Table.drop_wfFrom d t i 0 h
  · rename_i hx
    exact Table.place_wfFrom d _ i 0 x (Nat.zero_le _) hx (Table.drop_no_key t i) (Table.drop_wfFrom d t i 0 h)

theorem Table.keep_wfFrom [DecidableEq α] (d : Nat → α) (p : Nat → Bool) (t : Table α) (lo : Nat) (h : Table.wfFrom d lo t = true) :
    Table.wfFrom d lo (Table.keep p t) = true := by
  induction t generalizing lo with
  | nil => rfl
  | cons e r ih =>
    obtain ⟨k, v⟩ := e
    simp only [Table.wfFrom, Bool.and_eq_true, decide_eq_true_eq] at h
    have hr := ih (k + 1) h.2
    by_cases hp : p k = true
    · simp only [Table.keep, List.filter_cons, hp, if_true, Table.wfFrom, Bool.and_eq_true, decide_eq_true_eq]
      exact ⟨h.1, hr⟩
    · simp only [Table.keep, List.filter_cons, hp]
      exact Table.wfFrom_mono d (by omega) hr

/-- Forgetting keys keeps the canonical form. -/
theorem Table.keep_wf [DecidableEq α] (d : Nat → α) (p : Nat → Bool) (t : Table α) (h : Table.wf d t = true) :
    Table.wf d (Table.keep p t) = true := Table.keep_wfFrom d p t 0 h

/-- What is kept reads as before. -/
theorem Table.get_keep (d : α) (p : Nat → Bool) (t : Table α) (i : Nat) :
    Table.get d (Table.keep p t) i = if p i then Table.get d t i else d := by
  induction t with
  | nil => simp [Table.keep]
  | cons e r ih =>
    obtain ⟨k, v⟩ := e
    simp only [Table.keep] at ih
    by_cases hp : p k = true
    · by_cases hk : k = i
      · subst hk; simp [Table.keep, hp, Table.get]
      · simp [Table.keep, hp, Table.get, hk, ih]
    · by_cases hk : k = i
      · subst hk; simp [Table.keep, hp, ih]
      · simp [Table.keep, hp, ih, show Table.get d ((k, v) :: r) i = Table.get d r i by simp [Table.get, hk]]

end Sys2Proof.Machine
end

