-- ==== Sys2Proof/Laws/Registers.lean ====
section
/-!
SUPPORT. Sys2Proof/Laws/Registers.lean: what registers and their fields read after an update.
-/
namespace Sys2Proof.Machine

/-- A written field reads back what was written, cut to its width. -/
theorem bitsOf_putBits_same {n : Nat} (v : BitVec n) (lsb w x : Nat) (h : lsb + w ≤ n) :
    bitsOf (putBits v lsb w x) lsb w = x % 2 ^ w := by
  apply Nat.eq_of_testBit_eq
  intro i
  simp only [bitsOf, Nat.testBit_mod_two_pow, Nat.testBit_shiftRight]
  by_cases hi : i < w
  · have hn : lsb + i < n := by omega
    have e1 : (fieldMask n lsb w).getLsbD (lsb + i) = true := by
      simp [fieldMask, BitVec.getLsbD_ofNat, Nat.testBit_shiftLeft, Nat.testBit_two_pow_sub_one, hi, hn]
    have e2 : (putBits v lsb w x).getLsbD (lsb + i) = x.testBit i := by
      simp only [putBits, BitVec.getLsbD_or, BitVec.getLsbD_and, BitVec.getLsbD_not, e1, BitVec.getLsbD_ofNat]
      simp [hn, Nat.testBit_shiftLeft]
    simp only [← BitVec.testBit_toNat] at e2
    rw [e2]
  · simp [hi]

/-- Another field, disjoint from it, reads what it did. -/
theorem bitsOf_putBits_ne {n : Nat} (v : BitVec n) (lsb w x lsb' w' : Nat) (h : lsb' + w' ≤ lsb ∨ lsb + w ≤ lsb') :
    bitsOf (putBits v lsb w x) lsb' w' = bitsOf v lsb' w' := by
  apply Nat.eq_of_testBit_eq
  intro i
  simp only [bitsOf, Nat.testBit_mod_two_pow, Nat.testBit_shiftRight]
  by_cases hi : i < w'
  · have hm : ¬(lsb ≤ lsb' + i ∧ lsb' + i - lsb < w) := by omega
    have e1 : (fieldMask n lsb w).getLsbD (lsb' + i) = false := by
      simp only [fieldMask, BitVec.getLsbD_ofNat, Nat.testBit_shiftLeft, Nat.testBit_two_pow_sub_one]
      by_cases h1 : lsb ≤ lsb' + i
      · have : ¬ lsb' + i - lsb < w := fun h2 => hm ⟨h1, h2⟩
        simp [this]
      · simp [h1]
    have e2 : (putBits v lsb w x).getLsbD (lsb' + i) = v.getLsbD (lsb' + i) := by
      simp only [putBits, BitVec.getLsbD_or, BitVec.getLsbD_and, BitVec.getLsbD_not, e1]
      by_cases hn : lsb' + i < n
      · simp [hn]
      · simp [hn, BitVec.getLsbD_of_ge _ _ (Nat.le_of_not_lt hn)]
    simp only [← BitVec.testBit_toNat] at e2
    rw [e2]
  · simp [hi]

/-- The register written. -/
@[simp] theorem Dev.reg_setReg_same (d : Dev) (a : Nat) (v : W32) : (d.setReg a v).reg a = v := by
  simp [Dev.reg, Dev.setReg]

/-- Another register. -/
theorem Dev.reg_setReg_ne (d : Dev) {a b : Nat} (v : W32) (h : a ≠ b) : (d.setReg a v).reg b = d.reg b := by
  simp only [Dev.reg, Dev.setReg]
  exact Table.get_put_ne _ _ _ _ h

/-- The word of a field written. -/
theorem Dev.reg_setF_same (d : Dev) (p : Nat) (f : Fld) (x : Nat) :
    (d.setF p f x).reg (p + f.ofs) = putBits (d.reg (p + f.ofs)) f.lsb f.width x := by
  simp [Dev.setF]

/-- A word other than that of a field written. -/
theorem Dev.reg_setF_ne (d : Dev) (p : Nat) (f : Fld) (x : Nat) {b : Nat} (h : p + f.ofs ≠ b) :
    (d.setF p f x).reg b = d.reg b := Dev.reg_setReg_ne d _ h

/-- The field written. -/
theorem Dev.f_setF_same (d : Dev) (p : Nat) (f : Fld) (x : Nat) (h : f.lsb + f.width ≤ 32) :
    (d.setF p f x).f p f = x % 2 ^ f.width := by
  simp only [Dev.f, Dev.reg_setF_same]
  exact bitsOf_putBits_same _ _ _ _ h

/-- A field of another word. -/
theorem Dev.f_setF_ne (d : Dev) (p q : Nat) (f g : Fld) (x : Nat) (h : p + f.ofs ≠ q + g.ofs) :
    (d.setF p f x).f q g = d.f q g := by
  simp only [Dev.f, Dev.reg_setF_ne d p f x h]

/-- A disjoint field of the same word. -/
theorem Dev.f_setF_beside (d : Dev) (p : Nat) (f g : Fld) (x : Nat) (ho : f.ofs = g.ofs)
    (h : g.lsb + g.width ≤ f.lsb ∨ f.lsb + f.width ≤ g.lsb) : (d.setF p f x).f p g = d.f p g := by
  simp only [Dev.f, ← ho, Dev.reg_setF_same]
  exact bitsOf_putBits_ne _ _ _ _ _ _ h

/-- A one-bit field written. -/
theorem Dev.on_setB_same (d : Dev) (p : Nat) (f : Fld) (b : Bool) (hw : f.width = 1) (h : f.lsb < 32) :
    (d.setB p f b).on p f = b := by
  simp only [Dev.on, Dev.setB, Dev.f_setF_same d p f _ (by omega), hw]
  cases b <;> rfl

/-- A one-bit field of another word. -/
theorem Dev.on_setF_ne (d : Dev) (p q : Nat) (f g : Fld) (x : Nat) (h : p + f.ofs ≠ q + g.ofs) :
    (d.setF p f x).on q g = d.on q g := by
  simp only [Dev.on, Dev.f_setF_ne d p q f g x h]

/-- A disjoint one-bit field of the same word. -/
theorem Dev.on_setF_beside (d : Dev) (p : Nat) (f g : Fld) (x : Nat) (ho : f.ofs = g.ofs)
    (h : g.lsb + g.width ≤ f.lsb ∨ f.lsb + f.width ≤ g.lsb) : (d.setF p f x).on p g = d.on p g := by
  simp only [Dev.on, Dev.f_setF_beside d p f g x ho h]

/-- Writing a field's own value changes no register. -/
theorem Dev.reg_congr {d e : Dev} (h : d.regs = e.regs) (a : Nat) : d.reg a = e.reg a := by simp [Dev.reg, h]

end Sys2Proof.Machine
end

