-- ==== Sys2Proof/Laws/State.lean ====
section
/-!
SUPPORT. Sys2Proof/Laws/State.lean: what each update of the state leaves as it was, field by field.
-/
namespace Sys2Proof.Machine

variable (s : State) (d : Dev)

/-! Updates of registers -/

@[simp] theorem Dev.setReg_mem (a : Nat) (v : W32) : (d.setReg a v).mem = d.mem := rfl
@[simp] theorem Dev.setReg_poison (a : Nat) (v : W32) : (d.setReg a v).poison = d.poison := rfl
@[simp] theorem Dev.setReg_tags (a : Nat) (v : W32) : (d.setReg a v).tags = d.tags := rfl
@[simp] theorem Dev.setReg_upsets (a : Nat) (v : W32) : (d.setReg a v).upsets = d.upsets := rfl
@[simp] theorem Dev.setReg_lostLines (a : Nat) (v : W32) : (d.setReg a v).lostLines = d.lostLines := rfl
@[simp] theorem Dev.setReg_time (a : Nat) (v : W32) : (d.setReg a v).time = d.time := rfl
@[simp] theorem Dev.setReg_sys (a : Nat) (v : W32) : (d.setReg a v).sys = d.sys := rfl
@[simp] theorem Dev.setReg_own (a : Nat) (v : W32) : (d.setReg a v).own = d.own := rfl
@[simp] theorem Dev.setReg_pulses (a : Nat) (v : W32) : (d.setReg a v).pulses = d.pulses := rfl
@[simp] theorem Dev.setReg_recent (a : Nat) (v : W32) : (d.setReg a v).recent = d.recent := rfl
@[simp] theorem Dev.setReg_levels (a : Nat) (v : W32) : (d.setReg a v).levels = d.levels := rfl
@[simp] theorem Dev.setReg_present (a : Nat) (v : W32) : (d.setReg a v).present = d.present := rfl
@[simp] theorem Dev.setReg_errLog (a : Nat) (v : W32) : (d.setReg a v).errLog = d.errLog := rfl
@[simp] theorem Dev.setReg_otp (a : Nat) (v : W32) : (d.setReg a v).otp = d.otp := rfl
@[simp] theorem Dev.setReg_otpCmd (a : Nat) (v : W32) : (d.setReg a v).otpCmd = d.otpCmd := rfl
@[simp] theorem Dev.setReg_otpData (a : Nat) (v : W32) : (d.setReg a v).otpData = d.otpData := rfl
@[simp] theorem Dev.setReg_anchors (a : Nat) (v : W32) : (d.setReg a v).anchors = d.anchors := rfl
@[simp] theorem Dev.setReg_fresh (a : Nat) (v : W32) : (d.setReg a v).fresh = d.fresh := rfl
@[simp] theorem Dev.setReg_deliveries (a : Nat) (v : W32) : (d.setReg a v).deliveries = d.deliveries := rfl
@[simp] theorem Dev.setReg_fltBall (a : Nat) (v : W32) : (d.setReg a v).fltBall = d.fltBall := rfl
@[simp] theorem Dev.setReg_ains (a : Nat) (v : W32) : (d.setReg a v).ains = d.ains := rfl
@[simp] theorem Dev.setReg_pads (a : Nat) (v : W32) : (d.setReg a v).pads = d.pads := rfl
@[simp] theorem Dev.setReg_cmps (a : Nat) (v : W32) : (d.setReg a v).cmps = d.cmps := rfl
@[simp] theorem Dev.setReg_groups (a : Nat) (v : W32) : (d.setReg a v).groups = d.groups := rfl
@[simp] theorem Dev.setReg_adcs (a : Nat) (v : W32) : (d.setReg a v).adcs = d.adcs := rfl
@[simp] theorem Dev.setReg_sdIns (a : Nat) (v : W32) : (d.setReg a v).sdIns = d.sdIns := rfl
@[simp] theorem Dev.setReg_sdClks (a : Nat) (v : W32) : (d.setReg a v).sdClks = d.sdClks := rfl
@[simp] theorem Dev.setReg_tmrs (a : Nat) (v : W32) : (d.setReg a v).tmrs = d.tmrs := rfl
@[simp] theorem Dev.setReg_tio (a : Nat) (v : W32) : (d.setReg a v).tio = d.tio := rfl
@[simp] theorem Dev.setReg_tioOut (a : Nat) (v : W32) : (d.setReg a v).tioOut = d.tioOut := rfl
@[simp] theorem Dev.setReg_encs (a : Nat) (v : W32) : (d.setReg a v).encs = d.encs := rfl
@[simp] theorem Dev.setReg_wds (a : Nat) (v : W32) : (d.setReg a v).wds = d.wds := rfl
@[simp] theorem Dev.setReg_pwms (a : Nat) (v : W32) : (d.setReg a v).pwms = d.pwms := rfl
@[simp] theorem Dev.setReg_resp (a : Nat) (v : W32) : (d.setReg a v).resp = d.resp := rfl
@[simp] theorem Dev.setReg_swClr (a : Nat) (v : W32) : (d.setReg a v).swClr = d.swClr := rfl
@[simp] theorem Dev.setReg_sashes (a : Nat) (v : W32) : (d.setReg a v).sashes = d.sashes := rfl
@[simp] theorem Dev.setReg_lanes (a : Nat) (v : W32) : (d.setReg a v).lanes = d.lanes := rfl
@[simp] theorem Dev.setReg_queues (a : Nat) (v : W32) : (d.setReg a v).queues = d.queues := rfl
@[simp] theorem Dev.setReg_jobSeq (a : Nat) (v : W32) : (d.setReg a v).jobSeq = d.jobSeq := rfl
@[simp] theorem Dev.setReg_flits (a : Nat) (v : W32) : (d.setReg a v).flits = d.flits := rfl
@[simp] theorem Dev.setReg_fallbacks (a : Nat) (v : W32) : (d.setReg a v).fallbacks = d.fallbacks := rfl
@[simp] theorem Dev.setReg_mons (a : Nat) (v : W32) : (d.setReg a v).mons = d.mons := rfl
@[simp] theorem Dev.setReg_injs (a : Nat) (v : W32) : (d.setReg a v).injs = d.injs := rfl
@[simp] theorem Dev.setReg_caps (a : Nat) (v : W32) : (d.setReg a v).caps = d.caps := rfl
@[simp] theorem Dev.setReg_redirTick (a : Nat) (v : W32) : (d.setReg a v).redirTick = d.redirTick := rfl
@[simp] theorem Dev.setReg_landedVals (a : Nat) (v : W32) : (d.setReg a v).landedVals = d.landedVals := rfl
@[simp] theorem Dev.setReg_tls (a : Nat) (v : W32) : (d.setReg a v).tls = d.tls := rfl
@[simp] theorem Dev.setReg_cores (a : Nat) (v : W32) : (d.setReg a v).cores = d.cores := rfl
@[simp] theorem Dev.setReg_dreqs (a : Nat) (v : W32) : (d.setReg a v).dreqs = d.dreqs := rfl
@[simp] theorem Dev.setReg_l2ok (a : Nat) (v : W32) : (d.setReg a v).l2ok = d.l2ok := rfl
@[simp] theorem Dev.setReg_hbms (a : Nat) (v : W32) : (d.setReg a v).hbms = d.hbms := rfl
@[simp] theorem Dev.setReg_pfs (a : Nat) (v : W32) : (d.setReg a v).pfs = d.pfs := rfl
@[simp] theorem Dev.setReg_dmas (a : Nat) (v : W32) : (d.setReg a v).dmas = d.dmas := rfl
@[simp] theorem Dev.setReg_dmaLast (a : Nat) (v : W32) : (d.setReg a v).dmaLast = d.dmaLast := rfl
@[simp] theorem Dev.setReg_eths (a : Nat) (v : W32) : (d.setReg a v).eths = d.eths := rfl
@[simp] theorem Dev.setReg_cans (a : Nat) (v : W32) : (d.setReg a v).cans = d.cans := rfl
@[simp] theorem Dev.setReg_xspi (a : Nat) (v : W32) : (d.setReg a v).xspi = d.xspi := rfl
@[simp] theorem Dev.setReg_i2c (a : Nat) (v : W32) : (d.setReg a v).i2c = d.i2c := rfl
@[simp] theorem Dev.setReg_trace (a : Nat) (v : W32) : (d.setReg a v).trace = d.trace := rfl
@[simp] theorem Dev.setReg_knocks (a : Nat) (v : W32) : (d.setReg a v).knocks = d.knocks := rfl
@[simp] theorem Dev.setReg_jobEnds (a : Nat) (v : W32) : (d.setReg a v).jobEnds = d.jobEnds := rfl

@[simp] theorem Dev.setF_mem (p : Nat) (f : Fld) (x : Nat) : (d.setF p f x).mem = d.mem := rfl
@[simp] theorem Dev.setF_poison (p : Nat) (f : Fld) (x : Nat) : (d.setF p f x).poison = d.poison := rfl
@[simp] theorem Dev.setF_tags (p : Nat) (f : Fld) (x : Nat) : (d.setF p f x).tags = d.tags := rfl
@[simp] theorem Dev.setF_upsets (p : Nat) (f : Fld) (x : Nat) : (d.setF p f x).upsets = d.upsets := rfl
@[simp] theorem Dev.setF_lostLines (p : Nat) (f : Fld) (x : Nat) : (d.setF p f x).lostLines = d.lostLines := rfl
@[simp] theorem Dev.setF_time (p : Nat) (f : Fld) (x : Nat) : (d.setF p f x).time = d.time := rfl
@[simp] theorem Dev.setF_sys (p : Nat) (f : Fld) (x : Nat) : (d.setF p f x).sys = d.sys := rfl
@[simp] theorem Dev.setF_own (p : Nat) (f : Fld) (x : Nat) : (d.setF p f x).own = d.own := rfl
@[simp] theorem Dev.setF_pulses (p : Nat) (f : Fld) (x : Nat) : (d.setF p f x).pulses = d.pulses := rfl
@[simp] theorem Dev.setF_recent (p : Nat) (f : Fld) (x : Nat) : (d.setF p f x).recent = d.recent := rfl
@[simp] theorem Dev.setF_levels (p : Nat) (f : Fld) (x : Nat) : (d.setF p f x).levels = d.levels := rfl
@[simp] theorem Dev.setF_present (p : Nat) (f : Fld) (x : Nat) : (d.setF p f x).present = d.present := rfl
@[simp] theorem Dev.setF_errLog (p : Nat) (f : Fld) (x : Nat) : (d.setF p f x).errLog = d.errLog := rfl
@[simp] theorem Dev.setF_otp (p : Nat) (f : Fld) (x : Nat) : (d.setF p f x).otp = d.otp := rfl
@[simp] theorem Dev.setF_otpCmd (p : Nat) (f : Fld) (x : Nat) : (d.setF p f x).otpCmd = d.otpCmd := rfl
@[simp] theorem Dev.setF_otpData (p : Nat) (f : Fld) (x : Nat) : (d.setF p f x).otpData = d.otpData := rfl
@[simp] theorem Dev.setF_anchors (p : Nat) (f : Fld) (x : Nat) : (d.setF p f x).anchors = d.anchors := rfl
@[simp] theorem Dev.setF_fresh (p : Nat) (f : Fld) (x : Nat) : (d.setF p f x).fresh = d.fresh := rfl
@[simp] theorem Dev.setF_deliveries (p : Nat) (f : Fld) (x : Nat) : (d.setF p f x).deliveries = d.deliveries := rfl
@[simp] theorem Dev.setF_fltBall (p : Nat) (f : Fld) (x : Nat) : (d.setF p f x).fltBall = d.fltBall := rfl
@[simp] theorem Dev.setF_ains (p : Nat) (f : Fld) (x : Nat) : (d.setF p f x).ains = d.ains := rfl
@[simp] theorem Dev.setF_pads (p : Nat) (f : Fld) (x : Nat) : (d.setF p f x).pads = d.pads := rfl
@[simp] theorem Dev.setF_cmps (p : Nat) (f : Fld) (x : Nat) : (d.setF p f x).cmps = d.cmps := rfl
@[simp] theorem Dev.setF_groups (p : Nat) (f : Fld) (x : Nat) : (d.setF p f x).groups = d.groups := rfl
@[simp] theorem Dev.setF_adcs (p : Nat) (f : Fld) (x : Nat) : (d.setF p f x).adcs = d.adcs := rfl
@[simp] theorem Dev.setF_sdIns (p : Nat) (f : Fld) (x : Nat) : (d.setF p f x).sdIns = d.sdIns := rfl
@[simp] theorem Dev.setF_sdClks (p : Nat) (f : Fld) (x : Nat) : (d.setF p f x).sdClks = d.sdClks := rfl
@[simp] theorem Dev.setF_tmrs (p : Nat) (f : Fld) (x : Nat) : (d.setF p f x).tmrs = d.tmrs := rfl
@[simp] theorem Dev.setF_tio (p : Nat) (f : Fld) (x : Nat) : (d.setF p f x).tio = d.tio := rfl
@[simp] theorem Dev.setF_tioOut (p : Nat) (f : Fld) (x : Nat) : (d.setF p f x).tioOut = d.tioOut := rfl
@[simp] theorem Dev.setF_encs (p : Nat) (f : Fld) (x : Nat) : (d.setF p f x).encs = d.encs := rfl
@[simp] theorem Dev.setF_wds (p : Nat) (f : Fld) (x : Nat) : (d.setF p f x).wds = d.wds := rfl
@[simp] theorem Dev.setF_pwms (p : Nat) (f : Fld) (x : Nat) : (d.setF p f x).pwms = d.pwms := rfl
@[simp] theorem Dev.setF_resp (p : Nat) (f : Fld) (x : Nat) : (d.setF p f x).resp = d.resp := rfl
@[simp] theorem Dev.setF_swClr (p : Nat) (f : Fld) (x : Nat) : (d.setF p f x).swClr = d.swClr := rfl
@[simp] theorem Dev.setF_sashes (p : Nat) (f : Fld) (x : Nat) : (d.setF p f x).sashes = d.sashes := rfl
@[simp] theorem Dev.setF_lanes (p : Nat) (f : Fld) (x : Nat) : (d.setF p f x).lanes = d.lanes := rfl
@[simp] theorem Dev.setF_queues (p : Nat) (f : Fld) (x : Nat) : (d.setF p f x).queues = d.queues := rfl
@[simp] theorem Dev.setF_jobSeq (p : Nat) (f : Fld) (x : Nat) : (d.setF p f x).jobSeq = d.jobSeq := rfl
@[simp] theorem Dev.setF_flits (p : Nat) (f : Fld) (x : Nat) : (d.setF p f x).flits = d.flits := rfl
@[simp] theorem Dev.setF_fallbacks (p : Nat) (f : Fld) (x : Nat) : (d.setF p f x).fallbacks = d.fallbacks := rfl
@[simp] theorem Dev.setF_mons (p : Nat) (f : Fld) (x : Nat) : (d.setF p f x).mons = d.mons := rfl
@[simp] theorem Dev.setF_injs (p : Nat) (f : Fld) (x : Nat) : (d.setF p f x).injs = d.injs := rfl
@[simp] theorem Dev.setF_caps (p : Nat) (f : Fld) (x : Nat) : (d.setF p f x).caps = d.caps := rfl
@[simp] theorem Dev.setF_redirTick (p : Nat) (f : Fld) (x : Nat) : (d.setF p f x).redirTick = d.redirTick := rfl
@[simp] theorem Dev.setF_landedVals (p : Nat) (f : Fld) (x : Nat) : (d.setF p f x).landedVals = d.landedVals := rfl
@[simp] theorem Dev.setF_tls (p : Nat) (f : Fld) (x : Nat) : (d.setF p f x).tls = d.tls := rfl
@[simp] theorem Dev.setF_cores (p : Nat) (f : Fld) (x : Nat) : (d.setF p f x).cores = d.cores := rfl
@[simp] theorem Dev.setF_dreqs (p : Nat) (f : Fld) (x : Nat) : (d.setF p f x).dreqs = d.dreqs := rfl
@[simp] theorem Dev.setF_l2ok (p : Nat) (f : Fld) (x : Nat) : (d.setF p f x).l2ok = d.l2ok := rfl
@[simp] theorem Dev.setF_hbms (p : Nat) (f : Fld) (x : Nat) : (d.setF p f x).hbms = d.hbms := rfl
@[simp] theorem Dev.setF_pfs (p : Nat) (f : Fld) (x : Nat) : (d.setF p f x).pfs = d.pfs := rfl
@[simp] theorem Dev.setF_dmas (p : Nat) (f : Fld) (x : Nat) : (d.setF p f x).dmas = d.dmas := rfl
@[simp] theorem Dev.setF_dmaLast (p : Nat) (f : Fld) (x : Nat) : (d.setF p f x).dmaLast = d.dmaLast := rfl
@[simp] theorem Dev.setF_eths (p : Nat) (f : Fld) (x : Nat) : (d.setF p f x).eths = d.eths := rfl
@[simp] theorem Dev.setF_cans (p : Nat) (f : Fld) (x : Nat) : (d.setF p f x).cans = d.cans := rfl
@[simp] theorem Dev.setF_xspi (p : Nat) (f : Fld) (x : Nat) : (d.setF p f x).xspi = d.xspi := rfl
@[simp] theorem Dev.setF_i2c (p : Nat) (f : Fld) (x : Nat) : (d.setF p f x).i2c = d.i2c := rfl
@[simp] theorem Dev.setF_trace (p : Nat) (f : Fld) (x : Nat) : (d.setF p f x).trace = d.trace := rfl
@[simp] theorem Dev.setF_knocks (p : Nat) (f : Fld) (x : Nat) : (d.setF p f x).knocks = d.knocks := rfl
@[simp] theorem Dev.setF_jobEnds (p : Nat) (f : Fld) (x : Nat) : (d.setF p f x).jobEnds = d.jobEnds := rfl

@[simp] theorem Dev.setB_mem (p : Nat) (f : Fld) (b : Bool) : (d.setB p f b).mem = d.mem := rfl
@[simp] theorem Dev.setB_poison (p : Nat) (f : Fld) (b : Bool) : (d.setB p f b).poison = d.poison := rfl
@[simp] theorem Dev.setB_tags (p : Nat) (f : Fld) (b : Bool) : (d.setB p f b).tags = d.tags := rfl
@[simp] theorem Dev.setB_upsets (p : Nat) (f : Fld) (b : Bool) : (d.setB p f b).upsets = d.upsets := rfl
@[simp] theorem Dev.setB_lostLines (p : Nat) (f : Fld) (b : Bool) : (d.setB p f b).lostLines = d.lostLines := rfl
@[simp] theorem Dev.setB_time (p : Nat) (f : Fld) (b : Bool) : (d.setB p f b).time = d.time := rfl
@[simp] theorem Dev.setB_sys (p : Nat) (f : Fld) (b : Bool) : (d.setB p f b).sys = d.sys := rfl
@[simp] theorem Dev.setB_own (p : Nat) (f : Fld) (b : Bool) : (d.setB p f b).own = d.own := rfl
@[simp] theorem Dev.setB_pulses (p : Nat) (f : Fld) (b : Bool) : (d.setB p f b).pulses = d.pulses := rfl
@[simp] theorem Dev.setB_recent (p : Nat) (f : Fld) (b : Bool) : (d.setB p f b).recent = d.recent := rfl
@[simp] theorem Dev.setB_levels (p : Nat) (f : Fld) (b : Bool) : (d.setB p f b).levels = d.levels := rfl
@[simp] theorem Dev.setB_present (p : Nat) (f : Fld) (b : Bool) : (d.setB p f b).present = d.present := rfl
@[simp] theorem Dev.setB_errLog (p : Nat) (f : Fld) (b : Bool) : (d.setB p f b).errLog = d.errLog := rfl
@[simp] theorem Dev.setB_otp (p : Nat) (f : Fld) (b : Bool) : (d.setB p f b).otp = d.otp := rfl
@[simp] theorem Dev.setB_otpCmd (p : Nat) (f : Fld) (b : Bool) : (d.setB p f b).otpCmd = d.otpCmd := rfl
@[simp] theorem Dev.setB_otpData (p : Nat) (f : Fld) (b : Bool) : (d.setB p f b).otpData = d.otpData := rfl
@[simp] theorem Dev.setB_anchors (p : Nat) (f : Fld) (b : Bool) : (d.setB p f b).anchors = d.anchors := rfl
@[simp] theorem Dev.setB_fresh (p : Nat) (f : Fld) (b : Bool) : (d.setB p f b).fresh = d.fresh := rfl
@[simp] theorem Dev.setB_deliveries (p : Nat) (f : Fld) (b : Bool) : (d.setB p f b).deliveries = d.deliveries := rfl
@[simp] theorem Dev.setB_fltBall (p : Nat) (f : Fld) (b : Bool) : (d.setB p f b).fltBall = d.fltBall := rfl
@[simp] theorem Dev.setB_ains (p : Nat) (f : Fld) (b : Bool) : (d.setB p f b).ains = d.ains := rfl
@[simp] theorem Dev.setB_pads (p : Nat) (f : Fld) (b : Bool) : (d.setB p f b).pads = d.pads := rfl
@[simp] theorem Dev.setB_cmps (p : Nat) (f : Fld) (b : Bool) : (d.setB p f b).cmps = d.cmps := rfl
@[simp] theorem Dev.setB_groups (p : Nat) (f : Fld) (b : Bool) : (d.setB p f b).groups = d.groups := rfl
@[simp] theorem Dev.setB_adcs (p : Nat) (f : Fld) (b : Bool) : (d.setB p f b).adcs = d.adcs := rfl
@[simp] theorem Dev.setB_sdIns (p : Nat) (f : Fld) (b : Bool) : (d.setB p f b).sdIns = d.sdIns := rfl
@[simp] theorem Dev.setB_sdClks (p : Nat) (f : Fld) (b : Bool) : (d.setB p f b).sdClks = d.sdClks := rfl
@[simp] theorem Dev.setB_tmrs (p : Nat) (f : Fld) (b : Bool) : (d.setB p f b).tmrs = d.tmrs := rfl
@[simp] theorem Dev.setB_tio (p : Nat) (f : Fld) (b : Bool) : (d.setB p f b).tio = d.tio := rfl
@[simp] theorem Dev.setB_tioOut (p : Nat) (f : Fld) (b : Bool) : (d.setB p f b).tioOut = d.tioOut := rfl
@[simp] theorem Dev.setB_encs (p : Nat) (f : Fld) (b : Bool) : (d.setB p f b).encs = d.encs := rfl
@[simp] theorem Dev.setB_wds (p : Nat) (f : Fld) (b : Bool) : (d.setB p f b).wds = d.wds := rfl
@[simp] theorem Dev.setB_pwms (p : Nat) (f : Fld) (b : Bool) : (d.setB p f b).pwms = d.pwms := rfl
@[simp] theorem Dev.setB_resp (p : Nat) (f : Fld) (b : Bool) : (d.setB p f b).resp = d.resp := rfl
@[simp] theorem Dev.setB_swClr (p : Nat) (f : Fld) (b : Bool) : (d.setB p f b).swClr = d.swClr := rfl
@[simp] theorem Dev.setB_sashes (p : Nat) (f : Fld) (b : Bool) : (d.setB p f b).sashes = d.sashes := rfl
@[simp] theorem Dev.setB_lanes (p : Nat) (f : Fld) (b : Bool) : (d.setB p f b).lanes = d.lanes := rfl
@[simp] theorem Dev.setB_queues (p : Nat) (f : Fld) (b : Bool) : (d.setB p f b).queues = d.queues := rfl
@[simp] theorem Dev.setB_jobSeq (p : Nat) (f : Fld) (b : Bool) : (d.setB p f b).jobSeq = d.jobSeq := rfl
@[simp] theorem Dev.setB_flits (p : Nat) (f : Fld) (b : Bool) : (d.setB p f b).flits = d.flits := rfl
@[simp] theorem Dev.setB_fallbacks (p : Nat) (f : Fld) (b : Bool) : (d.setB p f b).fallbacks = d.fallbacks := rfl
@[simp] theorem Dev.setB_mons (p : Nat) (f : Fld) (b : Bool) : (d.setB p f b).mons = d.mons := rfl
@[simp] theorem Dev.setB_injs (p : Nat) (f : Fld) (b : Bool) : (d.setB p f b).injs = d.injs := rfl
@[simp] theorem Dev.setB_caps (p : Nat) (f : Fld) (b : Bool) : (d.setB p f b).caps = d.caps := rfl
@[simp] theorem Dev.setB_redirTick (p : Nat) (f : Fld) (b : Bool) : (d.setB p f b).redirTick = d.redirTick := rfl
@[simp] theorem Dev.setB_landedVals (p : Nat) (f : Fld) (b : Bool) : (d.setB p f b).landedVals = d.landedVals := rfl
@[simp] theorem Dev.setB_tls (p : Nat) (f : Fld) (b : Bool) : (d.setB p f b).tls = d.tls := rfl
@[simp] theorem Dev.setB_cores (p : Nat) (f : Fld) (b : Bool) : (d.setB p f b).cores = d.cores := rfl
@[simp] theorem Dev.setB_dreqs (p : Nat) (f : Fld) (b : Bool) : (d.setB p f b).dreqs = d.dreqs := rfl
@[simp] theorem Dev.setB_l2ok (p : Nat) (f : Fld) (b : Bool) : (d.setB p f b).l2ok = d.l2ok := rfl
@[simp] theorem Dev.setB_hbms (p : Nat) (f : Fld) (b : Bool) : (d.setB p f b).hbms = d.hbms := rfl
@[simp] theorem Dev.setB_pfs (p : Nat) (f : Fld) (b : Bool) : (d.setB p f b).pfs = d.pfs := rfl
@[simp] theorem Dev.setB_dmas (p : Nat) (f : Fld) (b : Bool) : (d.setB p f b).dmas = d.dmas := rfl
@[simp] theorem Dev.setB_dmaLast (p : Nat) (f : Fld) (b : Bool) : (d.setB p f b).dmaLast = d.dmaLast := rfl
@[simp] theorem Dev.setB_eths (p : Nat) (f : Fld) (b : Bool) : (d.setB p f b).eths = d.eths := rfl
@[simp] theorem Dev.setB_cans (p : Nat) (f : Fld) (b : Bool) : (d.setB p f b).cans = d.cans := rfl
@[simp] theorem Dev.setB_xspi (p : Nat) (f : Fld) (b : Bool) : (d.setB p f b).xspi = d.xspi := rfl
@[simp] theorem Dev.setB_i2c (p : Nat) (f : Fld) (b : Bool) : (d.setB p f b).i2c = d.i2c := rfl
@[simp] theorem Dev.setB_trace (p : Nat) (f : Fld) (b : Bool) : (d.setB p f b).trace = d.trace := rfl
@[simp] theorem Dev.setB_knocks (p : Nat) (f : Fld) (b : Bool) : (d.setB p f b).knocks = d.knocks := rfl
@[simp] theorem Dev.setB_jobEnds (p : Nat) (f : Fld) (b : Bool) : (d.setB p f b).jobEnds = d.jobEnds := rfl

@[simp] theorem Dev.inc_mem (p : Nat) (f : Fld) : (d.inc p f).mem = d.mem := rfl
@[simp] theorem Dev.inc_poison (p : Nat) (f : Fld) : (d.inc p f).poison = d.poison := rfl
@[simp] theorem Dev.inc_tags (p : Nat) (f : Fld) : (d.inc p f).tags = d.tags := rfl
@[simp] theorem Dev.inc_upsets (p : Nat) (f : Fld) : (d.inc p f).upsets = d.upsets := rfl
@[simp] theorem Dev.inc_lostLines (p : Nat) (f : Fld) : (d.inc p f).lostLines = d.lostLines := rfl
@[simp] theorem Dev.inc_time (p : Nat) (f : Fld) : (d.inc p f).time = d.time := rfl
@[simp] theorem Dev.inc_sys (p : Nat) (f : Fld) : (d.inc p f).sys = d.sys := rfl
@[simp] theorem Dev.inc_own (p : Nat) (f : Fld) : (d.inc p f).own = d.own := rfl
@[simp] theorem Dev.inc_pulses (p : Nat) (f : Fld) : (d.inc p f).pulses = d.pulses := rfl
@[simp] theorem Dev.inc_recent (p : Nat) (f : Fld) : (d.inc p f).recent = d.recent := rfl
@[simp] theorem Dev.inc_levels (p : Nat) (f : Fld) : (d.inc p f).levels = d.levels := rfl
@[simp] theorem Dev.inc_present (p : Nat) (f : Fld) : (d.inc p f).present = d.present := rfl
@[simp] theorem Dev.inc_errLog (p : Nat) (f : Fld) : (d.inc p f).errLog = d.errLog := rfl
@[simp] theorem Dev.inc_otp (p : Nat) (f : Fld) : (d.inc p f).otp = d.otp := rfl
@[simp] theorem Dev.inc_otpCmd (p : Nat) (f : Fld) : (d.inc p f).otpCmd = d.otpCmd := rfl
@[simp] theorem Dev.inc_otpData (p : Nat) (f : Fld) : (d.inc p f).otpData = d.otpData := rfl
@[simp] theorem Dev.inc_anchors (p : Nat) (f : Fld) : (d.inc p f).anchors = d.anchors := rfl
@[simp] theorem Dev.inc_fresh (p : Nat) (f : Fld) : (d.inc p f).fresh = d.fresh := rfl
@[simp] theorem Dev.inc_deliveries (p : Nat) (f : Fld) : (d.inc p f).deliveries = d.deliveries := rfl
@[simp] theorem Dev.inc_fltBall (p : Nat) (f : Fld) : (d.inc p f).fltBall = d.fltBall := rfl
@[simp] theorem Dev.inc_ains (p : Nat) (f : Fld) : (d.inc p f).ains = d.ains := rfl
@[simp] theorem Dev.inc_pads (p : Nat) (f : Fld) : (d.inc p f).pads = d.pads := rfl
@[simp] theorem Dev.inc_cmps (p : Nat) (f : Fld) : (d.inc p f).cmps = d.cmps := rfl
@[simp] theorem Dev.inc_groups (p : Nat) (f : Fld) : (d.inc p f).groups = d.groups := rfl
@[simp] theorem Dev.inc_adcs (p : Nat) (f : Fld) : (d.inc p f).adcs = d.adcs := rfl
@[simp] theorem Dev.inc_sdIns (p : Nat) (f : Fld) : (d.inc p f).sdIns = d.sdIns := rfl
@[simp] theorem Dev.inc_sdClks (p : Nat) (f : Fld) : (d.inc p f).sdClks = d.sdClks := rfl
@[simp] theorem Dev.inc_tmrs (p : Nat) (f : Fld) : (d.inc p f).tmrs = d.tmrs := rfl
@[simp] theorem Dev.inc_tio (p : Nat) (f : Fld) : (d.inc p f).tio = d.tio := rfl
@[simp] theorem Dev.inc_tioOut (p : Nat) (f : Fld) : (d.inc p f).tioOut = d.tioOut := rfl
@[simp] theorem Dev.inc_encs (p : Nat) (f : Fld) : (d.inc p f).encs = d.encs := rfl
@[simp] theorem Dev.inc_wds (p : Nat) (f : Fld) : (d.inc p f).wds = d.wds := rfl
@[simp] theorem Dev.inc_pwms (p : Nat) (f : Fld) : (d.inc p f).pwms = d.pwms := rfl
@[simp] theorem Dev.inc_resp (p : Nat) (f : Fld) : (d.inc p f).resp = d.resp := rfl
@[simp] theorem Dev.inc_swClr (p : Nat) (f : Fld) : (d.inc p f).swClr = d.swClr := rfl
@[simp] theorem Dev.inc_sashes (p : Nat) (f : Fld) : (d.inc p f).sashes = d.sashes := rfl
@[simp] theorem Dev.inc_lanes (p : Nat) (f : Fld) : (d.inc p f).lanes = d.lanes := rfl
@[simp] theorem Dev.inc_queues (p : Nat) (f : Fld) : (d.inc p f).queues = d.queues := rfl
@[simp] theorem Dev.inc_jobSeq (p : Nat) (f : Fld) : (d.inc p f).jobSeq = d.jobSeq := rfl
@[simp] theorem Dev.inc_flits (p : Nat) (f : Fld) : (d.inc p f).flits = d.flits := rfl
@[simp] theorem Dev.inc_fallbacks (p : Nat) (f : Fld) : (d.inc p f).fallbacks = d.fallbacks := rfl
@[simp] theorem Dev.inc_mons (p : Nat) (f : Fld) : (d.inc p f).mons = d.mons := rfl
@[simp] theorem Dev.inc_injs (p : Nat) (f : Fld) : (d.inc p f).injs = d.injs := rfl
@[simp] theorem Dev.inc_caps (p : Nat) (f : Fld) : (d.inc p f).caps = d.caps := rfl
@[simp] theorem Dev.inc_redirTick (p : Nat) (f : Fld) : (d.inc p f).redirTick = d.redirTick := rfl
@[simp] theorem Dev.inc_landedVals (p : Nat) (f : Fld) : (d.inc p f).landedVals = d.landedVals := rfl
@[simp] theorem Dev.inc_tls (p : Nat) (f : Fld) : (d.inc p f).tls = d.tls := rfl
@[simp] theorem Dev.inc_cores (p : Nat) (f : Fld) : (d.inc p f).cores = d.cores := rfl
@[simp] theorem Dev.inc_dreqs (p : Nat) (f : Fld) : (d.inc p f).dreqs = d.dreqs := rfl
@[simp] theorem Dev.inc_l2ok (p : Nat) (f : Fld) : (d.inc p f).l2ok = d.l2ok := rfl
@[simp] theorem Dev.inc_hbms (p : Nat) (f : Fld) : (d.inc p f).hbms = d.hbms := rfl
@[simp] theorem Dev.inc_pfs (p : Nat) (f : Fld) : (d.inc p f).pfs = d.pfs := rfl
@[simp] theorem Dev.inc_dmas (p : Nat) (f : Fld) : (d.inc p f).dmas = d.dmas := rfl
@[simp] theorem Dev.inc_dmaLast (p : Nat) (f : Fld) : (d.inc p f).dmaLast = d.dmaLast := rfl
@[simp] theorem Dev.inc_eths (p : Nat) (f : Fld) : (d.inc p f).eths = d.eths := rfl
@[simp] theorem Dev.inc_cans (p : Nat) (f : Fld) : (d.inc p f).cans = d.cans := rfl
@[simp] theorem Dev.inc_xspi (p : Nat) (f : Fld) : (d.inc p f).xspi = d.xspi := rfl
@[simp] theorem Dev.inc_i2c (p : Nat) (f : Fld) : (d.inc p f).i2c = d.i2c := rfl
@[simp] theorem Dev.inc_trace (p : Nat) (f : Fld) : (d.inc p f).trace = d.trace := rfl
@[simp] theorem Dev.inc_knocks (p : Nat) (f : Fld) : (d.inc p f).knocks = d.knocks := rfl
@[simp] theorem Dev.inc_jobEnds (p : Nat) (f : Fld) : (d.inc p f).jobEnds = d.jobEnds := rfl

@[simp] theorem Dev.irq_mem (p i : Nat) : (d.irq p i).mem = d.mem := rfl
@[simp] theorem Dev.irq_poison (p i : Nat) : (d.irq p i).poison = d.poison := rfl
@[simp] theorem Dev.irq_tags (p i : Nat) : (d.irq p i).tags = d.tags := rfl
@[simp] theorem Dev.irq_upsets (p i : Nat) : (d.irq p i).upsets = d.upsets := rfl
@[simp] theorem Dev.irq_lostLines (p i : Nat) : (d.irq p i).lostLines = d.lostLines := rfl
@[simp] theorem Dev.irq_time (p i : Nat) : (d.irq p i).time = d.time := rfl
@[simp] theorem Dev.irq_sys (p i : Nat) : (d.irq p i).sys = d.sys := rfl
@[simp] theorem Dev.irq_own (p i : Nat) : (d.irq p i).own = d.own := rfl
@[simp] theorem Dev.irq_pulses (p i : Nat) : (d.irq p i).pulses = d.pulses := rfl
@[simp] theorem Dev.irq_recent (p i : Nat) : (d.irq p i).recent = d.recent := rfl
@[simp] theorem Dev.irq_levels (p i : Nat) : (d.irq p i).levels = d.levels := rfl
@[simp] theorem Dev.irq_present (p i : Nat) : (d.irq p i).present = d.present := rfl
@[simp] theorem Dev.irq_errLog (p i : Nat) : (d.irq p i).errLog = d.errLog := rfl
@[simp] theorem Dev.irq_otp (p i : Nat) : (d.irq p i).otp = d.otp := rfl
@[simp] theorem Dev.irq_otpCmd (p i : Nat) : (d.irq p i).otpCmd = d.otpCmd := rfl
@[simp] theorem Dev.irq_otpData (p i : Nat) : (d.irq p i).otpData = d.otpData := rfl
@[simp] theorem Dev.irq_anchors (p i : Nat) : (d.irq p i).anchors = d.anchors := rfl
@[simp] theorem Dev.irq_fresh (p i : Nat) : (d.irq p i).fresh = d.fresh := rfl
@[simp] theorem Dev.irq_deliveries (p i : Nat) : (d.irq p i).deliveries = d.deliveries := rfl
@[simp] theorem Dev.irq_fltBall (p i : Nat) : (d.irq p i).fltBall = d.fltBall := rfl
@[simp] theorem Dev.irq_ains (p i : Nat) : (d.irq p i).ains = d.ains := rfl
@[simp] theorem Dev.irq_pads (p i : Nat) : (d.irq p i).pads = d.pads := rfl
@[simp] theorem Dev.irq_cmps (p i : Nat) : (d.irq p i).cmps = d.cmps := rfl
@[simp] theorem Dev.irq_groups (p i : Nat) : (d.irq p i).groups = d.groups := rfl
@[simp] theorem Dev.irq_adcs (p i : Nat) : (d.irq p i).adcs = d.adcs := rfl
@[simp] theorem Dev.irq_sdIns (p i : Nat) : (d.irq p i).sdIns = d.sdIns := rfl
@[simp] theorem Dev.irq_sdClks (p i : Nat) : (d.irq p i).sdClks = d.sdClks := rfl
@[simp] theorem Dev.irq_tmrs (p i : Nat) : (d.irq p i).tmrs = d.tmrs := rfl
@[simp] theorem Dev.irq_tio (p i : Nat) : (d.irq p i).tio = d.tio := rfl
@[simp] theorem Dev.irq_tioOut (p i : Nat) : (d.irq p i).tioOut = d.tioOut := rfl
@[simp] theorem Dev.irq_encs (p i : Nat) : (d.irq p i).encs = d.encs := rfl
@[simp] theorem Dev.irq_wds (p i : Nat) : (d.irq p i).wds = d.wds := rfl
@[simp] theorem Dev.irq_pwms (p i : Nat) : (d.irq p i).pwms = d.pwms := rfl
@[simp] theorem Dev.irq_resp (p i : Nat) : (d.irq p i).resp = d.resp := rfl
@[simp] theorem Dev.irq_swClr (p i : Nat) : (d.irq p i).swClr = d.swClr := rfl
@[simp] theorem Dev.irq_sashes (p i : Nat) : (d.irq p i).sashes = d.sashes := rfl
@[simp] theorem Dev.irq_lanes (p i : Nat) : (d.irq p i).lanes = d.lanes := rfl
@[simp] theorem Dev.irq_queues (p i : Nat) : (d.irq p i).queues = d.queues := rfl
@[simp] theorem Dev.irq_jobSeq (p i : Nat) : (d.irq p i).jobSeq = d.jobSeq := rfl
@[simp] theorem Dev.irq_flits (p i : Nat) : (d.irq p i).flits = d.flits := rfl
@[simp] theorem Dev.irq_fallbacks (p i : Nat) : (d.irq p i).fallbacks = d.fallbacks := rfl
@[simp] theorem Dev.irq_mons (p i : Nat) : (d.irq p i).mons = d.mons := rfl
@[simp] theorem Dev.irq_injs (p i : Nat) : (d.irq p i).injs = d.injs := rfl
@[simp] theorem Dev.irq_caps (p i : Nat) : (d.irq p i).caps = d.caps := rfl
@[simp] theorem Dev.irq_redirTick (p i : Nat) : (d.irq p i).redirTick = d.redirTick := rfl
@[simp] theorem Dev.irq_landedVals (p i : Nat) : (d.irq p i).landedVals = d.landedVals := rfl
@[simp] theorem Dev.irq_tls (p i : Nat) : (d.irq p i).tls = d.tls := rfl
@[simp] theorem Dev.irq_cores (p i : Nat) : (d.irq p i).cores = d.cores := rfl
@[simp] theorem Dev.irq_dreqs (p i : Nat) : (d.irq p i).dreqs = d.dreqs := rfl
@[simp] theorem Dev.irq_l2ok (p i : Nat) : (d.irq p i).l2ok = d.l2ok := rfl
@[simp] theorem Dev.irq_hbms (p i : Nat) : (d.irq p i).hbms = d.hbms := rfl
@[simp] theorem Dev.irq_pfs (p i : Nat) : (d.irq p i).pfs = d.pfs := rfl
@[simp] theorem Dev.irq_dmas (p i : Nat) : (d.irq p i).dmas = d.dmas := rfl
@[simp] theorem Dev.irq_dmaLast (p i : Nat) : (d.irq p i).dmaLast = d.dmaLast := rfl
@[simp] theorem Dev.irq_eths (p i : Nat) : (d.irq p i).eths = d.eths := rfl
@[simp] theorem Dev.irq_cans (p i : Nat) : (d.irq p i).cans = d.cans := rfl
@[simp] theorem Dev.irq_xspi (p i : Nat) : (d.irq p i).xspi = d.xspi := rfl
@[simp] theorem Dev.irq_i2c (p i : Nat) : (d.irq p i).i2c = d.i2c := rfl
@[simp] theorem Dev.irq_trace (p i : Nat) : (d.irq p i).trace = d.trace := rfl
@[simp] theorem Dev.irq_knocks (p i : Nat) : (d.irq p i).knocks = d.knocks := rfl
@[simp] theorem Dev.irq_jobEnds (p i : Nat) : (d.irq p i).jobEnds = d.jobEnds := rfl

/-! Updates of a block's state, of memory and of the events -/

@[simp] theorem Dev.setCore_regs (k : Nat) (c : Core) : (d.setCore k c).regs = d.regs := rfl
@[simp] theorem Dev.setCore_mem (k : Nat) (c : Core) : (d.setCore k c).mem = d.mem := rfl
@[simp] theorem Dev.setCore_poison (k : Nat) (c : Core) : (d.setCore k c).poison = d.poison := rfl
@[simp] theorem Dev.setCore_tags (k : Nat) (c : Core) : (d.setCore k c).tags = d.tags := rfl
@[simp] theorem Dev.setCore_time (k : Nat) (c : Core) : (d.setCore k c).time = d.time := rfl
@[simp] theorem Dev.setCore_sys (k : Nat) (c : Core) : (d.setCore k c).sys = d.sys := rfl
@[simp] theorem Dev.setCore_pulses (k : Nat) (c : Core) : (d.setCore k c).pulses = d.pulses := rfl
@[simp] theorem Dev.setCore_upsets (k : Nat) (c : Core) : (d.setCore k c).upsets = d.upsets := rfl
@[simp] theorem Dev.setCore_present (k : Nat) (c : Core) : (d.setCore k c).present = d.present := rfl
@[simp] theorem Dev.setCore_recent (k : Nat) (c : Core) : (d.setCore k c).recent = d.recent := rfl
@[simp] theorem Dev.setCore_otp (k : Nat) (c : Core) : (d.setCore k c).otp = d.otp := rfl
@[simp] theorem Dev.setCore_otpCmd (k : Nat) (c : Core) : (d.setCore k c).otpCmd = d.otpCmd := rfl
@[simp] theorem Dev.setCore_fresh (k : Nat) (c : Core) : (d.setCore k c).fresh = d.fresh := rfl
@[simp] theorem Dev.setCore_sashes (k : Nat) (c : Core) : (d.setCore k c).sashes = d.sashes := rfl
@[simp] theorem Dev.setCore_lanes (k : Nat) (c : Core) : (d.setCore k c).lanes = d.lanes := rfl
@[simp] theorem Dev.setCore_tls (k : Nat) (c : Core) : (d.setCore k c).tls = d.tls := rfl
@[simp] theorem Dev.setCore_hbms (k : Nat) (c : Core) : (d.setCore k c).hbms = d.hbms := rfl
@[simp] theorem Dev.setCore_resp (k : Nat) (c : Core) : (d.setCore k c).resp = d.resp := rfl

@[simp] theorem Dev.setSash_regs (n : Nat) (x : Sash) : (d.setSash n x).regs = d.regs := rfl
@[simp] theorem Dev.setSash_mem (n : Nat) (x : Sash) : (d.setSash n x).mem = d.mem := rfl
@[simp] theorem Dev.setSash_poison (n : Nat) (x : Sash) : (d.setSash n x).poison = d.poison := rfl
@[simp] theorem Dev.setSash_tags (n : Nat) (x : Sash) : (d.setSash n x).tags = d.tags := rfl
@[simp] theorem Dev.setSash_time (n : Nat) (x : Sash) : (d.setSash n x).time = d.time := rfl
@[simp] theorem Dev.setSash_sys (n : Nat) (x : Sash) : (d.setSash n x).sys = d.sys := rfl
@[simp] theorem Dev.setSash_pulses (n : Nat) (x : Sash) : (d.setSash n x).pulses = d.pulses := rfl
@[simp] theorem Dev.setSash_upsets (n : Nat) (x : Sash) : (d.setSash n x).upsets = d.upsets := rfl
@[simp] theorem Dev.setSash_present (n : Nat) (x : Sash) : (d.setSash n x).present = d.present := rfl
@[simp] theorem Dev.setSash_recent (n : Nat) (x : Sash) : (d.setSash n x).recent = d.recent := rfl
@[simp] theorem Dev.setSash_otp (n : Nat) (x : Sash) : (d.setSash n x).otp = d.otp := rfl
@[simp] theorem Dev.setSash_otpCmd (n : Nat) (x : Sash) : (d.setSash n x).otpCmd = d.otpCmd := rfl
@[simp] theorem Dev.setSash_fresh (n : Nat) (x : Sash) : (d.setSash n x).fresh = d.fresh := rfl
@[simp] theorem Dev.setSash_cores (n : Nat) (x : Sash) : (d.setSash n x).cores = d.cores := rfl
@[simp] theorem Dev.setSash_lanes (n : Nat) (x : Sash) : (d.setSash n x).lanes = d.lanes := rfl
@[simp] theorem Dev.setSash_tls (n : Nat) (x : Sash) : (d.setSash n x).tls = d.tls := rfl
@[simp] theorem Dev.setSash_hbms (n : Nat) (x : Sash) : (d.setSash n x).hbms = d.hbms := rfl
@[simp] theorem Dev.setSash_resp (n : Nat) (x : Sash) : (d.setSash n x).resp = d.resp := rfl

@[simp] theorem Dev.setLane_regs (n i : Nat) (l : Lane) : (d.setLane n i l).regs = d.regs := rfl
@[simp] theorem Dev.setLane_mem (n i : Nat) (l : Lane) : (d.setLane n i l).mem = d.mem := rfl
@[simp] theorem Dev.setLane_poison (n i : Nat) (l : Lane) : (d.setLane n i l).poison = d.poison := rfl
@[simp] theorem Dev.setLane_tags (n i : Nat) (l : Lane) : (d.setLane n i l).tags = d.tags := rfl
@[simp] theorem Dev.setLane_time (n i : Nat) (l : Lane) : (d.setLane n i l).time = d.time := rfl
@[simp] theorem Dev.setLane_sys (n i : Nat) (l : Lane) : (d.setLane n i l).sys = d.sys := rfl
@[simp] theorem Dev.setLane_pulses (n i : Nat) (l : Lane) : (d.setLane n i l).pulses = d.pulses := rfl
@[simp] theorem Dev.setLane_upsets (n i : Nat) (l : Lane) : (d.setLane n i l).upsets = d.upsets := rfl
@[simp] theorem Dev.setLane_present (n i : Nat) (l : Lane) : (d.setLane n i l).present = d.present := rfl
@[simp] theorem Dev.setLane_recent (n i : Nat) (l : Lane) : (d.setLane n i l).recent = d.recent := rfl
@[simp] theorem Dev.setLane_otp (n i : Nat) (l : Lane) : (d.setLane n i l).otp = d.otp := rfl
@[simp] theorem Dev.setLane_otpCmd (n i : Nat) (l : Lane) : (d.setLane n i l).otpCmd = d.otpCmd := rfl
@[simp] theorem Dev.setLane_fresh (n i : Nat) (l : Lane) : (d.setLane n i l).fresh = d.fresh := rfl
@[simp] theorem Dev.setLane_cores (n i : Nat) (l : Lane) : (d.setLane n i l).cores = d.cores := rfl
@[simp] theorem Dev.setLane_sashes (n i : Nat) (l : Lane) : (d.setLane n i l).sashes = d.sashes := rfl
@[simp] theorem Dev.setLane_tls (n i : Nat) (l : Lane) : (d.setLane n i l).tls = d.tls := rfl
@[simp] theorem Dev.setLane_hbms (n i : Nat) (l : Lane) : (d.setLane n i l).hbms = d.hbms := rfl
@[simp] theorem Dev.setLane_resp (n i : Nat) (l : Lane) : (d.setLane n i l).resp = d.resp := rfl

@[simp] theorem Dev.setPwm_regs (n : Nat) (w : Pwm) : (d.setPwm n w).regs = d.regs := rfl
@[simp] theorem Dev.setPwm_mem (n : Nat) (w : Pwm) : (d.setPwm n w).mem = d.mem := rfl
@[simp] theorem Dev.setPwm_poison (n : Nat) (w : Pwm) : (d.setPwm n w).poison = d.poison := rfl
@[simp] theorem Dev.setPwm_tags (n : Nat) (w : Pwm) : (d.setPwm n w).tags = d.tags := rfl
@[simp] theorem Dev.setPwm_time (n : Nat) (w : Pwm) : (d.setPwm n w).time = d.time := rfl
@[simp] theorem Dev.setPwm_sys (n : Nat) (w : Pwm) : (d.setPwm n w).sys = d.sys := rfl
@[simp] theorem Dev.setPwm_pulses (n : Nat) (w : Pwm) : (d.setPwm n w).pulses = d.pulses := rfl
@[simp] theorem Dev.setPwm_upsets (n : Nat) (w : Pwm) : (d.setPwm n w).upsets = d.upsets := rfl
@[simp] theorem Dev.setPwm_present (n : Nat) (w : Pwm) : (d.setPwm n w).present = d.present := rfl
@[simp] theorem Dev.setPwm_recent (n : Nat) (w : Pwm) : (d.setPwm n w).recent = d.recent := rfl
@[simp] theorem Dev.setPwm_otp (n : Nat) (w : Pwm) : (d.setPwm n w).otp = d.otp := rfl
@[simp] theorem Dev.setPwm_otpCmd (n : Nat) (w : Pwm) : (d.setPwm n w).otpCmd = d.otpCmd := rfl
@[simp] theorem Dev.setPwm_fresh (n : Nat) (w : Pwm) : (d.setPwm n w).fresh = d.fresh := rfl
@[simp] theorem Dev.setPwm_cores (n : Nat) (w : Pwm) : (d.setPwm n w).cores = d.cores := rfl
@[simp] theorem Dev.setPwm_sashes (n : Nat) (w : Pwm) : (d.setPwm n w).sashes = d.sashes := rfl
@[simp] theorem Dev.setPwm_lanes (n : Nat) (w : Pwm) : (d.setPwm n w).lanes = d.lanes := rfl
@[simp] theorem Dev.setPwm_tls (n : Nat) (w : Pwm) : (d.setPwm n w).tls = d.tls := rfl
@[simp] theorem Dev.setPwm_hbms (n : Nat) (w : Pwm) : (d.setPwm n w).hbms = d.hbms := rfl
@[simp] theorem Dev.setPwm_resp (n : Nat) (w : Pwm) : (d.setPwm n w).resp = d.resp := rfl

@[simp] theorem Dev.setTl_regs (l : Nat) (x : Tl) : (d.setTl l x).regs = d.regs := rfl
@[simp] theorem Dev.setTl_mem (l : Nat) (x : Tl) : (d.setTl l x).mem = d.mem := rfl
@[simp] theorem Dev.setTl_poison (l : Nat) (x : Tl) : (d.setTl l x).poison = d.poison := rfl
@[simp] theorem Dev.setTl_tags (l : Nat) (x : Tl) : (d.setTl l x).tags = d.tags := rfl
@[simp] theorem Dev.setTl_time (l : Nat) (x : Tl) : (d.setTl l x).time = d.time := rfl
@[simp] theorem Dev.setTl_sys (l : Nat) (x : Tl) : (d.setTl l x).sys = d.sys := rfl
@[simp] theorem Dev.setTl_pulses (l : Nat) (x : Tl) : (d.setTl l x).pulses = d.pulses := rfl
@[simp] theorem Dev.setTl_upsets (l : Nat) (x : Tl) : (d.setTl l x).upsets = d.upsets := rfl
@[simp] theorem Dev.setTl_present (l : Nat) (x : Tl) : (d.setTl l x).present = d.present := rfl
@[simp] theorem Dev.setTl_recent (l : Nat) (x : Tl) : (d.setTl l x).recent = d.recent := rfl
@[simp] theorem Dev.setTl_otp (l : Nat) (x : Tl) : (d.setTl l x).otp = d.otp := rfl
@[simp] theorem Dev.setTl_otpCmd (l : Nat) (x : Tl) : (d.setTl l x).otpCmd = d.otpCmd := rfl
@[simp] theorem Dev.setTl_fresh (l : Nat) (x : Tl) : (d.setTl l x).fresh = d.fresh := rfl
@[simp] theorem Dev.setTl_cores (l : Nat) (x : Tl) : (d.setTl l x).cores = d.cores := rfl
@[simp] theorem Dev.setTl_sashes (l : Nat) (x : Tl) : (d.setTl l x).sashes = d.sashes := rfl
@[simp] theorem Dev.setTl_lanes (l : Nat) (x : Tl) : (d.setTl l x).lanes = d.lanes := rfl
@[simp] theorem Dev.setTl_hbms (l : Nat) (x : Tl) : (d.setTl l x).hbms = d.hbms := rfl
@[simp] theorem Dev.setTl_resp (l : Nat) (x : Tl) : (d.setTl l x).resp = d.resp := rfl

@[simp] theorem Dev.setHbm_regs (x : Nat) (h : Hbm) : (d.setHbm x h).regs = d.regs := rfl
@[simp] theorem Dev.setHbm_mem (x : Nat) (h : Hbm) : (d.setHbm x h).mem = d.mem := rfl
@[simp] theorem Dev.setHbm_poison (x : Nat) (h : Hbm) : (d.setHbm x h).poison = d.poison := rfl
@[simp] theorem Dev.setHbm_tags (x : Nat) (h : Hbm) : (d.setHbm x h).tags = d.tags := rfl
@[simp] theorem Dev.setHbm_time (x : Nat) (h : Hbm) : (d.setHbm x h).time = d.time := rfl
@[simp] theorem Dev.setHbm_sys (x : Nat) (h : Hbm) : (d.setHbm x h).sys = d.sys := rfl
@[simp] theorem Dev.setHbm_pulses (x : Nat) (h : Hbm) : (d.setHbm x h).pulses = d.pulses := rfl
@[simp] theorem Dev.setHbm_upsets (x : Nat) (h : Hbm) : (d.setHbm x h).upsets = d.upsets := rfl
@[simp] theorem Dev.setHbm_present (x : Nat) (h : Hbm) : (d.setHbm x h).present = d.present := rfl
@[simp] theorem Dev.setHbm_recent (x : Nat) (h : Hbm) : (d.setHbm x h).recent = d.recent := rfl
@[simp] theorem Dev.setHbm_otp (x : Nat) (h : Hbm) : (d.setHbm x h).otp = d.otp := rfl
@[simp] theorem Dev.setHbm_otpCmd (x : Nat) (h : Hbm) : (d.setHbm x h).otpCmd = d.otpCmd := rfl
@[simp] theorem Dev.setHbm_fresh (x : Nat) (h : Hbm) : (d.setHbm x h).fresh = d.fresh := rfl
@[simp] theorem Dev.setHbm_cores (x : Nat) (h : Hbm) : (d.setHbm x h).cores = d.cores := rfl
@[simp] theorem Dev.setHbm_sashes (x : Nat) (h : Hbm) : (d.setHbm x h).sashes = d.sashes := rfl
@[simp] theorem Dev.setHbm_lanes (x : Nat) (h : Hbm) : (d.setHbm x h).lanes = d.lanes := rfl
@[simp] theorem Dev.setHbm_tls (x : Nat) (h : Hbm) : (d.setHbm x h).tls = d.tls := rfl
@[simp] theorem Dev.setHbm_resp (x : Nat) (h : Hbm) : (d.setHbm x h).resp = d.resp := rfl

@[simp] theorem Dev.setByte_regs (a : Nat) (b : Byte) : (d.setByte a b).regs = d.regs := rfl
@[simp] theorem Dev.setByte_poison (a : Nat) (b : Byte) : (d.setByte a b).poison = d.poison := rfl
@[simp] theorem Dev.setByte_tags (a : Nat) (b : Byte) : (d.setByte a b).tags = d.tags := rfl
@[simp] theorem Dev.setByte_time (a : Nat) (b : Byte) : (d.setByte a b).time = d.time := rfl
@[simp] theorem Dev.setByte_sys (a : Nat) (b : Byte) : (d.setByte a b).sys = d.sys := rfl
@[simp] theorem Dev.setByte_pulses (a : Nat) (b : Byte) : (d.setByte a b).pulses = d.pulses := rfl
@[simp] theorem Dev.setByte_upsets (a : Nat) (b : Byte) : (d.setByte a b).upsets = d.upsets := rfl
@[simp] theorem Dev.setByte_present (a : Nat) (b : Byte) : (d.setByte a b).present = d.present := rfl
@[simp] theorem Dev.setByte_recent (a : Nat) (b : Byte) : (d.setByte a b).recent = d.recent := rfl
@[simp] theorem Dev.setByte_otp (a : Nat) (b : Byte) : (d.setByte a b).otp = d.otp := rfl
@[simp] theorem Dev.setByte_otpCmd (a : Nat) (b : Byte) : (d.setByte a b).otpCmd = d.otpCmd := rfl
@[simp] theorem Dev.setByte_fresh (a : Nat) (b : Byte) : (d.setByte a b).fresh = d.fresh := rfl
@[simp] theorem Dev.setByte_cores (a : Nat) (b : Byte) : (d.setByte a b).cores = d.cores := rfl
@[simp] theorem Dev.setByte_sashes (a : Nat) (b : Byte) : (d.setByte a b).sashes = d.sashes := rfl
@[simp] theorem Dev.setByte_lanes (a : Nat) (b : Byte) : (d.setByte a b).lanes = d.lanes := rfl
@[simp] theorem Dev.setByte_tls (a : Nat) (b : Byte) : (d.setByte a b).tls = d.tls := rfl
@[simp] theorem Dev.setByte_hbms (a : Nat) (b : Byte) : (d.setByte a b).hbms = d.hbms := rfl
@[simp] theorem Dev.setByte_resp (a : Nat) (b : Byte) : (d.setByte a b).resp = d.resp := rfl

@[simp] theorem Dev.noteLanded_regs (a len v : Nat) : (d.noteLanded a len v).regs = d.regs := rfl
@[simp] theorem Dev.noteLanded_mem (a len v : Nat) : (d.noteLanded a len v).mem = d.mem := rfl
@[simp] theorem Dev.noteLanded_poison (a len v : Nat) : (d.noteLanded a len v).poison = d.poison := rfl
@[simp] theorem Dev.noteLanded_tags (a len v : Nat) : (d.noteLanded a len v).tags = d.tags := rfl
@[simp] theorem Dev.noteLanded_time (a len v : Nat) : (d.noteLanded a len v).time = d.time := rfl
@[simp] theorem Dev.noteLanded_sys (a len v : Nat) : (d.noteLanded a len v).sys = d.sys := rfl
@[simp] theorem Dev.noteLanded_pulses (a len v : Nat) : (d.noteLanded a len v).pulses = d.pulses := rfl
@[simp] theorem Dev.noteLanded_upsets (a len v : Nat) : (d.noteLanded a len v).upsets = d.upsets := rfl
@[simp] theorem Dev.noteLanded_recent (a len v : Nat) : (d.noteLanded a len v).recent = d.recent := rfl
@[simp] theorem Dev.noteLanded_otp (a len v : Nat) : (d.noteLanded a len v).otp = d.otp := rfl
@[simp] theorem Dev.noteLanded_otpCmd (a len v : Nat) : (d.noteLanded a len v).otpCmd = d.otpCmd := rfl
@[simp] theorem Dev.noteLanded_fresh (a len v : Nat) : (d.noteLanded a len v).fresh = d.fresh := rfl
@[simp] theorem Dev.noteLanded_cores (a len v : Nat) : (d.noteLanded a len v).cores = d.cores := rfl
@[simp] theorem Dev.noteLanded_sashes (a len v : Nat) : (d.noteLanded a len v).sashes = d.sashes := rfl
@[simp] theorem Dev.noteLanded_lanes (a len v : Nat) : (d.noteLanded a len v).lanes = d.lanes := rfl
@[simp] theorem Dev.noteLanded_tls (a len v : Nat) : (d.noteLanded a len v).tls = d.tls := rfl
@[simp] theorem Dev.noteLanded_hbms (a len v : Nat) : (d.noteLanded a len v).hbms = d.hbms := rfl
@[simp] theorem Dev.noteLanded_resp (a len v : Nat) : (d.noteLanded a len v).resp = d.resp := rfl

@[simp] theorem Dev.act_regs (k i : Nat) : (d.act k i).regs = d.regs := rfl
@[simp] theorem Dev.act_mem (k i : Nat) : (d.act k i).mem = d.mem := rfl
@[simp] theorem Dev.act_poison (k i : Nat) : (d.act k i).poison = d.poison := rfl
@[simp] theorem Dev.act_tags (k i : Nat) : (d.act k i).tags = d.tags := rfl
@[simp] theorem Dev.act_time (k i : Nat) : (d.act k i).time = d.time := rfl
@[simp] theorem Dev.act_sys (k i : Nat) : (d.act k i).sys = d.sys := rfl
@[simp] theorem Dev.act_pulses (k i : Nat) : (d.act k i).pulses = d.pulses := rfl
@[simp] theorem Dev.act_upsets (k i : Nat) : (d.act k i).upsets = d.upsets := rfl
@[simp] theorem Dev.act_recent (k i : Nat) : (d.act k i).recent = d.recent := rfl
@[simp] theorem Dev.act_otp (k i : Nat) : (d.act k i).otp = d.otp := rfl
@[simp] theorem Dev.act_otpCmd (k i : Nat) : (d.act k i).otpCmd = d.otpCmd := rfl
@[simp] theorem Dev.act_fresh (k i : Nat) : (d.act k i).fresh = d.fresh := rfl
@[simp] theorem Dev.act_cores (k i : Nat) : (d.act k i).cores = d.cores := rfl
@[simp] theorem Dev.act_sashes (k i : Nat) : (d.act k i).sashes = d.sashes := rfl
@[simp] theorem Dev.act_lanes (k i : Nat) : (d.act k i).lanes = d.lanes := rfl
@[simp] theorem Dev.act_tls (k i : Nat) : (d.act k i).tls = d.tls := rfl
@[simp] theorem Dev.act_hbms (k i : Nat) : (d.act k i).hbms = d.hbms := rfl
@[simp] theorem Dev.act_resp (k i : Nat) : (d.act k i).resp = d.resp := rfl

@[simp] theorem Dev.noteCommit_regs (a : Nat) : (d.noteCommit a).regs = d.regs := rfl
@[simp] theorem Dev.noteCommit_mem (a : Nat) : (d.noteCommit a).mem = d.mem := rfl
@[simp] theorem Dev.noteCommit_poison (a : Nat) : (d.noteCommit a).poison = d.poison := rfl
@[simp] theorem Dev.noteCommit_tags (a : Nat) : (d.noteCommit a).tags = d.tags := rfl
@[simp] theorem Dev.noteCommit_time (a : Nat) : (d.noteCommit a).time = d.time := rfl
@[simp] theorem Dev.noteCommit_sys (a : Nat) : (d.noteCommit a).sys = d.sys := rfl
@[simp] theorem Dev.noteCommit_pulses (a : Nat) : (d.noteCommit a).pulses = d.pulses := rfl
@[simp] theorem Dev.noteCommit_upsets (a : Nat) : (d.noteCommit a).upsets = d.upsets := rfl
@[simp] theorem Dev.noteCommit_recent (a : Nat) : (d.noteCommit a).recent = d.recent := rfl
@[simp] theorem Dev.noteCommit_otp (a : Nat) : (d.noteCommit a).otp = d.otp := rfl
@[simp] theorem Dev.noteCommit_otpCmd (a : Nat) : (d.noteCommit a).otpCmd = d.otpCmd := rfl
@[simp] theorem Dev.noteCommit_fresh (a : Nat) : (d.noteCommit a).fresh = d.fresh := rfl
@[simp] theorem Dev.noteCommit_cores (a : Nat) : (d.noteCommit a).cores = d.cores := rfl
@[simp] theorem Dev.noteCommit_sashes (a : Nat) : (d.noteCommit a).sashes = d.sashes := rfl
@[simp] theorem Dev.noteCommit_lanes (a : Nat) : (d.noteCommit a).lanes = d.lanes := rfl
@[simp] theorem Dev.noteCommit_tls (a : Nat) : (d.noteCommit a).tls = d.tls := rfl
@[simp] theorem Dev.noteCommit_hbms (a : Nat) : (d.noteCommit a).hbms = d.hbms := rfl
@[simp] theorem Dev.noteCommit_resp (a : Nat) : (d.noteCommit a).resp = d.resp := rfl

@[simp] theorem Dev.pulse_regs (e : Nat) : (d.pulse e).regs = d.regs := rfl
@[simp] theorem Dev.pulse_mem (e : Nat) : (d.pulse e).mem = d.mem := rfl
@[simp] theorem Dev.pulse_poison (e : Nat) : (d.pulse e).poison = d.poison := rfl
@[simp] theorem Dev.pulse_tags (e : Nat) : (d.pulse e).tags = d.tags := rfl
@[simp] theorem Dev.pulse_time (e : Nat) : (d.pulse e).time = d.time := rfl
@[simp] theorem Dev.pulse_sys (e : Nat) : (d.pulse e).sys = d.sys := rfl
@[simp] theorem Dev.pulse_upsets (e : Nat) : (d.pulse e).upsets = d.upsets := rfl
@[simp] theorem Dev.pulse_present (e : Nat) : (d.pulse e).present = d.present := rfl
@[simp] theorem Dev.pulse_otp (e : Nat) : (d.pulse e).otp = d.otp := rfl
@[simp] theorem Dev.pulse_otpCmd (e : Nat) : (d.pulse e).otpCmd = d.otpCmd := rfl
@[simp] theorem Dev.pulse_fresh (e : Nat) : (d.pulse e).fresh = d.fresh := rfl
@[simp] theorem Dev.pulse_cores (e : Nat) : (d.pulse e).cores = d.cores := rfl
@[simp] theorem Dev.pulse_sashes (e : Nat) : (d.pulse e).sashes = d.sashes := rfl
@[simp] theorem Dev.pulse_lanes (e : Nat) : (d.pulse e).lanes = d.lanes := rfl
@[simp] theorem Dev.pulse_tls (e : Nat) : (d.pulse e).tls = d.tls := rfl
@[simp] theorem Dev.pulse_hbms (e : Nat) : (d.pulse e).hbms = d.hbms := rfl
@[simp] theorem Dev.pulse_resp (e : Nat) : (d.pulse e).resp = d.resp := rfl

/-! Updates of the whole state -/

@[simp] theorem State.withDev_pending : (s.withDev d).pending = s.pending := rfl
@[simp] theorem State.withDev_sec : (s.withDev d).sec = s.sec := rfl
@[simp] theorem State.withDev_regs : (s.withDev d).dev.regs = d.regs := rfl
@[simp] theorem State.withDev_mem : (s.withDev d).dev.mem = d.mem := rfl
@[simp] theorem State.withDev_poison : (s.withDev d).dev.poison = d.poison := rfl
@[simp] theorem State.withDev_tags : (s.withDev d).dev.tags = d.tags := rfl
@[simp] theorem State.withDev_upsets : (s.withDev d).dev.upsets = d.upsets := rfl
@[simp] theorem State.withDev_lostLines : (s.withDev d).dev.lostLines = d.lostLines := rfl
@[simp] theorem State.withDev_time : (s.withDev d).dev.time = d.time := rfl
@[simp] theorem State.withDev_sys : (s.withDev d).dev.sys = d.sys := rfl
@[simp] theorem State.withDev_own : (s.withDev d).dev.own = d.own := rfl
@[simp] theorem State.withDev_pulses : (s.withDev d).dev.pulses = d.pulses := rfl
@[simp] theorem State.withDev_recent : (s.withDev d).dev.recent = d.recent := rfl
@[simp] theorem State.withDev_levels : (s.withDev d).dev.levels = d.levels := rfl
@[simp] theorem State.withDev_present : (s.withDev d).dev.present = d.present := rfl
@[simp] theorem State.withDev_errLog : (s.withDev d).dev.errLog = d.errLog := rfl
@[simp] theorem State.withDev_otpCmd : (s.withDev d).dev.otpCmd = d.otpCmd := rfl
@[simp] theorem State.withDev_otpData : (s.withDev d).dev.otpData = d.otpData := rfl
@[simp] theorem State.withDev_anchors : (s.withDev d).dev.anchors = d.anchors := rfl
@[simp] theorem State.withDev_fresh : (s.withDev d).dev.fresh = d.fresh := rfl
@[simp] theorem State.withDev_deliveries : (s.withDev d).dev.deliveries = d.deliveries := rfl
@[simp] theorem State.withDev_fltBall : (s.withDev d).dev.fltBall = d.fltBall := rfl
@[simp] theorem State.withDev_ains : (s.withDev d).dev.ains = d.ains := rfl
@[simp] theorem State.withDev_pads : (s.withDev d).dev.pads = d.pads := rfl
@[simp] theorem State.withDev_cmps : (s.withDev d).dev.cmps = d.cmps := rfl
@[simp] theorem State.withDev_groups : (s.withDev d).dev.groups = d.groups := rfl
@[simp] theorem State.withDev_adcs : (s.withDev d).dev.adcs = d.adcs := rfl
@[simp] theorem State.withDev_sdIns : (s.withDev d).dev.sdIns = d.sdIns := rfl
@[simp] theorem State.withDev_sdClks : (s.withDev d).dev.sdClks = d.sdClks := rfl
@[simp] theorem State.withDev_tmrs : (s.withDev d).dev.tmrs = d.tmrs := rfl
@[simp] theorem State.withDev_tio : (s.withDev d).dev.tio = d.tio := rfl
@[simp] theorem State.withDev_tioOut : (s.withDev d).dev.tioOut = d.tioOut := rfl
@[simp] theorem State.withDev_encs : (s.withDev d).dev.encs = d.encs := rfl
@[simp] theorem State.withDev_wds : (s.withDev d).dev.wds = d.wds := rfl
@[simp] theorem State.withDev_pwms : (s.withDev d).dev.pwms = d.pwms := rfl
@[simp] theorem State.withDev_resp : (s.withDev d).dev.resp = d.resp := rfl
@[simp] theorem State.withDev_swClr : (s.withDev d).dev.swClr = d.swClr := rfl
@[simp] theorem State.withDev_sashes : (s.withDev d).dev.sashes = d.sashes := rfl
@[simp] theorem State.withDev_lanes : (s.withDev d).dev.lanes = d.lanes := rfl
@[simp] theorem State.withDev_queues : (s.withDev d).dev.queues = d.queues := rfl
@[simp] theorem State.withDev_jobSeq : (s.withDev d).dev.jobSeq = d.jobSeq := rfl
@[simp] theorem State.withDev_flits : (s.withDev d).dev.flits = d.flits := rfl
@[simp] theorem State.withDev_fallbacks : (s.withDev d).dev.fallbacks = d.fallbacks := rfl
@[simp] theorem State.withDev_mons : (s.withDev d).dev.mons = d.mons := rfl
@[simp] theorem State.withDev_injs : (s.withDev d).dev.injs = d.injs := rfl
@[simp] theorem State.withDev_caps : (s.withDev d).dev.caps = d.caps := rfl
@[simp] theorem State.withDev_redirTick : (s.withDev d).dev.redirTick = d.redirTick := rfl
@[simp] theorem State.withDev_landedVals : (s.withDev d).dev.landedVals = d.landedVals := rfl
@[simp] theorem State.withDev_tls : (s.withDev d).dev.tls = d.tls := rfl
@[simp] theorem State.withDev_cores : (s.withDev d).dev.cores = d.cores := rfl
@[simp] theorem State.withDev_dreqs : (s.withDev d).dev.dreqs = d.dreqs := rfl
@[simp] theorem State.withDev_l2ok : (s.withDev d).dev.l2ok = d.l2ok := rfl
@[simp] theorem State.withDev_hbms : (s.withDev d).dev.hbms = d.hbms := rfl
@[simp] theorem State.withDev_pfs : (s.withDev d).dev.pfs = d.pfs := rfl
@[simp] theorem State.withDev_dmas : (s.withDev d).dev.dmas = d.dmas := rfl
@[simp] theorem State.withDev_dmaLast : (s.withDev d).dev.dmaLast = d.dmaLast := rfl
@[simp] theorem State.withDev_eths : (s.withDev d).dev.eths = d.eths := rfl
@[simp] theorem State.withDev_cans : (s.withDev d).dev.cans = d.cans := rfl
@[simp] theorem State.withDev_xspi : (s.withDev d).dev.xspi = d.xspi := rfl
@[simp] theorem State.withDev_i2c : (s.withDev d).dev.i2c = d.i2c := rfl
@[simp] theorem State.withDev_trace : (s.withDev d).dev.trace = d.trace := rfl
@[simp] theorem State.withDev_knocks : (s.withDev d).dev.knocks = d.knocks := rfl
@[simp] theorem State.withDev_jobEnds : (s.withDev d).dev.jobEnds = d.jobEnds := rfl

/-- The fuses change only where the device loses a fuse command. -/
theorem State.withDev_otp (h : s.dev.otpCmd = none ∨ d.otpCmd.isSome = true) : (s.withDev d).otp = s.otp := by
  rcases h with h | h
  · simp [State.withDev, h]
  · cases hd : d.otpCmd
    · simp [hd] at h
    · simp [State.withDev, hd]

/-- The device is the one given, unless a fuse command is lost. -/
theorem State.withDev_dev (h : s.dev.otpCmd = none ∨ d.otpCmd.isSome = true) : (s.withDev d).dev = d := by
  rcases h with h | h
  · simp [State.withDev, h]
  · have hn : d.otpCmd.isNone = false := by cases hd : d.otpCmd <;> simp_all
    simp [State.withDev, hn]

/-- What a command of each kind answers. -/
@[simp] theorem State.run_eq (f : Dev → Dev) : s.run f = .next (s.withDev (f s.dev).settle) := rfl

theorem State.clocked_eq (f : Dev → Dev) (h : s.dev.clocksStill = false) : s.clocked f = .next (s.withDev (f s.dev).settle) := by
  simp [State.clocked, h]

theorem State.clocked_still (f : Dev → Dev) (h : s.dev.clocksStill = true) : s.clocked f = .next s := by
  simp [State.clocked, h]

theorem State.reach_eq (f : Dev → Dev) (h : s.dev.clocksStill = false) (hr : s.dev.sys.reset = .none) :
    s.reach f = .next (s.withDev (f s.dev).settle) := by
  simp [State.reach, h, hr]

/-- Every command of these kinds answers a next state, keeps the queue and debug access. -/
theorem State.clocked_next (f : Dev → Dev) : s.clocked f = .next (s.withDev (f s.dev).settle) ∨ s.clocked f = .next s := by
  cases h : s.dev.clocksStill
  · exact .inl (s.clocked_eq f h)
  · exact .inr (s.clocked_still f h)

end Sys2Proof.Machine
end

