-- ==== Sys2Proof/Laws/Access.lean ====
section
/-!
SUPPORT. Sys2Proof/Laws/Access.lean: which page an address lies in, and what an accepted or a refused access does.
-/
namespace Sys2Proof.Machine

/-- Addresses of one 4 KiB page lie in one register page. -/
theorem pageAt_congr {a b : Nat} (h : a / 0x1000 = b / 0x1000) : pageAt a = pageAt b := by
  have h1 : (0xE0000000 ≤ a ∧ a < 0xF0000000) ↔ (0xE0000000 ≤ b ∧ b < 0xF0000000) := by omega
  have h2 : (a - 0xE0000000) / 0x1000000 = (b - 0xE0000000) / 0x1000000 ∨ ¬ (0xE0000000 ≤ a ∧ a < 0xF0000000) := by omega
  have h3 : a % 0x1000000 / 0x1000 = b % 0x1000000 / 0x1000 := by omega
  unfold pageAt
  by_cases hc : 0xE0000000 ≤ a ∧ a < 0xF0000000
  · rw [if_pos hc, if_pos (h1.mp hc), h, h3, h2.resolve_right (not_not_intro hc)]
  · rw [if_neg hc, if_neg (fun x => hc (h1.mpr x))]

/-- The page of a 4 KiB aligned base holds the offsets below 0x1000. -/
theorem pageAt_base {b o : Nat} (hb : b % 0x1000 = 0) (ho : o < 0x1000) : pageAt (b + o) = pageAt b :=
  pageAt_congr (by omega)

theorem mod_base {b o : Nat} (hb : b % 0x1000 = 0) (ho : o < 0x1000) : (b + o) % 0x1000 = o := by omega

/-! The bases of the pages are aligned. -/

theorem pgSash_aligned (n : Nat) : pgSash n % 0x1000 = 0 := by unfold pgSash; omega
theorem pgJq_aligned (c : Nat) : pgJq c % 0x1000 = 0 := by unfold pgJq; omega
theorem tplBase_aligned (t : Nat) : tplBase t % 0x1000 = 0 := by unfold tplBase pgTpl; omega
theorem pgPwm_aligned (c g : Nat) : pgPwm c g % 0x1000 = 0 := by unfold pgPwm; omega
theorem pgCmp_aligned (c g : Nat) : pgCmp c g % 0x1000 = 0 := by unfold pgCmp; omega
theorem pgTmr_aligned (c g : Nat) : pgTmr c g % 0x1000 = 0 := by unfold pgTmr; omega
theorem pgEnc_aligned (e : Nat) : pgEnc e % 0x1000 = 0 := by unfold pgEnc; omega
theorem pgWdCas_aligned (c : Nat) : pgWdCas c % 0x1000 = 0 := by unfold pgWdCas; omega
theorem pgWdCore_aligned (k : Nat) : pgWdCore k % 0x1000 = 0 := by unfold pgWdCore; omega
theorem pgTlnb_aligned (l : Nat) : pgTlnb l % 0x1000 = 0 := by unfold pgTlnb; omega
theorem pgGroup_aligned (g : Nat) : pgGroup g % 0x1000 = 0 := by unfold pgGroup; omega
theorem pgIntc_aligned (k : Nat) : pgIntc k % 0x1000 = 0 := by unfold pgIntc; omega
theorem pgHbm_aligned (x : Nat) : pgHbm x % 0x1000 = 0 := by unfold pgHbm; omega
theorem pgScrub_aligned (x : Nat) : pgScrub x % 0x1000 = 0 := by unfold pgScrub; omega
theorem pgSill_aligned (x : Nat) : pgSill x % 0x1000 = 0 := by unfold pgSill; omega
theorem pgPf_aligned (f : Nat) : pgPf f % 0x1000 = 0 := by unfold pgPf; omega
theorem pgEth_aligned (p : Nat) : pgEth p % 0x1000 = 0 := by unfold pgEth; omega
theorem pgCan_aligned (m : Nat) : pgCan m % 0x1000 = 0 := by unfold pgCan; omega

/-! The page at each base. -/

theorem pageAt_sash (n : Fin 64) : pageAt (pgSash n) = some ⟨.sash, n, pgSash n, domCas (n / 4)⟩ := by revert n; decide
theorem pageAt_jq (c : Fin 16) : pageAt (pgJq c) = some ⟨.jq, c, pgJq c, domCas c⟩ := by revert c; decide
theorem pageAt_pwm (c : Fin 16) (g : Fin 6) : pageAt (pgPwm c g) = some ⟨.pwm, 6 * c + g, pgPwm c g, domCas c⟩ := by revert c g; decide
theorem pageAt_cmp (c : Fin 16) (j : Fin 4) : pageAt (pgCmp c j) = some ⟨.cmp, 4 * c + j, pgCmp c j, domAna (c / 8)⟩ := by revert c j; decide
theorem pageAt_tmr (c : Fin 16) (j : Fin 4) : pageAt (pgTmr c j) = some ⟨.timer, 4 * c + j, pgTmr c j, domCas c⟩ := by revert c j; decide
theorem pageAt_enc (e : Fin 16) : pageAt (pgEnc e) = some ⟨.enc, e, pgEnc e, domWing (e / 8)⟩ := by revert e; decide
theorem pageAt_wdCas (c : Fin 16) : pageAt (pgWdCas c) = some ⟨.wd, c, pgWdCas c, domCas c⟩ := by revert c; decide
theorem pageAt_wdCore (k : Fin 5) : pageAt (pgWdCore k) = some ⟨.wdc, k, pgWdCore k, domAon⟩ := by revert k; decide
theorem pageAt_tlnb (l : Fin 32) : pageAt (pgTlnb l) = some ⟨.tlnb, l, pgTlnb l, domLink (l / 16)⟩ := by revert l; decide
theorem pageAt_group (g : Fin 24) : pageAt (pgGroup g) = some ⟨.group, g, pgGroup g, domAon⟩ := by revert g; decide
theorem pageAt_intc (k : Fin 5) : pageAt (pgIntc k) = some ⟨.intc, k, pgIntc k, k⟩ := by revert k; decide
theorem pageAt_hbm (x : Fin 2) : pageAt (pgHbm x) = some ⟨.hbm, x, pgHbm x, domHbm x⟩ := by revert x; decide
theorem pageAt_scrub (x : Fin 2) : pageAt (pgScrub x) = some ⟨.scrub, x, pgScrub x, domHbm x⟩ := by revert x; decide
theorem pageAt_sill (x : Fin 2) : pageAt (pgSill x) = some ⟨.sill, x, pgSill x, domHbm x⟩ := by revert x; decide
theorem pageAt_pf (f : Fin 2) : pageAt (pgPf f) = some ⟨.pf, f, pgPf f, domHostio⟩ := by revert f; decide
theorem pageAt_eth (p : Fin 4) : pageAt (pgEth p) = some ⟨.eth, p, pgEth p, domHostio⟩ := by revert p; decide
theorem pageAt_can (m : Fin 8) : pageAt (pgCan m) = some ⟨.can, m, pgCan m, domHostio⟩ := by revert m; decide

theorem pageAt_tpl (t : Fin 512) : pageAt (tplBase t) = some ⟨.tpl, t, tplBase t, domCas (t / 32)⟩ := by
  have h : ∀ (c : Fin 16) (k : Fin 32), pageAt (pgTpl c k) = some ⟨.tpl, 32 * c + k, pgTpl c k, domCas c⟩ := by decide
  have := h ⟨t / 32, by omega⟩ ⟨t % 32, by omega⟩
  simpa [tplBase, Nat.div_add_mod] using this

/-! Accesses -/

variable (s : State) (w : Who) (d : Dev)

/-- No address of the register-page window lies in the debug space. -/
theorem not_debug {a : Nat} {p : PageInfo} (h : pageAt a = some p) : ¬ (0xF0000000 ≤ a ∧ a < 0xF1000000) := by
  intro hc
  have : ¬ (0xE0000000 ≤ a ∧ a < 0xF0000000) := by omega
  simp [pageAt, this] at h

/-- A write that its page accepts. -/
theorem Dev.busWrite_accepted {a len v : Nat} {p : PageInfo} (hp : pageAt a = some p) (hd : d.domOn p.dom = true)
    (hc : d.pageCause w p (a % 0x1000) len (v % 2 ^ (8 * len)) true = none) :
    d.busWrite w a len v =
      { (d.pageWrite w p (a % 0x1000) len (v % 2 ^ (8 * len))).noteLanded a len (v % 2 ^ (8 * len)) with resp := {} } := by
  have h := not_debug hp
  simp only [Dev.busWrite, h, if_false, hp, hd, hc]
  simp

/-- A write with a violation is logged in its page and answered with an error. -/
theorem Dev.busWrite_refused {a len v c : Nat} {p : PageInfo} (hp : pageAt a = some p) (hd : d.domOn p.dom = true)
    (hc : d.pageCause w p (a % 0x1000) len (v % 2 ^ (8 * len)) true = some c) :
    d.busWrite w a len v = (d.logAt p.base w.req a len true c).answerError c := by
  have h := not_debug hp
  simp only [Dev.busWrite, h, if_false, hp, hd, hc]
  simp

/-- A read that its page accepts. -/
theorem Dev.busRead_accepted {a len : Nat} {peek : Bool} {p : PageInfo} (hp : pageAt a = some p) (hd : d.domOn p.dom = true)
    (hc : d.pageCause w p (a % 0x1000) len 0 false = none) :
    d.busRead w a len peek = d.pageRead w p (a % 0x1000) len (peek || w.req == 0x3F0) := by
  have h := not_debug hp
  simp only [Dev.busRead, h, if_false, hp, hd, hc]
  simp

/-- An accepted write as a command answers it. -/
theorem State.write_accepted {b o len v : Nat} {p : PageInfo} (hb : b % 0x1000 = 0) (ho : o < 0x1000) (hp : pageAt b = some p)
    (hs : s.dev.clocksStill = false) (hr : s.dev.sys.reset = .none) (hd : s.dev.domOn p.dom = true)
    (hv : v < 2 ^ (8 * len)) (hc : s.dev.pageCause w p o len v true = none) :
    s.write w (b + o) len v =
      .next (s.withDev ({ (s.dev.pageWrite w p o len v).noteLanded (b + o) len v with resp := {} }).settle) := by
  rw [State.write, s.reach_eq _ hs hr]
  have ha := pageAt_base hb ho
  rw [hp] at ha
  rw [Dev.busWrite_accepted (p := p) (hp := ha) (hd := hd)]
  · rw [mod_base hb ho, Nat.mod_eq_of_lt hv]
  · rw [mod_base hb ho, Nat.mod_eq_of_lt hv]; exact hc

end Sys2Proof.Machine
end

