-- ==== Sys2Proof/Laws/Memory.lean ====
section
/-!
SUPPORT. Sys2Proof/Laws/Memory.lean: what reads of memory give after writes, what the parts of an access leave alone, and that every operation
that writes memory keeps its canonical form.
-/
namespace Sys2Proof.Machine

variable (d : Dev)

/-! Bytes -/

/-- The byte written. -/
@[simp] theorem Dev.byte_setByte_same (a : Nat) (b : Byte) : (d.setByte a b).byte a = b := by simp [Dev.byte, Dev.setByte]

/-- Another byte. -/
theorem Dev.byte_setByte_ne {a c : Nat} (b : Byte) (h : a ≠ c) : (d.setByte a b).byte c = d.byte c :=
  Table.get_put_ne _ _ _ _ h

/-- A byte outside a range that is written. -/
theorem Dev.byte_setBytes_out (a c : Nat) (l : List Byte) (h : c < a ∨ a + l.length ≤ c) : (d.setBytes a l).byte c = d.byte c := by
  induction l generalizing d a with
  | nil => rfl
  | cons b r ih =>
    simp only [List.length_cons] at h
    rw [Dev.setBytes, ih _ _ (by omega), Dev.byte_setByte_ne d b (by omega)]

/-- A byte inside a range that is written. -/
theorem Dev.byte_setBytes_in (a i : Nat) (l : List Byte) (h : i < l.length) : (d.setBytes a l).byte (a + i) = l.getD i 0 := by
  induction l generalizing d a i with
  | nil => simp at h
  | cons b r ih =>
    cases i with
    | zero => rw [Dev.setBytes, Dev.byte_setBytes_out _ _ _ _ (by omega)]; simp
    | succ i =>
      simp only [List.length_cons] at h
      rw [Dev.setBytes, show a + (i + 1) = a + 1 + i by omega, ih _ _ _ (by omega)]
      simp

/-- A range reads back what was written to it. -/
theorem Dev.bytes_setBytes (a : Nat) (l : List Byte) : (d.setBytes a l).bytes a l.length = l := by
  induction l generalizing d a with
  | nil => rfl
  | cons b r ih =>
    rw [List.length_cons, Dev.bytes, Dev.setBytes, ih, Dev.byte_setBytes_out _ _ _ _ (by omega), Dev.byte_setByte_same]

/-! What the parts of an access leave alone -/

/-- A fold of updates that keep memory keeps it. -/
theorem foldl_mem {β : Type} (f : Dev → β → Dev) (hf : ∀ d x, (f d x).mem = d.mem) (l : List β) (d : Dev) : (l.foldl f d).mem = d.mem := by
  induction l generalizing d with
  | nil => rfl
  | cons x r ih => rw [List.foldl_cons, ih, hf]

/-- Either way of a choice. -/
theorem ite_mem {c : Prop} [Decidable c] {a b : Dev} {m : List Host.Cell} (ha : a.mem = m) (hb : b.mem = m) :
    (if c then a else b).mem = m := by
  split
  · exact ha
  · exact hb

/-- A repeated update that keeps memory keeps it. -/
theorem Dev.forN_mem (n : Nat) (g : Nat → Dev → Dev) (hg : ∀ i d, (g i d).mem = d.mem) : (d.forN n g).mem = d.mem :=
  foldl_mem _ (fun d i => hg i d) _ _

@[simp] theorem Dev.setPoison_mem (a : Nat) (b : Bool) : (d.setPoison a b).mem = d.mem := by unfold Dev.setPoison; rfl
@[simp] theorem Dev.setTag_mem (a : Nat) (b : Bool) : (d.setTag a b).mem = d.mem := rfl
@[simp] theorem Dev.setR64_mem (p o v : Nat) : (d.setR64 p o v).mem = d.mem := rfl

@[simp] theorem Dev.noteWrite_mem (by_ a len : Nat) : (d.noteWrite by_ a len).mem = d.mem :=
  foldl_mem _ (fun d k => by split <;> rfl) _ _

@[simp] theorem Dev.l2Poison_mem (u m : Nat) (bad : Bool) : (d.l2Poison u m bad).mem = d.mem := by
  unfold Dev.l2Poison
  simp only []
  generalize (if bad = true then _ else _ : Nat) = now
  split
  · exact Dev.setPoison_mem d u false
  · exact Dev.setPoison_mem d u true

@[simp] theorem Dev.noteFabric_mem (a len : Nat) : (d.noteFabric a len).mem = d.mem := by
  unfold Dev.noteFabric
  split <;> rfl

@[simp] theorem Dev.clearUpsets_mem (a len : Nat) : (d.clearUpsets a len).mem = d.mem := rfl

@[simp] theorem Dev.readErr_mem (a len : Nat) : (d.readErr a len).mem = d.mem :=
  foldl_mem _ (fun _ _ => ite_mem (Dev.setPoison_mem _ _ _) (ite_mem (Dev.inc_mem _ _ _) rfl)) _ _

@[simp] theorem Dev.writePoison_mem (by_ a len : Nat) (pw : Nat → Bool) : (d.writePoison by_ a len pw).mem = d.mem :=
  foldl_mem _ (fun d i => by
    dsimp only
    (repeat' split) <;> first | exact Dev.l2Poison_mem _ _ _ _ | exact Dev.setPoison_mem _ _ _ | rfl) _ _

@[simp] theorem Dev.partialPoison_mem (x : Nat) (e : MbEntry) : (d.partialPoison x e).mem = d.mem :=
  foldl_mem _ (fun d i => by split <;> simp) _ _

@[simp] theorem Dev.uncorrPage_mem (x page : Nat) : (d.uncorrPage x page).mem = d.mem := by
  rw [Dev.uncorrPage, Dev.setR64_mem, Dev.irq_mem, Dev.inc_mem, Dev.pulse_mem]

@[simp] theorem Dev.mbWriteBack_mem (x page : Nat) (bad : Bool) : (d.mbWriteBack x page bad).mem = d.mem := by
  unfold Dev.mbWriteBack
  simp only []
  generalize (d.hbm x).mb.find? _ = o
  cases o with
  | none => rfl
  | some e =>
    rw [Dev.setHbm_mem]
    split
    · rw [Dev.uncorrPage_mem, Dev.partialPoison_mem]
    · rfl

@[simp] theorem Dev.mbAlloc_mem (x : Nat) (e : MbEntry) : (d.mbAlloc x e).mem = d.mem := by
  unfold Dev.mbAlloc
  rw [Dev.setHbm_mem]
  split
  · rfl
  · generalize (d.hbm x).victim = o
    cases o with
    | none => rfl
    | some v => rw [Dev.setHbm_mem, Dev.mbWriteBack_mem]

@[simp] theorem Dev.mbWrite_mem (x a len : Nat) : (d.mbWrite x a len).mem = d.mem := by
  unfold Dev.mbWrite
  simp only []
  generalize 2 ^ 2048 - 1 = full
  generalize (d.hbm x).mb.find? _ = o
  cases o with
  | none =>
    have h (v : Hbm) (e : MbEntry) : ((d.setHbm x v).mbAlloc x e).mem = d.mem := by rw [Dev.mbAlloc_mem, Dev.setHbm_mem]
    exact ite_mem (by rw [Dev.mbWriteBack_mem, h]) (h _ _)
  | some e => exact ite_mem (by rw [Dev.mbWriteBack_mem, Dev.setHbm_mem]) (Dev.setHbm_mem _ _ _)

@[simp] theorem Dev.mbFill_mem (x page : Nat) (dirty : Bool) : (d.mbFill x page dirty).mem = d.mem := by
  unfold Dev.mbFill
  simp only []
  generalize (d.hbm x).mb.find? _ = o
  cases o with
  | none => rw [Dev.mbAlloc_mem]
  | some e => rw [Dev.setHbm_mem]

@[simp] theorem Dev.symbols_mem (x n : Nat) : (d.symbols x n).mem = d.mem := by
  unfold Dev.symbols
  exact ite_mem (by rw [Dev.setF_mem, Dev.inc_mem]) (Dev.inc_mem _ _ _)

/-- A read of the stack keeps memory. -/
@[simp] theorem Dev.mbRead_mem (x a len : Nat) (out : Decode) : (d.mbRead x a len out).1.mem = d.mem := by
  unfold Dev.mbRead
  simp only []
  generalize byteMask (a % 2048) len = m
  generalize (d.hbm x).mb.find? _ = o
  split
  · rfl
  · cases o with
    | some e => exact Dev.setHbm_mem _ _ _
    | none =>
      simp only []
      generalize d.f (pgHbm x) F.HBM_CTRL_MODE = mode
      split
      · cases out <;> simp only [] <;> first | exact Dev.uncorrPage_mem _ _ _ | (rw [Dev.mbFill_mem, Dev.symbols_mem]) | (rw [Dev.mbFill_mem])
      · cases out <;> simp only [] <;> first | exact Dev.inc_mem _ _ _
      · cases out <;> simp only [] <;> first | (rw [Dev.mbWriteBack_mem, Dev.inc_mem, Dev.symbols_mem]) | exact Dev.inc_mem _ _ _

/-- A read changes no byte. -/
@[simp] theorem Dev.getMem_mem (core : Bool) (a len : Nat) : (d.getMem core a len).1.mem = d.mem := by
  unfold Dev.getMem
  simp only []
  split <;> simp

@[simp] theorem Dev.hbmTouch_mem (a len : Nat) : (d.hbmTouch a len).mem = d.mem := by
  unfold Dev.hbmTouch
  split
  · rfl
  · exact foldl_mem _ (fun d i => by simp) _ _

/-- What a write makes of memory depends on memory alone. -/
theorem Dev.setBytes_mem_of (d e : Dev) (h : d.mem = e.mem) (a : Nat) (l : List Byte) : (d.setBytes a l).mem = (e.setBytes a l).mem := by
  induction l generalizing d e a with
  | nil => exact h
  | cons b r ih => exact ih _ _ (by simp only [Dev.setByte, h]) _

/-- A write puts its bytes, and no other, into memory. -/
theorem Dev.putMem_mem (by_ a : Nat) (l : List Byte) (pw : Nat → Bool) : (d.putMem by_ a l pw).mem = (d.setBytes a l).mem := by
  unfold Dev.putMem
  simp only [Dev.hbmTouch_mem, Dev.noteWrite_mem]
  rw [foldl_mem _ (fun d i => by simp), Dev.writePoison_mem, Dev.clearUpsets_mem]
  exact Dev.setBytes_mem_of _ d (Dev.noteFabric_mem d a l.length) a l

/-- A byte outside a written range. -/
theorem Dev.byte_putMem_out (by_ a c : Nat) (l : List Byte) (pw : Nat → Bool) (h : c < a ∨ a + l.length ≤ c) :
    (d.putMem by_ a l pw).byte c = d.byte c := by
  simp only [Dev.byte, Dev.putMem_mem]
  exact Dev.byte_setBytes_out d a c l h

/-! The canonical form -/

theorem Dev.setByte_wf (a : Nat) (b : Byte) (h : memoryWf d.mem = true) : memoryWf (d.setByte a b).mem = true :=
  Table.put_wf (fun _ => 0) d.mem a b h

theorem Dev.setBytes_wf (a : Nat) (l : List Byte) (h : memoryWf d.mem = true) : memoryWf (d.setBytes a l).mem = true := by
  induction l generalizing d a with
  | nil => exact h
  | cons b r ih => exact ih _ _ (Dev.setByte_wf d a b h)

theorem Dev.store_wf (a k v : Nat) (h : memoryWf d.mem = true) : memoryWf (d.store a k v).mem = true := Dev.setBytes_wf d a _ h

theorem Dev.putMem_wf (by_ a : Nat) (l : List Byte) (pw : Nat → Bool) (h : memoryWf d.mem = true) :
    memoryWf (d.putMem by_ a l pw).mem = true := by
  rw [Dev.putMem_mem]
  exact Dev.setBytes_wf d a l h

theorem Dev.hbmInvalidate_wf (x first n : Nat) (h : memoryWf d.mem = true) : memoryWf (d.hbmInvalidate x first n).mem = true := by
  unfold Dev.hbmInvalidate memoryWf
  dsimp only
  exact Table.keep_wf _ _ _ h

theorem Dev.dropDomainMem_wf (b : Nat) (h : memoryWf d.mem = true) : memoryWf (d.dropDomainMem b).mem = true := by
  unfold Dev.dropDomainMem memoryWf
  dsimp only
  exact Table.keep_wf _ _ _ h

theorem Dev.zeroWorkspace_wf (h : memoryWf d.mem = true) : memoryWf d.zeroWorkspace.mem = true := by
  unfold Dev.zeroWorkspace memoryWf
  dsimp only
  exact Table.keep_wf _ _ _ h

/-- Memory after reset has the form. -/
theorem reset_memory_wf : memoryWf State.reset.dev.mem = true := rfl

end Sys2Proof.Machine
end

