-- ==== Sys2Proof/WellFormed.lean ====
section
/-!
DEFINITION. Sys2Proof/WellFormed.lean: which commands can be sent: operands whose types admit more than the spec gives them.
-/
namespace Sys2Proof
open Machine

/-- An address in the register-page window at which a row of its own stands for a write: the boot doorbell (21 R472). -/
def isBootDb (a : Nat) : Bool := a == 0xEA000180

/-- An access of `n` bytes lies in one 64-byte line. -/
def inLine (a n : Nat) : Bool := decide (1 ≤ n) && decide (a % 64 + n ≤ 64)

/-- A CAN frame as ISO 11898-1 has it: an 11-bit identifier leaves the extension zero; a classic frame has no BRS and ESI, an FD frame no RTR; a
remote frame has no data, and a data frame as many bytes as its DLC names. -/
def canFrameOk (f : CanFrame) : Bool :=
  let n := f.dlc.val
  let len := if n ≤ 8 then n else if !f.fdf then 8 else if n ≤ 12 then 4 * n - 24 else 16 * n - 176
  (f.ide || f.id.toNat % 2 ^ 18 == 0) && (f.fdf || (!f.brs && !f.esi)) && !(f.fdf && f.rtr) &&
    (if f.rtr then f.data.isEmpty else f.data.length == len)

/-- A write to BAR0 carries bytes and does not ring the doorbell, which BOOT_DB stands for; one to BAR2 carries bytes. -/
def pcieWriteOk (x : PcieWrite) : Bool :=
  match x with
  | .bar0 off l => !l.isEmpty && !isBootDb (0xE0000000 + off.toNat)
  | .bar2 _ l _ => !l.isEmpty
  | _ => true

/-- A read asks for bytes. -/
def pcieReadOk (x : PcieRead) : Bool :=
  match x with
  | .bar0 _ n => decide (1 ≤ n)
  | .bar2 _ n => decide (1 ≤ n)
  | _ => true

/-- A command that can be sent. -/
def Instr.wellFormed (i : Instr) : Bool :=
  match i with
  | .registerWrite _ a _ _ => !isBootDb a.toNat
  | .temperatureReading t => t.length == 8
  | .bmov _ _ n | .bmovd _ _ n | .bfill _ _ n | .bfind _ _ n => decide (1 ≤ n)
  | .sensor _ _ first _ vals => decide (1 ≤ vals.length) && decide (first.toNat + vals.length ≤ 64)
  | .userFrameReceive _ _ payload => decide (payload.length ≤ 64)
  | .csrPatrolScrub _ fixed bad => decide (fixed + bad.length ≤ 8) && decide bad.Nodup
  | .hbmRead _ a len _ _ => inLine a.toNat len
  | .hbmWrite _ a bytes _ => inLine a.toNat bytes.length
  | .pcieInboundWrite _ x => pcieWriteOk x
  | .pcieInboundRead _ x => pcieReadOk x
  | .pcieLinkChange (some (speed, width)) => decide (1 ≤ speed.val) && [1, 2, 4].contains width.val
  | .ethFrameReceive _ frame _ => decide (14 ≤ frame.bytes.length)
  | .canFrameReceive _ f _ => canFrameOk f
  | _ => true

end Sys2Proof
end

