-- ==== Sys2Proof/Tests/Slice0.lean ====
section
/-!
SUPPORT. Sys2Proof/Tests/Slice0.lean: tests of single commands with results taken from the spec, the ill-formed commands that
well-formedness refuses, and for every statement with hypotheses a state and operands that meet them (`witness_…`), clause by clause.
-/
namespace Sys2Proof.Tests
open Sys2Proof.Machine Sys2Proof.Claims
set_option Elab.async false

/-! States -/

/-- Every domain on, out of reset, all registers zero where the page has no other reset value. -/
def up : Dev := { regs := [(pgPwr + 0x44, 0xFFFFFFFF)], sys := { reset := .none, rstoutHigh := true } }

/-- Registers set by address. -/
def regs (d : Dev) (l : List (Nat × Nat)) : Dev := l.foldl (fun d x => d.setReg x.1 (BitVec.ofNat 32 x.2)) d

/-- Pages enabled and registers set in `up`, at the start of a tick. -/
def st (pages : List Nat) (l : List (Nat × Nat)) : State := { dev := (regs (pages.foldl (fun d p => d.setReg (p + 8) 1) up) l).stamp }

/-- A change of the device of a state, from which a tick starts. -/
def mod (s : State) (f : Dev → Dev) : State := { s with dev := (f s.dev).stamp }

/-- A change of the system state. -/
def sys (s : State) (f : SysSt → SysSt) : State := mod s fun d => { d with sys := f d.sys }

/-- Fields set. -/
def setFs (l : List (Nat × Fld × Nat)) (s : State) : State := mod s fun d => l.foldl (fun d x => d.setF x.1 x.2.1 x.2.2) d

/-- A tick count, with the Lintel count equal to it. -/
def at_ (n : Nat) (s : State) : State := mod s fun d => { d with time := { d.time with tick := n, count := BitVec.ofNat 64 n } }

/-- A page number. -/
def pn (p : Nat) : BitVec 36 := BitVec.ofNat 36 (p / 0x1000)


/-! Well-formedness refuses what cannot be sent -/

theorem refuses_registerWrite : Instr.wellFormed (.registerWrite .boot 0xEA000180 2 0) = false := by decide
theorem refuses_temperatureReading : Instr.wellFormed (.temperatureReading [0, 0]) = false := by decide
theorem refuses_blocks : Instr.wellFormed (.bmov 0 0 0) = false ∧ Instr.wellFormed (.bmovd 0 0 0) = false ∧
    Instr.wellFormed (.bfill 0 0 0) = false ∧ Instr.wellFormed (.bfind 0 0 0) = false := by decide
theorem refuses_sensor : Instr.wellFormed (.sensor 0 0 63 0 [1, 2]) = false ∧ Instr.wellFormed (.sensor 0 0 0 0 []) = false := by decide
theorem refuses_userFrame : Instr.wellFormed (.userFrameReceive 0 0 (List.replicate 65 0)) = false := by decide
theorem refuses_patrolScrub : Instr.wellFormed (.csrPatrolScrub 0 9 []) = false ∧
    Instr.wellFormed (.csrPatrolScrub 0 0 [1, 1]) = false := by decide
theorem refuses_hbm : Instr.wellFormed (.hbmRead 0 0x100000003F 2 .clean false) = false ∧
    Instr.wellFormed (.hbmWrite 0 0x1000000000 [] false) = false := by decide
theorem refuses_pcie : Instr.wellFormed (.pcieInboundWrite 0 (.bar0 0xA000180 [1, 0, 0, 0])) = false ∧
    Instr.wellFormed (.pcieInboundRead 0 (.bar0 0 0)) = false ∧
    Instr.wellFormed (.pcieLinkChange (some (0, 1))) = false ∧ Instr.wellFormed (.pcieLinkChange (some (1, 3))) = false := by decide
theorem refuses_frames : Instr.wellFormed (.ethFrameReceive 0 ⟨[1], 0⟩ true) = false ∧
    Instr.wellFormed (.canFrameReceive 0 ⟨false, 1, false, false, false, false, 0, []⟩ 0) = false := by decide

/-! Witnesses: accesses to registers (01) -/

theorem witness_RegisterWriteAnswers : Reached (st [] []) ∧ pageAt 0xE0FFFFFF = none ∧ pageAt 0xE0000FFF ≠ none ∧
    (st [] []).dev.pageCause .boot pageVt 8 4 1 true = none ∧ (st [] []).dev.pageCause .boot pageVt 8 2 1 true = some 2 := by decide

theorem witness_ViolationIsLogged : (regs up [(pgRst + 0x1C, 0x80000003)]).on pgRst F.H_ERR_VALID = true ∧
    up.on pgSysid F.H_ERR_VALID = false ∧ pgSysid % 0x1000 = 0 := by decide

theorem witness_EnableWrites : pageAt (0x1000 * (pn pgVt).toNat + 8) = some pageVt ∧ Accepts (st [] []) .boot pageVt 8 4 3 ∧
    Accepts (st [pgVt] []) .boot pageVt 8 4 0 := by decide

theorem witness_EnableJudged : pageAt pageTemp.base = some pageTemp ∧ (regs up [(pgTemp + 0x10, 0x20000000)]).busy pageTemp.base = true ∧
    firstFailure ((regs up [(pgTemp + 0x68, 0)]).pageCheck pageTemp) = some (0x68, 2) ∧
    (regs up [(pgTemp + 0x68, 0)]).busy pageTemp.base = false ∧ up.busy pageVt.base = false ∧ firstFailure (up.pageCheck pageVt) = none := by
  decide

theorem witness_ExpertChangesOnlyWhileDisabled : pageAt (0x1000 * (pn pgVt).toNat + 8) = some pageVt ∧ Reached (st [pgVt] []) ∧
    (st [pgVt] []).dev.domOn pageVt.dom = true ∧ (st [pgVt] []).dev.mayWrite .boot pageVt 8 = true ∧
    (st [pgVt] []).dev.en pageVt.base = true ∧ (st [pgVt] []).dev.expert pageVt.base ≠ true ∧ (st [] []).dev.en pageVt.base = false := by
  decide

theorem witness_BlockBecomesIdle : Clocked (st [] [(pgTemp + 0x10, 0x20000000)]) ∧ pageAt (0x1000 * (pn pgTemp).toNat) = some pageTemp ∧
    (st [] [(pgTemp + 0x10, 0x20000000)]).dev.busy pageTemp.base = true ∧
    (st [] [(pgTemp + 0x10, 0x20000000)]).dev.blockIdle pageTemp = true := by decide

theorem witness_ReadsThatClear : Who.boot.req ≠ 0x3F0 ∧ pageAt (0x1000 * (pn pgTemp).toNat + 0x1C) = some pageTemp ∧
    Readable (st [] []) .boot pageTemp 0x1C 4 ∧ Readable (st [] []) .boot pageLintel 0x40 4 ∧ Readable (st [] []) .boot pageTemp 0x6C 4 ∧
    Readable (st [] []) .boot (pageTimer 15 31) 0x2E0 8 ∧ Readable (st [] []) .boot (pageTimer 0 0) 0x120 4 ∧
    Readable (st [] []) .boot (pageEth 3) 0x90 4 ∧
    (let s := fun cyc => mod (at_ 80 (st [] [])) fun d => { d with errLog := [(pgTemp, ⟨cyc, 3, [(1, 2, 0x80000003)]⟩)] }
     Readable (s 9) .boot pageTemp 0x1C 4 ∧ (Table.get ⟨0, 0, []⟩ (s 9).dev.errLog pgTemp).cyc ≠ (s 9).dev.tick / 8 + 1 ∧
     Readable (s 11) .boot pageTemp 0x1C 4 ∧ (Table.get ⟨0, 0, []⟩ (s 11).dev.errLog pgTemp).cyc = (s 11).dev.tick / 8 + 1 ∧
     (Table.get ⟨0, 0, []⟩ (s 11).dev.errLog pgTemp).viols = [(1, 2, 0x80000003)]) := by decide

theorem witness_OwnershipTransfer : Accepts (st [] []) .boot pageOwn 0x4C 4 1 ∧
    (let s := mod (st [] []) fun d => d.setStage 5 { pageLo := 0xE0001000, type := 0x80000003 }
     Accepts s .boot pageOwn 0x4C 4 1 ∧ s.dev.ownCode .boot = 0 ∧ pageAt 0xE0001000 ≠ none) ∧
    (mod (st [] []) fun d => d.setStage 5 { pageLo := 0x40 }).dev.ownCode .boot ≠ 0 := by decide

/-! Resets, power and fuses (02, 03) -/

theorem witness_ResetPins : (st [] []).dev.sys.standby = false ∧ (st [] []).dev.sys.porstLow = false ∧ (sys (st [] []) fun x => { x with standby := true }).dev.sys.standby = true ∧
    (sys (st [] []) fun x => { x with wrstLow := true, porstLow := true }).dev.sys.wrstLow = true := by decide

theorem witness_PowerOnResetLeaves : (st [] []).dev.otpCmd = none ∧ (sys (st [] []) fun x => { x with porstLow := true }).dev.otpCmd = none ∧
    (sys (st [] []) fun x => { x with porstLow := true }).dev.sys.porstLow = true := by decide

theorem witness_WarmResetLeaves : up.sys.reset = .none := by decide

theorem witness_ResetJoinsReset : State.reset.dev.sys.reset ≠ .none := by decide

theorem witness_ClocksAndDomains : (st [] []).dev.sys.standby = false ∧ (st [] []).dev.sys.pllWake = false ∧
    (sys (st [] []) fun x => { x with pllWake := true }).dev.sys.pllWake = true ∧ (st [] []).dev.clocksStill = false ∧
    bitAt ((st [] [(pgClk + 0x44, 7)]).dev.reg (pgClk + 0x44)) 2 = true ∧ (st [] []).dev.domOn (domLink 1) = true ∧
    (let d := (st [] [(pgPwr + 0x44, 0xE0000010), (pgPwr + 0x48, 4), (pgPwr + 0x40, 0xC)]).dev
     d.sys.reset = .none ∧ d.inTrans 2 = true ∧ d.transReady 2 = true) := by decide

theorem witness_ResetSequenceEnds : State.reset.dev.sys.reset ≠ .none ∧
    (let x := State.reset.dev.sys; (x.porstLow || x.wrstLow || x.overtempHold || x.relockWait || x.clkHeld) = false) ∧
    (sys State.reset fun x => { x with wrstLow := true }).dev.sys.reset ≠ .none := by decide

theorem witness_TemperatureReadings : ([0, 0, 0, 2160, 0, 0, 0, 1920] : List (BitVec 16)).length = 8 := by decide

theorem witness_PowerRegisterWrites :
    let s := st [pgOtp, pgPwr] []
    Accepts s .boot pageRst 0x40 4 1 ∧ Accepts s .boot pageRst 0xC0 4 1 ∧ Accepts s .boot pageRst 0xC0 4 2 ∧
    Accepts s .boot pagePwr 0x40 4 0x60000010 ∧ Accepts s .boot pagePwr 0x54 4 1 ∧ Accepts s .boot pageOtp 0x44 4 1 ∧
    Accepts s .boot pageOtp 0x44 4 14 ∧ Accepts s .boot pageOtp 0x44 4 (16 + 256 * 15) ∧ s.dev.en pgOtp = true ∧
    s.dev.on pgOtp F.OTP_STAT_BUSY = false := by decide

theorem witness_FuseCommandDone : (mod (st [pgOtp] []) fun d => { d with otpCmd := some .rollbackAdv }).dev.otpCmd = some .rollbackAdv := by
  decide

/-! Time, sashes and jobs (04 to 08) -/

theorem witness_StepOfTheCount : Accepts (st [pgLintel] [(pgLintel + 0x50, 5)]) .boot pageLintel 0x58 4 1 ∧
    (st [pgLintel] [(pgLintel + 0x50, 5)]).dev.stepRefusal = none ∧
    Accepts (st [pgLintel, pgPwm 0 3] [(pgLintel + 0x50, 5)]) .boot pageLintel 0x58 4 1 ∧
    ((st [pgLintel, pgPwm 0 3] [(pgLintel + 0x50, 5)]).dev.stepRefusal.any fun x => x.1 < 16 && x.2 < 128) = true := by decide

theorem witness_SoftwareEvents : Accepts (st [pgEvf] []) .boot pageEvf 0x4C 4 0x80000001 ∧
    Accepts (st [pgEvf] []) .boot pageEvf 0x50 4 0x80000001 := by decide

theorem witness_TrimmedTick :
    let s := st [pgLintel] [(pgLintel + 0x48, 858993), (pgLintel + 0x4C, 0xFFFFFFFF), (pgLintel + 0x44, 0xFFFFFFFF), (pgLintel + 0x40, 0xFFFFFFFF)]
    Clocked s ∧ s.dev.trimCarry ≠ 0 ∧ (st [pgLintel] []).dev.trimCarry = 0 := by decide

/-- The launch page of casement 1 in EXPERT, with entry 2 armed for a count that has passed. -/
def launching : State := at_ 100 (st [pgLent 1 0] [(pgLctl 1 + 8, 3), (lePage 1 2 + 0x100, 5), (lePage 1 2 + 0x114, 1)])

theorem witness_LaunchFires : Clocked launching ∧ launching.dev.domOn (domCas 1) = true ∧
    (let d := launching.dev
     (List.range 256).filter (fun e => (d.en (pgLctl 1) && d.en (pgLent 1 (e / 64))) && d.atTick.leFires 1 e) = [2] ∧
     d.acted 0 1 = false ∧ d.expert (pgLctl 1) = true ∧ d.atTick.expert (pgLctl 1) = true ∧
     d.atTick.lePeriod 1 2 = 0 ∧ d.atTick.f (lePage 1 2) F.LE_CTRL_ACTION = 0 ∧
     d.atTick.on (lePage 1 2) F.LE_COUNT_FOREVER = false ∧ d.landedAt (lePage 1 2 + 0x100) 0x20 = [] ∧ d.atTick.leTime 1 2 < d.count) ∧
    (let d := (at_ 1 (st [] [])).dev
     (List.range 256).filter (fun e => (d.en (pgLctl 1) && d.en (pgLent 1 (e / 64))) && d.atTick.leFires 1 e) = [] ∧ d.acted 0 1 = false) ∧
    (launching.dev.act 0 1).acted 0 1 = true := by decide

/-- Sixteen descriptor words. -/
def words (l : List (Nat × Nat)) : List W32 := l.foldl (fun w x => w.set x.1 (BitVec.ofNat 32 x.2)) (List.replicate 16 0)

/-- A user job of casement 1 with four lines of results and lanes 0 and 1. -/
def job : Job := {
  id := 7, home := 1, desc := 3, words := words [(0, 2 ^ 31 + 3 * 2 ^ 24 + 2 ^ 22 + 1), (1, 5 * 65536), (2, 0x20000000), (3, 0x10101)]
  deadline := none, post := 0, entered := 0, fallback := false }

/-- The job running. -/
def running : Running := { job := job, lanes := 3, entry := 0, tpl := none, law := none, stolen := false }

/-- Sash 5 in a state, at tick 100. -/
def sashed (x : Sash) : State := mod (at_ 100 (st [pgSash 5, pgJq 1] [])) fun d => d.setSash 5 x

/-- A result of word 4 on lane 1, due. -/
def op : InFlight := {
  word := 4, lane := 1, unit := .add, dest := .v 3, val := 9, checked := true, mute := false, issue := 40, due := 45, tick := 80, res := 2 }

/-- Word 4. -/
def word : WordRec := { id := 4, addr := 0, rom := false, bank := false, issue := 40 }

theorem witness_DeadlinesMissed :
    let q := mod (sashed {}) fun d => d.setQueue 1 [{ job with deadline := some 100 }, { job with deadline := some 101 }]
    let r := { running with job := { job with deadline := some 100 } }
    Clocked q ∧ (q.dev.queue 1)[0]? = some { job with deadline := some 100 } ∧ (q.dev.queue 1)[1]? = some { job with deadline := some 101 } ∧
    q.dev.count = 100 ∧ ((sashed { job := some r }).dev.sash 5).job = some r ∧ (sashed { job := some r }).dev.lastCommitDone 5 r = false ∧
    r.missed = false ∧ r.job.home < 16 ∧ r.job.desc < 256 ∧
    (sashed {}).dev.count < 101 ∧ { r with missed := true }.missed = true := by decide

/-- Sash 5 ready to issue from the bank word `w`. -/
def issuing (w : Nat) : State := mod (sashed { job := some running, lenA := 3 }) fun d => d.store (sashBase 5) 24 w

theorem witness_MicrowordIssues : Clocked (sashed {}) ∧ (sashed {}).dev.canIssue 5 = false ∧ (issuing 0).dev.canIssue 5 = true ∧
    ((issuing 0).dev.sash 5).job = some running ∧ (issuing (2 ^ 192 - 1)).dev.canIssue 5 = true ∧
    ((issuing (2 ^ 192 - 1)).dev.mwFetch 5).any (fun w => !mwLegal w) = true ∧
    (issuing 0).dev.mwFetch 5 = some 0 ∧ (issuing 0).dev.upsets = [] ∧ (issuing 0).dev.present.fabric = [] ∧
    (issuing 0).dev.present.fabPois = [] ∧ mwLegal 0 = true ∧ mw 0 3 0 = 0 ∧ mw 0 25 20 = 0 ∧
    (laneList 3).all (fun i => ((((issuing 0).dev.noteIssue 5 running).mwOps
      ⟨0, 5, i, (issuing 0).dev.cyc 5, 100, mw 0 191 191 == 1 && !((issuing 0).dev.lane 5 i).pred⟩ ((issuing 0).dev.lane 5 i) 0).toOption).isSome)
      = true := by decide

theorem witness_ResultsAndReplays :
    let s := sashed { job := some running, ops := [op], words := [word] }
    let z := sashed { job := some running, words := [word], freeze := some ⟨30, 5, 4, 60⟩ }
    Clocked s ∧ s.dev.dueOps 5 = [op] ∧ (s.dev.sash 5).job = some running ∧
    (s.dev.sash 5).words.find? (fun w => w.id == op.word) = some word ∧ s.dev.injected 5 op.lane op.unit.code op.tick = false ∧ op.agrees = true ∧
    (s.dev.sash 5).freeze = none ∧ word.replayed = false ∧ op.unit.code < 5 ∧ (sashed {}).dev.dueOps 5 = [] ∧
    Clocked z ∧ 30 + (z.dev.sash 5).lost + 5 ≤ z.dev.tick / 2 ∧ (z.dev.sash 5).ops.all (fun o => !o.bad) = true := by decide

theorem witness_LaneFaultEndsJob : ((sashed { job := some running }).dev.sash 5).job = some running ∧ running.job.home < 16 ∧
    (sashed { job := some running }).dev.on (pgSash 5) F.FAULT_INFO_VALID = false ∧
    ((sashed {}).dev.setReg (pgSash 5 + 0x4C) 0x80000000).on (pgSash 5) F.FAULT_INFO_VALID = true := by decide

theorem witness_WordEnds :
    let s := fun (r : Running) (w : WordRec) => sashed { job := some r, words := [w] }
    let stores := { word with stores := [⟨1, 0x20000000, 99, false⟩] }
    let commits := { word with slot := 1, commits := [(1, 55)] }
    let r := { running with job := { job with words := words [(4, 65)] } }
    Clocked (s running word) ∧ ((sashed { job := some running, ops := [op], words := [word] }).dev.sash 5).words.find?
      ((sashed { job := some running, ops := [op], words := [word] }).dev.wordDone 5) = none ∧
    ((s running word).dev.sash 5).words.find? ((s running word).dev.wordDone 5) = some word ∧
    ((s running stores).dev.sash 5).words.find? ((s running stores).dev.wordDone 5) = some stores ∧
    ((s r commits).dev.sash 5).words.find? ((s r commits).dev.wordDone 5) = some commits ∧ nbits (r.job.w 4) 0 3 ≠ 0 ∧
    (s r stores).dev.present.fabric = [] ∧ ((s r commits).dev.inj 5).next = none := by decide

/-- A commit flit due at 90. -/
def flit : Flit := { job := 7, sash := 5, cas := 1, fence := none, lane := 0, word := 0, shares := [⟨1, 2, 77⟩], due := 90 }

/-- A delivery due at 99. -/
def delivery : Delivery := { place := 1, cls := 0, idx := 3, val := 55, stamp := 60, due := 99 }

theorem witness_FlitsOnTheBuses :
    let s := sashed {}
    crc8 [0x01] = 7 ∧ crc8 [0x01] ≠ (0 : Byte).toNat ∧
    Clocked s ∧ s.dev.flits = [] ∧ flit.since = none ∧ flit.due ≤ s.dev.tick ∧ flit.fence = none ∧ s.dev.deliveries = [] ∧
    [delivery].find? (fun v => decide (v.due ≤ s.dev.tick)) = some delivery ∧ s.dev.boundSashes delivery = [] ∧ flit.retried = false ∧
    [{ delivery with retried := true }][0]? = some { delivery with retried := true } := by decide

theorem witness_WaitsEnd :
    let s := fun (r : Running) => sashed { job := some r, tw := [(0, 20)] }
    let slow := { running with phase := .waiting 1 1 9 50 }
    let fast := { running with phase := .waiting 9 0 50 0 }
    let law := { slow with law := some 1, tpl := some 9 }
    Clocked (s slow) ∧ ((s slow).dev.sash 5).job = some slow ∧ (s slow).dev.live (pgSash 5) = true ∧
    (s slow).dev.waitTrue 5 1 slow = false ∧
    (s fast).dev.waitTrue 5 9 fast = true ∧ slow.missed = false ∧ law.missed = false ∧ 9 + 16 * 1 ≤ (s slow).dev.cyc 5 ∧ slow.law = none ∧
    law.law ≠ none ∧ ((s law).dev.sash 5).job = some law := by decide

theorem witness_ControlStoreCommands : (∀ v ∈ [0, 1, 2, 4, 5, 8, 9], Accepts (st [] []) .boot (pageSash 63) 0x8C 4 v) ∧
    (st [] []).dev.on (pgSash 63) F.CS_STAT_OPEN = false ∧
    Accepts (setFs [(pgSash 63, F.CS_STAT_OPEN, 1)] (st [] [])) .boot (pageSash 63) 0x8C 4 2 ∧
    (setFs [(pgSash 63, F.CS_STAT_OPEN, 1)] (st [] [])).dev.on (pgSash 63) F.CS_STAT_OPEN = true := by decide

theorem witness_BanksCheckedAndSwapped :
    let s := setFs [(pgSash 5, F.CS_STAT_SWAP_PENDING, 1)] (sashed {})
    Clocked s ∧ (s.dev.sash 5).check = none ∧ ((sashed { check := some (3, 1, 9) }).dev.sash 5).check = some (3, 1, 9) ∧
    s.dev.on (pgSash 5) F.CS_STAT_SWAP_PENDING = true ∧ (s.dev.sash 5).job = none ∧ (s.dev.sash 5).swapAt ≤ s.dev.tick / 2 ∧ s.dev.domOn (domCas 1) = true ∧
    (sashed {}).dev.on (pgSash 5) F.CS_STAT_SWAP_PENDING = false := by decide

theorem witness_SelectionsAndTemplates : Accepts (st [] []) .boot (pageSash 63) (0x180 + 4 * 15) 4 1847 ∧
    Accepts (st [] []) .boot (pageTpl 511) 0x40 4 0x101 ∧ 0x101 ≠ (st [] []).dev.f (tplBase 511) F.TPL_CTRL_PROG ∧
    (st [] [(tplBase 511 + 0x40, 0x101)]).dev.f (tplBase 511) F.TPL_CTRL_PROG = 0x101 ∧
    Accepts (st [] [(tplBase 511 + 0x40, 0x101)]) .boot (pageTpl 511) 0x40 4 0x101 := by decide

/-- Descriptor 3 of casement 1 in its memory. -/
def described : State := mod (sashed {}) fun d => d.store (descAddr 1 3) 4 (2 ^ 31 + 3 * 2 ^ 24 + 2 ^ 22 + 1)

theorem witness_PostsAndFlushes :
    let d := described.dev
    Accepts described .boot (pageJq 1) 0x48 8 3 ∧ d.postRefusal (d.posting 1 3 (d.offsetDeadline 0) false) = none ∧
    Accepts described .boot (pageJq 1) 0x48 8 255 ∧ (d.postRefusal (d.posting 1 255 (d.offsetDeadline 0) false)).isSome = true ∧
    (d.posting 1 255 (d.offsetDeadline 0) false).fallback = false ∧ (d.posting 1 3 (d.offsetDeadline 0) false).fallback = false ∧
    Accepts described .boot (pageJq 1) 0x54 4 1 ∧ d.present.posts.all (fun x => x.cas != 1) = true ∧
    d.on (pgJq 1) F.JQ_REFUSE_VALID = false ∧ 99 < d.tick ∧
    Clocked described ∧ d.fallbacks = [] ∧ d.tick = 100 ∧
    ([⟨job, 5, 100⟩] : List Fallback).head? = some ⟨job, 5, 100⟩ := by decide

theorem witness_JobsTaken :
    let own := mod (setFs [(pgSash 5, F.SASH_CTRL_LANE_EN, 15)] described) fun d => d.setQueue 1 [job]
    let theirs := mod (setFs [(pgSash 5, F.SASH_CTRL_LANE_EN, 15), (pgJq 1, F.JQ_CTRL_MODE, 2), (pgJq 0, F.JQ_CTRL_MODE, 2),
      (pgWing 0, F.WS_AGE_STEAL_AGE, 50), (pgWing 0, ⟨8, 0, 1⟩, 1), (pgJq 0, ⟨8, 0, 1⟩, 1)] described) fun d => d.setQueue 0 [{ job with home := 0 }]
    Clocked own ∧ (st [] []).dev.atBoundary 5 = false ∧ own.dev.atBoundary 5 = true ∧
    (firstJob (own.dev.canTake 5) (own.dev.queue 1)).isSome = true ∧ (∀ m : Fin 5, m.val / 4 = 1 → own.dev.atBoundary m = false) ∧
    ((own.dev.homeChoices 1).find? (fun x => x.1 == 5)).isSome = true ∧ theirs.dev.atBoundary 5 = true ∧ theirs.dev.jqModeNow 1 = 2 ∧
    (∀ m : Fin 32, m.val ≠ 5 → theirs.dev.atBoundary m = false) ∧
    firstJob (theirs.dev.canTake 5) (theirs.dev.queue 1) = none ∧
    (((List.range 7).map (fun k => 8 * (1 / 8) + (1 % 8 + 1 + k) % 8)).findSome?
      (fun h => firstJob (theirs.dev.canSteal 5) (theirs.dev.queue h))).isSome = true := by decide

theorem witness_JobsEnd :
    let ended := { running with phase := .ended }
    let back := { running with phase := .writeBack }
    let s := sashed { job := some ended }
    Clocked s ∧ (s.dev.sash 5).job = some ended ∧ (s.dev.sash 5).ops = [] ∧ (s.dev.sash 5).freeze = none ∧
    (laneList 3).all (fun i => !(s.dev.lane 5 i).fpnan) = true ∧ (s.dev.sash 5).words = [] ∧ ended.dropped = false ∧ ended.missed = false ∧
    ended.tpl = none ∧ s.dev.en (tplBase 33) = false ∧
    (st [tplBase 33] []).dev.en (tplBase 33) = true ∧ ((sashed { job := some { ended with tpl := some 33 } }).dev.sash 5).job =
      some { ended with tpl := some 33 } ∧ ((sashed { job := some ended, ops := [op] }).dev.sash 5).ops ≠ [] ∧
    ((sashed { job := some back }).dev.sash 5).job = some back ∧ back.phase = .writeBack := by decide

/-! Monitors and PWM (09, 10) -/

/-- Monitor 17 in a state, at tick 100, its page enabled; `xp`: in EXPERT. -/
def watching (xp : Bool) (x : Mon) : State :=
  mod (at_ 100 (st [] [(monPage 17 + 8, 1 + 2 * b2n xp)])) fun d => d.setMon 17 x

theorem witness_PeepholeJudges :
    let s := watching false { arrived := [(20, 60)], lastStep := some 53 }
    let u := watching false { arrived := [(20, 60)], lastStep := some 52 }
    let v := watching false { steps := [(90, [99])], vtrips := [(100, 9)] }
    let j := watching true { judges := [(20, 60, 52, 99)] }
    let w := watching true { judges := [(20, 60, 52, 99)], cur := some { lo := 52, hi := 53 } }
    Clocked s ∧ s.dev.live (monPage 17) = true ∧ s.dev.expert (monPage 17) = false ∧ s.dev.tick < 53 + 48 ∧
    52 + 48 ≤ u.dev.tick ∧ (u.dev.mon 17).lastStep = some 52 ∧ v.dev.live (monPage 17) = true ∧ 90 ≤ v.dev.tick ∧ (v.dev.mon 17).arrived = [] ∧
    (v.dev.mon 17).vtrips = [(100, 9)] ∧ (v.dev.mon 17).judges = [] ∧ (s.dev.mon 17).steps = [] ∧ (s.dev.mon 17).steps.head? = none ∧
    (∀ e ∈ (s.dev.mon 17).vtrips, s.dev.tick < e.1) ∧
    j.dev.expert (monPage 17) = true ∧ j.dev.live (monPage 17) = true ∧ (j.dev.mon 17).prev = none ∧ (j.dev.mon 17).cur = none ∧
    (w.dev.mon 17).cur = some { lo := 52, hi := 53 } := by decide

theorem witness_InjectionAndCapture :
    let s := fun u => mod (at_ 100 (st [pgInj 5] [])) fun d => { d with injs := [(5, { next := some u })] }
    let e := setFs [(pgInj 5, F.INJ_COUNT_COUNT, 1)] (mod (s 100) fun d => { d with injs := [(5, { next := some 100, k := 1 })] })
    let c := mod (at_ 100 (st [] [])) fun d => { d with caps := [(5, { buffer := [[1, 2, 3, 4]] })] }
    Clocked (s 101) ∧ ((s 101).dev.inj 5).next = some 101 ∧ (s 101).dev.count < 101 ∧ ((s 100).dev.inj 5).next = some 100 ∧
    (s 100).dev.live (pgInj 5) = true ∧ (s 100).dev.injEnds 5 = false ∧ e.dev.injEnds 5 = true ∧ e.dev.live (pgInj 5) = true ∧
    ((s 100).dev.cap 5).buffer = [] ∧ (c.dev.cap 5).buffer = [[1, 2, 3, 4]] := by decide

/-- PWM pair 7 enabled at tick 100, with fields and state of its own. -/
def pwm (fs : List (Fld × Nat)) (x : Pwm) : State :=
  mod (setFs (fs.map fun f => (pwmPage 7, f.1, f.2)) (at_ 100 (st [pwmPage 7] []))) fun d => d.setPwm 7 x

theorem witness_PwmCounterEvents :
    let s := pwm [(F.PWM_STATUS_RUNNING, 1)] { wrapDue := true }
    let e := pwm [(F.PWM_STATUS_RUNNING, 1), (F.PWM_PERIOD_ACT_PERIOD, 50), (F.PWM_CNT_CNT, 50)] {}
    Clocked s ∧ (s.dev.pwmCounting 7 && (s.dev.pwm 7).wrapDue) = true ∧ s.dev.syncNow 7 = false ∧ s.dev.acted 7 7 = false ∧ (e.dev.pwmCounting 7 && (e.dev.pwm 7).wrapDue) = false ∧
    (e.dev.pwmEvents 7 && !e.dev.pwmOff 7 && e.dev.pwmCnt 7 == e.dev.pwmPer 7 && !(e.dev.pwm 7).wrapDue && !e.dev.syncNow 7 &&
      Table.get 0 (e.dev.pwm 7).seen 2 != e.dev.tick + 1) = true := by decide

theorem witness_PwmEdges :
    let s := pwm [(F.PWM_STATUS_RUNNING, 1), (F.PWM_CNT_CNT, 3), (F.PWM_CMPSET_ACT_CMPSET, 53), (F.PWM_CMPCLR_ACT_CMPCLR, 1000),
      (F.PWM_PERIOD_ACT_PERIOD, 500)] { released := true }
    let t := pwm [(F.PWM_STATUS_RUNNING, 1), (F.PWM_CNT_CNT, 3), (F.PWM_CMPCLR_ACT_CMPCLR, 63), (F.PWM_CMPSET_ACT_CMPSET, 1000),
      (F.PWM_PERIOD_ACT_PERIOD, 500), (F.PWM_OUT_REF, 1)] {}
    let z := fun x => pwm [(F.PWM_STATUS_RUNNING, 1)] { dead := some x }
    Clocked s ∧ s.dev.pwmMatching 7 = true ∧ s.dev.pwmForced 7 = none ∧
    s.dev.pwmEdges 7 0 = [⟨5, false, false⟩] ∧ s.dev.pwmEdges 7 1 = [] ∧ s.dev.on (pwmPage 7) F.PWM_OUT_REF = false ∧
    s.dev.f (pwmPage 7) F.PWM_CTRL_CMP_EV = 0 ∧
    t.dev.pwmEdges 7 1 = [⟨15, true, false⟩] ∧ t.dev.pwmEdges 7 0 = [] ∧ t.dev.on (pwmPage 7) F.PWM_OUT_REF = true ∧
    (st [] []).dev.pwmMatching 7 = false ∧
    ((z (1, 1615)).dev.pwmMatching 7 && ((z (1, 1615)).dev.pwmEdges 7 0 ++ (z (1, 1615)).dev.pwmEdges 7 1).any
      (fun x => decide (16 * (z (1, 1615)).dev.tick + x.step ≤ 1615))) = false ∧
    ((z (1, 1615)).dev.pwm 7).dead = some (1, 1615) ∧ 1615 / 16 ≤ (z (1, 1615)).dev.tick ∧ (z (1, 1615)).dev.live (pwmPage 7) = true ∧
    (z (0, 1616)).dev.tick < 1616 / 16 ∧ (s.dev.pwm 7).dead = none := by decide

theorem witness_PwmCompareWrites :
    let s := pwm [] { pend := [⟨0, 500, 100, 0⟩] }
    Accepts (st [] []) .boot (pagePwm 95) PwmReg.cmpSet.offset 4 99 ∧ Accepts (st [] []) .boot (pagePwm 95) PwmReg.cmpClr.offset 4 99 ∧
    Accepts (st [] []) .boot (pagePwm 95) PwmReg.period.offset 4 99 ∧
    Clocked s ∧ ((pwm [] {}).dev.pwm 7).pend = [] ∧ (s.dev.pwm 7).pend = [⟨0, 500, 100, 0⟩] ∧
    s.dev.committed (pwmPage 95 + (pwmShadow 0).ofs) = false ∧ (s.dev.noteCommit (pwmPage 95 + (pwmShadow 0).ofs)).committed (pwmPage 95 + (pwmShadow 0).ofs) = true ∧
    100 ≤ s.dev.tick ∧ s.dev.live (pwmPage 7) = true := by
  decide

theorem witness_PwmSyncAndForce :
    let s := pwm [(F.PWM_SYNC_PHASE_PHASE, 20), (F.PWM_PERIOD_ACT_PERIOD, 50)] { syncDue := [100] }
    let i := setFs [(pwmPage 7, F.PWM_CTRL_SYNC_IN_EN, 1)] s
    Clocked s ∧ s.dev.syncNow 7 = false ∧ (i.dev.pwm 7).syncDue.contains i.dev.tick = true ∧ i.dev.acted 6 7 = false ∧ (i.dev.pwm 7).wrapDue = false ∧
    i.dev.on (pwmPage 7) F.PWM_CTRL_SYNC_IN_EN = true ∧ i.dev.live (pwmPage 7) = true ∧ (i.dev.pwm 7).startDue = none ∧
    i.dev.syncValue 7 ≠ i.dev.pwmCnt 7 ∧ i.dev.syncValue 7 ≠ 0 ∧ i.dev.syncValue 7 < 2 ^ 32 ∧
    Accepts (st [] [(pwmPage 95 + 8, 2)]) .boot (pagePwm 95) 0x80 4 7 := by decide

/-! The Shutter matrix and comparators (11) -/

/-- Virtual trips 0 and 2 are set, and group 3 takes trip 2. -/
def tripping : Dev := (regs { up with regs := [(pgPwr + 0x44, 0x80000000)] }
  [(pgVt + 8, 1), (pgGroup 3 + 8, 1), (pgVt + 0x50, 5), (pgGroup 3 + 0x78, 4)]).stamp

theorem witness_ShutterSettles : (let r := tripping.shutter; (r.tripIn 3 && r.latched 3) = true) ∧ tripping.latched 3 = false ∧
    (tripping.setB (pgGroup 3) F.GROUP_STATUS_LATCHED true).latched 3 = true ∧
    (let d := setFs [(pwmPage 7, ⟨8, 0, 1⟩, 0)] (st [] [])
     d.dev.shutter.pairForced 1 1 = true ∧ d.dev.sys.vddAon = true ∧ d.dev.sys.vddIo33 = true) := by decide +kernel

theorem witness_ShutterFrame : (pgVt + 0x50) / 0x1000000 ≠ 0xE1 ∧ (pgPwr + 0x44) / 0x20000 ≠ 0xE7000000 / 0x20000 := by decide

theorem witness_TripSources : Accepts (st [] []) .boot pageVt 0x44 4 0x80000001 ∧ Accepts (st [] []) .boot pageVt 0x48 4 1 ∧
    (st [] []).dev.deglitch 63 ≤ (st [] []).dev.deglitch 63 ∧ 9 < (st [pgFlt] [(pgFlt + 0x5C, 0x40000000)]).dev.deglitch 63 ∧
    ((st [] []).dev.act 5 0).acted 5 0 = true := by decide

theorem witness_ComparatorsFollow :
    let s := setFs [(cmpPage 25, F.CMP_CFG_CEN.at (8 * cmpK 25), 1)] (st [cmpPage 25] [])
    let z := mod s fun d => d.setF (cmpPage 25) ⟨0x10, cmpK 25, 1⟩ 1
    Clocked s ∧ s.dev.sampleDue 25 = true ∧ (st [] []).dev.sampleDue 25 = false ∧ s.dev.cmpSettling 25 = false ∧ s.dev.sdRoute 1 0 = none ∧ z.dev.cmpSettling 25 = true ∧
    z.dev.cmpUp 25 = true ∧ (st [] []).dev.cmpUp 383 = false ∧ Accepts (st [] []) .boot (pageCmp 63) 0x78 4 63 := by decide

theorem witness_GroupLatches :
    let s := { dev := tripping : State }
    let l := mod s fun d => (d.setB (pgGroup 3) F.GROUP_STATUS_LATCHED true)
    let c := setFs [(pgGroup 23, F.GROUP_STATUS_LATCHED, 1)] (st [pgGroup 23] [])
    let f := setFs [(pgRst, F.FOUT_STAT_SP_FAILED, 1)] c
    let q := mod (setFs [(pgGroup 3, F.GROUP_STATUS_LATCHED, 1)] (st [pgGroup 3] [])) fun d => d
    (∀ h : Fin 24, (((q.dev.act 4 3).acted 4 h && (q.dev.act 4 3).latched h) = true ↔ h.val = 3)) ∧ (q.dev.act 4 3).acted 3 3 = false ∧
    (q.dev.act 4 3).activeSources 3 (fun i => 0x200 ≤ i && i < 0x218 && [3].contains (i - 0x200)) = [] ∧
    ((q.dev.act 4 3).act 3 3).acted 3 3 = true ∧ (st [] []).dev.tick < (Table.get {} (mod s fun d => { d with groups := [(3, { due := 1 })] }).dev.groups 3).due ∧
    (Table.get {} (mod s fun d => { d with groups := [(3, { recording := true })] }).dev.groups 3).due ≤ s.dev.tick ∧
    Clocked s ∧ (Table.get {} s.dev.groups 3).recording = false ∧ (Table.get {} (mod s fun d => { d with groups := [(3, { recording := true })] }).dev.groups 3).recording = true ∧
    Accepts l .boot (pageGroup 3) 0xAC 4 1 ∧ (l.dev.clearRefusal 3 [3]).isSome = true ∧
    l.dev.clearRefusal 3 [3] = l.dev.clearRefusal 3 [] ∧
    Accepts c .boot (pageGroup 23) 0xAC 4 1 ∧ c.dev.clearRefusal 23 [23] = none ∧ c.dev.latched 23 = true ∧
    Accepts (st [] []) .boot (pageGroup 23) 0xAC 4 1 ∧ (st [] []).dev.clearRefusal 23 [23] = none ∧ (st [] []).dev.latched 23 = false ∧
    Accepts c .boot pageVt 0x60 4 0x800000 ∧ Accepts f .boot pageVt 0x60 4 0x800000 ∧ f.dev.spFailed = true ∧ f.dev.latched 23 = true := by decide

/-! Conversions, timers and encoders (12, 13) -/

/-- A conversion whose last hold was at 100. -/
def conversion (left : Nat) : AdcConv := { input := 2, stamp := 2 ^ 64 - 1, lastHold := 100, holdsLeft := left, avg := 2, sum := -77 }

theorem witness_AdcConversions :
    let s := fun t (l : List AdcConv) => mod (at_ t (st [adcPage 5] [])) fun d => d.setAdc 5 { convs := l }
    Clocked (s 300 []) ∧ ((s 300 []).dev.adc 5).bursting = none ∧ ((s 300 [conversion 2]).dev.adc 5).bursting = some (conversion 2) ∧ (conversion 2).input = (2 : Fin 3) ∧
    (conversion 0).input = (2 : Fin 3) ∧ (conversion 0).input ≠ (1 : Fin 3) ∧
    100 + 200 ≤ (s 300 [conversion 2]).dev.tick ∧ (s 300 [conversion 2]).dev.live (adcPage 5) = true ∧
    ((s 316 [conversion 0]).dev.adc 5).convs = [conversion 0] ∧ (conversion 0).lastHold + 216 ≤ (s 316 [conversion 0]).dev.tick ∧
    (s 315 [conversion 0]).dev.tick < (conversion 0).lastHold + 216 := by decide

theorem witness_SigmaDeltaInputs :
    let p := pgSd 1
    let base := fun t (x : SdIn) (fs : List (Nat × Fld × Nat)) => mod (setFs ([(p, F.SD_CFG_EN.at 160, 1), (p, F.SD_DEC_R.at 160, 8)] ++ fs)
      (at_ t (st [p] []))) fun d => { d.setSd 1 5 x with sdClks := [(2, ⟨some 40, true⟩), (3, ⟨some 40, true⟩)] }
    let clk := fun t => mod (at_ t (st [p] [])) fun d => d.setSdClk 1 1 { first := some 40 }
    let full : SdIn := { bits := List.replicate 30 true, got := 30, next := 21 }
    let stuck := [(p, F.SD_CFG_STUCK_LEN.at 160, 3)]
    Clocked (clk 39) ∧ ((st [] []).dev.sdClk 1 1).first = none ∧ ((clk 39).dev.sdClk 1 1).first = some 40 ∧ (clk 39).dev.live p = true ∧
    (clk 39).dev.tick < 40 ∧ 40 ≤ (clk 40).dev.tick ∧ (st [] []).dev.sdActive 1 5 = false ∧
    (base 9999 { full with skip := 2 } []).dev.sdActive 1 5 = true ∧
    (let d := (base 9999 full []).dev
     (d.sd 1 5).next < (d.sd 1 5).got ∧ d.sdInstant 1 5 21 + 32 ≤ d.tick ∧ (d.sd 1 5).calLog = []) ∧
    ((base 9999 {} []).dev.sd 1 5).got ≤ ((base 9999 {} []).dev.sd 1 5).next ∧ { full with skip := 2 }.skip ≠ 0 ∧ { full with skip := 0 }.skip = 0 ∧
    (let d := (base 9999 { full with skip := 0 } stuck).dev
     d.sdActive 1 5 = true ∧ (d.sd 1 5).got + 1 ≤ d.sdInstants 1 5 d.tick ∧ bitAt (d.reg (p + 0x10)) 5 = false ∧
     d.f p (F.SD_CFG_STUCK_LEN.at 160) = 3 ∧ 3 ≤ (d.sd 1 5).got + 1 ∧ (((true :: (d.sd 1 5).bits).take 800).take 3).all (· == true) = true) ∧
    (let d := (base 9999 { full with stuckVal := true } ((p, ⟨0x10, 5, 1⟩, 1) :: stuck)).dev
     bitAt (d.reg (p + 0x10)) 5 = true ∧ (d.sd 1 5).stuckVal = true ∧ d.on p (F.SD_FC_FC_EN.at 160) = false) ∧
    (let d := (base 200 full [(p, F.SD_FC_FC_EN.at 160, 1)]).dev
     d.sdActive 1 5 = true ∧ d.on p (F.SD_FC_FC_EN.at 160) = true ∧ 16 ≤ d.tick ∧ d.sdInstants 1 5 (d.tick - 16) ≠ 0 ∧
     d.sdInstants 1 5 (d.tick - 16) ≤ (d.sd 1 5).got) := by decide

theorem witness_TimerChannels :
    let p := tmrPage 1 31
    let t := fun (l : List (Fld × Nat)) => mod (at_ 100 (st [p] [])) fun d => l.foldl (fun d x => d.setTf 1 31 x.1 x.2) d
    let idle := fun (s : State) => !s.dev.live p || s.dev.tf 1 31 F.TMR_CFG_MODE != 2 || s.dev.atTick.tf 1 31 F.TMR_ST_ARMED != 1 ||
      s.dev.count < s.dev.atTick.tmrCmp 1 31 || s.dev.acted 1 63
    let due := t [(F.TMR_CFG_MODE, 2), (F.TMR_ST_ARMED, 1)]
    let c := mod (t [(F.TMR_CFG_MODE, 1), (F.TMR_CFG_EDGE, 3), (F.TMR_ST_NEW, 1)]) fun d => { d with tio := [(8, { sync := true })] }
    let r := ballFilter (c.dev.tf 1 31 F.TMR_CFG_FILT_N) (c.dev.tf 1 31 F.TMR_ST_LEVEL == 1) (c.dev.tmr 1 31).run (c.dev.ball 1 0).sync
    Clocked (t []) ∧ idle (t []) = true ∧ idle due = false ∧ (due.dev.tmr 1 31).armTick ≠ due.dev.tick + 1 ∧
    due.dev.landedAt (p + 0x108 + 0x1C0) 8 = [] ∧ due.dev.committed (p + 0x108 + 0x1C0) = false ∧
    Accepts (st [] []) .boot (pageTimer 1 31) (0x108 + 0x1C0) 8 (2 ^ 64 - 1) ∧
    c.dev.tioDrivers 1 0 (fun q => c.dev.live (pgTmr 1 q)) = 0 ∧
    (let d := (mod due fun d => (d.setTf 1 31 F.TMR_CFG_OUT_EN 1).setTmr 1 31 { sampleAt := 101 }).dev
     d.tioDrivers 1 0 (fun q => d.live (pgTmr 1 q)) ≠ 0 ∧ d.tick < (d.tmr 1 31).sampleAt) ∧
    c.dev.live p = true ∧ c.dev.tf 1 31 F.TMR_CFG_MODE = 1 ∧ (c.dev.tmr 1 31).sampleAt ≤ c.dev.tick ∧
    r.1 = true ∧ r.1 ≠ (c.dev.tf 1 31 F.TMR_ST_LEVEL == 1) ∧
    edgeQualifies (c.dev.tf 1 31 F.TMR_CFG_EDGE) true = true ∧ (c.dev.tmr 1 31).presc = c.dev.tf 1 31 F.TMR_CFG_PRESC := by decide

theorem witness_EncodersCount :
    let p := pgEnc 15
    let s := fun t (x : Enc) => at_ t (mod (st [p] []) fun d => { d with encs := [(15, x)] })
    let up : BallIn := { sync := true }
    let f := fun (s : State) l r b => (ballFilter (s.dev.f p F.ENC_CTRL_FILT_N) l r b).1
    Clocked (s 0 {}) ∧ (s 0 {}).dev.live p = true ∧ (s 0 {}).dev.f p F.ENC_CTRL_MODE = 0 ∧
    ((st [] []).dev.live p && decide (((st [] []).dev.enc 15).sampleAt ≤ 0)) = false ∧
    (let d := (s 0 { ballA := up, ballB := up }).dev
     d.live p = true ∧ (d.enc 15).sampleAt ≤ d.tick ∧ f (s 0 {}) (d.enc 15).a (d.enc 15).runA (d.enc 15).ballA.sync ≠ (d.enc 15).a ∧
     f (s 0 {}) (d.enc 15).b (d.enc 15).runB (d.enc 15).ballB.sync ≠ (d.enc 15).b ∧
     f (s 0 {}) (d.enc 15).i (d.enc 15).runI (d.enc 15).ballI.sync = (d.enc 15).i) ∧
    (let d := (s 0 { ballA := up }).dev
     f (s 0 {}) (d.enc 15).a (d.enc 15).runA (d.enc 15).ballA.sync ≠ (d.enc 15).a ∧
     f (s 0 {}) (d.enc 15).b (d.enc 15).runB (d.enc 15).ballB.sync = (d.enc 15).b) ∧
    (let d := (s 0 { ballI := up }).dev
     f (s 0 {}) (d.enc 15).a (d.enc 15).runA (d.enc 15).ballA.sync = (d.enc 15).a ∧
     f (s 0 {}) (d.enc 15).i (d.enc 15).runI (d.enc 15).ballI.sync ≠ (d.enc 15).i ∧
     (f (s 0 {}) (d.enc 15).i (d.enc 15).runI (d.enc 15).ballI.sync != d.on p F.ENC_CTRL_IDX_POL) = true) ∧
    ((s (2 ^ 32 + 5) { edge := some 5 }).dev.enc 15).edge = some 5 ∧ ((s 0 { preset := some 7 }).dev.enc 15).preset = some 7 ∧
    Accepts (st [] []) .boot (pageEnc 15) 0x48 4 5 := by decide

/-! Watchdogs and links (13, 14) -/

/-- The watchdog of core 4 with a window from 1 µs to 2 µs. -/
def guarding (l : List (Fld × Nat)) : State :=
  setFs (List.map (fun x => (pgWdCore 4, x.1, x.2)) ((F.WD_MIN_MIN, 1) :: (F.WD_MAX_MAX, 2) :: l)) (st [pgWdCore 4] [])

/-- Core 4 as the sender of a write. -/
def core4 : Who := ⟨5, some 1, true⟩

theorem witness_WatchdogsExpire :
    let due := fun (s : State) => s.dev.live (pgWdCore 4) && !s.dev.on (pgWdCore 4) F.WD_STATUS_EXPIRED &&
      decide (6000 * s.dev.f (pgWdCore 4) F.WD_MAX_MAX ≤ s.dev.wdElapsed (.core 4))
    Accepts (guarding []) core4 (pageWdCore 4) 0x4C 4 0xC0FFEE ∧ (guarding []).dev.live (pgWdCore 4) = true ∧
    Table.get 0 (guarding []).dev.wds (64 + 4) ≠ (guarding []).dev.tick + 1 ∧ Clocked (guarding []) ∧ due (at_ 11999 (guarding [])) = false ∧
    due (at_ 12000 (guarding [(F.WD_CTRL_ACTION, 2)])) = true ∧
    Accepts (guarding [(F.WD_STATUS_EXPIRED, 1)]) core4 (pageWdCore 4) 0x50 4 1 ∧
    Accepts (st [] []) core4 (pageWdCas 15) 0x50 4 1 := by decide

/-- Link 3 enabled in a state of its controller, at tick 100. -/
def linked (state : Nat) (fs : List (Nat × Fld × Nat)) (x : Tl) : State :=
  mod (setFs ((pgTlc 3, F.TLC_STATUS_LSTATE, state) :: fs) (at_ 100 (st [pgTlc 3, pgTlnb 3, pgTltt 3] []))) fun d => d.setTl 3 x

/-- Link 3 locked, at a slot of 40 µs, with nothing in urgency. -/
def locked (x : Tl) : State := linked 5 [(pgTlnb 3, F.NB_CFG_NCH, 8), (pgTlc 3, F.TL_CTRL_SLOT, 40)] x

/-- A gate command of channel 2. -/
def gate : GateCmd := ⟨2, true, 50, none, 90⟩

/-- The safe states of casement 1 all low, with group 0 enabled. -/
def safe (s : State) : State := mod s fun d => (regs d [(pgCasSrc 1 + 8, 1), (pgGroup 0 + 8, 1)]).forN 64 fun i d => d.setReg (pgCasSrc 1 + 0x40 + 4 * i) 0

theorem witness_LinkSends :
    let free := fun (x : Tl) (k : TxKind) => (locked x).dev.txFree 3 = true ∧ (locked x).dev.txNext 3 = some k
    Clocked (locked {}) ∧ (locked { frameEnd := 101 }).dev.txFree 3 = false ∧ free { urgent := some 90 } .urgent ∧ free { sync := some 90 } .routine ∧
    free { copy := some [1, 2, 3] } .gate ∧ free { gates := [gate] } .gate ∧ (safe (locked { gates := [gate] })).dev.gateRefusal 3 2 = none ∧
    (safe (locked { gates := [gate] })).dev.txNext 3 = some .gate ∧
    free { reqs := [(90, false)] } .timeReq ∧ free { bindAt := some 90, heldId := 5 } .bind ∧ free { unbindAt := some (90, 77) } .unbind ∧
    free { samples := [(90, 77)] } .sample ∧ free { users := [(90, [1, 2, 3])] } .user ∧ (locked {}).dev.live (pgTlc 3) = true ∧
    (locked {}).dev.tlSlot 3 ≠ 0 ∧ 1 < (locked { slotNo := 1 }).dev.count / (locked {}).dev.tlSlot 3 ∧
    (locked {}).dev.count / (locked {}).dev.tlSlot 3 ≤ ((locked { slotNo := 2 }).dev.tl 3).slotNo := by decide

theorem witness_LinkReceives :
    let s := fun n x => linked n [(pgTlc 3, F.TLC_STATUS_ALIGNED, 1), (pgTlnb 3, F.NB_CFG_NVAL, 64)] x
    Clocked (s 1 {}) ∧ (s 1 {}).dev.live (pgTlc 3) = true ∧ (linked 1 [] {}).dev.on (pgTlc 3) F.TLC_STATUS_ALIGNED = false ∧
    (s 1 {}).dev.on (pgTlc 3) F.TLC_STATUS_ALIGNED = true ∧ ((s 1 { rxSeq := some 255 }).dev.tl 3).rxSeq = some 255 ∧
    ((s 1 {}).dev.tl 3).rxSeq = none ∧ (s 1 {}).dev.lstate 3 = 1 ∧ (s 4 {}).dev.tlBound 3 = true ∧ ((s 4 {}).dev.tl 3).status = none ∧
    (s 3 { heldId := 7, bindDue := 100 }).dev.lstate 3 = 3 ∧ (s 3 { heldId := 7, bindDue := 100 }).dev.tick ≤ 100 ∧
    ((s 4 {}).dev.tl 3).outstanding.find? (fun o => o.1 == 7) = none ∧
    ((s 4 { outstanding := [(7, 77, 200)] }).dev.tl 3).outstanding.find? (fun o => o.1 == 7) = some (7, 77, 200) ∧
    (s 4 { outstanding := [(7, 77, 200)] }).dev.tlBound 3 = true ∧ 63 < (s 4 {}).dev.f (pgTlnb 3) F.NB_CFG_NVAL := by decide

theorem witness_LinkBinding :
    let s := fun n x => linked n [] x
    let mis := mod (s 2 {}) fun d => d.setReg (pgTlnb 3 + 0x48) 5
    let many := setFs [(pgTlnb 3, F.NB_CFG_NCH, 5)] (s 2 {})
    Accepts (s 2 {}) .boot (pageTlnb 3) 0x60 4 1 ∧ (s 2 {}).dev.lstate 3 = 2 ∧ (s 1 {}).dev.lstate 3 ≠ 2 ∧
    (s 2 {}).dev.r64 (pgTlnb 3) 0x48 = (s 2 {}).dev.r64 (pgTlnb 3) 0x58 ∧ mis.dev.r64 (pgTlnb 3) 0x48 ≠ mis.dev.r64 (pgTlnb 3) 0x58 ∧
    Accepts mis .boot (pageTlnb 3) 0x60 4 1 ∧ Accepts many .boot (pageTlnb 3) 0x60 4 1 ∧
    many.dev.f (pgTlnb 3) F.NB_ANN_CLASS_NCH < many.dev.f (pgTlnb 3) F.NB_CFG_NCH ∧
    (s 2 {}).dev.f (pgTlnb 3) F.NB_CFG_NCH ≤ (s 2 {}).dev.f (pgTlnb 3) F.NB_ANN_CLASS_NCH ∧
    (s 2 {}).dev.f (pgTlnb 3) F.NB_CFG_NVAL ≤ (s 2 {}).dev.f (pgTlnb 3) F.NB_ANN_CLASS_NVAL ∧
    Accepts (s 5 {}) .boot (pageTlnb 3) 0x60 4 2 ∧ Accepts (s 6 {}) .boot (pageTlnb 3) 0x60 4 2 ∧ Accepts (s 2 {}) .boot (pageTlnb 3) 0x60 4 4 ∧
    Clocked (s 2 {}) ∧ (s 3 { bindDue := 99 }).dev.tick > 99 ∧ (s 3 { bindDue := 100 }).dev.tick ≤ 100 ∧
    (s 2 {}).dev.tick < 180000 ∧ 180000 ≤ (at_ 180000 (s 2 {})).dev.tick ∧ (at_ 180000 (s 2 {})).dev.lstate 3 = 2 ∧
    ((s 4 {}).dev.tl 3).outstanding.find? (fun o => o.2.2 < 100) = none ∧
    ((s 4 { outstanding := [(7, 77, 99)] }).dev.tl 3).outstanding.find? (fun o => o.2.2 < 100) = some (7, 77, 99) ∧
    (s 2 {}).dev.tlBound 3 = false ∧ (s 5 { silent := 200 }).dev.tlBound 3 = true ∧
    (s 5 { silent := 200 }).dev.f (pgTlc 3) F.TL_CTRL_DET_SLOTS ≤ 200 ∧ (s 6 { resumeDue := 100 }).dev.lstate 3 = 6 ∧
    (s 6 { resumeDue := 101 }).dev.tick < 101 := by decide

/-! Sahxel cores (15 to 19) -/

/-- A capability over all of memory, at the start of a program in Core SRAM. -/
def root : Capability := { addr := 0x10001000, perms := 0xFFFF, xp := 34, tag := true }

/-- The same at another address. -/
def rootAt (a : Nat) : Capability := { root with addr := BitVec.ofNat 64 a }

/-- Registers of a running program with its stacks and capabilities in Core SRAM. -/
def arch : Arch := {
  a := 0x1234, x := 0x10002000, y := 0x10003010, dsp := 0x10004000, dspLim := 0x10003F00, rsp := 0x10005000, rspLim := 0x10004F00
  pcc := root, ddc := root
  caps := [(1, rootAt 0x10002040), (2, rootAt 0x10002080), (3, { rootAt 0x10002080 with sealing := 1, otype := 5 })] }

/-- Core `k` running in a state, at tick 100. -/
def coreIn (k : Nat) (f : Core → Core) : State :=
  mod (at_ 100 (st [] [])) fun d => d.setCore k (f { arch := arch, running := true, maskInt := true })

/-- Core 0 with registers changed. -/
def core (f : Arch → Arch) : State := coreIn 0 fun c => { c with arch := f c.arch }

/-- A part of an instruction meets no fault. -/
def ran {α : Type} (x : Act α) : Bool := match x.out with | .ok _ => true | .error _ => false

/-- The value of a part that meets no fault. -/
def value {α : Type} (x : Act α) : Option α := match x.out with | .ok a => some a | .error _ => none

theorem ran_ok {α : Type} (x : Act α) (h : ran x = true) : ∃ a, x = x.dev.ok a := by
  obtain ⟨d, _ | a⟩ := x
  · cases h
  · exact ⟨a, rfl⟩

/-- The device after the fetch of core `k`. -/
def fetched (s : State) (k n : Nat) : Dev := ((s.dev.setCore k (s.dev.core k).collect).fetch k n).dev

/-- Core `k` is ready and its fetch meets no fault. -/
def begins (s : State) (k n : Nat) : Bool := s.dev.coreReady k && ran ((s.dev.setCore k (s.dev.core k).collect).fetch k n)

/-- The witness of a hypothesis `Begun`. -/
theorem begun_of_begins (s : State) (k n : Nat) (h : begins s k n = true) : Begun s k n (fetched s k n) := by
  simp only [begins, Bool.and_eq_true] at h
  obtain ⟨u, hu⟩ := ran_ok _ h.2
  exact ⟨h.1, hu⟩

theorem witness_FetchKeepsRegisters : begins (core id) 0 4 = true ∧ begins (core id) 0 8 = true ∧ begins (coreIn 4 id) 4 4 = true := by decide

theorem witness_EffectiveAddresses : (arch.ea ⟨3, 9, 2, 0xFFFC⟩).map Ea.addr = some 0x1000207C ∧ arch.ea ⟨3, 0, 0, 0⟩ = none ∧
    arch.ea ⟨3, 15, 0, 0⟩ = none := by decide

theorem witness_LoadsAndStores :
    let d := (core id).dev
    (d.arch 0).xlateOn = false ∧ isDevice 0x11FFFFF8 = false ∧ root.check .read 0x11FFFFF8 8 = none ∧ root.check .write 0x11FFFFF8 8 = none ∧
    d.memCause 0x11FFFFF8 8 false false = none ∧ d.memCause 0x11FFFFF8 8 true false = none ∧
    ({ root with tag := false }.check .read 0x11FFFFF8 8).isSome = true ∧ ({ root with perms := 1 }.check .write 0x11FFFFF8 8).isSome = true := by
  decide

/-- The fetched device of core 0. -/
def d0 : Dev := fetched (core id) 0 4

/-- Addressing modes 1, 5, 6, 7, 8 and 9, and the immediate. -/
def modes : List MOperand := [⟨3, 1, 0, 0⟩, ⟨2, 5, 0, 0⟩, ⟨1, 6, 0, 0⟩, ⟨3, 7, 0, 8⟩, ⟨3, 8, 0, 8⟩, ⟨2, 9, 1, 0⟩, ⟨3, 0, 0, 5⟩]

theorem witness_RegisterLoadsAndStores : begins (core id) 0 4 = true ∧ (modes.all fun m => ran (d0.readOperand 0 m)) = true ∧
    ((modes.take 4).all fun m => match value (d0.storeEa 0 m) with
      | some ea => ran ((d0.storeEa 0 m).dev.storeVal 0 ea.cap ea.reg ea.addr.toNat (szBytes m.sz) 0x1234 false)
      | none => false) = true ∧
    (d0.arch 0).ea ⟨0, 1, 0, 0⟩ ≠ none ∧ (d0.arch 0).ea ⟨1, 1, 0, 0⟩ ≠ none ∧ (d0.arch 0).ea ⟨2, 5, 0, 0⟩ ≠ none ∧
    (d0.arch 0).ea ⟨3, 10, 0, 0⟩ = none := by decide

theorem witness_OperandArithmetic : begins (core id) 0 4 = true ∧ (value (d0.readOperand 0 ⟨3, 0, 0, 0xFFFF⟩)).map (·.1) = some (-1) ∧
    (value (d0.readOperand 0 ⟨3, 1, 0, 0⟩)).map (·.1) = some 0 := by decide

/-- The outcome of a double operation. -/
def fp (op a v : Nat) := f64arith op (unpackF 11 52 a) (fpOperand false (BitVec.ofNat 64 v)) (fpSignal false (BitVec.ofNat 64 a) || fpSignal false (BitVec.ofNat 64 v))

theorem witness_FloatingPoint : begins (core id) 0 4 = true ∧ ran (d0.readOperand 0 ⟨3, 1, 0, 0⟩) = true ∧ ran (d0.readOperand 0 ⟨2, 1, 0, 0⟩) = true ∧
    fp 0 0x3FF0000000000000 0x3FF0000000000000 = .num 0x4000000000000000 ∧ fp 2 0 0x7FF0000000000000 = .invalid ∧
    fp 0 0x7FEFFFFFFFFFFFFF 0x7FEFFFFFFFFFFFFF = .overflow false ∧ fp 0 0x7FF8000000000000 0 = .quiet ∧
    f64compare (unpackF 11 52 0) (fpOperand false 0x3FF0000000000000) = some .lt := by decide +kernel

theorem witness_RegisterGroup : begins (core id) 0 4 = true := by decide

theorem witness_ImmediateGroups : begins (core id) 0 4 = true ∧ begins (core id) 0 8 = true := by decide

theorem witness_Stacks :
    let full := core fun a => { a with dspLim := 0x10003FF9 }
    let back := fetched (mod (core id) fun d => d.store 0x10005000 8 0x10001000) 0 4
    let tagged := fetched (mod (core id) fun d => d.setTag 0x10005000 true) 0 4
    begins (core id) 0 4 = true ∧ (d0.arch 0).dspLim.toNat ≤ ((d0.arch 0).dsp - 8).toNat ∧
    ran (d0.storeVal 0 root 17 0x10003FF8 8 0x1234 false) = true ∧ begins full 0 4 = true ∧
    (((fetched full 0 4).arch 0).dsp - 8).toNat < ((fetched full 0 4).arch 0).dspLim.toNat ∧ ran (d0.loadVal 0 root 17 0x10004000 8) = true ∧
    ran (back.slotOk 0 0x10005000 false) = true ∧ (back.slotOk 0 0x10005000 false).dev.tag 0x10005000 = false ∧
    (back.slotOk 0 0x10005000 false).dev.poisonedRange 0x10005000 16 = false ∧
    ran ((back.slotOk 0 0x10005000 false).dev.targetOk 0 (BitVec.ofNat 64
      (valueLE ((back.slotOk 0 0x10005000 false).dev.memBytes 0x10005000 8)))) = true ∧
    ran (tagged.slotOk 0 0x10005000 false) = true ∧ (tagged.slotOk 0 0x10005000 false).dev.tag 0x10005000 = true := by decide

theorem witness_BranchesAndCalls :
    let low := fetched (core fun a => { a with rspLim := 0x10004FF1 }) 0 4
    begins (core id) 0 4 = true ∧ ran (d0.targetOk 0 0x10001004) = true ∧ (d0.arch 0).st.getLsbD 1 = false ∧
    (d0.arch 0).ea ⟨3, 1, 0, 0⟩ ≠ none ∧ ran (d0.targetOk 0 0x10002000) = true ∧ (d0.arch 0).rspLim.toNat ≤ ((d0.arch 0).rsp - 16).toNat ∧
    ran (d0.slotOk 0 0x10004FF0 true) = true ∧ ran ((d0.slotOk 0 0x10004FF0 true).dev.targetOk 0 0x10002000) = true ∧
    ¬ (low.arch 0).rspLim.toNat ≤ ((low.arch 0).rsp - 16).toNat := by decide

theorem witness_BlockInstructions :
    let zero := core fun a => { a with a := 0 }
    let skew := core fun a => { a with x := 0x10002001 }
    begins zero 0 4 = true ∧ ((fetched zero 0 4).arch 0).a = 0 ∧ begins (core id) 0 4 = true ∧ (d0.arch 0).a ≠ 0 ∧
    (d0.arch 0).x.toNat % 8 = 0 ∧ (d0.arch 0).y.toNat % 8 = 0 ∧ ran (d0.loadRaw 0 root 17 0x10002000 8) = true ∧
    ran ((d0.loadRaw 0 root 17 0x10002000 8).dev.storeVal 0 root 17 0x10003010 8 0 false) = true ∧
    ran (d0.storeVal 0 root 17 0x10002000 8 0x10003010 false) = true ∧ ran (d0.loadVal 0 root 17 0x10002000 8) = true ∧
    begins skew 0 4 = true ∧ ((fetched skew 0 4).arch 0).x.toNat % 8 ≠ 0 := by decide

theorem witness_Atomics :
    let held := fetched (coreIn 0 fun c => { c with resv := some 0x400080 }) 0 4
    begins (core id) 0 4 = true ∧ (value (d0.atomicAt 0 ⟨0, 1, 0, 0⟩ true)).map (·.1) = some 0x10002000 ∧
    ((d0.atomicAt 0 ⟨0, 1, 0, 0⟩ true).dev.getMem true 0x10002000 1).2.2 = false ∧ ran (d0.atomicAt 0 ⟨3, 1, 0, 0⟩ true) = true ∧
    ((d0.atomicAt 0 ⟨3, 1, 0, 0⟩ true).dev.getMem true 0x10002000 8).2.2 = false ∧
    ((d0.atomicAt 0 ⟨3, 1, 0, 0⟩ true).dev.core 0).resv ≠ some (0x10002000 / 64) ∧ ran (held.atomicAt 0 ⟨3, 1, 0, 0⟩ true) = true ∧
    ((held.atomicAt 0 ⟨3, 1, 0, 0⟩ true).dev.core 0).resv = some (0x10002000 / 64) := by decide

/-- The code and data capabilities of a door. -/
def doorCap : Capability := { root with sealing := 2, otype := 9 }

theorem witness_DoorsTrapsAndReturns :
    let s := fun (f : Arch → Arch) => core fun a => f { a with doors := [(6, doorCap), (7, doorCap)] }
    let r := fetched (s fun a => { a with occ := 8, st := 0x300, sets := [(3, { pc := 0x10007000, pcc := root, ddc := root, st := 0x91F, a := 7 })] }) 0 4
    begins (s id) 0 4 = true ∧ ((s id).dev.arch 0).arithPend = false ∧ ((s id).dev.arch 0).doorAttr.getLsbD 3 = false ∧
    doorUsable doorCap doorCap = true ∧ (((s id)).dev.arch 0).depth.toNat < 4 ∧ doorUsable {} {} = false ∧
    ran ((fetched (s id) 0 4).translate 0 0x10002000 0) = true ∧ root.check .read 0x10002000 1 = none ∧
    ((s fun a => { a with doorAttr := 8 }).dev.arch 0).doorAttr.getLsbD 3 = true ∧ begins (s fun a => { a with doorAttr := 8 }) 0 4 = true ∧
    (fetched (s id) 0 4).stepping 0 = false ∧ begins (s fun a => { a with links := [(root, root)], depth := 4 }) 0 4 = true ∧
    ((s id).dev.arch 0).depth = 0 ∧ r.rteFailure 0 (r.arch 0).lvl = none ∧
    ((fetched (s id) 0 4).rteFailure 0 ((fetched (s id) 0 4).arch 0).lvl).isSome = true := by decide

theorem witness_RemoteDoorsEnd :
    let wait := fun (s : State) => mod s fun d =>
      ({ d with dreqs := [(3, { type := BitVec.ofNat 64 (2 ^ 31 + 9) })] } : Dev).setCore 3 { arch := arch, running := true, doorWait := some 50 }
    let s := wait (coreIn 4 id)
    let late := at_ 5000000 s
    Clocked late ∧ late.dev.coreRuns 3 = true ∧ (late.dev.core 3).doorWait = some 50 ∧
    50 + 6000 * late.dev.f (pgIntc 3) F.RDOOR_TMO_TMO ≤ late.dev.tick ∧ begins s 4 4 = true ∧
    ((fetched s 4 4).arch 4).pcc.has permSysreg = true ∧ bitAt (Table.get ({} : DoorReq) (fetched s 4 4).dreqs 3).type 31 = true ∧
    (fetched s 4 4).on (pgIntc 3) F.LS_STAT_RECOVERING = false ∧ ((fetched s 4 4).core 3).doorWait.isSome = true := by decide

/-- A vector of two tagged capabilities at the start of the vectors. -/
def vectored : State := mod (core fun a => { a with trapBase := rootAt 0x10008000 }) fun d =>
  [0x10008000, 0x10008010].foldl (fun d p => (d.setBytes p (bytesLE 16 root.bits)).setTag p true) d

theorem witness_ExceptionEntry : (vectored.dev.arch 0).occ.getLsbD 7 = false ∧ (vectored.dev.vectorAt 0 0).isSome = true := by decide

theorem witness_ExceptionReturn :
    let d := (core fun a => { a with occ := 0x80, st := 0x700, sets := [(7, { pc := 0x10007000, pcc := root, ddc := root, st := 0x91F })] }).dev
    d.rteFailure 0 7 = none ∧ (d.arch 0).spill.getLsbD 7 = false := by decide

theorem witness_CapabilityInstructions :
    let sealed : Capability := { root with sealing := 1, otype := 5 }
    begins (core id) 0 4 = true ∧ ran (d0.capCheckAt (rootAt 0x10002080) 2 .fetch 0x10002080 4) = true ∧
    ran ((d0.capCheckAt (rootAt 0x10002080) 2 .fetch 0x10002080 4).dev.translate 0 0x10002080 2) = true ∧
    (root.lock (rootAt 5) 5 false).toOption.isSome = true ∧ (sealed.unlock (rootAt 5)).toOption.isSome = true ∧
    (({} : Capability).lock root 5 false).toOption = none ∧ (root.unlock root).toOption = none := by decide

theorem witness_CapabilitiesNeverGrow : (root.lock (rootAt 5) 5 true).toOption.isSome = true ∧
    (({ root with sealing := 1, otype := 5 } : Capability).unlock (rootAt 5)).toOption.isSome = true := by decide

theorem witness_CapabilitiesInMemory :
    let o : KOperand := ⟨4, 1, 2, 0⟩
    let weak := core fun a => { a with x := 0, caps := [(1, { rootAt 0x10002040 with perms := 3 }), (4, root)] }
    let w := (fetched weak 0 4).arch 0
    begins (core id) 0 4 = true ∧ ran (d0.access 0 root 1 .read ((d0.arch 0).kaddr o).1.toNat 16 0) = true ∧
    isDevice ((d0.arch 0).kaddr o).1.toNat = false ∧ d0.memCause ((d0.arch 0).kaddr o).1.toNat 16 false false = none ∧
    (d0.getMem true ((d0.arch 0).kaddr o).1.toNat 16).2.2 = false ∧ ((d0.arch 0).kaddr o).1.toNat % 16 = 0 ∧
    lacksStoreCap ((d0.arch 0).kaddr o).2.1 true ((d0.arch 0).kaddr o).1.toNat = false ∧
    ran (d0.access 0 ((d0.arch 0).kaddr o).2.1 1 .write ((d0.arch 0).kaddr o).1.toNat 16 1) = true ∧
    d0.memCause ((d0.arch 0).kaddr o).1.toNat 16 true false = none ∧ begins weak 0 4 = true ∧ (w.cap 4).tag = true ∧
    (w.kaddr o).2.1.check .write (w.kaddr o).1.toNat 16 = none ∧ (w.kaddr o).2.1.has permStoreCap = false ∧ (w.kaddr o).1.toNat % 16 = 0 := by
  decide

theorem witness_SystemRegisterMoves :
    let bare := core fun a => { a with pcc := { root with perms := 0x1F } }
    begins (core id) 0 4 = true ∧ root.has permSysreg = true ∧ root.has permTlb = true ∧ (d0.sysRead 0 0x19).isSome = true ∧
    isRep 0 0x19 = false ∧ (d0.sysWrite 0 0x19 0).toOption.isSome = true ∧ (d0.sysWrite 0 1 1).toOption = none ∧ d0.sysRead 0 0xFFF = none ∧
    begins bare 0 4 = true ∧ ((fetched bare 0 4).arch 0).pcc.has permSysreg = false ∧ sysCap 0x10 = true := by decide

theorem witness_SystemRegisters : (0x11FFFFF0 : W64).toNat % 16 = 0 ∧ (0x11FFFFF0 : W64).toNat < 0x12000000 := by decide

theorem witness_TranslationOffAndRange : (d0.arch 0).xlate.getLsbD 0 = false := by decide

/-- A locked entry of one page. -/
def entry (vpn slot : Nat) : TlbEntry := { asid := 0, glob := false, big := false, vpn := vpn, ppn := 0x10008, w := true, x := true, slot := some slot }

theorem witness_TranslationFromTlb :
    let d := (coreIn 0 fun c => { c with tlb := [entry 0x10002 3], arch := { c.arch with xlate := 1 } }).dev
    (d.arch 0).xlateOn = true ∧ (entry 0x10002 3).hits 0x10002123 (d.arch 0).asid = true ∧ (entry 0x10003 4).hits 0x10002123 0 = false ∧
    (entry 0x10002 3).allows 0 = true ∧ (entry 0x10002 5).hits 0x10002123 0 = true := by decide

/-- A page table whose entry for 0x10002 names the page itself. -/
def paged : State := mod (core fun a => { a with ttb := rootAt 0x10006000 }) fun d =>
  ((d.store 0x10006000 8 0x10006001).store 0x10006400 8 0x10006001).store 0x10006010 8 0x10002007

theorem witness_TlbOperations :
    let bare := core fun a => { a with pcc := { root with perms := 0x11F } }
    let some3 := fetched (coreIn 0 fun c => { c with tlb := [entry 0x10002 3] }) 0 4
    begins paged 0 4 = true ∧ ((fetched paged 0 4).arch 0).pcc.has permTlb = true ∧ ran ((fetched paged 0 4).walk 0 0x10002000 0 0 (some 4)) = true ∧
    (∀ e ∈ (d0.core 0).tlb, e.hits 0x10002000 0 = false) ∧ (some3.core 0).tlb = [entry 0x10002 3] ∧
    (entry 0x10002 3).hits 0x10002000 (some3.arch 0).asid = true ∧ begins bare 0 4 = true ∧ ((fetched bare 0 4).arch 0).pcc.has permTlb = false := by
  decide

/-- An outstanding result, landed or not. -/
def result (landed : Bool) : CpOp := ⟨2, 77, 8, 0, landed, false⟩

theorem witness_CpWait :
    let wait := coreIn 0 fun c => { c with cps := [result false] }
    let done := coreIn 0 fun c => { c with cps := [result true] }
    (∃ o ∈ (wait.dev.core 0).cps, o.landed = false) ∧ (∀ o ∈ (done.dev.core 0).cps, o.landed = true) ∧ begins done 0 4 = true := by decide

theorem witness_CheckpointInstruction : ((coreIn 0 fun c => { c with cps := [result false] }).dev.core 0).outstanding = true ∧
    ((core id).dev.core 0).outstanding = false ∧ begins (core id) 0 4 = true := by decide

theorem witness_ResultsLandInOrder : Clocked (core id) ∧
    ((coreIn 0 fun c => { c with cps := [result true, result false] }).dev.core 0).cps = [result true] ++ result false :: [] := by decide

/-- A pulse of an event that every consumer sees by now. -/
def seen (d : Dev) (e : Nat) : Dev := { d.pulse e with recent := [] }

/-- Source 0 of core 0's controller enabled at level 5 and pending. -/
def source (s : State) : State := mod s fun d => seen (regs d [(pgIntc 0 + 8, 1), (pgIntsrc 0 0 + 8, 1), (pgIntsrc 0 0 + 0x40, 43)]) 0

theorem witness_WaitForInterrupt :
    let s := source (coreIn 0 fun c => { c with wfi := true })
    begins (core id) 0 4 = true ∧ d0.stepping 0 = false ∧ d0.wakes 0 = false ∧ begins (source (core id)) 0 4 = true ∧
    (fetched (source (core id)) 0 4).wakes 0 = true ∧ s.dev.coreRuns 0 = true ∧ (s.dev.core 0).wfi = true ∧ s.dev.wakes 0 = true := by decide

theorem witness_CoprocessorPort :
    let page := fun p : Nat => ({ rootAt p with sealing := 1, otype := 9 } : Capability)
    let s := fun (a p : Nat) => mod (core fun r => { r with a := BitVec.ofNat 64 a, x := 0, caps := [(1, page p)] }) fun d =>
      [pgJq 1, pgSash 5, pgSill 0].foldl (fun d p => d.setF p F.H_OTYPE 9) (regs d [(pgJq 1 + 8, 1), (pgSill 0 + 8, 1)])
    let passes := fun (a p off len : Nat) (write : Bool) => begins (s a p) 0 4 = true ∧ (fetched (s a p) 0 4).portCause 0 (page p) p off len write = none
    ((s 0 0).dev.core 0).cps = [] ∧ (fetched (s 0 0) 0 4).stepping 0 = false ∧ passes 0x103 (pgJq 1) 0x48 8 true ∧
    passes 0x103 (pgJq 1) (0x100 + 4 * (3 / 4)) 4 false ∧ passes 0x105 (pgSash 5) 0 4 false ∧ bitsOf (0x105 : W64) 6 2 = 0 ∧
    bitsOf (0x20005 : W64) 16 2 = 2 ∧ passes 0x20005 (pgSash 5) 0 4 false ∧ passes 0 (pgSill 0) 0x40 8 true ∧ passes 3 (pgSill 0) 0x4C 4 false ∧
    passes 3 (pgSill 0) 0x58 4 true ∧ bitsOf (0x20000 : W64) 17 47 ≠ 0 ∧
    ((fetched (s 0 (pgSill 0)) 0 4).sillStart 0 0).2.toOption = none := by decide

theorem witness_InterruptsAndExceptions :
    let s := source (core fun a => { a with st := 0x800, trapBase := rootAt 0x10008000 })
    let due := at_ 7000 (setFs [(pgIntc 0, F.LS_INTERVAL_INTERVAL, 1)] (core id))
    s.dev.coreRuns 0 = true ∧ (s.dev.core 0).arch.ie = true ∧ (s.dev.core 0).arch.arithPend = false ∧ (s.dev.core 0).doorWait = none ∧
    s.dev.sys.halted = false ∧ (s.dev.intTop 0).isSome = true ∧ (s.dev.core 0).arch.lvl < 5 ∧
    s.dev.on (pgIntc 0) F.LS_STAT_FAILED = false ∧ (core fun a => { a with arithPend := true }).dev.coreRuns 0 = true ∧ due.dev.chkDue 0 = true ∧
    due.dev.coreRuns 0 = true ∧ (core id).dev.intTop 0 = none := by decide

theorem witness_HighestSourceFirst : ((source (core id)).dev.intTop 0).isSome = true := by decide

/-- A start block at 0x10009000 for the held pair 3. -/
def block : State :=
  mod (setFs [(pgIntc 3, F.INTC_STATUS_HELD, 1)] (st [pgIntc 3] [])) fun d =>
    let d := (List.range 3).foldl (fun (d : Dev) i => (d.setBytes (0x10009000 + 16 * i) (bytesLE 16 root.bits)).setTag (0x10009000 + 16 * i) true) d
    ((((d.setR64 (pgIntc 3) 0x40 0x10009000).store 0x10009030 8 0x10005000).store 0x10009038 8 0x10004000).store 0x10009040 8 0x10004000).store
      0x10009048 8 0x10003000

theorem witness_CoreStart : Accepts block .boot (pageIntc 3) 0x48 4 1 ∧ block.dev.on (pgIntc 3) F.INTC_STATUS_HELD = true ∧
    block.dev.on (pgIntc 3) F.LS_STAT_FAILED = false ∧ block.dev.startOk 0x10009000 = true ∧
    (mod block fun d => d.store 0x10009030 8 5).dev.startOk 0x10009000 = false := by decide +kernel

theorem witness_LockstepRecovery :
    let r := setFs [(pgIntc 0, F.LS_STAT_RECOVERING, 1)] (coreIn 0 fun c => { c with record := some ⟨arch, [], none⟩ })
    Clocked r ∧ r.dev.domOn 0 = true ∧ ((703 : Fin 1088) < 704) ∧ ((4 : CoreId).val = 4) ∧ (r.dev.core 0).running = true ∧ r.dev.on (pgIntc 0) F.LS_STAT_FAILED = false ∧
    (core id).dev.on (pgIntc 0) F.LS_STAT_RECOVERING = false ∧ ((core id).dev.core 0).repeats < bitsOf ((core id).dev.lsCtrl 0) 4 4 ∧
    r.dev.on (pgIntc 0) F.LS_STAT_RECOVERING = true ∧ (r.dev.core 0).journal = [] ∧ r.dev.slotPoisoned 0 = false ∧
    (r.dev.core 0).record = some ⟨arch, [], none⟩ ∧ arch.tlbl = [] ∧ (r.dev.core 0).reply = none := by decide

theorem witness_PatrolScrubber : Clocked (st [] []) ∧ (st [] []).dev.domOn 4 = true := by decide

/-! HBM and the streamers (20) -/

/-- Stack 0 with its pages enabled, at tick 100. -/
def stack (f : Hbm → Hbm) : State := mod (at_ 100 (st [pgHbm 0, pgCode 0, pgScrub 0, pgSill 0] [])) fun d => d.setHbm 0 (f (d.hbm 0))

/-- A dirty merge-buffer entry last written at 90. -/
def dirty (page : Nat) : MbEntry := { page := page, complete := false, dirty := true, mask := 3, last := 90 }

theorem witness_RefreshRate : Clocked (stack id) ∧ (stack id).dev.domOn (domHbm 0) = true := by decide

theorem witness_HbmAccesses :
    let v := stack fun h => { h with valid := [(0, true)] }
    Reached (stack id) ∧ hbmBase 0 ≤ 0x1000000000 ∧ (stack id).dev.memCause 0x10000007F8 8 false false = none ∧
    Table.get false ((stack id).dev.hbm 0).valid 0 = false ∧ Table.get false (v.dev.hbm 0).valid 0 = true ∧ (v.dev.hbm 0).mb = [] ∧
    v.dev.f (pgHbm 0) F.HBM_CTRL_MODE = 0 ∧ v.dev.memCause 0x1000000000 64 false false = none ∧ v.dev.memCause 0x1000000000 64 true false = none ∧
    ((st [] []).dev.memCause 0x1000000000 64 false false).isSome = true ∧ ((st [] []).dev.memCause 0x1000000000 64 true false).isSome = true := by
  decide

theorem witness_HbmPages :
    let d := setFs [(pgHbm 0, F.HBM_MB_AGE_AGE, 0)] (stack fun h => { h with mb := [dirty 0, dirty 1] })
    let i := setFs [(pgHbm 0, F.HBM_INVAL_PAGES_PAGES, 3)] (mod (stack id) fun d => d.setR64 (pgHbm 0) 0x50 0x1000000800)
    Clocked d ∧ (d.dev.hbm 0).mb = [dirty 0] ++ dirty 1 :: [] ∧ 90 + 6000 * d.dev.f (pgHbm 0) F.HBM_MB_AGE_AGE ≤ d.dev.tick ∧
    Accepts (stack id) .boot (pageHbm 0) 0x40 4 6 ∧ Accepts i .boot (pageHbm 0) 0x5C 4 1 ∧ hbmBase 0 ≤ i.dev.r64 (pgHbm 0) 0x50 ∧
    i.dev.r64 (pgHbm 0) 0x50 < hbmBase 1 := by decide

theorem witness_HbmScrubbing :
    let p := setFs [(pgScrub 0, F.SCR_CTRL_PATROL_EN, 1)] (stack fun h => { h with valid := [(8388607, true)], scrubs := [(0, 1)] })
    Clocked p ∧ p.dev.live (pgScrub 0) = true ∧ p.dev.on (pgScrub 0) F.SCR_CTRL_PATROL_EN = true ∧ p.dev.live (pgHbm 0) = true ∧
    p.dev.live (pgCode 0) = true ∧ p.dev.f (pgHbm 0) F.HBM_CTRL_MODE = 0 ∧ Table.get false (p.dev.hbm 0).valid 8388607 = true ∧
    (p.dev.hbm 0).mb = [] ∧ Accepts (stack id) .boot (pageScrub 0) 0x54 4 1 ∧ (p.dev.hbm 0).scrubs = (0, 1) :: [] := by decide

/-- The words of a descriptor of two lines of Core SRAM, to `dst`. -/
def lines (dst : Nat) : List W32 := words [(0, 0x10003000), (2, dst), (4, 2), (5, 1), (8, 1)]

/-- A transfer of that descriptor. -/
def transfer (dst : Nat) (runs : Bool) : Transfer := { num := 3, words := lines dst, mark := 0, tick := 50, running := runs, copied := 0 }

theorem witness_StreamerTransfers :
    let s := mod (stack id) fun d => d.setBytes 0x10002000 ((lines 0x10004000).flatMap fun w => bytesLE 4 w.toNat)
    let q := fun t => stack fun h => { h with queue := [t], last := some 65535 }
    Accepts s .boot (pageSill 0) 0x40 8 0x10002000 ∧ (s.dev.sillJudge 0 0x10002000).toOption.isSome = true ∧
    (s.dev.sillJudge 0 0x10002004).toOption = none ∧ Clocked s ∧ s.dev.live (pgSill 0) = true ∧
    ((q (transfer 0x10004000 false)).dev.hbm 0).queue = [] ++ transfer 0x10004000 false :: [] ∧
    (q (transfer 0x10004000 false)).dev.sillReady (transfer 0x10004000 false) = true ∧
    (q (transfer 0x10004000 true)).dev.runningXfer 0 3 = some (transfer 0x10004000 true) ∧
    (q (transfer 0x10004000 true)).dev.failingLine (transfer 0x10004000 true) = none ∧ (transfer 0x10004000 true).fld 8 22 1 = 0 ∧
    (q (transfer 0 true)).dev.failingLine (transfer 0 true) = some 0 ∧
    (q (transfer 0 true)).dev.lineCause (transfer 0 true) 0 = some (4, 0, true) ∧
    ((q (transfer 0 true)).dev.copyTo (transfer 0 true) 0).on (pgSill 0) F.SILL_ERR_INFO_VALID = false ∧
    Accepts (q (transfer 0x10004000 false)) .boot (pageSill 0) 0x58 4 3 := by decide

/-! PCIe and DMA (21) -/

/-- Function 0 with its link up and a window over 4 KiB of Core SRAM for both directions. -/
def host : State := setFs [(pgPf 0, F.PF_STAT_LINK_UP, 1)] (st [pgPf 0] [(pgPf 0 + 0x80, 0x10002000), (pgPf 0 + 0x88, 0xEC)])

theorem witness_HostRequests : Reached host ∧ host.dev.domOn domHostio = true ∧ host.dev.on (pgPf 0) F.PF_STAT_LINK_UP = true ∧
    host.dev.on (pgPf 0) F.PF_STAT_D3 = false ∧ host.dev.bar2Accepted 0 0x10002FF8 8 true = true ∧ host.dev.rangeCause 0x10002FF8 8 true = none ∧
    host.dev.bar2Accepted 0 0x10002FF9 8 true = false ∧ host.dev.bar2Accepted 0 0x10002FF9 8 false = false ∧
    host.dev.bar2Accepted 0 0x10002FF8 8 false = true ∧ host.dev.rangeCause 0x10002FF8 8 false = none := by decide

theorem witness_PcieResetsAndLink : (st [] []).dev.domOn domHostio = true := by decide

/-- Vector 3 of function 0 watching an event that has asserted; `open_`: it may send. -/
def vector (open_ : Bool) : State :=
  mod (setFs [(pgPf 0, F.PF_STAT_BME, b2n open_)] (mod host fun d => d.setReg (pgPf 0 + 0x10C) 0x80000701)) fun d =>
    d.setPf 0 { msixEn := true, due := 8, table := [(15, 0)] }

/-- DMA channel 7 with one descriptor waiting. -/
def dma : State :=
  mod (setFs [(chPage 7, F.CH_EN_EN, 1), (chPage 7, F.CH_CFG_LOG2, 12), (chPage 7, F.CH_TAIL_TAIL, 1)] (st [pgDma] [])) fun d =>
    d.setR64 (chPage 7) 0 0x10002000

/-- A descriptor of 8 bytes into Core SRAM in progress on channel 7. -/
def moving (l : List (Nat × Nat)) : State := mod dma fun d => d.setDma 7 { words := words l }

theorem witness_MessagesAndDma :
    let ok := moving [(0, 0x40), (2, 0x10003000), (4, 8)]
    let bad := moving [(0, 0x40), (2, 0x10003000), (4, 9)]
    Clocked (vector true) ∧ (vector true).dev.live (pgPf 0) = true ∧ bitAt ((vector true).dev.reg (pgPf 0 + 0x100 + 4 * 3)) 31 = true ∧
    bitAt ((vector true).dev.pf 0).due 3 = true ∧ (vector true).dev.msixOpen 0 3 = true ∧ (vector false).dev.msixOpen 0 3 = false ∧
    Accepts (vector true) ⟨0x300, none, true⟩ (pagePf 0) 0x50 4 1 ∧ Reached host ∧ host.dev.pfUp 0 = true ∧
    (host.dev.busWrite ⟨0x300, none, true⟩ (pgPf 0 + 0x180) 4 0x4000).resp.error = none ∧
    Clocked dma ∧ (∀ i : Fin 8, (dma.dev.dma i).words = []) ∧ dma.dev.dmaReady 7 = true ∧
    (∀ i : Fin 8, i ≠ 7 → dma.dev.dmaReady i = false) ∧ dma.dev.poisonedRange (dma.dev.dmaDesc 7) 64 = false ∧
    (ok.dev.dma 7).words ≠ [] ∧ ok.dev.dmaDescOk (ok.dev.dma 7) = true ∧ ok.dev.dmaDevice (ok.dev.dma 7) = none ∧
    (ok.dev.dma 7).fld 5 0 1 = 0 ∧ (ok.dev.dma 7).len = 8 ∧ bad.dev.dmaDescOk (bad.dev.dma 7) = false ∧
    ok.dev.f (chPage 7) F.CH_CFG_LOG2 ≤ 12 := by decide

/-! Ethernet, CAN, xSPI and I2C (21) -/

/-- Port 0 up with receive ring and transmit queue 3 in Core SRAM, whose descriptors at HEAD name a buffer at 0x10003000. -/
def port (fs : List (Nat × Fld × Nat)) (x : Eth) : State :=
  mod (setFs ([(pgEth 0, F.ETH_STATUS_LINK, 1), (pgEth 0, F.ETH_CTRL_RX_EN, 1), (pgEth 0, F.ETH_CTRL_TX_EN, 1), (pgEth 0, F.ETH_CTRL_PROMISC, 1),
      (pgEth 0, F.ETH_RXQ_CFG_EN, 1), (pgEth 0, F.ETH_RXQ_CFG_BUF_LINES, 2), (pgEth 0, F.ETH_RXQ_CFG_LOG2, 3), (txq 0 3, F.ETH_TXQ_CFG_EN, 1),
      (txq 0 3, F.ETH_TXQ_CFG_LOG2, 3), (txq 0 3, F.ETH_TXQ_PTR_TAIL, 3), (pgEth 0, F.ETH_RXQ_PTR_TAIL, 3)] ++ fs) (at_ 100 (st [pgEth 0] [])))
    fun d => ((((d.setR64 (pgEth 0) 0x180 0x10002000).setR64 (txq 0 3) 0x100 0x10002100).setEth 0 x).store 0x10002000 8 0x10003000).store
      0x10002100 12 (0x10003000 + 60 * 2 ^ 64)

theorem witness_EthernetReception :
    let s := port [] {}
    let l : List Byte := List.replicate 60 1
    let own := setFs [(pgEth 0, F.ETH_CTRL_PROMISC, 0)] s
    Clocked s ∧ s.dev.ethUp 0 = true ∧ s.dev.on (pgEth 0) F.ETH_CTRL_RX_EN = true ∧ l.length + 4 ≤ s.dev.f (pgEth 0) F.ETH_MTU_MTU ∧
    s.dev.ethMine 0 l = true ∧ own.dev.ethMine 0 (List.replicate 60 2) = false ∧
    (port [(pgEth 0, F.ETH_RXQ_PTR_TAIL, 0)] {}).dev.ringHolds (pgEth 0) F.ETH_RXQ_PTR_HEAD F.ETH_RXQ_PTR_TAIL = false ∧
    s.dev.ringHolds (pgEth 0) F.ETH_RXQ_PTR_HEAD F.ETH_RXQ_PTR_TAIL = true ∧ s.dev.on (pgEth 0) F.ETH_RXQ_CFG_EN = true ∧
    descZero (s.dev.ethDesc (s.dev.rxDesc 0)) = true ∧ s.dev.ethMem (descBuf (s.dev.ethDesc (s.dev.rxDesc 0))) 60 = true ∧
    s.dev.rangeCause (descBuf (s.dev.ethDesc (s.dev.rxDesc 0))) 60 true = none ∧ 60 ≤ 64 * s.dev.f (pgEth 0) F.ETH_RXQ_CFG_BUF_LINES := by
  decide +kernel

theorem witness_EthernetTransmission :
    let s := port [] {}
    let e := s.dev.creditSee 0
    let bad := (mod s fun d => d.store 0x10002108 4 3).dev.creditSee 0
    let none_ := (port [(txq 0 3, F.ETH_TXQ_PTR_TAIL, 0)] {}).dev.creditSee 0
    let may := fun (d : Dev) (n : Nat) => d.txqEligible 0 n && (!d.txDescOk 0 (d.ethDesc (d.txDesc 0 n)) || d.txqFits 0 n)
    Clocked s ∧ s.dev.ethUp 0 = true ∧ s.dev.on (pgEth 0) F.ETH_CTRL_TX_EN = true ∧ (s.dev.eth 0).tx = none ∧ may e 3 = true ∧
    (∀ n : Fin 8, 3 < n → may e n = false) ∧ e.txDescOk 0 (e.ethDesc (e.txDesc 0 3)) = true ∧
    e.rangeCause (descBuf (e.ethDesc (e.txDesc 0 3))) 60 false = none ∧ bad.txDescOk 0 (bad.ethDesc (bad.txDesc 0 3)) = false ∧
    may bad 3 = true ∧ (∀ n : Fin 8, may none_ n = false) ∧
    ((port [] { tx := some ⟨3, [], [], false, false, 0, 0, 7⟩ }).dev.eth 0).tx = some ⟨3, [], [], false, false, 0, 0, 7⟩ ∧
    ((port [] { tx := some ⟨3, [], [], false, false, 100, 200, 0⟩ }).dev.eth 0).tx = some ⟨3, [], [], false, false, s.dev.tick, 200, 0⟩ ∧
    0 ≤ s.dev.tick ∧ s.dev.f (txq 0 3) F.ETH_TXQ_CFG_LOG2 ≤ 12 := by decide +kernel

/-- A gate list from count 50 on, of 20 ticks. -/
def gates : GateList := ⟨50, 20, [(255, 5), (3, 100)]⟩

theorem witness_EthernetControl :
    let s := port [] {}
    (st [] []).dev.domOn domHostio = true ∧ Accepts s .boot (pageEth 0) 0x64 4 1 ∧ s.dev.on (pgEth 0) F.ETH_MDIO_STAT_BUSY = false ∧
    (port [(pgEth 0, F.ETH_MDIO_STAT_BUSY, 1)] {}).dev.on (pgEth 0) F.ETH_MDIO_STAT_BUSY = true ∧ Clocked s ∧ s.dev.live (pgEth 0) = true ∧
    ((port [] { mdio := some 1024 }).dev.eth 0).mdio = some 1024 ∧ Accepts s .boot (pageEth 0) 0x218 4 3 ∧
    ((port [] { pend := some (gates, 20) }).dev.eth 0).pend = some (gates, 20) ∧ gates.startFrom 100 = some 110 ∧ gates.startFrom 90 = some 90 ∧
    s.dev.count = 100 ∧ ((port [] { oper := some gates }).dev.eth 0).oper = some gates ∧ gates.entryAt 100 < 128 := by decide +kernel

/-- Controller 1 on the bus with receive buffer 3 for base identifiers and transmit buffer 5 requested. -/
def can (fs : List (Fld × Nat)) (x : Can) : State :=
  mod (setFs (List.map (fun (f : Fld × Nat) => (pgCan 1, f.1, f.2)) ([(F.CAN_STATUS_STATE, 0), (F.MB_CFG_EN.at (mbOfs 3), 1),
    (F.MB_CFG_EN.at (mbOfs 5), 1), (F.MB_CFG_DIR.at (mbOfs 5), 1), (⟨0x54, 5, 1⟩, 1)] ++ fs)) (at_ 100 (st [pgCan 1] []))) fun d => d.setCan 1 x

/-- A data frame of 8 bytes. -/
def frame : CanFrame := ⟨false, 0x140000, false, false, false, false, 8, [1, 2, 3, 4, 5, 6, 7, 8]⟩

theorem witness_CanFrames :
    let s := can [] {}
    let full := can [(⟨0x60, 3, 1⟩, 1)] {}
    Clocked s ∧ s.dev.canOn 1 = true ∧ s.dev.f (pgCan 1) F.CAN_CTRL_MODE = 0 ∧ s.dev.f (pgCan 1) F.CAN_ERRC_REC = 0 ∧ s.dev.canState 1 = 0 ∧
    s.dev.on (pgCan 1) F.CAN_ERRC_RP = false ∧ s.dev.f (pgCan 1) F.CAN_ERRC_TEC < 128 ∧ s.dev.mbAccepts 1 3 frame = true ∧
    bitAt (s.dev.reg (pgCan 1 + 0x60)) 3 = false ∧ (∀ c : Fin 32, c < 3 → s.dev.mbAccepts 1 c frame = false) ∧
    (∀ b : Fin 32, s.dev.mbAccepts 1 b { frame with ide := true } = false) ∧ full.dev.mbAccepts 1 3 frame = true ∧
    (∀ b : Fin 32, full.dev.mbAccepts 1 b frame = true → bitAt (full.dev.reg (pgCan 1 + 0x60)) b = true) ∧
    (s.dev.can 1).tx = none ∧ s.dev.canOffer 1 = some 5 ∧ ((can [] { tx := some 5 }).dev.can 1).tx = some 5 ∧ s.dev.en (pgCan 1) = true := by decide

theorem witness_CanRequestsAndErrors :
    let s := can [] {}
    let off := can [(F.CAN_STATUS_STATE, 2)] { recovering := true }
    Accepts s .boot (pageCan 1) 0x54 4 5 ∧ Accepts s .boot (pageCan 1) 0x58 4 5 ∧ Accepts s .boot (pageCan 1) 0x60 4 5 ∧
    Accepts off .boot (pageCan 1) 0x40 4 (16 + off.dev.f (pgCan 1) ⟨0x40, 0, 4⟩) ∧ off.dev.canState 1 = 2 ∧ off.dev.live (pgCan 1) = true ∧
    Clocked off ∧ (off.dev.can 1).recovering = true ∧ (can [] { tecOver := true }).dev.canOn 1 = true ∧ ((can [] { tecOver := true }).dev.can 1).tecOver = true ∧
    (can [(F.CAN_STATUS_STATE, 3)] {}).dev.canState 1 = 3 ∧ s.dev.canOn 1 = true := by decide

/-- The xSPI and I2C pages enabled after boot. -/
def serial (fs : List (Nat × Fld × Nat)) : State := setFs ((pgSysid, F.BOOT_STAT_DONE, 1) :: fs) (at_ 100 (st [pgXspi, pgI2c] []))

theorem witness_SerialControllers :
    let s := serial []
    let c := serial [(pgI2c, F.I2C_CTRL_CEN, 1)]
    let x := mod s fun d => { d with xspi := { d.xspi with cmd := some (0, 256) }, i2c := { d.i2c with cmd := some (32 * 256 + 128) } }
    Accepts s .boot pageXspi 0x50 4 1 ∧ s.dev.live pgXspi = true ∧ s.dev.on pgXspi F.XSPI_STATUS_ACTIVE = false ∧
    s.dev.f pgXspi F.XSPI_LEN_LEN ≤ 256 ∧ s.dev.f pgXspi F.XSPI_LEN_LEN % 2 = 0 ∧ bitsOf (s.dev.reg (pgXspi + 0x44)) 16 3 = 0 ∧
    256 < (serial [(pgXspi, F.XSPI_LEN_LEN, 257)]).dev.f pgXspi F.XSPI_LEN_LEN ∧ Accepts s .boot pageXspi 0x50 4 2 ∧ Clocked x ∧
    x.dev.xspi.cmd = some (0, 256) ∧ Accepts c .boot pageI2c 0x4C 4 1 ∧ c.dev.live pgI2c = true ∧ c.dev.on pgI2c F.I2C_CTRL_CEN = true ∧
    c.dev.on pgI2c F.I2C_STATUS_ACTIVE = false ∧ (serial [(pgI2c, F.I2C_STATUS_ACTIVE, 1)]).dev.on pgI2c F.I2C_STATUS_ACTIVE = true ∧
    x.dev.i2c.cmd = some (32 * 256 + 128) := by decide

theorem witness_I2cTarget :
    let s := serial [(pgI2c, F.I2C_CTRL_TEN, 1), (pgI2c, F.I2C_TADDR_ADDR, 5)]
    Clocked s ∧ s.dev.i2cMine 5 = true ∧ s.dev.i2cMine 6 = false ∧ s.dev.i2c.ptr + 256 ≤ 256 := by decide

/-! Debug and trace (22) -/

/-- Core 0's program, with debug access at a level. -/
def debugged (l : Nat) (x : Vopen) (f : Dev → Dev) : State :=
  { (mod (setFs [(pgDbg, F.DBG_STAT_LEVEL, l)] (core id)) f) with sec := { x with level := l } }

theorem witness_TestAccessPort :
    let full := debugged 2 {} id
    let halted := debugged 2 {} fun d => { d with sys := { d.sys with halted := true } }
    full.dev.dbgLevel = 2 ∧ (debugged 0 {} id).dev.dbgLevel = 0 ∧ (debugged 1 {} id).dev.dbgLevel = 1 ∧ hbmBase 0 ≤ 0x1000000000 ∧
    halted.dev.dbgLevel = 2 ∧ halted.dev.sys.halted = true ∧ full.dev.memCause 0x10002000 8 true true = none ∧
    traceConfig 0x10002000 = false ∧ (debugged 0 { nonce := some 77 } id).sec.nonce = some 77 ∧ 2 ≤ full.dev.otp.dbgMax := by decide

/-- The response that the device computes is accepted. -/
theorem witness_voResp : (up.macOf 77 2).length = 16 ∧ bytesLE 16 (valueLE (List.replicate 16 (0xA5 : Byte))) = List.replicate 16 0xA5 := by decide +kernel

theorem witness_HaltStepResume :
    let full := debugged 2 {} id
    let halted := debugged 2 {} fun d => { d with sys := { d.sys with halted := true } }
    let bp := debugged 2 {} fun d => d.setCore 0 { d.core 0 with bps := [(3, 0x10001001)] }
    let ev := debugged 2 {} fun d => seen (d.setReg (pgDbg + 0x14) 0x80000735) 0x735
    let drain := debugged 2 {} fun d => { d with sys := { d.sys with drain := some (3, 4, 3) } }
    full.dev.dbgLevel = 2 ∧ full.dev.sys.halted = false ∧ full.dev.sys.drain = none ∧ Clocked full ∧ (debugged 1 {} id).dev.dbgLevel ≠ 2 ∧
    bp.dev.bpMatches 0 3 = true ∧ ev.dev.haltEventSeen = true ∧ drain.dev.sys.drain = some (3, 4, 3) ∧ drain.dev.tracing = false ∧
    halted.dev.sys.halted = true ∧ halted.dev.stepHeld 0 = false ∧ halted.dev.stepHeld 3 = true ∧ full.sec.level = 2 := by decide

/-- The trace unit with a line in its buffer, at the end of a ring of 4 KiB. -/
def traced (n : Nat) : State :=
  mod (setFs [(pgDbg, F.TRC_CTRL_EN, 1), (pgDbg, F.TRC_CTRL_DEST, 1), (pgDbg, F.TRC_RING_SIZE_LOG2, 12), (pgDbg, F.TRC_WPTR_WPTR, 0xFC0)] (stack id))
    fun d => { d.setR64 pgDbg 0xC0 0x1000000000 with trace := { buf := List.replicate n 1 } }

theorem witness_TraceStartsAndWrites : (debugged 1 {} id).dev.dbgLevel = 1 ∧ (debugged 1 {} id).dev.sys.halted = false ∧
    (debugged 1 {} id).dev.on pgDbg F.TRC_CTRL_EN = false ∧ Clocked (traced 64) ∧ (traced 64).dev.tracing = true ∧
    (traced 64).dev.on pgDbg F.TRC_CTRL_DEST = true ∧ 64 ≤ (traced 64).dev.trace.buf.length ∧ (traced 64).dev.trace.round = false ∧
    (traced 64).dev.memCause (0x1000000000 + 0xFC0) 64 true false = none ∧ (traced 0).dev.trace.buf = [] := by decide

/-! The machine as a whole -/

theorem witness_SettleKeeps : up.quiet := by unfold Dev.quiet; decide

theorem witness_StepKeepsSafe : State.reset.safe ∧ (debugged 2 { fails := 15 } id).safe := by
  simp only [State.safe, Vopen.legal, Dev.quiet]; decide

/-- A command that can be run in front of another. -/
theorem witness_QueueFirstInFirstOut : ∃ t, step { State.reset with pending := [.bypass, .idcode] } = .next t := ⟨_, rfl⟩

/-- A fuse is blown where it was not. -/
theorem witness_FusesOnlyBlow :
    let s := mod (st [pgOtp] []) fun d => { d with otpCmd := some .rollbackAdv }
    (match exec .otpCommandDone s with | .next t => t.otp.rollback | _ => 0) = 1 := by decide

/-- The level rises by an answered challenge. -/
theorem witness_OnlyResponseRaisesLevel :
    let s := debugged 0 { nonce := some 77 } id
    let mac : BitVec 128 := BitVec.ofNat 128 (valueLE (s.dev.macOf 77 2))
    (match exec (.voResp 2 mac) s with | .next t => t.sec.level | _ => 0) = 2 := by decide +kernel

/-! Single commands with results that the spec's own examples and tables give -/

/-- The device after a command; the device before it where the command gives no next state. -/
def after (i : Instr) (s : State) : Dev := match exec i s with | .next t => t.dev | _ => s.dev

/-- 01 Table 1-5, 1-8: generator 2 of CA_05 answers at 0xE1052000 with type 0x0101, instance 32. -/
theorem test_page_of_generator_32 : (after (.clearingRead .boot 0xE1052000 2) (st [] [])).resp = { data := 0x01010020 } := by decide +kernel

/-- 01 Table 1-3: sash S_22 has type 0x0401, instance 22, at 0xE4142000. -/
theorem test_page_of_sash_22 : (after (.clearingRead .boot 0xE4142000 2) (st [] [])).resp = { data := 0x04010016 } := by decide +kernel

/-- 11 Table 11-12: comparator 0, raw, latched group 1: SG_CAUSE reads 0x80000040. -/
def tripped : State :=
  mod (at_ 5011 (st [pgGroup 1, pgCmp 0 0, pgVt] [(pgCmp 0 0 + 0x40, 0x1011B), (pgGroup 1 + 0x48, 3), (pgGroup 1 + 0x10, 1)])) fun d =>
    { d with cmps := [(0, { raw := true })], groups := [(1, { recording := true })] }

theorem test_trip_is_recorded : (after (.latchRecord 1) tripped).reg (pgGroup 1 + 0xB0) = 0x80000040 ∧
    (after (.latchRecord 1) tripped).r64 (pgGroup 1) 0xB8 = 5011 ∧ tripped.dev.eventLevel 1793 = false ∧
    (after (.latchRecord 1) tripped).eventLevel 1793 = true := by decide +kernel

/-- 11 Table 11-12: its clear is refused with the source named. -/
theorem test_refused_clear : (after (.sgClear .boot 1) (mod tripped fun d => { d with groups := [] })).reg (pgGroup 1 + 0xC0) = 0x80000401 := by decide +kernel

/-- 15 Table 15-11 and the chapter's example: a post accepted at count 5,000,000,600 gives its count. -/
theorem test_post_result : cpResult 0 5000000600 = 0x12A05F458 ∧ cpResult 1 2 = 0x1000000000000002 := by decide +kernel

/-- 17, example: an entry at level 3 for event 80. -/
def interrupted : State :=
  mod (st [pgIntc 1, pgIntsrc 1 0] [(pgIntsrc 1 0 + 0x180, 0x2B)]) fun d =>
    let d := d.setCore 1 { arch := { arch with rsp := 0x10200000, rspLim := 0x101F0000, st := 0x800, trapBase := rootAt 0x10100000 }, running := true, maskInt := false }
    seen (([0x101022A0, 0x101022B0].foldl (fun d p => (d.setBytes p (bytesLE 16 root.bits)).setTag p true) d)) 80

/-- The premises of an interrupt entry together, its vector being sound. -/
theorem witness_InterruptEntry :
    let w := interrupted.dev.wfiRetire 1
    let d := w.takeException 1 3 (0x110 + 5) (w.arch 1).pc (BitVec.ofNat 64 (0x0F + 80 * 2 ^ 24)) 0
    interrupted.dev.coreRuns 1 = true ∧ (interrupted.dev.core 1).arch.ie = true ∧ (interrupted.dev.core 1).arch.arithPend = false ∧
    (interrupted.dev.core 1).doorWait = none ∧ interrupted.dev.sys.halted = false ∧ interrupted.dev.intTop 1 = some (3, 80, 5) ∧
    (interrupted.dev.core 1).arch.lvl < 3 ∧ d.on (pgIntc 1) F.LS_STAT_RECOVERING = false ∧ d.on (pgIntc 1) F.LS_STAT_FAILED = false := by
  decide +kernel

theorem test_interrupt_entry :
    let a := (after (.interruptEntry 1) interrupted).arch 1
    (Table.get ({} : SaveSet) a.sets 3).cause = 0x5000000F ∧ a.occ = 8 ∧ a.lvl = 3 ∧ a.pcc.addr = 0x10001000 := by decide +kernel
/-- 18, example: a probe of 0x7F00C000 in a 64 KiB entry, here in a lock slot (bit 3). -/
def probed : State := coreIn 2 fun c => { c with
  tlb := [{ asid := 3, glob := false, big := true, vpn := 0x7F000, ppn := 0x1020000, w := true, x := false, slot := some 0 }]
  arch := { c.arch with x := 0x7F00C000, xlate := 0x300 } }

theorem test_tlb_probe : ((after (.tlbprobe 2) probed).arch 2).a = 0x102000C01B := by decide +kernel

/-- 20, example: CR_DATA_END_0 of a region of 4 GiB at t = 32. -/
theorem test_data_end : (st [] [(pgCode 0 + 0x44, 4096), (pgCode 0 + 0x50, 0x17)]).dev.crEnd 0 0 = 0x10ED720000 := by decide +kernel

/-- 14, example: an announcement is recorded. -/
def seeking : State := setFs [(pgTlc 2, F.TLC_STATUS_LSTATE, 1), (pgTlc 2, F.TLC_STATUS_ALIGNED, 1)] (st [pgTlc 2, pgTlnb 2, pgTltt 2, pgTlcnt 2] [])

theorem test_announcement :
    let d := after (.announce 2 0 ⟨0x31, 0x1A2B3C4D0019, 16, 16, 240⟩) seeking
    d.reg (pgTlnb 2 + 0x40) = 0x10100031 ∧ d.r64 (pgTlnb 2) 0x48 = 0x1A2B3C4D0019 ∧ d.reg (pgTlnb 2 + 0x50) = 0x800100F0 ∧
    d.lstate 2 = 2 ∧ d.pulsesOf 211 = 1 := by decide +kernel

/-- 01, example: PF0's 32-bit write of a configuration register of its enabled generator is NOT_LIVE and logged. -/
def owned : State := mod (st [0xE1052000] [(pgPf 0 + 0x40, 0x20)]) fun d => d.setF 0xE1052000 F.H_OTYPE 0x20

theorem test_not_live_is_logged :
    let d := after (.registerWrite ⟨0x300, some 0x20, true⟩ 0xE1052040 2 1) owned
    d.resp.error = some 5 ∧ d.reg 0xE105201C = 0x80059300 ∧ d.reg 0xE1052014 = 0xE1052040 := by decide +kernel

/-- 03, example: a request for thirteen domains from PWR_STAT 0xA0000010 is accepted whole. -/
def asleep : State := st [pgPwr] [(pgPwr + 0x44, 0xA0000010), (pgPwr + 0x40, 0x20000010), (pgClk + 0x40, 3), (pgClk + 0x44, 3)]

theorem test_power_request : (after (.pwrReqWrite .boot 0x2A807FB1) asleep).reg (pgPwr + 0x48) = 0x0A807FA1 := by decide +kernel

/-- 04 Table 4-5: TIME one above the arming count fires in its tick, not late; TIME at it fires then, late, and event 109 pulses. -/
def armed (time : Nat) : State :=
  let p := lePage 0 0
  setFs [(p, F.LE_CTRL_ARM, 1), (p, F.LE_CTRL_ACTION, 7)]
    (mod (at_ 1001 (st [pgLctl 0, pgLent 0 0] [(p + 0x100, time)])) fun d =>
      ((d.setB (pgLctl 0) F.H_EXPERT true).setB (pgLent 0 0) F.H_EXPERT true))

theorem test_launch_boundary :
    (after (.launchFire 0) (armed 1001)).on (lePage 0 0) F.LE_CTRL_LATE = false ∧ (after (.launchFire 0) (armed 1001)).pulsesOf 90 = 1 ∧
    (after (.launchFire 0) (armed 1000)).on (lePage 0 0) F.LE_CTRL_LATE = true ∧ (after (.launchFire 0) (armed 1000)).pulsesOf 109 = 1 ∧
    (after (.launchFire 0) (armed 1002)).pulsesOf 90 = 0 := by decide +kernel

/-- 13 Table 13-8: a casement watchdog with WD_MAX 60 µs expires at e = 360,000, cause LATE, and its event pulses. -/
def overdue (e : Nat) : State := at_ e (setFs [(pgWdCas 0, F.WD_CTRL_ACTION, 1), (pgWdCas 0, F.WD_MAX_MAX, 60)] (st [pgWdCas 0] []))

theorem test_watchdog_late :
    (after (.watchdogExpire (.cas 0)) (overdue 360000)).on (pgWdCas 0) F.WD_STATUS_EXPIRED = true ∧
    (after (.watchdogExpire (.cas 0)) (overdue 360000)).on (pgWdCas 0) F.WD_STATUS_CAUSE = false ∧
    (after (.watchdogExpire (.cas 0)) (overdue 360000)).pulsesOf 108 = 1 ∧
    (after (.watchdogExpire (.cas 0)) (overdue 359999)).on (pgWdCas 0) F.WD_STATUS_EXPIRED = false := by decide +kernel

/-- 15 R328: an addition wraps modulo 2^64. -/
theorem test_add_wraps :
    let d := after (.addi 0 0 1) (core fun a => { a with a := 0xFFFFFFFFFFFFFFFF })
    (d.arch 0).a = 0 ∧ (d.arch 0).pcc.addr = 0x10001004 := by decide +kernel

/-- 22, example: BP_0 := 0x10002341 matches SP's instruction at 0x10002340; the drain's end names it and its count. -/
def breaking : State := coreIn 4 fun c => { c with arch := { c.arch with pcc := rootAt 0x10002340 }, bps := [(0, 0x10002341)] }

theorem test_breakpoint_matches : breaking.dev.bpMatches 4 0 = true := by decide +kernel

theorem test_halt_reason :
    let d := after .haltDrainDone (sys (at_ 1500000700 (st [] [])) fun x => { x with drain := some (2, 4, 0) })
    d.reg (pgDbg + 0x10) = 0x12 ∧ d.r64 pgDbg 8 = 0x596831BC ∧ d.sys.halted = true := by decide +kernel

/-- 04 Table 4-13: SW_127 is EV_2047. -/
theorem test_software_event : (after (.evSwSet .boot 3 0x80000000) (st [] [])).eventLevel 2047 = true := by decide +kernel

/-- 17, example: the return of the interrupt handler from level 3 to level 0. -/
theorem test_return_to_level_0 :
    let s := mod (st [] []) fun d => d.setCore 1 { running := true, arch := { arch with occ := 8, st := 0x300, sets := [(3, { pc := 0x10001004, pcc := root, ddc := root, st := 0x800 })] } }
    let a := (after (.rte 1) s).arch 1
    a.occ = 0 ∧ a.lvl = 0 ∧ a.pcc.addr = 0x10001004 := by decide +kernel

end Sys2Proof.Tests
end

section
/-!
Writes of ENABLE, the word at offset 8 of every page header (01 R22, R25): their violations, their effect, and that EXPERT changes
only while EN reads 0.
-/
namespace Sys2Proof.Machine

variable (s : State) (d : Dev) (w : Who) (p : PageInfo)

/-! A refused write and the error record -/

/-- A write with a violation as a command answers it. -/
theorem State.write_refused {b o len v c : Nat} {p : PageInfo} (hb : b % 0x1000 = 0) (ho : o < 0x1000) (hp : pageAt b = some p)
    (hs : s.dev.clocksStill = false) (hr : s.dev.sys.reset = .none) (hd : s.dev.domOn p.dom = true)
    (hv : v < 2 ^ (8 * len)) (hc : s.dev.pageCause w p o len v true = some c) :
    s.write w (b + o) len v = .next (s.withDev ((s.dev.logAt p.base w.req (b + o) len true c).answerError c).settle) := by
  have hpo : pageAt (b + o) = some p := (pageAt_base hb ho).trans hp
  rw [State.write, s.reach_eq _ hs hr, Dev.busWrite_refused w s.dev hpo hd]
  rw [mod_base hb ho, Nat.mod_eq_of_lt hv]
  exact hc

/-- The page that holds an ENABLE word begins at the base of its slot. -/
theorem pageAt_of_enable {n : Nat} {p : PageInfo} (hp : pageAt (0x1000 * n + 8) = some p) : pageAt (0x1000 * n) = some p :=
  (pageAt_base (Nat.mul_mod_right _ _) (by decide)).symm.trans hp

/-- A violation that enters a page header writes STATUS, the error record and IRQ_PEND only (01 R33). -/
theorem Dev.reg_logRecord_ne (b a : Nat) (v : W32 × W32 × W32) (h : ∀ o ∈ [0x10, 0x14, 0x18, 0x1C, 0x24], b + o ≠ a) :
    (d.logRecord b v).reg a = d.reg a := by
  simp only [List.forall_mem_cons] at h
  obtain ⟨hStatus, hLo, hHi, hInfo, hPend, -⟩ := h
  unfold Dev.logRecord
  split
  · exact d.reg_setF_ne _ _ _ hInfo
  · rw [Dev.irq, Dev.reg_setF_ne _ _ _ _ hPend, Dev.reg_setF_ne _ _ _ _ hStatus, Dev.reg_setReg_ne _ _ hInfo,
      Dev.reg_setReg_ne _ _ hHi, Dev.reg_setReg_ne _ _ hLo]

/-- Logging a violation leaves the page's ENABLE word. -/
theorem Dev.reg_enable_logAt (b req a len cause : Nat) (write : Bool) :
    (d.logAt b req a len write cause).reg (b + 8) = d.reg (b + 8) :=
  Dev.reg_logRecord_ne _ b (b + 8) _ (by simp)

/-! The violations of a write of ENABLE -/

/-- No page kind has an expert-only field at the offset of ENABLE. -/
theorem findWord_enable_not_expert (k : PageKind) :
    (findWord k 8).all (fun r => !r.fields.any (·.expert)) = true := by
  cases k <;> rfl

theorem Dev.expertOnly_enable : d.expertOnly p 8 = false := by
  have hw : wordAt p 8 = findWord p.kind 8 := by simp [wordAt]
  have hk := findWord_enable_not_expert p.kind
  rw [Dev.expertOnly, hw]
  cases hf : findWord p.kind 8 with
  | none => simp
  | some r =>
    rw [hf, Option.all_some, Bool.not_eq_true'] at hk
    simp only [hk, Bool.and_false]

/-- ENABLE is no word whose values have a range of their own. -/
theorem Dev.neverValid_enable : d.neverValid p 8 = false := by
  cases hk : p.kind <;> simp [Dev.neverValid, hk]

theorem Dev.outOfRange_enable : d.outOfRange p 8 = false := by
  cases hk : p.kind <;> simp [Dev.outOfRange, hk]

/-- The one violation left to an authorised write of ENABLE is NOT_LIVE: EN is 1 and stays 1, and EXPERT would change (01 R25). -/
theorem Dev.pageCause_enable (v : Nat) (hm : d.mayWrite w p 8 = true) :
    d.pageCause w p 8 4 v true =
      if d.en p.base && d.notLive p 8 (BitVec.ofNat 32 v) then some 5 else none := by
  have hsize : sizeOk p 8 4 true = true := by simp [sizeOk]
  have hro : readOnlyAt p 8 = false := by simp [readOnlyAt]
  have hdir : d.dirClosed p 8 = false := by simp [Dev.dirClosed]
  simp [Dev.pageCause, offsets, halves, hm, hsize, hro, hdir, Dev.expertOnly_enable, Dev.neverValid_enable, Dev.outOfRange_enable]

/-! The value and the effect of a write of ENABLE -/

/-- The value that a command writes to ENABLE: EN in bit 0 and EXPERT in bit 1 (01 Table 1-6). -/
def enableValue (en expert : Bool) : Nat := b2n en + 2 * b2n expert

theorem enableValue_lt (en expert : Bool) : enableValue en expert < 2 ^ (8 * 4) := by
  cases en <;> cases expert <;> decide

@[simp] theorem bitAt_enableValue_en (en expert : Bool) : bitAt (BitVec.ofNat 32 (enableValue en expert)) 0 = en := by
  cases en <;> cases expert <;> rfl

@[simp] theorem bitAt_enableValue_expert (en expert : Bool) : bitAt (BitVec.ofNat 32 (enableValue en expert)) 1 = expert := by
  cases en <;> cases expert <;> rfl

theorem Dev.notLive_enable (en expert : Bool) :
    d.notLive p 8 (BitVec.ofNat 32 (enableValue en expert)) = (en && expert != d.expert p.base) := by
  simp [Dev.notLive]

/-- A write of ENABLE does to the page what `writeEnable` says. -/
theorem Dev.pageWrite_enable (v : Nat) : d.pageWrite w p 8 4 v = d.writeEnable p (BitVec.ofNat 32 v) := rfl

/-- EN goes from 1 to 0: the page is disabled before EXPERT applies. -/
theorem Dev.writeEnable_clears (expert : Bool) (he : d.en p.base = true) :
    d.writeEnable p (BitVec.ofNat 32 (enableValue false expert)) =
      ((d.disablePage p).setB p.base F.H_EXPERT expert).expertEffect p := by
  simp [Dev.writeEnable, he]

/-- EN is 0 and stays 0: EXPERT takes its value. -/
theorem Dev.writeEnable_disabled (expert : Bool) (he : d.en p.base = false) :
    d.writeEnable p (BitVec.ofNat 32 (enableValue false expert)) = (d.setB p.base F.H_EXPERT expert).expertEffect p := by
  simp [Dev.writeEnable, he]

end Sys2Proof.Machine

namespace Sys2Proof.Claims
open Sys2Proof.Machine

section
variable {s : State} {w : Who} {page : BitVec 36} {p : PageInfo} {en expert : Bool}
  (hp : pageAt (0x1000 * page.toNat + 8) = some p) (hs : Reached s) (hd : s.dev.domOn p.dom = true)

theorem exec_expertChange : exec (.expertChange w page en expert) s = s.write w (0x1000 * page.toNat + 8) 4 (enableValue en expert) := rfl

include hp hs hd

/-- A write of ENABLE with a violation is logged in the page and answered with its cause. -/
theorem expertChange_refused {c : Nat} (hc : s.dev.pageCause w p 8 4 (enableValue en expert) true = some c) :
    Does (.expertChange w page en expert) s
      ((s.dev.logAt p.base w.req (0x1000 * page.toNat + 8) 4 true c).answerError c) := by
  obtain ⟨hclk, hrst⟩ := hs
  have h := s.write_refused w (Nat.mul_mod_right _ _) (by decide) (pageAt_of_enable hp) hclk hrst hd (enableValue_lt en expert) hc
  exact exec_expertChange.trans h

/-- A write of ENABLE without one has the effect of `writeEnable`. -/
theorem expertChange_accepted (hc : s.dev.pageCause w p 8 4 (enableValue en expert) true = none) :
    Wrote (.expertChange w page en expert) s (s.dev.writeEnable p (BitVec.ofNat 32 (enableValue en expert))) := by
  obtain ⟨hclk, hrst⟩ := hs
  have h := s.write_accepted w (Nat.mul_mod_right _ _) (by decide) (pageAt_of_enable hp) hclk hrst hd (enableValue_lt en expert) hc
  rw [Dev.pageWrite_enable] at h
  exact ⟨_, _, _, exec_expertChange.trans h⟩

/-- A change of EXPERT with EN kept at 1 is answered with NOT_LIVE and leaves ENABLE. -/
theorem expertChange_while_enabled (hm : s.dev.mayWrite w p 8 = true) (he : s.dev.en p.base = true)
    (hx : s.dev.expert p.base ≠ expert) :
    Gives (.expertChange w page true expert) s
      (fun r => r.resp.error = some 5 ∧ r.reg (p.base + 8) = s.dev.reg (p.base + 8)) := by
  have hc : s.dev.pageCause w p 8 4 (enableValue true expert) true = some 5 := by
    simp [Dev.pageCause_enable _ _ _ _ hm, Dev.notLive_enable, he, hx.symm]
  exact ⟨_, expertChange_refused hp hs hd hc, rfl, Dev.reg_enable_logAt _ _ _ _ _ _ _⟩

/-- An authorised write that carries EN = 0 is accepted, whatever EN was. -/
theorem expertChange_en_zero (hm : s.dev.mayWrite w p 8 = true) :
    Wrote (.expertChange w page false expert) s (s.dev.writeEnable p (BitVec.ofNat 32 (enableValue false expert))) :=
  expertChange_accepted hp hs hd (by simp [Dev.pageCause_enable _ _ _ _ hm, Dev.notLive_enable])

end

/-- Settles O9: NOT_LIVE is the only violation left to an authorised write of ENABLE, and it needs EN at 1 before and after. -/
theorem expertChangesOnlyWhileDisabled : Obligations.ExpertChangesOnlyWhileDisabled := by
  intro s w page p expert hp hs hd hm
  refine ⟨fun he hx => expertChange_while_enabled hp hs hd hm he hx, fun he => ?_, fun he => ?_⟩
  · rw [← s.dev.writeEnable_clears p expert he]
    exact expertChange_en_zero hp hs hd hm
  · rw [← s.dev.writeEnable_disabled p expert he]
    exact expertChange_en_zero hp hs hd hm

end Sys2Proof.Claims
end

section
/-!
CPWAIT of the Sahxel cores (15 R349): what an instruction that meets no fault leaves, and the CQ registers once every coprocessor
result has landed (15 R346).
-/
namespace Sys2Proof.Machine

variable (d : Dev) (a : Arch)

@[simp] theorem Dev.core_setCore_same (k : Nat) (c : Core) : (d.setCore k c).core k = c := Table.get_put_same _ _ _ _

@[simp] theorem Dev.arch_setCore_same (k : Nat) (c : Core) : (d.setCore k c).arch k = c.arch := by simp [Dev.arch]

@[simp] theorem Act.bind_ok {α β : Type} (x : α) (f : Dev → α → Act β) : (d.ok x).bind f = f d x := rfl

/-! The registers once results have landed -/

/-- Landing the oldest result first: an overtaken one writes nothing. -/
theorem Arch.landAll_cons (o : CpOp) (l : List CpOp) :
    a.landAll (o :: l) = (if o.dead then a else { a with cq := Table.put 0 a.cq o.cq o.val }).landAll l := by
  cases h : o.dead <;> simp [Arch.landAll, h]

theorem Arch.landAll_append (l r : List CpOp) : a.landAll (l ++ r) = (a.landAll l).landAll r := by
  simp [Arch.landAll]

/-- Results land in the CQ registers and nowhere else. -/
theorem Arch.landAll_frame (l : List CpOp) : { a.landAll l with cq := [] } = { a with cq := [] } := rfl

@[simp] theorem Core.collect_pc (c : Core) : c.collect.arch.pc = c.arch.pc := rfl

/-- A register all of whose results are overtaken keeps its value. -/
theorem Arch.landAll_cq_of_dead {n : Nat} {l : List CpOp} (h : ∀ o ∈ l, o.cq = n → o.dead = true) :
    Table.get 0 (a.landAll l).cq n = Table.get 0 a.cq n := by
  induction l generalizing a with
  | nil => rfl
  | cons o r ih =>
    obtain ⟨ho, hr⟩ := List.forall_mem_cons.mp h
    rw [Arch.landAll_cons, ih _ hr]
    split
    · rfl
    · next hlive => exact Table.get_put_ne _ _ _ _ (mt ho hlive)

/-- The youngest result of a register that is not overtaken is the register's value. -/
theorem Arch.landAll_cq_of_youngest {older younger : List CpOp} {o : CpOp} (ho : o.dead = false)
    (hy : ∀ p ∈ younger, p.cq = o.cq → p.dead = true) :
    Table.get 0 (a.landAll (older ++ o :: younger)).cq o.cq = o.val := by
  rw [Arch.landAll_append, Arch.landAll_cons, Arch.landAll_cq_of_dead _ hy]
  simp [ho]

/-- No operation whose result is outstanding: CPSTAT reads 0 (15 Table 15-2). -/
theorem Core.cpstat_of_none {c : Core} (h : c.cps = []) : c.cpstat = 0 := by
  rw [Core.cpstat, h]
  rfl

/-! The instruction -/

theorem Core.outstanding_iff (c : Core) : c.outstanding = true ↔ ∃ o ∈ c.cps, o.landed = false := by
  simp [Core.outstanding]

theorem Core.not_outstanding_iff (c : Core) : c.outstanding = false ↔ ∀ o ∈ c.cps, o.landed = true := by
  simp [Core.outstanding]

/-- The device with every result of core `k` landed: what CPWAIT does before it retires. -/
def Dev.landResults (k : Nat) : Dev :=
  d.setCore k { d.core k with arch := (d.arch k).landAll (d.core k).cps, cps := [] }

theorem Dev.cpwait_of_outstanding {k : Nat} (h : (d.core k).outstanding = true) : d.cpwait k = d := by
  simp [Dev.cpwait, h]

theorem Dev.cpwait_of_landed {k : Nat} (h : (d.core k).outstanding = false) :
    d.cpwait k = d.instr k 4 fun d => (d.landResults k).ok .next := by
  simp only [Dev.cpwait, h, Bool.false_eq_true, if_false]
  rfl

end Sys2Proof.Machine

namespace Sys2Proof.Claims
open Sys2Proof.Machine

/-- An instruction that meets no fault and goes on to the next one retires with the program counter moved past it. -/
theorem instr_next {s : State} {k len : Nat} {d e : Dev} {body : Dev → Act Flow} (hd : Begun s k len d)
    (he : body d = e.ok .next) : s.dev.instr k len body = Finished s k len e := by
  obtain ⟨hready, hfetch⟩ := hd
  simp only [Dev.instr, hready, hfetch, Act.bind_ok, he, Bool.not_true, Bool.false_eq_true, if_false,
    Dev.arch_setCore_same, Core.collect_pc]
  rfl

theorem exec_cpwait (k : CoreId) (s : State) : exec (.cpwait k) s = s.run fun d => d.cpwait k := rfl

/-- Settles O45: the results land in the order of issue, so that the youngest that was not overtaken is the last to write its register. -/
theorem cpWait : Obligations.CpWait := by
  intro s k
  refine ⟨fun hwait => ?_, fun d hlanded hd => ?_⟩
  · have hout := (s.dev.core k).outstanding_iff.mpr hwait
    rw [Does, exec_cpwait, State.run_eq, s.dev.cpwait_of_outstanding hout]
  · have hout := (s.dev.core k).not_outstanding_iff.mpr hlanded
    have hretired : s.dev.cpwait k = Finished s k 4 (d.landResults k) :=
      (s.dev.cpwait_of_landed hout).trans (instr_next hd rfl)
    have hcps : ((d.landResults k).core k).cps = [] := by simp [Dev.landResults]
    have harch : (d.landResults k).arch k = (d.arch k).landAll (d.core k).cps := by simp [Dev.landResults]
    refine ⟨d.landResults k, ?_, hcps, Core.cpstat_of_none hcps, ?_, ?_, ?_, rfl, rfl⟩
    · rw [Does, exec_cpwait, State.run_eq, hretired]
    · intro older younger o hsplit ho hyounger
      rw [harch, hsplit]
      exact (d.arch k).landAll_cq_of_youngest ho hyounger
    · intro n hdead
      rw [harch]
      exact (d.arch k).landAll_cq_of_dead hdead
    · rw [harch]
      exact (d.arch k).landAll_frame _

end Sys2Proof.Claims
end

section
/-!
The address translation of the Sahxel cores up to the TLB (18 R397): the RANGE fault, and the address with translation off.
-/
namespace Sys2Proof.Machine

variable {d : Dev} {k va : Nat} (acc : Nat)

/-- XLATE_CTRL.EN is bit 0 (Table 18-1). -/
theorem Arch.xlateOn_eq_getLsbD (a : Arch) : a.xlateOn = a.xlate.getLsbD 0 := rfl

/-- A RANGE fault comes before EN is looked at, and leaves the device. -/
theorem Dev.translate_of_range (hva : 2 ^ 48 ≤ va) : d.translate k va acc = ⟨d, .error (xlateFault 4 0 acc va)⟩ := by
  rw [Dev.translate, if_pos hva]

/-- With translation off an address in range is its own physical address. -/
theorem Dev.translate_of_off (hoff : (d.arch k).xlateOn = false) (hva : va < 2 ^ 48) : d.translate k va acc = d.ok va := by
  have hrange : ¬ 2 ^ 48 ≤ va := Nat.not_le.mpr hva
  simp only [Dev.translate, if_neg hrange, hoff, Bool.not_false, if_true]

/-- A RANGE fault has reason 4, level 0 and the access in bits 8 and up of its detail (Table 18-4). -/
theorem xlateFault_range (va : Nat) : xlateFault 4 0 acc va = ⟨0x0A, 4 + 256 * acc, va⟩ := by
  simp only [xlateFault, Nat.zero_mul, Nat.add_zero, Nat.mul_comm acc]

end Sys2Proof.Machine

namespace Sys2Proof.Claims
open Sys2Proof.Machine

/-- Settles O43: the range is checked first, whatever EN reads; then EN = 0 passes the address through. -/
theorem translationOffAndRange : Obligations.TranslationOffAndRange := by
  intro d k va acc
  refine ⟨fun hoff hva => ?_, fun hva => ?_⟩
  · exact Dev.translate_of_off acc ((d.arch k).xlateOn_eq_getLsbD.trans hoff) hva
  · exact xlateFault_range acc va ▸ Dev.translate_of_range acc hva

end Sys2Proof.Claims
end

section
/-!
The machine as a whole: the few ways in which commands answer, and from them what every step keeps (95): the queue, the fuses (03 R83),
the debug level (22 R473, R474) and that no reset request outlives its command (03 R69).
-/
namespace Sys2Proof.Machine

/-! Debug access -/

/-- An operation on debug access that raises no level and counts no failure. -/
def Dbg.Tame (f : Dbg → Dbg) : Prop := ∀ x, (f x).1.level ≤ x.1.level ∧ (f x).1.fails = x.1.fails

theorem Dbg.tame_busAnswer (a : Nat) : Dbg.Tame fun s => s.busAnswer a := by
  intro x
  simp only [Dbg.busAnswer]
  split
  · exact ⟨le_rfl, rfl⟩
  · split <;> exact ⟨le_rfl, rfl⟩

theorem Dbg.tame_bus (addr : BitVec 48) (size : BitVec 2) (write : Bool) (data : W64) :
    Dbg.Tame fun s => s.bus addr size write data := by
  intro x
  simp only [Dbg.bus]
  split
  · exact ⟨le_rfl, rfl⟩
  split
  · exact ⟨le_rfl, rfl⟩
  split
  · exact ⟨le_rfl, rfl⟩
  split
  · exact Dbg.tame_busAnswer _ _
  split
  · exact ⟨le_rfl, rfl⟩
  · split <;> exact ⟨le_rfl, rfl⟩

theorem Dbg.tame_sample (data : Nat) : Dbg.Tame fun s => s.sample data := fun _ => ⟨le_rfl, rfl⟩

theorem Dbg.tame_extest : Dbg.Tame Dbg.extest := by
  intro x
  unfold Dbg.extest
  split <;> exact ⟨le_rfl, rfl⟩

theorem Dbg.tame_chal : Dbg.Tame Dbg.chal := by
  intro x
  unfold Dbg.chal
  split <;> exact ⟨le_rfl, rfl⟩

theorem Dbg.tame_atFull (ok : Dbg → Bool) (f : Dbg → Dev → Dev) : Dbg.Tame fun s => s.atFull (ok s) (f s) := by
  intro x
  simp only [Dbg.atFull]
  split <;> exact ⟨le_rfl, rfl⟩

theorem Dbg.tame_drop (l : BitVec 2) : Dbg.Tame fun s => s.drop l := by
  intro x
  simp only [Dbg.drop]
  split
  · exact ⟨le_rfl, rfl⟩
  · next h =>
    simp only [Bool.or_eq_true, decide_eq_true_eq, not_or, not_le] at h
    exact ⟨h.2.le, rfl⟩

/-- A response leaves the level, counting a failure, or raises it to one that the OTP permits (22 R474). -/
theorem Dbg.resp_level (x : Dbg) (l : BitVec 2) (mac : BitVec 128) :
    let v := (x.resp l mac).1
    v.nonce = none ∧ ((v.level = x.1.level ∧ v.fails ≤ 15) ∨
      (v.level = l.toNat ∧ l.toNat ≤ x.2.otp.dbgMax ∧ x.1.nonce.isSome = true ∧ v.fails = x.1.fails)) := by
  cases hn : x.1.nonce with
  | none => simp [Dbg.resp, hn]
  | some n =>
    simp only [Dbg.resp, hn]
    split
    · next hgood =>
      simp only [Bool.and_eq_true, decide_eq_true_eq] at hgood
      obtain ⟨⟨hmax, -⟩, -⟩ := hgood
      split <;> exact ⟨rfl, .inr ⟨rfl, hmax, rfl, rfl⟩⟩
    · exact ⟨rfl, .inl ⟨rfl, Nat.min_le_left _ _⟩⟩

theorem Otp.dbgMax_le (o : Otp) : o.dbgMax ≤ 2 := by
  unfold Otp.dbgMax
  split
  · exact le_rfl
  · split <;> omega

/-! The ways in which commands answer -/

/-- How the command `i` answers. -/
inductive Answers : Instr → (State → Answer) → Prop
  | run {i : Instr} (f : Dev → Dev) : Answers i fun s => s.run f
  | clocked {i : Instr} (f : Dev → Dev) : Answers i fun s => s.clocked f
  | reach {i : Instr} (f : Dev → Dev) : Answers i fun s => s.reach f
  | debug {i : Instr} {f : Dbg → Dbg} (hf : Dbg.Tame f) : Answers i fun s => s.vopen f
  | response (l : BitVec 2) (mac : BitVec 128) : Answers (.voResp l mac) fun s => s.vopen fun v => v.resp l mac
  | pinReset {i : Instr} : Answers i fun s => if s.dev.sys.porstLow then s.powerOn else .next s
  | supplyFall {i : Instr} : Answers i State.supplyFall
  | sequenceEnd {i : Instr} (testOk : Bool) (a b : List Byte) : Answers i fun s => s.sequenceEnd testOk a b
  | otpDone {i : Instr} : Answers i State.otpDone

theorem exec_answers (i : Instr) : Answers i fun s => exec i s := by
  cases i
  all_goals dsimp only [exec]
  case voResp l mac => exact .response l mac
  case idcode => exact .debug (f := Dbg.idcode) fun _ => ⟨le_rfl, rfl⟩
  case bypass => exact .debug (f := Dbg.bypass) fun _ => ⟨le_rfl, rfl⟩
  case voStatCapture => exact .debug (f := Dbg.statCapture) fun _ => ⟨le_rfl, rfl⟩
  case samplePreload data => exact .debug (f := fun x => x.sample data) (Dbg.tame_sample data)
  case extest => exact .debug Dbg.tame_extest
  case voChal => exact .debug Dbg.tame_chal
  case voBus a sz write data => exact .debug (f := fun x => x.bus a sz write data) (Dbg.tame_bus a sz write data)
  case trcCtrlEn v => exact .debug (f := fun x => x.bus _ 2 true _) (Dbg.tame_bus _ 2 true _)
  case halt => exact .debug (f := Dbg.halt) (Dbg.tame_atFull (fun _ => true) fun _ d => d.haltRequest 1 0 0)
  case debugWarm => exact .debug (f := Dbg.warm) (Dbg.tame_atFull (fun _ => true) fun _ d => d.warmReset 8 0)
  case step k => exact .debug (f := fun x => x.step k) (Dbg.tame_atFull (fun x => x.2.sys.halted) fun _ => _)
  case resume => exact .debug (f := Dbg.resume) (Dbg.tame_atFull (fun x => x.2.sys.halted) fun _ d => d.resume)
  case dropLevel l => exact .debug (f := fun x => x.drop l) (Dbg.tame_drop l)
  case powerOnReset => exact .pinReset
  case vddAonFall => exact .supplyFall
  case resetSequenceEnd testOk a b => exact .sequenceEnd testOk a b
  case otpCommandDone => exact .otpDone
  case registerWrite | enableSet | enableClear | expertChange | ownGo | rstCtrlWarm | foutRelease | foutForce | pwrReqWrite |
    standbyEnter | rollbackAdv | revoke | fieldGo | stepGo | evSwSet | evSwClr | loadOpen | loadClose | loadCheck | loadSwap |
    loadCancel | evselWrite | tplProgWrite | jqPost | jqFlush | pwmCompareWrite | refForceWrite | cmpLatchClear | sgClear | shClrMulti
    | vtSet | vtClr | tmrCmpWrite | encPreset | wdFeed | wdAck | nbBind | nbUnbind | ackDetach | coreGo | mbFlush | hbmInvalGo | scrGo
    | sillStart | sillCancel | pfTsnapGo | ethMdioGo | gclGo | canTxreq | canTxcan | canRxfullRelease | canRecover | xspiGo |
    xspiReset | i2cCgo | errInfoRead | clearingRead | tsPeakRead | ltNowLoRead | tmrCapRead | ethTxtsRead | hbmRead | hbmWrite |
    pcieInboundWrite | pcieInboundRead | bootDb => exact .reach _
  case porstNLow | wrstNLow | resetPinRise | warmReset | clockLoss | serdesPllLock | domainTransitionEnd | temperatureReading |
    faultInputChange | comparatorChange | cmpSettled | geta | puta | getx | putx | gety | puty | adr | add | sub | and | or | xor |
    cmp | addv | subv | mul | mulv | div | divu | rem | remu | fadd | fsub | fmul | fdiv | fcmp | mov | neg | not | shl | shr | sar |
    rol | sext8 | sext16 | sext32 | addRegister | subRegister | andRegister | orRegister | xorRegister | fcvt | movcq | ldi | addi |
    cmpi | andi | ori | xori | ldiL | addiL | cmpiL | push | pop | drop | ret | bcc | jmp | call | calli | bmov | bmovd | bfill |
    bfind | tas | lr | sc | fence | ibar | icinv | icinvAll | door | remoteDoor | dreqReply | doorOut | trap | rte | krd | kadr | kinc
    | kbnd | kprm | kmov | klock | kopen | kld | kst | kpc | kddc | kjmp | kmfs | kmts | mfs | mts | tlbiVa | tlbiAsid | tlbiAll |
    tlblock | tlbunlock | tlbprobe | chkpt | cpwait | wfi | wfiWake | cp0Post | rdjob | rdlane | cp1Start | cp1Stat | cp1Cancel |
    cqResultLand | interruptEntry | arithException | autoCheckpoint | lockstepMismatch | pcieReset | ethLinkChange | haltDrainDone |
    rootPllRelock | pcieLinkChange => exact .run _
  all_goals exact .clocked _

/-! Every answer is a next state, and the queue is no part of it -/

variable {i : Instr} {a : State → Answer} {s t : State}

theorem Answers.next (h : Answers i a) (s : State) : ∃ t, a s = .next t := by
  cases h with
  | clocked f =>
    rcases s.clocked_next f with h | h
    · exact ⟨_, h⟩
    · exact ⟨_, h⟩
  | reach f => simp only [State.reach]; split <;> exact ⟨_, rfl⟩
  | pinReset => dsimp only; split <;> exact ⟨_, rfl⟩
  | run | debug | response | supplyFall | sequenceEnd | otpDone => exact ⟨_, rfl⟩

theorem Answers.queue_irrelevant (h : Answers i a) (q : List Instr) (hn : a s = .next t) :
    a { s with pending := q } = .next { t with pending := q } := by
  cases h with
  | clocked f =>
    simp only [State.clocked] at hn ⊢
    split at hn <;> cases hn <;> simp only [*] <;> rfl
  | reach f =>
    simp only [State.reach] at hn ⊢
    split at hn <;> cases hn <;> simp only [*] <;> rfl
  | pinReset =>
    dsimp only at hn ⊢
    split at hn <;> cases hn <;> simp only [*] <;> rfl
  | run | debug | response | supplyFall | sequenceEnd | otpDone => cases hn; rfl

/-- A command that answers leaves every waiting command as it is. -/
theorem Answers.keeps_queue (h : Answers i a) (hn : a s = .next t) : t.pending = s.pending := by
  have hq := h.queue_irrelevant s.pending hn
  rw [show { s with pending := s.pending } = s from rfl, hn] at hq
  injection hq with hq
  rw [hq]

/-! The fuses -/

theorem and_or_absorb {n : Nat} (x y : BitVec n) : x &&& (x ||| y) = x := by
  ext k hk
  simp only [BitVec.getElem_and, BitVec.getElem_or]
  cases x[k] <;> rfl

theorem Otp.le_refl (o : Otp) : o.le o := by simp [Otp.le]

/-- Words of fuses that are ORed in blow fuses and unblow none. -/
theorem blowWords_keeps (t : Table W32) (base : Nat) (l : List W32) (i : Nat) :
    Table.get 0 t i &&& Table.get 0 (blowWords t base l) i = Table.get 0 t i := by
  have hfold : ∀ (js : List Nat) (u : Table W32), Table.get 0 t i &&& Table.get 0 u i = Table.get 0 t i →
      Table.get 0 t i &&& Table.get 0 (js.foldl (fun u j =>
        Table.put 0 u (base + j) (Table.get 0 u (base + j) ||| l.getD j 0)) u) i = Table.get 0 t i := by
    intro js
    induction js with
    | nil => exact fun _ hu => hu
    | cons j js ih =>
      refine fun u hu => ih _ ?_
      dsimp only
      by_cases hj : base + j = i
      · rw [hj, Table.get_put_same, ← hu, BitVec.and_assoc, and_or_absorb]
      · rw [Table.get_put_ne 0 0 u _ hj, hu]
  exact hfold _ t (BitVec.and_self)

theorem Otp.le_blow (o : Otp) (c : OtpCmd) : o.le (o.blow c) := by
  cases c with
  | rollbackAdv => simp [Otp.le, Otp.blow]
  | revoke n => simp [Otp.le, Otp.blow, and_or_absorb]
  | field sel l =>
    simp only [Otp.blow]
    repeat' split
    all_goals simp +contextual [Otp.le, and_or_absorb]
    all_goals exact blowWords_keeps _ _ _

/-- A command cut short blows some of its fuses and unblows none (03 R84). -/
theorem Otp.le_blowPart (o : Otp) (seed : Nat) (c : OtpCmd) : o.le (o.blowPart seed c) := by
  cases c with
  | rollbackAdv | revoke n =>
    simp only [Otp.blowPart]
    split
    · exact o.le_blow _
    · exact o.le_refl
  | field sel l =>
    have hblow := o.le_blow (.field sel (freeWords seed l))
    simp only [Otp.blowPart]
    split
    · exact hblow
    · exact hblow

theorem Dev.le_cutFuses (d : Dev) (o : Otp) : o.le (d.cutFuses o) := by
  unfold Dev.cutFuses
  split
  · exact o.le_refl
  · exact o.le_blowPart _ _

theorem State.le_withDev (s : State) (d : Dev) : s.otp.le (s.withDev d).otp := by
  simp only [State.withDev]
  split
  · exact s.dev.le_cutFuses _
  · exact s.otp.le_refl

theorem Answers.fuses_only_blow (h : Answers i a) (hn : a s = .next t) : s.otp.le t.otp := by
  cases h with
  | clocked f =>
    simp only [State.clocked] at hn
    split at hn <;> cases hn
    · exact s.otp.le_refl
    · exact s.le_withDev _
  | reach f =>
    simp only [State.reach] at hn
    split at hn <;> cases hn
    · exact s.otp.le_refl
    · exact s.le_withDev _
  | pinReset =>
    dsimp only at hn
    split at hn <;> cases hn
    · exact s.le_withDev _
    · exact s.otp.le_refl
  | otpDone =>
    cases hn
    dsimp only
    split
    · exact s.otp.le_blow _
    · exact s.otp.le_refl
  | run | debug | response | sequenceEnd => cases hn; exact s.le_withDev _
  | supplyFall => cases hn; exact State.le_withDev { s with dev := _ } _

/-! The debug level -/

/-- What a command does to level and failures: a response that raises the level, or neither is raised beyond what 22 R474 has. -/
theorem Answers.level (h : Answers i a) (hn : a s = .next t) :
    (t.sec.level ≤ s.sec.level ∧ (s.sec.fails ≤ 15 → t.sec.fails ≤ 15)) ∨
      ∃ (l : BitVec 2) (mac : BitVec 128), i = .voResp l mac ∧ t.sec.level = l.toNat ∧ l.toNat ≤ s.dev.otp.dbgMax ∧
        s.sec.nonce.isSome = true ∧ t.sec.nonce = none ∧ t.sec.fails = s.sec.fails := by
  have hsame : ∀ d : Dev, (s.withDev d).sec.level ≤ s.sec.level ∧ (s.sec.fails ≤ 15 → (s.withDev d).sec.fails ≤ 15) :=
    fun _ => ⟨Nat.le_refl _, id⟩
  have hnone : (0 : Nat) ≤ s.sec.level ∧ (s.sec.fails ≤ 15 → (0 : Nat) ≤ 15) := ⟨Nat.zero_le _, fun _ => Nat.zero_le _⟩
  cases h with
  | clocked f =>
    simp only [State.clocked] at hn
    split at hn <;> cases hn
    · exact .inl ⟨Nat.le_refl _, id⟩
    · exact .inl (hsame _)
  | reach f =>
    simp only [State.reach] at hn
    split at hn <;> cases hn
    · exact .inl ⟨Nat.le_refl _, id⟩
    · exact .inl (hsame _)
  | pinReset =>
    dsimp only at hn
    split at hn <;> cases hn
    · exact .inl hnone
    · exact .inl ⟨Nat.le_refl _, id⟩
  | supplyFall => cases hn; exact .inl hnone
  | run | sequenceEnd => cases hn; exact .inl (hsame _)
  | otpDone => cases hn; exact .inl ⟨Nat.le_refl _, id⟩
  | debug hf =>
    cases hn
    obtain ⟨hlevel, hfails⟩ := hf (s.sec, s.dev)
    exact .inl ⟨hlevel, fun h15 => hfails ▸ h15⟩
  | response l mac =>
    cases hn
    obtain ⟨hnonce, ⟨hlevel, hfails⟩ | ⟨hlevel, hmax, harmed, hfails⟩⟩ := Dbg.resp_level (s.sec, s.dev) l mac
    · exact .inl ⟨hlevel.le, fun _ => hfails⟩
    · exact .inr ⟨l, mac, rfl, hlevel, hmax, harmed, hnonce, hfails⟩

theorem Answers.legal (h : Answers i a) (hs : s.sec.legal) (hn : a s = .next t) : t.sec.legal := by
  obtain ⟨hlevel, hfails⟩ := hs
  rcases h.level hn with ⟨hle, h15⟩ | ⟨l, _, -, hl, hmax, -, -, hsame⟩
  · exact ⟨hle.trans hlevel, h15 hfails⟩
  · exact ⟨hl.trans_le (hmax.trans (Otp.dbgMax_le _)), hsame.trans_le hfails⟩

end Sys2Proof.Machine
end

section
/-!
What the Shutter matrix leaves alone (11 R253), as a relation that every part of a pass keeps.
-/
namespace Sys2Proof.Machine

/-! Repeated updates -/

/-- What every update of a fold keeps, the fold keeps. -/
theorem foldl_keeps {β : Type} {P : Dev → Prop} (f : Dev → β → Dev) (l : List β) {d : Dev} (h0 : P d)
    (hf : ∀ x ∈ l, ∀ e, P e → P (f e x)) : P (l.foldl f d) := by
  induction l generalizing d with
  | nil => exact h0
  | cons x r ih =>
    exact ih (hf x List.mem_cons_self d h0) fun y hy => hf y (List.mem_cons_of_mem x hy)

theorem Dev.forN_keeps {P : Dev → Prop} (n : Nat) (g : Nat → Dev → Dev) {d : Dev} (h0 : P d)
    (hg : ∀ i < n, ∀ e, P e → P (g i e)) : P (d.forN n g) :=
  foldl_keeps _ _ h0 fun i hi => hg i (List.mem_range.mp hi)

/-! The frame -/

/-- A register that the matrix may write: the PWM pages and the group pages. -/
def matrixReg (a : Nat) : Prop := a / 0x1000000 = 0xE1 ∨ a / 0x20000 = 0xE7000000 / 0x20000

/-- `r` differs from `d` only in what the Shutter matrix may change (11 R253); outside standby it asks for no reset (03 R66). -/
structure Dev.MatrixKeeps (d r : Dev) : Prop where
  reg : ∀ a, ¬ matrixReg a → r.reg a = d.reg a
  rest : { r with regs := d.regs, groups := d.groups, pads := d.pads, pwms := d.pwms, sys := d.sys, present := d.present } = d
  present : { r.present with acted := d.present.acted } = d.present
  sys : { r.sys with resetReq := d.sys.resetReq } = d.sys
  awake : d.sys.standby = false → r.sys = d.sys

variable {d e r : Dev}

theorem Dev.MatrixKeeps.refl (d : Dev) : d.MatrixKeeps d := ⟨fun _ _ => rfl, rfl, rfl, rfl, fun _ => rfl⟩

theorem Dev.MatrixKeeps.standby (h : d.MatrixKeeps e) : e.sys.standby = d.sys.standby := (congrArg SysSt.standby h.sys : _)

theorem Dev.MatrixKeeps.trans (h : d.MatrixKeeps e) (k : e.MatrixKeeps r) : d.MatrixKeeps r where
  reg a ha := (k.reg a ha).trans (h.reg a ha)
  rest := (congrArg (fun x : Dev => { x with
    regs := d.regs, groups := d.groups, pads := d.pads, pwms := d.pwms, sys := d.sys, present := d.present }) k.rest).trans h.rest
  present := (congrArg (fun x : Present => { x with acted := d.present.acted }) k.present).trans h.present
  sys := (congrArg (fun x : SysSt => { x with resetReq := d.sys.resetReq }) k.sys).trans h.sys
  awake hs := (k.awake (h.standby.trans hs)).trans (h.awake hs)

/-- A register that the matrix may write takes a value. -/
theorem Dev.MatrixKeeps.setReg {a : Nat} (ha : matrixReg a) (v : W32) : d.MatrixKeeps (d.setReg a v) :=
  ⟨fun _ hb => Dev.reg_setReg_ne d v fun hab => hb (hab ▸ ha), rfl, rfl, rfl, fun _ => rfl⟩

theorem matrixReg_group {g o : Nat} (hg : g < 24) (ho : o < 0x1000) : matrixReg (pgGroup g + o) := by
  simp only [matrixReg, pgGroup]
  omega

theorem matrixReg_pwm {c g o : Nat} (hc : c < 16) (hg : g < 6) (ho : o < 0x1000) : matrixReg (pgPwm c g + o) := by
  simp only [matrixReg, pgPwm]
  omega

theorem Dev.MatrixKeeps.setGroup {g : Nat} (hg : g < 24) (f : Fld) (hf : f.ofs < 0x1000) (b : Bool) :
    d.MatrixKeeps (d.setB (pgGroup g) f b) := .setReg (matrixReg_group hg hf) _

theorem Dev.MatrixKeeps.setPwm {c g : Nat} (hc : c < 16) (hg : g < 6) (f : Fld) (hf : f.ofs < 0x1000) (b : Bool) :
    d.MatrixKeeps (d.setB (pgPwm c g) f b) := .setReg (matrixReg_pwm hc hg hf) _

/-- A latch that sets in standby may ask for a reset; no other part of the matrix does. -/
theorem Dev.MatrixKeeps.setLatch {g : Nat} (hg : g < 24) : d.MatrixKeeps (d.setLatch g) := by
  unfold Dev.setLatch
  split
  · exact .refl d
  · refine .trans (.setGroup hg F.GROUP_STATUS_LATCHED (by decide) true) ?_
    refine ⟨fun _ _ => rfl, rfl, rfl, ?_, fun hs => ?_⟩
    · dsimp only; split <;> rfl
    · dsimp only; rw [hs]; rfl

theorem Dev.MatrixKeeps.latchPass : d.MatrixKeeps d.latchPass := by
  refine Dev.forN_keeps 24 _ (.refl d) fun g hg e he => ?_
  split
  · exact he.trans (.setLatch hg)
  · exact he

theorem Dev.MatrixKeeps.latchLoop (k : Nat) (d : Dev) : d.MatrixKeeps (Dev.latchLoop k d) := by
  induction k generalizing d with
  | zero => exact .refl d
  | succ k ih =>
    unfold Dev.latchLoop
    split
    · exact .trans .latchPass (ih _)
    · exact .refl d

theorem Dev.MatrixKeeps.roseMarks : d.MatrixKeeps d.roseMarks := by
  refine Dev.forN_keeps 24 _ (.refl d) fun g _ e he => ?_
  split
  · exact he.trans ⟨fun _ _ => rfl, rfl, rfl, rfl, fun _ => rfl⟩
  · exact he

theorem Dev.MatrixKeeps.groupStatus {g : Nat} (hg : g < 24) : d.MatrixKeeps (d.groupStatus g) := by
  unfold Dev.groupStatus
  exact .trans (.setGroup hg _ (by decide) _) (.trans (.setGroup hg _ (by decide) _)
    (.trans (.setGroup hg _ (by decide) _) (.setGroup hg _ (by decide) _)))

theorem Dev.MatrixKeeps.padRefresh {c g : Nat} (hc : c < 16) (hg : g < 6) : d.MatrixKeeps (d.padRefresh c g) := by
  have hpads (t : Table Nat) : d.MatrixKeeps { d with pads := t } := ⟨fun _ _ => rfl, rfl, rfl, rfl, fun _ => rfl⟩
  simp only [Dev.padRefresh]
  split
  · exact .trans (hpads _) (.trans (.setPwm hc hg _ (by decide) _) (.setPwm hc hg _ (by decide) _))
  · exact hpads _

theorem Dev.MatrixKeeps.pairForce {c g : Nat} (hc : c < 16) (hg : g < 6) : d.MatrixKeeps (d.pairForce c g) := by
  have hpwms (e : Dev) (t : Table Pwm) : e.MatrixKeeps { e with pwms := t } := ⟨fun _ _ => rfl, rfl, rfl, rfl, fun _ => rfl⟩
  unfold Dev.pairForce
  extract_lets p n was now marked w w1 w2 cut resumed
  split
  · exact .padRefresh hc hg
  · have hmarked : d.MatrixKeeps marked := .setPwm hc hg _ (by decide) _
    have hresumed : cut.MatrixKeeps resumed := by
      unfold resumed
      split
      · exact .setPwm hc hg _ (by decide) _
      split
      · exact .setPwm hc hg _ (by decide) _
      · exact .refl _
    exact hmarked.trans ((hpwms marked _).trans (hresumed.trans (.padRefresh hc hg)))

theorem Dev.MatrixKeeps.shutter (d : Dev) : d.MatrixKeeps d.shutter := by
  have hstatus (e : Dev) : e.MatrixKeeps (e.forN 24 fun g d => d.groupStatus g) :=
    Dev.forN_keeps 24 _ (.refl e) fun g hg _ he => he.trans (.groupStatus hg)
  have hpairs (e : Dev) : e.MatrixKeeps (e.forN 96 fun n d => d.pairForce (n / 6) (n % 6)) :=
    Dev.forN_keeps 96 _ (.refl e) fun n hn _ he => he.trans (.pairForce (by omega) (by omega))
  exact .trans (.latchLoop 24 d) (.trans .roseMarks (.trans (hstatus _) (hpairs _)))

end Sys2Proof.Machine

namespace Sys2Proof.Claims
open Sys2Proof.Machine

/-- Settles O27: every part of the matrix keeps what lies outside it, so its passes do. -/
theorem shutterFrame : Obligations.ShutterFrame := by
  intro d
  obtain ⟨hreg, hrest, hpresent, hsys, -⟩ := Dev.MatrixKeeps.shutter d
  exact ⟨fun a hpwm hgroup => hreg a (not_or.mpr ⟨hpwm, hgroup⟩), hrest, hpresent, hsys⟩

end Sys2Proof.Claims
end

section
/-!
Resets that a block asks for (03 R69): every command leaves none open; with that, what every step keeps.
-/
namespace Sys2Proof.Machine

variable {d : Dev} {s t : State} {i : Instr} {a : State → Answer}

theorem Dev.quiet_shutter (hs : d.sys.standby = false) (hq : d.quiet) : d.shutter.quiet := by
  rw [Dev.quiet, (Dev.MatrixKeeps.shutter d).awake hs]
  exact hq

/-- A warm reset answers whatever request was open, and the matrix asks for none while it starts. -/
theorem Dev.quiet_warmReset (d : Dev) (cause info : Nat) : (d.warmReset cause info).quiet := by
  have hcause (e : Dev) : (e.addCause cause info).sys = e.sys := by
    unfold Dev.addCause
    dsimp only
    (repeat' split) <;> rfl
  unfold Dev.warmReset
  split
  · rfl
  · refine Dev.quiet_shutter ?_ ?_
    · simp only [Dev.domainsOff, Dev.setReg_sys, Dev.inc_sys, hcause]; rfl
    · simp only [Dev.quiet, Dev.domainsOff, Dev.setReg_sys, Dev.inc_sys, hcause]; rfl

theorem Dev.quiet_settle (d : Dev) : d.settle.quiet := by
  simp only [Dev.settle, Dev.resetAsked]
  split
  · assumption
  · exact Dev.quiet_warmReset _ _ _

theorem Dev.quiet_powerOnReset (d : Dev) (o : Otp) : (d.powerOnReset o).quiet := by
  have hflt (e : Dev) : e.fltRefresh.sys = e.sys :=
    foldl_keeps (P := fun x => x.sys = e.sys) _ _ rfl fun _ _ _ h => h
  refine Dev.quiet_shutter ?_ ?_
  · rw [hflt]; rfl
  · rw [Dev.quiet, hflt]; rfl

theorem Answers.quiet (h : Answers i a) (hs : s.dev.quiet) (hn : a s = .next t) : t.dev.quiet := by
  have hdev (s : State) (d : Dev) : (s.withDev d.settle).dev.quiet := d.quiet_settle
  cases h with
  | clocked f =>
    simp only [State.clocked] at hn
    split at hn <;> cases hn
    · exact hs
    · exact hdev _ _
  | reach f =>
    simp only [State.reach] at hn
    split at hn <;> cases hn
    · exact hs
    · exact hdev _ _
  | pinReset =>
    dsimp only at hn
    split at hn <;> cases hn
    · exact s.dev.quiet_powerOnReset s.otp
    · exact hs
  | supplyFall => cases hn; exact Dev.quiet_powerOnReset _ _
  | run | sequenceEnd | debug | response => cases hn; exact hdev _ _
  | otpDone => cases hn; exact Dev.quiet_settle _

theorem Dev.quiet_tickOver (hq : d.quiet) : d.tickOver.quiet := by
  unfold Dev.tickOver
  split
  · exact hq
  · exact Dev.quiet_settle _

/-- A step with a command in front is that command's answer; without one a tick passes. -/
theorem step_cases (h : step s = .next t) :
    (∃ i rest, s.pending = i :: rest ∧ exec i { s with pending := rest } = .next t) ∨ (s.pending = [] ∧ t = s.tickOver) := by
  unfold step at h
  split at h
  · next i rest hq => exact .inl ⟨i, rest, hq, h⟩
  · next hq => cases h; exact .inr ⟨hq, rfl⟩

end Sys2Proof.Machine

namespace Sys2Proof.Claims
open Sys2Proof.Machine

/-- Settles O1: by the definition of a step. -/
theorem stepRunsFront : Obligations.StepRunsFront := fun _ _ _ => rfl

/-- Settles O2: a command leaves the rest of the queue. -/
theorem queueFirstInFirstOut : Obligations.QueueFirstInFirstOut := by
  intro s t h
  rcases step_cases h with ⟨i, rest, hq, hi⟩ | ⟨hq, rfl⟩
  · rw [hq]
    exact (exec_answers i).keeps_queue hi
  · rw [hq]
    exact hq

/-- Settles O3: none of the ways to answer reads the queue. -/
theorem commandIgnoresQueue : Obligations.CommandIgnoresQueue :=
  fun i s q => ⟨fun _ => (exec_answers i).queue_irrelevant q, (exec_answers i).next s⟩

/-- Settles O4: the reset state, evaluated. -/
theorem resetLeaves : Obligations.ResetLeaves := by
  refine ⟨rfl, rfl, by decide, rfl, rfl, rfl, rfl, rfl, ?_, rfl⟩
  exact ⟨by decide, by decide⟩

/-- Settles O5: what a command asks of the reset sequence is answered before it ends, and a level is raised to a legal one only. -/
theorem stepKeepsSafe : Obligations.StepKeepsSafe := by
  rintro s t ⟨hlegal, hquiet⟩ h
  rcases step_cases h with ⟨i, rest, -, hi⟩ | ⟨-, rfl⟩
  · have ha := exec_answers i
    exact ⟨ha.legal (s := { s with pending := rest }) hlegal hi, ha.quiet (s := { s with pending := rest }) hquiet hi⟩
  · exact ⟨hlegal, Dev.quiet_tickOver hquiet⟩

/-- Settles O6: a fuse command blows fuses, and so does what a reset leaves of one. -/
theorem fusesOnlyBlow : Obligations.FusesOnlyBlow := by
  intro s t h
  rcases step_cases h with ⟨i, rest, -, hi⟩ | ⟨-, rfl⟩
  · exact (exec_answers i).fuses_only_blow (s := { s with pending := rest }) hi
  · exact s.le_withDev _

/-- Settles O7: every other command leaves the level or lowers it. -/
theorem onlyResponseRaisesLevel : Obligations.OnlyResponseRaisesLevel := by
  intro i s t h hraised
  rcases (exec_answers i).level h with ⟨hle, -⟩ | ⟨l, mac, hi, hlevel, hmax, harmed, hnonce, -⟩
  · exact absurd hle (Nat.not_le.mpr hraised)
  · exact ⟨l, mac, hi, hlevel, hmax, harmed, hnonce⟩

end Sys2Proof.Claims
end

section
/-!
What the Shutter matrix settles to (11 R252-R254): the latches reach a fixed point in 24 passes, and what follows them leaves their inputs.
-/
namespace Sys2Proof.Machine

variable {d e r : Dev}

/-! What a group's trip input depends on -/

/-- `e` gives the trip inputs of the groups what `d` gives them: the registers but for the PWM pages and the STATUS words of the groups,
and of those the latches. -/
structure Dev.SameSources (d e : Dev) : Prop where
  reg : ∀ a, ¬ matrixReg a → e.reg a = d.reg a
  mask : ∀ g < 24, ∀ o < 0x1000, o ≠ 0x10 → e.reg (pgGroup g + o) = d.reg (pgGroup g + o)
  latched : ∀ g < 24, e.latched g = d.latched g
  cmps : e.cmps = d.cmps
  tick : e.present.tick = d.present.tick
  acted : ∀ n, e.acted 10 n = d.acted 10 n
  standby : e.sys.standby = d.sys.standby
  cmpOnly : e.sys.cmpOnly = d.sys.cmpOnly

theorem Dev.SameSources.refl (d : Dev) : d.SameSources d :=
  ⟨fun _ _ => rfl, fun _ _ _ _ _ => rfl, fun _ _ => rfl, rfl, rfl, fun _ => rfl, rfl, rfl⟩

theorem Dev.SameSources.trans (h : d.SameSources e) (k : e.SameSources r) : d.SameSources r where
  reg a ha := (k.reg a ha).trans (h.reg a ha)
  mask g hg o ho hs := (k.mask g hg o ho hs).trans (h.mask g hg o ho hs)
  latched g hg := (k.latched g hg).trans (h.latched g hg)
  cmps := k.cmps.trans h.cmps
  tick := k.tick.trans h.tick
  acted n := (k.acted n).trans (h.acted n)
  standby := k.standby.trans h.standby
  cmpOnly := k.cmpOnly.trans h.cmpOnly

theorem Dev.f_congr {p : Nat} {f : Fld} (h : e.reg (p + f.ofs) = d.reg (p + f.ofs)) : e.f p f = d.f p f := by
  rw [Dev.f, Dev.f, h]

theorem Dev.on_congr {p : Nat} {f : Fld} (h : e.reg (p + f.ofs) = d.reg (p + f.ofs)) : e.on p f = d.on p f := by
  rw [Dev.on, Dev.on, Dev.f_congr h]

theorem Dev.domOn_congr {b : Nat} (h4 : e.reg (pgPwr + 0x44) = d.reg (pgPwr + 0x44)) (h8 : e.reg (pgPwr + 0x48) = d.reg (pgPwr + 0x48)) :
    e.domOn b = d.domOn b := by
  rw [Dev.domOn, Dev.domOn, h4, h8]

theorem Dev.f_lt (d : Dev) (p : Nat) (f : Fld) : d.f p f < 2 ^ f.width := Nat.mod_lt _ (Nat.two_pow_pos _)

/-- `any` over a list looks at the list's members only. -/
theorem any_congr {α : Type} {p q : α → Bool} {l : List α} (h : ∀ x ∈ l, p x = q x) : l.any p = l.any q := by
  rw [Bool.eq_iff_iff, List.any_eq_true, List.any_eq_true]
  exact ⟨fun ⟨x, hx, hp⟩ => ⟨x, hx, h x hx ▸ hp⟩, fun ⟨x, hx, hq⟩ => ⟨x, hx, (h x hx).symm ▸ hq⟩⟩

namespace Dev.SameSources
variable (h : d.SameSources e)
include h

theorem domOn (b : Nat) : e.domOn b = d.domOn b :=
  Dev.domOn_congr (h.reg _ (by simp [matrixReg, pgPwr])) (h.reg _ (by simp [matrixReg, pgPwr]))

theorem live {p : Nat} (hp : ¬ matrixReg (p + 8)) : e.live p = d.live p := by
  have hen : e.en p = d.en p := Dev.on_congr (h.reg _ hp)
  simp only [Dev.live, h.domOn, hen]

theorem cmpReg {n o : Nat} (hn : n < 384) (ho : o < 0x1000) : e.reg (cmpPage n + o) = d.reg (cmpPage n + o) := by
  refine h.reg _ ?_
  simp only [matrixReg, cmpPage, pgCmp]
  omega

theorem sdReg {c o : Nat} (hc : c < 16) (ho : o < 0x1000) : e.reg (pgSd c + o) = d.reg (pgSd c + o) := by
  refine h.reg _ ?_
  simp only [matrixReg, pgSd]
  omega

theorem casReg {c o : Nat} (hc : c < 16) (ho : o < 0x1000) : e.reg (pgCasSrc c + o) = d.reg (pgCasSrc c + o) := by
  refine h.reg _ ?_
  simp only [matrixReg, pgCasSrc]
  omega

theorem cmpUp {n : Nat} (hn : n < 384) : e.cmpUp n = d.cmpUp n := by
  have hlive : e.live (cmpPage n) = d.live (cmpPage n) := by
    refine h.live ?_
    simp only [matrixReg, cmpPage, pgCmp]
    omega
  have hcen : e.cmpCfg n F.CMP_CFG_CEN = d.cmpCfg n F.CMP_CFG_CEN := by
    refine Dev.f_congr (h.cmpReg hn ?_)
    simp only [Fld.at, F.CMP_CFG_CEN, cmpK]
    omega
  rw [Dev.cmpUp, Dev.cmpUp, hlive, hcen]

theorem sdRoute {c : Nat} (hc : c < 16) (i : Nat) : e.sdRoute c i = d.sdRoute c i := by
  unfold Dev.sdRoute
  refine List.find?_congr fun k hk => ?_
  have hk := List.mem_range.mp hk
  rw [Dev.on_congr (h.sdReg hc (by simp only [Fld.at, F.SD_FC_ROUTE_EN]; omega)),
    Dev.f_congr (h.sdReg hc (by simp only [Fld.at, F.SD_FC_ROUTE]; omega))]

theorem cmpSource {n : Nat} (hn : n < 384) : e.cmpSource n = d.cmpSource n := by
  have hc : n / 24 < 16 := by omega
  have hsel : e.cmpSelFilt n = d.cmpSelFilt n := by rw [Dev.cmpSelFilt, Dev.cmpSelFilt, h.casReg hc (by decide)]
  have hraw : e.cmpRaw n = d.cmpRaw n := by rw [Dev.cmpRaw, Dev.cmpRaw, h.cmpUp hn, h.cmps]
  have hfilt : e.cmpFilt n = d.cmpFilt n := by
    rw [Dev.cmpFilt, Dev.cmpFilt, h.cmpUp hn, h.standby, h.cmpReg hn (by decide)]
  have hen : e.en (pgSd (n / 24)) = d.en (pgSd (n / 24)) := Dev.on_congr (h.sdReg hc (by decide))
  simp only [Dev.cmpSource, Dev.cmpLost, h.cmpUp hn, h.sdRoute hc, hsel, hraw, hfilt, hen, h.cmpOnly, h.cmps, h.standby,
    h.sdReg hc (show 0x170 < 0x1000 by decide)]
  rfl

theorem bit64 {p o n : Nat} (hp : ¬ matrixReg (p + o + 4 * (n / 32))) : e.bit64 p o n = d.bit64 p o n := by
  rw [Dev.bit64, Dev.bit64, h.reg _ hp]

theorem atTick_reg (a : Nat) : e.atTick.reg a = d.atTick.reg a := by
  simp only [Dev.atTick, Dev.back, Dev.reg, h.tick]

theorem vtActive {n : Nat} (hn : n < 64) : e.vtActive n = d.vtActive n := by
  have hword : n / 32 < 2 := by omega
  have hvt : e.bit64 pgVt 0x50 n = d.bit64 pgVt 0x50 n := h.bit64 (by simp only [matrixReg, pgVt]; omega)
  have hpast : e.atTick.bit64 pgVt 0x50 n = d.atTick.bit64 pgVt 0x50 n := by rw [Dev.bit64, Dev.bit64, h.atTick_reg]
  rw [Dev.vtActive, Dev.vtActive, hvt, hpast, h.acted]

theorem wdActive {k : Nat} (hk : k < 21) : e.wdActive k = d.wdActive k := by
  have hnow : e.wdExpired k = d.wdExpired k := by
    have htrips {p : Nat} (hs : ¬ matrixReg (p + F.WD_STATUS_EXPIRED.ofs)) (ha : ¬ matrixReg (p + F.WD_CTRL_ACTION.ofs)) :
        e.wdTrips p = d.wdTrips p := by
      rw [Dev.wdTrips, Dev.wdTrips, Dev.on_congr (h.reg _ hs), Dev.f_congr (h.reg _ ha)]
    unfold Dev.wdExpired
    split
    · refine htrips ?_ ?_ <;> simp only [matrixReg, pgWdCore, F.WD_STATUS_EXPIRED, F.WD_CTRL_ACTION] <;> omega
    · rw [h.domOn, htrips] <;> simp only [matrixReg, pgWdCas, F.WD_STATUS_EXPIRED, F.WD_CTRL_ACTION] <;> omega
  have hpast : e.atTick.wdExpired k = d.atTick.wdExpired k := by
    simp only [Dev.wdExpired, Dev.wdTrips, Dev.domOn, Dev.on, Dev.f, h.atTick_reg]
  rw [Dev.wdActive, Dev.wdActive, hnow, hpast]

theorem detachTrips (g : Nat) : e.detachTrips g = d.detachTrips g := by
  have hchannel {l q : Nat} (hl : l < 32) (hq : q < 64) :
      e.rchGroup (l / 2) (32 * (l % 2) + q) = d.rchGroup (l / 2) (32 * (l % 2) + q) := by
    refine Dev.f_congr (h.casReg (by omega) ?_)
    simp only [Fld.at, F.CS_RCH_GROUP]
    omega
  unfold Dev.detachTrips
  refine any_congr fun l hl => ?_
  have hl := List.mem_range.mp hl
  have hdet : e.on (pgTlc l) F.TLC_STATUS_DETACHED = d.on (pgTlc l) F.TLC_STATUS_DETACHED :=
    Dev.on_congr (h.reg _ (by simp only [matrixReg, pgTlc, F.TLC_STATUS_DETACHED]; omega))
  have hnch : e.f (pgTlnb l) F.NB_CFG_NCH = d.f (pgTlnb l) F.NB_CFG_NCH :=
    Dev.f_congr (h.reg _ (by simp only [matrixReg, pgTlnb, F.NB_CFG_NCH]; omega))
  rw [hdet, hnch]
  congr 1
  refine any_congr fun q hq => ?_
  have hq := List.mem_range.mp hq
  rw [hchannel hl (hq.trans (d.f_lt _ _))]

/-- The trip sources are the same. -/
theorem srcActive (g i : Nat) : e.srcActive g i = d.srcActive g i := by
  have hsp : e.spFailed = d.spFailed := Dev.on_congr (h.reg _ (by simp [matrixReg, pgRst, F.FOUT_STAT_SP_FAILED]))
  unfold Dev.srcActive
  split
  · exact h.bit64 (by simp only [matrixReg, pgFlt]; omega)
  split
  · exact h.cmpSource (by omega)
  split
  · exact h.vtActive (by omega)
  split
  · exact h.latched _ (by omega)
  split
  · rfl
  split
  · exact hsp
  split
  · exact h.wdActive (by omega)
  · exact h.detachTrips g

variable {g : Nat} (hg : g < 24)
include hg

theorem groupOn (f : Fld) (hf : f.ofs < 0x1000) (hs : f.ofs ≠ 0x10) : e.on (pgGroup g) f = d.on (pgGroup g) f :=
  Dev.on_congr (h.mask g hg _ hf hs)

theorem selected : e.selected g = d.selected g := by
  have hw : e.maskWords g = d.maskWords g := by
    have hword (o : Nat) (ho : o < 0x1000) (hs : o ≠ 0x10) := h.mask g hg o ho hs
    have hcmp : (List.range 12).map (fun q => (0x40 + 32 * q, e.reg (pgGroup g + 0x48 + 4 * q))) =
        (List.range 12).map (fun q => (0x40 + 32 * q, d.reg (pgGroup g + 0x48 + 4 * q))) := by
      refine List.map_congr_left fun q hq => ?_
      have hq := List.mem_range.mp hq
      rw [Nat.add_assoc, hword (0x48 + 4 * q) (by omega) (by omega)]
    simp only [Dev.maskWords, hcmp, hword 0x40 (by decide) (by decide), hword 0x44 (by decide) (by decide),
      hword 0x78 (by decide) (by decide), hword 0x7C (by decide) (by decide), hword 0x80 (by decide) (by decide),
      hword 0x84 (by decide) (by decide)]
  rw [Dev.selected, Dev.selected, hw, h.groupOn hg F.SG_SYS_DETACH (by decide) (by decide)]

theorem expert : e.expert (pgGroup g) = d.expert (pgGroup g) := h.groupOn hg F.H_EXPERT (by decide) (by decide)

theorem voted : e.voted g = d.voted g := by
  simp only [Dev.voted, h.expert hg]
  split
  · refine List.filterMap_congr fun v hv => ?_
    have hv := List.mem_range.mp hv
    have hvalid := h.groupOn hg (F.SG_VOTE_SEL_VALID.at (4 * v)) (by simp only [Fld.at, F.SG_VOTE_SEL_VALID]; omega)
      (by simp only [Fld.at, F.SG_VOTE_SEL_VALID]; omega)
    have hsrc : e.f (pgGroup g) (F.SG_VOTE_SEL_SRC.at (4 * v)) = d.f (pgGroup g) (F.SG_VOTE_SEL_SRC.at (4 * v)) :=
      Dev.f_congr (h.mask g hg _ (by simp only [Fld.at, F.SG_VOTE_SEL_SRC]; omega) (by simp only [Fld.at, F.SG_VOTE_SEL_SRC]; omega))
    rw [hvalid, hsrc]
  · rfl

/-- The trip input of a group is the same. -/
theorem tripIn : e.tripIn g = d.tripIn g := by
  have hn : e.f (pgGroup g) F.SG_VOTE_N = d.f (pgGroup g) F.SG_VOTE_N := Dev.f_congr (h.mask g hg _ (by decide) (by decide))
  simp only [Dev.tripIn, Dev.activeSources, Dev.voteActive, h.selected hg, h.voted hg, h.expert hg, hn, h.srcActive]
  rfl

end Dev.SameSources

/-! The latches reach a fixed point -/

/-- The bits of STATUS beside LATCHED. -/
theorem Dev.latched_setStatus (d : Dev) {g g' : Nat} (f : Fld) (hf : f.ofs = 0x10) (hl : 1 ≤ f.lsb) (b : Bool) :
    (d.setB (pgGroup g') f b).latched g = d.latched g := by
  by_cases hg : g' = g
  · subst hg
    exact d.on_setF_beside _ _ _ _ hf (.inl hl)
  · refine d.on_setF_ne _ _ _ _ _ ?_
    rw [hf]
    simp only [pgGroup, F.GROUP_STATUS_LATCHED]
    omega

theorem Dev.latched_setLatched (d : Dev) (g g' : Nat) :
    (d.setB (pgGroup g') F.GROUP_STATUS_LATCHED true).latched g = (decide (g = g') || d.latched g) := by
  by_cases hg : g = g'
  · subst hg
    rw [Dev.latched, Dev.on_setB_same _ _ _ _ rfl (by decide)]
    simp
  · rw [decide_eq_false hg, Bool.false_or]
    refine d.on_setF_ne _ _ _ _ _ ?_
    simp only [pgGroup, F.GROUP_STATUS_LATCHED]
    omega

/-- A set latch, and no other with it. -/
theorem Dev.latched_setLatch (d : Dev) (g g' : Nat) : (d.setLatch g').latched g = (decide (g = g') || d.latched g) := by
  unfold Dev.setLatch
  split
  · next hset => by_cases hg : g = g' <;> simp [hg, hset]
  · exact d.latched_setLatched g g'

/-- Latches that are set stay set, and one that sets has its record pending. -/
structure Dev.LatchesGrow (d r : Dev) : Prop where
  stays : ∀ g < 24, d.latched g = true → r.latched g = true
  recording : ∀ g < 24, r.latched g = true → d.latched g = false → (Table.get {} r.groups g).recording = true

theorem Dev.LatchesGrow.refl (d : Dev) : d.LatchesGrow d :=
  ⟨fun _ _ h => h, fun _ _ h hn => absurd h (by simp [hn])⟩

theorem Dev.LatchesGrow.trans_setLatch {g' : Nat} (h : d.LatchesGrow e) : d.LatchesGrow (e.setLatch g') where
  stays g hg hl := by simp [e.latched_setLatch, h.stays g hg hl]
  recording g hg hr hd := by
    have hother : e.latched g = true → (Table.get {} e.groups g).recording = true := fun he => h.recording g hg he hd
    unfold Dev.setLatch at hr ⊢
    split at hr
    · next hset => rw [if_pos hset]; exact hother hr
    · next hset =>
      rw [if_neg hset]
      by_cases hgg : g = g'
      · subst hgg
        simp
      · have he : e.latched g = true := by simpa [hgg] using (e.latched_setLatched g g').symm.trans hr
        simp only [Table.get_put_ne _ _ _ _ (Ne.symm hgg)]
        exact hother he

/-- One step of a pass. -/
def Dev.latchTry (d : Dev) (g : Nat) : Dev := if !d.latched g && d.tripIn g then d.setLatch g else d

theorem Dev.latchPass_eq (d : Dev) : d.latchPass = (List.range 24).foldl Dev.latchTry d := rfl

theorem Dev.LatchesGrow.trans_latchTry {g : Nat} (h : d.LatchesGrow e) : d.LatchesGrow (e.latchTry g) := by
  unfold Dev.latchTry
  split
  · exact h.trans_setLatch
  · exact h

theorem Dev.LatchesGrow.latchTries (h : d.LatchesGrow e) (l : List Nat) : d.LatchesGrow (l.foldl Dev.latchTry e) :=
  foldl_keeps _ l h fun _ _ _ he => he.trans_latchTry

theorem Dev.LatchesGrow.latchLoop (h : d.LatchesGrow e) (k : Nat) : d.LatchesGrow (Dev.latchLoop k e) := by
  induction k generalizing e with
  | zero => exact h
  | succ k ih =>
    unfold Dev.latchLoop
    split
    · exact ih (h.latchTries _)
    · exact h

/-- A pass over a group that trips without its latch sets a latch, of that group or of an earlier one. -/
theorem Dev.latchTries_progress (d : Dev) (l : List Nat) (hl : ∀ g ∈ l, g < 24)
    (ht : ∃ g ∈ l, d.latched g = false ∧ d.tripIn g = true) :
    ∃ g < 24, d.latched g = false ∧ (l.foldl Dev.latchTry d).latched g = true := by
  induction l with
  | nil => simp at ht
  | cons x l ih =>
    obtain ⟨hx, hl⟩ := List.forall_mem_cons.mp hl
    rw [List.foldl_cons]
    by_cases hsets : d.latched x = false ∧ d.tripIn x = true
    · have hset : (d.latchTry x).latched x = true := by simp [Dev.latchTry, hsets, d.latched_setLatch]
      exact ⟨x, hx, hsets.1, ((Dev.LatchesGrow.refl _).latchTries l).stays x hx hset⟩
    · have hsame : d.latchTry x = d := by
        unfold Dev.latchTry
        rw [if_neg (by simpa using hsets)]
      obtain ⟨g, hg, hgt⟩ := ht
      rw [hsame]
      refine ih hl ⟨g, (List.mem_cons.mp hg).resolve_left ?_, hgt⟩
      rintro rfl
      exact hsets hgt

/-- The groups whose latch is not set. -/
def Dev.unlatched (d : Dev) : Finset Nat := (Finset.range 24).filter fun g => d.latched g = false

/-- As many passes as there are latches to set reach the fixed point. -/
theorem Dev.latchLoop_settles (k : Nat) (d : Dev) (hk : d.unlatched.card ≤ k) :
    ∀ g < 24, (Dev.latchLoop k d).tripIn g = true → (Dev.latchLoop k d).latched g = true := by
  induction k generalizing d with
  | zero =>
    intro g hg _
    by_contra hl
    have hmem : g ∈ d.unlatched := Finset.mem_filter.mpr ⟨Finset.mem_range.mpr hg, Bool.eq_false_iff.mpr hl⟩
    exact absurd (Finset.card_pos.mpr ⟨g, hmem⟩) (by omega)
  | succ k ih =>
    unfold Dev.latchLoop
    split
    · next hany =>
      obtain ⟨g, hg, hgt⟩ := List.any_eq_true.mp hany
      obtain ⟨x, hx, hxd, hxp⟩ := d.latchTries_progress (List.range 24) (fun g hg => List.mem_range.mp hg)
        ⟨g, hg, by simpa using hgt⟩
      have hgrow := (Dev.LatchesGrow.refl d).latchTries (List.range 24)
      have hless : d.latchPass.unlatched ⊂ d.unlatched := by
        refine Finset.ssubset_iff_of_subset (fun g hg => ?_) |>.mpr ⟨x, ?_, ?_⟩
        · obtain ⟨hr, hn⟩ := Finset.mem_filter.mp hg
          refine Finset.mem_filter.mpr ⟨hr, Bool.eq_false_iff.mpr fun hd => ?_⟩
          rw [Dev.latchPass_eq, hgrow.stays g (Finset.mem_range.mp hr) hd] at hn
          cases hn
        · exact Finset.mem_filter.mpr ⟨Finset.mem_range.mpr hx, hxd⟩
        · intro hmem
          rw [Dev.latchPass_eq] at hmem
          rw [(Finset.mem_filter.mp hmem).2] at hxp
          cases hxp
      exact ih _ (by have := Finset.card_lt_card hless; omega)
    · next hany =>
      intro g hg htrip
      by_contra hl
      exact hany (List.any_eq_true.mpr ⟨g, List.mem_range.mpr hg, by simp [htrip, Bool.eq_false_iff.mpr hl]⟩)

/-! What follows the latches leaves their inputs -/

/-- Nothing that the latches depend on, or that records them, has changed. -/
structure Dev.Follows (d e : Dev) : Prop extends d.SameSources e where
  groups : e.groups = d.groups

theorem Dev.Follows.trans (h : d.Follows e) (k : e.Follows r) : d.Follows r :=
  ⟨h.toSameSources.trans k.toSameSources, k.groups.trans h.groups⟩

theorem Dev.Follows.refl (d : Dev) : d.Follows d := ⟨.refl d, rfl⟩

theorem Dev.Follows.roseMarks (d : Dev) : d.Follows d.roseMarks := by
  refine Dev.forN_keeps 24 _ (.refl d) fun g hg e he => ?_
  split
  · refine he.trans ⟨⟨fun _ _ => rfl, fun _ _ _ _ _ => rfl, fun _ _ => rfl, rfl, rfl, fun n => ?_, rfl, rfl⟩, rfl⟩
    simp [Dev.acted, Dev.act]
  · exact he

theorem Dev.Follows.setStatus {g : Nat} (hg : g < 24) (f : Fld) (hf : f.ofs = 0x10) (hl : 1 ≤ f.lsb) (b : Bool) :
    d.Follows (d.setB (pgGroup g) f b) := by
  refine ⟨⟨fun a ha => ?_, fun g' hg' o ho hs => ?_, fun g' _ => d.latched_setStatus f hf hl b, rfl, rfl, fun _ => rfl, rfl, rfl⟩, rfl⟩
  · exact (Dev.MatrixKeeps.setGroup hg f (by omega) b).reg a ha
  · refine d.reg_setF_ne _ _ _ ?_
    rw [hf]
    simp only [pgGroup]
    omega

theorem Dev.Follows.groupStatus {g : Nat} (hg : g < 24) : d.Follows (d.groupStatus g) := by
  unfold Dev.groupStatus
  exact .trans (.setStatus hg _ rfl (by decide) _) (.trans (.setStatus hg _ rfl (by decide) _)
    (.trans (.setStatus hg _ rfl (by decide) _) (.setStatus hg _ rfl (by decide) _)))

/-- Forcing a pair writes STATUS and PWM_OUT of its page, its generator and its two pads. -/
structure Dev.TouchesPair (c g : Nat) (d e : Dev) : Prop where
  reg : ∀ a, a ≠ pgPwm c g + 0x10 → a ≠ pgPwm c g + 0x70 → e.reg a = d.reg a
  pwms : ∀ n, 6 * c + g ≠ n → Table.get {} e.pwms n = Table.get {} d.pwms n
  pads : ∀ n, n / 2 ≠ 6 * c + g → Table.get 0 e.pads n = Table.get 0 d.pads n
  groups : e.groups = d.groups
  cmps : e.cmps = d.cmps
  present : e.present = d.present
  sys : e.sys = d.sys

namespace Dev.TouchesPair
variable {c g : Nat}

theorem refl (d : Dev) : d.TouchesPair c g d := ⟨fun _ _ _ => rfl, fun _ _ => rfl, fun _ _ => rfl, rfl, rfl, rfl, rfl⟩

theorem trans (h : Dev.TouchesPair c g d e) (k : Dev.TouchesPair c g e r) : Dev.TouchesPair c g d r where
  reg a h1 h7 := (k.reg a h1 h7).trans (h.reg a h1 h7)
  pwms n hn := (k.pwms n hn).trans (h.pwms n hn)
  pads n hn := (k.pads n hn).trans (h.pads n hn)
  groups := k.groups.trans h.groups
  cmps := k.cmps.trans h.cmps
  present := k.present.trans h.present
  sys := k.sys.trans h.sys

theorem setB (f : Fld) (hf : f.ofs = 0x10 ∨ f.ofs = 0x70) (b : Bool) : Dev.TouchesPair c g d (d.setB (pgPwm c g) f b) := by
  refine ⟨fun a h1 h7 => d.reg_setF_ne _ _ _ ?_, fun _ _ => rfl, fun _ _ => rfl, rfl, rfl, rfl, rfl⟩
  rcases hf with hf | hf <;> rw [hf]
  · exact h1.symm
  · exact h7.symm

theorem padRefresh (d : Dev) : Dev.TouchesPair c g d (d.padRefresh c g) := by
  unfold Dev.padRefresh
  extract_lets l n driven
  have hdriven : Dev.TouchesPair c g d driven := by
    refine ⟨fun _ _ _ => rfl, fun _ _ => rfl, fun m hm => ?_, rfl, rfl, rfl, rfl⟩
    dsimp only [driven]
    rw [Table.get_put_ne _ _ _ _ (by omega), Table.get_put_ne _ _ _ _ (by omega)]
  split
  · exact hdriven.trans ((setB _ (.inr rfl) _).trans (setB _ (.inr rfl) _))
  · exact hdriven

theorem pairForce (d : Dev) : Dev.TouchesPair c g d (d.pairForce c g) := by
  unfold Dev.pairForce
  extract_lets p n was now marked w w1 w2 cut resumed
  split
  · exact padRefresh d
  · have hcut : Dev.TouchesPair c g marked cut :=
      ⟨fun _ _ _ => rfl, fun _ hm => Table.get_put_ne _ _ _ _ hm, fun _ _ => rfl, rfl, rfl, rfl, rfl⟩
    have hresumed : Dev.TouchesPair c g cut resumed := by
      unfold resumed
      split
      · exact setB _ (.inl rfl) _
      split
      · exact setB _ (.inl rfl) _
      · exact refl _
    exact (setB _ (.inl rfl) _).trans (hcut.trans (hresumed.trans (padRefresh _)))

theorem follows (hc : c < 16) (hg : g < 6) (h : Dev.TouchesPair c g d e) : d.Follows e := by
  have hgroup {g' o : Nat} (hg' : g' < 24) (ho : o < 0x1000) : e.reg (pgGroup g' + o) = d.reg (pgGroup g' + o) := by
    refine h.reg _ ?_ ?_ <;> simp only [pgGroup, pgPwm] <;> omega
  refine ⟨⟨fun a ha => h.reg a ?_ ?_, fun g' hg' o ho _ => hgroup hg' ho, fun g' hg' => ?_, h.cmps, by rw [h.present],
    fun n => by rw [Dev.acted, Dev.acted, h.present], by rw [h.sys], by rw [h.sys]⟩, h.groups⟩
  · rintro rfl; exact ha (matrixReg_pwm hc hg (by decide))
  · rintro rfl; exact ha (matrixReg_pwm hc hg (by decide))
  · exact Dev.on_congr (hgroup hg' (by decide))

end Dev.TouchesPair

/-! The pads -/

/-- The levels of a pair depend on its assignment, its group, its generator and the supplies. -/
theorem Dev.SameSources.pairPads {c g : Nat} (hc : c < 16) (hg : g < 6) (h : d.SameSources e) (hsys : e.sys = d.sys)
    (hpage : ∀ o < 0x1000, o ≠ 0x10 → o ≠ 0x70 → e.reg (pgPwm c g + o) = d.reg (pgPwm c g + o))
    (hpwm : Table.get {} e.pwms (6 * c + g) = Table.get {} d.pwms (6 * c + g)) : e.pairPads c g = d.pairPads c g := by
  have hcas (f : Fld) (hf : f.ofs = 0x44) : e.f (pgCasSrc c) (f.at (4 * g)) = d.f (pgCasSrc c) (f.at (4 * g)) :=
    Dev.f_congr (h.casReg hc (by simp only [Fld.at, hf]; omega))
  have hcasEn : e.en (pgCasSrc c) = d.en (pgCasSrc c) := Dev.on_congr (h.casReg hc (by decide))
  have hforced : e.pairForced c g = d.pairForced c g := by
    simp only [Dev.pairForced, hcas F.CS_PAIR_GROUP rfl, hcasEn]
    by_cases hgrp : 24 ≤ d.f (pgCasSrc c) (F.CS_PAIR_GROUP.at (4 * g))
    · simp [hgrp]
    · have hlt := Nat.not_le.mp hgrp
      have hen : e.en (pgGroup _) = d.en (pgGroup _) := h.groupOn hlt F.H_EN (by decide) (by decide)
      rw [hen, h.latched _ hlt]
  have hen : e.en (pgPwm c g) = d.en (pgPwm c g) := Dev.on_congr (hpage _ (by decide) (by decide) (by decide))
  have hpol (f : Fld) (hf : f.ofs = 0x40) : e.on (pgPwm c g) f = d.on (pgPwm c g) f :=
    Dev.on_congr (hpage _ (by omega) (by omega) (by omega))
  simp only [Dev.pairPads, hsys, hforced, h.domOn, hen, hpwm, hcas F.CS_PAIR_SAFE_H rfl, hcas F.CS_PAIR_SAFE_L rfl,
    hpol F.PWM_CTRL_POL_H rfl, hpol F.PWM_CTRL_POL_L rfl]

/-- The two pads of pair `n` are at their levels. -/
def Dev.padsRight (d : Dev) (n : Nat) : Prop := (Table.get 0 d.pads (2 * n), Table.get 0 d.pads (2 * n + 1)) = d.pairPads (n / 6) (n % 6)

theorem Dev.padRefresh_pads (d : Dev) (c g : Nat) :
    (Table.get 0 (d.padRefresh c g).pads (2 * (6 * c + g)), Table.get 0 (d.padRefresh c g).pads (2 * (6 * c + g) + 1)) = d.pairPads c g := by
  have hput (t : Table Nat) (n x y : Nat) :
      (Table.get 0 (Table.put 0 (Table.put 0 t n x) (n + 1) y) n, Table.get 0 (Table.put 0 (Table.put 0 t n x) (n + 1) y) (n + 1)) = (x, y) := by
    rw [Table.get_put_same, Table.get_put_ne _ _ _ _ (by omega), Table.get_put_same]
  unfold Dev.padRefresh
  extract_lets l n driven
  split <;> exact hput _ _ _ _

theorem Dev.padRefresh_right (d : Dev) {n : Nat} (hn : n < 96) : (d.padRefresh (n / 6) (n % 6)).padsRight n := by
  have hc : n / 6 < 16 := by omega
  have hg : n % 6 < 6 := Nat.mod_lt _ (by decide)
  have ht := Dev.TouchesPair.padRefresh (c := n / 6) (g := n % 6) d
  have hpads := d.padRefresh_pads (n / 6) (n % 6)
  rw [Nat.div_add_mod] at hpads
  rw [Dev.padsRight, hpads]
  refine ((ht.follows hc hg).pairPads hc hg ht.sys (fun o _ h1 h7 => ht.reg _ ?_ ?_) ?_).symm
  · omega
  · omega
  · unfold Dev.padRefresh
    extract_lets l n driven
    split <;> rfl

/-- Forcing a pair leaves its pads at their levels, and those of another pair. -/
theorem Dev.pairForce_right {n : Nat} (hn : n < 96) : (d.pairForce (n / 6) (n % 6)).padsRight n := by
  unfold Dev.pairForce
  extract_lets p k was now marked w w1 w2 cut resumed
  split
  · exact d.padRefresh_right hn
  · exact resumed.padRefresh_right hn

theorem Dev.padsRight_pairForce_ne {n m : Nat} (hn : n < 96) (hm : m < 96) (hnm : n ≠ m) (h : d.padsRight n) :
    (d.pairForce (m / 6) (m % 6)).padsRight n := by
  have ht := Dev.TouchesPair.pairForce (c := m / 6) (g := m % 6) d
  have hfollows := ht.follows (by omega) (by omega)
  rw [Dev.padsRight, ht.pads _ (by omega), ht.pads _ (by omega), h]
  refine (hfollows.pairPads (by omega) (by omega) ht.sys (fun o ho _ _ => ht.reg _ ?_ ?_) (ht.pwms _ (by omega))).symm <;>
    simp only [pgPwm] <;> omega

/-- The pass over the pairs. -/
theorem Dev.pairs_right (d : Dev) : ∀ n < 96, (d.forN 96 fun n d => d.pairForce (n / 6) (n % 6)).padsRight n := by
  have hpass : ∀ k ≤ 96, ∀ n < k, (d.forN k fun n d => d.pairForce (n / 6) (n % 6)).padsRight n := by
    intro k
    induction k with
    | zero => exact fun _ n hn => absurd hn (Nat.not_lt_zero n)
    | succ k ih =>
      intro hk n hn
      rw [Dev.forN, List.range_succ, List.foldl_append]
      rcases Nat.lt_succ_iff_lt_or_eq.mp hn with hlt | rfl
      · exact Dev.padsRight_pairForce_ne (by omega) hk hlt.ne (ih (Nat.le_of_succ_le hk) n hlt)
      · exact Dev.pairForce_right hk
  exact hpass 96 le_rfl

/-! The matrix -/

/-- The groups' STATUS and the pairs follow the latches. -/
theorem Dev.shutter_follows (d : Dev) : (Dev.latchLoop 24 d).Follows d.shutter := by
  have hstatus (e : Dev) : e.Follows (e.forN 24 fun g d => d.groupStatus g) :=
    Dev.forN_keeps 24 _ (.refl e) fun g hg _ he => he.trans (.groupStatus hg)
  have hpairs (e : Dev) : e.Follows (e.forN 96 fun n d => d.pairForce (n / 6) (n % 6)) :=
    Dev.forN_keeps 96 _ (.refl e) fun n hn _ he => he.trans ((Dev.TouchesPair.pairForce _).follows (by omega) (by omega))
  exact (Dev.Follows.roseMarks _).trans ((hstatus _).trans (hpairs _))

theorem Dev.shutter_grows (d : Dev) : d.LatchesGrow d.shutter := by
  have hloop := (Dev.LatchesGrow.refl d).latchLoop 24
  have hf := d.shutter_follows
  refine ⟨fun g hg hl => ?_, fun g hg hr hd => ?_⟩
  · rw [hf.latched g hg]
    exact hloop.stays g hg hl
  · rw [hf.groups]
    exact hloop.recording g hg (hf.latched g hg ▸ hr) hd

theorem Dev.shutter_settled (d : Dev) {g : Nat} (hg : g < 24) (h : d.shutter.tripIn g = true) : d.shutter.latched g = true := by
  have hf := d.shutter_follows
  have hcard : d.unlatched.card ≤ 24 := (Finset.card_filter_le _ _).trans (Finset.card_range 24).le
  rw [hf.latched g hg]
  rw [hf.tripIn hg] at h
  exact Dev.latchLoop_settles 24 d hcard g hg h

end Sys2Proof.Machine

namespace Sys2Proof.Claims
open Sys2Proof.Machine

/-- Settles O26: the latches reach their fixed point, and the last pass puts every pair at its levels. -/
theorem shutterSettles : Obligations.ShutterSettles := by
  intro d
  have hkeeps := Dev.MatrixKeeps.shutter d
  have hgrows := d.shutter_grows
  refine ⟨fun g => hgrows.stays g g.isLt, fun g => d.shutter_settled g.isLt, fun g => hgrows.recording g g.isLt,
    fun c g => ?_, fun c g hforced haon hio => ?_⟩
  · have hright := Dev.pairs_right ((Dev.latchLoop 24 d).roseMarks.forN 24 fun g d => d.groupStatus g) (6 * c + g) (by omega)
    rw [Dev.padsRight, show 2 * (6 * c.val + g.val) = 12 * c + 2 * g by omega, show (6 * c.val + g.val) / 6 = c by omega,
      show (6 * c.val + g.val) % 6 = g by omega] at hright
    exact hright
  · have hcas (f : Fld) (hf : f.ofs = 0x44) :
        d.shutter.f (pgCasSrc c) (f.at (4 * g)) = d.f (pgCasSrc c) (f.at (4 * g)) := by
      refine Dev.f_congr (hkeeps.reg _ ?_)
      simp only [matrixReg, pgCasSrc, Fld.at, hf]
      omega
    have hvddAon : d.shutter.sys.vddAon = true := (congrArg SysSt.vddAon hkeeps.sys : _).trans haon
    have hvddIo : d.shutter.sys.vddIo33 = true := (congrArg SysSt.vddIo33 hkeeps.sys : _).trans hio
    simp [Dev.pairPads, hvddAon, hvddIo, hforced, hcas F.CS_PAIR_SAFE_H rfl, hcas F.CS_PAIR_SAFE_L rfl]

end Sys2Proof.Claims
end

section
/-!
What the links, the MSI-X vectors and the trace unit change when they see a command's effects (Dev.settle), and what a reset that was
asked for leaves of the device.
-/
namespace Sys2Proof.Machine

variable {d e r : Dev}

/-- A register that the links or the trace unit may write when they see events. -/
def seenReg (a : Nat) : Prop := a / 0x1000 = pgDbg / 0x1000 ∨ ∃ l, a / 0x1000 = pgTlc l / 0x1000 ∨ a / 0x1000 = pgTlcnt l / 0x1000

/-- `r` differs from `d` only in what the links, the vectors, the trace unit and the event fabric take note of. -/
structure Dev.NoteKeeps (d r : Dev) : Prop where
  reg : ∀ a, ¬ seenReg a → r.reg a = d.reg a
  rest : { r with regs := d.regs, tls := d.tls, pfs := d.pfs, trace := d.trace, knocks := d.knocks, levels := d.levels } = d
  idle : (∀ l, d.en (pgTlc l) = false) → d.tracing = false → r.regs = d.regs

namespace Dev.NoteKeeps

theorem refl (d : Dev) : d.NoteKeeps d := ⟨fun _ _ => rfl, rfl, fun _ _ => rfl⟩

theorem sys (h : d.NoteKeeps r) : r.sys = d.sys := (congrArg Dev.sys h.rest : _)

theorem trans (h : d.NoteKeeps e) (k : e.NoteKeeps r) : d.NoteKeeps r where
  reg a ha := (k.reg a ha).trans (h.reg a ha)
  rest := (congrArg (fun x : Dev => { x with
    regs := d.regs, tls := d.tls, pfs := d.pfs, trace := d.trace, knocks := d.knocks, levels := d.levels }) k.rest).trans h.rest
  idle hl ht := by
    have hregs := h.idle hl ht
    have hreg (a : Nat) : e.reg a = d.reg a := Dev.reg_congr hregs a
    have hen (l : Nat) : e.en (pgTlc l) = false := (Dev.on_congr (hreg _)).trans (hl l)
    have htrace : e.tracing = false := by
      rw [← ht]
      simp only [Dev.tracing, Dev.domOn, Dev.on, Dev.f, hreg, h.sys]
    exact (k.idle hen htrace).trans hregs

theorem foldl {β : Type} (f : Dev → β → Dev) (l : List β) (hf : ∀ x ∈ l, ∀ e : Dev, e.NoteKeeps (f e x)) (d : Dev) : d.NoteKeeps (l.foldl f d) :=
  foldl_keeps f l (refl d) fun x hx _ he => he.trans (hf x hx _)

/-- Without a register written. -/
theorem of_regs (hregs : r.regs = d.regs)
    (hrest : { r with regs := d.regs, tls := d.tls, pfs := d.pfs, trace := d.trace, knocks := d.knocks, levels := d.levels } = d) :
    d.NoteKeeps r := ⟨fun a _ => Dev.reg_congr hregs a, hrest, fun _ _ => hregs⟩

end Dev.NoteKeeps

/-! The links -/

/-- A register of the pages of link `l` that hold its status and its counters. -/
theorem seenReg_link {l a : Nat} (h : a / 0x1000 = pgTlc l / 0x1000 ∨ a / 0x1000 = pgTlcnt l / 0x1000) : seenReg a := .inr ⟨l, h⟩

/-- What a link that is enabled does to its own registers and its own state. -/
structure Dev.LinkKeeps (l : Nat) (d r : Dev) : Prop where
  reg : ∀ a, a / 0x1000 ≠ pgTlc l / 0x1000 → a / 0x1000 ≠ pgTlcnt l / 0x1000 → r.reg a = d.reg a
  rest : { r with regs := d.regs, tls := d.tls } = d

namespace Dev.LinkKeeps
variable {l : Nat}

theorem refl (d : Dev) : Dev.LinkKeeps l d d := ⟨fun _ _ _ => rfl, rfl⟩

theorem trans (h : Dev.LinkKeeps l d e) (k : Dev.LinkKeeps l e r) : Dev.LinkKeeps l d r where
  reg a h1 h2 := (k.reg a h1 h2).trans (h.reg a h1 h2)
  rest := (congrArg (fun x : Dev => { x with regs := d.regs, tls := d.tls }) k.rest).trans h.rest

theorem setTlc (f : Fld) (hf : f.ofs < 0x1000) (x : Nat) : Dev.LinkKeeps l d (d.setF (pgTlc l) f x) := by
  refine ⟨fun a h1 _ => d.reg_setF_ne _ _ _ ?_, rfl⟩
  rintro rfl
  exact h1 (by simp only [pgTlc]; omega)

theorem setTlcnt (f : Fld) (hf : f.ofs < 0x1000) (x : Nat) : Dev.LinkKeeps l d (d.setF (pgTlcnt l) f x) := by
  refine ⟨fun a _ h2 => d.reg_setF_ne _ _ _ ?_, rfl⟩
  rintro rfl
  exact h2 (by simp only [pgTlcnt]; omega)

theorem setTl (x : Tl) : Dev.LinkKeeps l d (d.setTl l x) := ⟨fun _ _ _ => rfl, rfl⟩

theorem launchBad : Dev.LinkKeeps l d (d.launchBad l) :=
  (setTlc _ (by decide) _).trans ((setTlc _ (by decide) _).trans (setTlcnt _ (by decide) _))

theorem tlDrop : Dev.LinkKeeps l d (d.tlDrop l) := by
  unfold Dev.tlDrop
  extract_lets x dropped y forgotten
  have hdropped : Dev.LinkKeeps l d dropped := by
    unfold dropped
    split
    · exact refl d
    · exact (setTlcnt _ (by decide) _).trans (setTl _)
  split
  · exact hdropped
  · refine (hdropped.trans ?_).trans (setTl _)
    exact foldl_keeps _ _ (refl _) fun _ _ _ he => he.trans launchBad

theorem tlSee : Dev.LinkKeeps l d (d.tlSee l) := by
  unfold Dev.tlSee
  split
  · exact refl d
  · extract_lets dropped x m s
    split
    · exact tlDrop
    · exact tlDrop.trans (setTl _)

theorem note (h : Dev.LinkKeeps l d r) (hen : d.en (pgTlc l) = true) : d.NoteKeeps r where
  reg a ha := h.reg a (fun h1 => ha (seenReg_link (.inl h1))) (fun h2 => ha (seenReg_link (.inr h2)))
  rest := (congrArg (fun x : Dev => { x with pfs := d.pfs, trace := d.trace, knocks := d.knocks, levels := d.levels }) h.rest : _)
  idle hl _ := absurd hen (by simp [hl l])

end Dev.LinkKeeps

theorem Dev.NoteKeeps.tlSeeAll (d : Dev) : d.NoteKeeps d.tlSeeAll := by
  refine .foldl _ _ (fun l _ e => ?_) d
  split
  · next hen => exact Dev.LinkKeeps.tlSee.note hen
  · exact .refl e

/-! The vectors and the trace unit -/

theorem Dev.NoteKeeps.levelSee (d : Dev) : d.NoteKeeps d.levelSee := .of_regs rfl rfl

theorem Dev.NoteKeeps.msixSee (d : Dev) : d.NoteKeeps d.msixSee := by
  unfold Dev.msixSee
  split
  · exact .refl d
  · refine .foldl _ _ (fun f _ e => .foldl _ _ (fun v _ e => ?_) e) d
    unfold Dev.msixSeeOne
    dsimp only
    (repeat' split) <;> exact .of_regs rfl rfl

theorem Dev.NoteKeeps.setDbg (f : Fld) (hf : f.ofs < 0x1000) (x : Nat) (ht : d.tracing = true) : d.NoteKeeps (d.setF pgDbg f x) := by
  refine ⟨fun a ha => d.reg_setF_ne _ _ _ ?_, rfl, fun _ hn => absurd ht (by simp [hn])⟩
  rintro rfl
  exact ha (.inl (by simp only [pgDbg]; omega))

theorem Dev.NoteKeeps.setTrace (d : Dev) (t : Trace) : d.NoteKeeps { d with trace := t } := .of_regs rfl rfl

theorem Dev.NoteKeeps.tracePacket (d : Dev) (l : List Byte) : d.NoteKeeps (d.tracePacket l) := by
  unfold Dev.tracePacket
  split
  · exact .refl d
  · next ht =>
    have ht : d.tracing = true := by simpa using ht
    extract_lets t due extra all kept
    split
    · exact (setTrace d _).trans (setDbg F.TRC_PKTS_PKTS (by decide) _ ht)
    · exact (setTrace d _).trans (setDbg F.TRC_DROP_DROPS (by decide) _ ht)

theorem Dev.NoteKeeps.traceEvent (d : Dev) (e : Nat) : d.NoteKeeps (d.traceEvent e) := by
  unfold Dev.traceEvent
  dsimp only
  split
  · split
    · split
      · exact setTrace d _
      · exact (setTrace d _).trans (tracePacket _ _)
    · exact setTrace d _
  · exact (setTrace d _).trans (.foldl _ _ (fun _ _ _ => .tracePacket _ _) _)

theorem Dev.NoteKeeps.traceSee (d : Dev) : d.NoteKeeps d.traceSee := by
  have hknocks : d.NoteKeeps d.knockSee := by
    unfold Dev.knockSee
    split
    next now later _ =>
    have hlater : d.NoteKeeps { d with knocks := later } := .of_regs rfl rfl
    refine hlater.trans (.foldl _ _ (fun k _ e => ?_) _)
    split
    · exact .tracePacket _ _
    · exact .refl _
  unfold Dev.traceSee
  dsimp only
  split
  · exact hknocks.trans (.foldl _ _ (fun _ _ _ => .traceEvent _ _) _)
  · exact hknocks

/-- What a command's effects are followed by, when no block asks for a reset. -/
theorem Dev.NoteKeeps.settle (hq : d.quiet) : d.NoteKeeps d.settle := by
  have h : d.NoteKeeps d.levelSee.tlSeeAll.msixSee.traceSee :=
    (Dev.NoteKeeps.levelSee d).trans ((Dev.NoteKeeps.tlSeeAll _).trans ((Dev.NoteKeeps.msixSee _).trans (Dev.NoteKeeps.traceSee _)))
  have hnone : d.levelSee.tlSeeAll.msixSee.traceSee.sys.resetReq = none := by rw [h.sys]; exact hq
  rw [Dev.settle, Dev.resetAsked, hnone]
  exact h

/-- A warm reset leaves a reset in progress. -/
theorem Dev.warmReset_resets (d : Dev) (cause info : Nat) : (d.warmReset cause info).sys.reset ≠ .none := by
  have hcause (e : Dev) : (e.addCause cause info).sys = e.sys := by
    unfold Dev.addCause
    dsimp only
    (repeat' split) <;> rfl
  unfold Dev.warmReset
  split
  · next hr =>
    simpa using hr
  · rw [show ∀ x : Dev, x.stamp.sys = x.sys from fun _ => rfl,
      show ∀ x : Dev, x.shutter.sys.reset = x.sys.reset from fun x => (congrArg SysSt.reset (Dev.MatrixKeeps.shutter x).sys : _)]
    simp only [Dev.domainsOff, Dev.setReg_sys, Dev.inc_sys, hcause]
    exact fun h => by cases h

/-- A command that leaves no reset in progress had none asked for. -/
theorem Dev.quiet_of_settle (h : d.settle.sys.reset = .none) : d.quiet := by
  by_contra hq
  have hsys : d.levelSee.tlSeeAll.msixSee.traceSee.sys = d.sys :=
    ((Dev.NoteKeeps.levelSee d).trans ((Dev.NoteKeeps.tlSeeAll _).trans ((Dev.NoteKeeps.msixSee _).trans (Dev.NoteKeeps.traceSee _)))).sys
  obtain ⟨x, hx⟩ := Option.ne_none_iff_exists'.mp hq
  rw [Dev.settle, Dev.resetAsked, hsys, hx] at h
  exact Dev.warmReset_resets _ _ _ h

end Sys2Proof.Machine
end

section
/-!
Register pages (01): their enable, and the transfer of their ownership. What is logged of a violation with a cause of no table.
-/
namespace Sys2Proof.Machine

variable (d : Dev) (p : PageInfo)

/-! The outcome of setting EN -/

/-- A failed check reports in CHECK and STATUS and leaves EN. -/
theorem Dev.checkFailed_reports (b o c : Nat) :
    (d.checkFailed b o c).en b = d.en b ∧ (d.checkFailed b o c).reg (b + 0xC) = BitVec.ofNat 32 (c + o * 2 ^ 16) ∧
      (d.checkFailed b o c).on b F.H_CHECK_FAIL = true := by
  have hreg {a : Nat} (h10 : b + 0x10 ≠ a) (h24 : b + 0x24 ≠ a) :
      (d.checkFailed b o c).reg a = (d.setReg (b + 0xC) (BitVec.ofNat 32 (c + o * 2 ^ 16))).reg a := by
    rw [Dev.checkFailed, Dev.irq, Dev.reg_setF_ne _ _ _ _ h24]
    exact Dev.reg_setF_ne _ _ _ _ h10
  refine ⟨?_, ?_, ?_⟩
  · refine Dev.on_congr ((hreg ?_ ?_).trans (Dev.reg_setReg_ne _ _ ?_)) <;> simp [F.H_EN]
  · rw [hreg (by omega) (by omega), Dev.reg_setReg_same]
  · rw [Dev.checkFailed, Dev.irq, Dev.on_setF_ne _ _ _ _ _ _ (by simp [F.H_CHECK_FAIL])]
    exact Dev.on_setB_same _ _ _ _ rfl (by decide)

theorem Dev.enablePage_busy (h : d.busy p.base = true) : d.enablePage p = d.checkFailed p.base 8 9 := by simp [Dev.enablePage, h]

theorem Dev.enablePage_failed (h : d.busy p.base = false) {o c : Nat} (hc : firstFailure (d.pageCheck p) = some (o, c)) :
    d.enablePage p = d.checkFailed p.base o c := by simp [Dev.enablePage, h, hc]

theorem Dev.enablePage_passed (h : d.busy p.base = false) (hc : firstFailure (d.pageCheck p) = none) :
    d.enablePage p = ((d.setReg (p.base + 0xC) 0).setB p.base F.H_EN true).enableEffect p := by simp [Dev.enablePage, h, hc]

/-! OWN_GO -/

variable {p}

theorem Dev.pageWrite_own (hk : p.kind = .own) (w : Who) {o : Nat} (ho : 0x40 ≤ o) (v : Nat) :
    d.pageWrite w p o 4 v = d.ownWrite w o (BitVec.ofNat 32 v) := by
  unfold Dev.pageWrite
  rw [if_neg (by omega), hk]
  unfold Dev.writeSystem
  rw [hk]
  exact if_pos ho

theorem Dev.ownWrite_go (w : Who) : d.ownWrite w 0x4C 1#32 = d.ownGo w := by
  rw [Dev.ownWrite, if_pos (by decide)]

end Sys2Proof.Machine

namespace Sys2Proof.Claims
open Sys2Proof.Machine

/-- A write of ENABLE sets EN and EXPERT in the order of 01 R22 and R25. -/
theorem enableWrites : EnableWrites := by
  intro s w page p en expert hp hacc
  obtain ⟨hreached, hdom, hcause⟩ := hacc
  dsimp only
  have hwrote := expertChange_accepted (en := en) (expert := expert) hp hreached hdom hcause
  have heffect : s.dev.writeEnable p (BitVec.ofNat 32 (enableValue en expert)) =
      if s.dev.en p.base then (if en then s.dev else ((s.dev.disablePage p).setB p.base F.H_EXPERT expert).expertEffect p)
      else if en then ((s.dev.setB p.base F.H_EXPERT expert).expertEffect p).enablePage p
      else (s.dev.setB p.base F.H_EXPERT expert).expertEffect p := by
    simp only [Dev.writeEnable, bitAt_enableValue_en, bitAt_enableValue_expert]
  rw [heffect] at hwrote
  refine ⟨?_, ?_, hwrote⟩
  · rintro rfl
    exact hwrote
  · rintro rfl
    have hvalue : 2 * b2n expert = b2n false + 2 * b2n expert := (Nat.zero_add _).symm
    have hexec : exec (.enableClear w page expert) s = exec (.expertChange w page false expert) s := by
      rw [exec_expertChange, enableValue, ← hvalue]
      rfl
    obtain ⟨a, len, v, hdoes⟩ := hwrote
    exact ⟨a, len, v, hexec.trans hdoes⟩

theorem enableJudged : EnableJudged := by
  intro d p _
  refine ⟨fun hbusy => ?_, fun hidle o c hc => ?_, fun hidle hc => ?_⟩
  · rw [d.enablePage_busy p hbusy]
    obtain ⟨hen, hcheck, -⟩ := d.checkFailed_reports p.base 8 9
    exact ⟨hen, hcheck⟩
  · rw [d.enablePage_failed p hidle hc]
    exact d.checkFailed_reports p.base o c
  · refine ⟨_, d.enablePage_passed p hidle hc, Dev.on_setB_same _ _ _ _ rfl (by decide), ?_⟩
    rw [Dev.setB, Dev.reg_setF_ne _ _ _ _ (by simp [F.H_EN]), Dev.reg_setReg_same]

theorem blockBecomesIdle : BlockBecomesIdle := by
  intro s page p hclk hp hdom hbusy hidle
  rw [Does, show exec (.blockIdle page) s = s.clocked (fun d => match pageAt (0x1000 * page.toNat) with | some p => d.becomeIdle p | none => d) from rfl,
    s.clocked_eq _ hclk, hp]
  simp only [Dev.becomeIdle, hdom, hbusy, hidle, Bool.and_self, if_true]

/-- Settles O10: a write of ENABLE has one effect, and its judgement three outcomes. -/
theorem pageEnable : Obligations.PageEnable := ⟨enableWrites, enableJudged, blockBecomesIdle⟩

/-- Refutes O8: a cause of 0x8000, which no table of causes has, carries into VALID of the record that logs it. -/
theorem not_registerAccesses : ¬ Obligations.RegisterAccesses := by
  rintro ⟨-, hlogged⟩
  have hvalid := (hlogged {} pgFerr 5 0x10000000 4 0x8000 false (by decide) (by decide) (by decide)).2 (by decide)
  exact absurd hvalid.2.2.2.1 (by decide)

/-- Settles O12: OWN_GO stores its code for the requester, and the transfer where the code is 0. -/
theorem ownershipTransfer : Obligations.OwnershipTransfer := by
  intro s w hacc
  obtain ⟨⟨hclk, hrst⟩, hdom, hcause⟩ := hacc
  have hwrite := s.write_accepted w (b := pgOwn) (o := 0x4C) (by decide) (by decide) (p := pageOwn) (by decide) hclk hrst hdom (by decide) hcause
  rw [Dev.pageWrite_own _ rfl w (by decide), Dev.ownWrite_go] at hwrite
  have hgo (e : Dev) (he : s.dev.ownGo w = e) : Wrote (.ownGo w) s e := he ▸ ⟨_, _, _, hwrite⟩
  refine ⟨fun hcode => hgo _ ?_, fun p hcode hp hon => hgo _ ?_⟩
  · simp only [Dev.ownGo, if_pos hcode]
  · have hon' : (s.dev.setStage w.req { s.dev.stage w.req with stat := BitVec.ofNat 32 (s.dev.ownCode w) }).domOn p.dom = true := hon
    simp only [Dev.ownGo, hcode, hp, ne_eq, not_true_eq_false, if_false]
    rw [hcode] at hon'
    simp only [hon', if_true]

end Sys2Proof.Claims
end

section
/-!
Loads and stores of a Sahxel core (15 R330): a store that finds the journal full makes a checkpoint first, and a checkpoint after a change of
LS_CHK_BASE writes the area that the pair leaves.
-/
namespace Sys2Proof.Machine

variable (d : Dev)

/-- The first byte of the area that a pair leaves is a free one. -/
theorem Dev.byte_leaveArea (b : Nat) : (d.leaveArea b).byte b = (bytesLE 8 (Config.freeValue d.fresh).toNat).getD 0 0 := by
  have hlater (l : List Nat) (e : Dev) :
      ((l.map Nat.succ).foldl (fun (d : Dev) i => d.takeFresh.2.setBytes (b + 8 * i) (bytesLE 8 (Config.freeValue d.fresh).toNat)) e).byte b =
        e.byte b := by
    induction l generalizing e with
    | nil => rfl
    | cons i r ih =>
      rw [List.map_cons, List.foldl_cons, ih]
      exact Dev.byte_setBytes_out _ _ _ _ (.inl (by omega))
  rw [Dev.leaveArea, Dev.forN, List.range_succ_eq_map, List.foldl_cons, hlater]
  exact Dev.byte_setBytes_in d.takeFresh.2 b 0 _ (by simp [bytesLE])

/-- A checkpoint that changes the base leaves the area there was. -/
theorem Dev.checkpoint_mem {k b : Nat} (hb : (d.core k).chkBase = some b) (hne : b ≠ d.r64 (pgIntc k) 0x108) :
    (d.checkpoint k).mem = (d.leaveArea b).mem := by
  unfold Dev.checkpoint
  simp only [hb, if_neg hne]
  rw [Dev.journalCount, Dev.setF_mem, Dev.setCore_mem, foldl_mem _ (fun d i => Dev.setPoison_mem d _ _), Dev.inc_mem, Dev.setF_mem]

/-- A store of one byte that finds the journal full makes a checkpoint. -/
theorem Dev.journal_mem_full {k a : Nat} (hnew : (d.core k).journal.any (fun e => e.line == a / 64) = false) (hfull : 910 ≤ (d.core k).journal.length) :
    (d.journal k a 1).mem = (d.checkpoint k).mem := by
  have hlines : List.range ((a + 1 - 1) / 64 + 1 - a / 64) = [0] := by
    rw [show (a + 1 - 1) / 64 + 1 - a / 64 = 1 by omega]
    rfl
  rw [Dev.journal, hlines, List.foldl_cons, List.foldl_nil]
  dsimp only
  rw [Nat.add_zero, hnew, Dev.journalCount, Dev.setF_mem, Dev.setCore_mem, if_neg Bool.false_ne_true, if_pos hfull, Dev.setCore_mem]

/-- A permitted store to memory that is no device. -/
theorem Dev.storeVal_memory {k reg va len : Nat} {c : Capability} (v : Nat) (poison : Bool) (hva : va % len = 0) (hrange : va < 2 ^ 48)
    (hoff : (d.arch k).xlateOn = false) (hdev : isDevice va = false) (hc : c.check .write va len = none)
    (hm : d.memCause va len true false = none) : d.storeVal k c reg va len v poison = (d.coreStore k va (bytesLE len v) poison).ok () := by
  obtain ⟨hpage, hsash⟩ := Bool.or_eq_false_iff.mp hdev
  simp only [Dev.storeVal, Dev.access, Dev.require, hva, Dev.capCheckAt, hc, Act.bind, Dev.ok, Dev.translate_of_off _ hoff hrange, Dev.writePhys,
    hpage, hsash, hm, beq_self_eq_true, if_true, Bool.false_eq_true, if_false]

/-- Core 0 with a full journal, after a change of LS_CHK_BASE from 0x11000000 to 0. The byte there is no free value's. -/
def fullJournal : Dev where
  regs := [(pgPwr + 0x44, 0xFFFFFFFF)]
  mem := [(0x11000000, (bytesLE 8 (Config.freeValue 0).toNat).getD 0 0 + 1)]
  cores := [(0, { journal := List.replicate 910 ⟨0, [], [], [], 0⟩, chkBase := some 0x11000000 })]

/-- A store of core 0 changes the byte at the base that it leaves. -/
theorem fullJournal_store_writes_area : (fullJournal.journal 0 0x10001000 1).byte 0x11000000 ≠ fullJournal.byte 0x11000000 := by
  have hbyte : (fullJournal.journal 0 0x10001000 1).byte 0x11000000 = (bytesLE 8 (Config.freeValue 0).toNat).getD 0 0 := by
    rw [Dev.byte, Dev.journal_mem_full _ (by decide +kernel) (by decide +kernel),
      Dev.checkpoint_mem (b := 0x11000000) _ (by decide) (by decide)]
    exact Dev.byte_leaveArea fullJournal 0x11000000
  have hwas : fullJournal.byte 0x11000000 = (bytesLE 8 (Config.freeValue 0).toNat).getD 0 0 + 1 := rfl
  rw [hbyte, hwas]
  simp

end Sys2Proof.Machine

namespace Sys2Proof.Claims
open Sys2Proof.Machine

/-- Refutes O35: a store that finds the journal full writes the checkpoint area that the pair leaves, besides its own byte. -/
theorem not_operandsAndMemory : ¬ Obligations.OperandsAndMemory := by
  rintro ⟨-, -, hmemory, -⟩
  obtain ⟨-, hstore, -, -⟩ := hmemory fullJournal 0 Tests.root 0 0x10001000 0 0 (by decide) (by decide) (by decide) (by decide)
  obtain ⟨e, he, -, -, hother⟩ := hstore (by decide) (by decide)
  rw [Dev.storeVal_memory _ _ _ (by decide) (by decide) (by decide) (by decide) (by decide) (by decide)] at he
  injection he with hdev
  have hbyte := hother 0x11000000 (.inr (by decide))
  rw [← hdev, Dev.coreStore, Dev.byte_putMem_out _ _ _ _ _ _ (.inr (by decide))] at hbyte
  exact fullJournal_store_writes_area hbyte

end Sys2Proof.Claims
end

section
/-!
Capabilities never grow (17 R371, R373): what each operation leaves of the permissions and the bounds of its source.
-/
namespace Sys2Proof.Machine

/-- A capability with no permission that `c` lacks and with bounds inside those of `c`. -/
structure Capability.Within (c r : Capability) : Prop where
  perms : ∀ p, r.has p = true → c.has p = true
  base : c.base ≤ r.base
  top : r.top ≤ c.top

variable {c r : Capability}

/-- The bounds depend on the window of the address, XP, BM and LM alone. -/
theorem Capability.bounds_congr (hw : r.addr.toNat / 2 ^ c.w = c.addr.toNat / 2 ^ c.w) (hx : r.xp = c.xp) (hb : r.bm = c.bm) (hl : r.lm = c.lm) :
    r.base = c.base ∧ r.top = c.top := by
  have hbase : r.base = c.base := by
    have hwidth : r.w = c.w := by rw [Capability.w, Capability.w, hx]
    rw [Capability.base, Capability.base, hwidth, hw, hx, hb]
  refine ⟨hbase, ?_⟩
  rw [Capability.top, Capability.top, hbase, Capability.len, Capability.len, hx, hl]

/-- The bounds stay where the window of the address, XP, BM and LM do. -/
theorem Capability.Within.of_window (hw : r.addr.toNat / 2 ^ c.w = c.addr.toNat / 2 ^ c.w) (hx : r.xp = c.xp) (hb : r.bm = c.bm)
    (hl : r.lm = c.lm) (hp : ∀ p, r.has p = true → c.has p = true) : c.Within r := by
  obtain ⟨hbase, htop⟩ := Capability.bounds_congr hw hx hb hl
  exact ⟨hp, hbase.ge, htop.le⟩

theorem Capability.within_setAddr (a : W64) (h : (c.setAddr a).tag = true) : c.tag = true ∧ c.Within (c.setAddr a) := by
  simp only [Capability.setAddr, Capability.fits, Bool.and_eq_true, beq_iff_eq] at h
  obtain ⟨⟨htag, hfits⟩, -⟩ := h
  exact ⟨htag, .of_window hfits rfl rfl rfl fun _ hp => hp⟩

theorem Capability.within_move (a : W64) (h : (c.move a).tag = true) : c.tag = true ∧ c.Within (c.move a) := by
  simp only [Capability.move, Capability.fits, Bool.and_eq_true, beq_iff_eq] at h
  obtain ⟨htag, hfits⟩ := h
  exact ⟨htag, .of_window hfits rfl rfl rfl fun _ hp => hp⟩

theorem Capability.within_reduce (m : BitVec 16) (h : (c.reduce m).tag = true) : c.tag = true ∧ c.Within (c.reduce m) := by
  simp only [Capability.reduce, Bool.and_eq_true] at h
  refine ⟨h.1, .of_window rfl rfl rfl rfl fun p hp => ?_⟩
  simp only [Capability.has, Capability.reduce, BitVec.getLsbD_and, Bool.and_eq_true] at hp
  exact hp.1

/-- A sealed or unsealed form keeps permissions and bounds. -/
theorem Capability.within_seal (t : BitVec 12) (s : BitVec 2) : c.Within { c with otype := t, sealing := s } :=
  .of_window rfl rfl rfl rfl fun _ hp => hp

/-- XP, BM and LM that express the bounds from `b` to `t` granules of 2^x bytes, the base in the window of the address. -/
theorem Capability.bounds_of_granules {x t : Nat} (hx : x < 64) (ht : 1 ≤ t - c.addr.toNat / 2 ^ x ∧ t - c.addr.toNat / 2 ^ x ≤ 2 ^ 14)
    (hxp : r.xp = BitVec.ofNat 6 x) (haddr : r.addr = c.addr)
    (hbm : r.bm = BitVec.ofNat 14 (c.addr.toNat / 2 ^ x - c.addr.toNat / 2 ^ (x + 14) * 2 ^ 14)) (hlm : r.lm = BitVec.ofNat 14 (t - c.addr.toNat / 2 ^ x)) :
    r.base = c.addr.toNat / 2 ^ x * 2 ^ x ∧ r.top = t * 2 ^ x := by
  generalize hb : c.addr.toNat / 2 ^ x = b at *
  have hxn : r.xp.toNat = x := by rw [hxp, BitVec.toNat_ofNat, Nat.mod_eq_of_lt hx]
  have hwindow : c.addr.toNat / 2 ^ (x + 14) = b / 2 ^ 14 := by rw [pow_add, ← Nat.div_div_eq_div_mul, hb]
  have hbmn : r.bm.toNat = b - b / 2 ^ 14 * 2 ^ 14 := by rw [hbm, hwindow, BitVec.toNat_ofNat, Nat.mod_eq_of_lt (by omega)]
  have hlen : r.len = (t - b) * 2 ^ x := by
    rw [Capability.len, hxn, hlm]
    congr 1
    obtain hlt | heq : t - b < 2 ^ 14 ∨ t - b = 2 ^ 14 := by omega
    · rw [BitVec.toNat_ofNat, Nat.mod_eq_of_lt hlt, if_neg]
      intro h0
      have h0' := congrArg BitVec.toNat h0
      rw [BitVec.toNat_ofNat, Nat.mod_eq_of_lt hlt] at h0'
      exact absurd h0' (by simp; omega)
    · rw [heq]
      rfl
  have hbase : r.base = b * 2 ^ x := by
    rw [Capability.base, Capability.w, hxn, haddr, hwindow, hbmn, pow_add, Nat.mul_comm (2 ^ x), ← Nat.mul_assoc, ← Nat.add_mul]
    congr 1
    omega
  refine ⟨hbase, ?_⟩
  rw [Capability.top, hbase, hlen, ← Nat.add_mul]
  congr 1
  omega

theorem Capability.within_bound (l : Nat) (h : (c.bound l).tag = true) : c.tag = true ∧ c.Within (c.bound l) := by
  cases hx : (List.range 51).find? (kbndFits c.addr.toNat l) with
  | none => simp [Capability.bound, hx] at h
  | some x =>
    have hlt : x < 51 := List.mem_range.mp (List.mem_of_find?_eq_some hx)
    have hfits := List.find?_some hx
    simp only [kbndFits, decide_eq_true_eq] at hfits
    simp only [Capability.bound, hx, Bool.and_eq_true, decide_eq_true_eq] at h
    obtain ⟨⟨htag, -⟩, hlow, hhigh⟩ := h
    obtain ⟨hbase, htop⟩ := Capability.bounds_of_granules (c := c) (r := c.bound l) (Nat.lt_trans hlt (by decide)) hfits
      (by simp only [Capability.bound, hx]) (by simp only [Capability.bound, hx]) (by simp only [Capability.bound, hx]) (by simp only [Capability.bound, hx])
    refine ⟨htag, ?_⟩
    constructor
    case perms =>
      intro p hp
      simpa only [Capability.has, Capability.bound, hx] using hp
    case base => rwa [hbase]
    case top => rwa [htop]

/-- What KLOCK asks of its authority and its source. -/
theorem Capability.lock_eq_ok {t : Capability} {n : Nat} {entry : Bool} (h : c.lock t n entry = .ok r) :
    t.tag = true ∧ t.sealing = 0 ∧ t.has permSeal = true ∧ c.tag = true ∧ c.sealing = 0 ∧ t.covers n 1 = true ∧
      r = { c with otype := BitVec.ofNat 12 n, sealing := if entry then 2 else 1 } := by
  simp only [Capability.lock, ite_not] at h
  split_ifs at h with htag hseal hperm hctag hcseal hcov
  all_goals simp_all

/-- What KOPEN asks of its authority and its source. -/
theorem Capability.unlock_eq_ok {t : Capability} (h : c.unlock t = .ok r) :
    t.tag = true ∧ t.sealing = 0 ∧ t.has permUnseal = true ∧ c.tag = true ∧ t.covers c.otype.toNat 1 = true ∧ r = c.opened := by
  simp only [Capability.unlock, ite_not] at h
  split_ifs at h with htag hseal hperm hctag hcseal hcov
  all_goals simp_all [Capability.opened]

end Sys2Proof.Machine

namespace Sys2Proof.Claims
open Sys2Proof.Machine

/-- Settles O40: every operation keeps the bounds or narrows them, and takes permissions away only. -/
theorem capabilitiesNeverGrow : Obligations.CapabilitiesNeverGrow := by
  intro c t a l n m entry
  have hflat {r : Capability} (h : c.tag = true ∧ c.Within r) :
      c.tag = true ∧ (∀ p, r.has p = true → c.has p = true) ∧ c.base ≤ r.base ∧ r.top ≤ c.top := ⟨h.1, h.2.perms, h.2.base, h.2.top⟩
  refine ⟨fun h => hflat (c.within_setAddr a h), fun h => hflat (c.within_bound l h), fun h => hflat (c.within_reduce m h),
    fun h => hflat (c.within_move a h), fun r hr => ?_, fun r hr => ?_⟩
  · obtain ⟨htag, hseal, hperm, hctag, hcseal, hcov, rfl⟩ := Capability.lock_eq_ok hr
    simp only [Capability.covers, Bool.and_eq_true, decide_eq_true_eq] at hcov
    exact ⟨fun _ => hflat ⟨hctag, Capability.within_seal _ _⟩, htag, hseal, hperm, hcov.1, hcov.2, hcseal⟩
  · obtain ⟨htag, hseal, hperm, hctag, hcov, rfl⟩ := Capability.unlock_eq_ok hr
    simp only [Capability.covers, Bool.and_eq_true, decide_eq_true_eq] at hcov
    exact ⟨fun _ => hflat ⟨hctag, Capability.within_seal _ _⟩, htag, hseal, hperm, hcov.1, hcov.2, rfl⟩

end Sys2Proof.Claims
end

section
/-!
Exceptions of the Sahxel cores (17 R387-R391): the state of a core after an update, and the entry to a level and the return from it.
-/
namespace Sys2Proof.Machine

/-! Tables and cores -/

theorem Table.drop_of_no_key {α : Type} (t : Table α) (i : Nat) (h : ∀ e ∈ t, e.1 ≠ i) : Table.drop t i = t := by
  induction t with
  | nil => rfl
  | cons e r ih => rw [Table.drop, if_neg (h e (List.mem_cons_self ..)), ih fun e he => h e (List.mem_cons_of_mem _ he)]

theorem Table.drop_place {α : Type} (t : Table α) (i : Nat) (x : α) (h : ∀ e ∈ t, e.1 ≠ i) : Table.drop (Table.place t i x) i = t := by
  induction t with
  | nil => simp [Table.place, Table.drop]
  | cons e r ih =>
    rw [Table.place]
    split
    · rw [Table.drop, if_pos rfl, Table.drop_of_no_key _ _ h]
    · rw [Table.drop, if_neg (h e (List.mem_cons_self ..)), ih fun e he => h e (List.mem_cons_of_mem _ he)]

/-- The later of two writes of a key stands. -/
@[simp] theorem Table.put_put {α : Type} [DecidableEq α] (d : α) (t : Table α) (i : Nat) (x y : α) :
    Table.put d (Table.put d t i x) i y = Table.put d t i y := by
  have hdrop : Table.drop (Table.put d t i x) i = Table.drop t i := by
    rw [Table.put]
    split
    · exact Table.drop_of_no_key _ _ (Table.drop_no_key t i)
    · exact Table.drop_place _ i x (Table.drop_no_key t i)
  rw [Table.put, hdrop, Table.put]

variable (d : Dev)

theorem Dev.core_setCore_ne {k j : Nat} (c : Core) (h : k ≠ j) : (d.setCore k c).core j = d.core j := Table.get_put_ne _ _ _ _ h

@[simp] theorem Dev.setCore_setCore (k : Nat) (b c : Core) : (d.setCore k b).setCore k c = d.setCore k c := by simp [Dev.setCore]

@[simp] theorem Dev.arch_setArch_same (k : Nat) (a : Arch) : (d.setArch k a).arch k = a := by simp [Dev.setArch]

@[simp] theorem Dev.core_setArch_same (k : Nat) (a : Arch) : (d.setArch k a).core k = { d.core k with arch := a } := by simp [Dev.setArch]

@[simp] theorem Dev.setArch_setCore (k : Nat) (c : Core) (a : Arch) : (d.setCore k c).setArch k a = d.setCore k { c with arch := a } := by
  simp [Dev.setArch]

@[simp] theorem Dev.setArch_mem (k : Nat) (a : Arch) : (d.setArch k a).mem = d.mem := rfl

theorem Arch.saved_put_same (a : Arch) (n : Nat) (t : SaveSet) : { a with sets := Table.put {} a.sets n t }.saved n = t := Table.get_put_same _ _ _ _

theorem Arch.saved_put_ne (a : Arch) {n m : Nat} (t : SaveSet) (h : n ≠ m) : { a with sets := Table.put {} a.sets n t }.saved m = a.saved m :=
  Table.get_put_ne _ _ _ _ h

/-! The entry to a level -/

/-- A core as it stands at an entry to level `n` whose save set is free: results land, the reservation goes, the save set takes the state. -/
def Core.enter (c : Core) (n : Nat) (pc cause faddr : W64) : Core :=
  { c with arch := (c.arch.landAll c.cps).enter n pc cause faddr, cps := [], resv := none }

theorem Dev.enterLevel_free {k n : Nat} {pc cause faddr : W64} (h : (d.arch k).occ.getLsbD n = false) :
    d.enterLevel k n pc cause faddr = some (d.setCore k ((d.core k).enter n pc cause faddr)) := by
  have hocc : ((d.core k).arch.landAll (d.core k).cps).occ.getLsbD n = false := h
  simp only [Dev.enterLevel, Dev.arch_setCore_same, hocc, Bool.false_eq_true, if_false, Dev.setArch_setCore, Core.enter]

/-- A vector depends on TRAP_BASE and on memory. -/
theorem Dev.vectorAt_setCore (k v : Nat) (c : Core) (h : c.arch.trapBase = (d.arch k).trapBase) : (d.setCore k c).vectorAt k v = d.vectorAt k v := by
  unfold Dev.vectorAt
  rw [Dev.arch_setCore_same, h]
  rfl

/-- An exception whose level is free and whose vector is usable. -/
theorem Dev.takeException_free {k n v : Nat} {pc cause faddr : W64} {code data : Capability} (h : (d.arch k).occ.getLsbD n = false)
    (hv : d.vectorAt k v = some (code, data)) :
    d.takeException k n v pc cause faddr =
      d.setCore k { (d.core k).enter n pc cause faddr with arch := { ((d.core k).enter n pc cause faddr).arch with pcc := code, ddc := data } } := by
  simp only [Dev.takeException, Dev.enterLevel_free d h]
  rw [Dev.vectorAt_setCore d k v ((d.core k).enter n pc cause faddr) rfl, hv]
  simp only [Dev.setArch_setCore, Dev.arch_setCore_same]

/-- ST at the entry to a level: LVL is the level, IE is 0, the low byte stays. -/
theorem enter_st (st : W64) {n : Nat} (h : n < 8) :
    bitsOf (putBits (putBits st 8 3 n) 11 1 0) 8 3 = n ∧ bitAt (putBits (putBits st 8 3 n) 11 1 0) 11 = false ∧
      (putBits (putBits st 8 3 n) 11 1 0).extractLsb' 0 8 = st.extractLsb' 0 8 := by
  have hbit (v : W64) : bitAt v 11 = decide (bitsOf v 11 1 = 1) := by
    rw [bitsOf, Nat.shiftRight_eq_div_pow, bitAt, BitVec.getLsbD, Nat.testBit_eq_decide_div_mod_eq, pow_one]
  refine ⟨?_, ?_, ?_⟩
  · rw [bitsOf_putBits_ne _ _ _ _ _ _ (.inl (by decide)), bitsOf_putBits_same _ _ _ _ (by decide)]
    exact Nat.mod_eq_of_lt h
  · rw [hbit, bitsOf_putBits_same _ _ _ _ (by decide)]
    rfl
  · apply BitVec.eq_of_toNat_eq
    have hlow := (bitsOf_putBits_ne (putBits st 8 3 n) 11 1 0 0 8 (.inl (by decide))).trans (bitsOf_putBits_ne st 8 3 n 0 8 (.inl (by decide)))
    simpa [bitsOf, BitVec.extractLsb'_toNat] using hlow

/-! The return from a level -/

theorem Dev.rteFailure_none {k n : Nat} (h : d.rteFailure k n = none) :
    (d.arch k).occ.getLsbD n = true ∧ ((d.arch k).saved n).pcc.tag = true ∧ ((d.arch k).saved n).ddc.tag = true ∧
      ((d.arch k).saved n).pcc.fits ((d.arch k).saved n).pc = true ∧ bitsOf ((d.arch k).saved n).st 8 3 ≤ n := by
  simp only [Dev.rteFailure] at h
  split_ifs at h with hocc hpcc hddc hfits hlvl
  all_goals simp_all

theorem Dev.restoreSet_unspilled {k n : Nat} (h : (d.arch k).spill.getLsbD n = false) :
    d.restoreSet k n = d.setArch k { d.arch k with
      pcc := ((d.arch k).saved n).pcc.move ((d.arch k).saved n).pc, ddc := ((d.arch k).saved n).ddc, a := ((d.arch k).saved n).a
      x := ((d.arch k).saved n).x, y := ((d.arch k).saved n).y, st := ((d.arch k).saved n).st &&& 0xF1F
      occ := (d.arch k).occ &&& ~~~ BitVec.ofNat 8 (2 ^ n) } := by
  simp only [Dev.restoreSet, h, Bool.false_eq_true, if_false]

/-- The mask of ST that RTE restores keeps LVL. -/
theorem bitsOf_and_restored (st : W64) : bitsOf (st &&& 0xF1F) 8 3 = bitsOf st 8 3 := by
  apply Nat.eq_of_testBit_eq
  intro i
  simp only [bitsOf, Nat.testBit_mod_two_pow, Nat.testBit_shiftRight, BitVec.toNat_and, Nat.testBit_and]
  by_cases hi : i < 3
  · have hmask : (0xF1F : W64).toNat.testBit (8 + i) = true := by interval_cases i <;> decide
    rw [hmask, Bool.and_true]
  · simp [hi]

/-- One bit of OCC taken away. -/
theorem getLsbD_and_not_two_pow (v : BitVec 8) {n m : Nat} (h : n < 8) :
    (v &&& ~~~ BitVec.ofNat 8 (2 ^ n)).getLsbD m = if m = n then false else v.getLsbD m := by
  have hmask : (BitVec.ofNat 8 (2 ^ n)).getLsbD m = decide (m = n) := by
    rw [BitVec.getLsbD_ofNat, Nat.testBit_two_pow]
    by_cases hm : m = n
    · simp [hm, h]
    · simp [hm, Ne.symm hm]
  rw [BitVec.getLsbD_and, BitVec.getLsbD_not, hmask]
  split
  · simp [*]
  · by_cases hm : m < 8
    · simp [*]
    · simp [BitVec.getLsbD_of_ge v m (Nat.le_of_not_lt hm)]

end Sys2Proof.Machine

namespace Sys2Proof.Claims
open Sys2Proof.Machine

theorem exceptionEntry : ExceptionEntry := by
  intro d k n v pc cause faddr code data hn hocc hv
  dsimp only
  rw [d.takeException_free hocc hv]
  obtain ⟨hlvl, hie, hlow⟩ := enter_st (d.arch k).st hn
  rw [Dev.arch_setCore_same, Dev.core_setCore_same]
  have hocc : BitVec.ofNat 8 (2 ^ n) = 1#8 <<< n := by
    apply BitVec.eq_of_toNat_eq
    simp [Nat.shiftLeft_eq]
  refine ⟨Arch.saved_put_same _ _ _, fun m hm => Arch.saved_put_ne _ _ hm.symm, ?_, hlvl, hie, hlow, rfl, rfl, rfl, rfl, rfl, rfl, rfl, rfl, rfl, rfl, rfl⟩
  rw [← hocc]
  rfl

theorem exceptionReturn : ExceptionReturn := by
  intro d k n hn hrte hspill
  obtain ⟨hocc, hpcc, hddc, hfits, hlvl⟩ := d.rteFailure_none hrte
  dsimp only
  rw [d.restoreSet_unspilled hspill]
  rw [Dev.arch_setArch_same, Dev.setArch_mem]
  refine ⟨hocc, hpcc, hddc, ?_, rfl, rfl, rfl, rfl, rfl, ?_, ?_, fun m hm => ?_, rfl, rfl, rfl⟩
  · simp only [Capability.move, hpcc, hfits, Bool.and_self]
  · rwa [Arch.lvl, bitsOf_and_restored]
  · rw [getLsbD_and_not_two_pow _ hn, if_pos rfl]
  · rw [getLsbD_and_not_two_pow _ hn, if_neg hm]

/-- Settles O39: an entry and a return write the registers of one core. -/
theorem exceptionEntryAndReturn : Obligations.ExceptionEntryAndReturn := ⟨exceptionEntry, exceptionReturn⟩

end Sys2Proof.Claims
end

section
/-!
How an instruction of a Sahxel core that has begun ends (17 R387, 22 R483), for the ways an instruction can go on.
-/
namespace Sys2Proof.Claims
open Sys2Proof.Machine

variable {s : State} {d e : Dev} {i : Instr}

/-- What a command that runs an update does. -/
theorem does_of_run {f : Dev → Dev} (hexec : exec i s = s.run f) (h : f s.dev = e) : Does i s e := by
  rw [Does, hexec, s.run_eq, h]

variable {k len : Nat} {body : Dev → Act Flow}

/-- An instruction that faults is trapped in the device that its parts have left. -/
theorem instr_fault {code detail faddr : Nat} (hd : Begun s k len d) (he : body d = e.fault code detail faddr) (hcode : code ≠ 0) :
    s.dev.instr k len body = Trapped s k e code detail faddr := by
  obtain ⟨hready, hfetch⟩ := hd
  simp only [Dev.instr, hready, hfetch, Act.bind_ok, he, Dev.fault, Bool.not_true, Bool.false_eq_true, if_false, if_neg hcode,
    Dev.arch_setCore_same, Core.collect_pc]
  rfl

/-- An instruction that stays keeps its program counter. -/
theorem instr_stay (hd : Begun s k len d) (he : body d = e.ok .stay) : s.dev.instr k len body = (e.commitDone k).stepEnd k 1 := by
  obtain ⟨hready, hfetch⟩ := hd
  simp only [Dev.instr, hready, hfetch, Act.bind_ok, he, Bool.not_true, Bool.false_eq_true, if_false]
  rfl

/-- An instruction that sets its program counter itself. -/
theorem instr_set (hd : Begun s k len d) (he : body d = e.ok .set) : s.dev.instr k len body = Retired k e := by
  obtain ⟨hready, hfetch⟩ := hd
  simp only [Dev.instr, hready, hfetch, Act.bind_ok, he, Bool.not_true, Bool.false_eq_true, if_false]
  rfl

/-- An instruction that makes a checkpoint behind itself. -/
theorem instr_mark (hd : Begun s k len d) (he : body d = e.ok .mark) :
    s.dev.instr k len body =
      ((((e.setArch k ((e.arch k).goto ((s.dev.arch k).pc + BitVec.ofNat 64 len))).setCore k
        ((e.setArch k ((e.arch k).goto ((s.dev.arch k).pc + BitVec.ofNat 64 len))).core k).retired).checkpoint k).stepEnd k 1) := by
  obtain ⟨hready, hfetch⟩ := hd
  simp only [Dev.instr, hready, hfetch, Act.bind_ok, he, Bool.not_true, Bool.false_eq_true, if_false, Dev.arch_setCore_same, Core.collect_pc]
  rfl

end Sys2Proof.Claims

namespace Sys2Proof.Machine

variable (d : Dev)

@[simp] theorem Act.bind_fault {α β : Type} (c e a : Nat) (f : Dev → α → Act β) : ((d.fault c e a : Act α).bind f) = d.fault c e a := rfl

theorem Dev.notInStep_ok {k : Nat} (h : d.stepping k = false) : d.notInStep k = d.ok () := by simp [Dev.notInStep, Dev.require, h]

theorem Dev.needPcc_ok {k p : Nat} (h : (d.arch k).pcc.has p = true) : d.needPcc k p = d.ok () := by simp [Dev.needPcc, Dev.require, h]

theorem Dev.needPcc_fault {k p : Nat} (h : (d.arch k).pcc.has p = false) : d.needPcc k p = d.fault 9 (3 + 16 * 16) 0 := by
  simp [Dev.needPcc, Dev.require, h]

end Sys2Proof.Machine
end

section
/-!
The TLB of a Sahxel core and its instructions (18 R399-R409).
-/
namespace Sys2Proof.Machine

variable (d : Dev) {k va acc asid : Nat}

/-- Entries around those that match. -/
theorem filter_hits {before mid after : List TlbEntry} (h : ∀ x ∈ before ++ after, x.hits va asid = false) (hmid : ∀ x ∈ mid, x.hits va asid = true) :
    (before ++ mid ++ after).filter (fun e => e.hits va asid) = mid := by
  have hnone {l : List TlbEntry} (hl : ∀ x ∈ l, x.hits va asid = false) : l.filter (fun e => e.hits va asid) = [] :=
    List.filter_eq_nil_iff.mpr fun x hx => by simp [hl x hx]
  rw [List.filter_append, List.filter_append, hnone fun x hx => h x (List.mem_append_left _ hx), hnone fun x hx => h x (List.mem_append_right _ hx),
    List.filter_eq_self.mpr hmid, List.nil_append, List.append_nil]

/-- Locked entries have not been evicted. -/
theorem Dev.tlbMatches_locked {mid : List TlbEntry} (hhit : (d.core k).tlb.filter (fun e => e.hits va asid) = mid)
    (hslot : ∀ e ∈ mid, e.slot.isSome = true) : d.tlbMatches k va asid = (d, mid) := by
  have hall : mid.all (fun e => e.slot.isSome) = true := List.all_eq_true.mpr hslot
  simp only [Dev.tlbMatches, hhit, hall, if_true]

theorem Dev.translate_hit {e : TlbEntry} (hva : va < 2 ^ 48) (hon : (d.arch k).xlateOn = true)
    (hm : d.tlbMatches k va (d.arch k).asid = (d, [e])) (ha : e.allows acc = true) : d.translate k va acc = d.ok (e.pa va) := by
  simp only [Dev.translate, if_neg (Nat.not_le.mpr hva), hon, Bool.not_true, Bool.false_eq_true, if_false, hm, ha, if_true]

theorem Dev.translate_multi {e e2 : TlbEntry} (hva : va < 2 ^ 48) (hon : (d.arch k).xlateOn = true)
    (hm : d.tlbMatches k va (d.arch k).asid = (d, [e, e2])) : ∃ f : Dev, d.translate k va acc = ⟨f, .error (xlateFault 8 0 acc va)⟩ := by
  simp only [Dev.translate, if_neg (Nat.not_le.mpr hva), hon, Bool.not_true, Bool.false_eq_true, if_false, hm]
  exact ⟨_, rfl⟩

end Sys2Proof.Machine

namespace Sys2Proof.Claims
open Sys2Proof.Machine

theorem translationFromTlb : TranslationFromTlb := by
  intro d k va acc e e2 before after hva hon hslot hslot2 asid hhit hother
  refine ⟨fun htlb hallow => ?_, fun htlb hhit2 => ?_⟩
  · have hmatch : (d.core k).tlb.filter (fun e => e.hits va asid) = [e] := by
      rw [htlb, ← List.singleton_append, ← List.append_assoc]
      exact filter_hits hother (by simp [hhit])
    exact d.translate_hit hva hon (d.tlbMatches_locked hmatch (by simp [hslot])) hallow
  · have hmatch : (d.core k).tlb.filter (fun e => e.hits va asid) = [e, e2] := by
      rw [htlb, show before ++ e :: e2 :: after = before ++ [e, e2] ++ after by simp]
      exact filter_hits hother (by simp [hhit, hhit2])
    obtain ⟨f, hf⟩ := d.translate_multi (acc := acc) hva hon (d.tlbMatches_locked hmatch (by simp [hslot, hslot2]))
    refine ⟨f, hf.trans ?_⟩
    rw [xlateFault, Nat.zero_mul, Nat.add_zero, Nat.mul_comm acc]

variable {s : State} {k : Nat} {d e : Dev} {f : Dev → Act Unit}

/-- An operation of the TLB group that PCC permits. -/
theorem tlbOp_permitted (hd : Begun s k 4 d) (hp : (d.arch k).pcc.has permTlb = true) (hf : f d = e.ok ()) : s.dev.tlbOp k f = Finished s k 4 e :=
  instr_next hd (by rw [d.needPcc_ok hp, Act.bind_ok, hf, Act.bind_ok])

/-- An operation of the TLB group that PCC does not permit. -/
theorem tlbOp_refused (hd : Begun s k 4 d) (hp : (d.arch k).pcc.has permTlb = false) : s.dev.tlbOp k f = Trapped s k d 9 (3 + 16 * 16) 0 :=
  instr_fault hd (by rw [d.needPcc_fault hp, Act.bind_fault]) (by decide)

/-- Every operation of the TLB group is one of `tlbOp`. -/
theorem tlb_group_refused {k : CoreId} (hd : Begun s k 4 d) (hp : (d.arch k).pcc.has permTlb = false) :
    ∀ i ∈ [Instr.tlbiVa k, .tlbiAsid k, .tlbiAll k, .tlblock k, .tlbunlock k, .tlbprobe k], Does i s (Trapped s k d 9 (3 + 16 * 16) 0) := by
  intro i hi
  simp only [List.mem_cons, List.not_mem_nil, or_false] at hi
  rcases hi with rfl | rfl | rfl | rfl | rfl | rfl
  · exact does_of_run (f := fun d => d.tlbiVa k) rfl (tlbOp_refused hd hp)
  · exact does_of_run (f := fun d => d.tlbiAsid k) rfl (tlbOp_refused hd hp)
  · exact does_of_run (f := fun d => d.tlbiAll k) rfl (tlbOp_refused hd hp)
  · exact does_of_run (f := fun d => d.tlbLock k) rfl (tlbOp_refused hd hp)
  · exact does_of_run (f := fun d => d.tlbUnlock k) rfl (tlbOp_refused hd hp)
  · exact does_of_run (f := fun d => d.tlbProbe k) rfl (tlbOp_refused hd hp)

theorem tlbOperations : TlbOperations := by
  intro s k d hd
  dsimp only
  refine ⟨fun hp => ⟨?_, ?_, ?_, ?_, ?_, ?_, ?_⟩, tlb_group_refused hd⟩
  · exact does_of_run (f := fun d => d.tlbiVa k) rfl (tlbOp_permitted hd hp rfl)
  · exact does_of_run (f := fun d => d.tlbiAsid k) rfl (tlbOp_permitted hd hp rfl)
  · exact does_of_run (f := fun d => d.tlbiAll k) rfl (tlbOp_permitted hd hp rfl)
  · intro e t hva hwalk
    refine does_of_run (f := fun d => d.tlbLock k) rfl (tlbOp_permitted hd hp ?_)
    dsimp only
    rw [if_neg (Nat.not_le.mpr hva), hwalk, Act.bind_ok]
    rfl
  · exact does_of_run (f := fun d => d.tlbUnlock k) rfl (tlbOp_permitted hd hp rfl)
  · intro hnone
    refine does_of_run (f := fun d => d.tlbProbe k) rfl (tlbOp_permitted hd hp ?_)
    dsimp only
    have hmatch : (d.core k).tlb.filter (fun e => e.hits (d.arch k).x.toNat (d.arch k).asid) = [] :=
      List.filter_eq_nil_iff.mpr fun x hx => by simp [hnone x hx]
    rw [d.tlbMatches_locked hmatch (by simp), ite_self]
  · intro before after e hva htlb hslot hhit hother
    refine does_of_run (f := fun d => d.tlbProbe k) rfl (tlbOp_permitted hd hp ?_)
    dsimp only
    have hmatch : (d.core k).tlb.filter (fun e => e.hits (d.arch k).x.toNat (d.arch k).asid) = [e] := by
      rw [htlb, ← List.singleton_append, ← List.append_assoc]
      exact filter_hits hother (by simp [hhit])
    rw [if_pos hva, d.tlbMatches_locked hmatch (by simp [hslot])]

/-- Settles O44: locked entries that match are used as they are, and each operation is one of the TLB group. -/
theorem tlbGroup : Obligations.TlbGroup := ⟨translationFromTlb, tlbOperations⟩

end Sys2Proof.Claims
end

section
/-!
The coprocessor port of the Sahxel cores (15 R345-R351), the landing of its results, and CHKPT (19 R416).
-/
namespace Sys2Proof.Machine

variable (d : Dev) {k : Nat} {c : Capability} {p o len : Nat} {write : Bool}

/-- The device once the result of an operation is on its way. -/
def Dev.issueCp (d : Dev) (k : Nat) (o : COperand) (v : W64) (lat : Nat) (commit : Bool) : Dev :=
  let f := d.setCore k { d.core k with cps := (d.core k).cps ++ [⟨o.cq.toNat, v, lat, 0, false, false⟩] }
  if commit then f.commits k else f

theorem Dev.portAccess_passes (f : Dev → Dev × W64) (h : d.portCause k c p o len write = none) : d.portAccess k c p o len write f = f d := by
  rw [Dev.portAccess, h]

/-- The oldest result that has not landed. -/
theorem landFirst_append {done rest : List CpOp} {o : CpOp} (hdone : ∀ x ∈ done, x.landed = true) (ho : o.landed = false) :
    landFirst (done ++ o :: rest) = done ++ { o with landed := true } :: rest := by
  induction done with
  | nil => simp [landFirst, ho]
  | cons x r ih =>
    rw [List.cons_append, landFirst, if_pos (hdone x (List.mem_cons_self ..)), ih fun y hy => hdone y (List.mem_cons_of_mem _ hy)]
    rfl

theorem bitsOf_eq_div_mod {n : Nat} (v : BitVec n) (lsb w : Nat) : bitsOf v lsb w = v.toNat / 2 ^ lsb % 2 ^ w := by
  rw [bitsOf, Nat.shiftRight_eq_div_pow]

theorem bitAt_eq_div_mod {n : Nat} (v : BitVec n) (i : Nat) : bitAt v i = decide (v.toNat / 2 ^ i % 2 = 1) := by
  rw [bitAt, BitVec.getLsbD, Nat.testBit_eq_decide_div_mod_eq]

/-- The arguments of RDLANE that are no reserved ones. -/
theorem rdLane_args {a : W64} (h6 : bitsOf a 6 2 = 0) (h10 : bitsOf a 10 2 = 0) (h18 : bitsOf a 18 46 = 0)
    (hodd : bitAt a 17 = true → bitAt a 16 = false) :
    bitAt a 18 = false ∧ ¬ (bitsOf a 6 2 ≠ 0 ∨ bitsOf a 10 2 ≠ 0 ∨ bitsOf a 19 45 ≠ 0 ∨ (bitAt a 17 = false ∧ bitAt a 18 = true) ∨
      (bitAt a 17 = true ∧ bitAt a 16 = true)) := by
  have hbit : bitAt a 18 = false := by
    simp only [bitAt_eq_div_mod, bitsOf_eq_div_mod, decide_eq_false_iff_not] at h18 ⊢
    omega
  have h19 : bitsOf a 19 45 = 0 := by
    simp only [bitsOf_eq_div_mod] at h18 ⊢
    omega
  refine ⟨hbit, ?_⟩
  simp only [h6, h10, h19, hbit, ne_eq, not_true_eq_false, false_or, Bool.false_eq_true, and_false]
  exact fun h => by simp [hodd h.1] at h

end Sys2Proof.Machine

namespace Sys2Proof.Claims
open Sys2Proof.Machine

variable {s : State} {k : Nat} {d e : Dev} {o : COperand} {v : W64} {lat : Nat} {commit : Bool} {f : Dev → Arch → Capability → Dev × W64}

/-- An operation that issues has its effect, and its result is on its way. -/
theorem cpOp_issues (hd : Begun s k 4 d) (hroom : ((s.dev.core k).cps.filter (fun x => !x.landed)).length < 8) (hstep : d.stepping k = false)
    (hf : f d (d.arch k) ((d.arch k).cap o.cap.toNat) = (e, v)) : s.dev.cpOp k o lat commit f = Finished s k 4 (e.issueCp k o v lat commit) := by
  rw [Dev.cpOp, if_neg (Nat.not_le.mpr hroom)]
  refine instr_next hd ?_
  rw [d.notInStep_ok hstep, Act.bind_ok]
  simp only [hf]
  rfl

theorem coprocessorPort : CoprocessorPort := by
  intro s k o d hd hroom hstep
  dsimp only
  refine ⟨fun hargs => ⟨fun hargs2 hpass => ?_, fun hpass => ?_⟩, fun h6 h10 h18 hpass => ⟨fun h17 => ?_, fun h16 => ?_⟩,
    fun hlow hhigh hpass => ⟨fun e n hstart => ?_, fun e code hstart => ?_⟩, fun hargs => ⟨fun hpass => ?_, fun hpass => ?_⟩,
    fun hargs => ⟨?_, ?_, ?_⟩⟩
  · split
    · next hrefusal =>
      refine does_of_run (f := fun d => d.cpPost k o) rfl (cpOp_issues hd hroom hstep ?_)
      dsimp only
      rw [if_neg (by simp [hargs, hargs2]), d.portAccess_passes _ hpass, hrefusal]
      rfl
    · next code hrefusal =>
      refine does_of_run (f := fun d => d.cpPost k o) rfl (cpOp_issues hd hroom hstep ?_)
      dsimp only
      rw [if_neg (by simp [hargs, hargs2]), d.portAccess_passes _ hpass, hrefusal]
      rfl
  · refine does_of_run (f := fun d => d.cpRdJob k o) rfl (cpOp_issues hd hroom hstep ?_)
    dsimp only
    rw [if_neg (by simp [hargs]), d.portAccess_passes _ hpass]
    exact congrArg (Prod.mk d) (by rw [cpResult])
  · have hacc : bitAt (d.arch k).a 17 = false := by
      simp only [bitAt_eq_div_mod, bitsOf_eq_div_mod, decide_eq_false_iff_not] at h17 ⊢
      omega
    obtain ⟨-, hargs⟩ := rdLane_args h6 h10 h18 (by simp [hacc])
    refine does_of_run (f := fun d => d.cpRdLane k o) rfl (cpOp_issues hd hroom hstep ?_)
    dsimp only
    rw [if_neg hargs, d.portAccess_passes _ hpass, hacc]
    simp only [Bool.false_eq_true, if_false]
    rw [cpResult]
  · obtain ⟨hacc, hlow⟩ : bitAt (d.arch k).a 17 = true ∧ bitAt (d.arch k).a 16 = false := by
      simp only [bitAt_eq_div_mod, bitsOf_eq_div_mod, decide_eq_false_iff_not, decide_eq_true_eq] at h16 ⊢
      omega
    obtain ⟨hhalf, hargs⟩ := rdLane_args h6 h10 h18 fun _ => hlow
    refine does_of_run (f := fun d => d.cpRdLane k o) rfl (cpOp_issues hd hroom hstep ?_)
    dsimp only
    rw [if_neg hargs, d.portAccess_passes _ hpass, hacc, hhalf]
    simp only [if_true, Bool.false_eq_true, if_false]
    rw [cpResult]
  · refine does_of_run (f := fun d => d.cpStart k o) rfl (cpOp_issues hd hroom hstep ?_)
    dsimp only
    rw [if_neg (by simp [hlow, hhigh]), d.portAccess_passes _ hpass, hstart]
    rfl
  · refine does_of_run (f := fun d => d.cpStart k o) rfl (cpOp_issues hd hroom hstep ?_)
    dsimp only
    rw [if_neg (by simp [hlow, hhigh]), d.portAccess_passes _ hpass, hstart]
    rfl
  · refine does_of_run (f := fun d => d.cpXfer k o false) rfl (cpOp_issues hd hroom hstep ?_)
    dsimp only
    rw [if_neg (by simp [hargs])]
    exact d.portAccess_passes _ hpass
  · refine does_of_run (f := fun d => d.cpXfer k o true) rfl (cpOp_issues hd hroom hstep ?_)
    dsimp only
    rw [if_neg (by simp [hargs])]
    exact d.portAccess_passes _ hpass
  · refine does_of_run (f := fun d => d.cpStart k o) rfl (cpOp_issues hd hroom hstep ?_)
    dsimp only
    rw [if_pos (.inr hargs)]
    rfl
  · refine does_of_run (f := fun d => d.cpXfer k o false) rfl (cpOp_issues hd hroom hstep ?_)
    dsimp only
    rw [if_pos hargs]
    rfl
  · refine does_of_run (f := fun d => d.cpXfer k o true) rfl (cpOp_issues hd hroom hstep ?_)
    dsimp only
    rw [if_pos hargs]
    rfl

theorem checkpointInstruction : CheckpointInstruction := by
  intro s k
  refine ⟨fun hout => ?_, fun d hout hd => ?_, fun rest d hrest hd => ?_⟩
  · exact does_of_run (f := fun d => d.chkpt k 0) rfl (if_pos ⟨rfl, hout⟩)
  · refine does_of_run (f := fun d => d.chkpt k 0) rfl ?_
    rw [Dev.chkpt, if_neg (by simp [hout])]
    exact instr_mark hd rfl
  · refine does_of_run (f := fun d => d.chkpt k rest) rfl ?_
    rw [Dev.chkpt, if_neg fun h => hrest h.1]
    exact instr_fault hd (if_pos hrest) (by decide)

theorem resultsLandInOrder : ResultsLandInOrder := by
  intro s k done rest o hclk hcps hdone ho
  refine does_of_run (f := fun d => d.resultLand k) rfl ?_
  simp only [Dev.resultLand, hclk, Bool.false_eq_true, if_false, hcps, landFirst_append hdone ho]

/-- Settles O46: an operation of the port issues as one instruction. -/
theorem portAndResults : Obligations.PortAndResults := ⟨coprocessorPort, resultsLandInOrder, checkpointInstruction⟩

end Sys2Proof.Claims
end

section
/-!
Interrupts of the Sahxel cores (17 R386-R393): which source is delivered, at which boundary, and how WFI waits.
-/
namespace Sys2Proof.Machine

/-- No source of a list is better than one. -/
def Best (l : List IntSource) (b : IntSource) : Prop := b ∈ l ∧ ∀ x ∈ l, x.1 ≤ b.1 ∧ (x.1 = b.1 → b.2.1 ≤ x.2.1)

theorem Best.snoc_better {l : List IntSource} {a b : IntSource} (h : Best l b) (hab : intBetter a b = true) : Best (l ++ [a]) a := by
  refine ⟨by simp, fun x hx => ?_⟩
  simp only [intBetter, Bool.or_eq_true, Bool.and_eq_true, decide_eq_true_eq, beq_iff_eq] at hab
  rcases List.mem_append.mp hx with hx | hx
  · have hxb := h.2 x hx
    omega
  · simp [List.mem_singleton.mp hx]

theorem Best.snoc_worse {l : List IntSource} {a b : IntSource} (h : Best l b) (hab : intBetter a b = false) : Best (l ++ [a]) b := by
  refine ⟨List.mem_append_left _ h.1, fun x hx => ?_⟩
  simp only [intBetter, Bool.or_eq_false_iff, Bool.and_eq_false_iff, decide_eq_false_iff_not, beq_eq_false_iff_ne] at hab
  rcases List.mem_append.mp hx with hx | hx
  · exact h.2 x hx
  · rw [List.mem_singleton.mp hx]
    omega

/-- The better of the best source so far and the next. -/
def pickSource (best : Option IntSource) (s : IntSource) : Option IntSource :=
  match best with
  | none => some s
  | some b => if intBetter s b then some s else best

theorem Dev.intTop_eq_foldl (d : Dev) (k : Nat) : d.intTop k = (d.intSources k).foldl pickSource none := rfl

/-- The best source of those seen so far and those to come. -/
theorem best_foldl {seen l : List IntSource} {b r : IntSource} (hb : Best seen b) (h : l.foldl pickSource (some b) = some r) : Best (seen ++ l) r := by
  induction l generalizing seen b with
  | nil =>
    obtain rfl : b = r := Option.some.inj h
    rwa [List.append_nil]
  | cons s l ih =>
    rw [List.append_cons]
    rw [List.foldl_cons, pickSource] at h
    split at h
    · next hbetter => exact ih (hb.snoc_better hbetter) h
    · next hworse => exact ih (hb.snoc_worse (Bool.eq_false_iff.mpr hworse)) h

/-- The source that would be taken is the best of all. -/
theorem Dev.best_intTop {d : Dev} {k : Nat} {b : IntSource} (h : d.intTop k = some b) : Best (d.intSources k) b := by
  rw [Dev.intTop_eq_foldl] at h
  cases hl : d.intSources k with
  | nil => simp [hl] at h
  | cons s l =>
    rw [hl, List.foldl_cons] at h
    exact best_foldl (seen := [s]) ⟨by simp, by simp⟩ h

end Sys2Proof.Machine

namespace Sys2Proof.Claims
open Sys2Proof.Machine

theorem highestSourceFirst : HighestSourceFirst := fun _ _ _ h => Dev.best_intTop h

theorem interruptsAndExceptions : InterruptsAndExceptions := by
  intro s k hruns
  dsimp only
  refine ⟨fun p e t hie harith hdoor hhalt htop hlvl hsound => ?_, fun harith => ?_, fun hdue => ?_, fun htop => ?_⟩
  · refine does_of_run (f := fun d => d.interruptEntry k) rfl ?_
    have hcause : causeWord 0x0F 0 e = BitVec.ofNat 64 (0x0F + e * 2 ^ 24) := by rw [causeWord, Nat.zero_mul, Nat.add_zero]
    have hfree : (s.dev.coreRuns k && (s.dev.core k).arch.ie && !(s.dev.core k).arch.arithPend && (s.dev.core k).doorWait.isNone &&
        !(s.dev.sys.halted && (s.dev.core k).maskInt)) = true := by simp [hruns, hie, harith, hdoor, hhalt]
    obtain ⟨hrecovering, hfailed⟩ := hsound
    simp only [Dev.interruptEntry, htop, hfree, hcause, hrecovering, hfailed, Bool.not_true, Bool.false_or, decide_eq_true_eq,
      if_neg (Nat.not_le.mpr hlvl), Bool.false_eq_true, if_false]
  · refine does_of_run (f := fun d => d.arithException k) rfl ?_
    simp only [Dev.arithException, hruns, harith, causeWord, Bool.not_true, Bool.or_self, Bool.false_eq_true, if_false, Nat.zero_mul, Nat.add_zero]
    rfl
  · refine does_of_run (f := fun d => d.autoCheckpoint k) rfl ?_
    simp only [Dev.autoCheckpoint, hruns, hdue, Bool.and_self, if_true]
  · refine does_of_run (f := fun d => d.interruptEntry k) rfl ?_
    simp only [Dev.interruptEntry, htop]

theorem waitForInterrupt : WaitForInterrupt := by
  intro s k
  refine ⟨fun d hd hstep => ⟨fun hwakes => ?_, fun hwakes => ?_⟩, fun hruns hwfi hwakes => ?_⟩
  · refine does_of_run (f := fun d => d.waitInt k) rfl (instr_next hd ?_)
    rw [d.notInStep_ok hstep, Act.bind_ok, if_pos hwakes]
  · refine does_of_run (f := fun d => d.waitInt k) rfl (instr_stay hd ?_)
    rw [d.notInStep_ok hstep, Act.bind_ok, if_neg (by simp [hwakes])]
  · refine ⟨s.dev.wfiRetire k, does_of_run (f := fun d => d.wfiWake k) rfl ?_, ?_⟩
    · simp only [Dev.wfiWake, hruns, hwfi, hwakes, Bool.and_self, if_true]
    · rw [Dev.wfiRetire]
      simp only [hwfi, if_true]
      refine ⟨?_, ?_, fun j hj => Dev.core_setCore_ne _ _ (Ne.symm hj), rfl, rfl⟩
      · rw [Dev.core_setCore_same]
        rfl
      · rw [Dev.arch_setCore_same]
        rfl

/-- Settles O47: the sources are folded from the first to the last, and each delivery is one case of its command. -/
theorem interruptDelivery : Obligations.InterruptDelivery := ⟨interruptsAndExceptions, highestSourceFirst, waitForInterrupt⟩

end Sys2Proof.Claims
end

section
/-!
Reads that change what they read (01 R13), and what a statement about the device before `settle` leaves open.
-/
namespace Sys2Proof.Claims
open Sys2Proof.Machine

variable {s : State} {i : Instr} {P : Dev → Prop}

/-- A device that a command gives is the one it makes, up to what the links, vectors and trace take note of. -/
theorem gives_noted {f : Dev → Dev} (h : Gives i s P) (hexec : exec i s = s.run f) (hotp : s.dev.otpCmd = none)
    (hquiet : (f s.dev).quiet) (hreset : (f s.dev).sys.reset = .none) : ∃ r x : Dev, P r ∧ r.NoteKeeps x ∧ (f s.dev).NoteKeeps x := by
  obtain ⟨r, hdoes, hr⟩ := h
  rw [Does, hexec, s.run_eq] at hdoes
  injection hdoes with hstate
  have hdev := congrArg State.dev hstate
  rw [s.withDev_dev _ (.inl hotp), s.withDev_dev _ (.inl hotp)] at hdev
  have hnoted := Dev.NoteKeeps.settle hquiet
  have hrquiet : r.quiet := Dev.quiet_of_settle (by rw [← hdev, hnoted.sys, hreset])
  exact ⟨r, r.settle, hr, .settle hrquiet, hdev ▸ hnoted⟩

/-- A device with no link enabled that traces nothing. -/
def Unlinked (d : Dev) : Prop := (∀ l, d.en (pgTlc l) = false) ∧ d.tracing = false

/-- Where no link is enabled and nothing is traced, the registers are those that the command leaves. -/
theorem gives_regs {f : Dev → Dev} {regs : Table W32} (h : Gives i s fun r => P r ∧ r.regs = regs) (hexec : exec i s = s.run f)
    (hotp : s.dev.otpCmd = none) (hquiet : (f s.dev).quiet) (hreset : (f s.dev).sys.reset = .none) (hf : Unlinked (f s.dev))
    (hr : ∀ r : Dev, r.regs = regs → Unlinked r) : (f s.dev).regs = regs := by
  obtain ⟨r, x, ⟨-, hregs⟩, hrx, hfx⟩ := gives_noted h hexec hotp hquiet hreset
  obtain ⟨hlinks, htrace⟩ := hr r hregs
  exact (hfx.idle hf.1 hf.2).symm.trans ((hrx.idle hlinks htrace).trans hregs)

end Sys2Proof.Claims

namespace Sys2Proof.Machine

/-- ENABLE of every page kind is 0 at reset. -/
theorem findWord_enable_reset (k : PageKind) : (findWord k 8).all (fun r => r.ofs == 8 && r.resetValue == 0) = true := by
  cases k <;> rfl

theorem regReset_enable {a : Nat} (ha : a % 0x1000 = 8) : regReset a = 0 := by
  have hword {k : PageKind} {r : RWord} (h : findWord k 8 = some r) : r.ofs = 8 ∧ r.resetValue = 0 := by
    have hall := findWord_enable_reset k
    rw [h] at hall
    simpa using hall
  unfold regReset
  split
  · next p _ =>
    rw [ha]
    cases hr : findWord p.kind 8 with
    | none => simp [pageReset, hr]
    | some r =>
      obtain ⟨hofs, hreset⟩ := hword hr
      simp [pageReset, hr, hofs, hreset]
  · split
    · rw [ha]
      split
      · next r hr =>
        rw [(hword hr).2]
        rfl
      · rfl
    · rfl

/-- A register that is not listed is at its reset value. -/
theorem Dev.reg_of_unlisted {d : Dev} {a : Nat} (h : ∀ e ∈ d.regs, e.1 ≠ a) : d.reg a = regReset a := by
  rw [Dev.reg]
  revert h
  generalize d.regs = t
  induction t with
  | nil => exact fun _ => rfl
  | cons e t ih =>
    intro h
    rw [Table.get, if_neg (h e (List.mem_cons_self ..)), ih fun x hx => h x (List.mem_cons_of_mem _ hx)]

/-- A table of registers that lists no ENABLE leaves every page disabled. -/
theorem Dev.en_of_unlisted {d : Dev} {p : Nat} (hp : p % 0x1000 = 0) (h : ∀ e ∈ d.regs, e.1 % 0x1000 ≠ 8) : d.en p = false := by
  have hzero : d.reg (p + 8) = 0 := by
    rw [Dev.reg_of_unlisted fun e he => by have := h e he; omega, regReset_enable (by omega)]
  simp [Dev.en, Dev.on, Dev.f, F.H_EN, hzero, bitsOf]

end Sys2Proof.Machine

namespace Sys2Proof.Claims
open Sys2Proof.Machine

/-- Every domain on, and a register listed with the value that it reads as without. -/
def listedZero : State := { dev := { regs := [(tmrPage 0 0 + 0x124, 0), (pgPwr + 0x44, 0xFFFFFFFF)], sys := { reset := .none } } }

/-- A device whose registers are all at reset but the three at issue. -/
theorem unlinked_of_listed {d : Dev} (h : ∀ e ∈ d.regs, e ∈ listedZero.dev.regs) : Unlinked d := by
  have henable : ∀ e ∈ listedZero.dev.regs, e.1 % 0x1000 ≠ 8 := by decide
  have htrace : ∀ e ∈ listedZero.dev.regs, e.1 ≠ pgDbg + F.TRC_CTRL_EN.ofs := by decide
  refine ⟨fun l => Dev.en_of_unlisted (by unfold pgTlc; omega) fun e he => henable e (h e he), ?_⟩
  have hoff : d.on pgDbg F.TRC_CTRL_EN = false := by
    rw [Dev.on, Dev.f, Dev.reg_of_unlisted fun e he => htrace e (h e he)]
    decide
  rw [Dev.tracing, hoff, Bool.and_false, Bool.false_and, Bool.false_and]

/-- The 64-bit read of TMR_CAP writes its high word as it stands, which takes the listed zero away. -/
theorem listedZero_read : Readable listedZero .boot (pageTimer 0 0) 0x120 8 ∧
    (listedZero.dev.busRead .boot (tmrPage 0 0 + 0x120) 8 false).regs = [(pgPwr + 0x44, 0xFFFFFFFF)] ∧
    (listedZero.dev.busRead .boot (tmrPage 0 0 + 0x120) 8 false).sys = { reset := .none } ∧
    (listedZero.dev.timerCapRead 0 0).regs = listedZero.dev.regs := by decide +kernel

/-- Refutes O11: a register that is listed with its reset value is no longer listed after a 64-bit read of the TMR_CAP beside it. -/
theorem not_readsThatClear : ¬ Obligations.ReadsThatClear := by
  intro h
  obtain ⟨hreadable, hread, hsys, hcapRead⟩ := listedZero_read
  obtain ⟨-, -, -, -, -, hcap, -⟩ := h listedZero .boot (by decide)
  have hexec : exec (.tmrCapRead .boot 0 0 true) listedZero = listedZero.run fun d => d.busRead .boot (tmrPage 0 0 + 0x120) 8 false := by
    rw [show exec (.tmrCapRead .boot 0 0 true) listedZero = listedZero.read .boot (tmrPage 0 0 + 0x120) 8 false from rfl, State.read, State.reach,
      if_neg (by decide)]
  have hregs := gives_regs (hcap 0 0 true hreadable) hexec rfl (by rw [Dev.quiet, hsys]) (by rw [hsys])
    (unlinked_of_listed (by rw [hread]; decide))
    (fun r hr => unlinked_of_listed (by rw [hr]; exact fun e he => hcapRead ▸ he))
  exact absurd ((hread.symm.trans hregs).trans hcapRead) (by decide)

end Sys2Proof.Claims
end

section
/-!
Posts of one tick to a queue (08 R188): those that come before a post already made put the queue back first.
-/
namespace Sys2Proof.Claims
open Sys2Proof.Machine

/-- A job posted in this tick to a queue whose page is disabled, and a post of the tick that comes behind every other. -/
def postedAhead : State :=
  { dev := { regs := [(pgPwr + 0x44, 0xFFFFFFFF)], sys := { reset := .none }, queues := [(0, [⟨0, 0, 0, [], none, 0, 0, false⟩])],
             present := { posts := [⟨0, 66, 0, none, false⟩] } } }

/-- The refused post takes the job away that was posted in its tick. -/
theorem postedAhead_post : Accepts postedAhead .boot (pageJq 0) 0x48 8 ((0#8).toNat + (0#32).toNat * 2 ^ 32) ∧
    postedAhead.dev.postRefusal (postedAhead.dev.posting 0 0 (postedAhead.dev.offsetDeadline 0) false) = some 1 ∧
    (postedAhead.dev.busWrite .boot (pgJq 0 + 0x48) 8 0).queue 0 = [] ∧
    (postedAhead.dev.busWrite .boot (pgJq 0 + 0x48) 8 0).sys = { reset := .none } := by decide +kernel

/-- Refutes O21: a refused post that comes ahead of another of its tick makes the jobs of that tick leave their queue. -/
theorem not_templatesAndQueues : ¬ Obligations.TemplatesAndQueues := by
  rintro ⟨-, h⟩
  obtain ⟨haccepts, hrefusal, hpost, hsys⟩ := postedAhead_post
  obtain ⟨hposts, -⟩ := h postedAhead .boot 0
  have hrefused := (hposts 0 0 haccepts).2 1 hrefusal (by decide)
  have hexec : exec (.jqPost .boot 0 0 0) postedAhead = postedAhead.run fun d => d.busWrite .boot (pgJq 0 + 0x48) 8 0 := by
    rw [show exec (.jqPost .boot 0 0 0) postedAhead = postedAhead.write .boot (pgJq 0 + 0x48) 8 0 from rfl, State.write, State.reach,
      if_neg (by decide)]
  obtain ⟨r, x, ⟨hqueue, -⟩, hr, hf⟩ := gives_noted hrefused hexec rfl (by rw [Dev.quiet, hsys]) (by rw [hsys])
  have hsame {d e : Dev} (h : d.NoteKeeps e) : e.queue 0 = d.queue 0 := (congrArg (fun y : Dev => y.queue 0) h.rest : _)
  exact absurd (hpost.symm.trans ((hsame hf).symm.trans ((hsame hr).trans hqueue))) (by decide)

end Sys2Proof.Claims
end

section
/-!
A power-on reset (03 R69) with a fault ball that is none of the device's.
-/
namespace Sys2Proof.Claims
open Sys2Proof.Machine

/-- PORST_N low, and a fault ball that is active whose number lies far past the page of the fault inputs. -/
def farBall : State := { dev := { fltBall := [(0x80000000, true)], sys := { porstLow := true } } }

theorem farBall_level : ((farBall.dev.powerOnReset farBall.otp).reg 0xF7020040).toNat = 1 := by
  rw [Dev.powerOnReset, show ∀ d : Dev, d.stamp.reg 0xF7020040 = d.reg 0xF7020040 from fun _ => rfl,
    (Dev.MatrixKeeps.shutter _).reg _ (by simp [matrixReg])]
  decide

/-- Refutes O13: what a fault ball shows after a power-on reset is not held to the Shutter's pages. -/
theorem not_resets : ¬ Obligations.Resets := by
  rintro ⟨-, h, -⟩
  obtain ⟨t, hexec, -, -, -, -, -, -, -, -, -, -, -, -, -, -, -, hreg⟩ := h farBall .powerOnReset rfl (.inr ⟨rfl, rfl⟩)
  rw [show exec .powerOnReset farBall = farBall.powerOn from rfl, State.powerOn] at hexec
  injection hexec with hstate
  have hlevel : ((farBall.withDev (farBall.dev.powerOnReset farBall.otp)).dev.reg 0xF7020040).toNat = 1 := by
    rw [State.withDev_dev _ _ (.inl rfl), farBall_level]
  rw [show (farBall.withDev (farBall.dev.powerOnReset farBall.otp)).dev = t.dev from congrArg State.dev hstate,
    hreg 0xF7020040 (by decide) (by decide)] at hlevel
  exact absurd hlevel (by decide)

end Sys2Proof.Claims
end

section
/-!
A sigma-delta input (12 R273) that has counted more samples than it holds.
-/
namespace Sys2Proof.Machine

/-- The links and the trace unit write no register below their own pages. -/
theorem not_seenReg_below {a : Nat} (h : a < 0xE6000000) : ¬ seenReg a := by
  simp only [seenReg, pgDbg, pgTlc, pgTlcnt]
  omega

end Sys2Proof.Machine

namespace Sys2Proof.Claims
open Sys2Proof.Machine

/-- Input 0 of casement 0 with STUCK_LEN 2: its clock runs, one sample is counted and none is held. -/
def forgottenSample : State :=
  { dev := { regs := [(pgSd 0 + 8, 1), (pgSd 0 + 0x40, 3), (pgSd 0 + 0x80, 0x20001), (pgPwr + 0x44, 0xFFFFFFFF)], sys := { reset := .none },
             time := { tick := 8 }, sdIns := [(0, { got := 1 })], sdClks := [(0, { running := true, first := some 0 })] } }

/-- The second sample is the only one held, so that the input is not stuck. -/
theorem forgottenSample_stuck : bitAt ((forgottenSample.dev.sdStuck 0 0 [true]).reg (pgSd 0 + 0x10)) 0 = false ∧
    (forgottenSample.dev.sdStuck 0 0 [true]).sys = { reset := .none } ∧ forgottenSample.dev.sdActive 0 0 = true ∧
    (forgottenSample.dev.sd 0 0).got + 1 ≤ forgottenSample.dev.sdInstants 0 0 forgottenSample.dev.tick ∧
    bitAt (forgottenSample.dev.reg (pgSd 0 + 0x10)) 0 = false ∧
    forgottenSample.dev.f (pgSd 0) (F.SD_CFG_STUCK_LEN.at 0) = 2 := by decide +kernel

/-- Refutes O30: equal samples that an input has counted but does not hold do not set STUCK. -/
theorem not_acquisition : ¬ Obligations.Acquisition := by
  rintro ⟨-, h⟩
  obtain ⟨hstill, hsys, hactive, hgot, hclear, hlen⟩ := forgottenSample_stuck
  obtain ⟨-, -, -, -, hstuck, -⟩ := h forgottenSample 0 rfl
  have hgives := (hstuck 0 true hactive hgot).1 hclear (by rw [show (32 * (0 : Fin 6).val) = 0 from rfl]; simp [hlen]) (by
    rw [show (32 * (0 : Fin 6).val) = 0 from rfl]; simp [hlen]; decide) (by decide)
  have hexec : exec (.sdStuck 0 0 [true]) forgottenSample = forgottenSample.run fun d => d.sdStuck 0 0 [true] :=
    State.clocked_eq forgottenSample (fun d => d.sdStuck 0 0 [true]) rfl
  obtain ⟨r, x, ⟨hset, -⟩, hr, hf⟩ := gives_noted hgives hexec rfl (by rw [Dev.quiet, hsys]) (by rw [hsys])
  have hseen : ¬ seenReg (pgSd 0 + 0x10) := not_seenReg_below (by decide)
  have hsame : r.reg (pgSd 0 + 0x10) = (forgottenSample.dev.sdStuck 0 0 [true]).reg (pgSd 0 + 0x10) := (hr.reg _ hseen).symm.trans (hf.reg _ hseen)
  have hset : bitAt (r.reg (pgSd 0 + 0x10)) 0 = true := hset
  rw [hsame, hstill] at hset
  exact absurd hset (by decide)

end Sys2Proof.Claims
end

section
/-!
Arithmetic and logic of the Sahxel cores (15 R328, R336): an instruction of each group is its operation on registers and operand.
-/
namespace Sys2Proof.Claims
open Sys2Proof.Machine

variable {s : State} {k : CoreId} {d : Dev}

/-! Operations on A with an operand -/

section operand
variable {m : MOperand} {e f : Dev} {v x y : W64} {b : Arch} {op : AluOp}

/-- What an operation makes of the device, of A, X and Y and of its operand. -/
theorem alu_eq (hd : Begun s k 4 d) (hread : d.readOperand k m = e.ok (v, x, y)) (hop : op e { e.arch k with x := x, y := y } v = (f, b)) :
    s.dev.alu k m op = Finished s k 4 (f.setArch k b) :=
  instr_next hd (by dsimp only; rw [hread, Act.bind_ok]; dsimp only; rw [hop])

theorem operandArithmetic : OperandArithmetic := by
  intro s k m d e v x y hd hread
  dsimp only
  refine ⟨?_, ?_, ?_, ?_, ?_, ?_, ?_, ?_, ?_, ?_, fun hv => ⟨?_, ?_, ?_, ?_⟩, fun hv i hi => ?_⟩
  · exact does_of_run (f := fun d => d.alu k m (opAdd 0)) rfl (alu_eq hd hread rfl)
  · exact does_of_run (f := fun d => d.alu k m (opSub 0)) rfl (alu_eq hd hread rfl)
  · exact does_of_run (f := fun d => d.alu k m (opLogic (· &&& ·) 0)) rfl (alu_eq hd hread rfl)
  · exact does_of_run (f := fun d => d.alu k m (opLogic (· ||| ·) 0)) rfl (alu_eq hd hread rfl)
  · exact does_of_run (f := fun d => d.alu k m (opLogic (· ^^^ ·) 0)) rfl (alu_eq hd hread rfl)
  · exact does_of_run (f := fun d => d.alu k m (opCmp 0)) rfl (alu_eq hd hread rfl)
  · exact does_of_run (f := fun d => d.alu k m opAddV) rfl (alu_eq hd hread rfl)
  · exact does_of_run (f := fun d => d.alu k m opSubV) rfl (alu_eq hd hread rfl)
  · exact does_of_run (f := fun d => d.alu k m (opMul false)) rfl (alu_eq hd hread rfl)
  · exact does_of_run (f := fun d => d.alu k m (opMul true)) rfl (alu_eq hd hread rfl)
  · exact does_of_run (f := fun d => d.alu k m (opDiv 0)) rfl (alu_eq hd hread (if_neg hv))
  · exact does_of_run (f := fun d => d.alu k m (opDiv 1)) rfl (alu_eq hd hread (if_neg hv))
  · exact does_of_run (f := fun d => d.alu k m (opDiv 2)) rfl (alu_eq hd hread (if_neg hv))
  · exact does_of_run (f := fun d => d.alu k m (opDiv 3)) rfl (alu_eq hd hread (if_neg hv))
  · have hzero (n : Nat) := alu_eq (op := opDiv n) hd hread (if_pos hv)
    simp only [List.mem_cons, List.not_mem_nil, or_false] at hi
    rcases hi with rfl | rfl | rfl | rfl
    · exact does_of_run (f := fun d => d.alu k m (opDiv 0)) rfl (hzero 0)
    · exact does_of_run (f := fun d => d.alu k m (opDiv 1)) rfl (hzero 1)
    · exact does_of_run (f := fun d => d.alu k m (opDiv 2)) rfl (hzero 2)
    · exact does_of_run (f := fun d => d.alu k m (opDiv 3)) rfl (hzero 3)

/-! Floating point -/

/-- A floating-point operation of a size that it takes. -/
theorem floatAlu_eq {op : Bool → AluOp} (hd : Begun s k 4 d) (hread : d.readOperand k m = e.ok (v, x, y)) (hsz : m.sz = 2 ∨ m.sz = 3)
    (hop : op (m.sz == 2) e { e.arch k with x := x, y := y } v = (f, b)) : s.dev.floatAlu k m op = Finished s k 4 (f.setArch k b) :=
  (if_pos hsz).trans (alu_eq hd hread hop)

/-- A floating-point operation of another size is illegal. -/
theorem floatAlu_illegal {op : Bool → AluOp} (hd : Begun s k 4 d) (hsz : m.sz = 0 ∨ m.sz = 1) : s.dev.floatAlu k m op = Trapped s k d 1 0 0 := by
  have hother : ¬ (m.sz = 2 ∨ m.sz = 3) := by rcases hsz with h | h <;> rw [h] <;> decide
  exact (if_neg hother).trans (instr_fault hd rfl (by decide))

/-- The commands of the four operations of `f64arith`. -/
theorem exec_float (k : CoreId) (m : MOperand) (s : State) :
    ∀ p ∈ [(Instr.fadd k m, 0), (.fsub k m, 1), (.fmul k m, 2), (.fdiv k m, 3)], exec p.1 s = s.run fun d => d.floatAlu k m (opFloat p.2) := by
  intro p hp
  simp only [List.mem_cons, List.not_mem_nil, or_false] at hp
  rcases hp with rfl | rfl | rfl | rfl <;> rfl

theorem floatingPoint : FloatingPoint := by
  intro s k m d hd
  refine ⟨fun e v x y hread hsz => ⟨fun p hp => ?_, fun o ho => ?_⟩, fun hsz i hi => ?_⟩
  · have hdoes {f : Dev} {b : Arch} (hop : opFloat p.2 (m.sz == 2) e { e.arch k with x := x, y := y } v = (f, b)) :
        Does p.1 s (Finished s k 4 (f.setArch k b)) := does_of_run (exec_float k m s p hp) (floatAlu_eq hd hread hsz hop)
    dsimp only
    refine ⟨fun b hb => ⟨e.freeBit.1, e.freeBit.2.freeBit.1, hdoes ?_⟩, fun hr => hdoes ?_, fun neg hr => hdoes ?_,
      fun hr => ⟨e.freeWord.1, e.freeWord.2.freeBit.1, e.freeWord.2.freeBit.2.freeBit.1, hdoes ?_⟩⟩
    · rw [opFloat, hb]
      rfl
    · rw [opFloat, hr]
    · rw [opFloat, hr]
    · rw [opFloat, hr]
      rfl
  · refine does_of_run (f := fun d => d.floatAlu k m opFcmp) rfl (floatAlu_eq hd hread hsz ?_)
    rw [opFcmp, ho]
  · simp only [List.mem_cons, List.not_mem_nil, or_false] at hi
    rcases hi with rfl | rfl | rfl | rfl | rfl
    · exact does_of_run (f := fun d => d.floatAlu k m (opFloat 0)) rfl (floatAlu_illegal hd hsz)
    · exact does_of_run (f := fun d => d.floatAlu k m (opFloat 1)) rfl (floatAlu_illegal hd hsz)
    · exact does_of_run (f := fun d => d.floatAlu k m (opFloat 2)) rfl (floatAlu_illegal hd hsz)
    · exact does_of_run (f := fun d => d.floatAlu k m (opFloat 3)) rfl (floatAlu_illegal hd hsz)
    · exact does_of_run (f := fun d => d.floatAlu k m opFcmp) rfl (floatAlu_illegal hd hsz)

end operand

/-! The register group -/

section registers
variable {rd rs : BitVec 2} {e : Dev} {b : Arch} {op : Nat → AluOp}

theorem regOp_eq (hd : Begun s k 4 d) (hrd : rd ≠ 3) (hrs : rs ≠ 3) (hop : op rd.toNat d (d.arch k) ((d.arch k).gpr rs.toNat) = (e, b)) :
    s.dev.regOp k rd rs op = Finished s k 4 (e.setArch k b) :=
  instr_next hd (by dsimp only; rw [if_neg (not_or.mpr ⟨hrd, hrs⟩), hop])

theorem regOp_illegal (hd : Begun s k 4 d) (h : rd = 3 ∨ rs = 3) : s.dev.regOp k rd rs op = Trapped s k d 1 0 0 :=
  instr_fault hd (if_pos h) (by decide)

/-- The operations of the register group on RD and RS. -/
def regOps (k : CoreId) (rd rs : BitVec 2) (n : BitVec 6) : List (Instr × (Nat → AluOp)) :=
  [(.mov k rd rs, opMove id), (.neg k rd rs, opNeg), (.not k rd rs, opUnary fun v => ~~~ v), (.shl k rd rs n, opUnary fun v => v <<< n),
    (.shr k rd rs n, opUnary fun v => v >>> n), (.sar k rd rs n, opUnary fun v => v.sshiftRight n.toNat),
    (.rol k rd rs n, opUnary fun v => v.rotateLeft n.toNat), (.sext8 k rd rs, opMove (sext 8)), (.sext16 k rd rs, opMove (sext 16)),
    (.sext32 k rd rs, opMove (sext 32)), (.addRegister k rd rs, opAdd), (.subRegister k rd rs, opSub),
    (.andRegister k rd rs, opLogic (· &&& ·)), (.orRegister k rd rs, opLogic (· ||| ·)), (.xorRegister k rd rs, opLogic (· ^^^ ·)),
    (.fcvt k rd rs, opConvert)]

theorem exec_regOps (k : CoreId) (rd rs : BitVec 2) (n : BitVec 6) (s : State) :
    ∀ p ∈ regOps k rd rs n, exec p.1 s = s.run fun d => d.regOp k rd rs p.2 := by
  simp only [regOps, List.forall_mem_cons, List.not_mem_nil, false_implies, implies_true, and_true]
  refine ⟨rfl, rfl, rfl, rfl, rfl, rfl, rfl, rfl, rfl, rfl, rfl, rfl, rfl, rfl, rfl, rfl⟩

theorem registerGroup : RegisterGroup := by
  intro s k rd rs n d hd
  dsimp only
  refine ⟨fun hrd hrs => ?_, fun hrd hrs => ?_, fun hrd hn => ?_, fun h => ?_, fun h => ?_⟩
  · have hdoes : ∀ p ∈ regOps k rd rs n, Does p.1 s (Finished s k 4
        ((p.2 rd.toNat d (d.arch k) ((d.arch k).gpr rs.toNat)).1.setArch k (p.2 rd.toNat d (d.arch k) ((d.arch k).gpr rs.toNat)).2)) :=
      fun p hp => does_of_run (exec_regOps k rd rs n s p hp) (regOp_eq hd hrd hrs rfl)
    simp only [regOps, List.forall_mem_cons] at hdoes
    simp only [List.forall_mem_cons, List.not_mem_nil, false_implies, implies_true, and_true]
    obtain ⟨hmov, hneg, hnot, hshl, hshr, hsar, hrol, hsext8, hsext16, hsext32, hadd, hsub, hand, hor, hxor, -⟩ := hdoes
    exact ⟨hmov, hneg, hnot, hshl, hshr, hsar, hrol, hsext8, hsext16, hsext32, hadd, hsub, hand, hor, hxor⟩
  · exact ⟨_, _, does_of_run (exec_regOps k rd rs n s (.fcvt k rd rs, opConvert) (by simp [regOps])) (regOp_eq hd hrd hrs rfl)⟩
  · exact does_of_run (f := fun d => d.movcq k rd n) rfl (instr_next hd (if_neg (by simp only [not_or]; exact ⟨hrd, by omega⟩)))
  · have hdoes : ∀ p ∈ regOps k rd rs n, Does p.1 s (Trapped s k d 1 0 0) :=
      fun p hp => does_of_run (exec_regOps k rd rs n s p hp) (regOp_illegal hd h)
    simpa only [regOps, List.forall_mem_cons, List.not_mem_nil, false_implies, implies_true, and_true] using hdoes
  · exact does_of_run (f := fun d => d.movcq k rd n) rfl (instr_fault hd (if_pos h) (by decide))

end registers

/-! The immediate groups -/

section immediates
variable {rd : BitVec 2} {len : Nat} {imm : W64} {e : Dev} {b : Arch} {op : Nat → AluOp}

theorem immOp_eq (hd : Begun s k len d) (hrd : rd ≠ 3) (hop : op rd.toNat d (d.arch k) imm = (e, b)) :
    s.dev.immOp k len rd imm op = Finished s k len (e.setArch k b) :=
  instr_next hd (by dsimp only; rw [if_neg hrd, hop])

theorem immOp_illegal (hd : Begun s k len d) (hrd : rd = 3) : s.dev.immOp k len rd imm op = Trapped s k d 1 0 0 :=
  instr_fault hd (if_pos hrd) (by decide)

/-- The operations with an immediate of 20 bits. -/
def shortOps (k : CoreId) (rd : BitVec 2) (imm : BitVec 20) : List (Instr × (Nat → AluOp)) :=
  [(.ldi k rd imm, opMove id), (.addi k rd imm, opAdd), (.cmpi k rd imm, opCmp), (.andi k rd imm, opLogic (· &&& ·)),
    (.ori k rd imm, opLogic (· ||| ·)), (.xori k rd imm, opLogic (· ^^^ ·))]

/-- The operations with an immediate of 48 bits. -/
def longOps (k : CoreId) (rd : BitVec 2) (imm : BitVec 48) : List (Instr × (Nat → AluOp)) :=
  [(.ldiL k rd imm, opMove id), (.addiL k rd imm, opAdd), (.cmpiL k rd imm, opCmp)]

theorem exec_shortOps (k : CoreId) (rd : BitVec 2) (imm : BitVec 20) (s : State) :
    ∀ p ∈ shortOps k rd imm, exec p.1 s = s.run fun d => d.immOp k 4 rd (imm.signExtend 64) p.2 := by
  simp only [shortOps, List.forall_mem_cons, List.not_mem_nil, false_implies, implies_true, and_true]
  exact ⟨rfl, rfl, rfl, rfl, rfl, rfl⟩

theorem exec_longOps (k : CoreId) (rd : BitVec 2) (imm : BitVec 48) (s : State) :
    ∀ p ∈ longOps k rd imm, exec p.1 s = s.run fun d => d.immOp k 8 rd (imm.signExtend 64) p.2 := by
  simp only [longOps, List.forall_mem_cons, List.not_mem_nil, false_implies, implies_true, and_true]
  exact ⟨rfl, rfl, rfl⟩

theorem immediateGroups : ImmediateGroups := by
  intro s k rd i20 i48 d
  dsimp only
  refine ⟨fun hrd hd => ?_, fun hrd hd => ?_, fun hrd => ⟨fun hd => ?_, fun hd => ?_⟩⟩
  · have hdoes : ∀ p ∈ shortOps k rd i20, Does p.1 s (Finished s k 4
        ((p.2 rd.toNat d (d.arch k) (i20.signExtend 64)).1.setArch k (p.2 rd.toNat d (d.arch k) (i20.signExtend 64)).2)) :=
      fun p hp => does_of_run (exec_shortOps k rd i20 s p hp) (immOp_eq hd hrd rfl)
    simp only [shortOps, List.forall_mem_cons] at hdoes
    simp only [List.forall_mem_cons, List.not_mem_nil, false_implies, implies_true, and_true]
    obtain ⟨hldi, haddi, hcmpi, handi, hori, hxori, -⟩ := hdoes
    exact ⟨hldi, haddi, hcmpi, handi, hori, hxori⟩
  · have hdoes : ∀ p ∈ longOps k rd i48, Does p.1 s (Finished s k 8
        ((p.2 rd.toNat d (d.arch k) (i48.signExtend 64)).1.setArch k (p.2 rd.toNat d (d.arch k) (i48.signExtend 64)).2)) :=
      fun p hp => does_of_run (exec_longOps k rd i48 s p hp) (immOp_eq hd hrd rfl)
    simp only [longOps, List.forall_mem_cons] at hdoes
    simp only [List.forall_mem_cons, List.not_mem_nil, false_implies, implies_true, and_true]
    obtain ⟨hldi, haddi, hcmpi, -⟩ := hdoes
    exact ⟨hldi, haddi, hcmpi⟩
  · have hdoes : ∀ p ∈ shortOps k rd i20, Does p.1 s (Trapped s k d 1 0 0) :=
      fun p hp => does_of_run (exec_shortOps k rd i20 s p hp) (immOp_illegal hd hrd)
    simpa only [shortOps, List.forall_mem_cons, List.not_mem_nil, false_implies, implies_true, and_true] using hdoes
  · have hdoes : ∀ p ∈ longOps k rd i48, Does p.1 s (Trapped s k d 1 0 0) :=
      fun p hp => does_of_run (exec_longOps k rd i48 s p hp) (immOp_illegal hd hrd)
    simpa only [longOps, List.forall_mem_cons, List.not_mem_nil, false_implies, implies_true, and_true] using hdoes

end immediates

/-- Settles O36: every instruction of the groups is one operation, which gives the result and the flags stated. -/
theorem arithmeticAndLogic : Obligations.ArithmeticAndLogic := ⟨operandArithmetic, floatingPoint, registerGroup, immediateGroups⟩

end Sys2Proof.Claims
end

section
/-!
Stacks, branches, calls, block instructions and atomics of the Sahxel cores (15 R332-R344).
-/
namespace Sys2Proof.Machine

variable {d : Dev} {k : Nat} {m : MOperand}

theorem Dev.eaOf_eq {e : Ea} (h : (d.arch k).ea m = some e) : d.eaOf k m = d.ok e := by rw [Dev.eaOf, h]

end Sys2Proof.Machine

namespace Sys2Proof.Claims
open Sys2Proof.Machine

theorem stackAccesses : Stacks := by
  intro s k r n d hd
  dsimp only
  refine ⟨fun e htop hstore => ?_, fun htop => ?_, fun e v hload => ?_, fun hn => ?_, fun hn => ?_, fun e f hslot htag hpoison htarget => ?_,
    fun e hslot htag => ?_⟩
  · refine does_of_run (f := fun d => d.push k r) rfl (instr_next hd ?_)
    dsimp only
    rw [if_neg (Nat.not_lt.mpr htop), Arch.pushed, stMask, hstore, Act.bind_ok]
  · exact does_of_run (f := fun d => d.push k r) rfl (instr_fault hd (if_pos htop) (by decide))
  · refine does_of_run (f := fun d => d.pop k r) rfl (instr_next hd ?_)
    dsimp only
    rw [hload, Act.bind_ok]
  · exact does_of_run (f := fun d => d.dropSlots k n.toNat) rfl (instr_next hd (if_neg fun h => hn (BitVec.eq_of_toNat_eq h)))
  · exact does_of_run (f := fun d => d.dropSlots k n.toNat) rfl (instr_fault hd (if_pos (by rw [hn]; rfl)) (by decide))
  · refine does_of_run (f := fun d => d.ret k) rfl (instr_set hd ?_)
    dsimp only
    rw [hslot, Act.bind_ok, if_neg (by simp [htag]), if_neg (by simp [hpoison]), htarget, Act.bind_ok]
  · refine does_of_run (f := fun d => d.ret k) rfl (instr_fault hd ?_ (by decide))
    dsimp only
    rw [hslot, Act.bind_ok, if_pos htag]

/-! Branches and calls -/

section branches
variable {s : State} {k : CoreId} {d e f : Dev} {m : MOperand} {t : W64}

/-- The condition of a branch from the four flags (Table 15-7). -/
theorem condHolds_eq (c : BitVec 4) (hc : c ≠ 15) (f : Flags) : condHolds c.toNat f = some (match c.toNat with
    | 0 => true | 1 => f.z | 2 => !f.z | 3 => f.c | 4 => !f.c | 5 => f.n | 6 => !f.n | 7 => f.v | 8 => !f.v
    | 9 => !f.c && !f.z | 10 => f.c || f.z | 11 => f.n == f.v | 12 => f.n != f.v | 13 => !f.z && f.n == f.v | _ => f.z || f.n != f.v) := by
  have hlt : c.toNat < 15 := by
    have hne : c.toNat ≠ 15 := fun h => hc (BitVec.eq_of_toNat_eq h)
    have := c.isLt
    omega
  generalize c.toNat = n at hlt
  interval_cases n <;> rfl

theorem jumpTo_eq (h : d.targetOk k t = e.ok ()) : d.jumpTo k t = (e.setArch k ((e.arch k).goto t)).ok .set := by
  rw [Dev.jumpTo, h, Act.bind_ok]

/-- The device in which a call has stored its return address and goes on at `t`. -/
def calledAt (k : Nat) (rsp pc : W64) (e : Dev) (t : W64) : Dev :=
  let f := e.coreStore k (rsp - 16).toNat (bytesLE 16 (pc + 4).toNat) false
  f.setArch k { (f.arch k).goto t with rsp := rsp - 16 }

theorem callTo_eq (hroom : (d.arch k).rspLim.toNat ≤ ((d.arch k).rsp - 16).toNat) (hslot : d.slotOk k ((d.arch k).rsp - 16).toNat true = e.ok ())
    (htarget : e.targetOk k t = f.ok ()) : d.callTo k t = (calledAt k (d.arch k).rsp (d.arch k).pc f t).ok .set := by
  unfold Dev.callTo
  dsimp only
  rw [if_neg (Nat.not_lt.mpr hroom), hslot, Act.bind_ok, htarget, Act.bind_ok]
  rfl

theorem branchesAndCalls : BranchesAndCalls := by
  intro s k c off off26 m d hd
  dsimp only
  refine ⟨fun hc hholds => ?_, fun e hc hholds htarget => ?_, fun hc => ?_, fun ea e hea htarget => ?_, fun e f hroom hslot htarget => ?_,
    fun ea e f hea hroom hslot htarget => ?_, fun hroom => ?_⟩
  · refine does_of_run (f := fun d => d.bcc k c off) rfl (instr_next hd ?_)
    dsimp only
    rw [show condHolds c.toNat (d.arch k).flags = _ from (condHolds_eq c hc _).trans (congrArg some hholds)]
  · refine does_of_run (f := fun d => d.bcc k c off) rfl (instr_set hd ?_)
    dsimp only
    rw [show condHolds c.toNat (d.arch k).flags = _ from (condHolds_eq c hc _).trans (congrArg some hholds)]
    exact jumpTo_eq htarget
  · refine does_of_run (f := fun d => d.bcc k c off) rfl (instr_fault hd ?_ (by decide))
    rw [hc]
    rfl
  · refine does_of_run (f := fun d => d.jmp k m) rfl (instr_set hd ?_)
    dsimp only
    rw [Dev.eaOf_eq hea, Act.bind_ok, jumpTo_eq htarget, Act.bind_ok]
  · exact does_of_run (f := fun d => d.call k off26) rfl (instr_set hd (callTo_eq hroom hslot htarget))
  · refine does_of_run (f := fun d => d.calli k m) rfl (instr_set hd ?_)
    dsimp only
    rw [Dev.eaOf_eq hea, Act.bind_ok, callTo_eq hroom hslot htarget, Act.bind_ok]
    rfl
  · refine does_of_run (f := fun d => d.call k off26) rfl (instr_fault hd ?_ (by decide))
    exact if_pos (Nat.lt_of_not_le hroom)

end branches

/-! Block instructions -/

section blocks
variable {s : State} {k : CoreId} {sz : BitVec 2} {n : Nat} {d e : Dev} {two last : Bool} {empty : Arch → Arch} {elem : Nat → Dev → Act Bool}

theorem block_empty (hd : Begun s k 4 d) (ha : (d.arch k).a = 0) :
    s.dev.block k sz n two empty elem = Finished s k 4 (d.setArch k (empty (d.arch k))) := instr_next hd (if_pos ha)

theorem block_misaligned (hd : Begun s k 4 d) (ha : (d.arch k).a ≠ 0) (hx : (d.arch k).x.toNat % szBytes sz ≠ 0) :
    s.dev.block k sz n two empty elem = Trapped s k d 2 0 (d.arch k).x.toNat := by
  refine instr_fault hd ?_ (by decide)
  dsimp only
  rw [if_neg ha, if_pos hx]

/-- Of one element: the instruction ends with it if it is the last, and else stands for the rest. -/
theorem block_one (hd : Begun s k 4 d) (ha : (d.arch k).a ≠ 0) (hx : (d.arch k).x.toNat % szBytes sz = 0)
    (hy : two = true → (d.arch k).y.toNat % szBytes sz = 0) (helem : elem (szBytes sz) d = e.ok last) :
    s.dev.block k sz 1 two empty elem =
      if last then Finished s k 4 e else ((e.commitDone k).commitDone k).stepEnd k 1 := by
  have hbody : (if (d.arch k).a = 0 then (d.setArch k (empty (d.arch k))).ok .next
      else if (d.arch k).x.toNat % szBytes sz ≠ 0 then d.fault 2 0 (d.arch k).x.toNat
      else if two && (d.arch k).y.toNat % szBytes sz != 0 then d.fault 2 0 (d.arch k).y.toNat
      else Dev.blockLoop k (elem (szBytes sz)) (if d.stepping k then Nat.min 1 1 else 1) d) =
        if last then e.ok .next else (e.commitDone k).ok .stay := by
    have hboth : (two && (d.arch k).y.toNat % szBytes sz != 0) = false := by
      cases two with
      | false => rfl
      | true => simp [hy rfl]
    rw [if_neg ha, if_neg (not_not.mpr hx), hboth, if_neg Bool.false_ne_true, show (if d.stepping k then Nat.min 1 1 else 1) = 0 + 1 from ite_self _,
      Dev.blockLoop, helem, Act.bind_ok]
    rfl
  cases last with
  | true => exact instr_next hd (hbody.trans (if_pos rfl))
  | false => exact instr_stay hd (hbody.trans (if_neg Bool.false_ne_true))

/-- The last element of a block instruction ends it. -/
theorem block_last (hd : Begun s k 4 d) (ha : (d.arch k).a ≠ 0) (hx : (d.arch k).x.toNat % szBytes sz = 0)
    (hy : two = true → (d.arch k).y.toNat % szBytes sz = 0) (helem : elem (szBytes sz) d = e.ok true) :
    s.dev.block k sz 1 two empty elem = Finished s k 4 e := (block_one hd ha hx hy helem).trans (if_pos rfl)

theorem blockInstructions : BlockInstructions := by
  intro s k sz n d hd
  dsimp only
  refine ⟨fun ha => ⟨?_, ?_, ?_, ?_⟩, fun e f v p ha hboth hload hstore => ?_, fun e ha hx hstore => ?_, fun e v ha hx hload => ?_, fun ha hx => ?_⟩
  · exact does_of_run (f := fun d => d.block k sz n true id (Dev.moveElem k false)) rfl (block_empty hd ha)
  · exact does_of_run (f := fun d => d.block k sz n true id (Dev.moveElem k true)) rfl (block_empty hd ha)
  · exact does_of_run (f := fun d => d.block k sz n false id (Dev.fillElem k)) rfl (block_empty hd ha)
  · exact does_of_run (f := fun d => d.block k sz n false (fun a => a.setFlag 1 false) (Dev.findElem k)) rfl (block_empty hd ha)
  · obtain ⟨hx, hy⟩ := hboth
    constructor
    · refine does_of_run (f := fun d => d.block k sz 1 true id (Dev.moveElem k false)) rfl (block_one hd ha hx (fun _ => hy) ?_)
      dsimp only [Dev.moveElem]
      rw [hload, Act.bind_ok, hstore, Act.bind_ok]
      rfl
    · refine does_of_run (f := fun d => d.block k sz 1 true id (Dev.moveElem k true)) rfl (block_one hd ha hx (fun _ => hy) ?_)
      dsimp only [Dev.moveElem]
      rw [hload, Act.bind_ok, hstore, Act.bind_ok]
      rfl
  · refine does_of_run (f := fun d => d.block k sz 1 false id (Dev.fillElem k)) rfl (block_one hd ha hx (fun h => by cases h) ?_)
    dsimp only [Dev.fillElem]
    rw [hstore, Act.bind_ok]
  · by_cases hv : v = (d.arch k).y.toNat % 2 ^ (8 * szBytes sz)
    · rw [if_pos hv]
      refine does_of_run (f := fun d => d.block k sz 1 false (fun a => a.setFlag 1 false) (Dev.findElem k)) rfl
        (block_last hd ha hx (fun h => by cases h) ?_)
      dsimp only [Dev.findElem]
      rw [hload, Act.bind_ok]
      exact if_pos hv
    · rw [if_neg hv]
      refine does_of_run (f := fun d => d.block k sz 1 false (fun a => a.setFlag 1 false) (Dev.findElem k)) rfl
        (block_one hd ha hx (fun h => by cases h) ?_)
      dsimp only [Dev.findElem]
      rw [hload, Act.bind_ok]
      exact if_neg hv
  · simp only [List.forall_mem_cons, List.not_mem_nil, false_implies, implies_true, and_true]
    refine ⟨?_, ?_, ?_, ?_⟩
    · exact does_of_run (f := fun d => d.block k sz n true id (Dev.moveElem k false)) rfl (block_misaligned hd ha hx)
    · exact does_of_run (f := fun d => d.block k sz n true id (Dev.moveElem k true)) rfl (block_misaligned hd ha hx)
    · exact does_of_run (f := fun d => d.block k sz n false id (Dev.fillElem k)) rfl (block_misaligned hd ha hx)
    · exact does_of_run (f := fun d => d.block k sz n false (fun a => a.setFlag 1 false) (Dev.findElem k)) rfl (block_misaligned hd ha hx)

end blocks

/-! Atomics -/

section atomics
variable {k : CoreId} {m : MOperand} {d : Dev} {ok : Bool}

/-- An atomic takes no mode that updates a register. -/
theorem atomicAt_illegal (h : m.mode = 5 ∨ m.mode = 6 ∨ m.mode = 7) : d.atomicAt k m ok = d.fault 1 0 0 := by
  rw [Dev.atomicAt, if_pos (by rcases h with h | h | h <;> simp [h])]
  rfl

theorem atomics : Atomics := by
  intro s k m d e pa va hd
  dsimp only
  refine ⟨fun f l hat hget => ?_, fun f l hat hget => ?_, fun hat => ⟨fun hheld => ?_, fun hheld => ?_⟩, fun hmode => ?_⟩
  · refine does_of_run (f := fun d => d.tas k m) rfl (instr_next hd ?_)
    dsimp only
    rw [hat, Act.bind_ok]
    dsimp only
    rw [hget]
    rfl
  · refine does_of_run (f := fun d => d.loadReserved k m) rfl (instr_next hd ?_)
    dsimp only
    rw [show d.atomicAt k m (lrSize m) = _ from hat, Act.bind_ok]
    dsimp only
    rw [hget]
    rfl
  · refine does_of_run (f := fun d => d.storeConditional k m) rfl (instr_next hd ?_)
    dsimp only
    rw [show d.atomicAt k m (lrSize m) = _ from hat, Act.bind_ok]
    dsimp only
    rw [beq_iff_eq.mpr hheld]
    rfl
  · refine does_of_run (f := fun d => d.storeConditional k m) rfl (instr_next hd ?_)
    dsimp only
    rw [show d.atomicAt k m (lrSize m) = _ from hat, Act.bind_ok]
    dsimp only
    rw [beq_eq_false_iff_ne.mpr hheld]
    rfl
  · have hfault {body : Dev → Nat × Nat → Act Flow} (ok : Bool) : (d.atomicAt k m ok).bind body = d.fault 1 0 0 := by
      rw [atomicAt_illegal hmode, Act.bind_fault]
    simp only [List.forall_mem_cons, List.not_mem_nil, false_implies, implies_true, and_true]
    refine ⟨?_, ?_, ?_⟩
    · exact does_of_run (f := fun d => d.tas k m) rfl (instr_fault hd (hfault _) (by decide))
    · exact does_of_run (f := fun d => d.loadReserved k m) rfl (instr_fault hd (hfault _) (by decide))
    · exact does_of_run (f := fun d => d.storeConditional k m) rfl (instr_fault hd (hfault _) (by decide))

end atomics

/-- Settles O37: each instruction's parts, in the order in which they can fault, and what stands in the registers after them. -/
theorem controlFlow : Obligations.ControlFlow := ⟨stackAccesses, branchesAndCalls, blockInstructions, atomics⟩

end Sys2Proof.Claims
end

section
/-!
Single bits of a word and the fields of one page: what a write to one field leaves of another.
-/
namespace Sys2Proof.Machine

/-! Bits -/

theorem bitAt_eq_bitsOf {n : Nat} (v : BitVec n) (i : Nat) : bitAt v i = (bitsOf v i 1 != 0) := by
  rw [bitAt, bitsOf, BitVec.getLsbD, Nat.testBit_eq_decide_div_mod_eq, Nat.shiftRight_eq_div_pow, pow_one]
  rcases Nat.mod_two_eq_zero_or_one (v.toNat / 2 ^ i) with h | h <;> simp [h]

theorem bitAt_putBits_same {n : Nat} (v : BitVec n) {i : Nat} (b : Bool) (hi : i < n) : bitAt (putBits v i 1 (b2n b)) i = b := by
  rw [bitAt_eq_bitsOf, bitsOf_putBits_same v i 1 _ hi]
  cases b <;> rfl

theorem bitsOf_lt {n : Nat} (v : BitVec n) (lsb w : Nat) : bitsOf v lsb w < 2 ^ w := Nat.mod_lt _ (Nat.two_pow_pos w)

variable (d : Dev) {p o i : Nat}

/-- A field of one bit is that bit of its register. -/
theorem Dev.on_bit : d.on p ⟨o, i, 1⟩ = bitAt (d.reg (p + o)) i := (bitAt_eq_bitsOf _ _).symm

theorem Dev.bitAt_setF_same (b : Bool) (hi : i < 32) : bitAt ((d.setF p ⟨o, i, 1⟩ (b2n b)).reg (p + o)) i = b := by
  rw [d.reg_setF_same p ⟨o, i, 1⟩]
  exact bitAt_putBits_same _ b hi

theorem Dev.bitAt_irq (hi : i < 32) : bitAt ((d.irq p i).reg (p + 0x24)) i = true := d.bitAt_setF_same true hi

/-! Fields of one page -/

/-- Two fields of a page share no bit. -/
def Fld.apart (f g : Fld) : Bool := f.ofs != g.ofs || decide (g.lsb + g.width ≤ f.lsb) || decide (f.lsb + f.width ≤ g.lsb)

theorem Dev.f_setF_apart {f g : Fld} (x : Nat) (h : f.apart g = true) : (d.setF p f x).f p g = d.f p g := by
  rw [Fld.apart, Bool.or_eq_true, Bool.or_eq_true, bne_iff_ne, decide_eq_true_eq, decide_eq_true_eq] at h
  by_cases ho : f.ofs = g.ofs
  · exact d.f_setF_beside p f g x ho (by omega)
  · exact d.f_setF_ne p p f g x (by omega)

theorem Dev.on_setF_apart {f g : Fld} (x : Nat) (h : f.apart g = true) : (d.setF p f x).on p g = d.on p g := by
  rw [Dev.on, d.f_setF_apart x h, Dev.on]

theorem Dev.reg_setF_apart {f : Fld} (x : Nat) (h : f.ofs ≠ o) : (d.setF p f x).reg (p + o) = d.reg (p + o) := d.reg_setF_ne p f x (by omega)

theorem Dev.f_setReg_apart {g : Fld} (v : W32) (h : o ≠ g.ofs) : (d.setReg (p + o) v).f p g = d.f p g := by
  rw [Dev.f, d.reg_setReg_ne v (by omega), Dev.f]

theorem Dev.bitAt_setF_apart {f : Fld} (x : Nat) (h : f.apart ⟨o, i, 1⟩ = true) : bitAt ((d.setF p f x).reg (p + o)) i = bitAt (d.reg (p + o)) i := by
  rw [← Dev.on_bit, d.on_setF_apart x h, Dev.on_bit]

/-! Registers of 64 bits -/

theorem Dev.r64_lt : d.r64 p o < 2 ^ 64 := by
  rw [Dev.r64]
  have hlow := (d.reg (p + o)).isLt
  have hhigh := (d.reg (p + o + 4)).isLt
  omega

theorem Dev.r64_setR64_same (v : Nat) : (d.setR64 p o v).r64 p o = v % 2 ^ 64 := by
  rw [Dev.r64, Dev.setR64, Dev.reg_setReg_same, Dev.reg_setReg_ne _ _ (by omega), Dev.reg_setReg_same, BitVec.toNat_ofNat, BitVec.toNat_ofNat]
  omega

theorem Dev.r64_setF_apart {f : Fld} (x : Nat) (h : (f.ofs != o && f.ofs != o + 4) = true) : (d.setF p f x).r64 p o = d.r64 p o := by
  rw [Bool.and_eq_true, bne_iff_ne, bne_iff_ne] at h
  rw [Dev.r64, d.reg_setF_ne p f x (by omega), d.reg_setF_ne p f x (by omega), Dev.r64]

theorem Dev.f_setR64_apart {g : Fld} (v : Nat) (h : (g.ofs != o && g.ofs != o + 4) = true) : (d.setR64 p o v).f p g = d.f p g := by
  rw [Bool.and_eq_true, bne_iff_ne, bne_iff_ne] at h
  rw [Dev.setR64, Dev.f, Dev.reg_setReg_ne _ _ (by omega), Dev.reg_setReg_ne _ _ (by omega), Dev.f]

end Sys2Proof.Machine
end

section
/-!
Barriers, doors, traps and returns of the Sahxel cores (16 R364, 17 R381-R392).
-/
namespace Sys2Proof.Machine

theorem Dev.capCheckAt_ok {d : Dev} {c : Capability} {reg va len : Nat} {n : Need} (h : c.check n va len = none) :
    d.capCheckAt c reg n va len = d.ok () := by rw [Dev.capCheckAt, h]

end Sys2Proof.Machine

namespace Sys2Proof.Claims
open Sys2Proof.Machine

variable {s : State} {k : CoreId} {d e : Dev} {n : BitVec 4} {remote : Bool}

/-- An instruction that enters an exception retires behind the interrupted state. -/
theorem instr_entered {k len : Nat} {body : Dev → Act Flow} (hd : Begun s k len d) (he : body d = e.ok .entered) :
    s.dev.instr k len body = ((e.setCore k (e.core k).retired).commitDone k).stepEnd k 2 := by
  obtain ⟨hready, hfetch⟩ := hd
  simp only [Dev.instr, hready, hfetch, Act.bind_ok, he, Bool.not_true, Bool.false_eq_true, if_false]
  rfl

/-- A DOOR of the row that its attribute selects runs as an instruction, unless an arithmetic exception is pending. -/
theorem door_eq (hcalm : (s.dev.arch k).arithPend = false) (hattr : (s.dev.arch k).doorAttr.getLsbD n.toNat = remote) {f : Dev}
    (h : s.dev.instr k 4 (fun d =>
      let a := d.arch k
      let code : Capability := Table.get {} a.doors (2 * n.toNat)
      let data : Capability := Table.get {} a.doors (2 * n.toNat + 1)
      if remote && k.val == 4 then d.fault 0x0B 5 0
      else if !doorUsable code data then d.fault 0x0B 1 0
      else if remote then d.remoteDoor k code
      else d.doorEnter k code data) = f) : s.dev.door k n.toNat remote = f :=
  (if_neg (by simp [hcalm, hattr])).trans h

theorem doorsTrapsAndReturns : DoorsTrapsAndReturns := by
  intro s k n d hd
  dsimp only
  refine ⟨?_, fun e pa hcheck htrans => ?_, fun hcalm hattr husable hdepth => ?_, fun hcalm hattr husable => ?_,
    fun hcalm hattr hk husable hstep => ?_, fun p c r hcalm hlinks hlow hhigh => ?_, fun hcalm hdepth => ?_, fun v hcalm => ?_,
    fun hcalm hrte => ?_, fun f hcalm hrte => ?_⟩
  · simp only [List.forall_mem_cons, List.not_mem_nil, false_implies, implies_true, and_true]
    refine ⟨?_, ?_, ?_⟩
    all_goals exact does_of_run (f := fun d => d.barrier k) rfl (instr_next hd rfl)
  · refine does_of_run (f := fun d => d.icinv k) rfl (instr_next hd ?_)
    dsimp only
    rw [Dev.capCheckAt_ok hcheck, Act.bind_ok, htrans, Act.bind_ok]
  · refine does_of_run (f := fun d => d.door k n.toNat false) rfl (door_eq hcalm hattr (instr_set hd ?_))
    dsimp only
    rw [Bool.false_and, if_neg Bool.false_ne_true, husable, if_neg (by decide), if_neg Bool.false_ne_true]
    exact if_pos hdepth
  · refine does_of_run (f := fun d => d.door k n.toNat false) rfl (door_eq hcalm hattr (instr_fault hd ?_ (by decide)))
    dsimp only
    rw [Bool.false_and, if_neg Bool.false_ne_true, husable, if_pos (by decide)]
  · refine does_of_run (f := fun d => d.door k n.toNat true) rfl (door_eq hcalm hattr (instr_stay hd ?_))
    dsimp only
    rw [Bool.true_and, beq_eq_false_iff_ne.mpr hk, if_neg Bool.false_ne_true, husable, if_neg (by decide), if_pos rfl, Dev.remoteDoor,
      d.notInStep_ok hstep, Act.bind_ok]
    dsimp only [Dev.arch, Dev.core, Dev.tick]
  · refine does_of_run (f := fun d => d.doorOut k) rfl ((if_neg (by simp [hcalm])).trans (instr_set hd ?_))
    dsimp only
    rw [if_neg (by omega), if_pos hhigh, hlinks]
  · refine does_of_run (f := fun d => d.doorOut k) rfl ((if_neg (by simp [hcalm])).trans (instr_fault hd ?_ (by decide)))
    dsimp only
    rw [if_pos (by rw [hdepth]; rfl)]
  · refine does_of_run (f := fun d => d.trap k v.toNat) rfl ((if_neg (by simp [hcalm])).trans (instr_entered hd ?_))
    dsimp only
    rw [show causeWord 0x0D v.toNat 0 = BitVec.ofNat 64 (0x0D + v.toNat * 256) from congrArg (BitVec.ofNat 64) (by omega)]
  · refine does_of_run (f := fun d => d.rte k) rfl ((if_neg (by simp [hcalm])).trans (instr_set hd ?_))
    dsimp only
    rw [hrte]
  · refine does_of_run (f := fun d => d.rte k) rfl ((if_neg (by simp [hcalm])).trans (instr_fault hd ?_ (by decide)))
    dsimp only
    rw [hrte]

end Sys2Proof.Claims

namespace Sys2Proof.Machine

/-! The end of a remote DOOR -/

variable {d : Dev} {j : Nat} {v : W64} {z : Bool}

/-- A DOOR that completes takes A and Z and moves past itself (17 R384). -/
theorem Dev.doorComplete_core : (d.doorComplete j v z).core j =
    { d.core j with arch := ({ (d.core j).arch with a := v }.setFlag 1 z).goto ((d.core j).arch.pc + 4), doorWait := none }.retired :=
  Dev.core_setCore_same _ _ _

theorem Dev.doorComplete_waits : ((d.doorComplete j v z).core j).doorWait = none := by
  rw [Dev.doorComplete_core]
  rfl

theorem Dev.doorComplete_arch : (d.doorComplete j v z).arch j = ({ d.arch j with a := v }.setFlag 1 z).goto ((d.arch j).pc + 4) := by
  rw [Dev.arch, Dev.doorComplete_core]
  rfl

/-- The device whose request of pair `j` is answered. -/
def Dev.answered (d : Dev) (j : Nat) : Dev :=
  let q : DoorReq := Table.get {} d.dreqs j
  { d with dreqs := Table.put {} d.dreqs j { q with type := putBits q.type 31 1 0, taken := false } }

/-- A reply in time to a pair that does not recover completes its DOOR (17 R385). -/
theorem Dev.dreqReply_waiting (hvalid : bitAt (Table.get ({} : DoorReq) d.dreqs j).type 31 = true)
    (hidle : d.on (pgIntc j) F.LS_STAT_RECOVERING = false) (hwait : (d.core j).doorWait.isSome = true) :
    d.dreqReply j v = (d.answered j).doorComplete j v true := by
  have hidle : (d.answered j).on (pgIntc j) F.LS_STAT_RECOVERING = false := hidle
  have hwait : ((d.answered j).core j).doorWait.isSome = true := hwait
  exact (if_pos hvalid).trans ((if_neg (Bool.eq_false_iff.mp hidle)).trans (if_pos hwait))

end Sys2Proof.Machine

namespace Sys2Proof.Claims
open Sys2Proof.Machine

theorem getLsbD_setFlag (a : Arch) (z : Bool) {i : Nat} (hi : i < 64) : (a.setFlag i z).st.getLsbD i = z := bitAt_putBits_same a.st z hi

/-- The VALID bit of a door request that is withdrawn or answered. -/
theorem valid_cleared (v : W64) : bitAt (putBits v 31 1 0) 31 = false := bitAt_putBits_same v false (by decide)

theorem remoteDoorsEnd : RemoteDoorsEnd := by
  intro s
  refine ⟨fun k t hclock hruns hwait hdue => ?_, fun rs j d hd hrs hsysreg hvalid hidle hwait => ?_⟩
  · have hexec : exec (.remoteDoorTimeout k) s = s.run fun d => d.doorTimeout k := by
      rw [show exec (.remoteDoorTimeout k) s = s.clocked fun d => d.doorTimeout k from rfl, s.clocked_eq _ hclock, s.run_eq]
    refine ⟨_, does_of_run hexec rfl, ?_⟩
    rw [Dev.doorTimeout, hwait]
    dsimp only
    rw [if_neg (by simp [hruns, hdue])]
    refine ⟨?_, Dev.doorComplete_waits, ?_, ?_, ?_, rfl⟩
    · exact (congrArg (fun q : DoorReq => bitAt q.type 31) (Table.get_put_same _ _ _ _)).trans (valid_cleared _)
    · rw [Dev.doorComplete_arch]
      rfl
    · rw [Dev.doorComplete_arch]
      exact getLsbD_setFlag _ _ (by decide)
    · rw [Dev.doorComplete_arch]
      rfl
  · have hreply : d.sysWrite 4 (0xE4 + 8 * j.val) ((d.arch 4).gpr rs.toNat) = .ok (d.dreqReply j ((d.arch 4).gpr rs.toNat)) := by
      fin_cases j <;> rfl
    have hrep : isRep 4 (0xE4 + 8 * j.val) = true := by fin_cases j <;> rfl
    have hallowed : d.sysAllowed 4 (0xE4 + 8 * j.val) true = d.ok () := by
      have hsys : (decide (6 ≤ 0xE4 + 8 * j.val) || (true && (0xE4 + 8 * j.val == 3 || 0xE4 + 8 * j.val == 4))) = true := by
        rw [decide_eq_true (by omega), Bool.true_or]
      rw [Dev.sysAllowed, hsys, if_pos rfl, d.needPcc_ok hsysreg, Act.bind_ok, if_neg (by omega)]
    refine ⟨d.dreqReply j ((d.arch 4).gpr rs.toNat), ?_, ?_⟩
    · refine does_of_run (f := fun d => d.mts 4 rs (0xE4 + 8 * j.val)) rfl (instr_next hd ?_)
      rw [if_neg hrs, hallowed, Act.bind_ok, hreply, hrep]
      rfl
    · rw [Dev.dreqReply_waiting hvalid hidle hwait]
      refine ⟨?_, Dev.doorComplete_waits, ?_, ?_, ?_, rfl, rfl⟩
      · exact (congrArg (fun q : DoorReq => bitAt q.type 31) (Table.get_put_same _ _ _ _)).trans (valid_cleared _)
      · rw [Dev.doorComplete_arch]
        rfl
      · rw [Dev.doorComplete_arch]
        exact getLsbD_setFlag _ _ (by decide)
      · rw [Dev.doorComplete_arch]
        rfl

/-- Settles O38: each command is its parts in order, and what a door that completes leaves. -/
theorem doorsAndTraps : Obligations.DoorsAndTraps := ⟨doorsTrapsAndReturns, remoteDoorsEnd⟩

end Sys2Proof.Claims
end

section
/-!
The capability group, capabilities in memory and the moves of system registers (17 R371-R378, 15 R327, 18 R396).
-/
namespace Sys2Proof.Machine

theorem Capability.ofBits_bits (c : Capability) : Capability.ofBits c.bits c.tag = c := by
  obtain ⟨addr, perms, otype, sealing, xp, bm, lm, tag⟩ := c
  have h1 := addr.isLt
  have h2 := perms.isLt
  have h3 := otype.isLt
  have h4 := sealing.isLt
  have h5 := xp.isLt
  have h6 := bm.isLt
  have h7 := lm.isLt
  simp only [Capability.ofBits, Capability.bits, Capability.mk.injEq, and_true]
  refine ⟨?_, ?_, ?_, ?_, ?_, ?_, ?_⟩ <;> (apply BitVec.eq_of_toNat_eq; rw [BitVec.toNat_ofNat]; omega)

end Sys2Proof.Machine

namespace Sys2Proof.Claims
open Sys2Proof.Machine

variable {s : State} {k : CoreId} {o : KOperand} {d : Dev}

theorem kmake_eq (hd : Begun s k 4 d) (f : Arch → Capability → Capability) :
    s.dev.kmake k o f = Finished s k 4 (d.setArch k ((d.arch k).setCap o.cd.toNat (f (d.arch k) ((d.arch k).cap o.cs.toNat)))) := instr_next hd rfl

theorem kseal_ok {r : Arch → Except (Nat × Bool) Capability} {c : Capability} (hd : Begun s k 4 d) (h : r (d.arch k) = .ok c) :
    s.dev.kseal k o r = Finished s k 4 (d.setArch k ((d.arch k).setCap o.cd.toNat c)) := by
  refine instr_next hd ?_
  dsimp only
  rw [h]

theorem kseal_error {r : Arch → Except (Nat × Bool) Capability} {kind : Nat} {onCt : Bool} (hd : Begun s k 4 d)
    (h : r (d.arch k) = .error (kind, onCt)) :
    s.dev.kseal k o r = Trapped s k d 9 (kind + 16 * (if onCt then o.ct.toNat else o.cs.toNat)) 0 := by
  refine instr_fault hd ?_ (by decide)
  dsimp only
  rw [h]

theorem capabilityInstructions : CapabilityInstructions := by
  intro s k o d hd
  dsimp only
  refine ⟨fun p hp hsel => ?_, fun hsel => ?_, ?_, ?_, ?_, ?_, ?_, ?_, ?_, fun e f pa hcheck htrans => ?_, fun c hc => ?_, fun c hc => ?_,
    fun kind onCt h => ?_, fun kind onCt h => ?_⟩
  · have hfield : ((d.arch k).cap o.cs.toNat).field o.sel.toNat = some p.2 := by
      rw [hsel]
      simp only [List.mem_cons, List.not_mem_nil, or_false] at hp
      rcases hp with rfl | rfl | rfl | rfl | rfl | rfl | rfl | rfl
      case inr.inr.inr.inr.inr.inr.inl => cases h : ((d.arch k).cap o.cs.toNat).tag <;> simp [Capability.field, h, b2n]
      all_goals rfl
    refine does_of_run (f := fun d => d.krd k o) rfl (instr_next hd ?_)
    dsimp only
    rw [hfield]
  · have hfield : ((d.arch k).cap o.cs.toNat).field o.sel.toNat = none := by
      have hlt := o.sel.isLt
      revert hsel hlt
      generalize o.sel.toNat = n
      intro hsel hlt
      interval_cases n <;> rfl
    refine does_of_run (f := fun d => d.krd k o) rfl (instr_fault hd ?_ (by decide))
    dsimp only
    rw [hfield]
    rfl
  · exact does_of_run (f := fun d => d.kmake k o fun a c => c.setAddr a.a) rfl (kmake_eq hd _)
  · exact does_of_run (f := fun d => d.kmake k o fun a c => c.setAddr (c.addr + a.a)) rfl (kmake_eq hd _)
  · exact does_of_run (f := fun d => d.kmake k o fun a c => c.bound a.a.toNat) rfl (kmake_eq hd _)
  · exact does_of_run (f := fun d => d.kmake k o fun a c => c.reduce (a.a.setWidth 16)) rfl (kmake_eq hd _)
  · exact does_of_run (f := fun d => d.kmake k o fun _ c => c) rfl (kmake_eq hd _)
  · exact does_of_run (f := fun d => d.kmake k o fun a _ => a.pcc) rfl (kmake_eq hd _)
  · exact does_of_run (f := fun d => d.kddc k o) rfl (instr_next hd rfl)
  · refine does_of_run (f := fun d => d.kjmp k o) rfl (instr_set hd ?_)
    dsimp only
    rw [hcheck, Act.bind_ok, htrans, Act.bind_ok]
  · exact does_of_run (f := fun d => d.klock k o) rfl (kseal_ok hd hc)
  · exact does_of_run (f := fun d => d.kopen k o) rfl (kseal_ok hd hc)
  · exact does_of_run (f := fun d => d.klock k o) rfl (kseal_error hd h)
  · exact does_of_run (f := fun d => d.kopen k o) rfl (kseal_error hd h)

theorem capabilitiesInMemory : CapabilitiesInMemory := by
  intro s k o d hd
  dsimp only
  refine ⟨fun e f pa l haccess hdevice hcause hget => ?_, fun e pa halign hlacks haccess hdevice hcause => ?_, fun htag hcheck hperm halign => ?_⟩
  · refine does_of_run (f := fun d => d.kld k o) rfl (instr_next hd ?_)
    dsimp only
    rw [haccess, Act.bind_ok, if_neg (by simp [hdevice]), hcause]
    dsimp only
    rw [hget]
    rfl
  · refine does_of_run (f := fun d => d.kst k o) rfl (instr_next hd ?_)
    dsimp only
    rw [Dev.require, if_pos (beq_iff_eq.mpr halign), Act.bind_ok, if_neg (by simp [hlacks]), haccess, Act.bind_ok, if_neg (by simp [hdevice]), hcause]
    rfl
  · refine does_of_run (f := fun d => d.kst k o) rfl (instr_fault hd ?_ (by decide))
    dsimp only
    have hlacks : lacksStoreCap ((d.arch k).kaddr o).2.1 ((d.arch k).cap o.cd.toNat).tag ((d.arch k).kaddr o).1.toNat = true := by
      rw [lacksStoreCap, htag, hperm, hcheck]
      rfl
    rw [Dev.require, if_pos (beq_iff_eq.mpr halign), Act.bind_ok, if_pos hlacks]

/-- Settles O41: a register of capabilities takes what the operation makes; a capability is its 128 bits and its tag. -/
theorem capabilityGroup : Obligations.CapabilityGroup := ⟨capabilityInstructions, capabilitiesInMemory, Capability.ofBits_bits⟩

/-! System registers -/

section registers
variable {r : Nat} {write : Bool}

/-- PCC permits a move of system register `r`. -/
def MayMove (a : Arch) (r : Nat) (write : Bool) : Prop :=
  (6 ≤ r ∨ (write = true ∧ (r = 3 ∨ r = 4)) → a.pcc.has permSysreg = true) ∧ (0x18 ≤ r → r < 0x30 → a.pcc.has permTlb = true)

theorem sysAllowed_ok (h : MayMove (d.arch k) r write) : d.sysAllowed k r write = d.ok () := by
  obtain ⟨hsys, htlb⟩ := h
  have hfirst : (if (decide (6 ≤ r) || (write && (r == 3 || r == 4))) = true then d.needPcc k permSysreg else d.ok ()) = d.ok () := by
    split
    · next hneeds => exact d.needPcc_ok (hsys (by simpa using hneeds))
    · rfl
  rw [Dev.sysAllowed]
  rw [hfirst, Act.bind_ok]
  split
  · next hneeds => exact d.needPcc_ok (htlb hneeds.1 hneeds.2)
  · rfl

theorem sysAllowed_refused (hr : 6 ≤ r) (h : (d.arch k).pcc.has permSysreg = false) : d.sysAllowed k r write = d.fault 9 (3 + 16 * 16) 0 := by
  have hneeds : (decide (6 ≤ r) || (write && (r == 3 || r == 4))) = true := by rw [decide_eq_true hr, Bool.true_or]
  rw [Dev.sysAllowed]
  rw [if_pos hneeds, d.needPcc_fault h, Act.bind_fault]

end registers

theorem systemRegisterMoves : SystemRegisterMoves := by
  intro s k rd r o d hd
  dsimp only
  refine ⟨fun v hrd hmay hread => ?_, fun e hrd hmay hrep hwrite => ?_, fun code hcode hrd hmay hwrite => ?_, fun hrd hmay hread => ?_,
    fun hrd hr hperm => ⟨?_, ?_⟩, fun hmay hcap => ?_, fun hmay hcap => ?_⟩
  · refine does_of_run (f := fun d => d.mfs k rd r.toNat) rfl (instr_next hd ?_)
    rw [if_neg hrd, sysAllowed_ok hmay, Act.bind_ok, hread]
  · refine does_of_run (f := fun d => d.mts k rd r.toNat) rfl (instr_next hd ?_)
    rw [if_neg hrd, sysAllowed_ok hmay, Act.bind_ok, hwrite, hrep]
    rfl
  · refine does_of_run (f := fun d => d.mts k rd r.toNat) rfl (instr_fault hd ?_ hcode)
    rw [if_neg hrd, sysAllowed_ok hmay, Act.bind_ok, hwrite]
  · refine does_of_run (f := fun d => d.mfs k rd r.toNat) rfl (instr_fault hd ?_ (by decide))
    rw [if_neg hrd, sysAllowed_ok hmay, Act.bind_ok, hread]
    rfl
  · refine does_of_run (f := fun d => d.mfs k rd r.toNat) rfl (instr_fault hd ?_ (by decide))
    rw [if_neg hrd, sysAllowed_refused hr hperm, Act.bind_fault]
  · refine does_of_run (f := fun d => d.mts k rd r.toNat) rfl (instr_fault hd ?_ (by decide))
    rw [if_neg hrd, sysAllowed_refused hr hperm, Act.bind_fault]
  · refine does_of_run (f := fun d => d.kmfs k o) rfl (instr_next hd ?_)
    dsimp only
    rw [sysAllowed_ok hmay, Act.bind_ok, if_pos hcap]
  · refine does_of_run (f := fun d => d.kmts k o) rfl (instr_next hd ?_)
    dsimp only
    rw [sysAllowed_ok hmay, Act.bind_ok, if_pos hcap]

theorem rspOk_iff (v : W64) : rspOk v = true ↔ v.toNat % 16 = 0 ∧ 0x10000000 ≤ v.toNat ∧ v.toNat < 0x12000000 := by
  simp [rspOk, wordPoison]

/-- A stack pointer that is not aligned, or not in Core SRAM, is refused. -/
theorem sysWrite_stack_refused (d : Dev) (k : CoreId) {v : W64} (h : v.toNat % 16 ≠ 0 ∨ v.toNat < 0x10000000 ∨ 0x12000000 ≤ v.toNat) :
    ∀ r ∈ [3, 4], d.sysWrite k r v = .error 2 := by
  have hbad : ¬ rspOk v = true := by
    rw [rspOk_iff]
    omega
  simp only [List.forall_mem_cons, List.not_mem_nil, false_implies, implies_true, and_true]
  exact ⟨if_neg hbad, if_neg hbad⟩

theorem systemRegisters : SystemRegisters := by
  intro d k v
  dsimp only
  refine ⟨⟨rfl, rfl, rfl, rfl, rfl, rfl, rfl, rfl, rfl, rfl, rfl, rfl⟩, rfl, fun h => ⟨if_pos h, if_pos h⟩, fun halign hlow hhigh => ?_,
    fun h => ?_, fun h => sysWrite_stack_refused d k h, ?_, rfl, rfl, rfl, rfl, rfl, rfl⟩
  · have hgood := (rspOk_iff v).mpr ⟨halign, hlow, hhigh⟩
    exact ⟨if_pos hgood, if_pos hgood⟩
  · have hstack := sysWrite_stack_refused d k (v := v) (.inl (by omega))
    simp only [List.forall_mem_cons, List.not_mem_nil, false_implies, implies_true, and_true] at hstack ⊢
    exact ⟨if_neg h, if_neg h, hstack⟩
  · simp only [List.forall_mem_cons, List.not_mem_nil, false_implies, implies_true, and_true]
    exact ⟨rfl, rfl, rfl, rfl, rfl⟩

/-- Settles O42: a move asks PCC for its permissions and then reads or writes its register. -/
theorem systemRegisterGroup : Obligations.SystemRegisterGroup := ⟨systemRegisterMoves, systemRegisters⟩

end Sys2Proof.Claims
end

section
/-!
Accepted register writes (01 R31): the device that a write gives, and which function of the model has the effect of a write to each page of the
cores, of HBM and of the host and network interfaces.
-/
namespace Sys2Proof.Claims
open Sys2Proof.Machine

section
variable {s : State} {i : Instr} {f : Dev → Dev} {P : Dev → Prop} {e : Dev}

theorem does_of_clocked (hclk : Clocked s) (hexec : exec i s = s.clocked f) (he : f s.dev = e) : Does i s e :=
  does_of_run (hexec.trans (s.clocked_eq f hclk)) he

theorem does_of_reach (hreach : Reached s) (hexec : exec i s = s.reach f) (he : f s.dev = e) : Does i s e :=
  does_of_run (hexec.trans (s.reach_eq f hreach.1 hreach.2)) he

theorem gives_of_run (hexec : exec i s = s.run f) (he : f s.dev = e) (h : P e) : Gives i s P := ⟨e, does_of_run hexec he, h⟩

theorem gives_of_clocked (hclk : Clocked s) (hexec : exec i s = s.clocked f) (he : f s.dev = e) (h : P e) : Gives i s P :=
  ⟨e, does_of_clocked hclk hexec he, h⟩

theorem gives_of_reach (hreach : Reached s) (hexec : exec i s = s.reach f) (he : f s.dev = e) (h : P e) : Gives i s P :=
  ⟨e, does_of_reach hreach hexec he, h⟩

end

/-- A write that its page accepts takes effect, lands and is answered without an error. -/
theorem Accepts.does {s : State} {w : Who} {p : PageInfo} {b o len v : Nat} {i : Instr} (hacc : Accepts s w p o len v)
    (hb : b % 0x1000 = 0) (ho : o < 0x1000) (hp : pageAt b = some p) (hv : v < 2 ^ (8 * len)) (hexec : exec i s = s.write w (b + o) len v) :
    Does i s { (s.dev.pageWrite w p o len v).noteLanded (b + o) len v with resp := {} } := by
  obtain ⟨⟨hclk, hrst⟩, hdom, hcause⟩ := hacc
  exact hexec.trans (s.write_accepted w hb ho hp hclk hrst hdom hv hcause)

end Sys2Proof.Claims

namespace Sys2Proof.Machine

/-! What the answer of an access and the note of a write leave alone -/

section
variable (d : Dev) (r : Resp)

theorem Dev.f_resp (p : Nat) (f : Fld) : ({ d with resp := r } : Dev).f p f = d.f p f := rfl

theorem Dev.on_resp (p : Nat) (f : Fld) : ({ d with resp := r } : Dev).on p f = d.on p f := rfl

theorem Dev.r64_resp (p o : Nat) : ({ d with resp := r } : Dev).r64 p o = d.r64 p o := rfl

theorem Dev.byte_resp (a : Nat) : ({ d with resp := r } : Dev).byte a = d.byte a := rfl

theorem Dev.bytes_resp (a n : Nat) : ({ d with resp := r } : Dev).bytes a n = d.bytes a n := by
  induction n generalizing a with
  | zero => rfl
  | succ n ih => rw [Dev.bytes, Dev.bytes, ih, Dev.byte_resp]

theorem Dev.pulsesOf_resp (e : Nat) : ({ d with resp := r } : Dev).pulsesOf e = d.pulsesOf e := rfl

/-- An accepted write has landed and is answered. -/
def Dev.wrote (d : Dev) (a len v : Nat) : Dev := { d.noteLanded a len v with resp := {} }

variable (a len v : Nat)

@[simp] theorem Dev.wrote_regs : (d.wrote a len v).regs = d.regs := rfl
@[simp] theorem Dev.wrote_mem : (d.wrote a len v).mem = d.mem := rfl
@[simp] theorem Dev.wrote_poison : (d.wrote a len v).poison = d.poison := rfl
@[simp] theorem Dev.wrote_resp : (d.wrote a len v).resp = {} := rfl
@[simp] theorem Dev.wrote_hbms : (d.wrote a len v).hbms = d.hbms := rfl
@[simp] theorem Dev.wrote_hbm (x : Nat) : (d.wrote a len v).hbm x = d.hbm x := rfl
@[simp] theorem Dev.wrote_eth (x : Nat) : (d.wrote a len v).eth x = d.eth x := rfl
@[simp] theorem Dev.wrote_can (x : Nat) : (d.wrote a len v).can x = d.can x := rfl
@[simp] theorem Dev.wrote_xspi : (d.wrote a len v).xspi = d.xspi := rfl
@[simp] theorem Dev.wrote_i2c : (d.wrote a len v).i2c = d.i2c := rfl
@[simp] theorem Dev.wrote_f (p : Nat) (f : Fld) : (d.wrote a len v).f p f = d.f p f := rfl
@[simp] theorem Dev.wrote_on (p : Nat) (f : Fld) : (d.wrote a len v).on p f = d.on p f := rfl
@[simp] theorem Dev.wrote_reg (b : Nat) : (d.wrote a len v).reg b = d.reg b := rfl
@[simp] theorem Dev.wrote_r64 (p o : Nat) : (d.wrote a len v).r64 p o = d.r64 p o := rfl
@[simp] theorem Dev.wrote_byte (b : Nat) : (d.wrote a len v).byte b = d.byte b := rfl

end

variable (d : Dev) {p : PageInfo} (w : Who) {o : Nat} (len v : Nat)

section
variable (ho : 0x40 ≤ o)
include ho

theorem Dev.pageWrite_intc (hk : p.kind = .intc) : d.pageWrite w p o len v =
    if o = 0x48 then (if bitAt (BitVec.ofNat 32 v) 0 then d.coreGo p.inst else d) else (d.lsHold p.inst o).storeAll p o len v := by
  rw [Dev.pageWrite, if_neg (by omega), hk]
  simp only [Dev.writeOuter, hk]

theorem Dev.pageWrite_hbm (hk : p.kind = .hbm) : d.pageWrite w p o len v =
    if o = 0x40 then (if bitAt (BitVec.ofNat 32 v) 2 then (d.storeAll p o len v).mbFlush p.inst else d.storeAll p o len v)
    else if o = 0x5C then (if bitAt (BitVec.ofNat 32 v) 0 then d.hbmInvalGo p.inst else d) else d.storeAll p o len v := by
  rw [Dev.pageWrite, if_neg (by omega), hk]
  simp only [Dev.writeOuter, hk]

theorem Dev.pageWrite_scrub (hk : p.kind = .scrub) : d.pageWrite w p o len v =
    if o = 0x54 then (if bitAt (BitVec.ofNat 32 v) 0 then d.scrGo p.inst else d) else d.storeAll p o len v := by
  rw [Dev.pageWrite, if_neg (by omega), hk]
  simp only [Dev.writeOuter, hk]

theorem Dev.pageWrite_sill (hk : p.kind = .sill) : d.pageWrite w p o len v =
    if o = 0x40 then (d.sillStart p.inst v).1 else if o = 0x58 then d.sillCancel p.inst (v % 65536) else d.storeAll p o len v := by
  rw [Dev.pageWrite, if_neg (by omega), hk]
  simp only [Dev.writeOuter, hk]

theorem Dev.pageWrite_eth (hk : p.kind = .eth) : d.pageWrite w p o len v =
    if o = 0x64 then (if bitAt (BitVec.ofNat 32 v) 0 && p.inst == 0 then d.mdioGo else d)
    else if o = 0x218 then (if bitAt (BitVec.ofNat 32 v) 1 then (d.storeAll p o len v).gclGo p.inst else d.storeAll p o len v)
    else if 0x40 ≤ o ∧ o < 0x200 then (d.creditSee p.inst).storeAll p o len v else d.storeAll p o len v := by
  rw [Dev.pageWrite, if_neg (by omega), hk]
  simp only [Dev.writeOuter, hk]

theorem Dev.pageWrite_can (hk : p.kind = .can) : d.pageWrite w p o len v =
    if o = 0x40 then (if bitAt (BitVec.ofNat 32 v) 4 then (d.storeAll p o len v).canRecover p.inst else d.storeAll p o len v)
    else if o = 0x54 then d.canTxReq p.inst (BitVec.ofNat 32 v)
    else if o = 0x58 then d.canTxCan p.inst (BitVec.ofNat 32 v)
    else if o = 0x60 then d.canRelease p.inst (BitVec.ofNat 32 v) else d.storeAll p o len v := by
  rw [Dev.pageWrite, if_neg (by omega), hk]
  simp only [Dev.writeOuter, hk]

theorem Dev.pageWrite_pf (hk : p.kind = .pf) : d.pageWrite w p o len v =
    if o = 0x50 then (if bitAt (BitVec.ofNat 32 v) 0 && w.req == 0x300 + p.inst then d.tsnapGo p.inst else d)
    else if 0x100 ≤ o ∧ o < 0x180 then (d.storeAll p o len v).msixBind p.inst ((o - 0x100) / 4)
    else if o = 0x180 then (if w.req = 0x300 ∧ p.inst = 0 then d.bootDoorbell (v % 2 ^ 24) [] [] else d)
    else d.storeAll p o len v := by
  rw [Dev.pageWrite, if_neg (by omega), hk]
  simp only [Dev.writeOuter, hk]

theorem Dev.pageWrite_xspi (hk : p.kind = .xspi) : d.pageWrite w p o len v =
    if o = 0x50 then
      let d := if bitAt (BitVec.ofNat 32 v) 0 then d.xspiGo else d
      if bitAt (BitVec.ofNat 32 v) 1 then d.xspiReset else d
    else d.storeAll p o len v := by
  rw [Dev.pageWrite, if_neg (by omega), hk]
  simp only [Dev.writeOuter, hk]

theorem Dev.pageWrite_i2c (hk : p.kind = .i2c) : d.pageWrite w p o len v =
    if o = 0x4C then (if bitAt (BitVec.ofNat 32 v) 0 then d.i2cGo else d)
    else if 0x800 ≤ o then (d.storeAll p o len v).busStands else d.storeAll p o len v := by
  rw [Dev.pageWrite, if_neg (by omega), hk]
  simp only [Dev.writeOuter, hk]

end

/-- A write of a field changes no more than the registers. -/
theorem Dev.setF_rest {d e : Dev} (h : { e with regs := d.regs } = d) (q : Nat) (f : Fld) (y : Nat) : { e.setF q f y with regs := d.regs } = d := h

theorem Dev.setReg_rest {d e : Dev} (h : { e with regs := d.regs } = d) (a : Nat) (v : W32) : { e.setReg a v with regs := d.regs } = d := h

/-! What a write stores -/

theorem fieldMask_getLsbD {n : Nat} (lsb w : Nat) {i : Nat} (hi : i < n) : (fieldMask n lsb w).getLsbD i = (decide (lsb ≤ i) && decide (i - lsb < w)) := by
  rw [fieldMask, BitVec.getLsbD_ofNat, Nat.testBit_shiftLeft, Nat.testBit_two_pow_sub_one]
  simp [hi]

/-- A field of a word takes the field of another. -/
theorem putBits_bitsOf {n : Nat} (a v : BitVec n) (lsb w : Nat) :
    (a &&& ~~~ fieldMask n lsb w) ||| (v &&& fieldMask n lsb w) = putBits a lsb w (bitsOf v lsb w) := by
  rw [putBits]
  congr 1
  apply BitVec.eq_of_getLsbD_eq
  intro i hi
  simp only [BitVec.getLsbD_and, fieldMask_getLsbD lsb w hi, BitVec.getLsbD_ofNat, Nat.testBit_shiftLeft, bitsOf, Nat.testBit_mod_two_pow,
    Nat.testBit_shiftRight, BitVec.testBit_toNat, hi, decide_true, Bool.true_and]
  by_cases hlow : lsb ≤ i
  · by_cases hhigh : i - lsb < w <;> simp [hlow, hhigh]
  · simp [hlow]

/-- A write of a word of a block's registers. -/
theorem Dev.storeAll_word (ho : 0x40 ≤ o) {r : RWord} (hr : wordAt p o = some r) :
    d.storeAll p o 4 v = d.setReg (p.base + o) (r.merge (d.reg (p.base + o)) (BitVec.ofNat 32 v)) := by
  rw [Dev.storeAll, halves, if_neg (by decide), List.foldl_cons, List.foldl_nil]
  unfold Dev.storeWord
  split
  case h_5 => rw [if_neg (by omega), hr]
  all_goals omega

end Sys2Proof.Machine

namespace Sys2Proof.Claims
open Sys2Proof.Machine

variable {s : State} {w : Who} {p : PageInfo} {b o len v : Nat} {i : Instr} {e : Dev} {P : Dev → Prop}

theorem Accepts.wrote (hacc : Accepts s w p o len v) (hb : b % 0x1000 = 0) (ho : o < 0x1000) (hp : pageAt b = some p) (hv : v < 2 ^ (8 * len))
    (hexec : exec i s = s.write w (b + o) len v) (he : s.dev.pageWrite w p o len v = e) : Wrote i s e :=
  he ▸ ⟨_, _, _, hacc.does hb ho hp hv hexec⟩

theorem Accepts.gives (hacc : Accepts s w p o len v) (hb : b % 0x1000 = 0) (ho : o < 0x1000) (hp : pageAt b = some p) (hv : v < 2 ^ (8 * len))
    (hexec : exec i s = s.write w (b + o) len v) (he : s.dev.pageWrite w p o len v = e) (h : P (e.wrote (b + o) len v)) : Gives i s P :=
  ⟨_, hacc.does hb ho hp hv hexec, by rw [he]; exact h⟩

end Sys2Proof.Claims
end

section
/-!
What an access to memory leaves alone: of the device a write changes the bytes, their poison, codes and tags, the reservations and journals of the
cores and the merge buffers, and no register.
-/
namespace Sys2Proof.Machine

/-- `r` is `d` but for its bytes of memory and for what goes with each: poison, codes, tags, reservations and journals. -/
def Dev.BytesKeeps (d r : Dev) : Prop :=
  { r with mem := d.mem, poison := d.poison, tags := d.tags, upsets := d.upsets, l2ok := d.l2ok, cores := d.cores, present := d.present } = d

/-- `r` is `d` but for its memory, with the merge buffers. -/
def Dev.MemoryKeeps (d r : Dev) : Prop := d.BytesKeeps { r with hbms := d.hbms }

namespace Dev.BytesKeeps

variable {d e r : Dev}

theorem refl (d : Dev) : d.BytesKeeps d := rfl

theorem trans (h : d.BytesKeeps e) (k : e.BytesKeeps r) : d.BytesKeeps r := by
  unfold Dev.BytesKeeps at *
  exact (congrArg (fun x : Dev => { x with
    mem := d.mem, poison := d.poison, tags := d.tags, upsets := d.upsets, l2ok := d.l2ok, cores := d.cores, present := d.present }) k).trans h

theorem hbms (h : d.BytesKeeps r) : r.hbms = d.hbms := (congrArg Dev.hbms h : _)

theorem memory (h : d.BytesKeeps r) : d.MemoryKeeps r := by
  unfold Dev.MemoryKeeps Dev.BytesKeeps at *
  exact (congrArg (fun x : Dev => { x with hbms := d.hbms }) h : _)

theorem ite {c : Prop} [Decidable c] (h : d.BytesKeeps e) (k : d.BytesKeeps r) : d.BytesKeeps (if c then e else r) := by
  split
  · exact h
  · exact k

theorem foldl {β : Type} (f : Dev → β → Dev) (l : List β) (hf : ∀ x ∈ l, ∀ e : Dev, e.BytesKeeps (f e x)) (d : Dev) :
    d.BytesKeeps (l.foldl f d) :=
  foldl_keeps f l (refl d) fun x hx _ he => he.trans (hf x hx _)

variable (d)

theorem setBytes (a : Nat) (l : List Byte) : d.BytesKeeps (d.setBytes a l) := by
  induction l generalizing d a with
  | nil => exact .refl d
  | cons b r ih => exact (show d.BytesKeeps (d.setByte a b) from rfl).trans (ih _ _)

theorem noteFabric (a len : Nat) : d.BytesKeeps (d.noteFabric a len) := by
  unfold Dev.noteFabric
  split <;> rfl

theorem l2Poison (u m : Nat) (bad : Bool) : d.BytesKeeps (d.l2Poison u m bad) := by
  unfold Dev.l2Poison
  exact .ite rfl rfl

theorem writePoison (by_ a len : Nat) (pw : Nat → Bool) : d.BytesKeeps (d.writePoison by_ a len pw) := by
  refine .foldl _ _ (fun i _ e => ?_) d
  exact .ite rfl (.ite (.ite (.l2Poison e _ _ _) rfl) (.ite (.ite (.l2Poison e _ _ _) (.refl e)) rfl))

theorem noteWrite (by_ a len : Nat) : d.BytesKeeps (d.noteWrite by_ a len) := by
  refine .foldl _ _ (fun k _ e => ?_) d
  split <;> rfl

end Dev.BytesKeeps

namespace Dev.MemoryKeeps

variable {d e r : Dev}

theorem refl (d : Dev) : d.MemoryKeeps d := rfl

theorem trans (h : d.MemoryKeeps e) (k : e.MemoryKeeps r) : d.MemoryKeeps r := by
  unfold Dev.MemoryKeeps Dev.BytesKeeps at *
  exact (congrArg (fun x : Dev => { x with
    mem := d.mem, poison := d.poison, tags := d.tags, upsets := d.upsets, l2ok := d.l2ok, cores := d.cores, hbms := d.hbms
    present := d.present }) k).trans h

theorem regs (h : d.MemoryKeeps r) : r.regs = d.regs := (congrArg Dev.regs h : _)

theorem sys (h : d.MemoryKeeps r) : r.sys = d.sys := (congrArg Dev.sys h : _)

theorem time (h : d.MemoryKeeps r) : r.time = d.time := (congrArg Dev.time h : _)

theorem ite {c : Prop} [Decidable c] (h : d.MemoryKeeps e) (k : d.MemoryKeeps r) : d.MemoryKeeps (if c then e else r) := by
  split
  · exact h
  · exact k

theorem foldl {β : Type} (f : Dev → β → Dev) (l : List β) (hf : ∀ x ∈ l, ∀ e : Dev, e.MemoryKeeps (f e x)) (d : Dev) :
    d.MemoryKeeps (l.foldl f d) :=
  foldl_keeps f l (refl d) fun x hx _ he => he.trans (hf x hx _)

end Dev.MemoryKeeps

variable (d : Dev)

theorem Dev.mbWriteBack_clean (s page : Nat) : d.mbWriteBack s page false =
    match (d.hbm s).mb.find? (fun e => e.page == page && e.dirty) with
    | none => d
    | some e => d.setHbm s { d.hbm s with
        mb := (d.hbm s).mb.map (fun x => if x = e then { e with complete := true, dirty := false, mask := 0 } else x) } := rfl

theorem Dev.MemoryKeeps.mbWriteBack (s page : Nat) : d.MemoryKeeps (d.mbWriteBack s page false) := by
  rw [Dev.mbWriteBack_clean]
  split <;> rfl

theorem Dev.MemoryKeeps.setHbm (s : Nat) (h : Hbm) : d.MemoryKeeps (d.setHbm s h) := rfl

theorem Dev.MemoryKeeps.mbAlloc (s : Nat) (e : MbEntry) : d.MemoryKeeps (d.mbAlloc s e) := by
  unfold Dev.mbAlloc
  refine .trans (.ite (.refl d) ?_) (.setHbm _ s _)
  split
  · exact .refl d
  · exact (Dev.MemoryKeeps.mbWriteBack d s _).trans (.setHbm _ s _)

theorem Dev.MemoryKeeps.mbWrite (s a len : Nat) : d.MemoryKeeps (d.mbWrite s a len) := by
  have hback {e : Dev} (he : d.MemoryKeeps e) (b : Bool) (page : Nat) : d.MemoryKeeps (if b then e.mbWriteBack s page false else e) := by
    cases b
    · exact he
    · exact he.trans (.mbWriteBack e s page)
  unfold Dev.mbWrite
  refine hback ?_ _ _
  split
  · exact .setHbm d s _
  · exact (Dev.MemoryKeeps.setHbm d s _).trans (.mbAlloc _ s _)

theorem Dev.MemoryKeeps.hbmTouch (a len : Nat) : d.MemoryKeeps (d.hbmTouch a len) := by
  unfold Dev.hbmTouch
  split
  · exact .refl d
  · exact .foldl _ _ (fun i _ e => .mbWrite e _ _ _) d

/-- What a write does before it reaches the merge buffers. -/
def Dev.putBytes (d : Dev) (by_ a : Nat) (l : List Byte) (pw : Nat → Bool) : Dev :=
  let d := (((d.noteFabric a l.length).setBytes a l).clearUpsets a l.length).writePoison by_ a l.length pw
  ((List.range ((a + l.length - 1) / 16 + 1 - a / 16)).foldl (fun (d : Dev) i => d.setTag (16 * (a / 16 + i)) false) d).noteWrite by_ a l.length

theorem Dev.putMem_eq (by_ a : Nat) (l : List Byte) (pw : Nat → Bool) : d.putMem by_ a l pw = (d.putBytes by_ a l pw).hbmTouch a l.length := rfl

theorem Dev.BytesKeeps.putBytes (by_ a : Nat) (l : List Byte) (pw : Nat → Bool) : d.BytesKeeps (d.putBytes by_ a l pw) :=
  have hbytes := (Dev.BytesKeeps.noteFabric d a l.length).trans (.setBytes _ a l)
  have hpoison := (hbytes.trans (show Dev.BytesKeeps _ (Dev.clearUpsets _ a l.length) from rfl)).trans (.writePoison _ by_ a l.length pw)
  have htags := hpoison.trans (.foldl (fun (d : Dev) i => d.setTag (16 * (a / 16 + i)) false) _ (fun _ _ _ => rfl) _)
  htags.trans (.noteWrite _ by_ a l.length)

theorem Dev.MemoryKeeps.putMem (by_ a : Nat) (l : List Byte) (pw : Nat → Bool) : d.MemoryKeeps (d.putMem by_ a l pw) :=
  (Dev.BytesKeeps.putBytes d by_ a l pw).memory.trans (.hbmTouch _ a l.length)

theorem Dev.MemoryKeeps.putClean (a : Nat) (l : List Byte) : d.MemoryKeeps (d.putClean a l) := .putMem d 99 a l _

end Sys2Proof.Machine
end

section
/-!
The start of a pair (17 R380): its first checkpoint leaves the area of the one before, after a change of LS_CHK_BASE.
-/
namespace Sys2Proof.Machine

variable (d : Dev)

theorem Dev.leaveArea_sys (b : Nat) : (d.leaveArea b).sys = d.sys := by
  rw [Dev.leaveArea]
  exact Dev.forN_keeps (P := fun e : Dev => e.sys = d.sys) _ _ rfl fun _ _ e he => ((Dev.BytesKeeps.setBytes e.takeFresh.2 _ _).memory.sys).trans he

theorem Dev.checkpoint_sys (k : Nat) : (d.checkpoint k).sys = d.sys := by
  have harea (o : Option Nat) (b : Nat) : (match o with | some b' => (if b' = b then d else d.leaveArea b') | none => d).sys = d.sys := by
    split
    · split
      · rfl
      · exact d.leaveArea_sys _
    · rfl
  have hpoison (l : List Nat) (e : Dev) (b : Nat) (c : Core) :
      (((l.foldl (fun (d : Dev) i => d.setPoison (b + 8 * i) false) e).setCore k c).journalCount k).sys = e.sys :=
    foldl_keeps (P := fun r : Dev => r.sys = e.sys) _ l rfl fun _ _ _ he => he
  unfold Dev.checkpoint
  exact (hpoison (List.range 256) _ _ _).trans (harea (d.core k).chkBase _)

/-- A sound start block starts a held pair. -/
theorem Dev.coreGo_sound {k a : Nat} (hk : k < 4) (hheld : d.on (pgIntc k) F.INTC_STATUS_HELD = true)
    (hfailed : d.on (pgIntc k) F.LS_STAT_FAILED = false) (ha : d.r64 (pgIntc k) 0x40 = a) (hok : d.startOk a = true) :
    d.coreGo k = ((d.setB (pgIntc k) F.INTC_STATUS_HELD false).setCore k
      { (d.setB (pgIntc k) F.INTC_STATUS_HELD false).core k with
        arch := (d.setB (pgIntc k) F.INTC_STATUS_HELD false).startArch a, running := true }).checkpoint k := by
  subst ha
  rw [Dev.coreGo, if_neg (by simp [hheld, hfailed]; omega)]
  simp only [hok, Bool.not_true, Bool.false_eq_true, if_false]

end Sys2Proof.Machine

namespace Sys2Proof.Claims
open Sys2Proof.Machine

/-- A device that an accepted write gives is the one it makes, up to what the links, vectors and trace take note of. -/
theorem gives_written {s : State} {i : Instr} {P : Dev → Prop} {e : Dev} {a len v : Nat} (h : Gives i s P)
    (hdoes : Does i s { e.noteLanded a len v with resp := {} }) (hotp : s.dev.otpCmd = none) (hquiet : e.quiet) (hreset : e.sys.reset = .none) :
    ∃ r x y : Dev, P r ∧ r.NoteKeeps x ∧ y.NoteKeeps x ∧ y.mem = e.mem := by
  obtain ⟨r, x, hr, hrx, hx⟩ := gives_noted (f := fun _ => { e.noteLanded a len v with resp := {} }) h hdoes hotp hquiet hreset
  exact ⟨r, x, _, hr, hrx, hx, rfl⟩

/-- A held pair whose start block is sound, after a change of LS_CHK_BASE from 0x11000000 to 0. The byte there is no free value's. -/
def startedAnew : State := Tests.mod Tests.block fun d => { d with
  mem := d.mem ++ [(0x11000000, (bytesLE 8 (Config.freeValue 0).toNat).getD 0 0 + 1)]
  cores := [(3, { chkBase := some 0x11000000 })] }

theorem startedAnew_accepts : Accepts startedAnew .boot (pageIntc 3) 0x48 4 1 := by decide

/-- The device as the pair starts, before its first checkpoint. -/
def startingAnew : Dev :=
  let d := startedAnew.dev.setB (pgIntc 3) F.INTC_STATUS_HELD false
  d.setCore 3 { d.core 3 with arch := d.startArch 0x10009000, running := true }

theorem startedAnew_sound : startedAnew.dev.startOk 0x10009000 = true ∧ (startingAnew.core 3).chkBase = some 0x11000000 := by decide +kernel

theorem startedAnew_starts : startedAnew.dev.coreGo 3 = startingAnew.checkpoint 3 :=
  startedAnew.dev.coreGo_sound (a := 0x10009000) (by decide) (by decide) (by decide) (by decide) startedAnew_sound.1

/-- The start changes the byte at the base that the pair leaves. -/
theorem startedAnew_writes_area : (startedAnew.dev.coreGo 3).byte 0x11000000 ≠ startedAnew.dev.byte 0x11000000 := by
  have hbyte : (startedAnew.dev.coreGo 3).byte 0x11000000 = (bytesLE 8 (Config.freeValue 0).toNat).getD 0 0 := by
    rw [startedAnew_starts, Dev.byte, Dev.checkpoint_mem (b := 0x11000000) _ startedAnew_sound.2 (by decide)]
    exact Dev.byte_leaveArea startingAnew 0x11000000
  have hwas : startedAnew.dev.byte 0x11000000 = (bytesLE 8 (Config.freeValue 0).toNat).getD 0 0 + 1 := rfl
  rw [hbyte, hwas]
  simp

theorem startedAnew_reset : (startedAnew.dev.coreGo 3).sys.reset = .none := by
  rw [startedAnew_starts, Dev.checkpoint_sys]
  decide

theorem startedAnew_quiet : (startedAnew.dev.coreGo 3).quiet := by
  rw [startedAnew_starts, Dev.quiet, Dev.checkpoint_sys]
  decide

/-- Refutes O48: the checkpoint of a start writes the area that the pair leaves. -/
theorem not_coreLifecycle : ¬ Obligations.CoreLifecycle := by
  rintro ⟨hstart, -⟩
  have hgo := (hstart startedAnew .boot 3 startedAnew_accepts (by decide) (by decide)).1 startedAnew_sound.1
  have hdoes := startedAnew_accepts.does (b := pgIntc 3) (by decide) (by decide) (by decide) (by decide) (i := .coreGo .boot 3) rfl
  rw [Dev.pageWrite_intc _ _ _ _ (by decide) rfl, if_pos rfl, if_pos (by decide), show (pageIntc 3).inst = 3 from rfl] at hdoes
  obtain ⟨r, x, y, ⟨-, -, -, -, -, -, -, hmem, -⟩, hr, hf, hy⟩ := gives_written hgo hdoes (by decide) startedAnew_quiet startedAnew_reset
  have hsame {d e : Dev} (h : d.NoteKeeps e) : e.mem = d.mem := (congrArg Dev.mem h.rest : _)
  exact startedAnew_writes_area (congrArg (Table.get 0 · 0x11000000) (hy.symm.trans ((hsame hf).symm.trans ((hsame hr).trans hmem))))

end Sys2Proof.Claims
end

section
/-!
HBM: the refresh rate, and the reads and writes of a stack (20 R430-R439).
-/
namespace Sys2Proof.Machine

theorem codeOf_toInt {n : Nat} (t : BitVec n) : codeOf n t.toInt = t.toNat := by
  rw [codeOf, BitVec.toInt_eq_toNat_bmod, show ((2 : Int) ^ n) = ((2 ^ n : Nat) : Int) by norm_num, Int.bmod_emod]
  exact_mod_cast Nat.mod_eq_of_lt t.isLt

variable (d : Dev)

theorem Dev.setF_setF_rest (p q : Nat) (f g : Fld) (x y : Nat) : { (d.setF p f x).setF q g y with regs := d.regs } = d := rfl

/-- The refresh rate of a temperature, with the rate before. -/
def refreshRate (cur : Nat) (t : Int) : Nat :=
  if 115 < t ∨ (3 ≤ cur ∧ 115 - 3 < t) then 3
  else if 100 < t ∨ (2 ≤ cur ∧ 100 - 3 < t) then 2
  else if 85 < t ∨ (1 ≤ cur ∧ 85 - 3 < t) then 1 else 0

theorem refreshRate_lt (cur : Nat) (t : Int) : refreshRate cur t < 4 := by
  unfold refreshRate
  split_ifs <;> decide

theorem Dev.hbmTemp_eq {x : Nat} (hdom : d.domOn (domHbm x) = true) (t : Int) : d.hbmTemp x t =
    (d.setF (pgHbm x) F.HBM_TEMP_TEMP (codeOf 8 t)).setF (pgHbm x) F.HBM_TEMP_REFRESH
      (refreshRate (d.f (pgHbm x) F.HBM_TEMP_REFRESH) t) := by
  rw [Dev.hbmTemp, hdom]
  simp only [Bool.not_true, Bool.false_eq_true, if_false]
  congr 1
  rw [show List.range 4 = [0, 1, 2, 3] from rfl]
  simp only [List.foldl_cons, List.foldl_nil, refreshAt, refreshRate, ne_eq, not_true_eq_false, false_and, if_false, OfNat.ofNat_ne_zero,
    one_ne_zero, not_false_eq_true, true_and]

theorem Dev.pulsesOf_pulse (e : Nat) : (d.pulse e).pulsesOf e = d.pulsesOf e + 1 := by
  simp only [Dev.pulsesOf, Dev.pulse, Table.get_put_same]

/-! The merge buffer and the valid bits -/

variable {d} {x page : Nat}

theorem Dev.hbm_setHbm_same (h : Hbm) : (d.setHbm x h).hbm x = h := Table.get_put_same ({} : Hbm) d.hbms x h

theorem Dev.bytes_congr {e : Dev} (h : e.mem = d.mem) (a n : Nat) : e.bytes a n = d.bytes a n := by
  induction n generalizing a with
  | zero => rfl
  | succ n ih => rw [Dev.bytes, Dev.bytes, ih, Dev.byte, Dev.byte, h]

theorem Dev.mbWriteBack_valid : ((d.mbWriteBack x page false).hbm x).valid = (d.hbm x).valid := by
  rw [Dev.mbWriteBack_clean]
  split
  · rfl
  · rw [Dev.hbm_setHbm_same]

/-- An entry that is allocated is in the merge buffer. -/
theorem Dev.mem_mbAlloc (e : MbEntry) : e ∈ ((d.mbAlloc x e).hbm x).mb := by
  unfold Dev.mbAlloc
  dsimp only
  rw [Dev.hbm_setHbm_same]
  exact List.mem_append_right _ (List.mem_singleton.mpr rfl)

theorem Dev.mbAlloc_valid (e : MbEntry) : ((d.mbAlloc x e).hbm x).valid = (d.hbm x).valid := by
  unfold Dev.mbAlloc
  dsimp only
  rw [Dev.hbm_setHbm_same]
  split
  · rfl
  · split
    · rfl
    · rw [Dev.hbm_setHbm_same, Dev.mbWriteBack_valid]

theorem Dev.mbAlloc_regs (e : MbEntry) : (d.mbAlloc x e).regs = d.regs := (Dev.MemoryKeeps.mbAlloc d x e).regs

/-- A page outside the merge buffer. -/
def Dev.mbMisses (d : Dev) (x page : Nat) : Prop := ∀ e ∈ (d.hbm x).mb, e.page ≠ page

theorem Dev.mbMisses.find? (h : d.mbMisses x page) (q : MbEntry → Bool) : (d.hbm x).mb.find? (fun e => e.page == page && q e) = none := by
  rw [List.find?_eq_none]
  intro e he
  simp [h e he]

theorem Dev.mbFill_miss (h : d.mbMisses x page) (dirty : Bool) : d.mbFill x page dirty =
    d.mbAlloc x { page := page, complete := true, dirty := dirty, mask := 0, last := d.tick } := by
  have hnone := h.find? (fun _ => true)
  simp only [Bool.and_true] at hnone
  simp only [Dev.mbFill, hnone]

/-! Reads of a page -/

section
variable {a : Nat} (len : Nat)

theorem Dev.mbRead_invalid (h : Table.get false (d.hbm x).valid ((a - hbmBase x) / 2048) = false) (out : Decode) :
    d.mbRead x a len out = (d, false) := by
  unfold Dev.mbRead
  exact if_pos (by rw [h]; rfl)

section
variable (hvalid : Table.get false (d.hbm x).valid ((a - hbmBase x) / 2048) = true) (hmiss : d.mbMisses x ((a - hbmBase x) / 2048))
  (hmode : d.f (pgHbm x) F.HBM_CTRL_MODE = 0)
include hvalid hmiss hmode

/-- A page that decodes clean enters the merge buffer. -/
theorem Dev.mbRead_clean : d.mbRead x a len .clean =
    (d.mbAlloc x { page := (a - hbmBase x) / 2048, complete := true, dirty := false, mask := 0, last := d.tick },
      d.poisoned a || d.poisoned (a + len - 1)) := by
  unfold Dev.mbRead
  simp only [hvalid, Bool.not_true, Bool.false_eq_true, if_false, hmiss.find?, hmode, Dev.mbFill_miss hmiss]

/-- A page that does not decode is logged and delivered with poison. -/
theorem Dev.mbRead_uncorrectable : d.mbRead x a len .uncorrectable = (d.uncorrPage x ((a - hbmBase x) / 2048), true) := by
  unfold Dev.mbRead
  simp only [hvalid, Bool.not_true, Bool.false_eq_true, if_false, hmiss.find?, hmode]

end
end

theorem Dev.uncorrPage_address (d : Dev) (x page : Nat) (h : hbmBase x + 2048 * page < 2 ^ 64) :
    (d.uncorrPage x page).r64 (pgScrub x) 0x80 = hbmBase x + 2048 * page := by
  rw [Dev.uncorrPage, Dev.r64_setR64_same, Nat.mod_eq_of_lt h]

theorem Dev.uncorrPage_pulses (d : Dev) (x page : Nat) : (d.uncorrPage x page).pulses = (d.pulse (1843 + x)).pulses := rfl

theorem Dev.uncorrPage_hbms (d : Dev) (x page : Nat) : (d.uncorrPage x page).hbms = d.hbms := by
  have h64 (e : Dev) (p o v : Nat) : (e.setR64 p o v).hbms = e.hbms := rfl
  unfold Dev.uncorrPage
  dsimp only
  rw [h64, Dev.irq_hbms, Dev.inc_hbms, Dev.pulse_hbms]

theorem Dev.uncorrPage_hbm (d : Dev) (x page : Nat) : (d.uncorrPage x page).hbm x = d.hbm x := by
  rw [Dev.hbm, Dev.uncorrPage_hbms, Dev.hbm]

/-- The log of a page that does not decode. -/
theorem Dev.uncorrPage_log (d : Dev) (x page : Nat) (h : hbmBase x + 2048 * page < 2 ^ 64) :
    (d.uncorrPage x page).r64 (pgScrub x) 0x80 = hbmBase x + 2048 * page ∧
      (d.uncorrPage x page).pulsesOf (1843 + x) = d.pulsesOf (1843 + x) + 1 := by
  refine ⟨d.uncorrPage_address x page h, ?_⟩
  rw [Dev.pulsesOf, Dev.uncorrPage_pulses, ← Dev.pulsesOf, Dev.pulsesOf_pulse]

/-- A read of such a page is answered with poison and changes no byte. -/
theorem Dev.uncorrPage_answered (d : Dev) (x page : Nat) (h : hbmBase x + 2048 * page < 2 ^ 64) (r : Resp) :
    let e : Dev := { d.uncorrPage x page with resp := r }
    e.mem = d.mem ∧ e.r64 (pgScrub x) 0x80 = hbmBase x + 2048 * page ∧ e.pulsesOf (1843 + x) = d.pulsesOf (1843 + x) + 1 := by
  dsimp only
  rw [Dev.r64_resp, Dev.pulsesOf_resp]
  exact ⟨Dev.uncorrPage_mem d x page, d.uncorrPage_log x page h⟩

/-! The accesses of a stack -/

section
variable {a : Nat} (req len : Nat) (hbase : hbmBase 0 ≤ a)

theorem Dev.hbmRead_refused {c : Nat} (hcause : d.memCause a len false false = some c) (out : Decode) (bitmap : Bool) :
    d.hbmRead req a len out bitmap = d.refuse req a len false c := by
  simp only [Dev.hbmRead, hcause]

include hbase in
theorem Dev.hbmRead_eq (hcause : d.memCause a len false false = none) (hx : (a - hbmBase 0) / 0x400000000 = x) (out : Decode) :
    d.hbmRead req a len out false =
      { (d.mbRead x a len out).1 with resp := {
          data := valueLE (if Table.get false ((d.mbRead x a len out).1.hbm x).valid ((a - hbmBase x) / 2048) then
            (d.mbRead x a len out).1.bytes a len else [])
          poison := (d.mbRead x a len out).2 } } := by
  subst hx
  simp only [Dev.hbmRead, hcause, if_neg (show ¬ a < hbmBase 0 by omega), Bool.false_eq_true, if_false]

end

theorem Dev.hbmWrite_refused {a : Nat} (req : Nat) (l : List Byte) {c : Nat} (hcause : d.memCause a l.length true false = some c) {bad : Bool} :
    d.hbmWrite req a l bad = d.refuse req a l.length true c := by
  simp only [Dev.hbmWrite, hcause]

theorem Dev.hbmWrite_eq {a : Nat} (req : Nat) (l : List Byte) (hbase : hbmBase 0 ≤ a) (hcause : d.memCause a l.length true false = none) {bad : Bool} :
    d.hbmWrite req a l bad = { d.putMem 99 a l (fun _ => bad) with resp := {} } := by
  simp only [Dev.hbmWrite, hcause, if_neg (show ¬ a < hbmBase 0 by omega)]

/-- A refused access answers its cause and changes neither memory nor the stacks. -/
theorem Dev.refuse_keeps (d : Dev) (req a len : Nat) (write : Bool) (c : Nat) :
    (d.refuse req a len write c).resp = { error := some c } ∧ (d.refuse req a len write c).mem = d.mem ∧
      (d.refuse req a len write c).hbms = d.hbms := by
  have hrecord (e : Dev) (p : Nat) (v : W32 × W32 × W32) : (e.logRecord p v).mem = e.mem ∧ (e.logRecord p v).hbms = e.hbms := by
    unfold Dev.logRecord
    split <;> exact ⟨rfl, rfl⟩
  refine ⟨rfl, ?_⟩
  unfold Dev.refuse Dev.memViolation
  split <;> exact hrecord _ _ _

/-- A write inside a page makes the page valid, which an entry of the merge buffer already is. -/
theorem Dev.mbWrite_valid {a len : Nat} (h : ∀ e ∈ (d.hbm x).mb, e.page = (a - hbmBase x) / 2048 →
    Table.get false (d.hbm x).valid ((a - hbmBase x) / 2048) = true) :
    Table.get false ((d.mbWrite x a len).hbm x).valid ((a - hbmBase x) / 2048) = true := by
  have hback {e : Dev} {p : Nat} (he : Table.get false (e.hbm x).valid p = true) (b : Bool) :
      Table.get false ((if b then e.mbWriteBack x p false else e).hbm x).valid p = true := by
    cases b
    · exact he
    · rw [if_pos rfl, Dev.mbWriteBack_valid, he]
  unfold Dev.mbWrite
  refine hback ?_ _
  split <;> rename_i e hfind
  · rw [Dev.hbm_setHbm_same]
    exact h e (List.mem_of_find?_eq_some hfind) (by simpa using List.find?_some hfind)
  · rw [Dev.mbAlloc_valid, Dev.hbm_setHbm_same, Table.get_put_same]

/-- A write to a stack that stays inside a page. -/
theorem Dev.hbmTouch_page {a len : Nat} (hbase : hbmBase 0 ≤ a) (hx : (a - hbmBase 0) / 0x400000000 = x) (hlen : 0 < len)
    (hline : a % 2048 + len ≤ 2048) : d.hbmTouch a len = d.mbWrite x a len := by
  subst hx
  rw [Dev.hbmTouch, if_neg (by omega)]
  rw [show (a + len - 1) / 2048 + 1 - a / 2048 = 1 by omega, show List.range 1 = [0] from rfl, List.foldl_cons, List.foldl_nil,
    show Nat.max a (2048 * (a / 2048 + 0)) = a from Nat.max_eq_left (by omega),
    show Nat.min (a + len) (2048 * (a / 2048 + 0 + 1)) = a + len from Nat.min_eq_left (by omega)]
  dsimp only
  rw [Nat.add_sub_cancel_left]

theorem Dev.putMem_valid {a by_ : Nat} {l : List Byte} (pw : Nat → Bool) (hbase : hbmBase 0 ≤ a) (hx : (a - hbmBase 0) / 0x400000000 = x)
    (hlen : 0 < l.length) (hline : a % 2048 + l.length ≤ 2048)
    (h : ∀ e ∈ (d.hbm x).mb, e.page = (a - hbmBase x) / 2048 → Table.get false (d.hbm x).valid ((a - hbmBase x) / 2048) = true) :
    Table.get false ((d.putMem by_ a l pw).hbm x).valid ((a - hbmBase x) / 2048) = true := by
  have hsame : (d.putBytes by_ a l pw).hbm x = d.hbm x := by rw [Dev.hbm, (Dev.BytesKeeps.putBytes d by_ a l pw).hbms, Dev.hbm]
  rw [Dev.putMem_eq, Dev.hbmTouch_page hbase hx hlen hline]
  exact Dev.mbWrite_valid (by rw [hsame]; exact h)

end Sys2Proof.Machine

namespace Sys2Proof.Claims
open Sys2Proof.Machine

theorem refreshRateHolds : RefreshRate := by
  intro s x t hclk hdom cur past
  refine gives_of_clocked (f := fun d => d.hbmTemp x t.toInt) hclk rfl (by rw [s.dev.hbmTemp_eq hdom, codeOf_toInt]) ?_
  have hrate : (((s.dev.setF (pgHbm x) F.HBM_TEMP_TEMP t.toNat).setF (pgHbm x) F.HBM_TEMP_REFRESH (refreshRate cur t.toInt)).f (pgHbm x)
      F.HBM_TEMP_REFRESH) = refreshRate cur t.toInt := by
    rw [Dev.f_setF_same _ _ _ _ (by decide)]
    exact Nat.mod_eq_of_lt (refreshRate_lt _ _)
  refine ⟨?_, fun h3 => hrate.trans (if_pos h3), fun h3 h2 => hrate.trans ((if_neg h3).trans (if_pos h2)),
    fun h3 h2 h1 => hrate.trans ((if_neg h3).trans ((if_neg h2).trans (if_pos h1))),
    fun h3 h2 h1 => hrate.trans ((if_neg h3).trans ((if_neg h2).trans (if_neg h1))), Dev.setF_setF_rest ..⟩
  rw [Dev.f_setF_apart _ _ (by decide), Dev.f_setF_same _ _ _ _ (by decide)]
  exact Nat.mod_eq_of_lt t.isLt

theorem hbmAccesses : HbmAccesses := by
  intro s req a len out bytes bad hreach hbase x page valid
  have hpage : hbmBase x + 2048 * page < 2 ^ 64 := by
    have := a.isLt
    simp only [hbmBase] at *
    omega
  have hx : (a.toNat - hbmBase 0) / 0x400000000 = x := rfl
  clear_value x
  refine ⟨fun hc hv => ?_, fun hc hv hmiss hmode => ⟨?_, ?_⟩, fun c hc => ?_, fun hc hpos hline hvalid => ?_, fun c hc => ?_⟩
  · refine does_of_reach (f := fun d => d.hbmRead req.toNat a.toNat len out false) hreach rfl ?_
    rw [Dev.hbmRead_eq _ _ hbase hc hx, Dev.mbRead_invalid len hv]
    exact congrArg (fun l => { s.dev with resp := { data := valueLE l, poison := false } }) (if_neg (ne_true_of_eq_false hv))
  · refine gives_of_reach (f := fun d => d.hbmRead req.toNat a.toNat len .clean false) hreach rfl (Dev.hbmRead_eq _ _ hbase hc hx _) ?_
    rw [Dev.mbRead_clean len hv hmiss hmode]
    dsimp only
    rw [Dev.mbAlloc_valid, Dev.bytes_congr (Dev.mbAlloc_mem _ _ _), Dev.mbAlloc_mem, Dev.mbAlloc_regs]
    exact ⟨congrArg (fun l => ({ data := valueLE l, poison := _ } : Resp)) (if_pos hv), rfl, rfl⟩
  · refine gives_of_reach (f := fun d => d.hbmRead req.toNat a.toNat len .uncorrectable false) hreach rfl (Dev.hbmRead_eq _ _ hbase hc hx _) ?_
    rw [Dev.mbRead_uncorrectable len hv hmiss hmode]
    rw [Dev.bytes_congr (Dev.uncorrPage_mem _ _ _), Dev.uncorrPage_hbm]
    exact ⟨congrArg (fun l => ({ data := valueLE l, poison := true } : Resp)) (if_pos hv), Dev.uncorrPage_answered _ _ _ hpage _⟩
  · exact gives_of_reach (f := fun d => d.hbmRead req.toNat a.toNat len out false) hreach rfl (Dev.hbmRead_refused _ _ hc _ _) (Dev.refuse_keeps ..)
  · refine gives_of_reach (f := fun d => d.hbmWrite req.toNat a.toNat bytes bad) hreach rfl (Dev.hbmWrite_eq _ _ hbase hc) ?_
    refine ⟨rfl, ?_, fun b hb => Dev.byte_putMem_out _ _ _ _ _ _ hb, ?_⟩
    · rw [Dev.bytes_resp, Dev.bytes_congr (Dev.putMem_mem s.dev 99 a.toNat bytes _), Dev.bytes_setBytes]
    · exact Dev.putMem_valid _ hbase hx hpos hline hvalid
  · exact gives_of_reach (f := fun d => d.hbmWrite req.toNat a.toNat bytes bad) hreach rfl (Dev.hbmWrite_refused _ _ hc) (Dev.refuse_keeps ..)

/-- Settles O49: the refresh rate is the highest threshold passed, and an access to a stack goes through its merge buffer. -/
theorem hbmPagesAndAccesses : Obligations.HbmPagesAndAccesses := ⟨refreshRateHolds, hbmAccesses⟩

end Sys2Proof.Claims
end

section
/-!
HBM: the merge buffer, the valid bits and the scrubbers (20 R436-R442).
-/
namespace Sys2Proof.Machine

/-! Write-backs, on the entries of a merge buffer -/

/-- An entry as its write-back leaves it. -/
def MbEntry.clean (e : MbEntry) : MbEntry := { e with complete := true, dirty := false, mask := 0 }

/-- The entries once the first dirty one of a page is written back. -/
def writtenBack (mb : List MbEntry) (p : Nat) : List MbEntry :=
  match mb.find? (fun e => e.page == p && e.dirty) with
  | none => mb
  | some e => mb.map (fun x => if x = e then e.clean else x)

/-- How many entries of a page are dirty. -/
def dirtyOf (q : Nat) (mb : List MbEntry) : Nat := mb.countP (fun e => e.page == q && e.dirty)

theorem writtenBack_pages (mb : List MbEntry) (p : Nat) : (writtenBack mb p).map (·.page) = mb.map (·.page) := by
  unfold writtenBack
  split
  case h_1 => rfl
  case h_2 e _ =>
    rw [List.map_map]
    refine List.map_congr_left fun x _ => ?_
    by_cases hx : x = e
    · rw [Function.comp_apply, if_pos hx, hx]
      rfl
    · rw [Function.comp_apply, if_neg hx]

/-- An entry that is clean where `e` stood is dirty only where it is another than `e`. -/
theorem dirtyOf_map_clean (q : Nat) (mb : List MbEntry) (e : MbEntry) :
    dirtyOf q (mb.map (fun x => if x = e then e.clean else x)) = mb.countP (fun x => (x.page == q && x.dirty) && decide (x ≠ e)) := by
  rw [dirtyOf, List.countP_map]
  refine List.countP_congr fun x _ => ?_
  by_cases hx : x = e
  · simp [hx, MbEntry.clean]
  · simp [hx]

theorem dirtyOf_writtenBack_le (q : Nat) (mb : List MbEntry) (p : Nat) : dirtyOf q (writtenBack mb p) ≤ dirtyOf q mb := by
  unfold writtenBack
  split
  · exact le_refl _
  · rw [dirtyOf_map_clean]
    exact List.countP_mono_left fun x _ hx => by simp_all

theorem dirtyOf_writtenBack_lt (p : Nat) (mb : List MbEntry) (h : 0 < dirtyOf p mb) : dirtyOf p (writtenBack mb p) < dirtyOf p mb := by
  obtain ⟨x, hx, hdirty⟩ := List.countP_pos_iff.mp h
  unfold writtenBack
  split
  case h_1 hnone => exact absurd hdirty (List.find?_eq_none.mp hnone x hx)
  case h_2 e he =>
    have hfound := List.find?_some he
    have hthere : 0 < (mb.filter (fun x => !decide (x ≠ e))).countP (fun x => x.page == p && x.dirty) :=
      List.countP_pos_iff.mpr ⟨e, List.mem_filter.mpr ⟨List.mem_of_find?_eq_some he, by simp⟩, hfound⟩
    rw [dirtyOf_map_clean, ← List.countP_filter, dirtyOf, List.countP_eq_countP_filter_add mb _ (fun x => decide (x ≠ e))]
    exact Nat.lt_add_of_pos_right hthere

/-- One write-back for each entry of a page leaves none of its entries dirty. -/
theorem dirtyOf_foldl (l : List Nat) (mb : List MbEntry) (h : ∀ q, dirtyOf q mb ≤ l.count q) (q : Nat) :
    dirtyOf q (l.foldl writtenBack mb) = 0 := by
  induction l generalizing mb with
  | nil => exact Nat.le_zero.mp (h q)
  | cons p l ih =>
    refine ih _ fun r => ?_
    have hle := dirtyOf_writtenBack_le r mb p
    have hr := h r
    rw [List.count_cons] at hr
    by_cases hp : p = r
    · subst hp
      rw [if_pos (beq_self_eq_true p)] at hr
      rcases Nat.eq_zero_or_pos (dirtyOf p mb) with hzero | hpos
      · omega
      · have hlt := dirtyOf_writtenBack_lt p mb hpos
        omega
    · rw [if_neg (by simpa using hp)] at hr
      omega

theorem foldl_writtenBack_pages (l : List Nat) (mb : List MbEntry) : (l.foldl writtenBack mb).map (·.page) = mb.map (·.page) := by
  induction l generalizing mb with
  | nil => rfl
  | cons p l ih => rw [List.foldl_cons, ih, writtenBack_pages]

/-- A flush leaves no entry dirty. -/
theorem flushed_clean (mb : List MbEntry) : ∀ e ∈ (mb.map (·.page)).foldl writtenBack mb, e.dirty = false := by
  intro e he
  have hcount := dirtyOf_foldl (mb.map (·.page)) mb (fun q => by
    rw [dirtyOf, List.count_eq_countP, List.countP_map]
    exact List.countP_mono_left fun x _ hx => by simp_all) e.page
  have hnot := List.countP_eq_zero.mp hcount e he
  simpa using hnot

/-! The merge buffer of a stack -/

open Sys2Proof.Claims

section
variable {d : Dev} {x : Nat}

theorem Dev.mbWriteBack_mb (page : Nat) : ((d.mbWriteBack x page false).hbm x).mb = writtenBack (d.hbm x).mb page := by
  rw [Dev.mbWriteBack_clean, writtenBack]
  cases hfind : (d.hbm x).mb.find? (fun e => e.page == page && e.dirty) with
  | none => rfl
  | some e => exact congrArg Hbm.mb (Dev.hbm_setHbm_same _)

theorem Dev.foldl_mbWriteBack_mb (l : List Nat) (d : Dev) :
    ((l.foldl (fun (d : Dev) p => d.mbWriteBack x p false) d).hbm x).mb = l.foldl writtenBack (d.hbm x).mb := by
  induction l generalizing d with
  | nil => rfl
  | cons p l ih => rw [List.foldl_cons, ih, Dev.mbWriteBack_mb, List.foldl_cons]

theorem Dev.mbFlush_mb : ((d.mbFlush x).hbm x).mb = ((d.hbm x).mb.map (·.page)).foldl writtenBack (d.hbm x).mb :=
  Dev.foldl_mbWriteBack_mb _ _

theorem Dev.MemoryKeeps.mbFlush (d : Dev) (x : Nat) : d.MemoryKeeps (d.mbFlush x) := .foldl _ _ (fun p _ e => .mbWriteBack e x p) d

theorem Dev.mbFlush_poison (d : Dev) (x : Nat) : (d.mbFlush x).poison = d.poison :=
  foldl_keeps (P := fun e : Dev => e.poison = d.poison) _ _ rfl fun p _ e he => by
    rw [Dev.mbWriteBack_clean]
    split <;> exact he

theorem Dev.mbFlush_mem (d : Dev) (x : Nat) : (d.mbFlush x).mem = d.mem := foldl_mem _ (fun e p => Dev.mbWriteBack_mem e x p false) _ _

/-- A write of HBM_CTRL stores MODE. -/
theorem Dev.storeAll_hbmCtrl (d : Dev) (x : Fin 2) (v : Nat) : d.storeAll (pageHbm x) 0x40 4 v =
    d.setF (pgHbm x) F.HBM_CTRL_MODE (bitsOf (BitVec.ofNat 32 v) 0 2) := by
  have hword : wordAt (pageHbm x) 0x40 = some ⟨0x40, 1, 0, 1, 0, false, [⟨0, 2, .rwl, 0, false⟩, ⟨2, 1, .wo, 0, false⟩]⟩ := rfl
  exact (Dev.storeAll_word _ _ (by decide) hword).trans (congrArg (d.setReg _) (putBits_bitsOf _ _ 0 2))

section
variable (d : Dev) {x first m n : Nat} (hn : n = Nat.min m (8388608 - first))
include hn

theorem Dev.hbmInvalidate_byte {lo : Nat} (hlo : lo = hbmBase x + 2048 * first) (a : Nat) :
    (d.hbmInvalidate x first m).byte a = if a < lo ∨ lo + 2048 * n ≤ a then d.byte a else 0 := by
  subst hlo hn
  have hmem : (d.hbmInvalidate x first m).mem = Table.keep (fun a => decide (a < hbmBase x + 2048 * first) ||
      decide (hbmBase x + 2048 * first + 2048 * Nat.min m (8388608 - first) ≤ a)) d.mem := rfl
  rw [Dev.byte, hmem, Table.get_keep]
  simp only [Bool.or_eq_true, decide_eq_true_eq, Dev.byte]

theorem Dev.hbmInvalidate_valid (p : Nat) : Table.get false ((d.hbmInvalidate x first m).hbm x).valid p =
    if p < first ∨ first + n ≤ p then Table.get false (d.hbm x).valid p else false := by
  subst hn
  have hh : ((d.hbmInvalidate x first m).hbm x).valid =
      Table.keep (fun q => decide (q < first) || decide (first + Nat.min m (8388608 - first) ≤ q)) (d.hbm x).valid :=
    congrArg Hbm.valid (Dev.hbm_setHbm_same _)
  rw [hh, Table.get_keep]
  simp only [Bool.or_eq_true, decide_eq_true_eq]

end

theorem Dev.hbmInvalidate_regs (d : Dev) (x first m : Nat) : (d.hbmInvalidate x first m).regs = d.regs := rfl

theorem Dev.hbmInvalGo_eq (hlow : hbmBase x ≤ d.r64 (pgHbm x) 0x50) (hhigh : d.r64 (pgHbm x) 0x50 < hbmBase (x + 1)) :
    d.hbmInvalGo x = d.hbmInvalidate x ((d.r64 (pgHbm x) 0x50 - hbmBase x) / 2048) (d.f (pgHbm x) F.HBM_INVAL_PAGES_PAGES) := by
  unfold Dev.hbmInvalGo
  exact if_neg fun h => h.elim (Nat.not_lt.mpr hlow) (Nat.not_le.mpr hhigh)

theorem Dev.setF_hbm (d : Dev) (p : Nat) (f : Fld) (v x : Nat) : (d.setF p f v).hbm x = d.hbm x := by
  rw [Dev.hbm, Dev.setF_hbms, Dev.hbm]

/-- The one dirty entry of a page is written back once it is old enough. -/
theorem Dev.mbAged_eq {before after : List MbEntry} {e : MbEntry} (hmb : (d.hbm x).mb = before ++ e :: after) (hdirty : e.dirty = true)
    (honly : ∀ y ∈ before ++ after, y.page ≠ e.page) (hage : e.last + 6000 * d.f (pgHbm x) F.HBM_MB_AGE_AGE ≤ d.tick) :
    d.mbAged x e.page false = d.setHbm x { d.hbm x with mb := before ++ e.clean :: after } := by
  have hother {y : MbEntry} (hy : y ∈ before ++ after) : y ≠ e := fun h => honly y hy (congrArg MbEntry.page h)
  have hfind : (before ++ e :: after).find? (fun y => y.page == e.page && y.dirty) = some e := by
    rw [List.find?_append, List.find?_eq_none.mpr fun y hy => by simp [honly y (List.mem_append_left _ hy)], Option.none_or,
      List.find?_cons_of_pos (by simp [hdirty])]
  have hkeep {l : List MbEntry} (hl : ∀ y ∈ l, y ≠ e) : l.map (fun y => if y = e then e.clean else y) = l :=
    (List.map_congr_left fun y hy => if_neg (hl y hy)).trans (List.map_id' l)
  have hany : (d.hbm x).mb.any (fun y => y.page == e.page && y.dirty && decide (y.last + 6000 * d.f (pgHbm x) F.HBM_MB_AGE_AGE ≤ d.tick)) = true := by
    rw [hmb, List.any_eq_true]
    exact ⟨e, by simp, by simp [hdirty, hage]⟩
  rw [Dev.mbAged, if_pos hany, Dev.mbWriteBack_clean, hmb, hfind]
  dsimp only
  rw [List.map_append, List.map_cons, if_pos rfl]
  exact congrArg (fun l => d.setHbm x { d.hbm x with mb := l }) (congrArg₂ (fun l m => l ++ e.clean :: m)
    (hkeep fun y hy => hother (List.mem_append_left _ hy)) (hkeep fun y hy => hother (List.mem_append_right _ hy)))

end

end Sys2Proof.Machine

namespace Sys2Proof.Claims
open Sys2Proof.Machine

/-- A flush in HBM_CTRL, with a mode. -/
theorem hctrl : ∀ m < 4, bitAt (BitVec.ofNat 32 (4 + m)) 2 = true ∧ bitsOf (BitVec.ofNat 32 (4 + m)) 0 2 = m := by decide

theorem hbmPages : HbmPages := by
  intro s w x mode page before after e
  refine ⟨fun hclk hmb hpage hdirty honly hage => ?_, fun hacc => ?_, ?_⟩
  · refine does_of_clocked (f := fun d => d.mbAged x page.toNat false) hclk rfl ?_
    rw [← hpage]
    exact Dev.mbAged_eq hmb hdirty honly hage
  · have hmode := mode.isLt
    refine hacc.gives (pgHbm_aligned x) (by decide) (pageAt_hbm x) (by omega) rfl
      ((s.dev.pageWrite_hbm w 4 _ (by decide) rfl).trans (if_pos rfl)) ?_
    rw [if_pos (hctrl _ hmode).1, Dev.storeAll_hbmCtrl, (hctrl _ hmode).2, show (pageHbm x).inst = x from rfl]
    refine ⟨?_, ?_, ?_, ?_, ?_, Dev.wrote_resp _ _ _ _⟩
    · rw [Dev.wrote_hbm, Dev.mbFlush_mb]
      exact flushed_clean _
    · rw [Dev.wrote_hbm, Dev.mbFlush_mb, foldl_writtenBack_pages, Dev.setF_hbm]
    · rw [Dev.wrote_f, Dev.f_congr (Dev.reg_congr (Dev.MemoryKeeps.mbFlush _ _).regs _), Dev.f_setF_same _ _ _ _ (by decide)]
      exact Nat.mod_eq_of_lt hmode
    · rw [Dev.wrote_mem, Dev.mbFlush_mem, Dev.setF_mem]
    · rw [Dev.wrote_poison, Dev.mbFlush_poison, Dev.setF_poison]
  · intro hacc base first n lo hlow hhigh
    refine hacc.gives (pgHbm_aligned x) (by decide) (pageAt_hbm x) (by decide) rfl
      ((s.dev.pageWrite_hbm w 4 _ (by decide) rfl).trans (if_neg (by decide))) ?_
    rw [if_pos rfl, if_pos (by decide)]
    have hgo : s.dev.hbmInvalGo x = s.dev.hbmInvalidate x first (s.dev.f (pgHbm x) F.HBM_INVAL_PAGES_PAGES) := Dev.hbmInvalGo_eq hlow hhigh
    rw [show (pageHbm x).inst = x from rfl, hgo]
    have hbyte := Dev.hbmInvalidate_byte s.dev (x := x) (first := first) (n := n) rfl (lo := lo) rfl
    have hvalid := Dev.hbmInvalidate_valid s.dev (x := x) (first := first) (n := n) rfl
    have hregs := Dev.hbmInvalidate_regs s.dev x first (s.dev.f (pgHbm x) F.HBM_INVAL_PAGES_PAGES)
    simp only [Dev.wrote_byte, Dev.wrote_hbm, Dev.wrote_regs]
    clear_value lo n first base
    exact ⟨fun a hlo hhi => (hbyte a).trans (if_neg (by omega)), fun a hout => (hbyte a).trans (if_pos hout),
      fun p hlo hhi => (hvalid p).trans (if_neg (by omega)), fun p hout => (hvalid p).trans (if_pos hout), hregs, rfl⟩

end Sys2Proof.Claims

namespace Sys2Proof.Machine

variable {d : Dev} {x page : Nat}

/-! The scrubbers -/

section
variable (hp : d.live (pgScrub x) = true) (hen : d.on (pgScrub x) F.SCR_CTRL_PATROL_EN = true) (hh : d.live (pgHbm x) = true)
  (hc : d.live (pgCode x) = true) (hmode : d.f (pgHbm x) F.HBM_CTRL_MODE = 0) (hvalid : Table.get false (d.hbm x).valid page = true)
  (hmiss : d.mbMisses x page)
include hp hen hh hc hmode hvalid

/-- The patrol reads a valid page. -/
theorem Dev.hbmPatrol_eq (out : Decode) : d.hbmPatrol x page out = (d.mbRead x (hbmBase x + 2048 * page) 2048 out).1 :=
  if_pos (by simp [hp, hen, hh, hc, hmode, hvalid])

include hmiss

theorem Dev.hbmPatrol_uncorrectable : d.hbmPatrol x page .uncorrectable = d.uncorrPage x page := by
  have hpage : (hbmBase x + 2048 * page - hbmBase x) / 2048 = page := by omega
  rw [Dev.hbmPatrol_eq hp hen hh hc hmode hvalid, Dev.mbRead_uncorrectable _ (by rw [hpage]; exact hvalid) (by rw [hpage]; exact hmiss) hmode,
    hpage]

theorem Dev.hbmPatrol_clean : d.hbmPatrol x page .clean =
    d.mbAlloc x { page := page, complete := true, dirty := false, mask := 0, last := d.tick } := by
  have hpage : (hbmBase x + 2048 * page - hbmBase x) / 2048 = page := by omega
  rw [Dev.hbmPatrol_eq hp hen hh hc hmode hvalid, Dev.mbRead_clean _ (by rw [hpage]; exact hvalid) (by rw [hpage]; exact hmiss) hmode,
    hpage]

end

/-- A page of a range scrub changes no byte. -/
theorem Dev.scrubPage_mem (d : Dev) (x : Nat) (f : ScrubPage) : (d.scrubPage x f).mem = d.mem := by
  unfold Dev.scrubPage
  dsimp only
  refine ite_mem rfl (ite_mem ?_ (Dev.mbRead_mem ..))
  rw [Dev.forN_mem _ _ _ fun i e => ite_mem (Dev.setPoison_mem ..) rfl, Dev.mbRead_mem]

theorem Dev.setB_hbm (d : Dev) (p : Nat) (f : Fld) (b : Bool) (x : Nat) : (d.setB p f b).hbm x = d.hbm x := Dev.setF_hbm ..

theorem Dev.irq_hbm (d : Dev) (p i x : Nat) : (d.irq p i).hbm x = d.hbm x := Dev.setF_hbm ..

/-- The pages that a range scrub finds in its range. -/
def Dev.scrubPages (d : Dev) (x first n : Nat) (found : List ScrubPage) : Dev :=
  found.foldl (fun (d : Dev) f => if first ≤ f.page ∧ f.page < first + n then d.scrubPage x f else d) d

theorem Dev.scrubPages_mem (d : Dev) (x first n : Nat) (found : List ScrubPage) : (d.scrubPages x first n found).mem = d.mem :=
  foldl_mem _ (fun e f => ite_mem (Dev.scrubPage_mem e x f) rfl) _ _

/-- The stack's status once a range scrub has left the queue. -/
def Dev.scrubEnded (e : Dev) (x : Nat) (rest : List (Nat × Nat)) : Dev :=
  (if rest.isEmpty then e.setB (pgScrub x) F.SCR_STAT_RANGE_BUSY false else e).irq (pgScrub x) 1

theorem Dev.scrubEnded_hbm (e : Dev) (x : Nat) (rest : List (Nat × Nat)) : (e.scrubEnded x rest).hbm x = e.hbm x := by
  rw [Dev.scrubEnded, Dev.irq_hbm]
  split
  · rw [Dev.setB_hbm]
  · rfl

theorem Dev.scrubEnded_mem (e : Dev) (x : Nat) (rest : List (Nat × Nat)) : (e.scrubEnded x rest).mem = e.mem := by
  rw [Dev.scrubEnded, Dev.irq_mem]
  exact ite_mem (Dev.setB_mem ..) rfl

theorem Dev.scrubEnded_busy (e : Dev) (x : Nat) : (e.scrubEnded x []).on (pgScrub x) F.SCR_STAT_RANGE_BUSY = false := by
  rw [Dev.scrubEnded, Dev.irq, Dev.on_setF_apart _ _ (by decide)]
  exact Dev.on_setB_same _ _ _ _ rfl (by decide)

/-- The end of the first range scrub. -/
theorem Dev.scrubDone_eq {first n : Nat} {rest : List (Nat × Nat)} (h : (d.hbm x).scrubs = (first, n) :: rest) (found : List ScrubPage) :
    d.scrubDone x found =
      let e := d.scrubPages x first n found
      (e.setHbm x { e.hbm x with scrubs := rest }).scrubEnded x rest := by
  simp only [Dev.scrubDone, h, Dev.scrubPages, Dev.scrubEnded]

end Sys2Proof.Machine

namespace Sys2Proof.Claims
open Sys2Proof.Machine

theorem hbmScrubbing : HbmScrubbing := by
  intro s w x page found range rest p
  refine ⟨fun hclk hp hen hh hc hmode hvalid hmiss => ⟨?_, ?_⟩, fun hacc => ?_, fun hclk hscrubs => ?_⟩
  · have hpage : hbmBase x + 2048 * page.toNat < 2 ^ 64 := by
      have hlt := page.isLt
      have hx := x.isLt
      simp only [hbmBase]
      omega
    refine gives_of_clocked (f := fun d => d.hbmPatrol x page.toNat .uncorrectable) hclk rfl
      (Dev.hbmPatrol_uncorrectable hp hen hh hc hmode hvalid hmiss) ?_
    exact ⟨Dev.uncorrPage_address _ _ _ hpage, (Dev.uncorrPage_log _ _ _ hpage).2, Dev.uncorrPage_mem _ _ _, Dev.uncorrPage_hbms _ _ _⟩
  · refine gives_of_clocked (f := fun d => d.hbmPatrol x page.toNat .clean) hclk rfl
      (Dev.hbmPatrol_clean hp hen hh hc hmode hvalid hmiss) ?_
    exact ⟨⟨_, Dev.mem_mbAlloc _, rfl, rfl, rfl⟩, Dev.mbAlloc_mem _ _ _, Dev.mbAlloc_regs _⟩
  · refine hacc.gives (pgScrub_aligned x) (by decide) (pageAt_scrub x) (by decide) rfl
      ((s.dev.pageWrite_scrub w 4 _ (by decide) rfl).trans (if_pos rfl)) ?_
    rw [if_pos (by decide), show (pageScrub x).inst = x from rfl, Dev.scrGo, Dev.wrote_hbm, Dev.wrote_on, Dev.wrote_mem]
    refine ⟨?_, Dev.on_setB_same _ _ _ _ rfl (by decide), ?_, Dev.wrote_resp _ _ _ _⟩
    · rw [Dev.setB_hbm, Dev.hbm_setHbm_same]
    · rw [Dev.setB_mem, Dev.setHbm_mem]
  · obtain ⟨first, n⟩ := range
    refine gives_of_clocked (f := fun d => d.scrubDone x found) hclk rfl (Dev.scrubDone_eq hscrubs found) ?_
    refine ⟨?_, fun hlast => ?_, Dev.bitAt_irq _ (by decide), ?_⟩
    · rw [Dev.scrubEnded_hbm, Dev.hbm_setHbm_same]
    · rw [hlast, Dev.scrubEnded_busy]
    · rw [Dev.scrubEnded_mem, Dev.setHbm_mem, Dev.scrubPages_mem]

/-- Settles O50: write-backs clean the merge buffer, and the scrubbers work through it. -/
theorem hbmPagesAndScrubbing : Obligations.HbmPagesAndScrubbing := ⟨hbmPages, hbmScrubbing⟩

end Sys2Proof.Claims
end

section
/-!
The watchdogs (13 R291-R293).
-/
namespace Sys2Proof.Machine

section
variable (d : Dev) {p : PageInfo} (w : Who) {o : Nat} (len v : Nat) (ho : 0x40 ≤ o)
include ho

theorem Dev.pageWrite_wd (hk : p.kind = .wd) : d.pageWrite w p o len v =
    if o = 0x50 then (if bitAt (BitVec.ofNat 32 v) 0 then d.wdAck (.cas p.inst) else d) else d.storeAll p o len v := by
  rw [Dev.pageWrite, if_neg (by omega), hk]
  simp only [Dev.writeCasement, hk]

theorem Dev.pageWrite_wdc (hk : p.kind = .wdc) : d.pageWrite w p o len v =
    if o = 0x4C then d.wdFeed (.core p.inst)
    else if o = 0x50 then (if bitAt (BitVec.ofNat 32 v) 0 then d.wdAck (.core p.inst) else d) else d.storeAll p o len v := by
  rw [Dev.pageWrite, if_neg (by omega), hk]
  simp only [Dev.writeCasement, hk]

end

/-- The first feed of a tick, of a page that is enabled and awake (13 R292). -/
theorem Dev.wdFeed_core {d : Dev} {k : Nat} (hlive : d.live (pgWdCore k) = true) (hfirst : Table.get 0 d.wds (64 + k) ≠ d.tick + 1) :
    let p := pgWdCore k
    let fed : Dev := { d with wds := Table.put 0 d.wds (64 + k) (d.tick + 1) }
    d.wdFeed (.core k) =
      if d.on p F.WD_STATUS_EXPIRED || decide (6000 * d.f p F.WD_MAX_MAX ≤ d.wdElapsed (.core k)) then fed.setB p F.WD_STATUS_FEED_IGNORED true
      else if d.wdElapsed (.core k) < 6000 * d.f p F.WD_MIN_MIN then fed.wdExpire (.core k) true
      else (fed.wdWindow (.core k)).inc p F.WD_FEEDS_FEEDS := by
  intro p fed
  have helapsed : fed.wdElapsed (.core k) = d.wdElapsed (.core k) :=
    congrArg (d.tick - ·) (Table.get_put_ne (i := 64 + k) (j := k) 0 0 d.wds (d.tick + 1) (by omega))
  have hfeeds : (!d.live (Wd.core k).page || Table.get 0 d.wds (64 + (Wd.core k).key) == d.tick + 1) = false := by
    rw [show (Wd.core k).page = pgWdCore k from rfl, show (Wd.core k).key = k from rfl, hlive, Bool.not_true, Bool.false_or]
    exact beq_eq_false_iff_ne.mpr hfirst
  rw [Dev.wdFeed, hfeeds, ← helapsed]
  exact if_neg Bool.false_ne_true

/-! The expiry -/

section
variable (d : Dev) (e p : Nat)

theorem Dev.reg_pulse (a : Nat) : (d.pulse e).reg a = d.reg a := rfl

theorem Dev.f_pulse (f : Fld) : (d.pulse e).f p f = d.f p f := rfl

theorem Dev.on_pulse (f : Fld) : (d.pulse e).on p f = d.on p f := rfl

end

section
variable (d : Dev) (w : Wd) (early : Bool)

/-- An expiry before the reset that it may ask for and the Shutter matrix. -/
def Dev.wdMarked : Dev :=
  ((((d.setB w.page F.WD_STATUS_EXPIRED true).setB w.page F.WD_STATUS_CAUSE early).inc w.page F.WD_EXP_CNT_EXPIRIES).irq w.page 0).pulse w.event

/-- The reset that a watchdog asks for (13 R293). -/
def Wd.resetCause : Wd → Nat × Nat
  | .core k => (3, k)
  | .cas c => (4, c)

/-- An expiry before the Shutter matrix. -/
def Dev.wdAsked : Dev :=
  if d.f w.page F.WD_CTRL_ACTION = 2 then { d.wdMarked w early with sys := { d.sys with resetReq := some w.resetCause } } else d.wdMarked w early

theorem Dev.wdMarked_action : (d.wdMarked w early).f w.page F.WD_CTRL_ACTION = d.f w.page F.WD_CTRL_ACTION := by
  rw [Dev.wdMarked, Dev.f_pulse, Dev.irq, Dev.f_setF_apart _ _ rfl, Dev.inc, Dev.f_setF_apart _ _ rfl, Dev.setB, Dev.f_setF_apart _ _ rfl,
    Dev.setB, Dev.f_setF_apart _ _ rfl]

theorem Dev.wdExpire_eq : d.wdExpire w early = (d.wdAsked w early).shutter := by
  unfold Dev.wdAsked
  rw [← d.wdMarked_action w early]
  cases w <;> rfl

theorem Dev.wdAsked_reg (a : Nat) : (d.wdAsked w early).reg a = (d.wdMarked w early).reg a := by
  unfold Dev.wdAsked
  split <;> rfl

theorem Dev.wdAsked_mem : (d.wdAsked w early).mem = d.mem := by
  unfold Dev.wdAsked
  split <;> rfl

theorem Dev.wdAsked_pulsesOf (e : Nat) : (d.wdAsked w early).pulsesOf e = (d.wdMarked w early).pulsesOf e := by
  unfold Dev.wdAsked
  split <;> rfl

theorem Dev.wdAsked_standby : (d.wdAsked w early).sys.standby = d.sys.standby := by
  unfold Dev.wdAsked
  split <;> rfl

theorem Dev.wdAsked_reset (h : d.f w.page F.WD_CTRL_ACTION = 2) : (d.wdAsked w early).sys.resetReq.isSome = true := by
  unfold Dev.wdAsked
  rw [if_pos h]
  rfl

theorem Dev.wdMarked_expired : (d.wdMarked w early).on w.page F.WD_STATUS_EXPIRED = true := by
  rw [Dev.wdMarked, Dev.on_pulse, Dev.irq, Dev.on_setF_apart _ _ rfl, Dev.inc, Dev.on_setF_apart _ _ rfl, Dev.setB, Dev.on_setF_apart _ _ rfl,
    Dev.on_setB_same _ _ _ _ rfl (by decide)]

theorem Dev.wdMarked_cause : (d.wdMarked w early).on w.page F.WD_STATUS_CAUSE = early := by
  rw [Dev.wdMarked, Dev.on_pulse, Dev.irq, Dev.on_setF_apart _ _ rfl, Dev.inc, Dev.on_setF_apart _ _ rfl,
    Dev.on_setB_same _ _ _ _ rfl (by decide)]

theorem Dev.wdMarked_irq : bitAt ((d.wdMarked w early).reg (w.page + 0x24)) 0 = true := by
  rw [Dev.wdMarked, Dev.reg_pulse]
  exact Dev.bitAt_irq (d := _) (by decide)

theorem Dev.wdMarked_pulsesOf : (d.wdMarked w early).pulsesOf w.event = d.pulsesOf w.event + 1 := by
  rw [Dev.wdMarked, Dev.pulsesOf_pulse]
  rfl

end

/-- Clocked logic runs outside standby only. -/
theorem Dev.standby_of_clocked {d : Dev} (h : d.clocksStill = false) : d.sys.standby = false := by
  rw [Dev.clocksStill, Bool.or_eq_false_iff, Bool.or_eq_false_iff] at h
  exact h.1.1

/-- No register of a watchdog is of the matrix. -/
theorem not_matrixReg_wd (x : WdPlace) {o : Nat} (ho : o < 0x1000) : ¬ matrixReg (x.wd.page + o) := by
  cases x with
  | core k => simp only [WdPlace.wd, Wd.page, pgWdCore, matrixReg]; omega
  | cas c => simp only [WdPlace.wd, Wd.page, pgWdCas, matrixReg]; omega

end Sys2Proof.Machine

namespace Sys2Proof.Claims
open Sys2Proof.Machine

/-- Settles O32: a feed, an expiry and an acknowledgement, each of which the matrix follows. -/
theorem watchdogsExpire : Obligations.WatchdogsExpire := by
  intro s d
  refine ⟨fun k w v hacc hlive hfirst => ?_, fun x hclk => ?_, fun k w hacc => ?_, fun c w hacc => ?_⟩
  · refine hacc.wrote (pgWdCore_aligned k) (by decide) (pageAt_wdCore k) v.isLt rfl ?_
    rw [Dev.pageWrite_wdc _ _ _ _ (by decide) rfl, if_pos rfl]
    exact Dev.wdFeed_core hlive hfirst
  · refine ⟨fun hdue => does_of_clocked (f := fun d => d.wdLate x.wd) hclk rfl ?_, fun hdue => ?_⟩
    · rw [Dev.wdLate]
      exact if_neg (ne_true_of_eq_false hdue)
    · have hstand : (d.wdAsked x.wd false).sys.standby = false := (d.wdAsked_standby x.wd false).trans (Dev.standby_of_clocked hclk)
      obtain ⟨hreg, hrest, -, -, hsys⟩ := Dev.MatrixKeeps.shutter (d.wdAsked x.wd false)
      refine gives_of_clocked (f := fun d => d.wdLate x.wd) hclk rfl ((if_pos hdue).trans (d.wdExpire_eq x.wd false)) ?_
      have hword (o : Nat) (ho : o < 0x1000) : (d.wdAsked x.wd false).shutter.reg (x.wd.page + o) = (d.wdMarked x.wd false).reg (x.wd.page + o) :=
        (hreg _ (not_matrixReg_wd x ho)).trans (d.wdAsked_reg x.wd false _)
      refine ⟨?_, ?_, ?_, ?_, ?_, fun haction => ?_⟩
      · exact (Dev.on_congr (hword _ (by decide))).trans (d.wdMarked_expired x.wd false)
      · exact (Dev.on_congr (hword _ (by decide))).trans (d.wdMarked_cause x.wd false)
      · rw [hword _ (by decide)]
        exact d.wdMarked_irq x.wd false
      · have hpulses := congrArg (fun e : Dev => e.pulsesOf x.wd.event) hrest
        exact hpulses.trans ((d.wdAsked_pulsesOf x.wd false _).trans (d.wdMarked_pulsesOf x.wd false))
      · exact (congrArg Dev.mem hrest).trans (d.wdAsked_mem x.wd false)
      · rw [hsys hstand]
        exact d.wdAsked_reset x.wd false haction
  · refine hacc.wrote (pgWdCore_aligned k) (by decide) (pageAt_wdCore k) (by decide) rfl ?_
    rw [Dev.pageWrite_wdc _ _ _ _ (by decide) rfl, if_neg (by decide), if_pos rfl, if_pos (by decide)]
    rfl
  · refine hacc.wrote (pgWdCas_aligned c) (by decide) (pageAt_wdCas c) (by decide) rfl ?_
    rw [Dev.pageWrite_wd _ _ _ _ (by decide) rfl, if_pos rfl, if_pos (by decide)]
    rfl

end Sys2Proof.Claims
end

section
/-!
The flits of the buses (05 R126, R127, R137; 04 R94).
-/
namespace Sys2Proof.Machine

variable {d : Dev}

/-! The first transfer of a flit again and its loss (05 R137) -/

theorem Dev.xport_retry (n : Nat) : d.xport n false = d.inc (pgSash n) F.XPORT_CNT_RETRY := rfl

theorem Dev.xport_dropped (n : Nat) : (d.xport n true).on (pgSash n) F.SASH_STATUS_XPORT_DROP = true := by
  rw [Dev.xport, if_pos rfl, Dev.irq, Dev.on_setF_apart _ _ rfl, Dev.on_setB_same _ _ _ _ rfl (by decide)]

theorem Dev.xport_mem (n : Nat) (drop : Bool) : (d.xport n drop).mem = d.mem := by
  unfold Dev.xport
  split
  · rw [Dev.irq_mem, Dev.setB_mem, Dev.inc_mem]
  · exact Dev.inc_mem ..

theorem Dev.retryLine_lost (d : Dev) (n a : Nat) : d.retryLine n a true false = (d.xport n true).setPoison a true := rfl

theorem Dev.retryAccess_lost (d : Dev) (n : Nat) : d.retryAccess n true = { d.xport n true with resp := { error := some 0 } } := rfl

theorem Dev.poisoned_setPoison (d : Dev) (a : Nat) (b : Bool) : (d.setPoison a b).poisoned a = b := Table.get_put_same false _ _ b

theorem Dev.on_setPoison (d : Dev) (a : Nat) (b : Bool) (p : Nat) (f : Fld) : (d.setPoison a b).on p f = d.on p f := rfl

/-- A commit whose CRC fails for the first time is sent again. -/
theorem Dev.retryCommit_again {k : Nat} {f : Flit} (hf : d.flits[k]? = some f) (hs : f.since = none) (hr : f.retried = false) :
    d.retryCommit k = { d.inc (pgSash f.sash) F.XPORT_CNT_RETRY with flits := d.flits.set k { f with due := f.due + 8, retried := true } } := by
  rw [Dev.retryCommit, hf]
  dsimp only
  rw [hs, hr, if_neg (by decide), if_neg (by decide), Dev.xport_retry, Dev.inc_flits]

/-! Commits -/

theorem Dev.commitLand_none (h : ∀ f ∈ d.flits, f.since.isSome = true ∨ d.tick < f.due) : d.commitLand = d := by
  have hnot (f : Flit) (hf : f ∈ d.flits) : (f.since.isNone && decide (f.due ≤ d.tick)) = false := by
    rcases h f hf with hs | ht
    · rw [← Option.not_isSome, hs]; rfl
    · rw [decide_eq_false (by omega), Bool.and_false]
  have hnow : d.flits.filter (fun f => (f.since.isNone && decide (f.due ≤ d.tick)) && f.fence.isNone) = [] :=
    List.filter_eq_nil_iff.mpr fun f hf => by simp [hnot f hf]
  have hrest : d.flits.filter (fun f => !((f.since.isNone && decide (f.due ≤ d.tick)) && f.fence.isNone)) = d.flits :=
    List.filter_eq_self.mpr fun f hf => by simp [hnot f hf]
  have hkept : d.flits.map (fun f => if f.since.isNone && decide (f.due ≤ d.tick) then { f with since := some d.tick } else f) = d.flits :=
    (List.map_congr_left fun f hf => if_neg (ne_true_of_eq_false (hnot f hf))).trans (List.map_id _)
  simp only [Dev.commitLand, hnow, hrest, hkept, List.foldl_nil]

/-- The one commit of the bus that is due lands, or is held for its fence (04 R94). -/
theorem Dev.commitLand_one {f : Flit} (hf : d.flits = [f]) (hs : f.since = none) (ht : f.due ≤ d.tick) :
    d.commitLand = if f.fence = none then ({ d with flits := [] } : Dev).landFlit f else { d with flits := [{ f with since := some d.tick }] } := by
  cases hfence : f.fence <;> simp [Dev.commitLand, hf, hs, ht, hfence]

end Sys2Proof.Machine

namespace Sys2Proof.Claims
open Sys2Proof.Machine

/-- Settles O18: each place of a flit in turn. -/
theorem flitsOnTheBuses : Obligations.FlitsOnTheBuses := by
  intro s bad crc hclk hbad d
  have hretry {x : FlitPlace} {e : Dev} (he : d.flitRetry x = e) : Does (.flitRetry ⟨x, bad, crc⟩) s e :=
    does_of_clocked hclk rfl ((if_neg hbad).trans he)
  refine ⟨fun x l y hok => ?_, fun hwait => ?_, fun f hf hs ht => ?_, fun hwait => ?_, fun v hv => ?_,
    fun k v hv hbound => ?_, fun k f hf hs hr => ?_, fun n i a str => ?_, fun n i k => ?_, fun n => ⟨?_, ?_⟩⟩
  · exact does_of_clocked hclk rfl (if_pos hok)
  · exact does_of_clocked hclk rfl (Dev.commitLand_none hwait)
  · have hland := Dev.commitLand_one hf hs ht
    exact ⟨fun hfence => does_of_clocked hclk rfl (hland.trans (if_pos hfence)), fun hfence => does_of_clocked hclk rfl (hland.trans (if_neg hfence))⟩
  · refine does_of_clocked (f := fun d => d.inboundDelivery) hclk rfl ?_
    have hnone : d.deliveries.find? (fun v => decide (v.due ≤ d.tick)) = none :=
      List.find?_eq_none.mpr fun v hv => by simpa using hwait v hv
    rw [Dev.inboundDelivery, hnone]
  · refine does_of_clocked (f := fun d => d.inboundDelivery) hclk rfl ?_
    rw [Dev.inboundDelivery, hv]
  · refine hretry ?_
    rw [Dev.flitRetry, Dev.retryDelivery, hv]
    simp only [hbound, List.foldl_nil]
  · exact hretry (Dev.retryCommit_again hf hs hr)
  · exact hretry rfl
  · refine gives_of_clocked hclk rfl ((if_neg hbad).trans (d.retryLine_lost n (laneMem n i (64 * k)))) ⟨Dev.poisoned_setPoison .., ?_, ?_⟩
    · rw [Dev.setPoison_mem, Dev.xport_mem]
    · exact (Dev.on_setPoison ..).trans (d.xport_dropped n)
  · exact hretry rfl
  · refine gives_of_clocked hclk rfl ((if_neg hbad).trans (d.retryAccess_lost n)) ⟨rfl, ?_, (Dev.on_resp ..).trans (d.xport_dropped n)⟩
    exact d.xport_mem n true

end Sys2Proof.Claims
end

section
/-!
The PCIe functions (21 R453-R456).
-/
namespace Sys2Proof.Machine

variable {d : Dev}

/-! What a logged violation leaves alone -/

theorem Dev.logRecord_rest (d : Dev) (p : Nat) (v : W32 × W32 × W32) : { d.logRecord p v with regs := d.regs } = d := by
  unfold Dev.logRecord
  split <;> rfl

theorem Dev.logAt_rest (d : Dev) (p req a len : Nat) (write : Bool) (cause : Nat) :
    { d.logAt p req a len write cause with regs := d.regs, errLog := d.errLog } = d := by
  unfold Dev.logAt
  extract_lets v e now e'
  exact (congrArg (fun r : Dev => { r with errLog := d.errLog })
    (Dev.logRecord_rest { d with errLog := Table.put ⟨0, 0, []⟩ d.errLog p e' } p v) : _)

/-- A logged violation keeps the registers of every other page. -/
theorem Dev.reg_logRecord {p b : Nat} (v : W32 × W32 × W32) (h : b < p + 0x10 ∨ p + 0x28 ≤ b) : (d.logRecord p v).reg b = d.reg b := by
  unfold Dev.logRecord
  split
  · exact d.reg_setF_ne p F.H_ERR_OVERFLOW _ (by simp only [F.H_ERR_OVERFLOW]; omega)
  · rw [Dev.irq, Dev.reg_setF_ne _ _ _ _ (by dsimp only; omega), Dev.reg_setF_ne _ _ _ _ (by dsimp only; omega),
      Dev.reg_setReg_ne _ _ (by omega), Dev.reg_setReg_ne _ _ (by omega), Dev.reg_setReg_ne _ _ (by omega)]

/-! Memory through a window -/

theorem Dev.bar2Write_refused {f a : Nat} {l : List Byte} (ep : Bool) (h : d.bar2Accepted f a l.length true = false) :
    d.bar2Write f a l ep = d.bar2Refused f a l.length true := if_pos (by rw [h]; rfl)

theorem Dev.bar2Read_refused {f a len : Nat} (h : d.bar2Accepted f a len false = false) :
    d.bar2Read f a len = d.bar2Refused f a len false := if_pos (by rw [h]; rfl)

theorem Dev.bar2Write_accepted {f a : Nat} {l : List Byte} (ep : Bool) (h : d.bar2Accepted f a l.length true = true)
    (hc : d.rangeCause a l.length true = none) : d.bar2Write f a l ep = { d.putRange a l ep with resp := {} } := by
  rw [Dev.bar2Write, h, hc]
  rfl

theorem Dev.bar2Read_accepted {f a len : Nat} (h : d.bar2Accepted f a len false = true) (hc : d.rangeCause a len false = none) :
    d.bar2Read f a len = { (d.getRange a len).1 with
      resp := { data := valueLE (d.getRange a len).2.1, poison := (d.getRange a len).2.2 } } := by
  rw [Dev.bar2Read, h, hc]
  rfl

theorem Dev.byte_congr {e : Dev} (h : e.mem = d.mem) (a : Nat) : e.byte a = d.byte a := by
  rw [Dev.byte, Dev.byte, h]

theorem Dev.putRange_mem (a : Nat) (l : List Byte) : (d.putRange a l false).mem = (d.setBytes a l).mem := by
  unfold Dev.putRange
  cases l with
  | nil => rfl
  | cons b r => exact d.putMem_mem 99 a _ _

theorem Dev.bar2Refused_mem (f a len : Nat) (write : Bool) : (d.bar2Refused f a len write).mem = d.mem :=
  (congrArg Dev.mem (d.logAt_rest (pgPf f) (0x300 + f) a len write 8) : _)

theorem Dev.bar2Refused_poison (f a len : Nat) (write : Bool) : (d.bar2Refused f a len write).poison = d.poison :=
  (congrArg Dev.poison (d.logAt_rest (pgPf f) (0x300 + f) a len write 8) : _)

/-! A function's state -/

theorem Dev.pf_setPf_same (f : Nat) (x : Pf) : (d.setPf f x).pf f = x := Table.get_put_same ({} : Pf) d.pfs f x

theorem Dev.pf_setPf_ne {f g : Nat} (x : Pf) (h : g ≠ f) : (d.setPf f x).pf g = d.pf g := Table.get_put_ne ({} : Pf) {} d.pfs x h.symm

theorem Dev.pf_setF (p : Nat) (f : Fld) (y g : Nat) : (d.setF p f y).pf g = d.pf g := rfl

theorem Dev.pf_setB (p : Nat) (f : Fld) (b : Bool) (g : Nat) : (d.setB p f b).pf g = d.pf g := rfl

/-- A word of the MSI-X table as software writes it. -/
def msixWord (word : Nat) (val : W32) : W32 := if word = 3 then val &&& 1 else if word = 0 then val &&& 0xFFFFFFFC else val

theorem Dev.entry_msixWrite_same (f v word : Nat) (val : W32) : ((d.msixWrite f v word val).pf f).entry v word = msixWord word val := by
  rw [Dev.msixWrite, Dev.pf_setPf_same]
  exact Table.get_put_same _ _ _ _

theorem Dev.entry_msixWrite_ne (f : Nat) {v word u k : Nat} (val : W32) (h : 4 * v + word ≠ 4 * u + k) :
    ((d.msixWrite f v word val).pf f).entry u k = (d.pf f).entry u k := by
  rw [Dev.msixWrite, Dev.pf_setPf_same]
  exact Table.get_put_ne _ _ _ _ h

/-! Resets and the link -/

theorem pgPf_apart {f g o n : Nat} (h : f ≠ g) (ho : o < 0x1000) (hn : n < 0x1000) : pgPf f + o ≠ pgPf g + n := by
  simp only [pgPf]
  omega

/-- A reset of one function up to its configuration and its page. -/
def Dev.pfCleared (d : Dev) (f : Nat) : Dev :=
  ((d.setPf f { mark := (d.pf f).mark, seen := (d.pf f).seen, due := (d.pf f).due }).setB (pgPf f) F.PF_STAT_BME false).setB (pgPf f) F.PF_STAT_D3 false

/-- The end of a function's reset: the descriptors of its channels are given up. -/
def Dev.pfAborted (d : Dev) (f : Nat) : Dev :=
  { d with dmas := Table.upd {} (fun n (y : Dma) =>
      if d.f pgDma (F.CH_CFG_PF.at (0x100 + 0x20 * n)) = f ∧ y.words ≠ [] then { y with abort := true } else y) d.dmas }

theorem Dev.pfReset_eq (f : Nat) : d.pfReset f = (d.pfCleared f).pfAborted f := by
  unfold Dev.pfReset Dev.pfAborted Dev.pfCleared
  rfl

theorem Dev.f_setPf (f : Nat) (x : Pf) (q : Nat) (y : Fld) : (d.setPf f x).f q y = d.f q y := rfl

theorem Dev.f_pfAborted (f q : Nat) (y : Fld) : (d.pfAborted f).f q y = d.f q y := rfl

theorem Dev.on_pfAborted (f q : Nat) (y : Fld) : (d.pfAborted f).on q y = d.on q y := rfl

theorem Dev.pf_pfAborted (f g : Nat) : (d.pfAborted f).pf g = d.pf g := rfl

theorem Dev.pfReset_f (f g : Nat) {x : Fld} (hx : x.ofs < 0x1000) (h : f ≠ g ∨ F.PF_STAT_BME.apart x = true ∧ F.PF_STAT_D3.apart x = true) :
    (d.pfReset f).f (pgPf g) x = d.f (pgPf g) x := by
  rw [Dev.pfReset_eq, Dev.f_pfAborted, Dev.pfCleared, Dev.setB, Dev.setB]
  rcases eq_or_ne f g with rfl | hfg
  · obtain ⟨hbme, hd3⟩ := h.resolve_left fun hne => hne rfl
    rw [Dev.f_setF_apart _ _ hd3, Dev.f_setF_apart _ _ hbme, Dev.f_setPf]
  · rw [Dev.f_setF_ne _ _ _ _ _ _ (pgPf_apart hfg (by decide) hx), Dev.f_setF_ne _ _ _ _ _ _ (pgPf_apart hfg (by decide) hx), Dev.f_setPf]

theorem Dev.pfReset_bme (f : Nat) : (d.pfReset f).on (pgPf f) F.PF_STAT_BME = false := by
  rw [Dev.pfReset_eq, Dev.on_pfAborted, Dev.pfCleared, Dev.setB, Dev.on_setF_apart _ _ rfl, Dev.on_setB_same _ _ _ _ rfl (by decide)]

theorem Dev.pfReset_d3 (f : Nat) : (d.pfReset f).on (pgPf f) F.PF_STAT_D3 = false := by
  rw [Dev.pfReset_eq, Dev.on_pfAborted, Dev.pfCleared, Dev.on_setB_same _ _ _ _ rfl (by decide)]

theorem Dev.pf_pfReset_same (f : Nat) : ((d.pfReset f).pf f).msixEn = false ∧ ((d.pfReset f).pf f).table = [] ∧ ((d.pfReset f).pf f).pba = 0 := by
  rw [Dev.pfReset_eq, Dev.pf_pfAborted, Dev.pfCleared, Dev.pf_setB, Dev.pf_setB, Dev.pf_setPf_same]
  exact ⟨rfl, rfl, rfl⟩

theorem Dev.pf_pfReset_ne {f g : Nat} (h : g ≠ f) : (d.pfReset f).pf g = d.pf g := by
  rw [Dev.pfReset_eq, Dev.pf_pfAborted, Dev.pfCleared, Dev.pf_setB, Dev.pf_setB, Dev.pf_setPf_ne _ h]

theorem Dev.setPf_mem (f : Nat) (x : Pf) : (d.setPf f x).mem = d.mem := rfl

theorem Dev.pfAborted_mem (f : Nat) : (d.pfAborted f).mem = d.mem := rfl

theorem Dev.pfReset_mem (f : Nat) : (d.pfReset f).mem = d.mem := by
  rw [Dev.pfReset_eq, Dev.pfAborted_mem, Dev.pfCleared, Dev.setB_mem, Dev.setB_mem, Dev.setPf_mem]

theorem Dev.pfReset_both_bme (f : Fin 2) : ((d.pfReset 0).pfReset 1).on (pgPf f) F.PF_STAT_BME = false := by
  revert f
  rw [Fin.forall_fin_two]
  refine ⟨?_, Dev.pfReset_bme 1⟩
  rw [Dev.on, Fin.val_zero, Dev.pfReset_f 1 0 (by decide) (Or.inl (by decide)), ← Dev.on, Dev.pfReset_bme]

theorem Dev.pfReset_both_table (f : Fin 2) : (((d.pfReset 0).pfReset 1).pf f).table = [] := by
  revert f
  rw [Fin.forall_fin_two]
  refine ⟨?_, (Dev.pf_pfReset_same 1).2.1⟩
  rw [Fin.val_zero, Dev.pf_pfReset_ne (by decide), (Dev.pf_pfReset_same 0).2.1]

/-- The link's state on one function's page. -/
def Dev.setLinkOf (d : Dev) (up : Bool) (speed width f : Nat) : Dev :=
  ((d.setB (pgPf f) F.PF_STAT_LINK_UP up).setF (pgPf f) F.PF_STAT_SPEED speed).setF (pgPf f) F.PF_STAT_WIDTH width

section
variable (up : Bool) (speed width : Nat)

theorem Dev.setLink_eq : d.setLink up speed width = (d.setLinkOf up speed width 0).setLinkOf up speed width 1 := rfl

theorem Dev.setLinkOf_rest {d e : Dev} (h : { e with regs := d.regs } = d) (f : Nat) : { e.setLinkOf up speed width f with regs := d.regs } = d :=
  Dev.setF_rest (Dev.setF_rest (Dev.setF_rest h ..) ..) ..

theorem Dev.setLink_rest : { d.setLink up speed width with regs := d.regs } = d := by
  rw [Dev.setLink_eq]
  exact Dev.setLinkOf_rest up speed width (Dev.setLinkOf_rest up speed width rfl 0) 1

theorem Dev.setLink_pf (f : Nat) : (d.setLink up speed width).pf f = d.pf f := by
  rw [Dev.setLink_eq, Dev.setLinkOf, Dev.pf_setF, Dev.pf_setF, Dev.pf_setB, Dev.setLinkOf, Dev.pf_setF, Dev.pf_setF, Dev.pf_setB]

theorem Dev.setLink_mem : (d.setLink up speed width).mem = d.mem := by
  rw [Dev.setLink_eq, Dev.setLinkOf, Dev.setF_mem, Dev.setF_mem, Dev.setB_mem, Dev.setLinkOf, Dev.setF_mem, Dev.setF_mem, Dev.setB_mem]

/-- A field of a function's page after the link's state is shown on the page. -/
theorem Dev.setLinkOf_shown (f : Nat) : (d.setLinkOf up speed width f).on (pgPf f) F.PF_STAT_LINK_UP = up ∧
    (d.setLinkOf up speed width f).f (pgPf f) F.PF_STAT_SPEED = speed % 8 ∧ (d.setLinkOf up speed width f).f (pgPf f) F.PF_STAT_WIDTH = width % 8 := by
  refine ⟨?_, ?_, Dev.f_setF_same _ _ _ _ (by decide)⟩
  · exact (Dev.on_setF_apart _ _ rfl).trans ((Dev.on_setF_apart _ _ rfl).trans (Dev.on_setB_same _ _ _ _ rfl (by decide)))
  · exact (Dev.f_setF_apart _ _ rfl).trans (Dev.f_setF_same _ _ _ _ (by decide))

/-- The link's state on a page leaves the other page alone. -/
theorem Dev.setLinkOf_other {f g : Nat} (hfg : f ≠ g) {x : Fld} (hx : x.ofs < 0x1000) :
    (d.setLinkOf up speed width f).f (pgPf g) x = d.f (pgPf g) x := by
  have hne {y : Fld} (hy : y.ofs < 0x1000) : pgPf f + y.ofs ≠ pgPf g + x.ofs := pgPf_apart hfg hy hx
  rw [Dev.setLinkOf, Dev.f_setF_ne _ _ _ _ _ _ (hne (by decide)), Dev.f_setF_ne _ _ _ _ _ _ (hne (by decide)), Dev.setB,
    Dev.f_setF_ne _ _ _ _ _ _ (hne (by decide))]

/-- What the link's state leaves alone on a function's page. -/
theorem Dev.setLinkOf_apart (f : Nat) {x : Fld} (h : F.PF_STAT_LINK_UP.apart x = true ∧ F.PF_STAT_SPEED.apart x = true ∧ F.PF_STAT_WIDTH.apart x = true) :
    (d.setLinkOf up speed width f).f (pgPf f) x = d.f (pgPf f) x := by
  obtain ⟨hu, hs, hw⟩ := h
  rw [Dev.setLinkOf, Dev.f_setF_apart _ _ hw, Dev.f_setF_apart _ _ hs, Dev.setB, Dev.f_setF_apart _ _ hu]

theorem Dev.setLink_shown (f : Fin 2) : (d.setLink up speed width).on (pgPf f) F.PF_STAT_LINK_UP = up ∧
    (d.setLink up speed width).f (pgPf f) F.PF_STAT_SPEED = speed % 8 ∧ (d.setLink up speed width).f (pgPf f) F.PF_STAT_WIDTH = width % 8 := by
  rw [Dev.setLink_eq]
  have hother {x : Fld} (hx : x.ofs < 0x1000) := (d.setLinkOf up speed width 0).setLinkOf_other up speed width (f := 1) (g := 0) (by decide) hx
  revert f
  rw [Fin.forall_fin_two]
  refine ⟨?_, Dev.setLinkOf_shown up speed width 1⟩
  obtain ⟨hu, hs, hw⟩ := d.setLinkOf_shown up speed width 0
  refine ⟨?_, (hother (by decide)).trans hs, (hother (by decide)).trans hw⟩
  rw [Dev.on] at hu ⊢
  exact (congrArg (· != 0) (hother (by decide))).trans hu

theorem Dev.setLink_apart (f : Fin 2) {x : Fld} (hx : x.ofs < 0x1000)
    (h : F.PF_STAT_LINK_UP.apart x = true ∧ F.PF_STAT_SPEED.apart x = true ∧ F.PF_STAT_WIDTH.apart x = true) :
    (d.setLink up speed width).f (pgPf f) x = d.f (pgPf f) x := by
  rw [Dev.setLink_eq]
  revert f
  rw [Fin.forall_fin_two]
  exact ⟨((Dev.setLinkOf_other up speed width (f := 1) (g := 0) (by decide) hx).trans (Dev.setLinkOf_apart up speed width 0 h) : _),
    ((Dev.setLinkOf_apart up speed width 1 h).trans (Dev.setLinkOf_other up speed width (f := 0) (g := 1) (by decide) hx) : _)⟩

end

section
variable (hdom : d.domOn domHostio = true)
include hdom

theorem Dev.pcieReset_function (f : Nat) : d.pcieReset (some f) = d.pfReset f := if_neg (by rw [hdom]; decide)

theorem Dev.pcieReset_both : d.pcieReset none = ((d.pfReset 0).pfReset 1).setLink false 0 0 := if_neg (by rw [hdom]; decide)

theorem Dev.pcieLink_up {speed width : Nat} (h1 : 1 ≤ speed) (h4 : speed ≤ 4) (hw : width = 1 ∨ width = 2 ∨ width = 4) :
    d.pcieLink (some (speed, width)) = d.setLink true speed width := (if_neg (by rw [hdom]; decide)).trans (if_pos ⟨h1, h4, hw⟩)

theorem Dev.pcieLink_down : d.pcieLink none = d.setLink false 0 0 := if_neg (by rw [hdom]; decide)

end

end Sys2Proof.Machine

namespace Sys2Proof.Claims
open Sys2Proof.Machine

theorem hostRequests : HostRequests := by
  intro s f hreach hdom hlink
  refine ⟨fun bme d3 en mask => ?_, fun hd3 => ?_⟩
  · refine gives_of_reach (f := fun d => d.pcieWrite f (.config bme d3 en mask)) hreach rfl (if_pos (by rw [hdom, hlink]; rfl)) ?_
    refine ⟨?_, ?_, ?_, ?_, ?_, rfl, rfl⟩
    · exact (Dev.on_setF_apart _ _ rfl).trans (Dev.on_setB_same _ _ F.PF_STAT_BME bme rfl (by decide))
    · exact Dev.on_setB_same _ _ F.PF_STAT_D3 d3 rfl (by decide)
    all_goals exact (congrArg _ (Dev.pf_setPf_same (d := _) f _) : _)
  have hup : s.dev.pfUp f = true := by rw [Dev.pfUp, hdom, hlink, hd3]; rfl
  have hwrite {x : PcieWrite} {e : Dev} {P : Dev → Prop} (he : s.dev.pcieWrite f x = e) (h : P e) : Gives (.pcieInboundWrite f x) s P :=
    gives_of_reach hreach rfl he h
  have hread {x : PcieRead} {e : Dev} (he : s.dev.pcieRead f x = e) : Does (.pcieInboundRead f x) s e := does_of_reach hreach rfl he
  have hasks {x : PcieRead} : s.dev.pcieRead f x = match x with
      | .bar0 off len => s.dev.busRead (pfWho f) (0xE0000000 + off.toNat) len false
      | .bar2 a len => s.dev.bar2Read f a.toNat len
      | .table v word => s.dev.answer ((s.dev.pf f).entry v word).toNat
      | .pba => s.dev.answer (s.dev.pf f).pba.toNat := by
    refine (if_neg (by rw [hup]; decide)).trans ?_
    cases x <;> rfl
  refine ⟨fun off l => ?_, fun off len => hread hasks, fun a l hok hc => ?_, fun a l ep hno => ?_, fun a len hno => ?_, fun a len hok hc => ?_,
    fun v word val => ?_, fun v word => ⟨_, hread hasks, rfl, rfl⟩, ⟨_, hread hasks, rfl, rfl⟩⟩
  · exact does_of_reach hreach rfl (if_pos hup)
  · refine hwrite ((if_pos hup).trans (Dev.bar2Write_accepted false hok hc)) ⟨rfl, ?_, fun b hb => ?_⟩
    · exact ((Dev.bytes_resp ..).trans (Dev.bytes_congr (Dev.putRange_mem a.toNat l) _ _)).trans (Dev.bytes_setBytes s.dev a.toNat l)
    · exact (Dev.byte_congr (Dev.putRange_mem a.toNat l) b).trans (Dev.byte_setBytes_out s.dev a.toNat b l hb)
  · exact hwrite ((if_pos hup).trans (Dev.bar2Write_refused ep hno)) ⟨rfl, Dev.bar2Refused_mem .., Dev.bar2Refused_poison ..⟩
  · exact ⟨_, hread (hasks.trans (Dev.bar2Read_refused hno)), rfl, Dev.bar2Refused_mem ..⟩
  · exact hread (hasks.trans (Dev.bar2Read_accepted hok hc))
  · refine hwrite (if_pos hup) ⟨?_, fun u k huk => ?_, rfl⟩
    · exact Dev.entry_msixWrite_same f v word val
    · exact Dev.entry_msixWrite_ne f val (by omega)

section
variable {s : State} (hdom : s.dev.domOn domHostio = true) {P : Dev → Prop}
include hdom

theorem gives_functionReset (f : Fin 2) (h : P (s.dev.pfReset f)) : Gives (.pcieReset (some f)) s P :=
  gives_of_run (f := fun d => d.pcieReset (some f)) rfl (Dev.pcieReset_function hdom f) h

theorem gives_linkReset (h : P (((s.dev.pfReset 0).pfReset 1).setLink false 0 0)) : Gives (.pcieReset none) s P :=
  have hexec : exec (.pcieReset none) s = s.run fun d => d.pcieReset none := rfl
  gives_of_run hexec (Dev.pcieReset_both hdom) h

theorem gives_linkUp {speed width : Fin 5} (h1 : 1 ≤ speed.val) (hw : width.val = 1 ∨ width.val = 2 ∨ width.val = 4)
    (h : P (s.dev.setLink true speed width)) : Gives (.pcieLinkChange (some (speed, width))) s P :=
  gives_of_run (f := fun d => d.pcieLink (some (speed.val, width.val))) rfl (Dev.pcieLink_up hdom h1 (by omega) hw) h

theorem gives_linkDown (h : P (s.dev.setLink false 0 0)) : Gives (.pcieLinkChange none) s P :=
  have hexec : exec (.pcieLinkChange none) s = s.run fun d => d.pcieLink none := rfl
  gives_of_run hexec (Dev.pcieLink_down hdom) h

end

theorem pcieResetsAndLink : PcieResetsAndLink := by
  intro s hdom
  refine ⟨fun f => gives_functionReset hdom f ?_, gives_linkReset hdom fun f => ?_, fun speed width hs hw => gives_linkUp hdom hs hw fun f => ?_,
    gives_linkDown hdom fun f => ?_⟩
  · obtain ⟨hen, htable, hpba⟩ := s.dev.pf_pfReset_same f
    refine ⟨Dev.pfReset_bme f, Dev.pfReset_d3 f, hen, htable, hpba, fun g hg => Dev.pf_pfReset_ne (Fin.val_ne_of_ne hg), ?_, Dev.pfReset_mem f⟩
    rw [Dev.on, Dev.on, Dev.pfReset_f f f (by decide) (Or.inr (by decide))]
  · refine ⟨(Dev.setLink_shown false 0 0 f).1, ?_, ?_, ?_⟩
    · rw [Dev.on, Dev.setLink_apart false 0 0 f (by decide) (by decide), ← Dev.on, Dev.pfReset_both_bme]
    · rw [Dev.setLink_pf, Dev.pfReset_both_table]
    · rw [Dev.setLink_mem, Dev.pfReset_mem, Dev.pfReset_mem]
  · obtain ⟨hup, hspeed, hwidth⟩ := s.dev.setLink_shown true speed width f
    exact ⟨hup, hspeed.trans (Nat.mod_eq_of_lt (by omega)), hwidth.trans (Nat.mod_eq_of_lt (by omega)), Dev.setLink_rest true speed width⟩
  · exact ⟨(s.dev.setLink_shown false 0 0 f).1, Dev.setLink_rest false 0 0⟩

/-- Settles O52. -/
theorem hostAndLink : Obligations.HostAndLink := ⟨hostRequests, pcieResetsAndLink⟩

end Sys2Proof.Claims
end

section
/-!
MSI-X, the time snapshot, the boot doorbell and the DMA channels (21 R457-R459, R472).
-/
namespace Sys2Proof.Machine

variable {d : Dev} {n : Nat}

/-! Devices of the same registers, and bytes of memory -/

theorem Dev.f_of_regs {d e : Dev} (h : e.regs = d.regs) (p : Nat) (f : Fld) : e.f p f = d.f p f := by
  rw [Dev.f, Dev.f, Dev.reg, Dev.reg, h]

theorem Dev.on_of_regs {d e : Dev} (h : e.regs = d.regs) (p : Nat) (f : Fld) : e.on p f = d.on p f := by
  rw [Dev.on, Dev.on, Dev.f_of_regs h]

theorem length_bytesLE (k v : Nat) : (bytesLE k v).length = k := by
  induction k generalizing v with
  | zero => rfl
  | succ k ih => rw [bytesLE, List.length_cons, ih]

theorem Dev.bytes_ext {d e : Dev} {a k : Nat} (h : ∀ b, a ≤ b → b < a + k → e.byte b = d.byte b) : e.bytes a k = d.bytes a k := by
  induction k generalizing a with
  | zero => rfl
  | succ k ih => rw [Dev.bytes, Dev.bytes, h a (by omega) (by omega), ih fun b h1 h2 => h b (by omega) (by omega)]

theorem Dev.byte_putClean_out {a b : Nat} (l : List Byte) (h : b < a ∨ a + l.length ≤ b) : (d.putClean a l).byte b = d.byte b :=
  d.byte_putMem_out 99 a b l _ h

theorem Dev.bytes_putClean (a : Nat) (l : List Byte) : (d.putClean a l).bytes a l.length = l :=
  (Dev.bytes_congr (d.putMem_mem 99 a l _) a _).trans (d.bytes_setBytes a l)

theorem Dev.bytes_putClean_apart {a b k : Nat} (l : List Byte) (h : b + k ≤ a ∨ a + l.length ≤ b) : (d.putClean a l).bytes b k = d.bytes b k :=
  Dev.bytes_ext fun _ _ _ => Dev.byte_putClean_out l (by omega)

/-! MSI-X (21 R457) -/

theorem bitAt_clear {k : Nat} (x : BitVec k) {v : Nat} : bitAt (x &&& ~~~ BitVec.ofNat k (2 ^ v)) v = false := by
  rw [bitAt, BitVec.getLsbD_and, BitVec.getLsbD_not, BitVec.getLsbD_ofNat, Nat.testBit_two_pow_self]
  cases decide (v < k) <;> simp

theorem bitAt_set {k : Nat} (x : BitVec k) {v : Nat} (h : v < k) : bitAt (x ||| BitVec.ofNat k (2 ^ v)) v = true := by
  rw [bitAt, BitVec.getLsbD_or, BitVec.getLsbD_ofNat, Nat.testBit_two_pow_self, decide_eq_true h]
  exact Bool.or_true _

section
variable {f v : Nat} (hlive : d.live (pgPf f) = true) (hwatch : bitAt (d.reg (pgPf f + 0x100 + 4 * v)) 31 = true) (hdue : bitAt (d.pf f).due v = true)
include hlive hwatch hdue

theorem Dev.msixMessage_due : d.msixMessage f v =
    if d.msixOpen f v then d.setPf f { d.pf f with
      due := (d.pf f).due &&& ~~~ BitVec.ofNat 32 (2 ^ v), pba := (d.pf f).pba &&& ~~~ BitVec.ofNat 32 (2 ^ v)
      sent := some (((d.pf f).entry v 0).toNat + ((d.pf f).entry v 1).toNat * 2 ^ 32, ((d.pf f).entry v 2).toNat) }
    else d.setPf f { d.pf f with
      due := (d.pf f).due &&& ~~~ BitVec.ofNat 32 (2 ^ v), pba := (d.pf f).pba ||| BitVec.ofNat 32 (2 ^ v) } :=
  (if_neg (by rw [hlive, hwatch]; decide)).trans (if_neg (by rw [hdue, Bool.not_true, Bool.false_and]; exact Bool.false_ne_true))

end

/-! The start of a descriptor (21 R458) -/

theorem Dev.dma_setF (p : Nat) (f : Fld) (y m : Nat) : (d.setF p f y).dma m = d.dma m := rfl

theorem Dev.setDma_mem (x : Dma) : (d.setDma n x).mem = d.mem := rfl

theorem Dev.dma_setDma_same (x : Dma) : (d.setDma n x).dma n = x := Table.get_put_same ({} : Dma) d.dmas n x

theorem Dev.dma_setDma_last (d : Dev) (n m : Nat) (x : Dma) : ({ d.setDma n x with dmaLast := m } : Dev).dma n = x :=
  Table.get_put_same ({} : Dma) d.dmas n x

/-- The channel whose turn it is is the first that is ready, from the one behind the latest on. -/
theorem find?_turn {ready : Nat → Bool} {last : Nat} (hn : n < 8) (hready : ready n = true)
    (hbefore : ∀ k, 1 ≤ k → k < 8 → (last + k) % 8 = n → ∀ j, 1 ≤ j → j < k → ready ((last + j) % 8) = false)
    (halone : last % 8 = n → ∀ i, i < 8 → i ≠ n → ready i = false) :
    ((List.range 8).map (fun i => (last + 1 + i) % 8)).find? ready = some n := by
  rw [List.find?_eq_some_iff_getElem]
  refine ⟨hready, (n + 15 - last % 8) % 8, by simp; omega, by simp; omega, fun j hj => ?_⟩
  rw [Bool.not_eq_true', List.getElem_map, List.getElem_range]
  by_cases hlast : last % 8 = n
  · exact halone hlast _ (Nat.mod_lt _ (by decide)) (by omega)
  · rw [Nat.add_assoc]
    exact hbefore ((n + 15 - last % 8) % 8 + 1) (by omega) (by omega) (by omega) _ (by omega) (by omega)

theorem Dev.dmaStart_first (hclk : d.clocksStill = false) (hidle : ∀ i, i < 8 → (d.dma i).words = [])
    (hturn : ((List.range 8).map (fun i => (d.dmaLast + 1 + i) % 8)).find? d.dmaReady = some n) (hpois : d.poisonedRange (d.dmaDesc n) 64 = false) :
    d.dmaStart n = { d.setDma n { words := (List.range 16).map (fun k => BitVec.ofNat 32 (d.load (d.dmaDesc n + 4 * k) 4)) } with dmaLast := n } := by
  have hnone : (List.range 8).any (fun i => (d.dma i).words != []) = false :=
    List.any_eq_false.mpr fun i hi => by simp [hidle i (List.mem_range.mp hi)]
  refine (if_neg ?_).trans ?_
  · rw [hturn, hnone, hclk]
    simp
  · rw [hpois]
    rfl

/-! The end of a descriptor (21 R459) -/

theorem Dev.dmaDesc_of_regs {d e : Dev} (h : e.regs = d.regs) (n : Nat) : e.dmaDesc n = d.dmaDesc n := by
  rw [Dev.dmaDesc, Dev.dmaDesc, Dev.f_of_regs h, Dev.r64, Dev.r64, Dev.reg, Dev.reg, Dev.reg, Dev.reg, h]

theorem Dev.putRange_keeps (d : Dev) (a : Nat) (l : List Byte) : d.MemoryKeeps (d.putRange a l false) := by
  unfold Dev.putRange
  exact .ite (.refl d) (.putMem d 99 a l _)

/-- The result words of a descriptor. -/
def Dev.dmaWritten (d : Dev) (n status cause : Nat) : Dev :=
  (d.putClean (d.dmaDesc n + 0x18) (bytesLE 4 (status + cause * 256))).putClean (d.dmaDesc n + 0x20)
    (bytesLE 8 (d.putClean (d.dmaDesc n + 0x18) (bytesLE 4 (status + cause * 256))).count)

/-- The end of a descriptor but for its interrupt and a halt. -/
def Dev.dmaMoved (d : Dev) (n status cause : Nat) : Dev :=
  let e := d.dmaWritten n status cause
  (e.setDma n {}).setF (chPage n) F.CH_HEAD_HEAD ((e.f (chPage n) F.CH_HEAD_HEAD + 1) % 2 ^ e.f (chPage n) F.CH_CFG_LOG2)

section
variable (d n) (x : Dma) (status cause : Nat)

theorem Dev.dmaEnd_eq : d.dmaEnd n x status cause =
    if status = 1 ∨ status = 2 ∨ status = 4 then
      (if x.fld 5 1 1 = 1 then (d.dmaMoved n status cause).irq pgDma n else d.dmaMoved n status cause).setB (chPage n) F.CH_ST_HALTED true
    else (if x.fld 5 1 1 = 1 then (d.dmaMoved n status cause).irq pgDma n else d.dmaMoved n status cause) := rfl

theorem Dev.dmaWritten_keeps : d.MemoryKeeps (d.dmaWritten n status cause) := (Dev.MemoryKeeps.putClean d _ _).trans (.putClean _ _ _)

theorem Dev.dmaWritten_count : (d.putClean (d.dmaDesc n + 0x18) (bytesLE 4 (status + cause * 256))).count = d.count :=
  congrArg (fun t : TimeSt => t.count.toNat) (Dev.MemoryKeeps.putClean d _ _).time

theorem Dev.bytes_dmaWritten_status : (d.dmaWritten n status cause).bytes (d.dmaDesc n + 0x18) 4 = bytesLE 4 (status + cause * 256) := by
  rw [Dev.dmaWritten, Dev.bytes_putClean_apart _ (by omega)]
  exact Dev.bytes_putClean (d.dmaDesc n + 0x18) (bytesLE 4 (status + cause * 256))

theorem Dev.bytes_dmaWritten_time : (d.dmaWritten n status cause).bytes (d.dmaDesc n + 0x20) 8 = bytesLE 8 d.count := by
  rw [Dev.dmaWritten, Dev.dmaWritten_count]
  exact Dev.bytes_putClean (d.dmaDesc n + 0x20) (bytesLE 8 d.count)

theorem Dev.byte_dmaWritten {b : Nat} (h : b < d.dmaDesc n + 0x18 ∨ d.dmaDesc n + 0x28 ≤ b) : (d.dmaWritten n status cause).byte b = d.byte b := by
  rw [Dev.dmaWritten, Dev.byte_putClean_out _ (by rw [length_bytesLE]; omega), Dev.byte_putClean_out _ (by rw [length_bytesLE]; omega)]

theorem Dev.dmaMoved_mem : (d.dmaMoved n status cause).mem = (d.dmaWritten n status cause).mem := by
  rw [Dev.dmaMoved, Dev.setF_mem, Dev.setDma_mem]

theorem Dev.dmaMoved_dma : (d.dmaMoved n status cause).dma n = {} := by
  rw [Dev.dmaMoved, Dev.dma_setF, Dev.dma_setDma_same]

theorem Dev.dmaMoved_active : (d.dmaMoved n status cause).on (chPage n) F.CH_ST_ACTIVE = false := by
  rw [Dev.dmaMoved, Dev.on_setF_apart _ _ rfl, Dev.setDma, Dev.on_setB_same _ _ _ _ rfl (by decide)]
  rfl

/-- HEAD moves on by one round the ring. -/
theorem Dev.dmaMoved_head (hlog : d.f (chPage n) F.CH_CFG_LOG2 ≤ 12) : (d.dmaMoved n status cause).f (chPage n) F.CH_HEAD_HEAD =
    (d.f (chPage n) F.CH_HEAD_HEAD + 1) % 2 ^ d.f (chPage n) F.CH_CFG_LOG2 := by
  have hf (f : Fld) : (d.dmaWritten n status cause).f (chPage n) f = d.f (chPage n) f :=
    Dev.f_of_regs (d.dmaWritten_keeps n status cause).regs _ f
  rw [Dev.dmaMoved, Dev.f_setF_same _ _ _ _ (by decide), hf, hf]
  exact Nat.mod_eq_of_lt (Nat.lt_of_lt_of_le (Nat.mod_lt _ (Nat.two_pow_pos _)) (Nat.pow_le_pow_right (by decide) hlog))

/-- What the interrupt and the halt of a descriptor's end leave alone. -/
theorem Dev.dmaEnd_keeps {P : Dev → Prop} (h : P (d.dmaMoved n status cause)) (hirq : ∀ e : Dev, P e → P (e.irq pgDma n))
    (hhalt : ∀ e : Dev, P e → P (e.setB (chPage n) F.CH_ST_HALTED true)) : P (d.dmaEnd n x status cause) := by
  have hsignal : P (if x.fld 5 1 1 = 1 then (d.dmaMoved n status cause).irq pgDma n else d.dmaMoved n status cause) := by
    split
    · exact hirq _ h
    · exact h
  rw [Dev.dmaEnd_eq]
  split
  · exact hhalt _ hsignal
  · exact hsignal

theorem Dev.dmaEnd_mem : (d.dmaEnd n x status cause).mem = (d.dmaWritten n status cause).mem :=
  d.dmaEnd_keeps n x status cause (P := fun e => e.mem = (d.dmaWritten n status cause).mem) (d.dmaMoved_mem n status cause)
    (fun e h => (e.setF_mem ..).trans h) fun e h => (e.setF_mem ..).trans h

theorem Dev.dmaEnd_dma : (d.dmaEnd n x status cause).dma n = {} :=
  d.dmaEnd_keeps n x status cause (P := fun e => e.dma n = {}) (d.dmaMoved_dma n status cause) 
    (fun e h => (e.dma_setF ..).trans h) fun e h => (e.dma_setF ..).trans h

/-- The interrupt word of the page is no register of a channel. -/
theorem pgDma_irq_apart {o : Nat} (ho : o < 0x20) : pgDma + 0x24 ≠ chPage n + o := by
  simp only [chPage]
  omega

theorem Dev.dmaEnd_active : (d.dmaEnd n x status cause).on (chPage n) F.CH_ST_ACTIVE = false :=
  d.dmaEnd_keeps n x status cause (P := fun e => e.on (chPage n) F.CH_ST_ACTIVE = false) (d.dmaMoved_active n status cause)
    (fun e h => (e.on_setF_ne _ _ _ _ _ (pgDma_irq_apart n (by decide))).trans h) fun _ h => (Dev.on_setF_apart _ _ rfl).trans h

theorem Dev.dmaEnd_head (hlog : d.f (chPage n) F.CH_CFG_LOG2 ≤ 12) : (d.dmaEnd n x status cause).f (chPage n) F.CH_HEAD_HEAD =
    (d.f (chPage n) F.CH_HEAD_HEAD + 1) % 2 ^ d.f (chPage n) F.CH_CFG_LOG2 :=
  d.dmaEnd_keeps n x status cause (P := fun e => e.f (chPage n) F.CH_HEAD_HEAD = _) (d.dmaMoved_head n status cause hlog)
    (fun e h => (e.f_setF_ne _ _ _ _ _ (pgDma_irq_apart n (by decide))).trans h) fun _ h => (Dev.f_setF_apart _ _ rfl).trans h

theorem Dev.dmaEnd_halted (h : status = 1 ∨ status = 2 ∨ status = 4) : (d.dmaEnd n x status cause).on (chPage n) F.CH_ST_HALTED = true := by
  rw [Dev.dmaEnd_eq, if_pos h]
  exact Dev.on_setB_same _ _ _ _ rfl (by decide)

end

/-! What a descriptor moves -/

section
variable {h : HostSide} (hclk : d.clocksStill = false) (hwords : (d.dma n).words ≠ []) (hstop : (d.dma n).stop = false)
include hclk hwords hstop

theorem Dev.dmaDone_illegal (hbad : d.dmaDescOk (d.dma n) = false) : d.dmaDone n h = d.dmaEnd n (d.dma n) 4 0 := by
  rw [Dev.dmaDone, if_neg (by simp [hwords, hclk])]
  simp [hbad, hstop]

theorem Dev.dmaDone_moved (hok : d.dmaDescOk (d.dma n) = true) (habort : (d.dma n).abort = false) (hdev : d.dmaDevice (d.dma n) = none)
    (hdir : (d.dma n).fld 5 0 1 = 0) (hfails : h.fails = none) (hep : h.ep = []) (hlen : h.data.length = (d.dma n).len) :
    d.dmaDone n h = (d.putRange (d.dma n).dev h.data false).dmaEnd n (d.dma n) 0 0 := by
  have htake : h.data.take (d.dma n).len = h.data := List.take_of_length_le hlen.le
  rw [Dev.dmaDone, if_neg (by simp [hwords, hclk])]
  simp [hok, hstop, habort, hdev, hdir, hfails, hep, hlen, htake, Dev.dmaMove]

end

end Sys2Proof.Machine

namespace Sys2Proof.Claims
open Sys2Proof.Machine

/-- Settles O53. -/
theorem messagesAndDma : Obligations.MessagesAndDma := by
  intro s w f v n h x p
  refine ⟨fun hclk hlive hwatch hdue => ?_, fun hacc hreq => ?_, fun len a b hreach hup hok => ?_, fun hclk hidle hready hbefore halone hpois => ?_, ?_, ?_⟩
  · have hmsg := Dev.msixMessage_due hlive hwatch hdue
    refine ⟨fun hopen => ?_, fun hshut => ?_⟩
    · refine gives_of_clocked (f := fun d => d.msixMessage f v) hclk rfl (hmsg.trans (if_pos hopen)) ?_
      rw [Dev.pf_setPf_same]
      exact ⟨rfl, bitAt_clear _, bitAt_clear _, rfl, rfl⟩
    · refine gives_of_clocked (f := fun d => d.msixMessage f v) hclk rfl (hmsg.trans (if_neg (ne_true_of_eq_false hshut))) ?_
      rw [Dev.pf_setPf_same]
      exact ⟨rfl, bitAt_clear _, bitAt_set _ v.isLt, rfl, rfl⟩
  · refine hacc.gives (pgPf_aligned f) (by decide) (pageAt_pf f) (by decide) rfl ((s.dev.pageWrite_pf w 4 1 (by decide) rfl).trans (if_pos rfl)) ?_
    rw [if_pos (by rw [hreq, show (pagePf f).inst = f from rfl]; simp [bitAt])]
    exact ⟨(Dev.r64_setR64_same s.dev _).trans (Nat.mod_eq_of_lt s.dev.time.count.isLt), rfl, rfl⟩
  · refine does_of_reach (f := fun d => d.bootDb len.toNat a b) hreach rfl ((if_neg (by rw [hup]; decide)).trans (if_neg ?_))
    simp [pfWho, hok]
  · refine gives_of_clocked (f := fun d => d.dmaStart n) hclk rfl
      (Dev.dmaStart_first hclk (fun i hi => hidle ⟨i, hi⟩) (find?_turn n.isLt hready hbefore fun hl i hi hne => halone hl ⟨i, hi⟩ (Fin.ne_of_val_ne hne)) hpois) ?_
    exact ⟨congrArg Dma.words (Dev.dma_setDma_last ..), Dev.on_setB_same _ _ _ _ rfl (by decide), rfl, rfl⟩
  · intro t hclk hwords hstop hbad hlog
    refine gives_of_clocked (f := fun d => d.dmaDone n h) hclk rfl (Dev.dmaDone_illegal hclk hwords hstop hbad) ?_
    have hbytes := fun b k => Dev.bytes_congr (Dev.dmaEnd_mem s.dev n t 4 0) b k
    refine ⟨congrArg Dma.words (Dev.dmaEnd_dma ..), Dev.dmaEnd_active .., Dev.dmaEnd_halted _ _ _ _ _ (by decide), Dev.dmaEnd_head _ _ _ _ _ hlog, ?_, ?_⟩
    · exact (hbytes _ _).trans (Dev.bytes_dmaWritten_status ..)
    · exact (hbytes _ _).trans (Dev.bytes_dmaWritten_time ..)
  · intro t hclk hwords hstop habort hok hdev hdir hfails hep hlen hlog
    refine gives_of_clocked (f := fun d => d.dmaDone n h) hclk rfl (Dev.dmaDone_moved hclk hwords hstop hok habort hdev hdir hfails hep hlen) ?_
    have hkeeps := s.dev.putRange_keeps t.dev h.data
    generalize hmoved : s.dev.putRange t.dev h.data false = moved at hkeeps
    have hmem : moved.mem = (s.dev.setBytes t.dev h.data).mem := hmoved ▸ Dev.putRange_mem t.dev h.data
    have hf (fld : Fld) := Dev.f_of_regs hkeeps.regs (chPage n) fld
    have hdesc : moved.dmaDesc n = s.dev.dmaDesc n := Dev.dmaDesc_of_regs hkeeps.regs n
    have hcount : moved.count = s.dev.count := congrArg (fun t : TimeSt => t.count.toNat) hkeeps.time
    have hend := fun b => Dev.byte_congr (Dev.dmaEnd_mem moved n t 0 0) b
    have hout {b : Nat} (hb : b < s.dev.dmaDesc n + 0x18 ∨ s.dev.dmaDesc n + 0x28 ≤ b) :
        (moved.dmaEnd n t 0 0).byte b = (s.dev.setBytes t.dev h.data).byte b :=
      (hend b).trans ((Dev.byte_dmaWritten _ _ _ _ (hdesc ▸ hb)).trans (Dev.byte_congr hmem b))
    refine ⟨congrArg Dma.words (Dev.dmaEnd_dma ..), ?_, ?_, fun i hi hb => ?_, fun b hb hr => ?_⟩
    · rw [Dev.dmaEnd_head _ _ _ _ _ ((hf _).trans_le hlog), hf, hf]
    · rw [← hdesc, ← hcount]
      exact (Dev.bytes_congr (Dev.dmaEnd_mem ..) _ _).trans (Dev.bytes_dmaWritten_time ..)
    · exact (hout (by omega)).trans (s.dev.byte_setBytes_in t.dev i h.data (hlen ▸ hi))
    · exact (hout hr).trans (s.dev.byte_setBytes_out t.dev b h.data (hlen ▸ hb))

end Sys2Proof.Claims
end

section
/-!
Links, MDIO and gate lists of the Ethernet ports (21 R462, R463, R465).
-/
namespace Sys2Proof.Machine

variable {d : Dev} {p : Nat}

theorem Dev.eth_setEth_same (x : Eth) : (d.setEth p x).eth p = x := Table.get_put_same ({} : Eth) d.eths p x

theorem Dev.eth_setF (q : Nat) (f : Fld) (y m : Nat) : (d.setF q f y).eth m = d.eth m := rfl

theorem Dev.eth_setB (q : Nat) (f : Fld) (b : Bool) (m : Nat) : (d.setB q f b).eth m = d.eth m := rfl

theorem Dev.eth_irq (q i m : Nat) : (d.irq q i).eth m = d.eth m := rfl

theorem Dev.setEth_mem (x : Eth) : (d.setEth p x).mem = d.mem := rfl

theorem Dev.f_setEth (x : Eth) (q : Nat) (f : Fld) : (d.setEth p x).f q f = d.f q f := rfl

theorem Dev.on_setEth (x : Eth) (q : Nat) (f : Fld) : (d.setEth p x).on q f = d.on q f := rfl

theorem Dev.setEth_rest {d e : Dev} {x : Eth} (h : { e with regs := (d.setEth p x).regs } = d.setEth p x) :
    { e with regs := d.regs, eths := d.eths } = d := (congrArg (fun r : Dev => { r with eths := d.eths }) h : _)

/-! Links (21 R464) -/

/-- A change of a link before its interrupt. -/
def Dev.ethLinked (d : Dev) (p : Nat) (up : Option Nat) : Dev :=
  match up with
  | some v => (d.setB (pgEth p) F.ETH_STATUS_LINK up.isSome).setF (pgEth p) F.ETH_STATUS_SPEED v
  | none => d.setB (pgEth p) F.ETH_STATUS_LINK up.isSome

theorem Dev.ethLink_eq (up : Option Nat) (hdom : d.domOn domHostio = true) : d.ethLink p up =
    if d.on (pgEth p) F.ETH_STATUS_LINK != up.isSome then (d.ethLinked p up).irq (pgEth p) 9 else d.ethLinked p up := by
  refine (if_neg (by rw [hdom]; decide)).trans ?_
  cases up <;> rfl

theorem Dev.ethLinked_link (up : Option Nat) : (d.ethLinked p up).on (pgEth p) F.ETH_STATUS_LINK = up.isSome := by
  cases up with
  | none => exact Dev.on_setB_same _ _ _ _ rfl (by decide)
  | some v => exact (Dev.on_setF_apart _ _ rfl).trans (Dev.on_setB_same _ _ _ _ rfl (by decide))

theorem Dev.ethLinked_speed (v : Nat) : (d.ethLinked p (some v)).f (pgEth p) F.ETH_STATUS_SPEED = v % 4 := Dev.f_setF_same _ _ _ _ (by decide)

theorem Dev.ethLinked_rest (up : Option Nat) : { d.ethLinked p up with regs := d.regs } = d := by
  cases up <;> rfl

/-- A change of a link, shown on the port's page. -/
theorem Dev.ethLink_shown (up : Option Nat) (hdom : d.domOn domHostio = true) : (d.ethLink p up).on (pgEth p) F.ETH_STATUS_LINK = up.isSome ∧
    (d.on (pgEth p) F.ETH_STATUS_LINK ≠ up.isSome → bitAt ((d.ethLink p up).reg (pgEth p + 0x24)) 9 = true) ∧
    { d.ethLink p up with regs := d.regs } = d := by
  have hrest := d.ethLinked_rest (p := p) up
  have hlink := d.ethLinked_link (p := p) up
  rw [Dev.ethLink_eq up hdom]
  split
  · exact ⟨(Dev.on_setF_apart _ _ rfl).trans hlink, fun _ => Dev.bitAt_irq _ (by decide), Dev.setF_rest hrest ..⟩
  · rename_i hsame
    exact ⟨hlink, fun hne => absurd (bne_iff_ne.mpr hne) hsame, hrest⟩

theorem Dev.ethLink_speed (v : Nat) (hdom : d.domOn domHostio = true) : (d.ethLink p (some v)).f (pgEth p) F.ETH_STATUS_SPEED = v % 4 := by
  rw [Dev.ethLink_eq _ hdom]
  split
  · exact (Dev.f_setF_apart _ _ rfl).trans (Dev.ethLinked_speed v)
  · exact Dev.ethLinked_speed v

/-! MDIO (21 R463) -/

theorem testBit_of_nbits (c i : Nat) : (nbits c i 1 = 1) ↔ c.testBit i = true := by
  simp [nbits, Nat.testBit, Nat.and_comm 1, Nat.and_one_is_mod]

/-- The end of a frame before its data. -/
def Dev.mdioFreed (d : Dev) : Dev := (d.setEth 0 { d.eth 0 with mdio := none }).setB (pgEth 0) F.ETH_MDIO_STAT_BUSY false

theorem Dev.mdioEnd_eq {c : Nat} (data : Nat) (h : (d.eth 0).mdio = some c) : d.mdioEnd data =
    (if nbits c 10 1 = 1 then d.mdioFreed.setF (pgEth 0) F.ETH_MDIO_STAT_DATA data else d.mdioFreed).irq (pgEth 0) 10 := by
  rw [Dev.mdioEnd, h]
  rfl

theorem Dev.mdioEnd_shown {c data : Nat} (hdata : data < 2 ^ 16) (h : (d.eth 0).mdio = some c) :
    (d.mdioEnd data).on (pgEth 0) F.ETH_MDIO_STAT_BUSY = false ∧ ((d.mdioEnd data).eth 0).mdio = none ∧
      bitAt ((d.mdioEnd data).reg (pgEth 0 + 0x24)) 10 = true ∧
      (d.mdioEnd data).f (pgEth 0) F.ETH_MDIO_STAT_DATA = (if c.testBit 10 then data else d.f (pgEth 0) F.ETH_MDIO_STAT_DATA) ∧
      (d.mdioEnd data).mem = d.mem := by
  have hfreed : d.mdioFreed.on (pgEth 0) F.ETH_MDIO_STAT_BUSY = false := Dev.on_setB_same _ _ _ _ rfl (by decide)
  have heth : d.mdioFreed.eth 0 = { d.eth 0 with mdio := none } := Dev.eth_setEth_same _
  have hkept : d.mdioFreed.f (pgEth 0) F.ETH_MDIO_STAT_DATA = d.f (pgEth 0) F.ETH_MDIO_STAT_DATA := (Dev.f_setF_apart _ _ rfl).trans (Dev.f_setEth ..)
  have hmem : d.mdioFreed.mem = d.mem := (Dev.setF_mem ..).trans (Dev.setEth_mem ..)
  rw [Dev.mdioEnd_eq data h]
  refine ⟨(Dev.on_setF_apart _ _ rfl).trans ?_, ?_, Dev.bitAt_irq _ (by decide), (Dev.f_setF_apart _ _ rfl).trans ?_, (Dev.setF_mem ..).trans ?_⟩
  · split
    · exact (Dev.on_setF_apart _ _ rfl).trans hfreed
    · exact hfreed
  · rw [Dev.eth_irq, apply_ite (fun e : Dev => e.eth 0), Dev.eth_setF, ite_self, heth]
  · simp only [← testBit_of_nbits]
    split
    · exact (Dev.f_setF_same _ _ _ _ (by decide)).trans (Nat.mod_eq_of_lt hdata)
    · exact hkept
  · rw [apply_ite Dev.mem, Dev.setF_mem, ite_self, hmem]

/-! Gate lists (21 R462, R465) -/

/-- A write of ETH_GCL_CTRL stores EN. -/
theorem Dev.storeAll_gclCtrl (d : Dev) (p : Fin 4) (v : Nat) : d.storeAll (Claims.pageEth p) 0x218 4 v =
    d.setF (pgEth p) F.ETH_GCL_CTRL_EN (bitsOf (BitVec.ofNat 32 v) 0 1) := by
  have hword : wordAt (Claims.pageEth p) 0x218 = some ⟨0x218, 1, 0, 1, 0, false, [⟨0, 1, .rwl, 0, false⟩, ⟨1, 1, .wo, 0, false⟩]⟩ := by
    rw [wordAt, if_neg (fun h => nomatch h.1), if_neg (fun h => nomatch h.1), if_neg (fun h => absurd h.2.2.2 (by decide))]
    rfl
  exact (Dev.storeAll_word _ _ (by decide) hword).trans (congrArg (d.setReg _) (putBits_bitsOf _ _ 0 1))

/-- The administrative list does not depend on ETH_GCL_CTRL. -/
theorem Dev.admList_setEn (x : Nat) : (d.setF (pgEth p) F.ETH_GCL_CTRL_EN x).admList p = d.admList p := by
  have hreg {b : Nat} (h : pgEth p + 0x218 ≠ b) : (d.setF (pgEth p) F.ETH_GCL_CTRL_EN x).reg b = d.reg b := d.reg_setF_ne _ _ x h
  have hentry (i : Nat) : (bitsOf ((d.setF (pgEth p) F.ETH_GCL_CTRL_EN x).reg (pgEth p + 0x800 + 8 * i)) 0 8,
      ((d.setF (pgEth p) F.ETH_GCL_CTRL_EN x).reg (pgEth p + 0x804 + 8 * i)).toNat) =
      (bitsOf (d.reg (pgEth p + 0x800 + 8 * i)) 0 8, (d.reg (pgEth p + 0x804 + 8 * i)).toNat) := by
    rw [hreg (by omega), hreg (by omega)]
  simp only [Dev.admList, Dev.r64_setF_apart _ x (show (F.ETH_GCL_CTRL_EN.ofs != 0x200 && F.ETH_GCL_CTRL_EN.ofs != 0x200 + 4) = true from rfl),
    Dev.f_setF_apart _ x (show F.ETH_GCL_CTRL_EN.apart F.ETH_GCL_CYCLE_CYCLE = true from rfl),
    Dev.f_setF_apart _ x (show F.ETH_GCL_CTRL_EN.apart F.ETH_GCL_LEN_LEN = true from rfl), hentry]

/-- The pending list is shown in the operational list's registers. -/
def Dev.operShown (d : Dev) (q : Nat) (g : GateList) : Dev :=
  d.forN 128 (fun i d => (d.setReg (q + 0xC00 + 8 * i) (BitVec.ofNat 32 (g.entries.getD i (0, 0)).1)).setReg (q + 0xC04 + 8 * i)
    (BitVec.ofNat 32 (g.entries.getD i (0, 0)).2))

theorem Dev.operShown_rest (d : Dev) (q : Nat) (g : GateList) : { d.operShown q g with regs := d.regs } = d :=
  Dev.forN_keeps (P := fun e => { e with regs := d.regs } = d) 128 _ rfl fun _ _ _ h => h

/-- A list becomes operational. -/
def Dev.operTakes (d : Dev) (q : Nat) (g : GateList) : Dev :=
  let e := ((d.operShown q g).setB q F.ETH_GCL_STAT_PENDING false).setB q F.ETH_GCL_STAT_OPER_VALID true
  e.setF q F.ETH_GCL_STAT_ENTRY (g.entryAt e.count)

section
variable (d) (q : Nat) (g : GateList)

theorem Dev.operTakes_rest : { d.operTakes q g with regs := d.regs } = d  := by
  rw [Dev.operTakes]
  exact Dev.setF_rest (Dev.setF_rest (Dev.setF_rest (Dev.operShown_rest d q g) ..) ..) ..

theorem Dev.setEth_operTakes_rest (p : Nat) (x : Eth) : { (d.setEth p x).operTakes q g with regs := d.regs, eths := d.eths } = d :=
  Dev.setEth_rest ((d.setEth p x).operTakes_rest q g)

theorem Dev.operTakes_pending : (d.operTakes q g).on q F.ETH_GCL_STAT_PENDING = false := by
  rw [Dev.operTakes, Dev.on_setF_apart _ _ rfl, Dev.setB, Dev.on_setF_apart _ _ rfl, Dev.on_setB_same _ _ _ _ rfl (by decide)]

theorem Dev.operTakes_valid : (d.operTakes q g).on q F.ETH_GCL_STAT_OPER_VALID = true := by
  rw [Dev.operTakes, Dev.on_setF_apart _ _ rfl, Dev.on_setB_same _ _ _ _ rfl (by decide)]

theorem Dev.operTakes_eth (p : Nat) : (d.operTakes q g).eth p = d.eth p := by
  rw [Dev.operTakes, Dev.eth_setF, Dev.eth_setB, Dev.eth_setB, Dev.operShown]
  exact Dev.forN_keeps (P := fun e => e.eth p = d.eth p) 128 _ rfl fun _ _ _ h => h

end

theorem Dev.gclChange_due {g : GateList} {t t0 : Nat} (hp : (d.eth p).pend = some (g, t)) (hlive : d.live (pgEth p) = true)
    (ht : g.startFrom t = some t0) (hdue : t0 ≤ d.count) : d.gclChange p =
    (d.setEth p { d.eth p with pend := none, oper := some g }).operTakes (pgEth p) g := by
  rw [Dev.gclChange, hp]
  dsimp only
  rw [hlive, ht, if_neg (by decide)]
  dsimp only
  rw [if_neg (by omega), Dev.operTakes, Dev.operShown]

theorem Dev.gclChange_early {g : GateList} {t t0 : Nat} (hp : (d.eth p).pend = some (g, t)) (hlive : d.live (pgEth p) = true)
    (ht : g.startFrom t = some t0) (hearly : d.count < t0) : d.gclChange p = d := by
  rw [Dev.gclChange, hp]
  dsimp only
  rw [hlive, ht, if_neg (by decide)]
  exact if_pos hearly

end Sys2Proof.Machine

namespace Sys2Proof.Claims
open Sys2Proof.Machine

section
variable {s : State} {p : Fin 4} {P : Dev → Prop}

theorem exec_ethLinkChange (up : Option (BitVec 2)) : exec (.ethLinkChange p up) s = s.run fun d => d.ethLink p (up.map (·.toNat)) := rfl

theorem gives_ethLinkChange {up : Option (BitVec 2)} (h : P (s.dev.ethLink p (up.map (·.toNat)))) : Gives (.ethLinkChange p up) s P :=
  gives_of_run (exec_ethLinkChange up) rfl h

theorem exec_gclChange : exec (.gclChange p) s = s.clocked fun d => d.gclChange p := rfl

end

/-- Settles O55. -/
theorem ethernetControl : Obligations.EthernetControl := by
  intro s w p q
  refine ⟨fun up hdom => ?_, fun hacc => ⟨fun hbusy => ?_, fun hidle hlive => ?_⟩, fun data c hclk hc => ?_, fun en hacc => ?_,
    fun g t t0 hclk hp hlive ht => ⟨fun hdue => ?_, fun hearly => ?_⟩, fun g hclk hoper hlive hlt => ?_⟩
  · refine gives_ethLinkChange ?_
    obtain ⟨hlink, hirq, hrest⟩ := Dev.ethLink_shown (p := p) (up.map (·.toNat)) hdom
    rw [Option.isSome_map] at hlink hirq
    refine ⟨hlink, fun v hv => ?_, hirq, hrest⟩
    rw [hv]
    exact (Dev.ethLink_speed _ hdom).trans (Nat.mod_eq_of_lt v.isLt)
  · refine hacc.wrote (pgEth_aligned 0) (by decide) (pageAt_eth 0) (by decide) rfl ?_
    rw [Dev.pageWrite_eth _ _ _ _ (by decide) rfl, if_pos rfl, if_pos (by decide)]
    exact if_pos (by rw [hbusy]; rfl)
  · refine hacc.gives (pgEth_aligned 0) (by decide) (pageAt_eth 0) (by decide) rfl
      ((s.dev.pageWrite_eth w 4 _ (by decide) rfl).trans ((if_pos rfl).trans ((if_pos (by decide)).trans
        (if_neg (by rw [hidle, hlive]; decide))))) ⟨?_, ?_, ?_, Dev.wrote_resp ..⟩
    · exact (Dev.wrote_on ..).trans (Dev.on_setB_same _ _ _ _ rfl (by decide))
    · rw [Dev.wrote_eth, Dev.eth_setB, Dev.eth_setEth_same]
    · rw [Dev.wrote_mem, Dev.setB, Dev.setF_mem, Dev.setEth_mem]
  · refine gives_of_clocked (f := fun d => d.mdioEnd data.toNat) hclk rfl rfl ?_
    obtain ⟨hbusy, hnone, hirq, hdata, hmem⟩ := Dev.mdioEnd_shown (data := data.toNat) data.isLt hc
    exact ⟨hbusy, hnone, hirq, hdata, hmem⟩
  · refine hacc.gives (pgEth_aligned p) (by decide) (pageAt_eth p) (by cases en <;> decide) rfl
      ((s.dev.pageWrite_eth w 4 _ (by decide) rfl).trans ((if_neg (by decide)).trans ((if_pos rfl).trans
        (if_pos (by cases en <;> decide))))) ?_
    rw [show (pageEth p).inst = p from rfl, Dev.storeAll_gclCtrl]
    refine ⟨?_, ?_, ?_, ?_, ?_, Dev.wrote_resp ..⟩
    · rw [Dev.wrote_eth, Dev.gclGo, Dev.eth_setB, Dev.eth_setEth_same, Dev.admList_setEn, Dev.r64_setF_apart _ _ rfl]
    · rw [Dev.wrote_eth, Dev.gclGo, Dev.eth_setB, Dev.eth_setEth_same, Dev.eth_setF]
    · exact (Dev.wrote_on ..).trans (Dev.on_setB_same _ _ _ _ rfl (by decide))
    · rw [Dev.wrote_on, Dev.gclGo, Dev.setB, Dev.on_setF_apart _ _ rfl, Dev.on_setEth, Dev.on, Dev.f_setF_same _ _ _ _ (by decide)]
      cases en <;> decide
    · rw [Dev.wrote_mem, Dev.gclGo, Dev.setB, Dev.setF_mem, Dev.setEth_mem, Dev.setF_mem]
  · refine gives_of_clocked hclk exec_gclChange (Dev.gclChange_due hp hlive ht hdue) ?_
    rw [Dev.operTakes_eth, Dev.eth_setEth_same]
    exact ⟨rfl, rfl, Dev.operTakes_pending .., Dev.operTakes_valid .., Dev.setEth_operTakes_rest ..⟩
  · exact does_of_clocked hclk exec_gclChange (Dev.gclChange_early hp hlive ht hearly)
  · have hadv : s.dev.gateAdvance p = s.dev.setF q F.ETH_GCL_STAT_ENTRY (g.entryAt s.dev.count) := by
      rw [Dev.gateAdvance, hoper]
      exact if_pos hlive
    exact gives_of_clocked (f := fun d => d.gateAdvance p) hclk rfl hadv
      ⟨(Dev.f_setF_same _ _ _ _ (by decide)).trans (Nat.mod_eq_of_lt hlt), Dev.setF_rest rfl ..⟩

end Sys2Proof.Claims
end

section
/-!
The CAN FD controllers (21 R466-R468).
-/
namespace Sys2Proof.Machine

variable {d : Dev} {m : Nat}

theorem satInc_lt (w v : Nat) : satInc w v < 2 ^ w := by
  have hpos := Nat.two_pow_pos w
  unfold satInc
  split <;> omega

/-- A page is enabled and reachable by its own EN and by the power domains. -/
theorem Dev.live_congr {d e : Dev} {p : Nat} (h4 : e.reg (pgPwr + 0x44) = d.reg (pgPwr + 0x44)) (h8 : e.reg (pgPwr + 0x48) = d.reg (pgPwr + 0x48))
    (hen : e.reg (p + 8) = d.reg (p + 8)) : e.live p = d.live p := by
  unfold Dev.live
  split
  · rw [Dev.domOn_congr h4 h8, Dev.en, Dev.en, Dev.on_congr hen]
  · rfl

/-! The state of a controller -/

theorem Dev.can_setCan_same (x : Can) : (d.setCan m x).can m = x := Table.get_put_same ({} : Can) d.cans m x

theorem Dev.can_setF (q : Nat) (f : Fld) (y n : Nat) : (d.setF q f y).can n = d.can n := rfl

theorem Dev.setCan_mem (x : Can) : (d.setCan m x).mem = d.mem := rfl

theorem Dev.reg_setCan (x : Can) (a : Nat) : (d.setCan m x).reg a = d.reg a := rfl

theorem Dev.f_setCan (x : Can) (q : Nat) (f : Fld) : (d.setCan m x).f q f = d.f q f := rfl

theorem Dev.on_setCan (x : Can) (q : Nat) (f : Fld) : (d.setCan m x).on q f = d.on q f := rfl

/-- A change of STATE. -/
theorem Dev.canGo_state {x : Nat} (hx : x < 4) : (d.canGo m x).canState m = x := by
  unfold Dev.canGo
  split
  · assumption
  · exact (Dev.f_setF_apart _ _ rfl).trans ((Dev.f_setF_same _ _ _ _ (by decide)).trans (Nat.mod_eq_of_lt hx))

theorem Dev.canGo_irq {x : Nat} (hne : d.canState m ≠ x) : bitAt ((d.canGo m x).reg (pgCan m + 0x24)) 2 = true := by
  rw [Dev.canGo, if_neg hne]
  exact Dev.bitAt_irq _ (by decide)

theorem Dev.canGo_same {x : Nat} (h : d.canState m = x) : d.canGo m x = d := if_pos h

/-- What a change of STATE keeps. -/
theorem Dev.canGo_keeps {P : Dev → Prop} {x : Nat} (h : P d) (hset : P ((d.setF (pgCan m) F.CAN_STATUS_STATE x).irq (pgCan m) 2)) : P (d.canGo m x) := by
  unfold Dev.canGo
  split
  · exact h
  · exact hset

theorem Dev.canGo_rest {e : Dev} (x : Nat) (h : { e with regs := d.regs } = d) : { e.canGo m x with regs := d.regs } = d :=
  Dev.canGo_keeps (P := fun e => { e with regs := d.regs } = d) h h

theorem Dev.canGo_mem (x : Nat) : (d.canGo m x).mem = d.mem := Dev.canGo_keeps (P := fun e => e.mem = d.mem) rfl rfl

theorem Dev.canGo_can (x n : Nat) : (d.canGo m x).can n = d.can n := Dev.canGo_keeps (P := fun e => e.can n = d.can n) rfl rfl

/-- A change of STATE writes STATUS and IRQ_PEND. -/
theorem Dev.reg_canGo_ne (x : Nat) {a : Nat} (hstatus : pgCan m + 0x10 ≠ a) (hirq : pgCan m + 0x24 ≠ a) : (d.canGo m x).reg a = d.reg a :=
  Dev.canGo_keeps (P := fun e => e.reg a = d.reg a) rfl
    ((Dev.reg_setF_ne _ _ ⟨0x24, 2, 1⟩ _ hirq).trans (Dev.reg_setF_ne _ _ F.CAN_STATUS_STATE _ hstatus))

theorem Dev.reg_canGo (x : Nat) {o : Nat} (h : (o != 0x10 && o != 0x24) = true) : (d.canGo m x).reg (pgCan m + o) = d.reg (pgCan m + o) := by
  simp only [Bool.and_eq_true, bne_iff_ne] at h
  exact Dev.reg_canGo_ne x (by omega) (by omega)

theorem Dev.f_canGo (x : Nat) {f : Fld} (h : (f.ofs != 0x10 && f.ofs != 0x24) = true) : (d.canGo m x).f (pgCan m) f = d.f (pgCan m) f :=
  Dev.f_congr (Dev.reg_canGo x h)

/-- A change of STATE sets no other interrupt. -/
theorem Dev.bitAt_canGo_irq (x : Nat) {i : Nat} (h : i ≠ 2) : bitAt ((d.canGo m x).reg (pgCan m + 0x24)) i = bitAt (d.reg (pgCan m + 0x24)) i := by
  refine Dev.canGo_keeps (P := fun e => bitAt (e.reg (pgCan m + 0x24)) i = bitAt (d.reg (pgCan m + 0x24)) i) rfl ?_
  rw [Dev.irq, Dev.bitAt_setF_apart _ _ (by simp [Fld.apart]; omega), Dev.reg_setF_apart _ _ (by decide)]

/-- The stamp of a buffer. -/
theorem Dev.r64_canGo (x b : Nat) : (d.canGo m x).r64 (pgCan m + 0x100 + mbOfs b) 0x10 = d.r64 (pgCan m + 0x100 + mbOfs b) 0x10 := by
  rw [Dev.r64, Dev.r64, Dev.reg_canGo_ne _ (by omega) (by omega), Dev.reg_canGo_ne _ (by omega) (by omega)]

theorem Dev.r64_stamp (b : Nat) : d.r64 (pgCan m + 0x110 + 0x60 * b) 0 = d.r64 (pgCan m + 0x100 + mbOfs b) 0x10 := by
  rw [Dev.r64, Dev.r64, show pgCan m + 0x110 + 0x60 * b + 0 = pgCan m + 0x100 + mbOfs b + 0x10 by rw [mbOfs]; omega]

theorem Dev.canCounters_lt : d.canCounters m < 2 := by
  unfold Dev.canCounters
  split <;> decide

theorem Dev.canCounters_passive : d.canCounters m = 1 ↔ 128 ≤ d.f (pgCan m) F.CAN_ERRC_TEC ∨ d.on (pgCan m) F.CAN_ERRC_RP = true := by
  unfold Dev.canCounters
  split <;> simp [*]

/-- STATE follows the counters or stays: it is a change of STATE. -/
theorem Dev.canFollow_go : ∃ x, d.canFollow m = d.canGo m x := by
  unfold Dev.canFollow
  split
  · exact ⟨_, rfl⟩
  · exact ⟨d.canState m, (Dev.canGo_same rfl).symm⟩

theorem Dev.canLeave_on (hen : d.en (pgCan m) = true) : d.canLeave m = d := if_pos (by rw [hen]; rfl)

/-! A received frame (21 R466, R468) -/

/-- A buffer's words behind its configuration take a frame and its stamp. -/
def Dev.canFilled (d : Dev) (o : Nat) (f : CanFrame) (sof : Nat) : Dev :=
  ((((d.setReg (o + 4) (BitVec.ofNat 32 f.id.toNat)).setReg (o + 0xC) (BitVec.ofNat 32
    (f.dlc.val + b2n f.fdf * 16 + b2n (f.fdf && f.brs) * 32 + b2n (f.fdf && f.esi) * 64 + b2n f.rtr * 128))).forN 16 fun w d =>
      d.setReg (o + 0x20 + 4 * w) (BitVec.ofNat 32 (valueLE (((f.data.take f.bytes).drop (4 * w)).take 4))))).setR64 o 0x10 sof

theorem Dev.forN_succ (d : Dev) (n : Nat) (g : Nat → Dev → Dev) : d.forN (n + 1) g = g n (d.forN n g) := by
  rw [Dev.forN, Dev.forN, List.range_succ, List.foldl_append, List.foldl_cons, List.foldl_nil]

/-- Words that are written one after the other. -/
theorem Dev.reg_forN_setReg_out (a : Nat) (g : Nat → W32) {n b : Nat} (h : ∀ i, i < n → a + 4 * i ≠ b) :
    (d.forN n fun w d => d.setReg (a + 4 * w) (g w)).reg b = d.reg b :=
  Dev.forN_keeps (P := fun e => e.reg b = d.reg b) n _ rfl fun i hi e he => (e.reg_setReg_ne _ (h i hi)).trans he

theorem Dev.reg_forN_setReg (a : Nat) (g : Nat → W32) {n i : Nat} (h : i < n) :
    (d.forN n fun w d => d.setReg (a + 4 * w) (g w)).reg (a + 4 * i) = g i := by
  induction n with
  | zero => omega
  | succ n ih =>
    rw [Dev.forN_succ]
    rcases Nat.lt_succ_iff_lt_or_eq.mp h with hlt | rfl
    · rw [Dev.reg_setReg_ne _ _ (by omega), ih hlt]
    · exact Dev.reg_setReg_same ..

section
variable (d) (o : Nat) (f : CanFrame) (sof : Nat)

theorem Dev.canStore_eq (b : Nat) : d.canStore m b f sof = ((d.canFilled (pgCan m + 0x100 + mbOfs b) f sof).setF (pgCan m) ⟨0x60, b, 1⟩ 1).irq (pgCan m) 1 := rfl

theorem Dev.canFilled_rest : { d.canFilled o f sof with regs := d.regs } = d := by
  rw [Dev.canFilled, Dev.setR64]
  refine Dev.setReg_rest (Dev.setReg_rest ?_ ..) ..
  exact Dev.forN_keeps (P := fun e => { e with regs := d.regs } = d) 16 _ (Dev.setReg_rest (Dev.setReg_rest rfl ..) ..) fun _ _ _ h => Dev.setReg_rest h ..

theorem Dev.reg_canFilled_out {a : Nat} (h : a < o + 4 ∨ o + 0x60 ≤ a) : (d.canFilled o f sof).reg a = d.reg a := by
  rw [Dev.canFilled, Dev.setR64, Dev.reg_setReg_ne _ _ (by omega), Dev.reg_setReg_ne _ _ (by omega),
    Dev.reg_forN_setReg_out _ _ (by omega), Dev.reg_setReg_ne _ _ (by omega), Dev.reg_setReg_ne _ _ (by omega)]

theorem Dev.reg_canFilled_id : (d.canFilled o f sof).reg (o + 4) = BitVec.ofNat 32 f.id.toNat := by
  rw [Dev.canFilled, Dev.setR64, Dev.reg_setReg_ne _ _ (by omega), Dev.reg_setReg_ne _ _ (by omega),
    Dev.reg_forN_setReg_out _ _ (by omega), Dev.reg_setReg_ne _ _ (by omega)]
  exact Dev.reg_setReg_same ..

theorem Dev.reg_canFilled_data {i : Nat} (hi : i < 16) :
    (d.canFilled o f sof).reg (o + 0x20 + 4 * i) = BitVec.ofNat 32 (valueLE (((f.data.take f.bytes).drop (4 * i)).take 4)) := by
  rw [Dev.canFilled, Dev.setR64, Dev.reg_setReg_ne _ _ (by omega), Dev.reg_setReg_ne _ _ (by omega)]
  exact Dev.reg_forN_setReg (o + 0x20) (fun w => BitVec.ofNat 32 (valueLE (((f.data.take f.bytes).drop (4 * w)).take 4))) hi

theorem Dev.r64_canFilled : (d.canFilled o f sof).r64 o 0x10 = sof % 2 ^ 64 := Dev.r64_setR64_same ..

end

section
variable (f : CanFrame) (sof b : Nat)

theorem Dev.canStore_rest : { d.canStore m b f sof with regs := d.regs } = d := by
  rw [Dev.canStore_eq]
  exact Dev.setF_rest (Dev.setF_rest (d.canFilled_rest _ f sof) ..) ..

theorem Dev.canStore_irq : bitAt ((d.canStore m b f sof).reg (pgCan m + 0x24)) 1 = true := Dev.bitAt_irq _ (by decide)

/-- A buffer that takes a frame is full from then on; the others are as they were. -/
theorem Dev.canStore_full (hb : b < 32) (c : Nat) : bitAt ((d.canStore m b f sof).reg (pgCan m + 0x60)) c =
    if c = b then true else bitAt (d.reg (pgCan m + 0x60)) c := by
  rw [Dev.canStore_eq, Dev.irq, Dev.reg_setF_apart _ _ (by decide)]
  split
  · rename_i hc
    rw [hc]
    exact Dev.bitAt_setF_same _ true hb
  · rw [Dev.bitAt_setF_apart _ _ (by simp [Fld.apart]; omega), Dev.reg_canFilled_out _ _ _ _ (by omega)]

/-- The words of a buffer. -/
theorem Dev.canStore_words : (d.canStore m b f sof).reg (pgCan m + 0x104 + 0x60 * b) = BitVec.ofNat 32 f.id.toNat ∧
    (d.canStore m b f sof).r64 (pgCan m + 0x110 + 0x60 * b) 0 = sof % 2 ^ 64 ∧
    ∀ i, i < 16 → (d.canStore m b f sof).reg (pgCan m + 0x120 + 0x60 * b + 4 * i) =
      BitVec.ofNat 32 (valueLE (((f.data.take f.bytes).drop (4 * i)).take 4)) := by
  have hreg {a : Nat} (ha : pgCan m + 0x100 ≤ a) : (d.canStore m b f sof).reg a = (d.canFilled (pgCan m + 0x100 + mbOfs b) f sof).reg a := by
    rw [Dev.canStore_eq, Dev.irq, Dev.reg_setF_ne _ _ _ _ (by dsimp only; omega), Dev.reg_setF_ne _ _ _ _ (by dsimp only; omega)]
  refine ⟨?_, ?_, fun i hi => ?_⟩
  · rw [hreg (by omega), show pgCan m + 0x104 + 0x60 * b = pgCan m + 0x100 + mbOfs b + 4 by rw [mbOfs]; omega]
    exact Dev.reg_canFilled_id ..
  · rw [← d.r64_canFilled (pgCan m + 0x100 + mbOfs b) f sof, Dev.r64, Dev.r64, hreg (by omega), hreg (by omega),
      show pgCan m + 0x110 + 0x60 * b + 0 = pgCan m + 0x100 + mbOfs b + 0x10 by rw [mbOfs]; omega]
  · rw [hreg (by omega), show pgCan m + 0x120 + 0x60 * b + 4 * i = pgCan m + 0x100 + mbOfs b + 0x20 + 4 * i by rw [mbOfs]; omega]
    exact Dev.reg_canFilled_data _ _ _ _ hi

end

/-- The lowest buffer that accepts a frame and is free takes it. -/
theorem Dev.canHolds_free {b : Nat} {f : CanFrame} (sof : Nat) (hb : b < 32) (htakes : d.mbAccepts m b f = true)
    (hfree : bitAt (d.reg (pgCan m + 0x60)) b = false)
    (hlow : ∀ c, c < b → d.mbAccepts m c f = true → bitAt (d.reg (pgCan m + 0x60)) c = true) : d.canHolds m f sof = d.canStore m b f sof := by
  have hfind : (List.range 32).find? (fun b => d.mbAccepts m b f && !bitAt (d.reg (pgCan m + 0x60)) b) = some b := by
    rw [List.find?_range_eq_some]
    refine ⟨by rw [htakes, hfree]; rfl, List.mem_range.mpr hb, fun c hc => ?_⟩
    cases htc : d.mbAccepts m c f with
    | false => rfl
    | true => rw [hlow c hc htc]; rfl
  rw [Dev.canHolds, hfind]

/-- A frame that no free buffer accepts. -/
theorem Dev.canHolds_full {f : CanFrame} (sof : Nat) (hfull : ∀ b, b < 32 → d.mbAccepts m b f = true → bitAt (d.reg (pgCan m + 0x60)) b = true) :
    d.canHolds m f sof = if (List.range 32).any (fun b => d.mbAccepts m b f) then (d.inc (pgCan m) F.CAN_RXLOST_LOST).irq (pgCan m) 3 else d := by
  have hfind : (List.range 32).find? (fun b => d.mbAccepts m b f && !bitAt (d.reg (pgCan m + 0x60)) b) = none := by
    rw [List.find?_eq_none]
    intro b hb
    cases htb : d.mbAccepts m b f with
    | false => simp
    | true => simp [hfull b (List.mem_range.mp hb) htb]
  rw [Dev.canHolds, hfind]

/-- STATUS and the error counters do not depend on what a buffer takes. -/
theorem Dev.reg_canHolds (f : CanFrame) (sof : Nat) {o : Nat} (h : o < 0x60) (h24 : o ≠ 0x24) :
    (d.canHolds m f sof).reg (pgCan m + o) = d.reg (pgCan m + o) := by
  unfold Dev.canHolds
  dsimp only
  split
  · rw [Dev.canStore_eq, Dev.irq, Dev.reg_setF_apart _ _ h24.symm, Dev.reg_setF_apart _ _ (by dsimp only; omega), Dev.reg_canFilled_out _ _ _ _ (by omega)]
  split
  · rw [Dev.irq, Dev.reg_setF_apart _ _ h24.symm, Dev.inc, Dev.reg_setF_apart _ _ (by simp only [F.CAN_RXLOST_LOST]; omega)]
  · rfl

/-- A frame on the bus of a controller that is error active and has counted no receive error. -/
theorem Dev.canReceive_active {f : CanFrame} (sof : Nat) (hon : d.canOn m = true) (hmode : d.f (pgCan m) F.CAN_CTRL_MODE ≠ 2)
    (hfd : f.fdf = true → d.on (pgCan m) F.CAN_CTRL_FD_EN = true) (hrec : d.f (pgCan m) F.CAN_ERRC_REC = 0) (hrp : d.on (pgCan m) F.CAN_ERRC_RP = false)
    (htec : d.f (pgCan m) F.CAN_ERRC_TEC < 128) (hstate : d.canState m = 0) : d.canReceive m f sof = d.canHolds m f sof := by
  have hcond : (!d.canOn m || d.f (pgCan m) F.CAN_CTRL_MODE == 2 || (f.fdf && !d.on (pgCan m) F.CAN_CTRL_FD_EN)) = false := by
    rw [hon, beq_eq_false_iff_ne.mpr hmode]
    cases hf : f.fdf with
    | false => rfl
    | true => rw [hfd hf]; rfl
  have herrc (x : Fld) (hx : x.ofs = 0x50) : (d.canHolds m f sof).f (pgCan m) x = d.f (pgCan m) x :=
    Dev.f_congr (Dev.reg_canHolds f sof (by omega) (by omega))
  have hstatus : (d.canHolds m f sof).canState m = 0 := (Dev.f_congr (Dev.reg_canHolds f sof (by decide) (by decide))).trans hstate
  have hrxok : (d.canHolds m f sof).canRxOk m = d.canHolds m f sof := by
    rw [Dev.canRxOk]
    dsimp only
    rw [Dev.on, herrc _ rfl, ← Dev.on, hrp, herrc _ rfl, hrec]
    rfl
  have hcount : (d.canHolds m f sof).canCounters m = 0 := by
    rw [Dev.canCounters, herrc _ rfl, Dev.on, herrc _ rfl, ← Dev.on, hrp]
    exact if_neg (by simp; omega)
  refine (if_neg (ne_true_of_eq_false hcond)).trans ?_
  rw [hrxok, Dev.canFollow, hstatus, hcount, Dev.canGo_same hstatus]
  rfl

/-! Arbitration and the end of a frame (21 R466, R468) -/

theorem Dev.canArbitrate_offer {b : Nat} (hon : d.canOn m = true) (htx : (d.can m).tx = none) (hover : (d.can m).tecOver = false)
    (hmode : d.f (pgCan m) F.CAN_CTRL_MODE ≠ 1) (hoffer : d.canOffer m = some b) (wins : Bool) : d.canArbitrate m wins =
      if wins then d.setCan m { d.can m with tx := some b, frame := some (d.canFrameOf m b) } else d := by
  have hcond : (!d.canOn m || (d.can m).tx.isSome || (d.can m).tecOver || d.f (pgCan m) F.CAN_CTRL_MODE == 1) = false := by
    rw [hon, htx, hover, beq_eq_false_iff_ne.mpr hmode]
    rfl
  refine (if_neg (ne_true_of_eq_false hcond)).trans ?_
  rw [hoffer]

/-- A frame was sent: its request is cleared, TXDONE and the interrupt are set, and the buffer has its stamp. -/
def Dev.canSent (d : Dev) (m b sof : Nat) : Dev :=
  ((((d.setCan m { d.can m with tx := none, frame := none }).setF (pgCan m) ⟨0x54, b, 1⟩ 0).setF (pgCan m) ⟨0x5C, b, 1⟩ 1).irq (pgCan m) 0).setR64
    (pgCan m + 0x100 + mbOfs b) 0x10 sof

/-- A frame that was sent lowers TEC. -/
def Dev.canTecDown (d : Dev) (m : Nat) : Dev :=
  if d.f (pgCan m) F.CAN_ERRC_TEC = 0 then d else d.setF (pgCan m) F.CAN_ERRC_TEC (d.f (pgCan m) F.CAN_ERRC_TEC - 1)

section
variable (d m) (b sof : Nat)

theorem Dev.canSent_mem : (d.canSent m b sof).mem = d.mem := rfl

theorem Dev.canSent_can : (d.canSent m b sof).can m = { d.can m with tx := none, frame := none } := Dev.can_setCan_same _

theorem Dev.reg_canSent {o : Nat} (h : (o != 0x24 && o != 0x54 && o != 0x5C) = true) (hlow : o < 0x100) :
    (d.canSent m b sof).reg (pgCan m + o) = d.reg (pgCan m + o) := by
  simp only [Bool.and_eq_true, bne_iff_ne] at h
  rw [Dev.canSent, Dev.setR64, Dev.reg_setReg_ne _ _ (by omega), Dev.reg_setReg_ne _ _ (by omega), Dev.irq, Dev.reg_setF_apart _ _ h.1.1.symm,
    Dev.reg_setF_apart _ _ h.2.symm, Dev.reg_setF_apart _ _ h.1.2.symm, Dev.reg_setCan]

theorem Dev.canSent_request (hb : b < 32) : bitAt ((d.canSent m b sof).reg (pgCan m + 0x54)) b = false := by
  rw [Dev.canSent, Dev.setR64, Dev.reg_setReg_ne _ _ (by omega), Dev.reg_setReg_ne _ _ (by omega), Dev.irq, Dev.reg_setF_apart _ _ (by decide),
    Dev.reg_setF_apart _ _ (show 0x5C ≠ 0x54 by decide)]
  exact Dev.bitAt_setF_same _ false hb

theorem Dev.canSent_done (hb : b < 32) : bitAt ((d.canSent m b sof).reg (pgCan m + 0x5C)) b = true := by
  rw [Dev.canSent, Dev.setR64, Dev.reg_setReg_ne _ _ (by omega), Dev.reg_setReg_ne _ _ (by omega), Dev.irq, Dev.reg_setF_apart _ _ (by decide)]
  exact Dev.bitAt_setF_same _ true hb

theorem Dev.canSent_irq : bitAt ((d.canSent m b sof).reg (pgCan m + 0x24)) 0 = true := by
  rw [Dev.canSent, Dev.setR64, Dev.reg_setReg_ne _ _ (by omega), Dev.reg_setReg_ne _ _ (by omega)]
  exact Dev.bitAt_irq _ (by decide)

theorem Dev.canSent_stamp : (d.canSent m b sof).r64 (pgCan m + 0x100 + mbOfs b) 0x10 = sof % 2 ^ 64 := Dev.r64_setR64_same ..

theorem Dev.canTecDown_mem : (d.canTecDown m).mem = d.mem := by
  unfold Dev.canTecDown
  split <;> rfl

theorem Dev.canTecDown_can : (d.canTecDown m).can m = d.can m := by
  unfold Dev.canTecDown
  split <;> rfl

theorem Dev.reg_canTecDown {a : Nat} (h : pgCan m + 0x50 ≠ a) : (d.canTecDown m).reg a = d.reg a := by
  unfold Dev.canTecDown
  split
  · rfl
  · exact d.reg_setF_ne _ F.CAN_ERRC_TEC _ h

theorem Dev.canTecDown_tec : (d.canTecDown m).f (pgCan m) F.CAN_ERRC_TEC = d.f (pgCan m) F.CAN_ERRC_TEC - 1 := by
  have hlt := d.f_lt (p := pgCan m) F.CAN_ERRC_TEC
  unfold Dev.canTecDown
  split
  · omega
  · exact (Dev.f_setF_same _ _ _ _ (by decide)).trans (Nat.mod_eq_of_lt (by omega))

end

/-- The end of a frame that was sent, outside the loop-back modes, of a page that is enabled. -/
theorem Dev.canTxDone_go {b : Nat} (sof : Nat) (hclk : d.clocksStill = false) (htx : (d.can m).tx = some b) (hen : d.en (pgCan m) = true)
    (hmode : d.f (pgCan m) F.CAN_CTRL_MODE < 2) : ∃ x, d.canTxDone m sof = ((d.canSent m b sof).canTecDown m).canGo m x := by
  have hsent {f : Fld} (hf : (f.ofs != 0x24 && f.ofs != 0x54 && f.ofs != 0x5C) = true) (hlow : f.ofs < 0x50) :
      ((d.canSent m b sof).canTecDown m).f (pgCan m) f = d.f (pgCan m) f :=
    Dev.f_congr ((Dev.reg_canTecDown _ m (by omega)).trans (d.reg_canSent m b sof hf (by omega)))
  obtain ⟨x, hx⟩ := ((d.canSent m b sof).canTecDown m).canFollow_go (m := m)
  refine ⟨x, ?_⟩
  have hen' : (((d.canSent m b sof).canTecDown m).canGo m x).en (pgCan m) = true := by
    rw [Dev.en, Dev.on, Dev.f_canGo x (by decide), hsent (by decide) (by decide), ← Dev.on, ← Dev.en, hen]
  have hdone : d.canTxDone m sof = (((if 2 ≤ ((d.canSent m b sof).canTecDown m).f (pgCan m) F.CAN_CTRL_MODE then
      ((d.canSent m b sof).canTecDown m).canHolds m ((d.can m).frame.getD (d.canFrameOf m b)) sof
      else (d.canSent m b sof).canTecDown m).canFollow m).canLeave m) := by
    rw [Dev.canTxDone]
    dsimp only
    rw [htx]
    dsimp only
    rw [hclk, if_neg Bool.false_ne_true]
    rfl
  rw [hdone, hsent (by decide) (by decide), if_neg (by omega), hx, Dev.canLeave_on hen']

/-! Errors, bus-off and recovery (21 R467, R468) -/

theorem Dev.canOn_state (h : d.canOn m = true) : d.canState m < 2 := by
  simp only [Dev.canOn, Bool.and_eq_true, decide_eq_true_eq] at h
  exact h.1.2

theorem Dev.live_of_canOn (h : d.canOn m = true) : d.live (pgCan m) = true := by
  simp only [Dev.canOn, Bool.and_eq_true] at h
  exact h.1.1

theorem Dev.en_of_live {p : Nat} (h : d.live p = true) : d.en p = true := by
  unfold Dev.live at h
  split at h
  · exact (Bool.and_eq_true _ _ ▸ h).2
  · exact absurd h Bool.false_ne_true

theorem Dev.canBusOff_go (hon : d.canOn m = true) (hover : (d.can m).tecOver = true) : ∃ (e : Dev) (y : Nat),
    e.mem = d.mem ∧ e.regs = d.regs ∧ d.canBusOff m = ((e.setCan m { tx := none, tecOver := false, recovering := false }).setF (pgCan m) F.CAN_ERRC_TEC y).canGo m 2 :=
  ⟨d.takeFresh.2, _, rfl, rfl, if_neg (by rw [hon, hover]; decide)⟩

/-- Recovery clears the counters. -/
def Dev.canCleared (d : Dev) (m : Nat) : Dev :=
  (((d.setF (pgCan m) F.CAN_ERRC_TEC 0).setF (pgCan m) F.CAN_ERRC_REC 0).setB (pgCan m) F.CAN_ERRC_RP false).setCan m { d.can m with recovering := false }

theorem Dev.canJoin_recovered (hclk : d.clocksStill = false) (hlive : d.live (pgCan m) = true) (hstate : d.canState m = 2)
    (hrec : (d.can m).recovering = true) : d.canJoin m = (d.canCleared m).canGo m 0 := by
  refine (if_neg (by rw [hlive, hclk]; decide)).trans ((if_neg (by omega)).trans (if_pos ⟨hstate, hrec⟩))

theorem Dev.canJoin_integrated (hclk : d.clocksStill = false) (hlive : d.live (pgCan m) = true) (hstate : d.canState m = 3) :
    d.canJoin m = d.canGo m (d.canCounters m) := (if_neg (by rw [hlive, hclk]; decide)).trans (if_pos hstate)

/-- What an error adds to REC. -/
def CanError.recStep (e : CanError) : Nat := match e.recUp.val with | 0 => 0 | 1 => 1 | _ => 8

/-- An error is counted in TEC. -/
def Dev.canErrSent (d : Dev) (m : Nat) (e : CanError) : Dev :=
  ((d.setF (pgCan m) F.CAN_ERRC_LEC e.lec.val).setCan m { d.can m with
    tx := none, tecOver := (d.can m).tecOver || decide (255 < d.f (pgCan m) F.CAN_ERRC_TEC + if e.tec then 8 else 0) }).setF (pgCan m) F.CAN_ERRC_TEC
      (Nat.min (d.f (pgCan m) F.CAN_ERRC_TEC + if e.tec then 8 else 0) 255)

/-- An error is counted in REC. -/
def Dev.canErrRec (d : Dev) (m r : Nat) : Dev :=
  if 128 ≤ r then (d.setF (pgCan m) F.CAN_ERRC_REC 127).setB (pgCan m) F.CAN_ERRC_RP true else d.setF (pgCan m) F.CAN_ERRC_REC r

section
variable (d m) (e : CanError) (r : Nat)

theorem Dev.canErrSent_rec : (d.canErrSent m e).f (pgCan m) F.CAN_ERRC_REC = d.f (pgCan m) F.CAN_ERRC_REC := by
  rw [Dev.canErrSent, Dev.f_setF_apart _ _ rfl, Dev.f_setCan, Dev.f_setF_apart _ _ rfl]

theorem Dev.canErrSent_lec : (d.canErrSent m e).f (pgCan m) F.CAN_ERRC_LEC = e.lec.val := by
  rw [Dev.canErrSent, Dev.f_setF_apart _ _ rfl, Dev.f_setCan, Dev.f_setF_same _ _ _ _ (by decide)]
  exact Nat.mod_eq_of_lt (e.lec.isLt.trans (by decide))

theorem Dev.canErrSent_tec : (d.canErrSent m e).f (pgCan m) F.CAN_ERRC_TEC = Nat.min (d.f (pgCan m) F.CAN_ERRC_TEC + if e.tec then 8 else 0) 255 := by
  rw [Dev.canErrSent, Dev.f_setF_same _ _ _ _ (by decide)]
  exact Nat.mod_eq_of_lt (Nat.lt_of_le_of_lt (Nat.min_le_right _ _) (by decide))

theorem Dev.canErrSent_can : (d.canErrSent m e).can m = { d.can m with
    tx := none, tecOver := (d.can m).tecOver || decide (255 < d.f (pgCan m) F.CAN_ERRC_TEC + if e.tec then 8 else 0) } := by
  rw [Dev.canErrSent, Dev.can_setF, Dev.can_setCan_same]

theorem Dev.canErrSent_mem : (d.canErrSent m e).mem = d.mem := by
  rw [Dev.canErrSent, Dev.setF_mem, Dev.setCan_mem, Dev.setF_mem]

theorem Dev.reg_canErrSent {o : Nat} (h : o ≠ 0x50) : (d.canErrSent m e).reg (pgCan m + o) = d.reg (pgCan m + o) := by
  rw [Dev.canErrSent, Dev.reg_setF_apart _ _ h.symm, Dev.reg_setCan, Dev.reg_setF_apart _ _ h.symm]

/-- What the count in REC keeps. -/
theorem Dev.canErrRec_keeps {P : Dev → Prop} (hset : ∀ f : Fld, F.CAN_ERRC_REC = f ∨ F.CAN_ERRC_RP = f → ∀ (e : Dev) (y : Nat), P e → P (e.setF (pgCan m) f y))
    (h : P d) : P (d.canErrRec m r) := by
  unfold Dev.canErrRec
  split
  · exact hset _ (.inr rfl) _ _ (hset _ (.inl rfl) _ _ h)
  · exact hset _ (.inl rfl) _ _ h

theorem Dev.canErrRec_mem : (d.canErrRec m r).mem = d.mem :=
  d.canErrRec_keeps m r (P := fun e => e.mem = d.mem) (fun _ _ _ _ h => h) rfl

theorem Dev.canErrRec_can : (d.canErrRec m r).can m = d.can m :=
  d.canErrRec_keeps m r (P := fun e => e.can m = d.can m) (fun _ _ _ _ h => h) rfl

theorem Dev.reg_canErrRec {o : Nat} (h : o ≠ 0x50) : (d.canErrRec m r).reg (pgCan m + o) = d.reg (pgCan m + o) :=
  d.canErrRec_keeps m r (P := fun e => e.reg (pgCan m + o) = d.reg (pgCan m + o))
    (fun f hf _ _ he => (Dev.reg_setF_apart _ _ (by rcases hf with rfl | rfl <;> exact h.symm)).trans he) rfl

theorem Dev.f_canErrRec {g : Fld} (h : F.CAN_ERRC_REC.apart g = true ∧ F.CAN_ERRC_RP.apart g = true) : (d.canErrRec m r).f (pgCan m) g = d.f (pgCan m) g :=
  d.canErrRec_keeps m r (P := fun e => e.f (pgCan m) g = d.f (pgCan m) g)
    (fun f hf _ _ he => (Dev.f_setF_apart _ _ (by rcases hf with rfl | rfl; exacts [h.1, h.2])).trans he) rfl

theorem Dev.canErrRec_rec : (d.canErrRec m r).f (pgCan m) F.CAN_ERRC_REC = if r < 128 then r else 127 := by
  unfold Dev.canErrRec
  split
  · rw [if_neg (by omega), Dev.setB, Dev.f_setF_apart _ _ rfl, Dev.f_setF_same _ _ _ _ (by decide)]
    rfl
  · rw [if_pos (by omega), Dev.f_setF_same _ _ _ _ (by decide)]
    exact Nat.mod_eq_of_lt (by simp only [F.CAN_ERRC_REC]; omega)

end

/-- An error on the bus, of a controller that takes part in it. -/
theorem Dev.canBusError_go (e : CanError) (hon : d.canOn m = true) (hlec : e.lec.val ≠ 0) : ∃ x, d.canBusError m e =
    ((d.canErrSent m e).canErrRec m (d.f (pgCan m) F.CAN_ERRC_REC + e.recStep)).canGo m x := by
  have herr : d.canBusError m e = (((d.canErrSent m e).canErrRec m (d.f (pgCan m) F.CAN_ERRC_REC + e.recStep)).canFollow m).canLeave m := by
    rw [← d.canErrSent_rec m e]
    have hstep : d.canBusError m e = (((d.canErrSent m e).canErrRec m ((d.canErrSent m e).f (pgCan m) F.CAN_ERRC_REC + e.recStep)).canFollow m).canLeave m := by
      rw [Dev.canErrSent, ← Dev.f_setF_apart (d := d) (f := F.CAN_ERRC_LEC) (p := pgCan m) e.lec.val (show F.CAN_ERRC_LEC.apart F.CAN_ERRC_TEC = true from rfl)]
      exact if_neg (by rw [hon]; simpa using hlec)
    exact hstep
  obtain ⟨x, hx⟩ := ((d.canErrSent m e).canErrRec m (d.f (pgCan m) F.CAN_ERRC_REC + e.recStep)).canFollow_go (m := m)
  refine ⟨x, herr.trans ?_⟩
  rw [hx]
  refine Dev.canLeave_on ?_
  rw [Dev.en, Dev.on_congr (Dev.reg_canGo _ (by decide)), Dev.on_congr (Dev.reg_canErrRec _ _ _ (by decide)),
    Dev.on_congr (Dev.reg_canErrSent _ _ _ (by decide)), ← Dev.en]
  exact Dev.en_of_live (Dev.live_of_canOn hon)

/-- A write of CAN_CTRL stores MODE, and with it bits that RECOVER does not depend on. -/
theorem Dev.storeAll_canCtrl (d : Dev) (m : Fin 8) (v : Nat) : ∃ x : W32, d.storeAll (Claims.pageCan m) 0x40 4 v = d.setReg (pgCan m + 0x40) x ∧
    bitsOf x 0 2 = bitsOf (BitVec.ofNat 32 v) 0 2 := by
  have hword : wordAt (Claims.pageCan m) 0x40 = some ⟨0x40, 1, 0, 1, 0, false,
      [⟨0, 2, .rw, 0, false⟩, ⟨2, 1, .rw, 0, false⟩, ⟨3, 1, .rw, 0, false⟩, ⟨4, 1, .wo, 0, false⟩]⟩ := rfl
  have hput (a : W32) (lsb w : Nat) := putBits_bitsOf a (BitVec.ofNat 32 v) lsb w
  refine ⟨_, Dev.storeAll_word _ _ (by decide) hword, ?_⟩
  simp only [RWord.merge, List.foldl_cons, List.foldl_nil, hput]
  rw [bitsOf_putBits_ne _ _ _ _ _ _ (by decide), bitsOf_putBits_ne _ _ _ _ _ _ (by decide), bitsOf_putBits_same _ _ _ _ (by decide)]
  exact Nat.mod_eq_of_lt (bitsOf_lt _ 0 2)

end Sys2Proof.Machine

namespace Sys2Proof.Claims
open Sys2Proof.Machine

theorem canFrames : CanFrames := by
  intro s m f sof hclk p takes full
  have hsof : sof.toNat % 2 ^ 64 = sof.toNat := Nat.mod_eq_of_lt sof.isLt
  refine ⟨fun hon hmode hfd hrec hrp htec hstate => ?_, fun b hon htx hover hmode hoffer => ?_, fun b htx hen hmode => ?_⟩
  · have hrx := Dev.canReceive_active sof.toNat hon hmode hfd hrec hrp htec hstate
    refine ⟨fun b htakes hfree hlow => ?_, fun hnone => ?_, fun hfull hsome => ?_⟩
    · refine gives_of_clocked (f := fun d => d.canReceive m f sof.toNat) hclk rfl
        (hrx.trans (Dev.canHolds_free _ b.isLt htakes hfree fun c hc => hlow ⟨c, hc.trans b.isLt⟩ hc)) ?_
      obtain ⟨hid, hstamp, hdata⟩ := s.dev.canStore_words (m := m) f sof.toNat b
      refine ⟨?_, fun c hc => ?_, hid, hstamp.trans hsof, hdata, Dev.canStore_irq .., Dev.canStore_rest ..⟩
      · rw [Dev.canStore_full _ _ _ b.isLt, if_pos rfl]
      · rw [Dev.canStore_full _ _ _ b.isLt, if_neg (Fin.val_ne_of_ne hc)]
    · have hany : (List.range 32).any (fun b => s.dev.mbAccepts m b f) = false :=
        List.any_eq_false.mpr fun b hb => hnone ⟨b, List.mem_range.mp hb⟩
      exact does_of_clocked (f := fun d => d.canReceive m f sof.toNat) hclk rfl
        (hrx.trans ((Dev.canHolds_full _ fun b hb ht => absurd ht (hnone ⟨b, hb⟩)).trans (if_neg (ne_true_of_eq_false hany))))
    · obtain ⟨c, hc⟩ := hsome
      have hany : (List.range 32).any (fun b => s.dev.mbAccepts m b f) = true := List.any_eq_true.mpr ⟨c, List.mem_range.mpr c.isLt, hc⟩
      have hlost := hrx.trans ((Dev.canHolds_full _ fun b hb => hfull ⟨b, hb⟩).trans (if_pos hany))
      refine gives_of_clocked (f := fun d => d.canReceive m f sof.toNat) hclk rfl hlost ⟨?_, Dev.bitAt_irq _ (by decide), ?_, Dev.setF_rest (Dev.setF_rest rfl ..) ..⟩
      · rw [Dev.irq, Dev.f_setF_apart _ _ rfl, Dev.inc, Dev.f_setF_same _ _ _ _ (by decide)]
        exact Nat.mod_eq_of_lt (satInc_lt _ _)
      · rw [Dev.irq, Dev.reg_setF_apart _ _ (by decide), Dev.inc, Dev.reg_setF_apart _ _ (by decide)]
  · have hwin := Dev.canArbitrate_offer hon htx hover hmode hoffer
    exact ⟨does_of_clocked (f := fun d => d.canArbitrate m true) hclk rfl (hwin true), does_of_clocked (f := fun d => d.canArbitrate m false) hclk rfl (hwin false)⟩
  · obtain ⟨x, hx⟩ := Dev.canTxDone_go sof.toNat hclk htx hen hmode
    refine gives_of_clocked (f := fun d => d.canTxDone m sof.toNat) hclk rfl hx ?_
    refine ⟨?_, ?_, ?_, ?_, ?_, ?_, ?_⟩
    · rw [Dev.canGo_can, Dev.canTecDown_can, Dev.canSent_can]
    · rw [Dev.reg_canGo _ (by decide), Dev.reg_canTecDown _ _ (by omega), Dev.canSent_request _ _ _ _ b.isLt]
    · rw [Dev.reg_canGo _ (by decide), Dev.reg_canTecDown _ _ (by omega), Dev.canSent_done _ _ _ _ b.isLt]
    · rw [Dev.f_canGo _ (by decide), Dev.canTecDown_tec, Dev.f_congr (Dev.reg_canSent _ _ _ _ (by decide) (by decide))]
    · have hstamp := s.dev.canSent_stamp m b sof.toNat
      rw [Dev.r64_stamp, Dev.r64_canGo, Dev.r64, Dev.reg_canTecDown _ _ (by omega), Dev.reg_canTecDown _ _ (by omega), ← Dev.r64, hstamp, hsof]
    · exact (Dev.bitAt_canGo_irq _ (by decide)).trans ((congrArg (bitAt · 0) (Dev.reg_canTecDown _ _ (by omega))).trans (Dev.canSent_irq ..))
    · rw [Dev.canGo_mem, Dev.canTecDown_mem, Dev.canSent_mem]

/-- A write of CAN_CTRL with RECOVER. -/
theorem recover_bit (ctrl : BitVec 4) : bitAt (BitVec.ofNat 32 (16 + ctrl.toNat)) 4 = true := by
  revert ctrl
  decide

theorem recover_mode (ctrl : BitVec 4) : bitsOf (BitVec.ofNat 32 (16 + ctrl.toNat)) 0 2 = ctrl.toNat % 4 := by
  revert ctrl
  decide

theorem recStep_eq (e : CanError) : e.recStep = if e.recUp.val = 0 then 0 else if e.recUp.val = 1 then 1 else 8 := by
  rw [CanError.recStep]
  split <;> simp_all

theorem pgCan_ne_pwr (m : Fin 8) {o n : Nat} (ho : o < 0x1000) (hn : n < 0x1000) : pgCan m + o ≠ pgPwr + n := by
  simp only [pgCan, pgPwr]
  omega

theorem canRequestsAndErrors : CanRequestsAndErrors := by
  intro s w m v ctrl e p
  have hreq {o : Nat} {i : Instr} {d : Dev} (hacc : Accepts s w (pageCan m) o 4 v.toNat) (ho : o < 0x1000) (hexec : exec i s = s.write w (pgCan m + o) 4 v.toNat)
      (hd : s.dev.pageWrite w (pageCan m) o 4 v.toNat = d) : Wrote i s d :=
    hacc.wrote (pgCan_aligned m) ho (pageAt_can m) v.isLt hexec hd
  refine ⟨fun hacc => ?_, fun hacc => ?_, fun hacc => ?_, fun hacc hstate hlive => ?_, fun hclk hon hover => ?_, fun hclk hlive hstate hrec => ?_,
    fun hclk hlive hstate => ?_, fun hclk hon hlec => ?_⟩
  · refine hreq hacc (by decide) rfl ?_
    rw [Dev.pageWrite_can _ _ _ _ (by decide) rfl, if_neg (by decide), if_pos rfl, BitVec.ofNat_toNat, BitVec.setWidth_eq]
    rfl
  · refine hreq hacc (by decide) rfl ?_
    rw [Dev.pageWrite_can _ _ _ _ (by decide) rfl, if_neg (by decide), if_neg (by decide), if_pos rfl, BitVec.ofNat_toNat, BitVec.setWidth_eq]
    rfl
  · refine hreq hacc (by decide) rfl ?_
    rw [Dev.pageWrite_can _ _ _ _ (by decide) rfl, if_neg (by decide), if_neg (by decide), if_neg (by decide), if_pos rfl, BitVec.ofNat_toNat, BitVec.setWidth_eq]
    rfl
  · have hctrl := ctrl.isLt
    obtain ⟨x, hx, hmode⟩ := s.dev.storeAll_canCtrl m (16 + ctrl.toNat)
    have hkept {o : Nat} (ho : 0x40 ≠ o) : (s.dev.setReg (p + 0x40) x).reg (p + o) = s.dev.reg (p + o) := Dev.reg_setReg_ne _ _ (by omega)
    have hlive' : (s.dev.setReg (p + 0x40) x).live p = true := (Dev.live_congr (Dev.reg_setReg_ne _ _ (pgCan_ne_pwr m (by decide) (by decide)))
      (Dev.reg_setReg_ne _ _ (pgCan_ne_pwr m (by decide) (by decide))) (hkept (by decide))).trans hlive
    have hstate' : (s.dev.setReg (p + 0x40) x).canState m = 2 := (Dev.f_congr (hkept (by decide))).trans hstate
    refine hacc.gives (pgCan_aligned m) (by decide) (pageAt_can m) (by omega) rfl ((s.dev.pageWrite_can w 4 _ (by decide) rfl).trans
      ((if_pos rfl).trans (if_pos (recover_bit ctrl)))) ?_
    rw [hx, show (pageCan m).inst = m from rfl, Dev.canRecover, if_pos ⟨hstate', hlive'⟩]
    refine ⟨?_, ?_, ?_, ?_, ?_, Dev.wrote_resp ..⟩
    · rw [Dev.wrote_can, Dev.can_setCan_same]
    · rw [Dev.wrote_can, Dev.can_setCan_same]
      rfl
    · exact (Dev.wrote_f ..).trans ((Dev.f_setCan ..).trans hstate')
    · rw [Dev.wrote_f, Dev.f_setCan, Dev.f, show F.CAN_CTRL_MODE.ofs = 0x40 from rfl, Dev.reg_setReg_same, show F.CAN_CTRL_MODE.lsb = 0 from rfl,
        show F.CAN_CTRL_MODE.width = 2 from rfl, hmode, recover_mode]
    · rw [Dev.wrote_mem, Dev.setCan_mem, Dev.setReg_mem]
  · obtain ⟨e, y, hmem, hregs, hoff⟩ := Dev.canBusOff_go hon hover
    refine gives_of_clocked (f := fun d => d.canBusOff m) hclk rfl hoff ⟨Dev.canGo_state (by decide), ?_, ?_, ?_, Dev.canGo_irq ?_, ?_⟩
    · rw [Dev.canGo_can, Dev.can_setF, Dev.can_setCan_same]
    · rw [Dev.canGo_can, Dev.can_setF, Dev.can_setCan_same]
    · rw [Dev.canGo_can, Dev.can_setF, Dev.can_setCan_same]
    · rw [Dev.canState, Dev.f_setF_apart _ _ rfl, Dev.f_setCan, Dev.f_of_regs hregs]
      exact Nat.ne_of_lt (Dev.canOn_state hon)
    · rw [Dev.canGo_mem, Dev.setF_mem, Dev.setCan_mem, hmem]
  · refine gives_of_clocked (f := fun d => d.canJoin m) hclk rfl (Dev.canJoin_recovered hclk hlive hstate hrec)
      ⟨Dev.canGo_state (by decide), ?_, ?_, ?_, ?_, Dev.canGo_irq ?_, ?_⟩
    · rw [Dev.f_canGo _ (by decide), Dev.canCleared, Dev.f_setCan, Dev.setB, Dev.f_setF_apart _ _ rfl, Dev.f_setF_apart _ _ rfl, Dev.f_setF_same _ _ _ _ (by decide)]
      rfl
    · rw [Dev.f_canGo _ (by decide), Dev.canCleared, Dev.f_setCan, Dev.setB, Dev.f_setF_apart _ _ rfl, Dev.f_setF_same _ _ _ _ (by decide)]
      rfl
    · rw [Dev.on, Dev.f_canGo _ (by decide), ← Dev.on, Dev.canCleared, Dev.on_setCan, Dev.on_setB_same _ _ _ _ rfl (by decide)]
    · rw [Dev.canGo_can, Dev.canCleared, Dev.can_setCan_same]
    · rw [Dev.canState, Dev.canCleared, Dev.f_setCan, Dev.setB, Dev.f_setF_apart _ _ rfl, Dev.f_setF_apart _ _ rfl, Dev.f_setF_apart _ _ rfl, ← Dev.canState, hstate]
      decide
    · rw [Dev.canGo_mem, Dev.canCleared, Dev.setCan_mem, Dev.setB, Dev.setF_mem, Dev.setF_mem, Dev.setF_mem]
  · have hcount := s.dev.canCounters_lt (m := m)
    refine gives_of_clocked (f := fun d => d.canJoin m) hclk rfl (Dev.canJoin_integrated hclk hlive hstate) ?_
    rw [Dev.canGo_state (by omega)]
    exact ⟨Dev.canCounters_passive, hcount, Dev.canGo_irq (by omega), Dev.canGo_rest _ rfl⟩
  · intro tec rec'
    obtain ⟨x, hx⟩ := Dev.canBusError_go e hon hlec
    have hrec : s.dev.f p F.CAN_ERRC_REC + e.recStep = rec' := congrArg _ (recStep_eq e)
    refine gives_of_clocked (f := fun d => d.canBusError m e) hclk rfl hx ⟨?_, ?_, ?_, ?_, ?_, ?_, ?_⟩
    · rw [Dev.f_canGo _ (by decide), Dev.f_canErrRec _ _ _ (by decide), Dev.canErrSent_lec]
    · rw [Dev.f_canGo _ (by decide), Dev.f_canErrRec _ _ _ (by decide), Dev.canErrSent_tec]
    · rw [Dev.canGo_can, Dev.canErrRec_can, Dev.canErrSent_can]
    · rw [Dev.canGo_can, Dev.canErrRec_can, Dev.canErrSent_can]
      simp only [Bool.or_eq_true, decide_eq_true_eq]
      rfl
    · rw [Dev.f_canGo _ (by decide), Dev.canErrRec_rec, hrec]
    · rw [Dev.reg_canGo _ (by decide), Dev.reg_canErrRec _ _ _ (by decide), Dev.reg_canErrSent _ _ _ (by decide)]
    · rw [Dev.canGo_mem, Dev.canErrRec_mem, Dev.canErrSent_mem]

/-- Settles O56. -/
theorem canControllers : Obligations.CanControllers := ⟨canFrames, canRequestsAndErrors⟩

end Sys2Proof.Claims
end

section
/-!
The xSPI and I2C ports (21 R469-R471).
-/
namespace Sys2Proof.Machine

variable {d : Dev}

theorem Dev.i2c_setB (q : Nat) (f : Fld) (b : Bool) : (d.setB q f b).i2c = d.i2c := rfl

theorem Dev.xspi_setB (q : Nat) (f : Fld) (b : Bool) : (d.setB q f b).xspi = d.xspi := rfl

theorem Dev.xspi_irq (q i : Nat) : (d.irq q i).xspi = d.xspi := rfl

/-! Bytes in a buffer of words, in ascending order -/

/-- Byte i of the buffer at an offset of a page. -/
def byteFld (o i : Nat) : Fld := ⟨o + i / 4 * 4, i % 4 * 8, 8⟩

theorem byteFld_apart {i j : Nat} (o : Nat) (h : i ≠ j) : (byteFld o i).apart (byteFld o j) = true := by
  rw [Fld.apart, Bool.or_eq_true, Bool.or_eq_true, bne_iff_ne, decide_eq_true_eq, decide_eq_true_eq]
  dsimp only [byteFld]
  omega

/-- A byte of a buffer as the statements write it. -/
theorem Dev.f_byteFld (d : Dev) (p o i : Nat) : bitsOf (d.reg (p + o + i / 4 * 4)) (i % 4 * 8) 8 = d.f p (byteFld o i) := by
  rw [Nat.add_assoc]
  rfl

/-- The first bytes of a list go into a buffer. -/
def Dev.bufPut (d : Dev) (p o : Nat) (l : List Byte) (n : Nat) : Dev := d.forN n fun i d => d.setF p (byteFld o i) (l.getD i 0).toNat

section
variable (d) (p o : Nat) (l : List Byte) (n : Nat)

theorem Dev.f_bufPut (i : Nat) : (d.bufPut p o l n).f p (byteFld o i) = if i < n then (l.getD i 0).toNat else d.f p (byteFld o i) := by
  induction n with
  | zero => rfl
  | succ n ih =>
    rw [Dev.bufPut, Dev.forN_succ, ← Dev.bufPut]
    rcases eq_or_ne n i with rfl | hne
    · rw [Dev.f_setF_same _ _ _ _ (by simp only [byteFld]; omega), if_pos (Nat.lt_succ_self n)]
      exact Nat.mod_eq_of_lt (l.getD n 0).isLt
    · rw [Dev.f_setF_apart _ _ (byteFld_apart o hne), ih]
      exact if_congr (by omega) rfl rfl

end

/-! xSPI (21 R469) -/

/-- What a transaction needs to start. -/
def Dev.xspiMay (d : Dev) : Prop :=
  d.on pgXspi F.XSPI_STATUS_ACTIVE = false ∧ d.f pgXspi F.XSPI_LEN_LEN ≤ 256 ∧
    (d.f pgXspi F.XSPI_LEN_LEN % 2 = 0 ∨ d.f pgXspi F.XSPI_CFG_PROTO ≠ 1) ∧
    (bitsOf (d.reg (pgXspi + 0x44)) 16 3 = 0 ∨ bitsOf (d.reg (pgXspi + 0x44)) 16 3 = 3 ∨ bitsOf (d.reg (pgXspi + 0x44)) 16 3 = 4)

theorem Dev.xspiGo_starts (hlive : d.live pgXspi = true) (h : d.xspiMay) : d.xspiGo =
    ({ d with xspi := { d.xspi with cmd := some ((d.reg (pgXspi + 0x44)).toNat, d.f pgXspi F.XSPI_LEN_LEN) } } : Dev).setB pgXspi F.XSPI_STATUS_ACTIVE true := by
  obtain ⟨hactive, hlen, hodd, haddr⟩ := h
  refine (if_neg (by rw [hlive]; decide)).trans (if_neg ?_)
  rintro (h | h | h | h)
  · rw [hactive] at h
    exact Bool.false_ne_true h
  · omega
  · rcases hodd with he | hp
    · omega
    · exact hp h.2
  · exact h haddr

theorem Dev.xspiGo_refused (hlive : d.live pgXspi = true) (h : ¬ d.xspiMay) : d.xspiGo = d.setB pgXspi F.XSPI_STATUS_REFUSED true := by
  refine (if_neg (by rw [hlive]; decide)).trans (if_pos ?_)
  by_contra hnot
  simp only [not_or, not_and, not_lt, Bool.not_eq_true] at hnot
  obtain ⟨hactive, hlen, hodd, haddr⟩ := hnot
  refine h ⟨hactive, hlen, ?_, ?_⟩
  · rcases Nat.mod_two_eq_zero_or_one (d.f pgXspi F.XSPI_LEN_LEN) with h0 | h1
    · exact .inl h0
    · exact .inr (hodd h1)
  · by_contra hne
    rw [not_or, not_or] at hne
    exact haddr hne.1 hne.2.1 hne.2.2

/-- The data of a transaction's end. -/
def Dev.xspiRead (d : Dev) (c n : Nat) (l : List Byte) : Dev :=
  if nbits c 24 1 = 1 then { d with xspi := { d.xspi with cmd := none } }
  else ({ d with xspi := { d.xspi with cmd := none } } : Dev).bufPut pgXspi 0x100 l (Nat.min n l.length)

theorem Dev.xspiDone_eq {c n : Nat} (l : List Byte) (hclk : d.clocksStill = false) (h : d.xspi.cmd = some (c, n)) : d.xspiDone l =
    (((d.xspiRead c n l).setB pgXspi F.XSPI_STATUS_ACTIVE false).setB pgXspi F.XSPI_STATUS_DONE true).irq pgXspi 0 := by
  rw [Dev.xspiDone]
  dsimp only
  rw [h]
  dsimp only
  rw [hclk, if_neg Bool.false_ne_true]
  rfl

section
variable (d) (c n : Nat) (l : List Byte)

theorem Dev.xspiRead_keeps {P : Dev → Prop} (h : P { d with xspi := { d.xspi with cmd := none } })
    (hset : ∀ (e : Dev) (i y : Nat), P e → P (e.setF pgXspi (byteFld 0x100 i) y)) : P (d.xspiRead c n l) := by
  unfold Dev.xspiRead
  split
  · exact h
  · exact Dev.forN_keeps _ _ h fun i _ e => hset e i _

theorem Dev.xspiRead_cmd : (d.xspiRead c n l).xspi.cmd = none := d.xspiRead_keeps c n l (P := fun e => e.xspi.cmd = none) rfl fun _ _ _ h => h

theorem Dev.xspiRead_mem : (d.xspiRead c n l).mem = d.mem := d.xspiRead_keeps c n l (P := fun e => e.mem = d.mem) rfl fun _ _ _ h => h

theorem Dev.f_xspiRead (hread : c.testBit 24 = false) {i : Nat} (hi : i < n) (hl : i < l.length) :
    (d.xspiRead c n l).f pgXspi (byteFld 0x100 i) = (l.getD i 0).toNat := by
  have hdir : nbits c 24 1 ≠ 1 := fun h => Bool.false_ne_true (hread.symm.trans ((testBit_of_nbits c 24).mp h))
  rw [Dev.xspiRead, if_neg hdir, Dev.f_bufPut, if_pos (Nat.lt_min.mpr ⟨hi, hl⟩)]

theorem Dev.reg_xspiRead (hwrite : c.testBit 24 = true) (a : Nat) : (d.xspiRead c n l).reg a = d.reg a := by
  rw [Dev.xspiRead, if_pos ((testBit_of_nbits c 24).mpr hwrite)]
  rfl

end

/-! The I2C controller (21 R470) -/

/-- The bytes that a transaction moved. -/
def I2cEnd.moved (x : I2cEnd) (len : Nat) : Nat :=
  match x with
  | .full => len
  | .nack k => Nat.min k len
  | .arbLost k => Nat.min k len

/-- The data of a transaction's end. -/
def Dev.i2cReadIn (d : Dev) (c n : Nat) (l : List Byte) : Dev :=
  if nbits c 7 1 = 0 then { d with i2c := { d.i2c with cmd := none } }
  else ({ d with i2c := { d.i2c with cmd := none } } : Dev).bufPut pgI2c 0x80 l (Nat.min n l.length)

/-- How a transaction ended. -/
def Dev.i2cOutcome (d : Dev) (x : I2cEnd) : Dev :=
  match x with
  | .full => d
  | .nack _ => d.setB pgI2c F.I2C_STATUS_NACK true
  | .arbLost _ => d.setB pgI2c F.I2C_STATUS_ARB_LOST true

/-- A transaction has ended. -/
def Dev.i2cEnded (d : Dev) (n : Nat) : Dev :=
  (((d.setF pgI2c F.I2C_STATUS_COUNT n).setB pgI2c F.I2C_STATUS_ACTIVE false).setB pgI2c F.I2C_STATUS_DONE true).irq pgI2c 0

theorem Dev.i2cDone_eq {c : Nat} (x : I2cEnd) (l : List Byte) (hclk : d.clocksStill = false) (h : d.i2c.cmd = some c) : d.i2cDone x l =
    ((d.i2cReadIn c (x.moved (Nat.min (nbits c 8 6) 32)) l).i2cOutcome x).i2cEnded (x.moved (Nat.min (nbits c 8 6) 32)) := by
  rw [Dev.i2cDone]
  dsimp only
  rw [h]
  dsimp only
  rw [hclk, if_neg Bool.false_ne_true]
  cases x <;> rfl

section
variable (d) (n : Nat)

theorem Dev.i2cEnded_shown (hn : n < 64) : (d.i2cEnded n).on pgI2c F.I2C_STATUS_ACTIVE = false ∧ (d.i2cEnded n).on pgI2c F.I2C_STATUS_DONE = true ∧
    (d.i2cEnded n).f pgI2c F.I2C_STATUS_COUNT = n ∧ bitAt ((d.i2cEnded n).reg (pgI2c + 0x24)) 0 = true := by
  refine ⟨?_, ?_, ?_, Dev.bitAt_irq _ (by decide)⟩
  · exact (Dev.on_setF_apart _ _ rfl).trans ((Dev.on_setF_apart _ _ rfl).trans (Dev.on_setB_same _ _ _ _ rfl (by decide)))
  · exact (Dev.on_setF_apart _ _ rfl).trans (Dev.on_setB_same _ _ _ _ rfl (by decide))
  · exact (Dev.f_setF_apart _ _ rfl).trans ((Dev.f_setF_apart _ _ rfl).trans ((Dev.f_setF_apart _ _ rfl).trans
      ((Dev.f_setF_same _ _ _ _ (by decide)).trans (Nat.mod_eq_of_lt hn))))

/-- What the end of a transaction leaves of a page's fields. -/
theorem Dev.f_i2cEnded {f : Fld} (h : F.I2C_STATUS_COUNT.apart f = true ∧ F.I2C_STATUS_ACTIVE.apart f = true ∧ F.I2C_STATUS_DONE.apart f = true ∧ f.ofs ≠ 0x24) :
    (d.i2cEnded n).f pgI2c f = d.f pgI2c f := by
  obtain ⟨hc, ha, hd, hi⟩ := h
  have hirq : Fld.apart ⟨0x24, 0, 1⟩ f = true := by simp [Fld.apart, hi.symm]
  rw [Dev.i2cEnded, Dev.irq, Dev.f_setF_apart _ _ hirq, Dev.setB, Dev.f_setF_apart _ _ hd, Dev.setB, Dev.f_setF_apart _ _ ha, Dev.f_setF_apart _ _ hc]

theorem Dev.i2cEnded_i2c : (d.i2cEnded n).i2c = d.i2c := rfl

theorem Dev.i2cEnded_mem : (d.i2cEnded n).mem = d.mem := rfl

variable (x : I2cEnd)

theorem Dev.i2cOutcome_i2c : (d.i2cOutcome x).i2c = d.i2c := by
  cases x <;> rfl

theorem Dev.i2cOutcome_mem : (d.i2cOutcome x).mem = d.mem := by
  cases x <;> rfl

theorem Dev.f_i2cOutcome {f : Fld} (h : f.ofs ≠ 0x10) : (d.i2cOutcome x).f pgI2c f = d.f pgI2c f := by
  have hn : F.I2C_STATUS_NACK.apart f = true := by simp [Fld.apart, F.I2C_STATUS_NACK, h.symm]
  have ha : F.I2C_STATUS_ARB_LOST.apart f = true := by simp [Fld.apart, F.I2C_STATUS_ARB_LOST, h.symm]
  cases x with
  | full => rfl
  | nack _ => exact Dev.f_setF_apart _ _ hn
  | arbLost _ => exact Dev.f_setF_apart _ _ ha

variable (c : Nat) (l : List Byte)

theorem Dev.i2cReadIn_keeps {P : Dev → Prop} (h : P { d with i2c := { d.i2c with cmd := none } })
    (hset : ∀ (e : Dev) (i y : Nat), P e → P (e.setF pgI2c (byteFld 0x80 i) y)) : P (d.i2cReadIn c n l) := by
  unfold Dev.i2cReadIn
  split
  · exact h
  · exact Dev.forN_keeps _ _ h fun i _ e => hset e i _

theorem Dev.i2cReadIn_cmd : (d.i2cReadIn c n l).i2c.cmd = none := d.i2cReadIn_keeps n c l (P := fun e => e.i2c.cmd = none) rfl fun _ _ _ h => h

theorem Dev.i2cReadIn_mem : (d.i2cReadIn c n l).mem = d.mem := d.i2cReadIn_keeps n c l (P := fun e => e.mem = d.mem) rfl fun _ _ _ h => h

theorem Dev.f_i2cReadIn (hread : c.testBit 7 = true) {i : Nat} (hi : i < n) (hl : i < l.length) :
    (d.i2cReadIn c n l).f pgI2c (byteFld 0x80 i) = (l.getD i 0).toNat := by
  have hdir : nbits c 7 1 ≠ 0 := by rw [(testBit_of_nbits c 7).mpr hread]; decide
  rw [Dev.i2cReadIn, if_neg hdir, Dev.f_bufPut, if_pos (Nat.lt_min.mpr ⟨hi, hl⟩)]

end

/-! The I2C target (21 R471) -/

/-- A byte of the mailbox. -/
def Dev.mail (d : Dev) (i : Nat) : Nat := d.f pgI2c (byteFld 0x800 i)

/-- A byte of a write that goes into the mailbox. -/
def Dev.i2cPutByte (d : Dev) (b : Byte) : Dev :=
  let q := d.i2c.ptr
  let e := ({ d with i2c := { d.i2c with ptr := (q + 1) % 65536 } } : Dev).busByte q b
  (((e.setF pgI2c (byteFld 0x800 q) b.toNat).setF pgI2c F.I2C_STATUS_LAST q).setB pgI2c F.I2C_STATUS_MBOX_WR true).irq pgI2c 1

theorem Dev.i2cPut_cons (b : Byte) (r : List Byte) (h : d.i2c.ptr < 256) : d.i2cPut (b :: r) = (d.i2cPutByte b).i2cPut r := by
  rw [Dev.i2cPut]
  dsimp only
  rw [if_pos h]
  rfl

section
variable (d) (b : Byte)

theorem Dev.i2cPutByte_ptr : (d.i2cPutByte b).i2c.ptr = (d.i2c.ptr + 1) % 65536 := rfl

theorem Dev.i2cPutByte_mem : (d.i2cPutByte b).mem = d.mem := rfl

theorem Dev.i2cPutByte_written : (d.i2cPutByte b).on pgI2c F.I2C_STATUS_MBOX_WR = true ∧ bitAt ((d.i2cPutByte b).reg (pgI2c + 0x24)) 1 = true :=
  ⟨(Dev.on_setF_apart _ _ rfl).trans (Dev.on_setB_same _ _ _ _ rfl (by decide)), Dev.bitAt_irq _ (by decide)⟩

theorem Dev.mail_i2cPutByte (i : Nat) : (d.i2cPutByte b).mail i = if i = d.i2c.ptr then b.toNat else d.mail i := by
  have hstatus (f : Fld) (h : f.ofs < 0x800) : f.apart (byteFld 0x800 i) = true := by
    simp only [Fld.apart, byteFld, Bool.or_eq_true, bne_iff_ne]
    omega
  unfold Dev.mail Dev.i2cPutByte
  dsimp only
  rw [Dev.irq, Dev.f_setF_apart _ _ (hstatus _ (by decide)), Dev.setB, Dev.f_setF_apart _ _ (hstatus _ (by decide)),
    Dev.f_setF_apart _ _ (hstatus _ (by decide))]
  split
  · rename_i hi
    rw [hi, Dev.f_setF_same _ _ _ _ (by simp only [byteFld]; omega)]
    exact Nat.mod_eq_of_lt b.isLt
  · rename_i hi
    rw [Dev.f_setF_apart _ _ (byteFld_apart _ (Ne.symm hi))]
    rfl

end

/-- A write of a bus controller that ends within the mailbox. -/
theorem Dev.i2cPut_mailbox (l : List Byte) (d : Dev) (h : d.i2c.ptr + l.length ≤ 256) :
    (d.i2cPut l).i2c.ptr = d.i2c.ptr + l.length ∧ (∀ i, i < l.length → (d.i2cPut l).mail (d.i2c.ptr + i) = (l.getD i 0).toNat) ∧
      (∀ i, i < d.i2c.ptr ∨ d.i2c.ptr + l.length ≤ i → (d.i2cPut l).mail i = d.mail i) ∧ (d.i2cPut l).mem = d.mem := by
  induction l generalizing d with
  | nil => exact ⟨rfl, fun i hi => absurd hi (Nat.not_lt_zero i), fun _ _ => rfl, rfl⟩
  | cons b r ih =>
    rw [List.length_cons] at h
    have hptr : (d.i2cPutByte b).i2c.ptr = d.i2c.ptr + 1 := (d.i2cPutByte_ptr b).trans (Nat.mod_eq_of_lt (by omega))
    obtain ⟨hend, hin, hout, hmem⟩ := ih (d.i2cPutByte b) (by omega)
    rw [hptr] at hend hin hout
    rw [Dev.i2cPut_cons b r (by omega), List.length_cons]
    refine ⟨by omega, fun i hi => ?_, fun i hi => ?_, hmem.trans (d.i2cPutByte_mem b)⟩
    · cases i with
      | zero => rw [hout _ (by omega), Dev.mail_i2cPutByte, if_pos (by omega)]; rfl
      | succ i => rw [show d.i2c.ptr + (i + 1) = d.i2c.ptr + 1 + i by omega, hin i (by omega)]; rfl
    · rw [hout i (by omega), Dev.mail_i2cPutByte, if_neg (by omega)]

/-- A write that reached the mailbox says so. -/
theorem Dev.i2cPut_written (l : List Byte) (d : Dev) (hl : l ≠ []) (h : d.i2c.ptr + l.length ≤ 256) :
    (d.i2cPut l).on pgI2c F.I2C_STATUS_MBOX_WR = true ∧ bitAt ((d.i2cPut l).reg (pgI2c + 0x24)) 1 = true := by
  induction l generalizing d with
  | nil => exact absurd rfl hl
  | cons b r ih =>
    rw [List.length_cons] at h
    rw [Dev.i2cPut_cons b r (by omega)]
    cases r with
    | nil => exact d.i2cPutByte_written b
    | cons c t => exact ih _ (by simp) (by rw [Dev.i2cPutByte_ptr, Nat.mod_eq_of_lt (by omega)]; omega)

/-- A byte of a read that comes from the mailbox. -/
theorem Dev.i2cByte_mailbox (h : d.i2c.ptr < 256) : d.i2cByte =
    (({ d with i2c := { d.i2c with ptr := (d.i2c.ptr + 1) % 65536 } } : Dev).setB pgI2c F.I2C_STATUS_MBOX_RD true, BitVec.ofNat 8 (d.mail d.i2c.ptr)) :=
  if_pos h

theorem Dev.mail_setB_status (p : Nat) (b : Bool) : (d.setB pgI2c F.I2C_STATUS_MBOX_RD b).mail p = d.mail p :=
  Dev.f_setF_apart _ _ (by simp only [Fld.apart, byteFld, F.I2C_STATUS_MBOX_RD, Bool.or_eq_true, bne_iff_ne]; omega)

/-- A read of a bus controller that ends within the mailbox. -/
theorem Dev.i2cBytes_mailbox (n : Nat) (d : Dev) (h : d.i2c.ptr + n ≤ 256) : (d.i2cBytes n).1.i2c.ptr = d.i2c.ptr + n ∧
    (d.i2cBytes n).2 = (List.range n).map (fun i => BitVec.ofNat 8 (d.mail (d.i2c.ptr + i))) ∧
    (0 < n → (d.i2cBytes n).1.on pgI2c F.I2C_STATUS_MBOX_RD = true) ∧ (d.i2cBytes n).1.mem = d.mem := by
  induction n generalizing d with
  | zero => exact ⟨rfl, rfl, fun h => absurd h (Nat.lt_irrefl 0), rfl⟩
  | succ n ih =>
    generalize he : ({ d with i2c := { d.i2c with ptr := (d.i2c.ptr + 1) % 65536 } } : Dev).setB pgI2c F.I2C_STATUS_MBOX_RD true = e
    have hptr : e.i2c.ptr = d.i2c.ptr + 1 := he ▸ Nat.mod_eq_of_lt (by omega)
    have hmail (i : Nat) : e.mail i = d.mail i := he ▸ Dev.mail_setB_status (d := { d with i2c := _ }) i true
    have hread : e.on pgI2c F.I2C_STATUS_MBOX_RD = true := he ▸ Dev.on_setB_same _ _ _ _ rfl (by decide)
    have hmem : e.mem = d.mem := he ▸ rfl
    have hstep : d.i2cBytes (n + 1) = ((e.i2cBytes n).1, BitVec.ofNat 8 (d.mail d.i2c.ptr) :: (e.i2cBytes n).2) := by
      rw [Dev.i2cBytes, Dev.i2cByte_mailbox (by omega), he]
    obtain ⟨hend, hbytes, hrd, hkept⟩ := ih e (by omega)
    rw [hstep]
    refine ⟨hend.trans (by omega), ?_, fun _ => ?_, hkept.trans hmem⟩
    · rw [hbytes, List.range_succ_eq_map, List.map_cons, List.map_map, hptr]
      refine congrArg₂ _ rfl (List.map_congr_left fun i _ => ?_)
      rw [hmail, Function.comp, show d.i2c.ptr + 1 + i = d.i2c.ptr + (i + 1) by omega]
    · cases n with
      | zero => exact hread
      | succ n => exact hrd (Nat.succ_pos n)

end Sys2Proof.Machine

namespace Sys2Proof.Claims
open Sys2Proof.Machine

/-- The bytes that a controller's transaction moved, by how it ended (21 R470). -/
theorem moved_eq (x : I2cEnd) (c : Nat) : x.moved (Nat.min (nbits c 8 6) 32) =
    Nat.min (Nat.min (match x with | .full => 32 | .nack j => j | .arbLost j => j) (c / 256 % 64)) 32 := by
  have hlen : nbits c 8 6 = c / 256 % 64 := by
    rw [nbits, Nat.shiftRight_eq_div_pow]
    rfl
  rw [hlen]
  have hmin (a b : Nat) : Nat.min a b = min a b := rfl
  cases x <;> simp only [I2cEnd.moved, hmin] <;> omega

theorem serialControllers : SerialControllers := by
  intro s w l x c n cmd len addr startable
  refine ⟨fun hacc hlive => ⟨fun hmay => ?_, fun hno => ?_⟩, fun hacc => ?_, fun hclk hcmd hn => ?_, fun hacc hlive hcen => ⟨fun hidle => ?_, fun hactive => ?_⟩, ?_⟩
  · refine hacc.gives (by decide) (by decide) rfl (by decide) rfl ((s.dev.pageWrite_xspi w 4 1 (by decide) rfl).trans
      ((if_pos rfl).trans (Dev.xspiGo_starts hlive hmay))) ⟨?_, ?_, ?_, Dev.wrote_resp ..⟩
    · rw [Dev.wrote_xspi, Dev.xspi_setB]
    · exact (Dev.wrote_on ..).trans (Dev.on_setB_same _ _ _ _ rfl (by decide))
    · rw [Dev.wrote_mem, Dev.setB_mem]
  · refine hacc.gives (by decide) (by decide) rfl (by decide) rfl ((s.dev.pageWrite_xspi w 4 1 (by decide) rfl).trans
      ((if_pos rfl).trans (Dev.xspiGo_refused hlive hno))) ⟨?_, ?_, ?_, Dev.wrote_resp ..⟩
    · rw [Dev.wrote_xspi, Dev.xspi_setB]
    · exact (Dev.wrote_on ..).trans (Dev.on_setB_same _ _ _ _ rfl (by decide))
    · rw [Dev.wrote_mem, Dev.setB_mem]
  · exact hacc.wrote (by decide) (by decide) rfl (by decide) rfl ((s.dev.pageWrite_xspi w 4 2 (by decide) rfl).trans (if_pos rfl))
  · have hstatus {f : Fld} {e : Dev} (hf : (F.XSPI_STATUS_ACTIVE.apart f && F.XSPI_STATUS_DONE.apart f && Fld.apart ⟨0x24, 0, 1⟩ f) = true) :
        (((e.setB pgXspi F.XSPI_STATUS_ACTIVE false).setB pgXspi F.XSPI_STATUS_DONE true).irq pgXspi 0).f pgXspi f = e.f pgXspi f := by
      simp only [Bool.and_eq_true] at hf
      rw [Dev.irq, Dev.f_setF_apart _ _ hf.2, Dev.setB, Dev.f_setF_apart _ _ hf.1.2, Dev.setB, Dev.f_setF_apart _ _ hf.1.1]
    refine gives_of_clocked (f := fun d => d.xspiDone l) hclk rfl (Dev.xspiDone_eq l hclk hcmd)
      ⟨?_, ?_, ?_, Dev.bitAt_irq _ (by decide), ?_, fun i hread hi hl => ?_, fun i hwrite hi => ?_⟩
    · rw [Dev.xspi_irq, Dev.xspi_setB, Dev.xspi_setB, Dev.xspiRead_cmd]
    · exact (Dev.on_setF_apart _ _ rfl).trans ((Dev.on_setF_apart _ _ rfl).trans (Dev.on_setB_same _ _ _ _ rfl (by decide)))
    · exact (Dev.on_setF_apart _ _ rfl).trans (Dev.on_setB_same _ _ _ _ rfl (by decide))
    · rw [Dev.irq_mem, Dev.setB_mem, Dev.setB_mem, Dev.xspiRead_mem]
    · rw [Dev.f_byteFld, hstatus (by simp [Fld.apart, byteFld, F.XSPI_STATUS_ACTIVE, F.XSPI_STATUS_DONE]; omega), Dev.f_xspiRead _ _ _ _ hread hi hl]
    · rw [Dev.irq, Dev.reg_setF_ne _ _ _ _ (by dsimp only; omega), Dev.setB, Dev.reg_setF_ne _ _ _ _ (by simp only [F.XSPI_STATUS_DONE]; omega),
        Dev.setB, Dev.reg_setF_ne _ _ _ _ (by simp only [F.XSPI_STATUS_ACTIVE]; omega), Dev.reg_xspiRead _ _ _ _ hwrite]
  · refine hacc.gives (by decide) (by decide) rfl (by decide) rfl ((s.dev.pageWrite_i2c w 4 1 (by decide) rfl).trans
      ((if_pos rfl).trans ((if_pos rfl).trans (if_neg (by rw [hlive, hcen, hidle]; decide))))) ⟨?_, ?_, ?_, Dev.wrote_resp ..⟩
    · rw [Dev.wrote_i2c, Dev.i2c_setB]
    · exact (Dev.wrote_on ..).trans (Dev.on_setB_same _ _ _ _ rfl (by decide))
    · rw [Dev.wrote_mem, Dev.setB_mem]
  · exact hacc.wrote (by decide) (by decide) rfl (by decide) rfl ((s.dev.pageWrite_i2c w 4 1 (by decide) rfl).trans
      ((if_pos rfl).trans ((if_pos rfl).trans (if_pos (by rw [hactive, Bool.or_true])))))
  · intro k hclk hcmd
    have hmoved := moved_eq x c
    generalize hk : x.moved (Nat.min (nbits c 8 6) 32) = moved at hmoved
    have hle : moved ≤ 32 := hmoved ▸ Nat.min_le_right _ _
    refine gives_of_clocked (f := fun d => d.i2cDone x l) hclk rfl ((Dev.i2cDone_eq x l hclk hcmd).trans (by rw [hk])) ?_
    obtain ⟨hactive, hdone, hcount, hirq⟩ := ((s.dev.i2cReadIn c moved l).i2cOutcome x).i2cEnded_shown moved (by omega)
    refine ⟨?_, hactive, hdone, hcount.trans hmoved, ?_, ?_, hirq, ?_, fun i hread hi hl => ?_⟩
    · rw [Dev.i2cEnded_i2c, Dev.i2cOutcome_i2c, Dev.i2cReadIn_cmd]
    · rintro ⟨j, rfl⟩
      rw [Dev.on, Dev.f_i2cEnded _ _ (by decide), ← Dev.on, Dev.i2cOutcome, Dev.on_setB_same _ _ _ _ rfl (by decide)]
    · rintro ⟨j, rfl⟩
      rw [Dev.on, Dev.f_i2cEnded _ _ (by decide), ← Dev.on, Dev.i2cOutcome, Dev.on_setB_same _ _ _ _ rfl (by decide)]
    · rw [Dev.i2cEnded_mem, Dev.i2cOutcome_mem, Dev.i2cReadIn_mem]
    · rw [Dev.f_byteFld, Dev.f_i2cEnded _ _ (by simp [Fld.apart, byteFld, F.I2C_STATUS_ACTIVE, F.I2C_STATUS_DONE, F.I2C_STATUS_COUNT]; omega),
        Dev.f_i2cOutcome _ _ (by simp only [byteFld]; omega), Dev.f_i2cReadIn _ _ _ _ hread (hmoved ▸ hi) hl]

theorem i2cTarget : I2cTarget := by
  intro s a hi lo l n hclk mail p
  have hmail (d : Dev) (i : Nat) : mail d i = d.mail i := d.f_byteFld pgI2c 0x800 i
  refine ⟨fun hmine hp => ?_, fun hmine hp => ?_, fun hother => ⟨?_, ?_⟩⟩
  · have hput := Dev.i2cPut_mailbox l { s.dev with i2c := { s.dev.i2c with ptr := p } } hp
    obtain ⟨hptr, hin, hout, hmem⟩ := hput
    refine gives_of_clocked (f := fun d => d.i2cWrite a.toNat (hi :: lo :: l)) hclk rfl (if_neg (by rw [hmine]; decide)) ⟨hptr, fun i hi => ?_, fun i hi _ => ?_,
      fun hl => Dev.i2cPut_written l _ hl hp, hmem⟩
    · rw [hmail]
      exact hin i hi
    · rw [hmail, hmail]
      exact hout i hi
  · obtain ⟨hptr, hbytes, hread, hmem⟩ := Dev.i2cBytes_mailbox n s.dev hp
    refine gives_of_clocked (f := fun d => d.i2cRead a.toNat n) hclk rfl (if_neg (by rw [hmine]; decide)) ⟨hptr, ?_, hread, hmem⟩
    simp only [hmail]
    exact congrArg valueLE hbytes
  · exact does_of_clocked (f := fun d => d.i2cWrite a.toNat l) hclk rfl (if_pos (by rw [hother]; rfl))
  · exact does_of_clocked (f := fun d => d.i2cRead a.toNat n) hclk rfl (if_pos (by rw [hother]; rfl))

/-- Settles O57. -/
theorem serialPorts : Obligations.SerialPorts := ⟨serialControllers, i2cTarget⟩

end Sys2Proof.Claims
end

section
/-!
The trace unit (22 R486, R487): how TRC_CTRL.EN starts it, and how a full line reaches its ring.
-/
namespace Sys2Proof.Machine

/-! The start -/

/-- A device is as another, but for what its trace unit has seen of the events. -/
def Dev.MarkKeeps (d e : Dev) : Prop := { e with trace := { e.trace with seen := d.trace.seen, mark := d.trace.mark } } = d

section
variable {d e : Dev}

theorem Dev.MarkKeeps.regs (h : d.MarkKeeps e) : e.regs = d.regs := (congrArg Dev.regs h : _)

theorem Dev.MarkKeeps.mem (h : d.MarkKeeps e) : e.mem = d.mem := (congrArg Dev.mem h : _)

theorem Dev.MarkKeeps.buf (h : d.MarkKeeps e) : e.trace.buf = d.trace.buf := (congrArg (fun x : Dev => x.trace.buf) h : _)

theorem Dev.MarkKeeps.lost (h : d.MarkKeeps e) : e.trace.lost = d.trace.lost := (congrArg (fun x : Dev => x.trace.lost) h : _)

end

theorem Dev.traceMarks_keeps (d : Dev) : d.MarkKeeps d.traceMarks := by
  refine foldl_keeps (P := d.MarkKeeps) _ _ rfl fun x _ e he => ?_
  unfold Dev.MarkKeeps at he ⊢
  split
  · exact he
  · exact he

/-- Trace starts: an ALIGN in an empty buffer, and TRC_WPTR at the ring's start. -/
def Dev.traceStarted (d : Dev) : Dev :=
  let d := ((d.setB pgDbg F.TRC_CTRL_EN true).setB pgDbg F.TRC_CTRL_STOPPED false).setF pgDbg F.TRC_WPTR_WPTR 0
  { d with trace := { d.trace with buf := alignBytes, sent := 12, lost := 0, first := d.tick, round := false } }

section
variable (d : Dev) (t : Trace)

theorem Dev.on_trace (p : Nat) (f : Fld) : ({ d with trace := t } : Dev).on p f = d.on p f := rfl

theorem Dev.f_trace (p : Nat) (f : Fld) : ({ d with trace := t } : Dev).f p f = d.f p f := rfl

theorem Dev.mem_trace : ({ d with trace := t } : Dev).mem = d.mem := rfl

end

/-- TRC_CTRL with the fields that a write of it keeps and takes as they are. -/
def Dev.trcWritten (d : Dev) (v : W32) : Dev := d.setReg (pgDbg + 0x40) ((d.reg (pgDbg + 0x40) &&& 0x9) ||| (v &&& 0x6))

theorem Dev.trcCtrl_start {d : Dev} {v : W32} (hv : v.toNat % 4 = 1) (hen : d.on pgDbg F.TRC_CTRL_EN = false) :
    d.trcCtrl v = ((d.trcWritten v).traceStarted.traceMarks, none) := by
  have h0 : bitAt v 0 = true := by
    rw [bitAt, ← BitVec.testBit_toNat, Nat.testBit_zero, decide_eq_true_eq]
    omega
  have h1 : v.getLsbD 1 = false := by
    rw [← BitVec.testBit_toNat, Nat.testBit_succ, Nat.testBit_zero, decide_eq_false_iff_not]
    omega
  have hdest : (d.trcWritten v).on pgDbg F.TRC_CTRL_DEST = false := by
    rw [F.TRC_CTRL_DEST, Dev.on_bit, Dev.trcWritten, Dev.reg_setReg_same, bitAt, BitVec.getLsbD_or, BitVec.getLsbD_and, BitVec.getLsbD_and, h1]
    exact Bool.or_eq_false_iff.mpr ⟨Bool.and_false _, rfl⟩
  have hoff : (d.trcWritten v).on pgDbg F.TRC_CTRL_EN = false := by
    rw [F.TRC_CTRL_EN, Dev.on_bit] at hen ⊢
    rw [Dev.trcWritten, Dev.reg_setReg_same, bitAt, BitVec.getLsbD_or, BitVec.getLsbD_and, BitVec.getLsbD_and, ← bitAt, hen]
    exact Bool.and_false _
  unfold Dev.trcCtrl
  dsimp only
  rw [← Dev.trcWritten, h0, if_neg (by decide), hdest, Bool.false_and, if_neg (by decide), hoff, if_neg (by decide), Dev.traceStarted]

theorem Dev.traceStarted_en (d : Dev) : d.traceStarted.on pgDbg F.TRC_CTRL_EN = true := by
  rw [Dev.traceStarted, Dev.on_trace, Dev.on_setF_apart _ _ rfl, Dev.setB, Dev.on_setF_apart _ _ rfl, Dev.on_setB_same _ _ _ _ rfl (by decide)]

theorem Dev.traceStarted_wptr (d : Dev) : d.traceStarted.f pgDbg F.TRC_WPTR_WPTR = 0 := by
  rw [Dev.traceStarted, Dev.f_trace, Dev.f_setF_same _ _ _ _ (by decide), Nat.zero_mod]

theorem Dev.traceStarted_mem (d : Dev) : d.traceStarted.mem = d.mem := by
  rw [Dev.traceStarted, Dev.mem_trace, Dev.setF_mem, Dev.setB_mem, Dev.setB_mem]

theorem domOn_of_dbgLevel {d : Dev} (h : 1 ≤ d.dbgLevel) : d.domOn domDbg = true := by
  unfold Dev.dbgLevel at h
  split at h
  · assumption
  · omega

theorem dbgPart_trcCtrl : dbgPart (pgDbg + 0x40) = .control 0x40 := by decide

theorem findWord_trcCtrl : ((findWord .dbg 0x40).map fun r => r.fields.any (fun f => f.ty = .rw)) = some true := by decide

/-- The debug bus master may write TRC_CTRL while the device runs. -/
theorem Dev.dbgCause_trcCtrl {d : Dev} (hon : d.domOn domDbg = true) : d.dbgCause dbgWho (pgDbg + 0x40) 4 true = none := by
  obtain ⟨r, hr, hrw⟩ := Option.map_eq_some_iff.mp findWord_trcCtrl
  unfold Dev.dbgCause
  dsimp only
  rw [dbgPart_trcCtrl, hon, if_neg (by decide), if_neg (by decide), if_neg (by decide)]
  dsimp only
  rw [hr, if_neg (fun h => h.1 rfl), if_neg (by decide), if_neg (by decide), if_neg (fun h => absurd h.1 (by decide))]
  dsimp only
  rw [if_pos hrw]

theorem Dev.controlWrite_trcCtrl (d : Dev) (v : W32) : d.controlWrite 0x40 v = d.trcCtrl v := by
  obtain ⟨r, hr, -⟩ := Option.map_eq_some_iff.mp findWord_trcCtrl
  rw [Dev.controlWrite, hr]
  exact if_pos rfl

theorem Dev.busWrite_trcCtrl {d : Dev} (hon : d.domOn domDbg = true) {v : W32} (h : (d.trcCtrl v).2 = none) :
    d.busWrite dbgWho (pgDbg + 0x40) 4 (v.setWidth 64).toNat = { (d.trcCtrl v).1 with resp := {} } := by
  have hv : BitVec.ofNat 32 ((v.setWidth 64).toNat % 2 ^ (8 * 4)) = v := by
    apply BitVec.eq_of_toNat_eq
    rw [BitVec.toNat_ofNat, BitVec.toNat_setWidth]
    omega
  unfold Dev.busWrite
  dsimp only
  rw [if_pos (by decide)]
  unfold Dev.dbgWrite
  rw [Dev.dbgCause_trcCtrl hon]
  dsimp only
  rw [dbgPart_trcCtrl]
  dsimp only
  rw [hv, Dev.controlWrite_trcCtrl, if_neg (by decide)]
  dsimp only
  rw [h]
  rfl

/-- TRC_CTRL as the debug bus master writes it. -/
theorem Dbg.bus_trcCtrl {d : Dev} (x : Vopen) {v : W32} (hlevel : 1 ≤ d.dbgLevel) (hrun : d.sys.halted = false) (h : (d.trcCtrl v).2 = none) :
    Dbg.bus (x, d) (BitVec.ofNat 48 (pgDbg + 0x40)) 2 true (v.setWidth 64) =
      ({ x with ir := .voBus, busStatus := 0, busCause := 0, busData := 0, busAddr := pgDbg + 0x40 }, { (d.trcCtrl v).1 with resp := {} }) := by
  have haddr : (BitVec.ofNat 48 (pgDbg + 0x40)).toNat = pgDbg + 0x40 := by decide
  have hconfig : traceConfig (pgDbg + 0x40) = true := by decide
  unfold Dbg.bus
  dsimp only
  rw [haddr, hconfig, hrun, if_neg (by omega), if_neg (by rw [Bool.not_true, Bool.and_false]; decide),
    if_neg (by rw [Bool.false_and]; decide), if_pos (by decide), if_pos rfl]
  rw [show 2 ^ (2 : BitVec 2).toNat = 4 from rfl, Dev.busWrite_trcCtrl (domOn_of_dbgLevel hlevel) h]
  rfl

/-! The ring -/

/-- A line and its place after a line of the trace reaches the ring at address a. -/
def Dev.traceWritten (d : Dev) (a w : Nat) : Dev :=
  let e := d.putClean a (d.trace.buf.take 64)
  ({ e with trace := { d.trace with buf := d.trace.buf.drop 64, first := e.tick, round := w == 0 } }).setF pgDbg F.TRC_WPTR_WPTR w

theorem Dev.traceLine_full {d : Dev} (hclk : d.clocksStill = false) (htrace : d.tracing = true) (hdest : d.on pgDbg F.TRC_CTRL_DEST = true)
    (hlen : 64 ≤ d.trace.buf.length) (hround : d.trace.round = false)
    (hok : d.memCause (d.r64 pgDbg 0xC0 + d.f pgDbg F.TRC_WPTR_WPTR) 64 true false = none) :
    d.traceLine = d.traceWritten (d.r64 pgDbg 0xC0 + d.f pgDbg F.TRC_WPTR_WPTR)
      ((d.f pgDbg F.TRC_WPTR_WPTR + 64) % 2 ^ d.f pgDbg F.TRC_RING_SIZE_LOG2) := by
  have hbuf : d.trace.buf.isEmpty = false := by
    rw [List.isEmpty_eq_false_iff]
    rintro h
    rw [h] at hlen
    exact absurd hlen (by decide)
  have hpad : d.trace.buf.take 64 ++ List.replicate (64 - (d.trace.buf.take 64).length) 0 = d.trace.buf.take 64 := by
    rw [List.length_take, Nat.min_eq_left hlen]
    exact List.append_nil _
  have hregs := (Dev.MemoryKeeps.putClean d (d.r64 pgDbg 0xC0 + d.f pgDbg F.TRC_WPTR_WPTR) (d.trace.buf.take 64)).regs
  unfold Dev.traceLine
  dsimp only
  rw [htrace, hdest, hbuf, hclk, if_neg (by decide), if_neg (by omega), hround, if_neg (by simp), hok]
  simp only [Option.isNone_none, if_true, Bool.false_or]
  rw [hpad, Dev.f_of_regs hregs, Dev.traceWritten]

section
variable (d : Dev) (a w : Nat)

theorem Dev.trace_setF (p : Nat) (f : Fld) (x : Nat) : (d.setF p f x).trace = d.trace := rfl

theorem Dev.traceWritten_buf : (d.traceWritten a w).trace.buf = d.trace.buf.drop 64 := by
  rw [Dev.traceWritten, Dev.trace_setF]

theorem Dev.traceWritten_wptr : (d.traceWritten a w).f pgDbg F.TRC_WPTR_WPTR = w % 2 ^ 32 := by
  rw [Dev.traceWritten, Dev.f_setF_same _ _ _ _ (by decide)]
  rfl

theorem Dev.traceWritten_mem : (d.traceWritten a w).mem = (d.putClean a (d.trace.buf.take 64)).mem := by
  rw [Dev.traceWritten, Dev.setF_mem, Dev.mem_trace]

end

theorem Dev.traceLine_empty {d : Dev} (hbuf : d.trace.buf = []) : d.traceLine = d := by
  unfold Dev.traceLine
  dsimp only
  rw [hbuf, if_pos (by simp)]

theorem Dev.withResp_mem (d : Dev) (r : Resp) : ({ d with resp := r } : Dev).mem = d.mem := rfl

end Sys2Proof.Machine

namespace Sys2Proof.Claims

open Sys2Proof.Machine

theorem exec_trcCtrlEn (s : State) (v : W32) : exec (.trcCtrlEn v) s =
    s.vopen fun x => x.bus (BitVec.ofNat 48 (pgDbg + 0x40)) 2 true (v.setWidth 64) := rfl

theorem debugs_of_vopen {i : Instr} {s : State} {f : Dbg → Dbg} {x : Vopen} {d : Dev} (hexec : exec i s = s.vopen f)
    (hf : f (s.sec, s.dev) = (x, d)) : Debugs i s x d := by
  rw [Debugs, hexec, State.vopen, hf]

/-- Settles O59: TRC_CTRL is written by the debug bus master, and a full line is a write of memory. -/
theorem traceStartsAndWrites : Obligations.TraceStartsAndWrites := by
  intro s v
  refine ⟨fun hlow hhigh hrun hv hen => ?_, ?_, fun hclk htrace hbuf => ?_⟩
  · have hstart := Dev.trcCtrl_start hv hen
    have hbus := Dbg.bus_trcCtrl s.sec hlow hrun (by rw [hstart])
    have hmark := Dev.traceMarks_keeps (s.dev.trcWritten v).traceStarted
    rw [hstart] at hbus
    refine ⟨_, _, debugs_of_vopen (exec_trcCtrlEn s v) hbus, rfl, rfl, ?_, ?_, ?_, ?_, ?_⟩
    · exact (Dev.on_resp ..).trans ((Dev.on_of_regs hmark.regs _ _).trans (Dev.traceStarted_en _))
    · exact (Dev.f_resp ..).trans ((Dev.f_of_regs hmark.regs _ _).trans (Dev.traceStarted_wptr _))
    · exact hmark.buf
    · exact hmark.lost
    · exact (Dev.withResp_mem ..).trans (hmark.mem.trans ((Dev.traceStarted_mem _).trans (Dev.setReg_mem ..)))
  · intro t w a hclk htrace hdest hlen hround hok
    have htake : (t.buf.take 64).length = 64 := by rw [List.length_take, Nat.min_eq_left hlen]
    have hmem := Dev.traceWritten_mem s.dev a ((w + 64) % 2 ^ s.dev.f pgDbg F.TRC_RING_SIZE_LOG2)
    refine gives_of_clocked (f := Dev.traceLine) hclk rfl (Dev.traceLine_full hclk htrace hdest hlen hround hok) ⟨?_, fun b hb => ?_, ?_, ?_⟩
    · have hbytes := Dev.bytes_putClean (d := s.dev) a (t.buf.take 64)
      rw [htake] at hbytes
      exact (Dev.bytes_congr hmem a 64).trans hbytes
    · exact (Dev.byte_congr hmem b).trans (Dev.byte_putClean_out _ (by rw [htake]; exact hb))
    · exact Dev.traceWritten_buf ..
    · exact Dev.traceWritten_wptr ..
  · exact does_of_clocked (f := Dev.traceLine) hclk rfl (Dev.traceLine_empty hbuf)

end Sys2Proof.Claims
end

section
/-!
Debug access (22 R473-R484): what each command of the test access port gives, and what a halt and a resume leave alone.
-/
namespace Sys2Proof.Machine

/-! The frame of a halt and a resume -/

/-- The debug space, the state of the system, the memory and the time are as before. -/
structure Dev.DebugKeeps (d r : Dev) : Prop where
  reg : ∀ a, 0xF0000000 ≤ a → r.reg a = d.reg a
  sys : r.sys = d.sys
  mem : r.mem = d.mem
  time : r.time = d.time

namespace Dev.DebugKeeps

variable {d e r : Dev}

theorem refl (d : Dev) : d.DebugKeeps d := ⟨fun _ _ => rfl, rfl, rfl, rfl⟩

theorem trans (h : d.DebugKeeps e) (k : e.DebugKeeps r) : d.DebugKeeps r :=
  ⟨fun a ha => (k.reg a ha).trans (h.reg a ha), k.sys.trans h.sys, k.mem.trans h.mem, k.time.trans h.time⟩

theorem of_fields (hr : r.regs = d.regs) (hs : r.sys = d.sys) (hm : r.mem = d.mem) (ht : r.time = d.time) : d.DebugKeeps r :=
  ⟨fun a _ => by rw [Dev.reg, Dev.reg, hr], hs, hm, ht⟩

theorem ite {c : Prop} [Decidable c] (h : d.DebugKeeps e) (k : d.DebugKeeps r) : d.DebugKeeps (if c then e else r) := by
  split
  · exact h
  · exact k

theorem setF {p : Nat} {f : Fld} (hp : p + f.ofs < 0xF0000000) (x : Nat) : d.DebugKeeps (d.setF p f x) :=
  ⟨fun _ ha => d.reg_setF_ne p f x (by omega), rfl, Dev.setF_mem .., rfl⟩

theorem forN (n : Nat) (f : Nat → Dev → Dev) (hf : ∀ i < n, ∀ e : Dev, e.DebugKeeps (f i e)) (d : Dev) : d.DebugKeeps (d.forN n f) :=
  Dev.forN_keeps n f (refl d) fun i hi _ he => he.trans (hf i hi _)

theorem setPwm {c g : Nat} (hc : c < 16) (hg : g < 6) {f : Fld} (hf : f.ofs < 0x1000) (x : Nat) : d.DebugKeeps (d.setF (pgPwm c g) f x) :=
  setF (by simp only [pgPwm]; omega) x

theorem padRefresh {c g : Nat} (hc : c < 16) (hg : g < 6) : d.DebugKeeps (d.padRefresh c g) := by
  have hpads (t : Table Nat) : d.DebugKeeps { d with pads := t } := of_fields rfl rfl rfl rfl
  simp only [Dev.padRefresh]
  exact ite ((hpads _).trans ((setPwm hc hg (by decide) _).trans (setPwm hc hg (by decide) _))) (hpads _)

theorem allPads (d : Dev) : d.DebugKeeps d.allPads := forN _ _ (fun _ hn _ => padRefresh (by omega) (by omega)) d

theorem sdResume (c k : Nat) : d.DebugKeeps (d.sdResume c k) := by
  unfold Dev.sdResume
  exact ite (of_fields rfl rfl rfl rfl) (refl d)

theorem setTlc {l : Nat} (hl : l < 32) {f : Fld} (hf : f.ofs < 0x1000) (x : Nat) : d.DebugKeeps (d.setF (pgTlc l) f x) :=
  setF (by simp only [pgTlc]; omega) x

theorem setTlnb {l : Nat} (hl : l < 32) {f : Fld} (hf : f.ofs < 0x1000) (x : Nat) : d.DebugKeeps (d.setF (pgTlnb l) f x) :=
  setF (by simp only [pgTlnb]; omega) x

theorem setLstate {l : Nat} (hl : l < 32) (x : Nat) : d.DebugKeeps (d.setLstate l x) :=
  (setTlc hl (by decide) _).trans ((setTlnb hl (by decide) _).trans (setTlnb hl (by decide) _))

theorem tlResume {l : Nat} (hl : l < 32) : d.DebugKeeps (d.tlResume l) := by
  unfold Dev.tlResume
  exact ite (refl d) ((setLstate hl 6).trans (of_fields rfl rfl rfl rfl))

theorem setPfPage {f : Nat} (hf : f < 2) {y : Fld} (hy : y.ofs < 0x1000) (x : Nat) : d.DebugKeeps (d.setF (pgPf f) y x) :=
  setF (by simp only [pgPf]; omega) x

theorem setLink (up : Bool) (speed width : Nat) : d.DebugKeeps (d.setLink up speed width) :=
  forN 2 _ (fun _ hf _ => (setPfPage hf (by decide) _).trans ((setPfPage hf (by decide) _).trans (setPfPage hf (by decide) _))) d

theorem ethDown {p : Nat} (hp : p < 4) : d.DebugKeeps ((d.setB (pgEth p) F.ETH_STATUS_LINK false).irq (pgEth p) 9) := by
  have hset {e : Dev} {f : Fld} (hf : f.ofs < 0x1000) (x : Nat) : e.DebugKeeps (e.setF (pgEth p) f x) := setF (by simp only [pgEth]; omega) x
  exact (hset (by decide) _).trans (hset (f := ⟨0x24, 9, 1⟩) (by decide) _)

theorem canGo {m : Nat} (hm : m < 8) (x : Nat) : d.DebugKeeps (d.canGo m x) := by
  have hset {e : Dev} {f : Fld} (hf : f.ofs < 0x1000) (x : Nat) : e.DebugKeeps (e.setF (pgCan m) f x) := setF (by simp only [pgCan]; omega) x
  exact Dev.canGo_keeps (refl d) ((hset (by decide) _).trans (hset (f := ⟨0x24, 2, 1⟩) (by decide) _))

theorem setCan (m : Nat) (x : Can) : d.DebugKeeps (d.setCan m x) := of_fields rfl rfl rfl rfl

theorem canLeave {m : Nat} (hm : m < 8) : d.DebugKeeps (d.canLeave m) := by
  unfold Dev.canLeave
  exact ite (refl d) ((setCan m _).trans (canGo hm 3))

end Dev.DebugKeeps

/-! Resume (22 R484) -/

/-- What the blocks of a resumed device do, besides the state of the system. -/
theorem Dev.resume_keeps (d : Dev) :
    Dev.DebugKeeps (({ d with sys := { d.sys with halted := false, step := none } }).setB pgDbg F.DBG_STAT_HALTED false) d.resume := by
  unfold Dev.resume
  extract_lets sys started shown cut sampled watched linked down unlinked
  have hcut : Dev.DebugKeeps shown cut := .of_fields rfl rfl rfl rfl
  have hsampled : Dev.DebugKeeps cut sampled := .forN _ _ (fun n _ e => .sdResume _ _) _
  have hwatched : Dev.DebugKeeps sampled watched := by
    refine .forN 24 _ (fun k _ e => ?_) sampled
    split
    · exact .of_fields rfl rfl rfl rfl
    · exact .refl e
  have hlinked : Dev.DebugKeeps watched linked := .forN _ _ (fun l hl e => .ite (.tlResume hl) (.refl e)) _
  have hdown : Dev.DebugKeeps linked down := .setLink _ _ _
  have hunlinked : Dev.DebugKeeps down unlinked := .forN _ _ (fun p hp e => .ite (.ethDown hp) (.refl e)) _
  have hcans : Dev.DebugKeeps unlinked (unlinked.forN 8 fun m d =>
      if d.canState m < 2 then ((d.setCan m { d.can m with tx := none }).canGo m 3).canLeave m else d) :=
    .forN _ _ (fun m hm e => .ite (((Dev.DebugKeeps.setCan m _).trans (.canGo hm 3)).trans (.canLeave hm)) (.refl e)) _
  have hhost := hdown.trans (hunlinked.trans hcans)
  exact (hcut.trans (hsampled.trans (hwatched.trans hlinked))).trans (.trans (.ite hhost (.refl linked)) (.allPads _))

theorem Dev.resume_running (d : Dev) : d.resume.sys.halted = false :=
  congrArg SysSt.halted d.resume_keeps.sys

theorem Dev.resume_shown (d : Dev) : d.resume.on pgDbg F.DBG_STAT_HALTED = false :=
  (Dev.on_congr (d.resume_keeps.reg _ (by decide))).trans (Dev.on_setB_same _ _ _ _ rfl (by decide))

theorem Dev.resume_mem (d : Dev) : d.resume.mem = d.mem := d.resume_keeps.mem.trans (Dev.setB_mem ..)

/-! The halt (22 R480, R481) -/

theorem Dev.tracePacket_off {d : Dev} (h : d.tracing = false) (l : List Byte) : d.tracePacket l = d := by
  unfold Dev.tracePacket
  rw [h]
  rfl

/-- A device whose cores and converters have given up what the halt cuts off. -/
def Dev.drained (d : Dev) : Dev := { d with
  cores := Table.upd {} (fun _ (c : Core) => { c with arch := c.arch.landAll c.cps, cps := [], resv := none }) d.cores
  adcs := Table.upd {} (fun _ (a : Adc) => { a with convs := [] }) d.adcs }

/-- The registers of a halt: HALTED, the number of halts, the count and the reason. -/
def Dev.haltShown (d : Dev) (src core bp : Nat) : Dev :=
  let d := (d.setB pgDbg F.DBG_STAT_HALTED true).inc pgDbg F.DBG_HALT_CNT_HALTS
  (d.setR64 pgDbg 8 d.count).setReg (pgDbg + 0x10) (BitVec.ofNat 32 (src + core * 4 + bp * 32))

theorem Dev.drained_tracing (d : Dev) : d.drained.tracing = d.tracing := rfl

theorem Dev.haltDone_eq {d : Dev} {src core bp : Nat} (hdrain : d.sys.drain = some (src, core, bp)) (htrace : d.tracing = false) :
    d.haltDone = ({ d.drained.haltShown src core bp with
      sys := { (d.drained.haltShown src core bp).sys with halted := true, drain := none, stepResult := 0 } } : Dev).allPads := by
  unfold Dev.haltDone
  rw [hdrain]
  dsimp only
  rw [← Dev.drained, Dev.tracePacket_off (d.drained_tracing.trans htrace)]
  rfl

section
variable (d : Dev) {src core bp : Nat}

theorem Dev.haltShown_reason : (d.haltShown src core bp).reg (pgDbg + 0x10) = BitVec.ofNat 32 (src + core * 4 + bp * 32) := by
  rw [Dev.haltShown, Dev.reg_setReg_same]

theorem Dev.haltShown_src (h : src < 4) : (d.haltShown src core bp).f pgDbg F.DBG_HALT_REASON_SRC = src := by
  show bitsOf ((d.haltShown src core bp).reg (pgDbg + 0x10)) 0 2 = src
  rw [Dev.haltShown_reason, bitsOf, BitVec.toNat_ofNat, Nat.shiftRight_eq_div_pow]
  omega

theorem Dev.haltShown_core (hsrc : src < 4) (h : core < 5) : (d.haltShown src core bp).f pgDbg F.DBG_HALT_REASON_CORE = core := by
  show bitsOf ((d.haltShown src core bp).reg (pgDbg + 0x10)) 2 3 = core
  rw [Dev.haltShown_reason, bitsOf, BitVec.toNat_ofNat, Nat.shiftRight_eq_div_pow]
  omega

theorem Dev.haltShown_bp (hsrc : src < 4) (hcore : core < 5) (h : bp < 4) : (d.haltShown src core bp).f pgDbg F.DBG_HALT_REASON_BP = bp := by
  show bitsOf ((d.haltShown src core bp).reg (pgDbg + 0x10)) 5 2 = bp
  rw [Dev.haltShown_reason, bitsOf, BitVec.toNat_ofNat, Nat.shiftRight_eq_div_pow]
  omega

theorem Dev.haltShown_count : (d.haltShown src core bp).r64 pgDbg 8 = d.count := by
  have h : d.count % 2 ^ 64 = d.count := Nat.mod_eq_of_lt d.time.count.isLt
  rw [Dev.haltShown, Dev.r64, Dev.reg_setReg_ne _ _ (by decide), Dev.reg_setReg_ne _ _ (by decide), ← Dev.r64, Dev.r64_setR64_same]
  exact h

/-- A field of the debug page that no register of the halt's time and reason holds. -/
theorem Dev.haltShown_f {g : Fld} (h8 : (g.ofs != 8 && g.ofs != 8 + 4) = true) (h16 : 0x10 ≠ g.ofs) :
    (d.haltShown src core bp).f pgDbg g = ((d.setB pgDbg F.DBG_STAT_HALTED true).inc pgDbg F.DBG_HALT_CNT_HALTS).f pgDbg g :=
  (Dev.f_setReg_apart _ _ h16).trans (Dev.f_setR64_apart _ _ h8)

theorem Dev.haltShown_halts : (d.haltShown src core bp).f pgDbg F.DBG_HALT_CNT_HALTS = satInc 32 (d.f pgDbg F.DBG_HALT_CNT_HALTS) := by
  rw [Dev.haltShown_f _ rfl (by decide), Dev.inc, Dev.f_setF_same _ _ _ _ (by decide), Dev.setB, Dev.f_setF_apart _ _ rfl]
  exact Nat.mod_eq_of_lt (satInc_lt _ _)

theorem Dev.haltShown_halted : (d.haltShown src core bp).on pgDbg F.DBG_STAT_HALTED = true := by
  rw [Dev.on, Dev.haltShown_f _ rfl (by decide), ← Dev.on, Dev.inc, Dev.on_setF_apart _ _ rfl, Dev.on_setB_same _ _ _ _ rfl (by decide)]

theorem Dev.haltShown_mem : (d.haltShown src core bp).mem = d.mem := by
  rw [Dev.haltShown, Dev.setReg_mem, Dev.setR64, Dev.setReg_mem, Dev.setReg_mem, Dev.inc, Dev.setF_mem, Dev.setB_mem]

end

/-! The commands -/

theorem Dev.haltRequest_idle {d : Dev} (hrun : d.sys.halted = false) (hdrain : d.sys.drain = none) (hclk : d.clocksStill = false) (src core bp : Nat) :
    d.haltRequest src core bp = { d with sys := { d.sys with drain := some (src, core, bp) } } := by
  unfold Dev.haltRequest
  rw [hrun, hdrain, hclk]
  rfl

theorem Dbg.atFull_full (x : Vopen) {d : Dev} {ok : Bool} (f : Dev → Dev) (h : d.dbgLevel = 2) (hok : ok = true) :
    Dbg.atFull (x, d) ok f = ({ x with ir := .voCtrl }, f d) := by
  unfold Dbg.atFull
  dsimp only
  rw [h, hok]
  rfl

theorem Dbg.atFull_refused (x : Vopen) {d : Dev} {ok : Bool} (f : Dev → Dev) (h : d.dbgLevel ≠ 2 ∨ ok = false) :
    Dbg.atFull (x, d) ok f = ({ x with ir := .voCtrl, refused := true }, d) := by
  unfold Dbg.atFull
  dsimp only
  rw [if_neg]
  · rfl
  · rw [Bool.and_eq_true, beq_iff_eq]
    rintro ⟨hfull, hok⟩
    rcases h with h | h
    · exact h hfull
    · rw [hok] at h
      exact absurd h (by decide)

/-- A challenge's value, or the cells of a sample, leaves the device as it was but for the values taken. -/
theorem Dev.freeWord_dev (d : Dev) : d.freeWord.2 = { d with fresh := d.fresh + 1 } := rfl

theorem Dbg.levelShown_le {x : Vopen} {d : Dev} : Dbg.levelShown (x, d) ≤ x.level := by
  unfold Dbg.levelShown
  split
  · exact le_rfl
  · exact Nat.zero_le _

end Sys2Proof.Machine

namespace Sys2Proof.Claims

open Sys2Proof.Machine

/-- The status word's fields, as its sum shows them. -/
theorem stat_fields {x : Vopen} {d : Dev} : Dbg.stat (x, d) % 4 = Dbg.levelShown (x, d) % 4 ∧
    (x.level ≤ 2 → x.fails ≤ 15 → Dbg.stat (x, d) / 32 % 16 = x.fails ∧ Dbg.stat (x, d) / 16 % 2 = b2n x.refused ∧
      Dbg.stat (x, d) / 4 % 2 = b2n d.sys.halted) := by
  have hlevel := Dbg.levelShown_le (x := x) (d := d)
  have hbit (b : Bool) : b2n b ≤ 1 := by cases b <;> decide
  have hhalted := hbit d.sys.halted
  have hdrain := hbit d.sys.drain.isSome
  have hrefused := hbit x.refused
  have hlockout := hbit x.lockout
  unfold Dbg.stat
  dsimp only
  refine ⟨by omega, fun hl hf => ⟨by omega, by omega, by omega⟩⟩

/-! The bus master of the test access port (22 R477, R482) -/

section
variable {d : Dev} (x : Vopen) (a : BitVec 48) (sz : BitVec 2) (v : W64)

theorem bus_refused (w : Bool) (h : d.dbgLevel = 0) : Dbg.bus (x, d) a sz w v = ({ x with refused := true }, d) := by
  unfold Dbg.bus
  dsimp only
  rw [if_pos h]
  rfl

theorem bus_low {w : Bool} (h : d.dbgLevel = 1) (hw : w = true) (hconfig : traceConfig a.toNat = false) :
    Dbg.bus (x, d) a sz w v = ({ x with ir := .voBus, busStatus := 4, busCause := 0, busData := 0 }, d) := by
  unfold Dbg.bus
  dsimp only
  rw [h, hw, hconfig, if_neg (by decide), if_pos rfl]
  rfl

theorem bus_halted (w : Bool) (h : d.dbgLevel = 2) (hhbm : hbmBase 0 ≤ a.toNat) (hhalt : d.sys.halted = true) :
    Dbg.bus (x, d) a sz w v = ({ x with ir := .voBus, busStatus := 5, busCause := 0, busData := 0 }, d) := by
  unfold Dbg.bus
  dsimp only
  rw [h, hhalt, if_neg (by decide), if_neg (by rw [show ((2 : Nat) == 1) = false from rfl, Bool.and_false, Bool.false_and]; decide), if_pos]
  · rfl
  · rw [decide_eq_true hhbm, Bool.or_true, Bool.true_and]

theorem bus_memory (h : d.dbgLevel = 2) (hlow : a.toNat < 0xE0000000) (hok : d.memCause a.toNat (2 ^ sz.toNat) true true = none) :
    Dbg.bus (x, d) a sz true v = ({ x with ir := .voBus, busStatus := 0, busCause := 0, busData := 0, busAddr := a.toNat },
      d.putMem 99 a.toNat (bytesLE (2 ^ sz.toNat) v.toNat) (fun _ => false)) := by
  have hpage : decide (0xE0000000 ≤ a.toNat) = false := decide_eq_false (by omega)
  have hhbm : decide (hbmBase 0 ≤ a.toNat) = false := decide_eq_false (by unfold hbmBase; omega)
  unfold Dbg.bus
  dsimp only
  rw [h, hpage, hhbm, hok, if_neg (by decide), if_neg (by rw [show ((2 : Nat) == 1) = false from rfl, Bool.and_false, Bool.false_and]; decide), if_neg, if_neg]
  · rfl
  · rw [Bool.false_and]
    decide
  · rw [Bool.false_and, Bool.and_false, Bool.false_and, Bool.false_or, Bool.and_false]
    decide

end

/-- A response that fits raises the level, which the control block shows (22 R474). -/
theorem resp_good {x : Vopen} {d : Dev} {level : BitVec 2} {mac : BitVec 128} {n : W64} (hn : x.nonce = some n) (hmax : level.toNat ≤ d.otp.dbgMax)
    (hlevel : x.level ≤ level.toNat) (h0 : level ≠ 0) (hmac : d.macOf n level.toNat = bytesLE 16 mac.toNat) :
    Dbg.resp (x, d) level mac = ({ x with ir := .voResp, nonce := none, level := level.toNat }, d.dbgOn.showLevel level.toNat) := by
  have hne : level.toNat ≠ 0 := fun h => h0 (BitVec.eq_of_toNat_eq h)
  unfold Dbg.resp
  dsimp only
  rw [hn]
  dsimp only
  rw [if_pos (by rw [decide_eq_true hmax, decide_eq_true hlevel, hmac, beq_self_eq_true]; rfl), if_neg hne]

/-- Another response is a failure, with its time. -/
theorem resp_bad {x : Vopen} {d : Dev} {level : BitVec 2} (mac : BitVec 128) (h : x.nonce = none ∨ d.otp.dbgMax < level.toNat ∨ level.toNat < x.level) :
    Dbg.resp (x, d) level mac = ({ x with
      ir := .voResp, nonce := none, fails := Nat.min 15 (x.fails + 1), backoff := 60000000 * 2 ^ (Nat.min 15 (x.fails + 1) - 1) }, d) := by
  unfold Dbg.resp
  dsimp only
  rw [if_neg]
  split
  · decide
  · next n hn =>
    rw [Bool.and_eq_true, Bool.and_eq_true, decide_eq_true_eq, decide_eq_true_eq]
    rintro ⟨⟨hmax, hlevel⟩, -⟩
    rcases h with h | h | h
    · rw [h] at hn
      exact absurd hn (by simp)
    · omega
    · omega

theorem chal_armed {x : Vopen} {d : Dev} (hfails : x.fails < 15) (hback : x.backoff = 0) :
    Dbg.chal (x, d) = ({ x with ir := .voChal, dr := d.freeWord.1.toNat, nonce := some d.freeWord.1 }, { d with fresh := d.fresh + 1 }) := by
  unfold Dbg.chal Vopen.lockout
  dsimp only
  rw [hback, decide_eq_false (by omega), if_neg (by decide), Dev.freeWord_dev]

theorem chal_none {x : Vopen} {d : Dev} (h : 15 ≤ x.fails ∨ x.backoff ≠ 0) :
    Dbg.chal (x, d) = ({ x with ir := .voChal, dr := 0, nonce := none }, d) := by
  unfold Dbg.chal Vopen.lockout
  dsimp only
  rw [if_pos]
  rw [Bool.or_eq_true, decide_eq_true_eq, bne_iff_ne]
  exact h

theorem testAccessPort : TestAccessPort := by
  intro s data level mac a sz w v t d x
  have hbus : exec (.voBus a sz w v) s = s.vopen fun y => y.bus a sz w v := rfl
  have hwrite : exec (.voBus a sz true v) s = s.vopen fun y => y.bus a sz true v := rfl
  refine ⟨debugs_of_vopen (f := Dbg.idcode) rfl rfl, debugs_of_vopen (f := Dbg.bypass) rfl rfl, ⟨_, debugs_of_vopen (f := fun y => y.sample data) rfl rfl⟩,
    fun hfull => debugs_of_vopen (f := Dbg.extest) rfl (if_pos hfull), fun hno => debugs_of_vopen (f := Dbg.extest) rfl (if_neg hno),
    ⟨_, debugs_of_vopen (f := Dbg.statCapture) rfl rfl, stat_fields⟩,
    fun hfails hback => ⟨_, debugs_of_vopen (f := Dbg.chal) rfl (chal_armed hfails hback)⟩,
    fun hno => debugs_of_vopen (f := Dbg.chal) rfl (chal_none hno),
    fun n hn hmax hlevel h0 hmac => debugs_of_vopen (f := fun y => y.resp level mac) rfl (resp_good hn hmax hlevel h0 hmac),
    fun hno => debugs_of_vopen (f := fun y => y.resp level mac) rfl (resp_bad mac hno),
    fun hnone => ⟨debugs_of_vopen hbus (bus_refused x a sz v w hnone), debugs_of_vopen (exec_trcCtrlEn s t) (bus_refused x _ _ _ true hnone)⟩,
    fun hfull hhbm hhalt => debugs_of_vopen hbus (bus_halted x a sz v w hfull hhbm hhalt),
    fun hfull hlow hok => ⟨_, debugs_of_vopen hwrite (bus_memory x a sz v hfull hlow hok), ?_, fun b hb => ?_⟩,
    fun hone hw hconfig => debugs_of_vopen hbus (bus_low x a sz v hone hw hconfig)⟩
  · have hbytes := (Dev.bytes_congr (d.putMem_mem 99 a.toNat (bytesLE (2 ^ sz.toNat) v.toNat) fun _ => false) a.toNat _).trans (d.bytes_setBytes a.toNat _)
    rwa [length_bytesLE] at hbytes
  · exact d.byte_putMem_out 99 a.toNat b _ _ (by rwa [length_bytesLE])

theorem breakpoint_taken {d : Dev} {k i : Nat} (hfull : d.dbgLevel = 2) (hmatch : d.bpMatches k i = true) : d.breakpoint k i = d.haltRequest 2 k i :=
  if_pos ⟨hfull, hmatch⟩

theorem haltEvent_taken {d : Dev} (hfull : d.dbgLevel = 2) (hseen : d.haltEventSeen = true) : d.haltEvent = d.haltEventMark.haltRequest 3 0 0 := by
  unfold Dev.haltEvent
  rw [hseen, hfull]
  rfl

theorem drop_lowered {x : Vopen} {d : Dev} {level : BitVec 2} (hrun : d.sys.halted = false) (hlow : level.toNat < x.level) (h0 : level ≠ 0) :
    Dbg.drop (x, d) level = ({ x with ir := .voCtrl, level := level.toNat }, d.showLevel level.toNat) := by
  unfold Dbg.drop
  dsimp only
  rw [hrun, decide_eq_false (by omega), if_neg (by decide), if_neg h0]

theorem drop_refused {x : Vopen} {d : Dev} {level : BitVec 2} (h : d.sys.halted = true ∨ x.level ≤ level.toNat) :
    Dbg.drop (x, d) level = ({ x with ir := .voCtrl, refused := true }, d) := by
  unfold Dbg.drop
  dsimp only
  rw [if_pos (by rwa [Bool.or_eq_true, decide_eq_true_eq])]
  rfl

/-- The commands of VO_CTRL that act at FULL only. -/
theorem full_refused {s : State} {k : CoreId} (hno : s.dev.dbgLevel ≠ 2) {c : Instr} (hc : c ∈ [Instr.halt, .step k, .resume, .debugWarm]) :
    Debugs c s { s.sec with ir := .voCtrl, refused := true } s.dev := by
  simp only [List.mem_cons, List.not_mem_nil, or_false] at hc
  rcases hc with rfl | rfl | rfl | rfl
  · exact debugs_of_vopen (f := Dbg.halt) rfl (Dbg.atFull_refused _ _ (.inl hno))
  · exact debugs_of_vopen (f := fun y => y.step k) rfl (Dbg.atFull_refused _ _ (.inl hno))
  · exact debugs_of_vopen (f := Dbg.resume) rfl (Dbg.atFull_refused _ _ (.inl hno))
  · exact debugs_of_vopen (f := Dbg.warm) rfl (Dbg.atFull_refused _ _ (.inl hno))

theorem haltStepResume : HaltStepResume := by
  intro s k i level d x asked refused drain idle
  refine ⟨fun hfull hidle => ?_, fun hno c hc => full_refused hno hc, fun hfull hidle hmatch => ?_, fun hfull hidle hseen => ?_,
    fun n c b hdrain hn hc hb htrace => ?_, fun hfull hhalt => ⟨fun hheld => ?_, fun hheld => ?_, ?_⟩, fun hfull hrun => ⟨?_, ?_⟩, fun hfull => ?_,
    fun hrun hlow h0 => debugs_of_vopen (f := fun y => y.drop level) rfl (drop_lowered hrun hlow h0),
    fun hno => debugs_of_vopen (f := fun y => y.drop level) rfl (drop_refused hno)⟩
  · obtain ⟨hrun, hdrain, hclk⟩ := hidle
    refine debugs_of_vopen (f := Dbg.halt) rfl ((Dbg.atFull_full x _ hfull rfl).trans ?_)
    rw [Dev.haltRequest_idle hrun hdrain hclk]
  · obtain ⟨hrun, hdrain, hclk⟩ := hidle
    exact does_of_clocked (f := fun d => d.breakpoint k i) hclk rfl ((breakpoint_taken hfull hmatch).trans (Dev.haltRequest_idle hrun hdrain hclk _ _ _))
  · obtain ⟨hrun, hdrain, hclk⟩ := hidle
    exact does_of_clocked (f := Dev.haltEvent) hclk rfl
      ((haltEvent_taken hfull hseen).trans (Dev.haltRequest_idle (d := d.haltEventMark) hrun hdrain hclk _ _ _))
  · have hkeep := Dev.DebugKeeps.allPads ({ d.drained.haltShown n c b with
      sys := { (d.drained.haltShown n c b).sys with halted := true, drain := none, stepResult := 0 } } : Dev)
    have hf (g : Fld) : _ = (d.drained.haltShown n c b).f pgDbg g := Dev.f_congr (hkeep.reg (pgDbg + g.ofs) (by simp only [pgDbg]; omega))
    refine gives_of_run (f := Dev.haltDone) rfl (Dev.haltDone_eq hdrain htrace) ⟨?_, ?_, ?_, ?_, ?_, ?_, ?_, ?_, ?_, ?_⟩
    · rw [hkeep.sys]
    · rw [hkeep.sys]
    · rw [hf, Dev.haltShown_src _ hn]
    · rw [hf, Dev.haltShown_core _ hn hc]
    · rw [hf, Dev.haltShown_bp _ hn hc hb]
    · rw [Dev.r64, hkeep.reg _ (by decide), hkeep.reg _ (by decide)]
      exact d.drained.haltShown_count
    · rw [Dev.on, hf, ← Dev.on, Dev.haltShown_halted]
    · rw [hf, Dev.haltShown_halts]
      rfl
    · exact hkeep.mem.trans (Dev.haltShown_mem d.drained (src := n) (core := c) (bp := b))
    · exact hkeep.time
  · refine debugs_of_vopen (f := fun y => y.step k) rfl ((Dbg.atFull_full x _ hfull hhalt).trans ?_)
    rw [if_neg (by rw [hheld]; decide)]
  · refine debugs_of_vopen (f := fun y => y.step k) rfl ((Dbg.atFull_full x _ hfull hhalt).trans ?_)
    rw [if_pos hheld]
  · exact ⟨debugs_of_vopen (f := Dbg.resume) rfl (Dbg.atFull_full x _ hfull hhalt), d.resume_running, d.resume_shown, d.resume_mem⟩
  · exact debugs_of_vopen (f := fun y => y.step k) rfl (Dbg.atFull_refused x _ (.inr hrun))
  · exact debugs_of_vopen (f := Dbg.resume) rfl (Dbg.atFull_refused x _ (.inr hrun))
  · exact debugs_of_vopen (f := Dbg.warm) rfl (Dbg.atFull_full x _ hfull rfl)

/-- Settles O58: each command of the test access port is its effect on the debug state, and a halt and a resume leave what they should. -/
theorem debugAccess : Obligations.DebugAccess := ⟨testAccessPort, haltStepResume⟩

end Sys2Proof.Claims
end

section
/-!
What a read of memory leaves alone (05 R123, 20 R435): the bytes, the time and every register outside the sashes' pages.
-/
namespace Sys2Proof.Machine

/-- A read changes poison marks, the merge buffers and the counters of the sashes. -/
structure Dev.ReadKeeps (d r : Dev) : Prop where
  reg : ∀ a, 0xE5000000 ≤ a → r.reg a = d.reg a
  rest : { r with regs := d.regs, poison := d.poison, hbms := d.hbms } = d

namespace Dev.ReadKeeps

variable {d e r : Dev}

theorem refl (d : Dev) : d.ReadKeeps d := ⟨fun _ _ => rfl, rfl⟩

theorem trans (h : d.ReadKeeps e) (k : e.ReadKeeps r) : d.ReadKeeps r :=
  ⟨fun a ha => (k.reg a ha).trans (h.reg a ha),
    (congrArg (fun x : Dev => { x with regs := d.regs, poison := d.poison, hbms := d.hbms }) k.rest).trans h.rest⟩

theorem mem (h : d.ReadKeeps r) : r.mem = d.mem := (congrArg Dev.mem h.rest : _)

theorem time (h : d.ReadKeeps r) : r.time = d.time := (congrArg Dev.time h.rest : _)

theorem f_high (h : d.ReadKeeps r) {p : Nat} {f : Fld} (hp : 0xE5000000 ≤ p) : r.f p f = d.f p f := Dev.f_congr (h.reg _ (by omega))

theorem ite {c : Prop} [Decidable c] (h : d.ReadKeeps e) (k : d.ReadKeeps r) : d.ReadKeeps (if c then e else r) := by
  split
  · exact h
  · exact k

theorem setHbm (s : Nat) (h : Hbm) : d.ReadKeeps (d.setHbm s h) := ⟨fun _ _ => rfl, rfl⟩

theorem mbWriteBack (s page : Nat) : d.ReadKeeps (d.mbWriteBack s page false) := by
  rw [Dev.mbWriteBack_clean]
  split
  · exact refl d
  · exact setHbm s _

theorem mbAlloc (s : Nat) (e : MbEntry) : d.ReadKeeps (d.mbAlloc s e) := by
  unfold Dev.mbAlloc
  refine .trans (ite (refl d) ?_) (setHbm s _)
  split
  · exact refl d
  · exact (mbWriteBack s _).trans (setHbm s _)

theorem mbFill (s page : Nat) (dirty : Bool) : d.ReadKeeps (d.mbFill s page dirty) := by
  unfold Dev.mbFill
  dsimp only
  split
  · exact setHbm s _
  · exact mbAlloc s _

/-- A read through the merge buffer, of a page that decodes. -/
theorem mbRead (s a len : Nat) : d.ReadKeeps (d.mbRead s a len .clean).1 := by
  unfold Dev.mbRead
  dsimp only
  split
  · exact refl d
  split
  · exact setHbm s _
  split
  · exact mbFill s _ _
  · exact refl d
  · exact refl d

/-- A register of a sash's page takes a value. -/
theorem setSash {n : Nat} (hn : n < 64) (f : Fld) (x : Nat) (hf : f.ofs < 0x1000) : d.ReadKeeps (d.setF (pgSash n) f x) := by
  refine ⟨fun b hb => Dev.reg_setF_ne d _ _ _ ?_, ?_⟩
  · simp only [pgSash]
    omega
  · exact (congrArg (fun r : Dev => { r with poison := d.poison, hbms := d.hbms }) (Dev.setF_rest (d := d) rfl (pgSash n) f x) : _)

theorem readErr (a len : Nat) : d.ReadKeeps (d.readErr a len) := by
  refine foldl_keeps _ _ (refl d) fun x _ e he => he.trans ?_
  split
  · exact ⟨fun _ _ => rfl, rfl⟩
  split
  · next hsash =>
    rw [inSash, Bool.and_eq_true, decide_eq_true_eq, decide_eq_true_eq] at hsash
    exact setSash (by omega) _ _ (by decide)
  · exact refl e

theorem getMem (core : Bool) (a len : Nat) : d.ReadKeeps (d.getMem core a len).1 := by
  unfold Dev.getMem
  dsimp only
  split
  · exact (readErr a len).trans (mbRead _ a len)
  · exact readErr a len

theorem getRange (a len : Nat) : d.ReadKeeps (d.getRange a len).1 := by
  unfold Dev.getRange
  generalize linePieces a len = l
  have hfold : ∀ (l : List (Nat × Nat)) (acc : Dev × List Byte × Bool), d.ReadKeeps acc.1 → d.ReadKeeps (l.foldl
      (fun (s : Dev × List Byte × Bool) x =>
        let (d, l, p) := s.1.getMem false x.1 x.2
        (d, s.2.1 ++ l, s.2.2 || p)) acc).1 := by
    intro l
    induction l with
    | nil => exact fun _ h => h
    | cons x r ih => exact fun acc h => ih _ (h.trans (getMem false x.1 x.2))
  exact hfold l _ (refl d)

end Dev.ReadKeeps

end Sys2Proof.Machine
end

section
/-!
Frames of the Ethernet ports (21 R460-R465): the descriptor a received frame fills, the queue whose frame starts, and how a frame ends.
-/
namespace Sys2Proof.Machine

variable {d : Dev} {p : Nat}

/-! Reception (21 R463, R464) -/

/-! A free value taken changes nothing that an access depends on -/

theorem Dev.f_takeFresh : Dev.f d.takeFresh.2 = Dev.f d := rfl

theorem Dev.on_takeFresh : Dev.on d.takeFresh.2 = Dev.on d := rfl

theorem Dev.reg_takeFresh : Dev.reg d.takeFresh.2 = Dev.reg d := rfl

theorem Dev.r64_takeFresh : Dev.r64 d.takeFresh.2 = Dev.r64 d := rfl

theorem Dev.domOn_takeFresh : Dev.domOn d.takeFresh.2 = Dev.domOn d := rfl

theorem Dev.live_takeFresh : Dev.live d.takeFresh.2 = Dev.live d := rfl

theorem Dev.core_takeFresh : Dev.core d.takeFresh.2 = Dev.core d := rfl

theorem Dev.rxDesc_takeFresh : d.takeFresh.2.rxDesc p = d.rxDesc p := by
  rw [Dev.rxDesc, Dev.r64_takeFresh, Dev.f_takeFresh, Dev.rxDesc]

theorem Dev.ethDesc_takeFresh (a : Nat) : d.takeFresh.2.ethDesc a = d.ethDesc a := rfl

theorem Dev.ethMem_takeFresh (a len : Nat) : d.takeFresh.2.ethMem a len = d.ethMem a len := rfl

theorem Dev.crStart_takeFresh : Dev.crStart d.takeFresh.2 = Dev.crStart d := by
  funext x r
  rw [Dev.crStart, Dev.reg_takeFresh, ← Dev.crStart]

theorem Dev.crEnd_takeFresh : Dev.crEnd d.takeFresh.2 = Dev.crEnd d := by
  funext x r
  rw [Dev.crEnd, Dev.crStart_takeFresh, Dev.reg_takeFresh, ← Dev.crEnd]

theorem Dev.hbmInRegion_takeFresh : Dev.hbmInRegion d.takeFresh.2 = Dev.hbmInRegion d := by
  unfold Dev.hbmInRegion
  rw [Dev.crEnd_takeFresh, Dev.crStart_takeFresh]

theorem Dev.hbmUsable_takeFresh : Dev.hbmUsable d.takeFresh.2 = Dev.hbmUsable d := by
  unfold Dev.hbmUsable
  rw [Dev.hbmInRegion_takeFresh, Dev.live_takeFresh]

theorem Dev.chkProtected_takeFresh : Dev.chkProtected d.takeFresh.2 = Dev.chkProtected d := by
  unfold Dev.chkProtected
  rw [Dev.core_takeFresh, Dev.r64_takeFresh]

theorem Dev.memCause_takeFresh : Dev.memCause d.takeFresh.2 = Dev.memCause d := by
  unfold Dev.memCause
  rw [Dev.domOn_takeFresh, Dev.on_takeFresh, Dev.hbmUsable_takeFresh, Dev.chkProtected_takeFresh]

theorem Dev.rangeCause_takeFresh (a len : Nat) (write : Bool) : d.takeFresh.2.rangeCause a len write = d.rangeCause a len write := by
  simp only [Dev.rangeCause, Dev.pieceCause, Dev.memCause_takeFresh]

section
variable (d) (p : Nat) (l : List Byte) (stamp : Nat)

/-- A frame in the buffer of the descriptor at HEAD, and its STATUS and stamp in the descriptor. -/
def Dev.rxWritten : Dev :=
  let w := d.ethDesc (d.rxDesc p)
  let word := putBits (putBits (w.getD 2 0) 0 14 l.length) 16 4 0
  ((((d.putRange (descBuf w) l false).inc (pgEth p) F.ETH_RX_CNT_FRAMES).putClean (d.rxDesc p + 8) (bytesLE 4 word.toNat)).putClean
    (d.rxDesc p + 16) (bytesLE 8 stamp))

/-- HEAD of the receive ring moves on. -/
def Dev.rxMoved : Dev :=
  (d.rxWritten p l stamp).setF (pgEth p) F.ETH_RXQ_PTR_HEAD
    (((d.rxWritten p l stamp).f (pgEth p) F.ETH_RXQ_PTR_HEAD + 1) % 2 ^ (d.rxWritten p l stamp).f (pgEth p) F.ETH_RXQ_CFG_LOG2)

end

/-- What holds of the device with the descriptor filled, and stays over its interrupt, holds of a delivery that fits. -/
theorem Dev.ethDeliver_fits {P : Dev → Prop} {l : List Byte} {stamp : Nat} (hzero : descZero (d.ethDesc (d.rxDesc p)) = true)
    (hmem : d.ethMem (descBuf (d.ethDesc (d.rxDesc p))) (Nat.max l.length 1) = true)
    (hcause : d.rangeCause (descBuf (d.ethDesc (d.rxDesc p))) l.length true = none)
    (hlen : l.length ≤ 64 * d.f (pgEth p) F.ETH_RXQ_CFG_BUF_LINES) (h : P (d.rxMoved p l stamp))
    (hirq : ∀ e : Dev, P e → P (e.irq (pgEth p) 8)) : P (d.ethDeliver p l stamp) := by
  have htake : l.take (64 * d.f (pgEth p) F.ETH_RXQ_CFG_BUF_LINES) = l := List.take_of_length_le hlen
  have hfull : ¬ 64 * d.f (pgEth p) F.ETH_RXQ_CFG_BUF_LINES < l.length := by omega
  unfold Dev.ethDeliver
  simp only [htake, hzero, hmem, hcause, hfull, Bool.not_true, Bool.or_self, Bool.false_eq_true, Option.isSome_none, if_false, OfNat.zero_ne_ofNat,
    or_self]
  rw [← Dev.rxWritten, ← Dev.rxMoved]
  split
  · exact hirq _ h
  · exact h

theorem Dev.rxWritten_f {l : List Byte} {stamp : Nat} (g : Fld) : (d.rxWritten p l stamp).f (pgEth p) g =
    ((d.putRange (descBuf (d.ethDesc (d.rxDesc p))) l false).inc (pgEth p) F.ETH_RX_CNT_FRAMES).f (pgEth p) g := by
  rw [Dev.rxWritten, Dev.f_of_regs (Dev.MemoryKeeps.putClean _ _ _).regs, Dev.f_of_regs (Dev.MemoryKeeps.putClean _ _ _).regs]

theorem Dev.rxWritten_apart {l : List Byte} {stamp : Nat} {g : Fld} (hg : F.ETH_RX_CNT_FRAMES.apart g = true) :
    (d.rxWritten p l stamp).f (pgEth p) g = d.f (pgEth p) g := by
  rw [Dev.rxWritten_f, Dev.inc, Dev.f_setF_apart _ _ hg, Dev.f_of_regs (Dev.putRange_keeps d _ _).regs]

theorem Dev.rxMoved_head {l : List Byte} {stamp : Nat} (hlog : d.f (pgEth p) F.ETH_RXQ_CFG_LOG2 ≤ 12) :
    (d.rxMoved p l stamp).f (pgEth p) F.ETH_RXQ_PTR_HEAD = (d.f (pgEth p) F.ETH_RXQ_PTR_HEAD + 1) % 2 ^ d.f (pgEth p) F.ETH_RXQ_CFG_LOG2 := by
  have hlt := Nat.mod_lt (d.f (pgEth p) F.ETH_RXQ_PTR_HEAD + 1) (Nat.two_pow_pos (d.f (pgEth p) F.ETH_RXQ_CFG_LOG2))
  rw [Dev.rxMoved, Dev.f_setF_same _ _ _ _ (by decide), Dev.rxWritten_apart rfl, Dev.rxWritten_apart rfl]
  exact Nat.mod_eq_of_lt (hlt.trans_le (Nat.pow_le_pow_right (by decide) hlog))

theorem Dev.rxMoved_count {l : List Byte} {stamp : Nat} :
    (d.rxMoved p l stamp).f (pgEth p) F.ETH_RX_CNT_FRAMES = satInc 32 (d.f (pgEth p) F.ETH_RX_CNT_FRAMES) := by
  rw [Dev.rxMoved, Dev.f_setF_apart _ _ rfl, Dev.rxWritten_f, Dev.inc, Dev.f_setF_same _ _ _ _ (by decide),
    Dev.f_of_regs (Dev.putRange_keeps d _ _).regs]
  exact Nat.mod_eq_of_lt (satInc_lt _ _)

theorem Dev.rxMoved_mem {l : List Byte} {stamp : Nat} : (d.rxMoved p l stamp).mem = (d.rxWritten p l stamp).mem := Dev.setF_mem ..

theorem Dev.rxWritten_stamp {l : List Byte} {stamp : Nat} : (d.rxWritten p l stamp).bytes (d.rxDesc p + 16) 8 = bytesLE 8 stamp := by
  have h := Dev.bytes_putClean (d := (((d.putRange (descBuf (d.ethDesc (d.rxDesc p))) l false).inc (pgEth p) F.ETH_RX_CNT_FRAMES).putClean
    (d.rxDesc p + 8) (bytesLE 4 (putBits (putBits ((d.ethDesc (d.rxDesc p)).getD 2 0) 0 14 l.length) 16 4 0).toNat))) (d.rxDesc p + 16) (bytesLE 8 stamp)
  rwa [length_bytesLE] at h

/-- A byte outside the descriptor's status and stamp. -/
theorem Dev.rxWritten_byte {l : List Byte} {stamp b : Nat} (h : b < d.rxDesc p + 8 ∨ d.rxDesc p + 24 ≤ b) :
    (d.rxWritten p l stamp).byte b = (d.setBytes (descBuf (d.ethDesc (d.rxDesc p))) l).byte b := by
  rw [Dev.rxWritten, Dev.byte_putClean_out _ (by rw [length_bytesLE]; omega), Dev.byte_putClean_out _ (by rw [length_bytesLE]; omega)]
  exact Dev.byte_congr ((Dev.setF_mem ..).trans (d.putRange_mem _ _)) b

/-- A frame has been delivered into the descriptor at HEAD. -/
structure Dev.Delivered (d : Dev) (p : Nat) (l : List Byte) (stamp : Nat) (e : Dev) : Prop where
  head : e.f (pgEth p) F.ETH_RXQ_PTR_HEAD = (d.f (pgEth p) F.ETH_RXQ_PTR_HEAD + 1) % 2 ^ d.f (pgEth p) F.ETH_RXQ_CFG_LOG2
  count : e.f (pgEth p) F.ETH_RX_CNT_FRAMES = satInc 32 (d.f (pgEth p) F.ETH_RX_CNT_FRAMES)
  mem : e.mem = (d.rxWritten p l stamp).mem

theorem Dev.ethDeliver_delivered {l : List Byte} {stamp : Nat} (hzero : descZero (d.ethDesc (d.rxDesc p)) = true)
    (hmem : d.ethMem (descBuf (d.ethDesc (d.rxDesc p))) (Nat.max l.length 1) = true)
    (hcause : d.rangeCause (descBuf (d.ethDesc (d.rxDesc p))) l.length true = none)
    (hlen : l.length ≤ 64 * d.f (pgEth p) F.ETH_RXQ_CFG_BUF_LINES) (hlog : d.f (pgEth p) F.ETH_RXQ_CFG_LOG2 ≤ 12) :
    d.Delivered p l stamp (d.ethDeliver p l stamp) := by
  refine Dev.ethDeliver_fits hzero hmem hcause hlen ⟨Dev.rxMoved_head hlog, Dev.rxMoved_count, Dev.rxMoved_mem⟩ fun e he => ?_
  exact ⟨(Dev.f_setF_apart _ _ rfl).trans he.head, (Dev.f_setF_apart _ _ rfl).trans he.count, (Dev.setF_mem ..).trans he.mem⟩

section
variable {l : List Byte} {good : Bool} {sfd : Nat} (hup : d.ethUp p = true) (hrx : d.on (pgEth p) F.ETH_CTRL_RX_EN = true)
include hup hrx

theorem Dev.ethReceive_bad (h : good = false ∨ ¬ l.length + 4 ≤ d.f (pgEth p) F.ETH_MTU_MTU) :
    d.ethReceive p l good sfd = d.inc (pgEth p) F.ETH_RX_ERR_ERRORS := by
  unfold Dev.ethReceive
  dsimp only
  rw [hup, hrx, if_neg (by decide), if_pos]
  rw [Bool.or_eq_true, decide_eq_true_eq, Bool.not_eq_true']
  exact h.imp_right not_le.mp

variable (hfit : l.length + 4 ≤ d.f (pgEth p) F.ETH_MTU_MTU)
include hfit

theorem Dev.ethReceive_other (h : d.ethMine p l = false) : d.ethReceive p l true sfd = d := by
  unfold Dev.ethReceive
  dsimp only
  rw [hup, hrx, h, if_neg (by decide), if_neg (by rw [decide_eq_false (by omega)]; decide), if_pos (by decide)]

variable (hmine : d.ethMine p l = true)
include hmine

theorem Dev.ethReceive_dropped (h : d.ringHolds (pgEth p) F.ETH_RXQ_PTR_HEAD F.ETH_RXQ_PTR_TAIL = false ∨ d.on (pgEth p) F.ETH_RXQ_CFG_EN = false) :
    d.ethReceive p l true sfd = d.inc (pgEth p) F.ETH_RX_DROP_DROPS := by
  unfold Dev.ethReceive
  dsimp only
  rw [hup, hrx, hmine, if_neg (by decide), if_neg (by rw [decide_eq_false (by omega)]; decide), if_neg (by decide), if_pos]
  rw [Bool.or_eq_true, Bool.not_eq_true', Bool.not_eq_true']
  exact h.symm

theorem Dev.ethReceive_delivered
    (h : ¬ (d.ringHolds (pgEth p) F.ETH_RXQ_PTR_HEAD F.ETH_RXQ_PTR_TAIL = false ∨ d.on (pgEth p) F.ETH_RXQ_CFG_EN = false)) :
    d.ethReceive p l true sfd = d.takeFresh.2.ethDeliver p l
      (codeOf 64 ((sfd : Int) - (d.f (pgEth p) F.ETH_RX_LAT_RX_LAT : Int) + ((Config.freeValue d.fresh).toNat % 5 : Nat) - 2)) := by
  obtain ⟨hring, hen⟩ := not_or.mp h
  unfold Dev.ethReceive
  dsimp only
  rw [hup, hrx, hmine, Bool.eq_true_of_not_eq_false hring, Bool.eq_true_of_not_eq_false hen, if_neg (by decide),
    if_neg (by rw [decide_eq_false (by omega)]; decide), if_neg (by decide), if_neg (by decide)]
  rfl

end

/-! The shapers' credits (21 R465) -/

theorem Dev.creditSee_keeps (d : Dev) (p : Nat) : { d.creditSee p with eths := d.eths } = d ∧ ((d.creditSee p).eth p).tx = (d.eth p).tx := by
  have hset {e : Dev} {x : Eth} (h : { e with eths := d.eths } = d) (hx : x.tx = (d.eth p).tx) :
      { e.setEth p x with eths := d.eths } = d ∧ ((e.setEth p x).eth p).tx = (d.eth p).tx := ⟨h, by rw [Dev.eth_setEth_same]; exact hx⟩
  unfold Dev.creditSee
  extract_lets x dt rate frame credited
  have hcredited : { credited with eths := d.eths } = d ∧ (credited.eth p).tx = (d.eth p).tx := by
    refine Dev.forN_keeps (P := fun e => { e with eths := d.eths } = d ∧ (e.eth p).tx = (d.eth p).tx) 8 _ ⟨rfl, rfl⟩ fun q _ e he => ?_
    dsimp only
    split
    · exact hset he.1 he.2
    · exact hset he.1 he.2
  clear_value credited
  exact hset hcredited.1 hcredited.2

theorem Dev.regs_of_eths {e : Dev} (h : { e with eths := d.eths } = d) : e.regs = d.regs := (congrArg Dev.regs h : _)

theorem Dev.mem_of_eths {e : Dev} (h : { e with eths := d.eths } = d) : e.mem = d.mem := (congrArg Dev.mem h : _)

theorem Dev.time_of_eths {e : Dev} (h : { e with eths := d.eths } = d) : e.time = d.time := (congrArg Dev.time h : _)

theorem Dev.creditSee_regs (d : Dev) (p : Nat) : (d.creditSee p).regs = d.regs := Dev.regs_of_eths (d.creditSee_keeps p).1

theorem Dev.creditSee_mem (d : Dev) (p : Nat) : (d.creditSee p).mem = d.mem := Dev.mem_of_eths (d.creditSee_keeps p).1

theorem Dev.creditSee_time (d : Dev) (p : Nat) : (d.creditSee p).time = d.time := Dev.time_of_eths (d.creditSee_keeps p).1

/-! The start of a frame (21 R464, R465) -/

/-- Queue n may start a frame, or its descriptor ends at once. -/
def Dev.mayStart (d : Dev) (p n : Nat) : Bool := d.txqEligible p n && (!d.txDescOk p (d.ethDesc (d.txDesc p n)) || d.txqFits p n)

/-- The frame of queue q starts, or its descriptor ends. -/
def Dev.txStart (d : Dev) (p q : Nat) : Dev :=
  let w := d.ethDesc (d.txDesc p q)
  if !d.txDescOk p w then d.txEnd p q w 4 none
  else
    let a := descBuf w
    let len := descFld w 2 0 14
    match d.rangeCause a len false with
    | some (c, b) =>
      let d := d.memViolation (0x310 + p) b 64 false c
      d.setEth p { d.eth p with tx := some { q := q, words := w, frame := [], poison := false, bus := true, sfd := d.tick, ends := d.tick } }
    | none =>
      let (d, l, bad) := d.getRange a len
      d.setEth p { d.eth p with tx := some (d.ethSent p q w l bad) }

theorem find?_highest {may : Nat → Bool} {q : Nat} (hq : q < 8) (hmay : may q = true) (habove : ∀ n, q < n → n < 8 → may n = false) :
    (List.range 8).reverse.find? may = some q := by
  have hlist : (List.range 8).reverse = [7, 6, 5, 4, 3, 2, 1, 0] := rfl
  rw [hlist]
  interval_cases q <;> simp [hmay, habove]

theorem find?_none {may : Nat → Bool} (h : ∀ n, n < 8 → may n = false) : (List.range 8).reverse.find? may = none := by
  rw [List.find?_eq_none]
  intro n hn
  rw [List.mem_reverse, List.mem_range] at hn
  rw [h n hn]
  decide

section
variable (hup : d.ethUp p = true) (htx : d.on (pgEth p) F.ETH_CTRL_TX_EN = true) (hidle : (d.eth p).tx = none)
include hup htx hidle

theorem Dev.ethTransmit_eq : d.ethTransmit p = match (List.range 8).reverse.find? ((d.creditSee p).mayStart p) with
    | none => d.creditSee p
    | some q => (d.creditSee p).txStart p q := by
  unfold Dev.ethTransmit
  dsimp only
  rw [hup, htx, hidle, if_neg (by decide)]
  generalize d.creditSee p = e
  have hmay (n : Nat) : (e.txqEligible p n && (!e.txDescOk p (e.ethDesc (e.txDesc p n)) || e.txqFits p n)) = e.mayStart p n := rfl
  simp only [hmay]
  generalize List.find? (e.mayStart p) (List.range 8).reverse = o
  cases o with
  | none => rfl
  | some q => rfl

theorem Dev.ethTransmit_start {q : Nat} (hq : q < 8) (hmay : (d.creditSee p).mayStart p q = true)
    (habove : ∀ n, q < n → n < 8 → (d.creditSee p).mayStart p n = false) : d.ethTransmit p = (d.creditSee p).txStart p q := by
  rw [Dev.ethTransmit_eq hup htx hidle, find?_highest hq hmay habove]

theorem Dev.ethTransmit_none (h : ∀ n, n < 8 → (d.creditSee p).mayStart p n = false) : d.ethTransmit p = d.creditSee p := by
  rw [Dev.ethTransmit_eq hup htx hidle, find?_none h]

end

theorem Dev.txStart_illegal {q : Nat} (h : d.txDescOk p (d.ethDesc (d.txDesc p q)) = false) :
    d.txStart p q = d.txEnd p q (d.ethDesc (d.txDesc p q)) 4 none := by
  unfold Dev.txStart
  dsimp only
  rw [h, if_pos (by decide)]

/-- The frame that a legal descriptor names, read from memory. -/
def Dev.txRead (d : Dev) (p q : Nat) : Dev × List Byte × Bool :=
  d.getRange (descBuf (d.ethDesc (d.txDesc p q))) (descFld (d.ethDesc (d.txDesc p q)) 2 0 14)

theorem Dev.txStart_sent {q : Nat} (h : d.txDescOk p (d.ethDesc (d.txDesc p q)) = true)
    (hcause : d.rangeCause (descBuf (d.ethDesc (d.txDesc p q))) (descFld (d.ethDesc (d.txDesc p q)) 2 0 14) false = none) :
    d.txStart p q = (d.txRead p q).1.setEth p { (d.txRead p q).1.eth p with
      tx := some ((d.txRead p q).1.ethSent p q (d.ethDesc (d.txDesc p q)) (d.txRead p q).2.1 (d.txRead p q).2.2) } := by
  unfold Dev.txStart
  dsimp only
  rw [h, if_neg (by decide), hcause]
  rfl

theorem Dev.ethTicks_congr {e : Dev} (h : ∀ f : Fld, e.f (pgEth p) f = d.f (pgEth p) f) (n : Nat) : e.ethTicks p n = d.ethTicks p n := by
  have hon (f : Fld) : e.on (pgEth p) f = d.on (pgEth p) f := by rw [Dev.on, Dev.on, h]
  have hrate : e.ethRate p = d.ethRate p := by
    unfold Dev.ethRate
    dsimp only
    rw [hon, hon, hon, h, h]
  rw [Dev.ethTicks, Dev.ethTicks, hrate]

/-! The stamps (21 R460, R461) -/

theorem Dev.ethSfd_due {t : EthTx} (h : (d.eth p).tx = some t) (hsfd : t.sfd = d.tick) (hbus : t.bus = false) :
    ((d.ethSfd p).eth p).tx = some { t with stamp := codeOf 64 ((d.count : Int) + (d.f (pgEth p) F.ETH_TX_LAT_TX_LAT : Int) +
      ((Config.freeValue d.fresh).toNat % 5 : Nat) - 2) } := by
  unfold Dev.ethSfd
  rw [h]
  dsimp only
  rw [if_pos ⟨hsfd, hbus⟩, Dev.eth_setEth_same]
  rfl

/-- The stamp FIFO's registers are the only ones that a stamp's entry changes. -/
structure Dev.StampKeeps (p : Nat) (d r : Dev) : Prop where
  reg : ∀ a, a < pgEth p + 0x88 ∨ pgEth p + 0x98 ≤ a → r.reg a = d.reg a
  mem : r.mem = d.mem
  tx : (r.eth p).tx = (d.eth p).tx

namespace Dev.StampKeeps

variable {e r : Dev}

theorem trans (h : Dev.StampKeeps p d e) (k : Dev.StampKeeps p e r) : Dev.StampKeeps p d r :=
  ⟨fun a ha => (k.reg a ha).trans (h.reg a ha), k.mem.trans h.mem, k.tx.trans h.tx⟩

theorem setReg {o : Nat} (h : 0x88 ≤ o ∧ o < 0x98) (v : W32) : Dev.StampKeeps p d (d.setReg (pgEth p + o) v) :=
  ⟨fun _ _ => d.reg_setReg_ne v (by omega), Dev.setReg_mem .., rfl⟩

theorem setShown (v : Nat) (x : W32) : Dev.StampKeeps p d ((d.setR64 (pgEth p) 0x88 v).setReg (pgEth p + 0x90) x) :=
  .trans (.trans (setReg (o := 0x88) (by decide) _) (setReg (o := 0x8C) (by decide) _)) (setReg (o := 0x90) (by decide) _)

theorem txtsShow : Dev.StampKeeps p d (d.txtsShow p) := by
  unfold Dev.txtsShow
  split
  · exact setShown _ _
  · exact .trans (e := d.takeFresh.2) ⟨fun _ _ => rfl, rfl, rfl⟩ (setShown _ _)

theorem txtsPush (stamp info : Nat) : Dev.StampKeeps p d (d.txtsPush p stamp info) := by
  have hpushed (x : Eth) (hx : x.tx = (d.eth p).tx) : Dev.StampKeeps p d (d.setEth p x) :=
    ⟨fun _ _ => rfl, rfl, by rw [Dev.eth_setEth_same]; exact hx⟩
  unfold Dev.txtsPush
  dsimp only
  split
  · exact setReg (o := 0x94) (by decide) _
  split
  · exact (hpushed _ (by rfl)).trans txtsShow
  · exact hpushed _ (by rfl)

end Dev.StampKeeps

/-! The end of a descriptor (21 R464) -/

theorem Dev.MemoryKeeps.eths {r : Dev} (h : d.MemoryKeeps r) : r.eths = d.eths := (congrArg Dev.eths h : _)

section
variable (d) (p q : Nat) (w : List W32) (status : Nat) (stamp : Option Nat)

/-- STATUS and the stamp in the descriptor at HEAD. -/
def Dev.txWritten : Dev :=
  let e := d.putClean (d.txDesc p q + 8) (bytesLE 4 (putBits (w.getD 2 0) 16 4 status).toNat)
  match stamp with
  | some s => e.putClean (d.txDesc p q + 16) (bytesLE 8 s)
  | none => e

/-- HEAD of the queue moves on. -/
def Dev.txMoved : Dev :=
  (d.txWritten p q w status stamp).setF (txq p q) F.ETH_TXQ_PTR_HEAD
    (((d.txWritten p q w status stamp).f (txq p q) F.ETH_TXQ_PTR_HEAD + 1) % 2 ^ (d.txWritten p q w status stamp).f (txq p q) F.ETH_TXQ_CFG_LOG2)

/-- After an error the queue stops. -/
def Dev.txStopped : Dev :=
  if status = 2 ∨ status = 4 then (d.txMoved p q w status stamp).setB (txq p q) F.ETH_TXQ_CFG_EN false else d.txMoved p q w status stamp

theorem Dev.txEnd_eq : d.txEnd p q w status stamp =
    if descFld w 2 15 1 = 1 then (d.txStopped p q w status stamp).irq (pgEth p) q else d.txStopped p q w status stamp := by
  cases stamp with
  | none => rfl
  | some s => rfl

theorem Dev.txWritten_keeps : d.MemoryKeeps (d.txWritten p q w status stamp) := by
  cases stamp with
  | none => exact .putClean d _ _
  | some s => exact (Dev.MemoryKeeps.putClean d _ _).trans (.putClean _ _ _)

theorem Dev.txWritten_eth (m : Nat) : (d.txWritten p q w status stamp).eth m = d.eth m := by
  rw [Dev.eth, (d.txWritten_keeps p q w status stamp).eths, Dev.eth]

theorem Dev.txWritten_status : (d.txWritten p q w status stamp).bytes (d.txDesc p q + 8) 4 = bytesLE 4 (putBits (w.getD 2 0) 16 4 status).toNat := by
  have h := Dev.bytes_putClean (d := d) (d.txDesc p q + 8) (bytesLE 4 (putBits (w.getD 2 0) 16 4 status).toNat)
  rw [length_bytesLE] at h
  cases stamp with
  | none => exact h
  | some s => exact (Dev.bytes_putClean_apart _ (by omega)).trans h

theorem Dev.txWritten_stamp (s : Nat) : (d.txWritten p q w status (some s)).bytes (d.txDesc p q + 16) 8 = bytesLE 8 s := by
  have h := Dev.bytes_putClean (d := d.putClean (d.txDesc p q + 8) (bytesLE 4 (putBits (w.getD 2 0) 16 4 status).toNat)) (d.txDesc p q + 16) (bytesLE 8 s)
  rwa [length_bytesLE] at h

theorem Dev.txWritten_byte {b : Nat} (h : b < d.txDesc p q + 8 ∨ d.txDesc p q + 24 ≤ b) : (d.txWritten p q w status stamp).byte b = d.byte b := by
  have hstatus := Dev.byte_putClean_out (d := d) (a := d.txDesc p q + 8) (b := b) (bytesLE 4 (putBits (w.getD 2 0) 16 4 status).toNat)
    (by rw [length_bytesLE]; omega)
  cases stamp with
  | none => exact hstatus
  | some s => exact (Dev.byte_putClean_out _ (by rw [length_bytesLE]; omega)).trans hstatus

/-- What holds of the device with HEAD moved, and stays over the queue's stop and its interrupt, holds at the end. -/
theorem Dev.txEnd_keeps {P : Dev → Prop} (h : P (d.txMoved p q w status stamp)) (hstop : ∀ e : Dev, P e → P (e.setB (txq p q) F.ETH_TXQ_CFG_EN false))
    (hirq : ∀ e : Dev, P e → P (e.irq (pgEth p) q)) : P (d.txEnd p q w status stamp) := by
  have hstopped : P (d.txStopped p q w status stamp) := by
    unfold Dev.txStopped
    split
    · exact hstop _ h
    · exact h
  rw [Dev.txEnd_eq]
  split
  · exact hirq _ hstopped
  · exact hstopped

theorem Dev.txEnd_mem : (d.txEnd p q w status stamp).mem = (d.txWritten p q w status stamp).mem :=
  d.txEnd_keeps p q w status stamp (P := fun e => e.mem = (d.txWritten p q w status stamp).mem) (Dev.setF_mem ..)
    (fun e h => (e.setF_mem ..).trans h) fun e h => (e.setF_mem ..).trans h

theorem Dev.txEnd_eth (m : Nat) : (d.txEnd p q w status stamp).eth m = d.eth m :=
  d.txEnd_keeps p q w status stamp (P := fun e => e.eth m = d.eth m) ((Dev.eth_setF ..).trans (d.txWritten_eth ..))
    (fun e h => (e.eth_setF ..).trans h) fun e h => (e.eth_setF ..).trans h

theorem txq_irq_apart {o : Nat} (ho : 0x100 ≤ o) : pgEth p + 0x24 ≠ txq p q + o := by
  simp only [txq]
  omega

theorem Dev.txEnd_head (hlog : d.f (txq p q) F.ETH_TXQ_CFG_LOG2 ≤ 12) : (d.txEnd p q w status stamp).f (txq p q) F.ETH_TXQ_PTR_HEAD =
    (d.f (txq p q) F.ETH_TXQ_PTR_HEAD + 1) % 2 ^ d.f (txq p q) F.ETH_TXQ_CFG_LOG2 := by
  have hf (g : Fld) : (d.txWritten p q w status stamp).f (txq p q) g = d.f (txq p q) g := Dev.f_of_regs (d.txWritten_keeps p q w status stamp).regs _ g
  have hlt := Nat.mod_lt (d.f (txq p q) F.ETH_TXQ_PTR_HEAD + 1) (Nat.two_pow_pos (d.f (txq p q) F.ETH_TXQ_CFG_LOG2))
  refine d.txEnd_keeps p q w status stamp (P := fun e => e.f (txq p q) F.ETH_TXQ_PTR_HEAD = _) ?_ (fun e h => (Dev.f_setF_apart _ _ rfl).trans h)
    fun e h => (e.f_setF_ne _ _ _ _ _ (txq_irq_apart p q (by decide))).trans h
  rw [Dev.txMoved, Dev.f_setF_same _ _ _ _ (by decide), hf, hf]
  exact Nat.mod_eq_of_lt (hlt.trans_le (Nat.pow_le_pow_right (by decide) hlog))

theorem Dev.txEnd_stopped (h : status = 2 ∨ status = 4) : (d.txEnd p q w status stamp).on (txq p q) F.ETH_TXQ_CFG_EN = false := by
  have hstopped : (d.txStopped p q w status stamp).on (txq p q) F.ETH_TXQ_CFG_EN = false := by
    rw [Dev.txStopped, if_pos h, Dev.on_setB_same _ _ _ _ rfl (by decide)]
  rw [Dev.txEnd_eq]
  split
  · exact (Dev.on_setF_ne _ _ _ _ _ _ (txq_irq_apart p q (by decide))).trans hstopped
  · exact hstopped

/-- A register of the port below its queues' that is no interrupt register stays. -/
theorem Dev.txEnd_low (hq : q < 8) {g : Fld} (h24 : g.ofs ≠ 0x24) (hlow : g.ofs < 0x100) :
    (d.txEnd p q w status stamp).f (pgEth p) g = d.f (pgEth p) g := by
  have hne {o : Nat} (ho : 0x100 ≤ o) : txq p q + o ≠ pgEth p + g.ofs := by
    simp only [txq]
    omega
  refine d.txEnd_keeps p q w status stamp (P := fun e => e.f (pgEth p) g = _) ?_ (fun e h => (e.f_setF_ne _ _ _ _ _ (hne (by decide))).trans h)
    fun e h => (e.f_setF_ne _ _ _ _ _ (by simp only; omega)).trans h
  rw [Dev.txMoved, Dev.f_setF_ne _ _ _ _ _ _ (hne (by decide)), Dev.f_of_regs (d.txWritten_keeps p q w status stamp).regs]

end

/-! The end of a frame (21 R460, R464) -/

section
variable (d) (p : Nat) (t : EthTx)

/-- The port has no frame in transmission any more. -/
def Dev.txFreed : Dev := (d.creditSee p).setEth p { (d.creditSee p).eth p with tx := none }

/-- A frame that went out is counted and its descriptor ends. -/
def Dev.txOut : Dev :=
  ((d.txFreed p).inc (pgEth p) F.ETH_TX_CNT_FRAMES).txEnd p t.q t.words (if t.poison then 3 else 0)
    (if descFld t.words 2 14 1 == 1 then some t.stamp else none)

theorem Dev.setEth_regs (x : Eth) : (d.setEth p x).regs = d.regs := rfl

theorem Dev.txFreed_regs : (d.txFreed p).regs = d.regs := by rw [Dev.txFreed, Dev.setEth_regs, Dev.creditSee_regs]

theorem Dev.txFreed_mem : (d.txFreed p).mem = d.mem := by rw [Dev.txFreed, Dev.setEth_mem, Dev.creditSee_mem]

theorem Dev.txFreed_tx : ((d.txFreed p).eth p).tx = none := by rw [Dev.txFreed, Dev.eth_setEth_same]

variable {d p t}

theorem Dev.ethTxDone_eq (h : (d.eth p).tx = some t) (hclk : d.clocksStill = false) (hend : t.ends ≤ d.tick) : d.ethTxDone p =
    if t.bus then (d.txFreed p).txEnd p t.q t.words 2 none
    else if descFld t.words 2 14 1 == 1 then (d.txOut p t).txtsPush p t.stamp (ptpInfo t.frame) else d.txOut p t := by
  unfold Dev.ethTxDone
  rw [h]
  dsimp only
  rw [hclk, decide_eq_false (by omega), if_neg (by decide)]
  rfl

theorem Dev.txDesc_congr {e : Dev} {q : Nat} (h : ∀ o, 0x100 ≤ o → o < 0x110 → e.reg (txq p q + o) = d.reg (txq p q + o)) : e.txDesc p q = d.txDesc p q := by
  rw [Dev.txDesc, Dev.txDesc, Dev.f_congr (h _ (by decide) (by decide)), Dev.r64, Dev.r64, h 0x100 (by decide) (by decide),
    show txq p q + 0x100 + 4 = txq p q + 0x104 from Nat.add_assoc _ _ _, h 0x104 (by decide) (by decide)]

theorem Dev.reg_counted {q o : Nat} (ho : 0x100 ≤ o) :
    ((d.txFreed p).inc (pgEth p) F.ETH_TX_CNT_FRAMES).reg (txq p q + o) = d.reg (txq p q + o) := by
  rw [Dev.inc, Dev.reg_setF_ne _ _ _ _ (by simp only [txq]; show pgEth p + 0x5C ≠ _; omega), Dev.reg, d.txFreed_regs p, Dev.reg]

end

end Sys2Proof.Machine

namespace Sys2Proof.Claims

open Sys2Proof.Machine

theorem ethernetReception : EthernetReception := by
  intro s p l sfd hclk hup q hrx head drops fits
  have hexec (good : Bool) : exec (.ethFrameReceive p ⟨l, sfd⟩ good) s = s.clocked fun d => d.ethReceive p l good sfd.toNat := rfl
  refine ⟨fun good hbad => does_of_clocked hclk (hexec good) (Dev.ethReceive_bad hup hrx hbad),
    fun hfit hother => does_of_clocked hclk (hexec true) (Dev.ethReceive_other hup hrx hfit hother),
    fun hfit hmine hdrop => does_of_clocked hclk (hexec true) (Dev.ethReceive_dropped hup hrx hfit hmine hdrop),
    fun hfit hmine hkept => ?_⟩
  intro a w hzero hmem hcause hlen hlog
  refine gives_of_clocked hclk (hexec true) (Dev.ethReceive_delivered hup hrx hfit hmine hkept) ?_
  have hdesc : s.dev.takeFresh.2.rxDesc p = a := Dev.rxDesc_takeFresh
  have hw : s.dev.takeFresh.2.ethDesc (s.dev.takeFresh.2.rxDesc p) = w := by rw [hdesc, Dev.ethDesc_takeFresh]
  obtain ⟨hhead, hcount, hwritten⟩ := Dev.ethDeliver_delivered (d := s.dev.takeFresh.2)
    (stamp := codeOf 64 ((sfd.toNat : Int) - (s.dev.f q F.ETH_RX_LAT_RX_LAT : Int) + ((Config.freeValue s.dev.fresh).toNat % 5 : Nat) - 2))
    (by rwa [hw]) (by rwa [hw, Dev.ethMem_takeFresh]) (by rwa [hw, Dev.rangeCause_takeFresh]) (by rwa [Dev.f_takeFresh]) (by rwa [Dev.f_takeFresh])
  rw [Dev.f_takeFresh] at hhead
  rw [Dev.f_takeFresh] at hcount
  refine ⟨hhead, hcount, ⟨_, Nat.mod_lt (Config.freeValue s.dev.fresh).toNat (by decide), ?_⟩, fun i hi hout => ?_, fun b hbuf hout => ?_⟩
  · rw [Dev.bytes_congr hwritten, ← hdesc, Dev.rxWritten_stamp]
  · rw [Dev.byte_congr hwritten, Dev.rxWritten_byte (by rwa [hdesc]), hw, Dev.byte_setBytes_in _ _ i l hi]
  · rw [Dev.byte_congr hwritten, Dev.rxWritten_byte (by rwa [hdesc]), hw, Dev.byte_setBytes_out _ _ b l hbuf]
    rfl

/-- How a frame in transmission leaves its descriptor and its queue. -/
structure TxDone (d : Dev) (p q : Nat) (t : EthTx) (status : Nat) (e : Dev) : Prop where
  tx : (e.eth p).tx = none
  head : e.f (txq p q) F.ETH_TXQ_PTR_HEAD = (d.f (txq p q) F.ETH_TXQ_PTR_HEAD + 1) % 2 ^ d.f (txq p q) F.ETH_TXQ_CFG_LOG2
  status : e.bytes (d.txDesc p q + 8) 4 = bytesLE 4 (putBits (t.words.getD 2 0) 16 4 status).toNat
  rest : ∀ b, b < d.txDesc p q + 8 ∨ d.txDesc p q + 24 ≤ b → e.byte b = d.byte b

theorem txDone_bus {d : Dev} {p : Nat} {t : EthTx} (hlog : d.f (txq p t.q) F.ETH_TXQ_CFG_LOG2 ≤ 12) :
    TxDone d p t.q t 2 ((d.txFreed p).txEnd p t.q t.words 2 none) := by
  have hf (g : Fld) : (d.txFreed p).f (txq p t.q) g = d.f (txq p t.q) g := Dev.f_of_regs (d.txFreed_regs p) _ g
  have hdesc : (d.txFreed p).txDesc p t.q = d.txDesc p t.q := Dev.txDesc_congr fun o _ _ => by rw [Dev.reg, d.txFreed_regs p, Dev.reg]
  have hmem := (d.txFreed p).txEnd_mem p t.q t.words 2 none
  refine ⟨?_, ?_, ?_, fun b hb => ?_⟩
  · rw [Dev.txEnd_eth, Dev.txFreed_tx]
  · rw [Dev.txEnd_head _ _ _ _ _ _ (by rwa [hf]), hf, hf]
  · rw [Dev.bytes_congr hmem, ← hdesc, Dev.txWritten_status]
  · rw [Dev.byte_congr hmem, Dev.txWritten_byte _ _ _ _ _ _ (by rwa [hdesc]), Dev.byte_congr (d.txFreed_mem p)]

theorem txDone_out {d : Dev} {p : Nat} {t : EthTx} (hlog : d.f (txq p t.q) F.ETH_TXQ_CFG_LOG2 ≤ 12) :
    TxDone d p t.q t (if t.poison then 3 else 0) (d.txOut p t) := by
  have hf {g : Fld} (hg : 0x100 ≤ g.ofs) : ((d.txFreed p).inc (pgEth p) F.ETH_TX_CNT_FRAMES).f (txq p t.q) g = d.f (txq p t.q) g :=
    Dev.f_congr (Dev.reg_counted hg)
  have hdesc : ((d.txFreed p).inc (pgEth p) F.ETH_TX_CNT_FRAMES).txDesc p t.q = d.txDesc p t.q := Dev.txDesc_congr fun o ho _ => Dev.reg_counted ho
  have hcounted : ((d.txFreed p).inc (pgEth p) F.ETH_TX_CNT_FRAMES).mem = d.mem := (Dev.setF_mem ..).trans (d.txFreed_mem p)
  have hmem := ((d.txFreed p).inc (pgEth p) F.ETH_TX_CNT_FRAMES).txEnd_mem p t.q t.words (if t.poison then 3 else 0)
    (if descFld t.words 2 14 1 == 1 then some t.stamp else none)
  rw [← Dev.txOut] at hmem
  refine ⟨?_, ?_, ?_, fun b hb => ?_⟩
  · rw [Dev.txOut, Dev.txEnd_eth, Dev.inc, Dev.eth_setF, Dev.txFreed_tx]
  · rw [Dev.txOut, Dev.txEnd_head _ _ _ _ _ _ (by rwa [hf (by decide)]), hf (by decide), hf (by decide)]
  · rw [Dev.bytes_congr hmem, ← hdesc, Dev.txWritten_status]
  · rw [Dev.byte_congr hmem, Dev.txWritten_byte _ _ _ _ _ _ (by rwa [hdesc]), Dev.byte_congr hcounted]

theorem txOut_count {d : Dev} {p : Nat} {t : EthTx} (hq : t.q < 8) :
    (d.txOut p t).f (pgEth p) F.ETH_TX_CNT_FRAMES = satInc 32 (d.f (pgEth p) F.ETH_TX_CNT_FRAMES) := by
  rw [Dev.txOut, Dev.txEnd_low _ _ _ _ _ _ hq (by decide) (by decide), Dev.inc, Dev.f_setF_same _ _ _ _ (by decide), Dev.f_of_regs (d.txFreed_regs p)]
  exact Nat.mod_eq_of_lt (satInc_lt _ _)

theorem txOut_stamp {d : Dev} {p : Nat} {t : EthTx} (hts : descFld t.words 2 14 1 = 1) : (d.txOut p t).bytes (d.txDesc p t.q + 16) 8 = bytesLE 8 t.stamp := by
  have hdesc : ((d.txFreed p).inc (pgEth p) F.ETH_TX_CNT_FRAMES).txDesc p t.q = d.txDesc p t.q := Dev.txDesc_congr fun o ho _ => Dev.reg_counted ho
  rw [Dev.txOut, hts, Dev.bytes_congr (Dev.txEnd_mem ..), ← hdesc]
  exact Dev.txWritten_stamp ..

/-- The stamp's entry into the FIFO leaves all that a frame's end leaves. -/
theorem TxDone.pushed {d e : Dev} {p q : Nat} {t : EthTx} {status : Nat} (h : TxDone d p q t status e) (stamp info : Nat) :
    TxDone d p q t status (e.txtsPush p stamp info) := by
  have hkeep := Dev.StampKeeps.txtsPush (d := e) (p := p) stamp info
  refine ⟨hkeep.tx.trans h.tx, ?_, (Dev.bytes_congr hkeep.mem _ _).trans h.status, fun b hb => (Dev.byte_congr hkeep.mem b).trans (h.rest b hb)⟩
  exact (Dev.f_congr (hkeep.reg _ (.inr (by simp only [txq]; show _ ≤ pgEth p + 0x10 * q + 0x10C; omega)))).trans h.head

/-- A frame that starts is read from memory, which stays. -/
theorem txStart_shown {d : Dev} {p q : Nat} (hp : 0xE5000000 ≤ pgEth p)
    (hok : (d.creditSee p).txDescOk p ((d.creditSee p).ethDesc ((d.creditSee p).txDesc p q)) = true)
    (hcause : (d.creditSee p).rangeCause (descBuf ((d.creditSee p).ethDesc ((d.creditSee p).txDesc p q)))
      (descFld ((d.creditSee p).ethDesc ((d.creditSee p).txDesc p q)) 2 0 14) false = none) :
    (((d.creditSee p).txStart p q).eth p).tx = some ⟨q, (d.creditSee p).ethDesc ((d.creditSee p).txDesc p q), ((d.creditSee p).txRead p q).2.1,
      ((d.creditSee p).txRead p q).2.2, false, d.tick + d.ethTicks p 8,
      d.tick + d.ethTicks p (12 + Nat.max ((d.creditSee p).txRead p q).2.1.length 60), 0⟩ ∧
    ((d.creditSee p).txStart p q).mem = d.mem := by
  have hregs := d.creditSee_regs p
  have htime := d.creditSee_time p
  have hmem := d.creditSee_mem p
  generalize d.creditSee p = e at *
  have hkeep : e.ReadKeeps (e.txRead p q).1 := .getRange _ _
  have hticks (n : Nat) : (e.txRead p q).1.ethTicks p n = d.ethTicks p n :=
    Dev.ethTicks_congr (fun f => (hkeep.f_high hp).trans (Dev.f_of_regs hregs _ f)) n
  have htick : (e.txRead p q).1.tick = d.tick := congrArg TimeSt.tick (hkeep.time.trans htime)
  rw [Dev.txStart_sent hok hcause]
  refine ⟨?_, (Dev.setEth_mem ..).trans (hkeep.mem.trans hmem)⟩
  rw [Dev.eth_setEth_same, Dev.ethSent, hticks, hticks, htick]

theorem ethernetTransmission : EthernetTransmission := by
  intro s p q hclk e may w
  have hexec : exec (.ethFrameTransmit p) s = s.clocked fun d => d.ethTransmit p := rfl
  refine ⟨fun hup htx hidle hmay habove => ⟨fun hbad => ?_, fun hok hcause => ?_⟩, fun t ht hsfd hbus => ?_, fun hno hup htx hidle => ?_,
    fun t ht hend hq hlog => ?_⟩
  · have hstart := Dev.ethTransmit_start hup htx hidle q.isLt hmay fun n hn h8 => habove ⟨n, h8⟩ hn
    exact does_of_clocked hclk hexec (hstart.trans (Dev.txStart_illegal hbad))
  · have hstart := Dev.ethTransmit_start hup htx hidle q.isLt hmay fun n hn h8 => habove ⟨n, h8⟩ hn
    obtain ⟨htx, hmem⟩ := txStart_shown (d := s.dev) (p := p) (q := q) (by simp only [pgEth]; omega) hok hcause
    refine gives_of_clocked hclk hexec hstart ?_
    intro r
    have hr : (s.dev.creditSee p).txRead p q = r := rfl
    rw [hr] at htx
    exact ⟨⟨0, htx⟩, hmem⟩
  · exact ⟨_, Nat.mod_lt (Config.freeValue s.dev.fresh).toNat (by decide), Dev.ethSfd_due ht hsfd hbus⟩
  · exact does_of_clocked hclk hexec (Dev.ethTransmit_none hup htx hidle fun n hn => hno ⟨n, hn⟩)
  · intro a
    have hdone : s.dev.ethTxDone p = _ := Dev.ethTxDone_eq ht hclk hend
    have hexec : exec (.ethTxDone p) s = s.clocked fun d => d.ethTxDone p := rfl
    have hq8 : t.q < 8 := hq ▸ q.isLt
    rw [← hq] at hlog ⊢
    have ha : s.dev.txDesc p t.q = a := by rw [hq]
    cases hbus : t.bus with
    | true =>
      rw [hbus, if_pos rfl] at hdone
      obtain ⟨htx, hhead, hstatus, hrest⟩ := txDone_bus hlog
      rw [ha] at hstatus hrest
      exact gives_of_clocked hclk hexec hdone ⟨htx, hhead, hstatus, fun _ => Dev.txEnd_stopped _ _ _ _ _ _ (.inl rfl), nofun, nofun, hrest⟩
    | false =>
      have hcount := txOut_count (d := s.dev) (p := p) hq8
      have hout := txDone_out (d := s.dev) (p := p) hlog
      rw [hbus, if_neg (by decide)] at hdone
      by_cases hts : descFld t.words 2 14 1 = 1
      · rw [if_pos (beq_iff_eq.mpr hts)] at hdone
        have hkeep := Dev.StampKeeps.txtsPush (d := s.dev.txOut p t) (p := p) t.stamp (ptpInfo t.frame)
        have hstamp := txOut_stamp (d := s.dev) (p := p) hts
        obtain ⟨htx, hhead, hstatus, hrest⟩ := hout.pushed t.stamp (ptpInfo t.frame)
        rw [ha] at hstatus hrest hstamp
        exact gives_of_clocked hclk hexec hdone ⟨htx, hhead, hstatus, nofun, fun _ => (Dev.f_congr (hkeep.reg _ (.inl (Nat.add_lt_add_left (by decide) _)))).trans hcount,
          fun _ _ => (Dev.bytes_congr hkeep.mem _ _).trans hstamp, hrest⟩
      · rw [if_neg (fun h => hts (beq_iff_eq.mp h))] at hdone
        obtain ⟨htx, hhead, hstatus, hrest⟩ := hout
        rw [ha] at hstatus hrest
        exact gives_of_clocked hclk hexec hdone ⟨htx, hhead, hstatus, nofun, fun _ => hcount, fun _ h => absurd h hts, hrest⟩

/-- Settles O54: a received frame fills the descriptor at HEAD; the queues are asked from the highest on, and a frame's end is a descriptor's end. -/
theorem ethernetFrames : Obligations.EthernetFrames := ⟨ethernetReception, ethernetTransmission⟩

end Sys2Proof.Claims
end

section
/-!
The Sill streamers (20 R445-R447).
-/
namespace Sys2Proof.Machine

variable {d : Dev} {x : Nat}

/-! The queue's count -/

theorem Dev.sillStat_mem (d : Dev) (x : Nat) : (d.sillStat x).mem = d.mem := by
  rw [Dev.sillStat, Dev.setF_mem, Dev.setF_mem]

theorem Dev.sillStat_hbm (d : Dev) (x : Nat) : (d.sillStat x).hbm x = d.hbm x := by
  rw [Dev.sillStat, Dev.setF_hbm, Dev.setF_hbm]

theorem Dev.sillStat_f (d : Dev) (x : Nat) {f : Fld} (hf : f.ofs ≠ F.SILL_STAT_QUEUED.ofs) : (d.sillStat x).f (pgSill x) f = d.f (pgSill x) f := by
  have hq : F.SILL_STAT_QUEUED.apart f = true := by simp [Fld.apart, hf.symm]
  have hr : F.SILL_STAT_RUNNING.apart f = true := by simp [Fld.apart, show F.SILL_STAT_RUNNING.ofs ≠ f.ofs from hf.symm]
  rw [Dev.sillStat, Dev.f_setF_apart _ _ hr, Dev.f_setF_apart _ _ hq]

theorem Dev.sillStat_on (d : Dev) (x : Nat) {f : Fld} (hf : f.ofs ≠ F.SILL_STAT_QUEUED.ofs) : (d.sillStat x).on (pgSill x) f = d.on (pgSill x) f := by
  rw [Dev.on, d.sillStat_f x hf, Dev.on]

/-! A start (20 R445). The kernel evaluates the streamer's page in it, which it can for the two streamers and for no variable. -/

/-- A streamer's queue with an accepted transfer as its last. -/
def Dev.sillQueued (d : Dev) (x : Nat) (h : Hbm) (t : Transfer) (n : Nat) : Dev :=
  ((d.setHbm x { h with queue := h.queue ++ [{ t with num := n }], last := some n }).setF (pgSill x) F.SILL_LAST_NUMBER n).sillStat x

theorem Dev.sillStart_next (hx : x = 0 ∨ x = 1) {a m : Nat} {t : Transfer} (h : d.sillJudge x a = .ok t) (hlast : (d.hbm x).last = some m) :
    d.sillStart x a = (d.sillQueued x (d.hbm x) t ((m + 1) % 65536), .ok ((m + 1) % 65536)) := by
  rcases hx with rfl | rfl <;>
  · unfold Dev.sillStart
    rw [h]
    dsimp only
    rw [hlast, Dev.sillQueued]

theorem Dev.sillStart_first (hx : x = 0 ∨ x = 1) {a : Nat} {t : Transfer} (h : d.sillJudge x a = .ok t) (hlast : (d.hbm x).last = none) :
    d.sillStart x a = (d.takeFresh.2.sillQueued x (d.hbm x) t ((Config.freeValue d.takeFresh.1).toNat % 65536),
      .ok ((Config.freeValue d.takeFresh.1).toNat % 65536)) := by
  rcases hx with rfl | rfl <;>
  · unfold Dev.sillStart
    rw [h]
    dsimp only
    rw [hlast, Dev.sillQueued]

theorem Dev.sillStart_refused (hx : x = 0 ∨ x = 1) {a c : Nat} (h : d.sillJudge x a = .error c) (hdom : d.domOn (domHbm x) = true) :
    d.sillStart x a = (d.setF (pgSill x) F.SILL_LAST_CODE c, .error c) := by
  rcases hx with rfl | rfl <;>
  · unfold Dev.sillStart
    rw [h]
    dsimp only
    rw [if_pos hdom]

theorem Dev.sillQueued_hbm (h : Hbm) (t : Transfer) (n : Nat) :
    (d.sillQueued x h t n).hbm x = { h with queue := h.queue ++ [{ t with num := n }], last := some n } := by
  rw [Dev.sillQueued, Dev.sillStat_hbm, Dev.setF_hbm, Dev.hbm_setHbm_same]

theorem Dev.sillQueued_number (h : Hbm) (t : Transfer) {n : Nat} (hn : n < 65536) : (d.sillQueued x h t n).f (pgSill x) F.SILL_LAST_NUMBER = n := by
  rw [Dev.sillQueued, Dev.sillStat_f _ _ (by decide), Dev.f_setF_same _ _ _ _ (by decide)]
  exact Nat.mod_eq_of_lt hn

theorem Dev.sillQueued_mem (h : Hbm) (t : Transfer) (n : Nat) : (d.sillQueued x h t n).mem = d.mem := by
  rw [Dev.sillQueued, Dev.sillStat_mem, Dev.setF_mem, Dev.setHbm_mem]

/-- An accepted start takes the next number, or the streamer's own first one. -/
theorem Dev.sillStart_accepted (hx : x = 0 ∨ x = 1) {a : Nat} {t : Transfer} (h : d.sillJudge x a = .ok t) : ∃ (e : Dev) (n : Nat),
    e.mem = d.mem ∧ n < 65536 ∧ (∀ m, (d.hbm x).last = some m → n = (m + 1) % 65536) ∧
      d.sillStart x a = (e.sillQueued x (d.hbm x) t n, .ok n) := by
  cases hlast : (d.hbm x).last with
  | some m => exact ⟨d, _, rfl, Nat.mod_lt _ (by decide), fun k hk => by rw [Option.some.inj hk], Dev.sillStart_next hx h hlast⟩
  | none => exact ⟨d.takeFresh.2, _, rfl, Nat.mod_lt _ (by decide), nofun, Dev.sillStart_first hx h hlast⟩

/-! The turn of a waiting transfer (20 R445) -/

/-- The transfer of a list that starts. -/
theorem find?_waiting {ready : Transfer → Bool} {before after : List Transfer} {t : Transfer} (ht : t.running = false) (hready : ready t = true)
    (hbefore : ∀ y ∈ before, y.running = true ∨ ready y = false) : (before ++ t :: after).find? (fun y => !y.running && ready y) = some t := by
  rw [List.find?_append, List.find?_eq_none.mpr, Option.none_or, List.find?_cons_of_pos]
  · rw [ht, hready]
    rfl
  · intro y hy
    rcases hbefore y hy with h | h <;> simp [h]

theorem map_started {before after : List Transfer} {t u : Transfer} (h : ∀ y ∈ before ++ after, y ≠ t) :
    (before ++ t :: after).map (fun y => if y = t then u else y) = before ++ u :: after := by
  have hkeep (l : List Transfer) (hl : ∀ y ∈ l, y ≠ t) : l.map (fun y => if y = t then u else y) = l :=
    (List.map_congr_left fun y hy => if_neg (hl y hy)).trans (List.map_id l)
  rw [List.map_append, List.map_cons, if_pos rfl, hkeep before fun y hy => h y (List.mem_append_left _ hy),
    hkeep after fun y hy => h y (List.mem_append_right _ hy)]

/-- The transfer whose turn it is runs. -/
def Dev.sillRun (d : Dev) (x : Nat) (t : Transfer) : Dev :=
  (d.setHbm x { d.hbm x with queue := (d.hbm x).queue.map (fun y => if y = t then { t with running := true } else y) }).sillStat x

theorem Dev.transferStart_run (hx : x = 0 ∨ x = 1) {t : Transfer} (hrun : ((d.hbm x).queue.filter (·.running)).length < 4) (hlive : d.live (pgSill x) = true)
    (hclk : d.clocksStill = false) (hfind : (d.hbm x).queue.find? (fun y => !y.running && d.sillReady y) = some t) : d.transferStart x = d.sillRun x t := by
  rcases hx with rfl | rfl <;>
  · unfold Dev.transferStart
    dsimp only
    rw [decide_eq_false (by omega), hlive, hclk, if_neg (by decide), hfind]
    dsimp only
    rw [Dev.sillRun]

theorem Dev.sillRun_hbm (t : Transfer) : (d.sillRun x t).hbm x =
    { d.hbm x with queue := (d.hbm x).queue.map (fun y => if y = t then { t with running := true } else y) } := by
  rw [Dev.sillRun, Dev.sillStat_hbm, Dev.hbm_setHbm_same]

theorem Dev.sillRun_mem (t : Transfer) : (d.sillRun x t).mem = d.mem := by
  rw [Dev.sillRun, Dev.sillStat_mem, Dev.setHbm_mem]

/-! The end of a transfer -/

section
variable (d : Dev) (t : Transfer) (state left : Nat)

theorem Dev.sillEnd_hbm : (d.sillEnd x t state left).hbm x = { d.hbm x with
    queue := (d.hbm x).queue.filter (fun y => y.num != t.num)
    final := ((d.hbm x).final ++ [(t.num, state, left)]).drop ((d.hbm x).final.length + 1 - 256) } := by
  rw [Dev.sillEnd, Dev.sillStat_hbm, Dev.hbm_setHbm_same]

theorem Dev.sillEnd_mem : (d.sillEnd x t state left).mem = d.mem := by
  rw [Dev.sillEnd, Dev.sillStat_mem, Dev.setHbm_mem]

/-- A transfer that ends is no longer queued. -/
theorem Dev.sillEnd_queue {n : Nat} (hn : t.num = n) : ∀ y ∈ ((d.sillEnd x t state left).hbm x).queue, y.num ≠ n := by
  rw [Dev.sillEnd_hbm]
  intro y hy
  have hne := (List.mem_filter.mp hy).2
  rw [bne_iff_ne] at hne
  exact hn ▸ hne

/-- The end of a transfer is the latest that is kept. -/
theorem Dev.mem_sillEnd_final : (t.num, state, left) ∈ ((d.sillEnd x t state left).hbm x).final := by
  rw [Dev.sillEnd_hbm, List.drop_append_of_le_length (by omega)]
  exact List.mem_append_right _ (List.mem_singleton.mpr rfl)

end

theorem Dev.runningXfer_num {n : Nat} {t : Transfer} (h : d.runningXfer x n = some t) : t.num = n := by
  have hfound := List.find?_some h
  simp only [Bool.and_eq_true, beq_iff_eq] at hfound
  exact hfound.1

/-! The end of a transfer with its lines copied (20 R447) -/

/-- The device once the transfer's event has pulsed and its count is up. -/
def Dev.sillDone (d : Dev) (x : Nat) (t : Transfer) : Dev :=
  (((d.copyTo t t.total).sillEnd x t 2 0).pulse (1845 + x)).inc (pgSill x) F.SILL_DONE_CNT_DONE

theorem Dev.transferComplete_done {n : Nat} {t : Transfer} (h : d.runningXfer x n = some t) (hclk : d.clocksStill = false)
    (hfail : d.failingLine t = none) (hnotify : t.fld 8 22 1 = 0) : d.transferComplete x n = d.sillDone x t := by
  unfold Dev.transferComplete
  rw [h]
  dsimp only
  rw [hfail, hclk, hnotify, if_neg (by decide), if_neg (fun h => absurd h.1 (by decide)), Dev.sillDone]

/-! A transfer that meets an error (20 R447) -/

/-- SILL_ERR_INFO of the first error. -/
def Dev.sillErr (d : Dev) (x n c : Nat) : Dev :=
  ((d.setF (pgSill x) F.SILL_ERR_INFO_NUMBER n).setF (pgSill x) F.SILL_ERR_INFO_CAUSE c).setB (pgSill x) F.SILL_ERR_INFO_VALID true

theorem Dev.transferError_first {n i c a : Nat} {w : Bool} {t : Transfer} (h : d.runningXfer x n = some t) (hfail : d.failingLine t = some i)
    (hcause : d.lineCause t i = some (c, a, w))
    (hvalid : (((d.copyTo t i).sillEnd x t 3 (t.total - i)).memViolation (0x200 + x) a 64 w c).on (pgSill x) F.SILL_ERR_INFO_VALID = false) :
    d.transferError x n = ((((d.copyTo t i).sillEnd x t 3 (t.total - i)).memViolation (0x200 + x) a 64 w c).sillErr x n c).irq (pgSill x) 0 := by
  obtain ⟨cause, hc⟩ : ∃ cause, cause = Dev.lineCause d := ⟨_, rfl⟩
  obtain ⟨violation, hviolation⟩ : ∃ violation, violation = Dev.memViolation := ⟨_, rfl⟩
  rw [← hc] at hcause
  rw [← hviolation] at hvalid ⊢
  unfold Dev.transferError
  rw [← hc, ← hviolation, h]
  dsimp only
  rw [hfail]
  dsimp only
  rw [hcause]
  dsimp only
  rw [hvalid, if_neg (by decide), Dev.sillErr]

theorem Dev.memViolation_rest (req a len : Nat) (write : Bool) (cause : Nat) :
    { d.memViolation req a len write cause with regs := d.regs, errLog := d.errLog } = d := by
  unfold Dev.memViolation
  split
  · exact d.logAt_rest ..
  · exact d.logAt_rest ..

theorem Dev.memViolation_mem (req a len : Nat) (write : Bool) (cause : Nat) : (d.memViolation req a len write cause).mem = d.mem :=
  (congrArg Dev.mem (d.memViolation_rest req a len write cause) : _)

theorem Dev.memViolation_hbm (req a len : Nat) (write : Bool) (cause y : Nat) : (d.memViolation req a len write cause).hbm y = d.hbm y :=
  (congrArg (fun e : Dev => e.hbm y) (d.memViolation_rest req a len write cause) : _)

theorem Dev.reg_logAt {p b : Nat} (req a len : Nat) (write : Bool) (cause : Nat) (h : b < p + 0x10 ∨ p + 0x28 ≤ b) :
    (d.logAt p req a len write cause).reg b = d.reg b := by
  unfold Dev.logAt
  exact Dev.reg_logRecord _ h

/-- A logged violation leaves the registers of the streamers' pages. -/
theorem Dev.reg_memViolation {b : Nat} (hb : 0xE5000000 ≤ b) (req a len : Nat) (write : Bool) (cause : Nat) :
    (d.memViolation req a len write cause).reg b = d.reg b := by
  unfold Dev.memViolation
  split
  · exact Dev.reg_logAt _ _ _ _ _ (.inr (by simp only [pgSash]; omega))
  · exact Dev.reg_logAt _ _ _ _ _ (.inr (by simp only [pgFerr]; omega))

section
variable (d) (x : Nat) (n c : Nat)

theorem Dev.sillErr_mem : (d.sillErr x n c).mem = d.mem := by rw [Dev.sillErr, Dev.setB_mem, Dev.setF_mem, Dev.setF_mem]

theorem Dev.sillErr_hbm (y : Nat) : (d.sillErr x n c).hbm y = d.hbm y := by rw [Dev.sillErr, Dev.setB, Dev.setF_hbm, Dev.setF_hbm, Dev.setF_hbm]

theorem Dev.sillErr_valid : (d.sillErr x n c).on (pgSill x) F.SILL_ERR_INFO_VALID = true := by
  rw [Dev.sillErr, Dev.on_setB_same _ _ _ _ rfl (by decide)]

theorem Dev.sillErr_cause : (d.sillErr x n c).f (pgSill x) F.SILL_ERR_INFO_CAUSE = c % 256 := by
  rw [Dev.sillErr, Dev.setB, Dev.f_setF_apart _ _ rfl, Dev.f_setF_same _ _ _ _ (by decide)]
  rfl

theorem Dev.sillErr_number : (d.sillErr x n c).f (pgSill x) F.SILL_ERR_INFO_NUMBER = n % 65536 := by
  rw [Dev.sillErr, Dev.setB, Dev.f_setF_apart _ _ rfl, Dev.f_setF_apart _ _ rfl, Dev.f_setF_same _ _ _ _ (by decide)]
  rfl

end

section
variable (d) (t : Transfer)

theorem Dev.sillDone_mem : (d.sillDone x t).mem = (d.copyTo t t.total).mem := by
  rw [Dev.sillDone, Dev.inc_mem, Dev.pulse_mem, Dev.sillEnd_mem]

theorem Dev.sillDone_hbm : (d.sillDone x t).hbm x = ((d.copyTo t t.total).sillEnd x t 2 0).hbm x := by
  rw [Dev.sillDone, Dev.hbm, Dev.inc_hbms, Dev.pulse_hbms, ← Dev.hbm]

theorem Dev.sillDone_sashes : (d.sillDone x t).sashes = (d.copyTo t t.total).sashes := by
  rw [Dev.sillDone, Dev.inc_sashes, Dev.pulse_sashes, Dev.sillEnd, Dev.sillStat, Dev.setF_sashes, Dev.setF_sashes, Dev.setHbm_sashes]

theorem Dev.sillEnd_pulses (state left : Nat) : (d.sillEnd x t state left).pulses = d.pulses := by
  rw [Dev.sillEnd, Dev.sillStat, Dev.setF_pulses, Dev.setF_pulses, Dev.setHbm_pulses]

theorem Dev.sillDone_pulsesOf : (d.sillDone x t).pulsesOf (1845 + x) = (d.copyTo t t.total).pulsesOf (1845 + x) + 1 := by
  rw [Dev.sillDone, Dev.pulsesOf, Dev.inc_pulses, ← Dev.pulsesOf, Dev.pulsesOf_pulse, Dev.pulsesOf, Dev.sillEnd_pulses, ← Dev.pulsesOf]

/-- A transfer that ends changes only the count of its page. -/
theorem Dev.sillEnd_on (state left : Nat) {f : Fld} (hf : f.ofs ≠ F.SILL_STAT_QUEUED.ofs) : (d.sillEnd x t state left).on (pgSill x) f = d.on (pgSill x) f := by
  rw [Dev.sillEnd, Dev.sillStat_on _ _ hf]
  exact Dev.on_of_regs (Dev.setHbm_regs ..) _ _

end

theorem Dev.on_memViolation {p : Nat} (hp : 0xE5000000 ≤ p) (f : Fld) (req a len : Nat) (write : Bool) (cause : Nat) :
    (d.memViolation req a len write cause).on p f = d.on p f := by
  rw [Dev.on, Dev.f, Dev.reg_memViolation (by omega), ← Dev.f, ← Dev.on]

/-! A cancel (20 R447) -/

theorem Dev.sillCancel_waiting {n : Nat} {t : Transfer} (h : (d.hbm x).queue.find? (fun y => y.num == n) = some t) (ht : t.running = false) :
    d.sillCancel x n = d.sillEnd x t 4 t.total := by
  unfold Dev.sillCancel
  rw [h]
  dsimp only
  rw [ht, if_neg (by decide)]

theorem Dev.sillCancel_running {n : Nat} {t : Transfer} (h : (d.hbm x).queue.find? (fun y => y.num == n) = some t) (ht : t.running = true) :
    ∃ (e : Dev) (u : Transfer) (left : Nat), u.num = t.num ∧ d.sillCancel x n = e.sillEnd x u 4 left := by
  refine ⟨(d.sillProgress x t).1, (d.sillProgress x t).2, (d.sillProgress x t).2.total - (d.sillProgress x t).2.copied, rfl, ?_⟩
  unfold Dev.sillCancel
  rw [h]
  dsimp only
  rw [ht, if_pos rfl]

end Sys2Proof.Machine

namespace Sys2Proof.Claims

open Sys2Proof.Machine

/-- Settles O51: a start joins the queue, and every end of a transfer is `Dev.sillEnd` with its lines copied. -/
theorem streamerTransfers : Obligations.StreamerTransfers := by
  intro s w x a n p h
  have hx : x.val = 0 ∨ x.val = 1 := by omega
  have hnum : n.toNat < 65536 := n.isLt
  refine ⟨fun hacc => ⟨fun t ht => ?_, fun code hcode hjudge => ?_⟩, fun before after t hclk hlive hrun hqueue ht hready hbefore hother => ?_,
    fun t hclk ht hfail hnotify => ?_, fun t i c ad wr hclk ht hfail hcause hc hvalid => ?_, fun t hacc ht => ?_⟩
  · obtain ⟨e, num, hmem, hlt, hlast, hstart⟩ := Dev.sillStart_accepted hx ht
    refine hacc.gives (pgSill_aligned x) (by decide) (pageAt_sill x) (by omega) rfl
      ((s.dev.pageWrite_sill w 8 _ (by decide) rfl).trans ((if_pos rfl).trans (congrArg Prod.fst hstart))) ?_
    refine ⟨num, ?_, ?_, hlast, hlt, ?_, ?_, Dev.wrote_resp _ _ _ _⟩
    · rw [Dev.wrote_hbm, Dev.sillQueued_hbm]
    · rw [Dev.wrote_hbm, Dev.sillQueued_hbm]
    · rw [Dev.wrote_f]
      exact Dev.sillQueued_number _ _ hlt
    · rw [Dev.wrote_mem, Dev.sillQueued_mem, hmem]
  · have hrefused : (s.dev.sillStart x a.toNat).1 = s.dev.setF (pgSill x) F.SILL_LAST_CODE code := by
      rw [Dev.sillStart_refused hx hjudge hacc.2.1]
    refine hacc.gives (pgSill_aligned x) (by decide) (pageAt_sill x) (by omega) rfl
      ((s.dev.pageWrite_sill w 8 _ (by decide) rfl).trans ((if_pos rfl).trans hrefused)) ?_
    refine ⟨?_, ?_, ?_, Dev.wrote_resp _ _ _ _⟩
    · rw [Dev.wrote_f, Dev.f_setF_same _ _ _ _ (by decide)]
      exact Nat.mod_eq_of_lt hcode
    · rw [Dev.wrote_hbms, Dev.setF_hbms]
    · rw [Dev.wrote_mem, Dev.setF_mem]
  · have hfind := find?_waiting (ready := s.dev.sillReady) (after := after) ht hready hbefore
    rw [← hqueue] at hfind
    refine gives_of_clocked (f := fun d => d.transferStart x) hclk rfl (Dev.transferStart_run hx hrun hlive hclk hfind) ⟨?_, Dev.sillRun_mem t⟩
    rw [Dev.sillRun_hbm]
    exact (congrArg _ hqueue).trans (map_started hother)
  · have hn := Dev.runningXfer_num ht
    refine gives_of_clocked (f := fun d => d.transferComplete x n.toNat) hclk rfl (Dev.transferComplete_done ht hclk hfail hnotify) ⟨?_, ?_, ?_, ?_⟩
    · exact Dev.sillDone_mem ..
    · rw [Dev.sillDone_hbm]
      exact Dev.sillEnd_queue _ _ _ _ hn
    · exact Dev.sillDone_pulsesOf ..
    · exact Dev.sillDone_sashes ..
  · have hn := Dev.runningXfer_num ht
    have hvalid' : (((s.dev.copyTo t i).sillEnd x t 3 (t.total - i)).memViolation (0x200 + x) ad 64 wr c).on (pgSill x) F.SILL_ERR_INFO_VALID = false := by
      rw [Dev.on_memViolation (by simp only [pgSill]; omega), Dev.sillEnd_on _ _ _ _ (by decide), hvalid]
    refine gives_of_clocked (f := fun d => d.transferError x n.toNat) hclk rfl (Dev.transferError_first ht hfail hcause hvalid') ⟨?_, ?_, ?_, ?_, ?_, ?_⟩
    · rw [Dev.irq_mem, Dev.sillErr_mem, Dev.memViolation_mem, Dev.sillEnd_mem]
    · rw [Dev.irq_hbm, Dev.sillErr_hbm, Dev.memViolation_hbm]
      exact Dev.sillEnd_queue _ _ _ _ hn
    · rw [Dev.irq, Dev.on_setF_apart _ _ rfl, Dev.sillErr_valid]
    · rw [Dev.irq, Dev.f_setF_apart _ _ rfl, Dev.sillErr_number, Nat.mod_eq_of_lt hnum]
    · rw [Dev.irq, Dev.f_setF_apart _ _ rfl, Dev.sillErr_cause, Nat.mod_eq_of_lt (by omega)]
    · exact Dev.bitAt_irq _ (by decide)
  · have hn : t.num = n.toNat := by simpa using List.find?_some ht
    have hcancel : ∀ e, s.dev.sillCancel x n.toNat = e → s.dev.pageWrite w (pageSill x) 0x58 4 n.toNat = e := fun e he => by
      rw [s.dev.pageWrite_sill w 4 _ (by decide) rfl, if_neg (by decide), if_pos rfl, Nat.mod_eq_of_lt hnum]
      exact he
    cases hrunning : t.running with
    | false =>
      refine hacc.gives (pgSill_aligned x) (by decide) (pageAt_sill x) (by omega) rfl (hcancel _ (Dev.sillCancel_waiting ht hrunning))
        ⟨?_, Dev.wrote_resp _ _ _ _, fun _ => ⟨?_, ?_⟩⟩
      · rw [Dev.wrote_hbm]
        exact Dev.sillEnd_queue _ _ _ _ hn
      · rw [Dev.wrote_mem, Dev.sillEnd_mem]
      · rw [Dev.wrote_hbm, ← hn]
        exact Dev.mem_sillEnd_final ..
    | true =>
      obtain ⟨e, u, left, hu, hend⟩ := Dev.sillCancel_running ht hrunning
      refine hacc.gives (pgSill_aligned x) (by decide) (pageAt_sill x) (by omega) rfl (hcancel _ hend) ⟨?_, Dev.wrote_resp _ _ _ _, nofun⟩
      rw [Dev.wrote_hbm]
      exact Dev.sillEnd_queue _ _ _ _ (hu.trans hn)

end Sys2Proof.Claims
end

section
/-!
The control stores of the sashes (06 R160-R165): the load commands, the end of an image's check and the swap of the banks.
-/
namespace Sys2Proof.Machine

/-! A sash and its state -/

section
variable (d : Dev) (n : Nat)

theorem Dev.sash_setSash_same (x : Sash) : (d.setSash n x).sash n = x := Table.get_put_same ..

theorem Dev.on_setSash (x : Sash) (p : Nat) (f : Fld) : (d.setSash n x).on p f = d.on p f := rfl

theorem Dev.setF_sash (p : Nat) (f : Fld) (x : Nat) : (d.setF p f x).sash n = d.sash n := rfl

theorem Dev.wrote_sash (a len v : Nat) : (d.wrote a len v).sash n = d.sash n := rfl

end

theorem Dev.pageWrite_loadCtrl (d : Dev) (w : Who) {p : PageInfo} (hk : p.kind = .sash) (v : Nat) :
    d.pageWrite w p 0x8C 4 v = d.loadCtrl p.inst (BitVec.ofNat 32 v) := by
  rw [Dev.pageWrite, if_neg (by decide), hk]
  simp only [Dev.writeCasement, hk]
  rw [if_neg (by decide), if_pos trivial]

/-! The commands of LOAD_CTRL, one at a time (06 R164, R165) -/

section
variable (d : Dev) (n : Nat)

theorem Dev.loadCtrl_open : d.loadCtrl n 1 = d.loadOpen n := by
  rw [Dev.loadCtrl, if_neg (by decide), if_neg (by decide), if_neg (by decide), if_pos (by decide)]

theorem Dev.loadCtrl_close : d.loadCtrl n 0 = d.loadClose n := by
  rw [Dev.loadCtrl, if_neg (by decide), if_neg (by decide), if_neg (by decide), if_neg (by decide), if_neg (by decide)]

theorem Dev.loadCtrl_check : d.loadCtrl n 2 = d.loadCheck n := by
  rw [Dev.loadCtrl, if_neg (by decide), if_neg (by decide), if_pos (by decide), if_neg (by decide), if_pos (by decide)]

theorem Dev.loadCtrl_swap : d.loadCtrl n 4 = d.loadSwap n := by
  rw [Dev.loadCtrl, if_neg (by decide), if_pos (by decide), if_neg (by decide), if_neg (by decide), if_pos (by decide)]

theorem Dev.loadCtrl_openSwap : d.loadCtrl n 5 = (d.loadOpen n).loadSwap n := by
  rw [Dev.loadCtrl, if_neg (by decide), if_pos (by decide), if_neg (by decide), if_pos (by decide)]

theorem Dev.loadCtrl_cancel : d.loadCtrl n 8 = d.loadCancel n := by
  rw [Dev.loadCtrl, if_pos (by decide), if_neg (by decide), if_neg (by decide), if_neg (by decide), if_pos (by decide)]

theorem Dev.loadCtrl_openCancel : d.loadCtrl n 9 = (d.loadOpen n).loadCancel n := by
  rw [Dev.loadCtrl, if_pos (by decide), if_neg (by decide), if_neg (by decide), if_pos (by decide)]

end

variable {d : Dev} {n : Nat}

theorem Dev.loadCheck_closed (h : d.on (pgSash n) F.CS_STAT_OPEN = false) : d.loadCheck n = d.setF (pgSash n) F.CS_STAT_RESULT 8 := by
  rw [Dev.loadCheck, h, if_pos (by decide), Dev.loadResult]

/-- The device whose image is being checked. -/
def Dev.loadChecking (d : Dev) (n : Nat) : Dev :=
  ((d.setB (pgSash n) F.LOAD_CTRL_OPEN false).setB (pgSash n) F.CS_STAT_OPEN false).setB (pgSash n) F.CS_STAT_CHECKING true

theorem Dev.loadChecking_f {f : Fld} (hctrl : F.LOAD_CTRL_OPEN.ofs ≠ f.ofs) (hstat : F.CS_STAT_OPEN.ofs ≠ f.ofs) :
    (d.loadChecking n).f (pgSash n) f = d.f (pgSash n) f := by
  have hapart {g : Fld} (h : g.ofs ≠ f.ofs) : g.apart f = true := by simp [Fld.apart, h]
  rw [Dev.loadChecking, Dev.setB, Dev.f_setF_apart _ _ (hapart (g := F.CS_STAT_CHECKING) hstat), Dev.setB, Dev.f_setF_apart _ _ (hapart hstat), Dev.setB,
    Dev.f_setF_apart _ _ (hapart hctrl)]

theorem Dev.loadChecking_sash : (d.loadChecking n).sash n = d.sash n := by
  rw [Dev.loadChecking, Dev.setB, Dev.setF_sash, Dev.setB, Dev.setF_sash, Dev.setB, Dev.setF_sash]

theorem Dev.loadCheck_opened (h : d.on (pgSash n) F.CS_STAT_OPEN = true) : d.loadCheck n = (d.loadChecking n).setSash n
    { d.sash n with check := some (d.f (pgSash n) F.LOAD_VER_VER, d.f (pgSash n) F.LOAD_LEN_LEN, d.f (pgSash n) F.LOAD_CRC_CRC) } := by
  rw [← Dev.loadChecking_f (d := d) (f := F.LOAD_VER_VER) (by decide) (by decide), ← Dev.loadChecking_f (d := d) (f := F.LOAD_LEN_LEN) (by decide) (by decide),
    ← Dev.loadChecking_f (d := d) (f := F.LOAD_CRC_CRC) (by decide) (by decide), Dev.loadCheck, h, if_neg (by decide),
    ← Dev.loadChecking_sash]
  rw [Dev.loadChecking]

/-! The end of a check (06 R164) -/

/-- A sash whose check ends; one that passes has its length in the inactive bank. -/
def Sash.checked (x : Sash) (passed active : Bool) (len : Nat) : Sash :=
  if passed then (if active then { x with check := none, lenA := len } else { x with check := none, lenB := len }) else { x with check := none }

theorem Sash.checked_check (x : Sash) (passed active : Bool) (len : Nat) : (x.checked passed active len).check = none := by
  cases passed <;> cases active <;> rfl

theorem Sash.checked_length (x : Sash) (active : Bool) (len : Nat) :
    (if active then (x.checked true active len).lenA else (x.checked true active len).lenB) = len := by
  cases active <;> rfl

/-- The version of the inactive bank once a check has ended. -/
def Dev.versionSet (d : Dev) (n : Nat) (passed : Bool) (ver : Nat) : Dev := if passed then d.setF (pgSash n) (d.inactiveVer n) ver else d

/-- The device once the result of a check is recorded. -/
def Dev.checkReported (d : Dev) (n res : Nat) : Dev :=
  ((d.setB (pgSash n) F.CS_STAT_CHECKING false).setF (pgSash n) F.CS_STAT_RESULT res).irq (pgSash n) 3

theorem Dev.loadCheckDone_checked {ver len crc : Nat} (h : (d.sash n).check = some (ver, len, crc)) : d.loadCheckDone n =
    ((d.setSash n ((d.sash n).checked (decide (d.loadJudge n ver len crc = 1)) (d.csActive n) len)).versionSet n
      (decide (d.loadJudge n ver len crc = 1)) ver).checkReported n (d.loadJudge n ver len crc) := by
  unfold Dev.loadCheckDone
  rw [h]
  dsimp only
  generalize d.loadJudge n ver len crc = res
  by_cases hres : res = 1
  · rw [if_pos hres, if_pos hres, Sash.checked, if_pos (decide_eq_true hres), Dev.versionSet, if_pos (decide_eq_true hres)]
    rfl
  · rw [if_neg hres, if_neg hres, Sash.checked, if_neg (by simpa using hres), Dev.versionSet, if_neg (by simpa using hres)]
    rfl

theorem Dev.loadJudge_lt (ver len crc : Nat) : d.loadJudge n ver len crc < 16 := by
  unfold Dev.loadJudge
  dsimp only
  split_ifs <;> decide

section
variable (d n)

theorem Dev.inactiveVer_eq : d.inactiveVer n = F.UCODE_VER_A_VER ∨ d.inactiveVer n = F.UCODE_VER_B_VER := by
  rw [Dev.inactiveVer]
  split
  · exact .inl rfl
  · exact .inr rfl

theorem Dev.checkReported_idle (res : Nat) : (d.checkReported n res).on (pgSash n) F.CS_STAT_CHECKING = false := by
  rw [Dev.checkReported, Dev.irq, Dev.on_setF_apart _ _ rfl, Dev.on_setF_apart _ _ rfl, Dev.on_setB_same _ _ _ _ rfl (by decide)]

theorem Dev.checkReported_result {res : Nat} (h : res < 16) : (d.checkReported n res).f (pgSash n) F.CS_STAT_RESULT = res := by
  rw [Dev.checkReported, Dev.irq, Dev.f_setF_apart _ _ rfl, Dev.f_setF_same _ _ _ _ (by decide)]
  exact Nat.mod_eq_of_lt h

theorem Dev.checkReported_irq (res : Nat) : bitAt ((d.checkReported n res).reg (pgSash n + 0x24)) 3 = true := Dev.bitAt_irq _ (by decide)

theorem Dev.checkReported_sash (res : Nat) : (d.checkReported n res).sash n = d.sash n := by
  rw [Dev.checkReported, Dev.irq, Dev.setF_sash, Dev.setF_sash, Dev.setB, Dev.setF_sash]

theorem Dev.checkReported_mem (res : Nat) : (d.checkReported n res).mem = d.mem := by
  rw [Dev.checkReported, Dev.irq_mem, Dev.setF_mem, Dev.setB_mem]

/-- The version of a bank is in a register of its own. -/
theorem Dev.checkReported_version (e : Dev) (res : Nat) : (d.checkReported n res).f (pgSash n) (e.inactiveVer n) = d.f (pgSash n) (e.inactiveVer n) := by
  rw [Dev.checkReported, Dev.irq, Dev.setB]
  rcases e.inactiveVer_eq n with h | h <;> rw [h, Dev.f_setF_apart _ _ rfl, Dev.f_setF_apart _ _ rfl, Dev.f_setF_apart _ _ rfl]

theorem Dev.versionSet_sash (passed : Bool) (ver : Nat) : (d.versionSet n passed ver).sash n = d.sash n := by
  rw [Dev.versionSet, apply_ite (Dev.sash · n), Dev.setF_sash, ite_self]

theorem Dev.versionSet_mem (passed : Bool) (ver : Nat) : (d.versionSet n passed ver).mem = d.mem := by
  rw [Dev.versionSet, apply_ite Dev.mem, Dev.setF_mem, ite_self]

theorem Dev.versionSet_version {ver : Nat} (hver : ver < 2 ^ 32) : (d.versionSet n true ver).f (pgSash n) (d.inactiveVer n) = ver := by
  rw [Dev.versionSet, if_pos rfl]
  rcases d.inactiveVer_eq n with h | h <;> rw [h, Dev.f_setF_same _ _ _ _ (by decide)] <;> exact Nat.mod_eq_of_lt hver

end

/-! A swap of the banks (06 R164) -/

/-- The device whose banks have been swapped. -/
def Dev.banksSwapped (d : Dev) (n : Nat) : Dev :=
  (((d.setB (pgSash n) F.CS_STAT_ACTIVE (!d.csActive n)).setB (pgSash n) F.CS_STAT_SWAP_PENDING false).setF (pgSash n) F.CS_STAT_RESULT 7).irq (pgSash n) 4

theorem Dev.bankSwap_due (hpending : d.on (pgSash n) F.CS_STAT_SWAP_PENDING = true) (hjob : (d.sash n).job = none) (hat : (d.sash n).swapAt ≤ d.tick / 2)
    (hdom : d.domOn (domCas (n / 4)) = true) : d.bankSwap n = d.banksSwapped n := by
  rw [Dev.bankSwap, hpending, hjob, decide_eq_true hat, hdom, if_pos (by decide), Dev.banksSwapped]

theorem Dev.bankSwap_none (h : d.on (pgSash n) F.CS_STAT_SWAP_PENDING = false) : d.bankSwap n = d := by
  rw [Dev.bankSwap, h, if_neg (by simp)]

section
variable (d n)

theorem Dev.banksSwapped_active : (d.banksSwapped n).csActive n = !d.csActive n := by
  rw [Dev.csActive, Dev.banksSwapped, Dev.irq, Dev.on_setF_apart _ _ rfl, Dev.on_setF_apart _ _ rfl, Dev.setB, Dev.on_setF_apart _ _ rfl,
    Dev.on_setB_same _ _ _ _ rfl (by decide)]

theorem Dev.banksSwapped_pending : (d.banksSwapped n).on (pgSash n) F.CS_STAT_SWAP_PENDING = false := by
  rw [Dev.banksSwapped, Dev.irq, Dev.on_setF_apart _ _ rfl, Dev.on_setF_apart _ _ rfl, Dev.on_setB_same _ _ _ _ rfl (by decide)]

theorem Dev.banksSwapped_result : (d.banksSwapped n).f (pgSash n) F.CS_STAT_RESULT = 7 := by
  rw [Dev.banksSwapped, Dev.irq, Dev.f_setF_apart _ _ rfl, Dev.f_setF_same _ _ _ _ (by decide)]
  rfl

theorem Dev.banksSwapped_sashes : (d.banksSwapped n).sashes = d.sashes := by
  rw [Dev.banksSwapped, Dev.irq, Dev.setB, Dev.setB, Dev.setF_sashes, Dev.setF_sashes, Dev.setF_sashes, Dev.setF_sashes]

theorem Dev.banksSwapped_mem : (d.banksSwapped n).mem = d.mem := by
  rw [Dev.banksSwapped, Dev.irq_mem, Dev.setF_mem, Dev.setB_mem, Dev.setB_mem]

end

end Sys2Proof.Machine

namespace Sys2Proof.Claims

open Sys2Proof.Machine

/-- A write of LOAD_CTRL whose command gives a device. -/
theorem Accepts.loadCtrl {s : State} {w : Who} {n : Fin 64} {v : Nat} {i : Instr} {e : Dev} (hacc : Accepts s w (pageSash n) 0x8C 4 v)
    (hv : v < 2 ^ 32) (hexec : exec i s = s.write w (pgSash n + 0x8C) 4 v) (he : s.dev.loadCtrl n (BitVec.ofNat 32 v) = e) :
    Does i s (e.wrote (pgSash n + 0x8C) 4 v) := by
  have h := hacc.does (pgSash_aligned n) (by decide) (pageAt_sash n) hv hexec
  rw [s.dev.pageWrite_loadCtrl w (p := pageSash n) rfl, show (pageSash n).inst = n from rfl, he] at h
  exact h

theorem controlStoreCommands : ControlStoreCommands := by
  intro s w n d p wrong opened
  have hopen : s.dev.loadOpen n = opened := rfl
  refine ⟨fun hacc => ?_, fun hacc => ?_, fun hacc => ⟨fun hclosed => ?_, fun hopened => ?_⟩, fun hacc => ?_, fun hacc => ?_, fun hacc => ?_, fun hacc => ?_⟩
  · exact ⟨_, _, _, hacc.loadCtrl (by decide) rfl (Dev.loadCtrl_open ..)⟩
  · exact ⟨_, _, _, hacc.loadCtrl (by decide) rfl (Dev.loadCtrl_close ..)⟩
  · exact ⟨_, _, _, hacc.loadCtrl (by decide) rfl ((Dev.loadCtrl_check ..).trans (Dev.loadCheck_closed hclosed))⟩
  · refine ⟨_, hacc.loadCtrl (by decide) rfl ((Dev.loadCtrl_check ..).trans (Dev.loadCheck_opened hopened)), ?_, ?_, ?_, ?_⟩
    · rw [Dev.wrote_on, Dev.on_setSash, Dev.loadChecking, Dev.setB, Dev.on_setF_apart _ _ rfl, Dev.on_setB_same _ _ _ _ rfl (by decide)]
    · rw [Dev.wrote_on, Dev.on_setSash, Dev.loadChecking, Dev.on_setB_same _ _ _ _ rfl (by decide)]
    · rw [Dev.wrote_sash, Dev.sash_setSash_same]
    · rw [Dev.wrote_mem, Dev.setSash_mem, Dev.loadChecking, Dev.setB_mem, Dev.setB_mem, Dev.setB_mem]
  · exact ⟨_, _, _, hacc.loadCtrl (by decide) rfl (Dev.loadCtrl_swap ..)⟩
  · exact ⟨_, _, _, hacc.loadCtrl (by decide) rfl ((Dev.loadCtrl_openSwap ..).trans (by rw [hopen]))⟩
  · exact ⟨_, _, _, hacc.loadCtrl (by decide) rfl (Dev.loadCtrl_cancel ..)⟩
  · exact ⟨_, _, _, hacc.loadCtrl (by decide) rfl ((Dev.loadCtrl_openCancel ..).trans (by rw [hopen]))⟩

theorem banksCheckedAndSwapped : BanksCheckedAndSwapped := by
  intro s n hclk d p
  refine ⟨fun hnone => ?_, fun ver len crc hcheck hver => ?_, fun hpending hjob hat hdom => ?_, fun hpending => ?_⟩
  · exact does_of_clocked (f := fun d => d.loadCheckDone n) hclk rfl (by
      unfold Dev.loadCheckDone
      rw [hnone])
  · refine gives_of_clocked (f := fun d => d.loadCheckDone n) hclk rfl (Dev.loadCheckDone_checked hcheck)
      ⟨Dev.checkReported_idle .., Dev.checkReported_result _ _ (Dev.loadJudge_lt ..), Dev.checkReported_irq .., ?_, ?_, fun hres => ⟨?_, ?_⟩⟩
    · rw [Dev.checkReported_sash, Dev.versionSet_sash, Dev.sash_setSash_same, Sash.checked_check]
    · rw [Dev.checkReported_mem, Dev.versionSet_mem, Dev.setSash_mem]
    · rw [Dev.checkReported_version, decide_eq_true hres]
      exact Dev.versionSet_version _ _ hver
    · rw [Dev.checkReported_sash, Dev.versionSet_sash, Dev.sash_setSash_same, decide_eq_true hres]
      exact Sash.checked_length ..
  · exact gives_of_clocked (f := fun d => d.bankSwap n) hclk rfl (Dev.bankSwap_due hpending hjob hat hdom)
      ⟨Dev.banksSwapped_active .., Dev.banksSwapped_pending .., Dev.banksSwapped_result .., Dev.bitAt_irq _ (by decide), Dev.banksSwapped_sashes ..,
        Dev.banksSwapped_mem ..⟩
  · exact does_of_clocked (f := fun d => d.bankSwap n) hclk rfl (Dev.bankSwap_none hpending)

/-- Settles O20: a load command is one write of LOAD_CTRL, and a check and a swap end as their sash says. -/
theorem controlStore : Obligations.ControlStore := ⟨controlStoreCommands, banksCheckedAndSwapped⟩

end Sys2Proof.Claims
end

section
/-!
The PWM generators (10): what the events of a counter leave of the generator, its reload, its edges and its dead time.
-/
namespace Sys2Proof.Machine

/-! A generator's page and state -/

theorem pwmPage_lt {n : Nat} (hn : n < 96) : pwmPage n + 0x1000 ≤ 0xE2000000 := by
  simp only [pwmPage, pgPwm]
  omega

section
variable (d : Dev) (n : Nat) (x : Pwm)

theorem Dev.pwm_setPwm_same : (d.setPwm n x).pwm n = x := Table.get_put_same ..

theorem Dev.pwm_setPwm_ne {m : Nat} (h : m ≠ n) : (d.setPwm m x).pwm n = d.pwm n := Table.get_put_ne _ _ _ _ h

theorem Dev.f_setPwm (p : Nat) (f : Fld) : (d.setPwm n x).f p f = d.f p f := rfl

theorem Dev.on_setPwm (p : Nat) (f : Fld) : (d.setPwm n x).on p f = d.on p f := rfl

theorem Dev.mem_setPwm : (d.setPwm n x).mem = d.mem := rfl

theorem Dev.pwm_setF (p : Nat) (f : Fld) (y : Nat) : (d.setF p f y).pwm n = d.pwm n := rfl

theorem Dev.pwm_setB (p : Nat) (f : Fld) (b : Bool) : (d.setB p f b).pwm n = d.pwm n := rfl

end

/-! What the events of a tick leave of a generator -/

/-- The registers of the generators, generator n and memory are as they were, and no event has pulsed. -/
structure Dev.PwmKeeps (n : Nat) (d e : Dev) : Prop where
  reg : ∀ a < 0xE2000000, e.reg a = d.reg a
  pwm : e.pwm n = d.pwm n
  mem : e.mem = d.mem
  time : e.time = d.time
  pulses : e.pulses = d.pulses

namespace Dev.PwmKeeps

variable {n : Nat} {d e r : Dev}

theorem refl (d : Dev) : PwmKeeps n d d := ⟨fun _ _ => rfl, rfl, rfl, rfl, rfl⟩

theorem trans (h : PwmKeeps n d e) (k : PwmKeeps n e r) : PwmKeeps n d r :=
  ⟨fun a ha => (k.reg a ha).trans (h.reg a ha), k.pwm.trans h.pwm, k.mem.trans h.mem, k.time.trans h.time, k.pulses.trans h.pulses⟩

theorem ite {c : Prop} [Decidable c] (h : PwmKeeps n d e) (k : PwmKeeps n d r) : PwmKeeps n d (if c then e else r) := by
  split
  · exact h
  · exact k

theorem setReg {a : Nat} (ha : 0xE2000000 ≤ a) (v : W32) : PwmKeeps n d (d.setReg a v) :=
  ⟨fun _ hb => Dev.reg_setReg_ne d v (by omega), rfl, rfl, rfl, rfl⟩

theorem setF {p : Nat} (hp : 0xE2000000 ≤ p) (f : Fld) (x : Nat) : PwmKeeps n d (d.setF p f x) :=
  setReg (by omega) _

theorem setR64 {p : Nat} (hp : 0xE2000000 ≤ p) (o v : Nat) : PwmKeeps n d (d.setR64 p o v) :=
  .trans (setReg (by omega) _) (setReg (by omega) _)

theorem act (k i : Nat) : PwmKeeps n d (d.act k i) := ⟨fun _ _ => rfl, rfl, rfl, rfl, rfl⟩

theorem setAdc (m : Nat) (a : Adc) : PwmKeeps n d (d.setAdc m a) := ⟨fun _ _ => rfl, rfl, rfl, rfl, rfl⟩

theorem setSd (c k : Nat) (s : SdIn) : PwmKeeps n d (d.setSd c k s) := ⟨fun _ _ => rfl, rfl, rfl, rfl, rfl⟩

theorem setSdClk (c k : Nat) (s : SdClk) : PwmKeeps n d (d.setSdClk c k s) := ⟨fun _ _ => rfl, rfl, rfl, rfl, rfl⟩

theorem adcHold (m sel prio : Nat) : PwmKeeps n d (d.adcHold m sel prio) := by
  have hp : 0xE2000000 ≤ adcPage m := by
    simp only [adcPage, pgAdc]
    omega
  unfold Dev.adcHold
  exact .trans (.ite (.setF hp _ _) (.refl d)) (.trans (.setAdc _ _) (.setF hp _ _))

theorem adcStart (m sel prio : Nat) : PwmKeeps n d (d.adcStart m sel prio) := by
  have hp : 0xE2000000 ≤ adcPage m := by
    simp only [adcPage, pgAdc]
    omega
  unfold Dev.adcStart
  refine .ite (.refl d) ?_
  split
  · refine .ite (.ite (.trans (.ite (.setF hp _ _) (.refl d)) (.trans (.setAdc _ _) (adcHold _ _ _))) (.refl d))
      (.ite (.ite (.refl d) ?_) (adcHold _ _ _))
    exact .trans (.trans (.setF hp _ _) (.trans (.setF hp _ _) (.setF hp _ _))) (.setAdc _ _)
  · exact adcHold _ _ _

theorem adcTrigger (c g kind : Nat) : PwmKeeps n d (d.adcTrigger c g kind) :=
  Dev.forN_keeps 8 _ (.refl d) fun _ _ _ he => .ite (he.trans (.trans (.setAdc _ _) (.ite (adcStart _ _ _) (.refl _)))) he

theorem encLatch (m : Nat) : PwmKeeps n d (d.encLatch m) :=
  Dev.forN_keeps 8 _ (.refl d) fun _ _ _ he => .ite (he.trans (.act _ _)) he

theorem sdAlign (c k : Nat) : PwmKeeps n d (d.sdAlign c k) := by
  unfold Dev.sdAlign
  exact .ite (.refl d) (.setSd _ _ _)

theorem sdZero (c g : Nat) : PwmKeeps n d (d.sdZero c g) := by
  unfold Dev.sdZero
  refine .ite (.refl d) (.trans ?_ (Dev.forN_keeps 6 _ (.refl _) fun _ _ _ he => .ite (he.trans (sdAlign _ _)) he))
  exact Dev.forN_keeps 2 _ (.refl d) fun _ _ _ he => .ite (he.trans (.setSdClk _ _ _)) he

theorem syncOut : PwmKeeps n d (d.syncOut n) := by
  unfold Dev.syncOut
  exact .ite ⟨fun _ _ => rfl, Dev.pwm_setPwm_ne _ _ _ (by omega), rfl, rfl, rfl⟩ (.refl d)

theorem cmpLatchFollow (m : Nat) : PwmKeeps n d (d.cmpLatchFollow m) := by
  have hp : 0xE2000000 ≤ cmpPage m := by
    simp only [cmpPage, pgCmp]
    omega
  unfold Dev.cmpLatchFollow
  exact .ite (.trans (.setF hp _ _) (.trans (.setR64 hp _ _) (.setF hp _ _))) (.setF hp _ _)

theorem cmpAutoClear (c g : Nat) : PwmKeeps n d (d.cmpAutoClear c g) :=
  Dev.forN_keeps 24 _ (.refl d) fun _ _ _ he => .ite (he.trans (.trans (.act _ _) (cmpLatchFollow _))) he

theorem f (h : PwmKeeps n d e) (hn : n < 96) {f : Fld} (hf : f.ofs < 0x1000) : e.f (pwmPage n) f = d.f (pwmPage n) f := by
  have hp := pwmPage_lt hn
  rw [Dev.f, h.reg _ (by omega), Dev.f]

theorem on (h : PwmKeeps n d e) (hn : n < 96) {f : Fld} (hf : f.ofs < 0x1000) : e.on (pwmPage n) f = d.on (pwmPage n) f := by
  rw [Dev.on, h.f hn hf, Dev.on]

end Dev.PwmKeeps

/-! What a generator's own updates write -/

/-- Only registers and generators differ. -/
structure Dev.PwmWrites (d e : Dev) : Prop where
  rest : { e with regs := d.regs, pwms := d.pwms } = d

namespace Dev.PwmWrites

variable {d e r : Dev}

theorem refl (d : Dev) : d.PwmWrites d := ⟨rfl⟩

theorem trans (h : d.PwmWrites e) (k : e.PwmWrites r) : d.PwmWrites r :=
  ⟨(congrArg (fun x : Dev => { x with regs := d.regs, pwms := d.pwms }) k.rest).trans h.rest⟩

theorem setF (p : Nat) (f : Fld) (x : Nat) : d.PwmWrites (d.setF p f x) := ⟨rfl⟩

theorem setPwm (n : Nat) (x : Pwm) : d.PwmWrites (d.setPwm n x) := ⟨rfl⟩

theorem ite {c : Prop} [Decidable c] (h : d.PwmWrites e) (k : d.PwmWrites r) : d.PwmWrites (if c then e else r) := by
  split
  · exact h
  · exact k

theorem mem (h : d.PwmWrites e) : e.mem = d.mem := (congrArg Dev.mem h.rest : _)

theorem time (h : d.PwmWrites e) : e.time = d.time := (congrArg Dev.time h.rest : _)

theorem present (h : d.PwmWrites e) : e.present = d.present := (congrArg Dev.present h.rest : _)

theorem acted (h : d.PwmWrites e) (k i : Nat) : e.acted k i = d.acted k i := by rw [Dev.acted, h.present, Dev.acted]

theorem count (h : d.PwmWrites e) : e.count = d.count := by rw [Dev.count, h.time, Dev.count]

theorem tick (h : d.PwmWrites e) : e.tick = d.tick := by rw [Dev.tick, h.time, Dev.tick]

theorem padEdge (n o : Nat) (b : Bool) (pos : Nat) : d.PwmWrites (d.padEdge n o b pos) := by
  unfold Dev.padEdge
  exact .setPwm _ _

theorem turnOn (n o pos : Nat) : d.PwmWrites (d.turnOn n o pos) := by
  unfold Dev.turnOn
  exact .trans (.setF _ _ _) (.trans (.setPwm _ _) (padEdge _ _ _ _))

theorem holdEntered (n : Nat) : d.PwmWrites (d.holdEntered n) := by
  unfold Dev.holdEntered
  refine .ite (.refl d) (.trans ?_ (.trans (.trans (.setF _ _ _) (.trans (.setF _ _ _) (.setF _ _ _))) (.setPwm _ _)))
  rw [List.foldr_eq_foldl_reverse]
  exact foldl_keeps _ _ (.refl d) fun _ _ _ he => he.trans (.setF _ _ _)

theorem pwmTransfer (n : Nat) : d.PwmWrites (d.pwmTransfer n) := by
  unfold Dev.pwmTransfer
  have hperiod : d.PwmWrites ((d.holdEntered n).setF (pwmPage n) F.PWM_PERIOD_ACT_PERIOD (d.atTick.f (pwmPage n) F.PWM_PERIOD_PERIOD)) :=
    .trans (holdEntered n) (.setF _ _ _)
  exact .ite hperiod (hperiod.trans (.trans (.setF _ _ _) (.setF _ _ _)))

theorem pwmRelease (n : Nat) : d.PwmWrites (d.pwmRelease n) := by
  unfold Dev.pwmRelease
  exact .ite (.refl d) (.trans (.trans (.setF _ _ _) (.trans (.setF _ _ _) (.setF _ _ _))) (.trans (.setPwm _ _) (padEdge _ _ _ _)))

end Dev.PwmWrites

/-! The release of the outputs -/

section
variable (d : Dev) (n : Nat)

/-- A change of an output is the last in the pipeline. -/
theorem Dev.padEdge_pwm (o : Nat) (b : Bool) (pos : Nat) : ∃ x : PadEdge, x.out = o ∧ x.on = b ∧
    (d.padEdge n o b pos).pwm n = { d.pwm n with pipe := (d.pwm n).pipe ++ [x] } :=
  ⟨_, rfl, rfl, Dev.pwm_setPwm_same ..⟩

theorem Dev.padEdge_f (o : Nat) (b : Bool) (pos : Nat) (p : Nat) (f : Fld) : (d.padEdge n o b pos).f p f = d.f p f := rfl

theorem Dev.padEdge_on (o : Nat) (b : Bool) (pos : Nat) (p : Nat) (f : Fld) : (d.padEdge n o b pos).on p f = d.on p f := rfl

/-- The release of the outputs writes OUT and RESUME_PENDING only. -/
theorem Dev.pwmRelease_f {f : Fld} (hhigh : F.PWM_OUT_H_ON.apart f = true) (hlow : F.PWM_OUT_L_ON.apart f = true)
    (hresume : F.PWM_STATUS_RESUME_PENDING.apart f = true) : (d.pwmRelease n).f (pwmPage n) f = d.f (pwmPage n) f := by
  unfold Dev.pwmRelease
  extract_lets p w pos due off resumed
  split
  · rfl
  · rw [Dev.padEdge_f, Dev.f_setPwm, show resumed = off.setB p F.PWM_STATUS_RESUME_PENDING false from rfl, Dev.setB, Dev.f_setF_apart _ _ hresume,
      show off = (d.setB p F.PWM_OUT_H_ON false).setB p F.PWM_OUT_L_ON false from rfl, Dev.setB, Dev.f_setF_apart _ _ hlow, Dev.setB,
      Dev.f_setF_apart _ _ hhigh]

/-- A release leaves the generator's counter as it is. -/
theorem Dev.pwmRelease_counter :
    ((d.pwmRelease n).pwm n).wrapDue = (d.pwm n).wrapDue ∧ ((d.pwmRelease n).pwm n).reloadTick = (d.pwm n).reloadTick := by
  unfold Dev.pwmRelease
  extract_lets p w pos due off resumed
  split
  · exact ⟨rfl, rfl⟩
  · obtain ⟨x, -, -, hx⟩ := (resumed.setPwm n { w with released := true, dead := some due }).padEdge_pwm n 2 false pos
    rw [hx, Dev.pwm_setPwm_same]
    exact ⟨rfl, rfl⟩

/-! A period start (10 R221, R241) -/

/-- The generator once its counter has taken a value and its period has started. -/
def Dev.pwmStarted (cnt : Nat) : Dev :=
  ((((d.setF (pwmPage n) F.PWM_CNT_CNT cnt).setPwm n { d.pwm n with wrapDue := false, startDue := none }).setB (pwmPage n) F.PWM_STATUS_WAIT_START
    false).setB (pwmPage n) F.PWM_STATUS_STALL false).setB (pwmPage n) F.PWM_STATUS_RUNNING true

theorem Dev.pwmPeriodStart_zero : d.pwmPeriodStart n 0 = ((d.pwmStarted n 0).pwmRelease n).pwmZero n := by
  unfold Dev.pwmPeriodStart
  rw [if_pos rfl, Dev.pwmStarted]
  rfl

theorem Dev.PwmWrites.pwmStarted (cnt : Nat) : d.PwmWrites (d.pwmStarted n cnt) := by
  unfold Dev.pwmStarted
  exact .trans (.setF _ _ _) (.trans (.setPwm _ _) (.trans (.setF _ _ _) (.trans (.setF _ _ _) (.setF _ _ _))))

theorem Dev.pwmStarted_pwm (cnt : Nat) : (d.pwmStarted n cnt).pwm n = { d.pwm n with wrapDue := false, startDue := none } := by
  rw [Dev.pwmStarted, Dev.pwm_setB, Dev.pwm_setB, Dev.pwm_setB, Dev.pwm_setPwm_same]

theorem Dev.pwmStarted_cnt {cnt : Nat} (h : cnt < 2 ^ 32) : (d.pwmStarted n cnt).f (pwmPage n) F.PWM_CNT_CNT = cnt := by
  rw [Dev.pwmStarted, Dev.setB, Dev.f_setF_apart _ _ rfl, Dev.setB, Dev.f_setF_apart _ _ rfl, Dev.setB, Dev.f_setF_apart _ _ rfl, Dev.f_setPwm,
    Dev.f_setF_same _ _ _ _ (by decide)]
  exact Nat.mod_eq_of_lt h

theorem Dev.pwmStarted_running (cnt : Nat) : (d.pwmStarted n cnt).on (pwmPage n) F.PWM_STATUS_RUNNING = true := by
  rw [Dev.pwmStarted, Dev.on_setB_same _ _ _ _ rfl (by decide)]

theorem Dev.pwmStarted_stall (cnt : Nat) : (d.pwmStarted n cnt).on (pwmPage n) F.PWM_STATUS_STALL = false := by
  rw [Dev.pwmStarted, Dev.setB, Dev.on_setF_apart _ _ rfl, Dev.on_setB_same _ _ _ _ rfl (by decide)]

theorem Dev.pwmStarted_period (cnt : Nat) : (d.pwmStarted n cnt).f (pwmPage n) F.PWM_PERIOD_ACT_PERIOD = d.f (pwmPage n) F.PWM_PERIOD_ACT_PERIOD := by
  rw [Dev.pwmStarted, Dev.setB, Dev.f_setF_apart _ _ rfl, Dev.setB, Dev.f_setF_apart _ _ rfl, Dev.setB, Dev.f_setF_apart _ _ rfl, Dev.f_setPwm,
    Dev.f_setF_apart _ _ rfl]

/-- The device once the zero event of a generator has pulsed. -/
def Dev.zeroMarked : Dev :=
  ((d.act 7 n).pulse (evCas (n / 6) (3 * (n % 6)))).setPwm n { d.pwm n with lastZero := some d.count }

theorem Dev.pwmZero_keeps (h : d.acted 7 n = false) : (d.zeroMarked n).PwmKeeps n (d.pwmZero n) := by
  unfold Dev.pwmZero
  rw [h, if_neg (by decide)]
  exact .trans (.adcTrigger _ _ _) (.trans (.encLatch _) (.trans (.sdZero _ _) .syncOut))

theorem Dev.zeroMarked_f (p : Nat) (f : Fld) : (d.zeroMarked n).f p f = d.f p f := rfl

theorem Dev.zeroMarked_on (p : Nat) (f : Fld) : (d.zeroMarked n).on p f = d.on p f := rfl

theorem Dev.zeroMarked_pwm : (d.zeroMarked n).pwm n = { d.pwm n with lastZero := some d.count } := Dev.pwm_setPwm_same ..

theorem Dev.zeroMarked_mem : (d.zeroMarked n).mem = d.mem := rfl

/-! A reload tick (10 R221, R229) -/

/-- The generator as a reload tick leaves it before its period starts. -/
def Dev.pwmReloaded : Dev := (d.pwmTransfer n).setPwm n { (d.pwmTransfer n).pwm n with reloadTick := some (d.pwmTransfer n).tick }

theorem Dev.PwmWrites.pwmReloaded : d.PwmWrites (d.pwmReloaded n) := .trans (.pwmTransfer n) (.setPwm _ _)

/-- The period that the shadow held at the start of the tick is in effect. -/
theorem Dev.pwmTransfer_period : (d.pwmTransfer n).f (pwmPage n) F.PWM_PERIOD_ACT_PERIOD = d.atTick.f (pwmPage n) F.PWM_PERIOD_PERIOD := by
  have hlt : d.atTick.f (pwmPage n) F.PWM_PERIOD_PERIOD < 2 ^ 32 := Dev.f_lt _ _ _
  unfold Dev.pwmTransfer
  extract_lets p s period set
  have hperiod : period.f p F.PWM_PERIOD_ACT_PERIOD = s.f p F.PWM_PERIOD_PERIOD := by
    rw [show period = (d.holdEntered n).setF p F.PWM_PERIOD_ACT_PERIOD (s.f p F.PWM_PERIOD_PERIOD) from rfl, Dev.f_setF_same _ _ _ _ (by decide)]
    exact Nat.mod_eq_of_lt hlt
  split
  · exact hperiod
  · rw [Dev.f_setF_apart _ _ rfl, show set = period.setF p F.PWM_CMPSET_ACT_CMPSET (s.f p F.PWM_CMPSET_CMPSET) from rfl, Dev.f_setF_apart _ _ rfl, hperiod]

/-- The device in which the outputs are released at the start of a new period. -/
def Dev.pwmRestarted : Dev := ((d.pwmReloaded n).pwmStarted n 0).pwmRelease n

theorem Dev.PwmWrites.pwmRestarted : d.PwmWrites (d.pwmRestarted n) := .trans (.pwmReloaded d n) (.trans (.pwmStarted _ n 0) (.pwmRelease n))

theorem Dev.pwmReloadTick_keeps (h : d.acted 7 n = false) : ((d.pwmRestarted n).zeroMarked n).PwmKeeps n (d.pwmReloadTick n 0) := by
  rw [show d.pwmReloadTick n 0 = (((d.pwmReloaded n).pwmPeriodStart n 0).cmpAutoClear (n / 6) (n % 6)) from rfl, Dev.pwmPeriodStart_zero, ← Dev.pwmRestarted]
  have hacted : (d.pwmRestarted n).acted 7 n = false := ((Dev.PwmWrites.pwmRestarted d n).acted 7 n).trans h
  exact (Dev.pwmZero_keeps _ _ hacted).trans (.cmpAutoClear _ _)

theorem Dev.pwmRestarted_f {f : Fld} (hhigh : F.PWM_OUT_H_ON.apart f = true) (hlow : F.PWM_OUT_L_ON.apart f = true)
    (hresume : F.PWM_STATUS_RESUME_PENDING.apart f = true) :
    (d.pwmRestarted n).f (pwmPage n) f = ((d.pwmReloaded n).pwmStarted n 0).f (pwmPage n) f := Dev.pwmRelease_f _ _ hhigh hlow hresume

theorem Dev.pwmRestarted_on {f : Fld} (hhigh : F.PWM_OUT_H_ON.apart f = true) (hlow : F.PWM_OUT_L_ON.apart f = true)
    (hresume : F.PWM_STATUS_RESUME_PENDING.apart f = true) :
    (d.pwmRestarted n).on (pwmPage n) f = ((d.pwmReloaded n).pwmStarted n 0).on (pwmPage n) f := by
  rw [Dev.on, Dev.pwmRestarted_f _ _ hhigh hlow hresume, Dev.on]

theorem Dev.pwmReload_due (hdue : (d.pwmCounting n && (d.pwm n).wrapDue) = true) (hsync : d.syncNow n = false) : d.pwmReload n = d.pwmReloadTick n 0 := by
  rw [Dev.pwmReload, hdue, if_pos rfl, hsync, if_neg (by decide)]

/-- The generator at the start of its new period. -/
theorem Dev.pwmRestarted_pwm : ((d.pwmRestarted n).pwm n).wrapDue = false ∧ ((d.pwmRestarted n).pwm n).reloadTick = some d.tick := by
  obtain ⟨hwrap, hreload⟩ := ((d.pwmReloaded n).pwmStarted n 0).pwmRelease_counter n
  rw [Dev.pwmRestarted, hwrap, hreload, Dev.pwmStarted_pwm, Dev.pwmReloaded, Dev.pwm_setPwm_same, (Dev.PwmWrites.pwmTransfer n).tick]
  exact ⟨rfl, rfl⟩

/-! Events of a generator (10 R222, R241) -/

/-- The device once the period event of a generator has pulsed. -/
def Dev.periodMarked : Dev :=
  (d.setPwm n { d.pwm n with seen := Table.put 0 (d.pwm n).seen 2 (d.tick + 1) }).pulse (evCas (n / 6) (3 * (n % 6) + 1))

/-- A period event is due. -/
def Dev.periodDue : Bool :=
  d.pwmEvents n && !d.pwmOff n && d.pwmCnt n == d.pwmPer n && !(d.pwm n).wrapDue && !d.syncNow n && Table.get 0 (d.pwm n).seen 2 != d.tick + 1

theorem Dev.pwmPeriodEvent_due (h : d.periodDue n = true) : (d.periodMarked n).PwmKeeps n (d.pwmPeriodEvent n) := by
  rw [Dev.periodDue] at h
  rw [Dev.pwmPeriodEvent, h, if_pos rfl]
  exact .adcTrigger _ _ _

theorem Dev.pwmPeriodEvent_none (h : d.periodDue n = false) : d.pwmPeriodEvent n = d := by
  rw [Dev.periodDue] at h
  rw [Dev.pwmPeriodEvent, h, if_neg (by decide)]

theorem Dev.PwmKeeps.pulsesOf {d e : Dev} {n : Nat} (h : PwmKeeps n d e) (k : Nat) : e.pulsesOf k = d.pulsesOf k := by
  rw [Dev.pulsesOf, h.pulses, Dev.pulsesOf]

theorem Dev.periodMarked_pulsesOf : (d.periodMarked n).pulsesOf (evCas (n / 6) (3 * (n % 6) + 1)) = d.pulsesOf (evCas (n / 6) (3 * (n % 6) + 1)) + 1 := by
  rw [Dev.periodMarked, Dev.pulsesOf_pulse]
  rfl

theorem Dev.periodMarked_pwm : (d.periodMarked n).pwm n = { d.pwm n with seen := Table.put 0 (d.pwm n).seen 2 (d.tick + 1) } := Dev.pwm_setPwm_same ..

end

/-! An output that turns on (10 R226) -/

section
variable (d : Dev) (n : Nat)

/-- The output whose turn-on is due. -/
def outOn (o : Nat) : Fld := if o = 0 then F.PWM_OUT_H_ON else F.PWM_OUT_L_ON

theorem outOn_eq (o : Nat) : outOn o = F.PWM_OUT_H_ON ∨ outOn o = F.PWM_OUT_L_ON := by
  rw [outOn]
  split
  · exact .inl rfl
  · exact .inr rfl

/-- A turn-on is past and stands in the pipeline. -/
theorem Dev.turnOn_pwm (o pos : Nat) : ∃ x : PadEdge, (d.turnOn n o pos).pwm n = { d.pwm n with dead := none, pipe := (d.pwm n).pipe ++ [x] } := by
  obtain ⟨x, -, -, hx⟩ := ((d.setB (pwmPage n) (outOn o) true).setPwm n { d.pwm n with dead := none }).padEdge_pwm n o true pos
  rw [Dev.pwm_setPwm_same] at hx
  exact ⟨x, hx⟩

theorem Dev.turnOn_f (o pos : Nat) {f : Fld} (hf : f.ofs ≠ F.PWM_OUT_REF.ofs) : (d.turnOn n o pos).f (pwmPage n) f = d.f (pwmPage n) f := by
  have hhigh : F.PWM_OUT_H_ON.apart f = true := by simp [Fld.apart, show F.PWM_OUT_H_ON.ofs ≠ f.ofs from hf.symm]
  have hlow : F.PWM_OUT_L_ON.apart f = true := by simp [Fld.apart, show F.PWM_OUT_L_ON.ofs ≠ f.ofs from hf.symm]
  rw [Dev.turnOn, Dev.padEdge_f, Dev.f_setPwm, ← outOn, Dev.setB]
  rcases outOn_eq o with h | h
  · rw [h, Dev.f_setF_apart _ _ hhigh]
  · rw [h, Dev.f_setF_apart _ _ hlow]

theorem Dev.turnOn_on (o pos : Nat) : (d.turnOn n o pos).on (pwmPage n) (outOn o) = true := by
  rw [Dev.turnOn, Dev.padEdge_on, Dev.on_setPwm, ← outOn]
  rcases outOn_eq o with h | h <;> rw [h, Dev.on_setB_same _ _ _ _ rfl (by decide)]

/-! An edge of REF (10 R224, R226) -/

/-- The turn-on that was due before an edge has taken place. -/
def Dev.pendingDone (pos : Nat) : Dev :=
  match (d.pwm n).dead with
  | some (o, t) => if t < pos then d.turnOn n o t else d
  | none => d

/-- A turn-on that was due leaves the rest of the generator, and its registers but OUT. -/
theorem Dev.pendingDone_keeps (pos : Nat) : d.PwmWrites (d.pendingDone n pos) ∧ ((d.pendingDone n pos).pwm n).released = (d.pwm n).released ∧
    ∀ f : Fld, f.ofs ≠ F.PWM_OUT_REF.ofs → (d.pendingDone n pos).f (pwmPage n) f = d.f (pwmPage n) f := by
  unfold Dev.pendingDone
  split
  next o t _ =>
    by_cases h : t < pos
    · obtain ⟨x, hx⟩ := d.turnOn_pwm n o t
      rw [if_pos h, hx]
      exact ⟨.turnOn _ _ _, rfl, fun f hf => d.turnOn_f n o t hf⟩
    · rw [if_neg h]
      exact ⟨.refl d, rfl, fun _ _ => rfl⟩
  · exact ⟨.refl d, rfl, fun _ _ => rfl⟩

/-- REF has its level, and the other output is off. -/
def Dev.refSet (hi : Bool) : Dev :=
  (d.setB (pwmPage n) F.PWM_OUT_REF hi).setB (pwmPage n) (if hi then F.PWM_OUT_L_ON else F.PWM_OUT_H_ON) false

theorem Dev.refSet_pwm (hi : Bool) : (d.refSet n hi).pwm n = d.pwm n := by rw [Dev.refSet, Dev.pwm_setB, Dev.pwm_setB]

theorem Dev.refSet_ref (hi : Bool) : (d.refSet n hi).on (pwmPage n) F.PWM_OUT_REF = hi := by
  rw [Dev.refSet, Dev.setB]
  cases hi <;> rw [Dev.on_setF_apart _ _ rfl, Dev.on_setB_same _ _ _ _ rfl (by decide)]

theorem Dev.refSet_off (hi : Bool) : (d.refSet n hi).on (pwmPage n) (if hi then F.PWM_OUT_L_ON else F.PWM_OUT_H_ON) = false := by
  rw [Dev.refSet]
  cases hi <;> exact Dev.on_setB_same _ _ _ _ rfl (by decide)

theorem Dev.refSet_f (hi : Bool) {f : Fld} (hf : f.ofs ≠ F.PWM_OUT_REF.ofs) : (d.refSet n hi).f (pwmPage n) f = d.f (pwmPage n) f := by
  have hapart {g : Fld} (h : g.ofs ≠ f.ofs) : g.apart f = true := by simp [Fld.apart, h]
  rw [Dev.refSet, Dev.setB]
  cases hi
  · rw [if_neg (by decide), Dev.f_setF_apart _ _ (hapart (g := F.PWM_OUT_H_ON) hf.symm), Dev.setB, Dev.f_setF_apart _ _ (hapart hf.symm)]
  · rw [if_pos rfl, Dev.f_setF_apart _ _ (hapart (g := F.PWM_OUT_L_ON) hf.symm), Dev.setB, Dev.f_setF_apart _ _ (hapart hf.symm)]

/-- When the output that an edge asks for turns on. -/
def Dev.edgeDue (hi : Bool) (pos : Nat) : Nat × Nat :=
  if hi then (0, pos + d.f (pwmPage n) F.PWM_DTR_DTR) else (1, pos + d.f (pwmPage n) F.PWM_DTF_DTF)

/-- The generator once an edge of REF has moved its outputs. -/
def Dev.edgeDone (hi : Bool) (pos : Nat) : Dev :=
  if (d.pwm n).released then (d.setPwm n { d.pwm n with dead := some (d.edgeDue n hi pos) }).padEdge n (if hi then 1 else 0) false pos
  else d.setPwm n { d.pwm n with dead := none }

theorem Dev.refEdge_moves {hi : Bool} (h : d.on (pwmPage n) F.PWM_OUT_REF = !hi) (pos : Nat) :
    d.refEdge n hi pos = ((d.pendingDone n pos).refSet n hi).edgeDone n hi pos := by
  unfold Dev.refEdge
  extract_lets p
  rw [show d.on p F.PWM_OUT_REF = !hi from h, if_neg (by cases hi <;> decide)]
  cases hi <;> rfl

theorem Dev.edgeDone_f (hi : Bool) (pos p : Nat) (f : Fld) : (d.edgeDone n hi pos).f p f = d.f p f := by
  rw [Dev.edgeDone]
  split
  · rw [Dev.padEdge_f, Dev.f_setPwm]
  · rw [Dev.f_setPwm]

theorem Dev.edgeDone_on (hi : Bool) (pos p : Nat) (f : Fld) : (d.edgeDone n hi pos).on p f = d.on p f := by rw [Dev.on, Dev.edgeDone_f, Dev.on]

theorem Dev.PwmWrites.edgeDone (hi : Bool) (pos : Nat) : d.PwmWrites (d.edgeDone n hi pos) := by
  unfold Dev.edgeDone
  exact .ite (.trans (.setPwm _ _) (.padEdge _ _ _ _)) (.setPwm _ _)

theorem Dev.edgeDone_held (hi : Bool) (pos : Nat) (h : (d.pwm n).released = false) : ((d.edgeDone n hi pos).pwm n).dead = none := by
  rw [Dev.edgeDone, h, if_neg (by decide), Dev.pwm_setPwm_same]

theorem Dev.edgeDone_released (hi : Bool) (pos : Nat) (h : (d.pwm n).released = true) : ((d.edgeDone n hi pos).pwm n).dead = some (d.edgeDue n hi pos) ∧
    ∃ l x, ((d.edgeDone n hi pos).pwm n).pipe = l ++ [x] ∧ x.out = (if hi then 1 else 0) ∧ x.on = false := by
  obtain ⟨x, hout, hon, hx⟩ := (d.setPwm n { d.pwm n with dead := some (d.edgeDue n hi pos) }).padEdge_pwm n (if hi then 1 else 0) false pos
  rw [Dev.edgeDone, h, if_pos rfl, hx, Dev.pwm_setPwm_same]
  exact ⟨rfl, _, x, rfl, hout, hon⟩

/-! A lone compare match (10 R223, R224) -/

/-- A lone edge is the only one of its tick, whatever its step. -/
theorem orderEdges_lone {k : Nat} (hk : k < 16) (clr late : Bool) : orderEdges [⟨k, clr, late⟩] = [⟨k, clr, late⟩] := by
  have hkept : [(⟨k, clr, late⟩ : PwmEdge)].filter (fun e => e.clr || !([(⟨k, clr, late⟩ : PwmEdge)].any (fun x => x.clr && x.step == e.step))) =
      [⟨k, clr, late⟩] := List.filter_eq_self.mpr (by cases clr <;> simp)
  unfold orderEdges
  dsimp only
  rw [hkept]
  clear hkept
  interval_cases k <;> rfl

/-- The generator once the compare matches of the tick are noted. -/
def Dev.matchNoted (seen : Table Nat) : Dev :=
  d.setPwm n { d.pwm n with seen := seen, catchUp := (d.pwm n).catchUp.filter (fun e => d.tick < e.2.1) }

theorem Dev.matchNoted_forced (seen : Table Nat) : (d.matchNoted n seen).pwmForced n = d.pwmForced n := by
  have hpwm : (d.matchNoted n seen).pwm n = { d.pwm n with seen := seen, catchUp := (d.pwm n).catchUp.filter (fun e => d.tick < e.2.1) } :=
    Dev.pwm_setPwm_same ..
  unfold Dev.pwmForced
  rw [hpwm]
  rfl

theorem Dev.pwmMatch_lone {k : Nat} {hi : Bool} (hmatching : d.pwmMatching n = true) (hforced : d.pwmForced n = none) (hk : k < 16)
    (hedges : d.pwmEdges n 0 ++ d.pwmEdges n 1 = [⟨k, !hi, false⟩])
    (hev : ∀ seen, ((d.matchNoted n seen).refEdge n hi (16 * d.tick + k)).f (pwmPage n) F.PWM_CTRL_CMP_EV = 0) :
    ∃ seen, d.pwmMatch n = (d.matchNoted n seen).refEdge n hi (16 * d.tick + k) := by
  unfold Dev.pwmMatch
  rw [hmatching, if_neg (by decide)]
  extract_lets s k' late w seen0 seen noted applied counted ev
  have happlied : applied = noted.refEdge n hi (16 * d.tick + k) := by
    rw [show applied = noted.applyEdges n (d.pwmEdges n 0 ++ d.pwmEdges n 1) from rfl, hedges, Dev.applyEdges, show noted = d.matchNoted n seen from rfl,
      Dev.matchNoted_forced, hforced, if_neg (by decide), orderEdges_lone hk, List.foldl_cons, List.foldl_nil, Bool.not_not]
    rfl
  have hcounted : counted = applied := if_pos (by rw [show late = ((d.pwmEdges n 0 ++ d.pwmEdges n 1).filter (·.late)).length from rfl, hedges]; rfl)
  have hzero : ev = 0 := by
    rw [show ev = counted.f (pwmPage n) F.PWM_CTRL_CMP_EV from rfl, hcounted, happlied]
    exact hev seen
  refine ⟨seen, ?_⟩
  rw [hzero, if_neg (by simp), hcounted, happlied]
  rfl

/-! The end of a dead time (10 R226) -/

theorem Dev.deadTimeExpire_ends {o pos : Nat} (hdead : (d.pwm n).dead = some (o, pos)) (hpos : pos / 16 ≤ d.tick) (hlive : d.live (pwmPage n) = true)
    (hedges : (d.pwmMatching n && (d.pwmEdges n 0 ++ d.pwmEdges n 1).any (fun x => decide (16 * d.tick + x.step ≤ pos))) = false) :
    d.deadTimeExpire n = d.turnOn n o pos := by
  unfold Dev.deadTimeExpire
  rw [hdead]
  dsimp only
  rw [decide_eq_false (by omega), hlive, if_neg (by decide), hedges, if_neg (by decide)]

theorem Dev.deadTimeExpire_early {o pos : Nat} (hdead : (d.pwm n).dead = some (o, pos)) (hpos : d.tick < pos / 16) : d.deadTimeExpire n = d := by
  unfold Dev.deadTimeExpire
  rw [hdead]
  dsimp only
  rw [decide_eq_true hpos, Bool.true_or, if_pos rfl]

end

end Sys2Proof.Machine

namespace Sys2Proof.Claims

open Sys2Proof.Machine

theorem pwmCounterEvents : PwmCounterEvents := by
  intro s n hclk d p w
  have hn : n.val < 96 := n.isLt
  refine ⟨fun hdue => ?_, fun hdue hsync hacted => ?_, ⟨fun hdue => ?_, fun hdue => ?_⟩, ?_⟩
  · exact does_of_clocked (f := fun d => d.pwmReload n) hclk rfl (by rw [Dev.pwmReload, hdue, if_neg (by decide)])
  · have hkeeps := Dev.pwmReloadTick_keeps _ _ hacted
    obtain ⟨hwrap, hreload⟩ := s.dev.pwmRestarted_pwm n
    refine gives_of_clocked (f := fun d => d.pwmReload n) hclk rfl (Dev.pwmReload_due _ _ hdue hsync) ⟨?_, ?_, ?_, ?_, ?_, ?_, ?_, ?_⟩
    · rw [Dev.pwmCnt, hkeeps.f hn (by decide), Dev.zeroMarked_f, Dev.pwmRestarted_f _ _ rfl rfl rfl, Dev.pwmStarted_cnt _ _ (by decide)]
    · rw [Dev.pwmPer, hkeeps.f hn (by decide), Dev.zeroMarked_f, Dev.pwmRestarted_f _ _ rfl rfl rfl, Dev.pwmStarted_period, Dev.pwmReloaded, Dev.f_setPwm,
        Dev.pwmTransfer_period]
    · rw [hkeeps.on hn (by decide), Dev.zeroMarked_on, Dev.pwmRestarted_on _ _ rfl rfl rfl, Dev.pwmStarted_running]
    · rw [hkeeps.on hn (by decide), Dev.zeroMarked_on, Dev.pwmRestarted_on _ _ rfl rfl rfl, Dev.pwmStarted_stall]
    · rw [hkeeps.pwm, Dev.zeroMarked_pwm, hwrap]
    · rw [hkeeps.pwm, Dev.zeroMarked_pwm, hreload]
    · rw [hkeeps.pwm, Dev.zeroMarked_pwm, (Dev.PwmWrites.pwmRestarted s.dev n).count]
    · rw [hkeeps.mem, Dev.zeroMarked_mem, (Dev.PwmWrites.pwmRestarted s.dev n).mem]
  · exact does_of_clocked (f := fun d => d.pwmPeriodEvent n) hclk rfl (Dev.pwmPeriodEvent_none _ _ hdue)
  · have hkeeps := Dev.pwmPeriodEvent_due _ _ hdue
    refine gives_of_clocked (f := fun d => d.pwmPeriodEvent n) hclk rfl rfl ⟨?_, ?_, ?_⟩
    · rw [hkeeps.pulsesOf, Dev.periodMarked_pulsesOf]
    · rw [hkeeps.pwm, Dev.periodMarked_pwm, Table.get_put_same]
    · exact hkeeps.mem
  · exact does_of_clocked (f := fun d => d.pwmStall n) hclk rfl rfl

/-- What a lone match leaves: REF at its level, the other output off, and the turn-on due. -/
theorem loneMatch {s : State} {n : Fin 96} (hclk : Clocked s) {k : Nat} {hi : Bool} (hmatching : s.dev.pwmMatching n = true)
    (hforced : s.dev.pwmForced n = none) (hk : k < 16) (hedges : s.dev.pwmEdges n 0 ++ s.dev.pwmEdges n 1 = [⟨k, !hi, false⟩])
    (href : s.dev.on (pwmPage n) F.PWM_OUT_REF = !hi) (hev : s.dev.f (pwmPage n) F.PWM_CTRL_CMP_EV = 0) :
    Gives (.pwmCompareMatch n) s fun e => e.on (pwmPage n) F.PWM_OUT_REF = hi ∧
      e.on (pwmPage n) (if hi then F.PWM_OUT_L_ON else F.PWM_OUT_H_ON) = false ∧
      (e.pwm n).dead = (if (s.dev.pwm n).released then some (s.dev.edgeDue n hi (16 * s.dev.tick + k)) else none) ∧
      ((s.dev.pwm n).released = true → ∃ l x, (e.pwm n).pipe = l ++ [x] ∧ x.out = (if hi then 1 else 0) ∧ x.on = false) ∧ e.mem = s.dev.mem := by
  obtain ⟨pos, hpos⟩ : ∃ pos, pos = 16 * s.dev.tick + k := ⟨_, rfl⟩
  have hmoves (seen) : (s.dev.matchNoted n seen).refEdge n hi pos = (((s.dev.matchNoted n seen).pendingDone n pos).refSet n hi).edgeDone n hi pos :=
    Dev.refEdge_moves (s.dev.matchNoted n seen) _ href pos
  obtain ⟨seen, hmatch⟩ := s.dev.pwmMatch_lone n hmatching hforced hk hedges fun seen => by
    rw [← hpos, hmoves, Dev.edgeDone_f, Dev.refSet_f _ _ _ (by decide), (Dev.pendingDone_keeps _ _ _).2.2 _ (by decide)]
    exact hev
  rw [← hpos, hmoves] at hmatch
  rw [← hpos]
  obtain ⟨e, he⟩ : ∃ e, e = s.dev.matchNoted n seen := ⟨_, rfl⟩
  obtain ⟨hwrites, hreleased, hfields⟩ := e.pendingDone_keeps n pos
  have hreleased' : (((e.pendingDone n pos).refSet n hi).pwm n).released = (s.dev.pwm n).released := by
    rw [Dev.refSet_pwm, hreleased, he, Dev.matchNoted, Dev.pwm_setPwm_same]
  have hdue : ((e.pendingDone n pos).refSet n hi).edgeDue n hi pos = s.dev.edgeDue n hi pos := by
    rw [Dev.edgeDue, Dev.refSet_f _ _ _ (by decide), Dev.refSet_f _ _ _ (by decide), hfields _ (by decide), hfields _ (by decide), he]
    rfl
  rw [← he] at hmatch
  refine gives_of_clocked (f := fun d => d.pwmMatch n) hclk rfl hmatch ⟨?_, ?_, ?_, fun hrel => ?_, ?_⟩
  · rw [Dev.edgeDone_on, Dev.refSet_ref]
  · rw [Dev.edgeDone_on, Dev.refSet_off]
  · cases hrel : (s.dev.pwm n).released with
    | true => rw [(Dev.edgeDone_released _ _ _ _ (hreleased'.trans hrel)).1, hdue, if_pos rfl]
    | false => rw [Dev.edgeDone_held _ _ _ _ (hreleased'.trans hrel), if_neg (by decide)]
  · exact (Dev.edgeDone_released _ _ _ _ (hreleased'.trans hrel)).2
  · rw [(Dev.PwmWrites.edgeDone _ _ _ _).mem, Dev.refSet, Dev.setB_mem, Dev.setB_mem, hwrites.mem, he]
    rfl

theorem pwmEdges : PwmEdges := by
  intro s n hclk d p w
  refine ⟨fun hmatching => ?_, fun k r hmatching hforced hk hone hnone href hev => ?_, fun hdead => ?_, fun o pos hdead hpos hlive hedges => ?_,
    fun o pos hdead hpos => ?_⟩
  · exact does_of_clocked (f := fun d => d.pwmMatch n) hclk rfl (by rw [Dev.pwmMatch, hmatching, if_pos (by decide)])
  · match r with
    | 0 =>
      obtain ⟨e, hdoes, hr, hoff, hdue, hpipe, hmem⟩ := loneMatch (hi := true) hclk hmatching hforced hk
        ((congrArg₂ (· ++ ·) hone hnone).trans (List.append_nil _)) href hev
      exact ⟨e, hdoes, hr, fun _ => hoff, nofun, hdue, hpipe, hmem⟩
    | 1 =>
      obtain ⟨e, hdoes, hr, hoff, hdue, hpipe, hmem⟩ := loneMatch (hi := false) hclk hmatching hforced hk
        ((congrArg₂ (· ++ ·) hnone hone).trans (List.nil_append _)) href hev
      exact ⟨e, hdoes, hr, nofun, fun _ => hoff, hdue, hpipe, hmem⟩
  · exact does_of_clocked (f := fun d => d.deadTimeExpire n) hclk rfl (by
      unfold Dev.deadTimeExpire
      rw [hdead])
  · obtain ⟨x, hx⟩ := s.dev.turnOn_pwm n o pos
    have hon := s.dev.turnOn_on n o pos
    refine gives_of_clocked (f := fun d => d.deadTimeExpire n) hclk rfl (Dev.deadTimeExpire_ends _ _ hdead hpos hlive hedges)
      ⟨?_, fun ho => ?_, fun ho => ?_, (Dev.PwmWrites.turnOn _ _ _).mem⟩
    · rw [hx]
    · rwa [outOn, if_pos ho] at hon
    · rwa [outOn, if_neg (by omega)] at hon
  · exact does_of_clocked (f := fun d => d.deadTimeExpire n) hclk rfl (Dev.deadTimeExpire_early _ _ hdead hpos)

/-- Settles O24: a counter's events write their own generator, and a lone match moves its outputs. -/
theorem pwmCountersAndPads : Obligations.PwmCountersAndPads := ⟨pwmCounterEvents, pwmEdges⟩

end Sys2Proof.Claims
end

section
/-!
The PWM generators' registers (10 R228-R240): writes of compares and periods, activated compares, sync pulses and forces.
-/
namespace Sys2Proof.Machine

theorem pageAt_pwmPage (n : Fin 96) : pageAt (pwmPage n) = some (Claims.pagePwm n) := by
  revert n
  decide

theorem pwmPage_aligned (n : Nat) : pwmPage n % 0x1000 = 0 := pgPwm_aligned _ _

variable (d : Dev) (n : Nat)

theorem Dev.wrote_pwm (a len v : Nat) : (d.wrote a len v).pwm n = d.pwm n := rfl

/-! Writes of compares and periods (10 R228-R231) -/

/-- A write of a page's compare or period. -/
theorem Dev.pageWrite_pwmReg (w : Who) {p : PageInfo} (hk : p.kind = .pwm) (v : Nat) {o r : Nat}
    (h : (o = 0x48 ∧ r = 0) ∨ (o = 0x4C ∧ r = 1) ∨ (o = 0x44 ∧ r = 2)) : d.pageWrite w p o 4 v = d.pwmWrite p.inst r v false := by
  obtain ⟨rfl, rfl⟩ | ⟨rfl, rfl⟩ | ⟨rfl, rfl⟩ := h <;>
  · rw [Dev.pageWrite, if_neg (by decide), hk]
    simp only [Dev.writeCasement, hk]
    rfl

theorem Dev.pageWrite_pwmXctrl (w : Who) {p : PageInfo} (hk : p.kind = .pwm) (v : Nat) :
    d.pageWrite w p 0x80 4 v = (d.storeAll p 0x80 4 v).refForce p.inst (d.f p.base F.PWM_XCTRL_REF_FORCE) := by
  rw [Dev.pageWrite, if_neg (by decide), hk]
  simp only [Dev.writeCasement, hk]
  rfl

/-- The write of a compare or period counts as late and is held. -/
def Dev.lateCounted : Dev :=
  ((d.setB (pwmPage n) F.PWM_STATUS_LATE_UPDATE true).irq (pwmPage n) 0).inc (pwmPage n) F.PWM_LATE_CNT_LATE

theorem pwmShadow_eq (r : Nat) : pwmShadow r = F.PWM_CMPSET_CMPSET ∨ pwmShadow r = F.PWM_CMPCLR_CMPCLR ∨ pwmShadow r = F.PWM_PERIOD_PERIOD := by
  unfold pwmShadow
  split
  · exact .inl rfl
  · exact .inr (.inl rfl)
  · exact .inr (.inr rfl)

theorem Dev.lateCounted_shadow (r : Nat) : (d.lateCounted n).f (pwmPage n) (pwmShadow r) = d.f (pwmPage n) (pwmShadow r) := by
  rw [Dev.lateCounted, Dev.inc, Dev.irq, Dev.setB]
  rcases pwmShadow_eq r with h | h | h <;> rw [h, Dev.f_setF_apart _ _ rfl, Dev.f_setF_apart _ _ rfl, Dev.f_setF_apart _ _ rfl]

variable {d n}

/-- A write in the tick of a commit to its register leaves the register as it is (10 R228). -/
theorem Dev.pwmWrite_under {r v : Nat} (h : d.committed (pwmPage n + (pwmShadow r).ofs) = true) : d.pwmWrite n r v false = d ∨
    ∃ x, d.pwmWrite n r v false = d.setPwm n x ∨ d.pwmWrite n r v false = (d.lateCounted n).setPwm n x := by
  unfold Dev.pwmWrite
  extract_lets p a under base w shown late now old
  rw [show shown = d from if_pos h]
  split
  · exact .inl rfl
  split
  · exact .inr ⟨_, .inl rfl⟩
  split
  · exact .inr ⟨_, .inr rfl⟩
  · exact .inr ⟨_, .inl rfl⟩

/-- A write in a tick without a commit to its register. -/
theorem Dev.pwmWrite_alone {r v : Nat} (h : d.committed (pwmPage n + (pwmShadow r).ofs) = false) : d.pwmWrite n r v false =
    if d.en (pwmPage n) = false then d.setF (pwmPage n) (pwmShadow r) v
    else if d.on (pwmPage n) F.PWM_CTRL_UPD = true ∧ r < 2 then
      (d.setF (pwmPage n) (pwmShadow r) v).setPwm n { d.pwm n with pend := (d.pwm n).pend ++ [⟨r, v, d.tick + 12, 0⟩] }
    else if d.pwmGuard n then (d.lateCounted n).setPwm n { d.pwm n with held := (d.pwm n).held ++ [⟨r, v, d.tick, 0⟩] }
    else (d.setF (pwmPage n) (pwmShadow r) v).setPwm n { d.pwm n with
      entered := (d.pwm n).entered.filter (fun e => e.due == d.tick) ++ [⟨r, v, d.tick, d.f (pwmPage n) (pwmShadow r)⟩] } := by
  have hnone : ((d.pwm n).entered.filter (fun e => e.due == d.tick)).find? (fun e => false && e.reg == r) = none :=
    List.find?_eq_none.mpr fun _ _ => by simp
  unfold Dev.pwmWrite
  extract_lets p a under base w shown late now old
  have hunder : under = false := h
  rw [show shown = d.setF p (pwmShadow r) v from if_neg (by rw [hunder]; decide)]
  rw [hunder]
  refine if_congr (by simp [base, p]) rfl (if_congr (by simp [base, p]) rfl (if_congr Iff.rfl rfl ?_))
  have hold : old = d.f (pwmPage n) (pwmShadow r) := by
    rw [show old = ((now.find? (fun e => under && e.reg == r)).map PwmWrite.old).getD (d.f (pwmPage n) (pwmShadow r)) from rfl, hunder,
      show now.find? (fun e => false && e.reg == r) = none from hnone]
    rfl
  rw [hold]
  rfl

/-! An activated compare (10 R231, R232) -/

/-- The active compare of kind r. -/
def activeCompare (r : Nat) : Fld := if r = 0 then F.PWM_CMPSET_ACT_CMPSET else F.PWM_CMPCLR_ACT_CMPCLR

theorem activeCompare_eq (r : Nat) : activeCompare r = F.PWM_CMPSET_ACT_CMPSET ∨ activeCompare r = F.PWM_CMPCLR_ACT_CMPCLR := by
  unfold activeCompare
  split
  · exact .inl rfl
  · exact .inr rfl

variable (d n)

/-- A value that becomes active at or after its own position has been passed. -/
def Dev.comparePassed (e : PwmWrite) : Bool :=
  decide (e.val / 16 ≤ (if (d.pwm n).wrapDue then 0 else d.pwmCnt n)) && e.val != d.f (pwmPage n) (activeCompare e.reg)

/-- The generator once a value is active. -/
def Dev.compareActive (e : PwmWrite) (rest : List PwmWrite) : Dev :=
  (d.setF (pwmPage n) (activeCompare e.reg) e.val).setPwm n { d.pwm n with
    pend := rest
    seen := Table.put 0 (d.pwm n).seen (3 + e.reg) (d.tick + 1)
    catchUp := if d.comparePassed n e && d.on (pwmPage n) F.PWM_CTRL_CATCHUP then (d.pwm n).catchUp ++ [(e.reg, d.tick + 1, e.val % 16)]
      else (d.pwm n).catchUp }

/-- An edge that is passed and not caught up is counted. -/
def Dev.edgePassed : Dev :=
  ((d.setB (pwmPage n) F.PWM_STATUS_EDGE_PASSED true).irq (pwmPage n) 2).inc (pwmPage n) F.PWM_PASSED_CNT_PASSED

variable {d n}

theorem Dev.compareActivate_due {e : PwmWrite} {rest : List PwmWrite} (h : (d.pwm n).pend = e :: rest) (hdue : e.due ≤ d.tick)
    (hlive : d.live (pwmPage n) = true) : d.compareActivate n =
      if d.comparePassed n e && !d.on (pwmPage n) F.PWM_CTRL_CATCHUP then (d.compareActive n e rest).edgePassed n else d.compareActive n e rest := by
  unfold Dev.compareActivate
  extract_lets p w
  rw [show w.pend = e :: rest from h]
  dsimp only
  rw [show d.live p = true from hlive, decide_eq_false (by omega), if_neg (by decide)]
  rfl

theorem Dev.compareActivate_none (h : (d.pwm n).pend = []) : d.compareActivate n = d := by
  unfold Dev.compareActivate
  extract_lets p w
  rw [show w.pend = [] from h]

theorem Dev.compareActive_value {e : PwmWrite} (hval : e.val < 2 ^ 32) (rest : List PwmWrite) :
    (d.compareActive n e rest).f (pwmPage n) (activeCompare e.reg) = e.val := by
  rw [Dev.compareActive, Dev.f_setPwm]
  rcases activeCompare_eq e.reg with h | h <;> rw [h, Dev.f_setF_same _ _ _ _ (by decide)] <;> exact Nat.mod_eq_of_lt hval

theorem Dev.compareActive_pwm (e : PwmWrite) (rest : List PwmWrite) : ((d.compareActive n e rest).pwm n).pend = rest ∧
    ((d.compareActive n e rest).pwm n).catchUp = (if d.comparePassed n e && d.on (pwmPage n) F.PWM_CTRL_CATCHUP
      then (d.pwm n).catchUp ++ [(e.reg, d.tick + 1, e.val % 16)] else (d.pwm n).catchUp) := by
  rw [Dev.compareActive, Dev.pwm_setPwm_same]
  exact ⟨rfl, rfl⟩

section
variable (d n)

theorem Dev.edgePassed_active (r : Nat) : (d.edgePassed n).f (pwmPage n) (activeCompare r) = d.f (pwmPage n) (activeCompare r) := by
  rw [Dev.edgePassed, Dev.inc, Dev.irq, Dev.setB]
  rcases activeCompare_eq r with h | h <;> rw [h, Dev.f_setF_apart _ _ rfl, Dev.f_setF_apart _ _ rfl, Dev.f_setF_apart _ _ rfl]

theorem Dev.edgePassed_pwm : (d.edgePassed n).pwm n = d.pwm n := by rw [Dev.edgePassed, Dev.inc, Dev.irq, Dev.pwm_setF, Dev.pwm_setF, Dev.pwm_setB]

theorem Dev.edgePassed_mem : (d.edgePassed n).mem = d.mem := by rw [Dev.edgePassed, Dev.inc_mem, Dev.irq_mem, Dev.setB_mem]

theorem Dev.edgePassed_status : (d.edgePassed n).on (pwmPage n) F.PWM_STATUS_EDGE_PASSED = true := by
  rw [Dev.edgePassed, Dev.inc, Dev.on_setF_apart _ _ rfl, Dev.irq, Dev.on_setF_apart _ _ rfl, Dev.on_setB_same _ _ _ _ rfl (by decide)]

theorem Dev.edgePassed_irq : bitAt ((d.edgePassed n).reg (pwmPage n + 0x24)) 2 = true := by
  rw [Dev.edgePassed, Dev.inc, Dev.bitAt_setF_apart _ _ rfl, Dev.bitAt_irq _ (by decide)]

end

/-! A sync pulse (10 R234, R235) -/

variable (d n)

/-- The generator whose counter has slipped to a sync value. -/
def Dev.syncSlipped : Dev :=
  (((d.syncPast n).setB (pwmPage n) F.PWM_STATUS_SYNC_SLIP true).irq (pwmPage n) 3).setPwm n { (d.syncPast n).pwm n with slip := some d.tick }

/-- The generator that counts on from a sync value. -/
def Dev.syncCounting (v : Nat) : Dev :=
  ((d.setB (pwmPage n) F.PWM_STATUS_WAIT_START false).setB (pwmPage n) F.PWM_STATUS_STALL false).setF (pwmPage n) F.PWM_CNT_CNT v

theorem Dev.syncPast_pwm : (d.syncPast n).pwm n = { d.pwm n with syncDue := (d.pwm n).syncDue.filter (fun t => decide (d.tick < t)) } :=
  Dev.pwm_setPwm_same ..

theorem Dev.syncSlipped_pwm : (d.syncSlipped n).pwm n =
    { d.pwm n with syncDue := (d.pwm n).syncDue.filter (fun t => decide (d.tick < t)), slip := some d.tick } := by
  rw [Dev.syncSlipped, Dev.pwm_setPwm_same, Dev.syncPast_pwm]

theorem Dev.syncSlipped_status : (d.syncSlipped n).on (pwmPage n) F.PWM_STATUS_SYNC_SLIP = true := by
  rw [Dev.syncSlipped, Dev.on_setPwm, Dev.irq, Dev.on_setF_apart _ _ rfl, Dev.on_setB_same _ _ _ _ rfl (by decide)]

theorem Dev.syncSlipped_irq : bitAt ((d.syncSlipped n).reg (pwmPage n + 0x24)) 3 = true := Dev.bitAt_irq _ (by decide)

variable {d n}

theorem Dev.syncLoad_slips (hnow : d.syncNow n = true) (hwrap : (d.pwm n).wrapDue = false) (hslip : d.syncValue n ≠ d.pwmCnt n) (hzero : d.syncValue n ≠ 0) :
    d.syncLoad n = (d.syncSlipped n).syncCounting n (d.syncValue n) := by
  rw [Dev.syncLoad, if_pos hnow]
  unfold Dev.syncTake
  rw [hwrap]
  extract_lets p wrap v count past src slipped counting
  have hne : v ≠ count := hslip
  have hslipped : slipped = d.syncSlipped n := if_pos hne
  clear_value slipped
  subst hslipped
  rw [decide_eq_false hne, show decide (v = 0) = false from decide_eq_false hzero, if_neg (by simp), if_neg (by simp [wrap])]
  rfl

theorem Dev.syncNow_of (hdue : (d.pwm n).syncDue.contains d.tick = true) (hlive : d.live (pwmPage n) = true)
    (hin : d.on (pwmPage n) F.PWM_CTRL_SYNC_IN_EN = true) (hstart : (d.pwm n).startDue = none) (hacted : d.acted 6 n = false) : d.syncNow n = true := by
  rw [Dev.syncNow, hdue, hlive, hin, hstart, hacted]
  rfl

/-! A force of REF (10 R240) -/

/-- A write of XCTRL stores PERIOD_OFF and REF_FORCE. -/
theorem Dev.storeAll_xctrl (d : Dev) (n : Fin 96) (f : BitVec 2) (off : Bool) : ∃ x : W32,
    d.storeAll (Claims.pagePwm n) 0x80 4 (2 * f.toNat + b2n off) = d.setReg (pwmPage n + 0x80) x ∧ bitsOf x 0 1 = b2n off ∧ bitsOf x 1 2 = f.toNat := by
  have hval : bitsOf (BitVec.ofNat 32 (2 * f.toNat + b2n off)) 0 1 = b2n off ∧ bitsOf (BitVec.ofNat 32 (2 * f.toNat + b2n off)) 1 2 = f.toNat := by
    revert f off
    decide
  have hword : wordAt (Claims.pagePwm n) 0x80 = some ⟨0x80, 1, 0, 1, 0, false, [⟨0, 1, .rw, 0, true⟩, ⟨1, 2, .rwl, 0, true⟩]⟩ := rfl
  have hput (a : W32) (lsb w : Nat) := putBits_bitsOf a (BitVec.ofNat 32 (2 * f.toNat + b2n off)) lsb w
  refine ⟨_, Dev.storeAll_word _ _ (by decide) hword, ?_, ?_⟩ <;> simp only [RWord.merge, List.foldl_cons, List.foldl_nil, hput]
  · rw [bitsOf_putBits_ne _ _ _ _ _ _ (by decide), bitsOf_putBits_same _ _ _ _ (by decide), hval.1]
    cases off <;> rfl
  · rw [bitsOf_putBits_same _ _ _ _ (by decide), hval.2]
    exact Nat.mod_eq_of_lt f.isLt

theorem Dev.refForce_f (d : Dev) (n old p : Nat) (f : Fld) : (d.refForce n old).f p f = d.f p f := by
  rw [Dev.refForce, apply_ite (Dev.f · p f), Dev.f_setPwm, ite_self]

theorem Dev.refForce_mem (d : Dev) (n old : Nat) : (d.refForce n old).mem = d.mem := by
  rw [Dev.refForce, apply_ite Dev.mem, Dev.mem_setPwm, ite_self]

theorem Dev.refForce_enabled {d : Dev} {n : Nat} (h : d.en (pwmPage n) = true) (old : Nat) :
    ((d.refForce n old).pwm n).force = some (d.tick, ((d.pwm n).force.map Prod.snd).getD old) := by
  rw [Dev.refForce, if_pos h, Dev.pwm_setPwm_same]

end Sys2Proof.Machine

namespace Sys2Proof.Claims

open Sys2Proof.Machine

theorem pwmCompareWrites : PwmCompareWrites := by
  intro s w n r v d p x k
  have hreg : (r.offset = 0x48 ∧ k = 0) ∨ (r.offset = 0x4C ∧ k = 1) ∨ (r.offset = 0x44 ∧ k = 2) := by cases r <;> decide
  have hofs : r.offset < 0x1000 := by omega
  have hwrite : s.dev.pageWrite w (pagePwm n) r.offset 4 v.toNat = s.dev.pwmWrite n k v.toNat false :=
    s.dev.pageWrite_pwmReg w (p := pagePwm n) rfl v.toNat hreg
  refine ⟨fun hacc hcommitted => ?_, fun hacc hcommitted => ?_, fun hclk hpend => ?_, fun e rest hclk hpend hdue hlive hkind hval => ?_⟩
  · refine hacc.gives (pwmPage_aligned n) hofs (pageAt_pwmPage n) v.isLt rfl hwrite ?_
    rw [Dev.wrote_f, Dev.wrote_mem]
    obtain h | ⟨y, h | h⟩ := Dev.pwmWrite_under (v := v.toNat) hcommitted
    · rw [h]
      exact ⟨rfl, rfl⟩
    · rw [h]
      exact ⟨rfl, rfl⟩
    · rw [h]
      exact ⟨s.dev.lateCounted_shadow n k, rfl⟩
  · exact hacc.wrote (pwmPage_aligned n) hofs (pageAt_pwmPage n) v.isLt rfl (hwrite.trans (Dev.pwmWrite_alone hcommitted))
  · exact does_of_clocked (f := fun d => d.compareActivate n) hclk rfl (Dev.compareActivate_none hpend)
  · obtain ⟨hrest, hcatch⟩ := s.dev.compareActive_pwm (n := n) e rest
    have hact := Dev.compareActivate_due hpend hdue hlive
    cases hpassed : s.dev.comparePassed n e && !s.dev.on (pwmPage n) F.PWM_CTRL_CATCHUP with
    | true =>
      rw [hpassed, if_pos rfl] at hact
      refine gives_of_clocked (f := fun d => d.compareActivate n) hclk rfl hact ⟨?_, ?_, ?_, ?_, fun _ => ⟨Dev.edgePassed_status .., Dev.edgePassed_irq ..⟩⟩
      · exact (Dev.edgePassed_active _ _ e.reg).trans (Dev.compareActive_value hval rest)
      · rw [Dev.edgePassed_pwm, hrest]
      · rw [Dev.edgePassed_mem, Dev.compareActive, Dev.mem_setPwm, Dev.setF_mem]
      · rw [Dev.edgePassed_pwm]
        exact hcatch
    | false =>
      rw [hpassed, if_neg (by decide)] at hact
      refine gives_of_clocked (f := fun d => d.compareActivate n) hclk rfl hact ⟨Dev.compareActive_value hval rest, hrest, ?_, hcatch, fun h => ?_⟩
      · rw [Dev.compareActive, Dev.mem_setPwm, Dev.setF_mem]
      · exact absurd (hpassed.symm.trans h) (by decide)

theorem pwmSyncAndForce : PwmSyncAndForce := by
  intro s n d p x
  refine ⟨fun hclk hnow => ?_, fun hclk hdue hlive hin hstart hacted hwrap hslip hzero hlt => ?_, fun w f off hacc => ?_⟩
  · exact does_of_clocked (f := fun d => d.syncLoad n) hclk rfl (by rw [Dev.syncLoad, hnow, if_neg (by decide), Dev.syncPast])
  · refine gives_of_clocked (f := fun d => d.syncLoad n) hclk rfl (Dev.syncLoad_slips (Dev.syncNow_of hdue hlive hin hstart hacted) hwrap hslip hzero)
      ⟨?_, ?_, ?_, ?_, ?_⟩
    · rw [Dev.pwmCnt, Dev.syncCounting, Dev.f_setF_same _ _ _ _ (by decide)]
      exact Nat.mod_eq_of_lt hlt
    · rw [Dev.syncCounting, Dev.on_setF_apart _ _ rfl, Dev.setB, Dev.on_setF_apart _ _ rfl, Dev.setB, Dev.on_setF_apart _ _ rfl, Dev.syncSlipped_status]
    · rw [Dev.syncCounting, Dev.bitAt_setF_apart _ _ rfl, Dev.setB, Dev.bitAt_setF_apart _ _ rfl, Dev.setB, Dev.bitAt_setF_apart _ _ rfl,
        Dev.syncSlipped_irq]
    · rw [Dev.syncCounting, Dev.pwm_setF, Dev.pwm_setB, Dev.pwm_setB, Dev.syncSlipped_pwm]
    · rw [Dev.syncCounting, Dev.setF_mem, Dev.setB_mem, Dev.setB_mem, Dev.syncSlipped, Dev.mem_setPwm, Dev.irq_mem, Dev.setB_mem, Dev.syncPast, Dev.mem_setPwm]
  · obtain ⟨y, hstore, hoff, hforce⟩ := s.dev.storeAll_xctrl n f off
    have hv : 2 * f.toNat + b2n off < 2 ^ (8 * 4) := by
      have := f.isLt
      have hoff : b2n off ≤ 1 := by cases off <;> decide
      omega
    refine hacc.gives (pwmPage_aligned n) (by decide) (pageAt_pwmPage n) hv rfl (s.dev.pageWrite_pwmXctrl w (p := pagePwm n) rfl _) ?_
    rw [hstore]
    refine ⟨?_, ?_, ?_, ?_, fun hen => ?_⟩
    · rw [Dev.wrote_f, Dev.refForce_f, Dev.f, show p + F.PWM_XCTRL_REF_FORCE.ofs = pwmPage n + 0x80 from rfl, Dev.reg_setReg_same]
      exact hforce
    · rw [Dev.wrote_on, Dev.on, Dev.refForce_f, Dev.f, show p + F.PWM_XCTRL_PERIOD_OFF.ofs = pwmPage n + 0x80 from rfl, Dev.reg_setReg_same]
      exact (congrArg (· != 0) hoff).trans (by cases off <;> rfl)
    · rw [Dev.wrote_on, Dev.on, Dev.refForce_f, Dev.f_setReg_apart _ _ (by decide), Dev.on]
    · rw [Dev.wrote_mem, Dev.refForce_mem, Dev.setReg_mem]
    · rw [Dev.wrote_pwm]
      refine Dev.refForce_enabled (d := s.dev.setReg (pwmPage n + 0x80) y) ?_ _
      rw [Dev.en, Dev.on, show (pagePwm n).inst = n.val from rfl, Dev.f_setReg_apart (g := F.H_EN) _ _ (by decide), ← Dev.on, ← Dev.en]
      exact hen

/-- Settles O25: a write of a compare is one of four, an activated one is judged, and a sync pulse or a force writes its own generator. -/
theorem pwmRegisters : Obligations.PwmRegisters := ⟨pwmCompareWrites, pwmSyncAndForce⟩

end Sys2Proof.Claims
end

section
/-!
The comparators (11 R245-R249): their raw outputs, their filters and their latches.
-/
namespace Sys2Proof.Machine

/-! What the Shutter matrix leaves of the comparators -/

section
variable {d e : Dev} (h : d.MatrixKeeps e)
include h

theorem Dev.MatrixKeeps.mem : e.mem = d.mem := (congrArg Dev.mem h.rest : _)

theorem Dev.MatrixKeeps.time : e.time = d.time := (congrArg Dev.time h.rest : _)

theorem Dev.MatrixKeeps.cmps : e.cmps = d.cmps := (congrArg Dev.cmps h.rest : _)

theorem Dev.MatrixKeeps.ains : e.ains = d.ains := (congrArg Dev.ains h.rest : _)

end

theorem cmpPage_reg {n o : Nat} (hn : n < 384) (ho : o < 0x1000) : ¬ matrixReg (cmpPage n + o) := by
  simp only [matrixReg, cmpPage, pgCmp]
  omega

theorem cmpK_lt (n : Nat) : cmpK n < 6 := by
  rw [cmpK]
  omega

/-! Raw outputs (11 R245) -/

/-- The state of comparator n. -/
def Dev.comparator (d : Dev) (n : Nat) : Cmp := Table.get {} d.cmps n

theorem Dev.cmpUp_congr {d e : Dev} (h : e.regs = d.regs) (n : Nat) : e.cmpUp n = d.cmpUp n := by
  have hreg (a : Nat) : e.reg a = d.reg a := by rw [Dev.reg, h, Dev.reg]
  rw [Dev.cmpUp, Dev.live_congr (hreg _) (hreg _) (hreg _), Dev.cmpCfg, Dev.f_of_regs h, ← Dev.cmpCfg, ← Dev.cmpUp]

theorem Dev.cmpSettling_congr {d e : Dev} (h : e.regs = d.regs) (n : Nat) : e.cmpSettling n = d.cmpSettling n := by
  rw [Dev.cmpSettling, Dev.reg, h, ← Dev.reg, ← Dev.cmpSettling]

theorem Dev.cmpRawFor_congr {d e : Dev} (h : e.regs = d.regs) {n : Nat} (hc : e.comparator n = d.comparator n) (v : Int) :
    e.cmpRawFor n v = d.cmpRawFor n v := by
  rw [Dev.comparator, Dev.comparator] at hc
  unfold Dev.cmpRawFor Dev.cmpCfg
  rw [Dev.f_of_regs h, Dev.f_of_regs h, hc]

section
variable (d : Dev) (n i : Nat)

/-- The comparator once it has followed its input. -/
def Dev.followed (v : Int) : Cmp :=
  if d.cmpUp n = true ∧ d.cmpSettling n = false ∧ d.cmpRawFor n v ≠ (d.comparator n).raw then
    { d.comparator n with raw := d.cmpRawFor n v, edges := (d.comparator n).edges ++ [(d.tick + 2, d.cmpRawFor n v)] }
  else d.comparator n

/-- A comparator that follows its input changes no more than the comparators. -/
theorem Dev.cmpFollow_eq : ∃ t, d.cmpFollow n = { d with cmps := t } := by
  unfold Dev.cmpFollow
  extract_lets c b
  split
  · exact ⟨_, rfl⟩
  split
  · exact ⟨_, rfl⟩
  · exact ⟨_, rfl⟩

theorem Dev.cmpFollow_same : (d.cmpFollow n).comparator n = d.followed n (Table.get 0 d.ains (n / 2)) := by
  unfold Dev.cmpFollow Dev.followed
  extract_lets c b
  by_cases h : (!d.cmpUp n || d.cmpSettling n) = true
  · rw [if_pos h, if_neg]
    rintro ⟨hup, hsettling, -⟩
    rw [hup, hsettling] at h
    exact absurd h (by decide)
  · rw [Bool.not_eq_true, Bool.or_eq_false_iff, Bool.not_eq_false'] at h
    rw [h.1, h.2, if_neg (by decide)]
    by_cases hb : b = c.raw
    · rw [if_pos hb, if_neg fun hne => hne.2.2 hb]
    · rw [if_neg hb, if_pos ⟨rfl, rfl, hb⟩]
      exact Table.get_put_same ..

theorem Dev.cmpFollow_other (h : n ≠ i) : (d.cmpFollow n).comparator i = d.comparator i := by
  unfold Dev.cmpFollow
  extract_lets c b
  split
  · rfl
  split
  · rfl
  · exact Table.get_put_ne _ _ _ _ h

theorem Dev.followed_congr {d e : Dev} {n : Nat} (h : e.regs = d.regs) (hc : e.comparator n = d.comparator n) (ht : e.time = d.time) (v : Int) :
    e.followed n v = d.followed n v := by
  rw [Dev.followed, Dev.cmpUp_congr h, Dev.cmpSettling_congr h, Dev.cmpRawFor_congr h hc, hc, Dev.tick, ht, ← Dev.tick, ← Dev.followed]

end

section
variable {d : Dev} {n : Nat}

theorem Dev.cmpFollow_regs (d : Dev) (n : Nat) : (d.cmpFollow n).regs = d.regs := by
  obtain ⟨t, h⟩ := d.cmpFollow_eq n
  rw [h]

theorem Dev.cmpFollow_ains (d : Dev) (n : Nat) : (d.cmpFollow n).ains = d.ains := by
  obtain ⟨t, h⟩ := d.cmpFollow_eq n
  rw [h]

theorem Dev.cmpFollow_time (d : Dev) (n : Nat) : (d.cmpFollow n).time = d.time := by
  obtain ⟨t, h⟩ := d.cmpFollow_eq n
  rw [h]

theorem Dev.cmpFollow_mem (d : Dev) (n : Nat) : (d.cmpFollow n).mem = d.mem := by
  obtain ⟨t, h⟩ := d.cmpFollow_eq n
  rw [h]

/-- The device whose analogue input has changed, before its comparators follow. -/
def Dev.inputSet (d : Dev) (n : Nat) (v : Int) : Dev := { d with ains := Table.put 0 d.ains (n / 2) v }

/-- Both comparators of the input have followed it. -/
def Dev.inputFollowed (d : Dev) (n : Nat) (v : Int) : Dev := ((d.inputSet n v).cmpFollow (2 * (n / 2))).cmpFollow (2 * (n / 2) + 1)

theorem Dev.comparatorChange_eq (d : Dev) (n : Nat) (v : Int) : d.comparatorChange n v = (d.inputFollowed n v).shutter := rfl

theorem Dev.inputFollowed_ains (d : Dev) (n : Nat) (v : Int) : Table.get 0 (d.inputFollowed n v).ains (n / 2) = v := by
  rw [Dev.inputFollowed, Dev.cmpFollow_ains, Dev.cmpFollow_ains]
  exact Table.get_put_same ..

theorem Dev.inputFollowed_regs (d : Dev) (n : Nat) (v : Int) : (d.inputFollowed n v).regs = d.regs := by
  rw [Dev.inputFollowed, Dev.cmpFollow_regs, Dev.cmpFollow_regs]
  rfl

theorem Dev.inputFollowed_mem (d : Dev) (n : Nat) (v : Int) : (d.inputFollowed n v).mem = d.mem := by
  rw [Dev.inputFollowed, Dev.cmpFollow_mem, Dev.cmpFollow_mem]
  rfl

/-- The two comparators of an input follow it, and no other. -/
theorem Dev.inputFollowed_comparator (d : Dev) (n i : Nat) (v : Int) :
    (d.inputFollowed n v).comparator i = if i / 2 = n / 2 then d.followed i v else d.comparator i := by
  have hset (j : Nat) : (d.inputSet n v).followed j v = d.followed j v := Dev.followed_congr rfl rfl rfl v
  have hinput (e : Dev) (he : e.ains = (d.inputSet n v).ains) : Table.get 0 e.ains (n / 2) = v := by
    rw [he]
    exact Table.get_put_same ..
  obtain rfl | hlow := eq_or_ne i (2 * (n / 2))
  · rw [Dev.inputFollowed, Dev.cmpFollow_other _ _ _ (by omega), Dev.cmpFollow_same, show 2 * (n / 2) / 2 = n / 2 by omega, hinput _ rfl, if_pos rfl, hset]
  obtain rfl | hhigh := eq_or_ne i (2 * (n / 2) + 1)
  · rw [Dev.inputFollowed, Dev.cmpFollow_same, show (2 * (n / 2) + 1) / 2 = n / 2 by omega, hinput _ (Dev.cmpFollow_ains _ _), if_pos rfl,
      Dev.followed_congr (Dev.cmpFollow_regs _ _) (Dev.cmpFollow_other _ _ _ (by omega)) (Dev.cmpFollow_time _ _), hset]
  · rw [Dev.inputFollowed, Dev.cmpFollow_other _ _ _ hhigh.symm, Dev.cmpFollow_other _ _ _ hlow.symm, if_neg (by omega)]
    rfl

end

/-! Latches (11 R249) -/

/-- `e` differs from `d` in the latches of the comparator page p, their stamps and interrupts. -/
structure Dev.LatchWrites (p : Nat) (d e : Dev) : Prop where
  reg : ∀ a, a < p + 0x78 ∨ p + 0x1000 ≤ a → a ≠ p + 0x24 → e.reg a = d.reg a
  rest : { e with regs := d.regs, present := d.present } = d

namespace Dev.LatchWrites

variable {p : Nat} {d e r : Dev}

theorem refl (d : Dev) : LatchWrites p d d := ⟨fun _ _ _ => rfl, rfl⟩

theorem trans (h : LatchWrites p d e) (k : LatchWrites p e r) : LatchWrites p d r :=
  ⟨fun a ha hirq => (k.reg a ha hirq).trans (h.reg a ha hirq),
    (congrArg (fun x : Dev => { x with regs := d.regs, present := d.present }) k.rest).trans h.rest⟩

theorem setReg {a : Nat} (ha : p + 0x78 ≤ a ∧ a < p + 0x1000 ∨ a = p + 0x24) (v : W32) : LatchWrites p d (d.setReg a v) :=
  ⟨fun _ hb hirq => Dev.reg_setReg_ne d v (by omega), rfl⟩

theorem setF {f : Fld} (hf : 0x78 ≤ f.ofs ∧ f.ofs < 0x1000 ∨ f.ofs = 0x24) (x : Nat) : LatchWrites p d (d.setF p f x) :=
  setReg (by omega) _

theorem setR64 {o : Nat} (ho : 0x78 ≤ o ∧ o + 4 < 0x1000) (v : Nat) : LatchWrites p d (d.setR64 p o v) :=
  .trans (setReg (by omega) _) (setReg (by omega) _)

theorem act (k i : Nat) : LatchWrites p d (d.act k i) := ⟨fun _ _ _ => rfl, rfl⟩

theorem cmpLatchFollow (n : Nat) : LatchWrites (cmpPage n) d (d.cmpLatchFollow n) := by
  have hk := cmpK_lt n
  unfold Dev.cmpLatchFollow
  extract_lets p k was src now
  split
  · exact .trans (setF (.inl (by simp)) _) (.trans (setR64 (by omega) _) (setF (.inr rfl) _))
  · exact setF (.inl (by simp)) _

theorem cmpLatchClear (n : Nat) : LatchWrites (cmpPage n) d (d.cmpLatchClear n) := .trans (act _ _) (cmpLatchFollow n)

theorem mem (h : LatchWrites p d e) : e.mem = d.mem := (congrArg Dev.mem h.rest : _)

theorem sys (h : LatchWrites p d e) : e.sys = d.sys := (congrArg Dev.sys h.rest : _)

theorem cmps (h : LatchWrites p d e) : e.cmps = d.cmps := (congrArg Dev.cmps h.rest : _)

/-- The source of a latch does not depend on the latches. -/
theorem cmpLatchSrc {n : Nat} (h : LatchWrites (cmpPage n) d e) : e.cmpLatchSrc n = d.cmpLatchSrc n := by
  have hk := cmpK_lt n
  have hp : 0xE2000000 ≤ cmpPage n := by
    simp only [cmpPage, pgCmp]
    omega
  have hreg {o : Nat} (ho : o < 0x78) (hirq : o ≠ 0x24) : e.reg (cmpPage n + o) = d.reg (cmpPage n + o) := h.reg _ (by omega) (by omega)
  have hpwr {o : Nat} (ho : o < 0x100) : e.reg (pgPwr + o) = d.reg (pgPwr + o) := h.reg _ (by simp only [pgPwr]; omega) (by simp only [pgPwr]; omega)
  have hcfg {f : Fld} (hf : f.ofs = 0x40) : e.cmpCfg n f = d.cmpCfg n f := by
    rw [Dev.cmpCfg, Dev.f_congr (hreg (by simp only [Fld.at]; omega) (by simp only [Fld.at]; omega)), ← Dev.cmpCfg]
  have hup : e.cmpUp n = d.cmpUp n := by
    rw [Dev.cmpUp, Dev.live_congr (hpwr (by decide)) (hpwr (by decide)) (hreg (by decide) (by decide)), hcfg rfl, ← Dev.cmpUp]
  unfold Dev.cmpLatchSrc
  rw [hcfg rfl, Dev.cmpSynced, Dev.cmpFilt, hup, hreg (by decide) (by decide), h.sys, ← Dev.cmpSynced, ← Dev.cmpFilt]

end Dev.LatchWrites

section
variable (d : Dev) {n i : Nat}

/-- A latch that is cleared takes the level of its source. -/
theorem Dev.cmpLatchClear_same : bitAt ((d.cmpLatchClear n).reg (cmpPage n + 0x78)) (cmpK n) = d.cmpLatchSrc n := by
  have hk := cmpK_lt n
  have hsrc : (d.act 2 n).cmpLatchSrc n = d.cmpLatchSrc n := (Dev.LatchWrites.act 2 n).cmpLatchSrc
  have hacted : (d.act 2 n).acted 2 n = true := by
    rw [Dev.acted, Dev.act]
    exact List.contains_iff_mem.mpr List.mem_cons_self
  unfold Dev.cmpLatchClear Dev.cmpLatchFollow
  extract_lets p k was src now
  have hnow : now = d.cmpLatchSrc n := by
    rw [show now = ((was && !(d.act 2 n).acted 2 n) || (d.act 2 n).cmpLatchSrc n) from rfl, hacted, hsrc, Bool.not_true, Bool.and_false, Bool.false_or]
  rw [hnow]
  split
  next h =>
    rw [Bool.and_eq_true, Bool.and_eq_true] at h
    rw [Dev.irq, Dev.bitAt_setF_apart _ _ rfl, Dev.setR64, Dev.reg_setReg_ne _ _ (by omega), Dev.reg_setReg_ne _ _ (by omega)]
    exact (Dev.bitAt_setF_same _ true (by omega)).trans h.1.1.symm
  · exact Dev.bitAt_setF_same _ _ (by omega)

/-- Other latches of the page stay. -/
theorem Dev.cmpLatchFollow_other (h : cmpK n ≠ i) : bitAt ((d.cmpLatchFollow n).reg (cmpPage n + 0x78)) i = bitAt (d.reg (cmpPage n + 0x78)) i := by
  have hk := cmpK_lt n
  have hapart : (⟨0x78, cmpK n, 1⟩ : Fld).apart ⟨0x78, i, 1⟩ = true := by
    simp only [Fld.apart, Bool.or_eq_true, decide_eq_true_eq]
    omega
  unfold Dev.cmpLatchFollow
  extract_lets p k was src now
  split
  · rw [Dev.irq, Dev.bitAt_setF_apart _ _ rfl, Dev.setR64, Dev.reg_setReg_ne _ _ (by omega), Dev.reg_setReg_ne _ _ (by omega)]
    exact Dev.bitAt_setF_apart _ _ hapart
  · exact Dev.bitAt_setF_apart _ _ hapart

theorem Dev.cmpLatchClear_other (h : cmpK n ≠ i) : bitAt ((d.cmpLatchClear n).reg (cmpPage n + 0x78)) i = bitAt (d.reg (cmpPage n + 0x78)) i :=
  (d.act 2 n).cmpLatchFollow_other h

end

/-- The comparators of page g are those from 6g on. -/
theorem cmpPage_of_page (g : Nat) {k : Nat} (hk : k < 6) : cmpPage (6 * g + k) = pgCmp (g / 4) (g % 4) ∧ cmpK (6 * g + k) = k := by
  rw [cmpPage, cmpK, show (6 * g + k) / 24 = g / 4 by omega, show (6 * g + k) / 2 % 12 / 3 = g % 4 by omega]
  exact ⟨rfl, by omega⟩

/-- Latches cleared one after the other: each has the level of its source, and the others stay. -/
theorem Dev.cmpLatchClears (g : Nat) {l : List Nat} (hl : ∀ k ∈ l, k < 6) (d : Dev) :
    LatchWrites (pgCmp (g / 4) (g % 4)) d (l.foldl (fun d k => d.cmpLatchClear (6 * g + k)) d) ∧ ∀ i < 6,
      bitAt ((l.foldl (fun d k => d.cmpLatchClear (6 * g + k)) d).reg (pgCmp (g / 4) (g % 4) + 0x78)) i =
        if i ∈ l then d.cmpLatchSrc (6 * g + i) else bitAt (d.reg (pgCmp (g / 4) (g % 4) + 0x78)) i := by
  induction l generalizing d with
  | nil => exact ⟨.refl d, fun _ _ => rfl⟩
  | cons k l ih =>
    have hk := hl k List.mem_cons_self
    obtain ⟨hpage, hbit⟩ := cmpPage_of_page g hk
    have hwrites : LatchWrites (pgCmp (g / 4) (g % 4)) d (d.cmpLatchClear (6 * g + k)) := hpage ▸ .cmpLatchClear (6 * g + k)
    obtain ⟨hrest, hbits⟩ := ih (fun j hj => hl j (List.mem_cons_of_mem k hj)) (d.cmpLatchClear (6 * g + k))
    refine ⟨hwrites.trans hrest, fun i hi => ?_⟩
    obtain ⟨hpage', -⟩ := cmpPage_of_page g hi
    rw [List.foldl_cons, hbits i hi, (hpage'.symm ▸ hwrites : LatchWrites (cmpPage (6 * g + i)) _ _).cmpLatchSrc]
    by_cases hmem : i ∈ l
    · rw [if_pos hmem, if_pos (List.mem_cons_of_mem k hmem)]
    rw [if_neg hmem, ← hpage]
    obtain rfl | hne := eq_or_ne i k
    · rw [if_pos List.mem_cons_self]
      have hsame := d.cmpLatchClear_same (n := 6 * g + i)
      rwa [hbit] at hsame
    · rw [if_neg fun h => (List.mem_cons.mp h).elim hne hmem]
      exact d.cmpLatchClear_other (by omega)

theorem mem_onesOf {v : W32} {n i : Nat} (hi : i < n) : i ∈ onesOf v n ↔ bitAt v i = true := by
  rw [onesOf, List.mem_filter, List.mem_range]
  exact and_iff_right hi

theorem onesOf_lt {v : W32} {n : Nat} : ∀ k ∈ onesOf v n, k < n := fun _ hk => List.mem_range.mp (List.mem_filter.mp hk).1

theorem Dev.pageWrite_cmpLatch (d : Dev) (w : Who) {p : PageInfo} (hk : p.kind = .cmp) (v : Nat) :
    d.pageWrite w p 0x78 4 v = (onesOf (BitVec.ofNat 32 v) 6).foldl (fun (d : Dev) k => d.cmpLatchClear (6 * p.inst + k)) d := by
  rw [Dev.pageWrite, if_neg (by decide), hk]
  simp only [Dev.writeShutter, hk]
  rfl

/-! A filter sample (11 R248) -/

section
variable (d : Dev) (n : Nat)

/-- What a filter makes of the sample that is due. -/
def Dev.sampled : List Bool × Bool :=
  majority (d.cmpCfg n F.CMP_CFG_FILT_M) (d.cmpCfg n F.CMP_CFG_FILT_N) (d.comparator n).window
    (bitAt (d.reg (cmpPage n + 0x74)) (8 + cmpK n)) (bitAt (d.reg (cmpPage n + 0x74)) (cmpK n))

/-- The comparator whose filter has taken its sample. -/
def Dev.filterSet : Dev :=
  { d.setF (cmpPage n) ⟨0x74, 8 + cmpK n, 1⟩ (b2n (d.sampled n).2) with
    cmps := Table.put {} d.cmps n { d.comparator n with window := (d.sampled n).1, sampleAt := d.tick + 2 ^ d.cmpCfg n F.CMP_CFG_FILT_K } }

variable {d n}

theorem Dev.filterSample_due (hdue : d.sampleDue n = true) (hsettling : d.cmpSettling n = false) (hroute : d.sdRoute (n / 24) (n / 2 % 12) = none) :
    d.filterSample n = (((d.filterSet n).cmpLatchFollow n).csLive (n / 24)).shutter := by
  unfold Dev.filterSample
  rw [hdue, hsettling, hroute, if_neg (by decide)]
  rfl

theorem Dev.filterSample_early (h : d.sampleDue n = false) : d.filterSample n = d := by
  unfold Dev.filterSample
  rw [h, if_pos (by decide)]

variable (d n)

theorem Dev.filterSet_comparator : (d.filterSet n).comparator n =
    { d.comparator n with window := (d.sampled n).1, sampleAt := d.tick + 2 ^ d.cmpCfg n F.CMP_CFG_FILT_K } := Table.get_put_same ..

theorem Dev.filterSet_state : bitAt ((d.filterSet n).reg (cmpPage n + 0x74)) (8 + cmpK n) = (d.sampled n).2 ∧
    bitAt ((d.filterSet n).reg (cmpPage n + 0x74)) (cmpK n) = bitAt (d.reg (cmpPage n + 0x74)) (cmpK n) := by
  have hk := cmpK_lt n
  refine ⟨d.bitAt_setF_same _ (by omega), d.bitAt_setF_apart _ ?_⟩
  simp only [Fld.apart, Bool.or_eq_true, decide_eq_true_eq]
  omega

theorem Dev.filterSet_mem : (d.filterSet n).mem = d.mem := rfl

theorem Dev.csLive_mem (c : Nat) : (d.csLive c).mem = d.mem := by rw [Dev.csLive, Dev.setF_mem]

theorem Dev.csLive_cmps (c : Nat) : (d.csLive c).cmps = d.cmps := by rw [Dev.csLive, Dev.setF_cmps]

theorem Dev.csLive_reg {a c : Nat} (ha : a < 0xE7000000) : (d.csLive c).reg a = d.reg a :=
  Dev.reg_setF_ne _ _ _ _ (by simp only [pgCasSrc]; omega)

end

end Sys2Proof.Machine

namespace Sys2Proof.Claims

open Sys2Proof.Machine

theorem pageAt_cmpPage (g : Fin 64) : pageAt (pgCmp (g / 4) (g % 4)) = some (pageCmp g) := by
  revert g
  decide

/-- Settles O28: an input's two comparators follow it, a due sample is a majority, and a cleared latch is its source. -/
theorem comparatorsFollow : Obligations.ComparatorsFollow := by
  intro s n d p k
  have hn : n.val < 384 := n.isLt
  refine ⟨fun v => ?_, fun hclk hdue => ?_, fun hclk hdue hsettling hroute => ?_, fun v hheld => ?_, fun v hup hsettling => ?_, fun w g mask hacc => ?_⟩
  · have hkeeps := Dev.MatrixKeeps.shutter (s.dev.inputFollowed n v)
    refine gives_of_run (f := fun d => d.comparatorChange n v) rfl (Dev.comparatorChange_eq ..) ⟨?_, ?_, ?_, fun i => ?_⟩
    · rw [hkeeps.ains, Dev.inputFollowed_ains]
    · rw [hkeeps.reg _ (cmpPage_reg hn (by decide)), Dev.reg, Dev.inputFollowed_regs, Dev.reg]
    · rw [hkeeps.mem, Dev.inputFollowed_mem]
    · intro c b
      rw [hkeeps.cmps, ← Dev.comparator, Dev.inputFollowed_comparator]
      by_cases hi : i.val / 2 = n.val / 2
      · rw [if_pos hi, Dev.followed]
        exact if_congr ⟨fun h => ⟨hi, h⟩, fun h => h.2⟩ rfl rfl
      · rw [if_neg hi]
        exact (if_neg fun h => hi h.1).symm
  · exact does_of_clocked (f := fun d => d.filterSample n) hclk rfl (Dev.filterSample_early hdue)
  · have hkeeps := Dev.MatrixKeeps.shutter (((s.dev.filterSet n).cmpLatchFollow n).csLive (n / 24))
    have hlatch := Dev.LatchWrites.cmpLatchFollow (d := s.dev.filterSet n) n
    have hpage : cmpPage n + 0x74 < 0xE7000000 := by
      simp only [cmpPage, pgCmp]
      omega
    have hstate : (((s.dev.filterSet n).cmpLatchFollow n).csLive (n / 24)).shutter.reg (cmpPage n + 0x74) = (s.dev.filterSet n).reg (cmpPage n + 0x74) := by
      rw [hkeeps.reg _ (cmpPage_reg hn (by decide)), Dev.csLive_reg _ hpage, hlatch.reg _ (.inl (by omega)) (by omega)]
    have hcmp : Table.get {} (((s.dev.filterSet n).cmpLatchFollow n).csLive (n / 24)).shutter.cmps n = (s.dev.filterSet n).comparator n := by
      rw [hkeeps.cmps, Dev.csLive_cmps, hlatch.cmps, ← Dev.comparator]
    obtain ⟨hfilt, hraw⟩ := s.dev.filterSet_state n
    refine gives_of_clocked (f := fun d => d.filterSample n) hclk rfl (Dev.filterSample_due hdue hsettling hroute) ⟨?_, ?_, ?_, ?_, ?_⟩
    · rw [hstate]
      exact hfilt
    · rw [hcmp, Dev.filterSet_comparator]
      rfl
    · rw [hcmp, Dev.filterSet_comparator]
    · rw [hstate]
      exact hraw
    · rw [hkeeps.mem, Dev.csLive_mem, hlatch.mem, Dev.filterSet_mem]
  · exact does_of_run (f := fun d => d.cmpSettled n v) rfl (by rw [Dev.cmpSettled, if_pos hheld])
  · exact does_of_run (f := fun d => d.cmpSettled n v) rfl (by rw [Dev.cmpSettled, hup, hsettling, if_neg (by decide)])
  · have hmask : mask.toNat < 2 ^ (8 * 4) := by
      have := mask.isLt
      omega
    obtain ⟨hwrites, hbits⟩ := Dev.cmpLatchClears g (onesOf_lt (v := BitVec.ofNat 32 mask.toNat) (n := 6)) s.dev
    refine hacc.gives (pgCmp_aligned _ _) (by decide) (pageAt_cmpPage g) hmask rfl (s.dev.pageWrite_cmpLatch w (p := pageCmp g) rfl _) ⟨?_, fun i => ?_⟩
    · rw [Dev.wrote_mem]
      exact hwrites.mem
    · have hbit : bitAt (BitVec.ofNat 32 mask.toNat) i = bitAt mask i := by
        rw [bitAt, BitVec.getLsbD_ofNat, BitVec.testBit_toNat, bitAt, decide_eq_true (show i.val < 32 by omega), Bool.true_and]
      rw [Dev.wrote_reg, show (pageCmp g).inst = g.val from rfl, hbits i i.isLt, if_congr (mem_onesOf i.isLt) rfl rfl, hbit]

end Sys2Proof.Claims
end

section
/-!
Trip sources and group latches (11 R251-R260): fault balls, virtual trips, the record of a latch and its clear.
-/
namespace Sys2Proof.Machine

/-! Loops whose steps each change one place -/

/-- A loop over the first n places, each step of which changes its own place only. -/
theorem Dev.forN_places {β : Type} {P : Nat → Dev → β} {I : Dev → Prop} {F : Nat → β → β} {g : Nat → Dev → Dev} {d : Dev} (h0 : I d)
    (hI : ∀ i e, I e → I (g i e)) (hother : ∀ i j e, i ≠ j → P j (g i e) = P j e) (hsame : ∀ i e, I e → P i (g i e) = F i (P i e)) (n : Nat) :
    I (d.forN n g) ∧ ∀ j, P j (d.forN n g) = if j < n then F j (P j d) else P j d := by
  induction n with
  | zero => exact ⟨h0, fun _ => rfl⟩
  | succ n ih =>
    obtain ⟨hinv, hplace⟩ := ih
    have hstep : d.forN (n + 1) g = g n (d.forN n g) := by
      rw [Dev.forN, List.range_succ, List.foldl_append, List.foldl_cons, List.foldl_nil, ← Dev.forN]
    rw [hstep]
    refine ⟨hI _ _ hinv, fun j => ?_⟩
    obtain rfl | hne := eq_or_ne n j
    · rw [hsame _ _ hinv, hplace, if_neg (lt_irrefl _), if_pos (Nat.lt_succ_self _)]
    · rw [hother _ _ _ hne, hplace]
      exact if_congr (by omega) rfl rfl

/-! Updates of registers -/

/-- `e` differs from `d` in registers only. -/
def Dev.RegsOnly (d e : Dev) : Prop := ∃ t, e = { d with regs := t }

namespace Dev.RegsOnly

variable {d e r : Dev}

theorem refl (d : Dev) : d.RegsOnly d := ⟨d.regs, rfl⟩

theorem setReg (a : Nat) (v : W32) : d.RegsOnly (d.setReg a v) := ⟨_, rfl⟩

theorem setF (p : Nat) (f : Fld) (x : Nat) : d.RegsOnly (d.setF p f x) := ⟨_, rfl⟩

theorem trans (h : d.RegsOnly e) (k : e.RegsOnly r) : d.RegsOnly r := by
  obtain ⟨t, rfl⟩ := h
  obtain ⟨u, rfl⟩ := k
  exact ⟨u, rfl⟩

theorem setR64 (p o v : Nat) : d.RegsOnly (d.setR64 p o v) := .trans (setReg _ _) (setReg _ _)

end Dev.RegsOnly

/-! Masks of 64 bits -/

section
variable (d : Dev) (p : Nat) {o n m : Nat} (b : Bool)

theorem Dev.bit64_setBit64_same : (d.setBit64 p o n b).bit64 p o n = b := by
  rw [Dev.bit64, Dev.setBit64, Nat.add_assoc]
  exact Dev.bitAt_setF_same d b (Nat.mod_lt n (by decide))

theorem Dev.bit64_setBit64_ne (h : n ≠ m) : (d.setBit64 p o n b).bit64 p o m = d.bit64 p o m := by
  have hapart : (⟨o + 4 * (n / 32), n % 32, 1⟩ : Fld).apart ⟨o + 4 * (m / 32), m % 32, 1⟩ = true := by
    simp only [Fld.apart, Bool.or_eq_true, bne_iff_ne, decide_eq_true_eq]
    omega
  rw [Dev.bit64, Dev.setBit64, Nat.add_assoc, Dev.bitAt_setF_apart _ _ hapart, ← Nat.add_assoc, ← Dev.bit64]

theorem Dev.bit64_setF_apart {f : Fld} (x : Nat) (h : f.ofs < o ∨ o + 8 ≤ f.ofs) (hm : m < 64) : (d.setF p f x).bit64 p o m = d.bit64 p o m := by
  rw [Dev.bit64, Nat.add_assoc, Dev.reg_setF_apart _ _ (by omega), ← Nat.add_assoc, ← Dev.bit64]

theorem Dev.bit64_setBit64_apart {o' : Nat} (h : o + 8 ≤ o' ∨ o' + 8 ≤ o) (hn : n < 64) (hm : m < 64) :
    (d.setBit64 p o n b).bit64 p o' m = d.bit64 p o' m :=
  d.bit64_setF_apart p _ (by dsimp only; omega) hm

theorem Dev.bit64_congr {d e : Dev} (h : ∀ a, p + o ≤ a → a < p + o + 8 → e.reg a = d.reg a) (hm : m < 64) : e.bit64 p o m = d.bit64 p o m := by
  rw [Dev.bit64, h _ (by omega) (by omega), ← Dev.bit64]

end

theorem Dev.wrote_bit64 (d : Dev) (a len v p o n : Nat) : (d.wrote a len v).bit64 p o n = d.bit64 p o n := rfl

/-- The matrix leaves the pages of the fault balls and the virtual trips. -/
theorem Dev.MatrixKeeps.bit64 {d e : Dev} (h : d.MatrixKeeps e) {p o m : Nat} (hp : p = pgFlt ∨ p = pgVt) (ho : o < 0x100) (hm : m < 64) :
    e.bit64 p o m = d.bit64 p o m :=
  Dev.bit64_congr p (fun a _ _ => h.reg a (by rcases hp with rfl | rfl <;> simp only [matrixReg, pgFlt, pgVt] at * <;> omega)) hm

/-! Fault balls (11 R251) -/

section
variable (d : Dev) (n : Nat) (on : Bool)

/-- The ball has its level, before the matrix follows. -/
def Dev.faultShown : Dev := { d with fltBall := Table.put false d.fltBall n on }.setBit64 pgFlt 0x40 n on

/-- FLT_SEEN keeps an active level. -/
def Dev.faultSeen : Dev :=
  if on && !(d.faultShown n on).bit64 pgFlt 0x48 n then ((d.faultShown n on).setBit64 pgFlt 0x48 n true).irq pgFlt 0 else d.faultShown n on

theorem Dev.faultInput_lasting {t : Nat} (h : d.deglitch n ≤ t) : d.faultInput n on t = (d.faultSeen n on).shutter := by
  rw [Dev.faultInput, if_neg (by omega)]
  rfl

theorem Dev.faultInput_short {t : Nat} (h : t < d.deglitch n) : d.faultInput n on t = d := by
  rw [Dev.faultInput, if_pos h]

variable {n}

theorem Dev.faultSeen_level (hn : n < 64) {m : Nat} (hm : m < 64) : (d.faultSeen n on).bit64 pgFlt 0x40 m = if m = n then on else d.bit64 pgFlt 0x40 m := by
  have hshown : (d.faultShown n on).bit64 pgFlt 0x40 m = if m = n then on else d.bit64 pgFlt 0x40 m := by
    rw [Dev.faultShown]
    split
    next h => rw [h, Dev.bit64_setBit64_same]
    next h =>
      rw [Dev.bit64_setBit64_ne _ _ _ (Ne.symm h)]
      rfl
  rw [Dev.faultSeen]
  split
  · rw [Dev.irq, Dev.bit64_setF_apart _ _ _ (by decide) hm, Dev.bit64_setBit64_apart _ _ _ (by decide) hn hm, hshown]
  · exact hshown

theorem Dev.faultSeen_seen (hn : n < 64) : (d.faultSeen n on).bit64 pgFlt 0x48 n = (d.bit64 pgFlt 0x48 n || on) := by
  have hshown : (d.faultShown n on).bit64 pgFlt 0x48 n = d.bit64 pgFlt 0x48 n := by
    rw [Dev.faultShown, Dev.bit64_setBit64_apart _ _ _ (by decide) hn hn]
    rfl
  rw [Dev.faultSeen, hshown]
  cases on with
  | false => rw [Bool.false_and, if_neg (by decide), hshown, Bool.or_false]
  | true =>
    rw [Bool.true_and, Bool.or_true]
    split
    · rw [Dev.irq, Dev.bit64_setF_apart _ _ _ (by decide) hn, Dev.bit64_setBit64_same]
    next h => rw [hshown, Bool.not_eq_true, Bool.not_eq_false'] at *; exact h

theorem Dev.faultSeen_eq (n : Nat) : ∃ t, d.faultSeen n on = { d with fltBall := Table.put false d.fltBall n on, regs := t } := by
  rw [Dev.faultSeen]
  split
  · exact ⟨_, rfl⟩
  · exact ⟨_, rfl⟩

theorem Dev.MatrixKeeps.fltBall {d e : Dev} (h : d.MatrixKeeps e) : e.fltBall = d.fltBall := (congrArg Dev.fltBall h.rest : _)

end

/-! Virtual trips (11 R257) -/

section
variable (d : Dev)

theorem Dev.vtRaise_bit (n : Nat) : (d.vtRaise n).bit64 pgVt 0x50 n = true := by
  rw [Dev.vtRaise]
  exact Dev.bit64_setBit64_same ..

theorem Dev.vtRaise_other {n m : Nat} (h : n ≠ m) : (d.vtRaise n).bit64 pgVt 0x50 m = d.bit64 pgVt 0x50 m := by
  rw [Dev.vtRaise]
  exact Dev.bit64_setBit64_ne _ _ _ h

theorem Dev.vtDrop_bit (n : Nat) : (d.vtDrop n).bit64 pgVt 0x50 n = (d.bit64 pgVt 0x50 n && d.acted 5 n) := by
  rw [Dev.vtDrop]
  split
  next h => rw [h, Bool.and_true]
  next h => rw [Bool.eq_false_iff.mpr h, Bool.and_false, Dev.bit64_setBit64_same]

theorem Dev.vtDrop_other {n m : Nat} (h : n ≠ m) : (d.vtDrop n).bit64 pgVt 0x50 m = d.bit64 pgVt 0x50 m := by
  rw [Dev.vtDrop]
  split
  · rfl
  · exact Dev.bit64_setBit64_ne _ _ _ h

theorem Dev.vtDrop_acted (n k i : Nat) : (d.vtDrop n).acted k i = d.acted k i := by
  rw [Dev.vtDrop]
  split <;> rfl

theorem Dev.vtSet_bits (mask : W64) {m : Nat} (hm : m < 64) : (d.vtSet mask).bit64 pgVt 0x50 m = (d.bit64 pgVt 0x50 m || bitAt mask m) := by
  have hbits := (Dev.forN_places (P := fun m e => e.bit64 pgVt 0x50 m) (I := fun _ => True) (F := fun i b => b || bitAt mask i)
    (g := fun n d => if bitAt mask n then d.vtRaise n else d) (d := d) trivial (fun _ _ _ => trivial) (fun i j e hij => ?_) (fun i e _ => ?_) 64).2 m
  · rw [if_pos hm] at hbits
    rw [Dev.vtSet, (Dev.MatrixKeeps.shutter _).bit64 (.inr rfl) (by decide) hm]
    exact hbits
  · split
    · exact e.vtRaise_other hij
    · rfl
  · split
    next h => rw [e.vtRaise_bit, h, Bool.or_true]
    next h => rw [Bool.eq_false_iff.mpr h, Bool.or_false]

theorem Dev.vtClr_bits (mask : W64) {m : Nat} (hm : m < 64) :
    (d.vtClr mask).bit64 pgVt 0x50 m = (d.bit64 pgVt 0x50 m && !(bitAt mask m && !d.acted 5 m)) := by
  have hbits := (Dev.forN_places (P := fun m e => e.bit64 pgVt 0x50 m) (I := fun e => ∀ i, e.acted 5 i = d.acted 5 i)
    (F := fun i b => b && !(bitAt mask i && !d.acted 5 i)) (g := fun n d => if bitAt mask n then d.vtDrop n else d) (d := d) (fun _ => rfl)
    (fun i e he => ?_) (fun i j e hij => ?_) (fun i e he => ?_) 64).2 m
  · rw [if_pos hm] at hbits
    rw [Dev.vtClr, (Dev.MatrixKeeps.shutter _).bit64 (.inr rfl) (by decide) hm]
    exact hbits
  · split
    · exact fun j => (e.vtDrop_acted i 5 j).trans (he j)
    · exact he
  · split
    · exact e.vtDrop_other hij
    · rfl
  · split
    next h => rw [e.vtDrop_bit, he, h, Bool.true_and, Bool.not_not]
    next h => rw [Bool.eq_false_iff.mpr h, Bool.false_and, Bool.not_false, Bool.and_true]

end

/-- The mask of a write of one half of VT_SET or VT_CLR. -/
theorem bitAt_half (hi : Bool) (v : W32) {m : Nat} (hm : m < 64) :
    bitAt (BitVec.ofNat 64 (v.toNat * 2 ^ (8 * (4 * b2n hi)))) m = (m / 32 == b2n hi && bitAt v (m % 32)) := by
  rw [bitAt, bitAt, BitVec.getLsbD_ofNat, decide_eq_true hm, Bool.true_and, Nat.testBit_mul_two_pow, BitVec.testBit_toNat]
  cases hi
  · rw [show b2n false = 0 from rfl]
    by_cases h : m < 32
    · rw [show m / 32 = 0 by omega, Nat.mod_eq_of_lt h]
      rfl
    · rw [show m / 32 = 1 by omega, BitVec.getLsbD_of_ge _ _ (by omega), Bool.and_false]
      rfl
  · rw [show b2n true = 1 from rfl]
    by_cases h : m < 32
    · rw [show m / 32 = 0 by omega, decide_eq_false (by omega)]
      rfl
    · rw [show m / 32 = 1 by omega, decide_eq_true (by omega), show m % 32 = m - 32 by omega]
      rfl

theorem Dev.pageWrite_vt (d : Dev) (w : Who) {p : PageInfo} (hk : p.kind = .vt) {o : Nat} (ho : 0x40 ≤ o) (v : Nat) : d.pageWrite w p o 4 v =
    if o = 0x40 ∨ o = 0x44 then d.vtSet (BitVec.ofNat 64 ((BitVec.ofNat 32 v).toNat * 2 ^ (8 * (o - 0x40))))
    else if o = 0x48 ∨ o = 0x4C then d.vtClr (BitVec.ofNat 64 ((BitVec.ofNat 32 v).toNat * 2 ^ (8 * (o - 0x48))))
    else if o = 0x60 then (if d.en p.base then d.clearGroups (onesOf (BitVec.ofNat 32 v) 24) else d) else (d.storeAll p o 4 v).shutter := by
  rw [Dev.pageWrite, if_neg (by omega), hk]
  simp only [Dev.writeShutter, hk]

theorem Dev.pageWrite_groupClear (d : Dev) (w : Who) {p : PageInfo} (hk : p.kind = .group) : d.pageWrite w p 0xAC 4 1 = d.clearGroups [p.inst] := by
  rw [Dev.pageWrite, if_neg (by decide), hk]
  simp only [Dev.writeShutter, hk]
  rw [if_pos trivial, if_pos (by decide)]

/-! The record of a latch (11 R255) -/

section
variable (d : Dev) (g : Nat)

/-- The group whose latch is recorded. -/
def Dev.group : Group := Table.get {} d.groups g

/-- The cause that a record holds. -/
def Dev.latchCause : Nat := if (d.group g).spFail then 0x219 else (d.activeSources g (fun _ => false)).head?.getD 0x3FF

/-- The registers once a latch is recorded. -/
def Dev.causeSet : Dev :=
  ((((((d.setF (pgGroup g) F.SG_CAUSE_SRC (d.latchCause g)).setB (pgGroup g) F.SG_CAUSE_CLOCKLESS (d.group g).clockless).setB (pgGroup g)
    F.SG_CAUSE_VALID true).setR64 (pgGroup g) 0xB8 d.count).inc (pgGroup g) F.SG_TRIP_CNT_TRIPS).irq (pgGroup g) 0)

variable {d g}

theorem Dev.latchRecord_due (hrec : (d.group g).recording = true) (hdue : (d.group g).due ≤ d.tick) :
    d.latchRecord g = { d.causeSet g with groups := Table.put {} (d.causeSet g).groups g {} } := by
  unfold Dev.latchRecord
  extract_lets r p src
  rw [show r.recording = true from hrec, show decide (d.tick < r.due) = false from decide_eq_false (Nat.not_lt.mpr hdue), if_neg (by decide)]
  rfl

theorem Dev.latchRecord_early (h : (d.group g).recording = false ∨ d.tick < (d.group g).due) : d.latchRecord g = d := by
  unfold Dev.latchRecord
  extract_lets r p src
  refine if_pos ?_
  rcases h with h | h
  · rw [show r.recording = false from h]
    rfl
  · rw [show decide (d.tick < r.due) = true from decide_eq_true h, Bool.or_true]

variable (d g)

theorem Dev.causeSet_cause : (d.causeSet g).f (pgGroup g) F.SG_CAUSE_SRC = d.latchCause g % 2 ^ F.SG_CAUSE_SRC.width := by
  rw [Dev.causeSet, Dev.irq, Dev.f_setF_apart _ _ rfl, Dev.inc, Dev.f_setF_apart _ _ rfl, Dev.f_setR64_apart _ _ rfl, Dev.setB, Dev.f_setF_apart _ _ rfl,
    Dev.setB, Dev.f_setF_apart _ _ rfl, Dev.f_setF_same _ _ _ _ (by decide)]

theorem Dev.causeSet_clockless : (d.causeSet g).on (pgGroup g) F.SG_CAUSE_CLOCKLESS = (d.group g).clockless := by
  rw [Dev.on, Dev.causeSet, Dev.irq, Dev.f_setF_apart _ _ rfl, Dev.inc, Dev.f_setF_apart _ _ rfl, Dev.f_setR64_apart _ _ rfl, Dev.setB,
    Dev.f_setF_apart _ _ rfl, ← Dev.on, Dev.on_setB_same _ _ _ _ rfl (by decide)]

theorem Dev.causeSet_valid : (d.causeSet g).on (pgGroup g) F.SG_CAUSE_VALID = true := by
  rw [Dev.on, Dev.causeSet, Dev.irq, Dev.f_setF_apart _ _ rfl, Dev.inc, Dev.f_setF_apart _ _ rfl, Dev.f_setR64_apart _ _ rfl, ← Dev.on,
    Dev.on_setB_same _ _ _ _ rfl (by decide)]

theorem Dev.causeSet_time : (d.causeSet g).r64 (pgGroup g) 0xB8 = d.count := by
  have hcount : d.count < 2 ^ 64 := d.time.count.isLt
  rw [Dev.causeSet, Dev.irq, Dev.r64_setF_apart _ _ rfl, Dev.inc, Dev.r64_setF_apart _ _ rfl, Dev.r64_setR64_same, Nat.mod_eq_of_lt hcount]

theorem Dev.causeSet_eq : d.RegsOnly (d.causeSet g) := by
  rw [Dev.causeSet]
  exact .trans (.trans (.trans (.trans (.trans (.setF _ _ _) (.setF _ _ _)) (.setF _ _ _)) (.setR64 _ _ _)) (.setF _ _ _)) (.setF _ _ _)

/-! What a change of the groups leaves -/

theorem Dev.f_groups (t : Table Group) (p : Nat) (f : Fld) : ({ d with groups := t } : Dev).f p f = d.f p f := rfl

theorem Dev.on_groups (t : Table Group) (p : Nat) (f : Fld) : ({ d with groups := t } : Dev).on p f = d.on p f := rfl

theorem Dev.r64_groups (t : Table Group) (p o : Nat) : ({ d with groups := t } : Dev).r64 p o = d.r64 p o := rfl

theorem Dev.reg_groups (t : Table Group) (a : Nat) : ({ d with groups := t } : Dev).reg a = d.reg a := rfl

end

/-! Clears (11 R258, R259) -/

section
variable (d : Dev) {g : Nat}

/-- A clear of one group that is refused on its own. -/
theorem Dev.clearGroups_refused (hg : g < 24) {r : Nat × Nat} (h1 : d.clearRefusal g [g] = some r) (h0 : d.clearRefusal g [] = some r) :
    d.clearGroups [g] = (d.refuseClear g r).shutter := by
  have hfilter : [g].filter (fun x => (d.clearRefusal x [g]).isNone) = [] := by rw [List.filter_cons_of_neg (by rw [h1]; exact Bool.false_ne_true), List.filter_nil]
  have hnone (k : Nat) : d.acceptedClears k [] = [] := by
    induction k with
    | zero => rfl
    | succ k ih => exact ih
  have hacc : d.acceptedClears 24 [g] = [] := by rw [Dev.acceptedClears, hfilter, hnone]
  unfold Dev.clearGroups
  rw [List.filter_cons_of_pos (by simpa using hg), List.filter_nil]
  extract_lets gs acc refused after
  have hgone : acc = [] := hacc
  have hrefused : refused = [(g, r)] := by
    rw [show refused = gs.filterMap (fun g => if acc.contains g then none else (d.clearRefusal g acc).map (fun r => (g, r))) from rfl, hgone,
      List.filterMap_cons, List.filterMap_nil, h0]
    rfl
  rw [hgone, List.foldl_nil, show after = refused.foldl (fun d e => d.refuseClear e.1 e.2) d from rfl, hrefused, List.foldl_cons, List.foldl_nil]

/-- A clear of one group that is accepted. -/
theorem Dev.clearGroups_accepted (hg : g < 24) (h : d.clearRefusal g [g] = none) : d.clearGroups [g] = (d.clearGroup g).shutter := by
  have hfilter : [g].filter (fun x => (d.clearRefusal x [g]).isNone) = [g] := by rw [List.filter_cons_of_pos (by rw [h]; rfl), List.filter_nil]
  have hacc (k : Nat) : d.acceptedClears k [g] = [g] := by
    induction k with
    | zero => rfl
    | succ k ih => rw [Dev.acceptedClears, hfilter, ih]
  unfold Dev.clearGroups
  rw [List.filter_cons_of_pos (by simpa using hg), List.filter_nil]
  extract_lets gs acc refused after
  have hall : acc = [g] := hacc 24
  have hrefused : refused = [] := by
    rw [show refused = gs.filterMap (fun g => if acc.contains g then none else (d.clearRefusal g acc).map (fun r => (g, r))) from rfl, hall,
      List.filterMap_cons, List.filterMap_nil, if_pos (by simp)]
  rw [hall, List.foldl_cons, List.foldl_nil, show after = refused.foldl (fun d e => d.refuseClear e.1 e.2) d from rfl, hrefused, List.foldl_nil]

/-- No clear is accepted while the safety pair has failed. -/
theorem Dev.acceptedClears_failed (h : d.spFailed = true) (k : Nat) (l : List Nat) : d.acceptedClears (k + 1) l = [] := by
  induction k generalizing l with
  | zero =>
    rw [Dev.acceptedClears, Dev.acceptedClears]
    exact List.filter_eq_nil_iff.mpr fun g _ => by rw [Dev.clearRefusal, h, if_pos rfl]; decide
  | succ k ih => rw [Dev.acceptedClears, ih]

theorem Dev.latched_setF_apart {f : Fld} (x : Nat) (h : f.apart F.GROUP_STATUS_LATCHED = true) (hf : f.ofs < 0x1000) (k : Nat) :
    (d.setF (pgGroup g) f x).latched k = d.latched k := by
  by_cases hk : g = k
  · subst hk
    exact Dev.on_setF_apart _ _ h
  · exact Dev.on_setF_ne _ _ _ _ _ _ (by simp only [pgGroup, F.GROUP_STATUS_LATCHED]; omega)

theorem Dev.latched_refuseClear (r : Nat × Nat) (k : Nat) : (d.refuseClear g r).latched k = d.latched k := by
  have hstatus : ((d.setB (pgGroup g) F.GROUP_STATUS_CLEAR_REFUSED true).irq (pgGroup g) 1).latched k = d.latched k :=
    (Dev.latched_setF_apart _ _ rfl (by decide) k).trans (Dev.latched_setF_apart _ _ rfl (by decide) k)
  unfold Dev.refuseClear
  extract_lets p refused
  split
  · exact hstatus
  · exact ((Dev.latched_setF_apart _ _ rfl (by decide) k).trans ((Dev.latched_setF_apart _ _ rfl (by decide) k).trans
      (Dev.latched_setF_apart _ _ rfl (by decide) k))).trans hstatus

/-- A clear while the safety pair has failed leaves every latch set. -/
theorem Dev.clearGroups_failed (h : d.spFailed = true) (l : List Nat) {k : Nat} (hk : k < 24) (hl : d.latched k = true) :
    (d.clearGroups l).latched k = true := by
  unfold Dev.clearGroups
  extract_lets gs acc refused after
  have hafter : after.latched k = true := foldl_keeps (P := fun e => e.latched k = true) _ _ hl fun x _ e he => (e.latched_refuseClear x.2 k).trans he
  rw [show acc = [] from d.acceptedClears_failed h 23 gs, List.foldl_nil]
  exact after.shutter_grows.stays k hk hafter

/-- The groups whose clears end with the tick. -/
theorem Dev.filter_asked (hg : g < 24) (h : ∀ h < 24, (d.acted 4 h && d.latched h) = true ↔ h = g) :
    (List.range 24).filter (fun h => d.acted 4 h && d.latched h) = [g] := by
  have heq : (List.range 24).filter (fun h => d.acted 4 h && d.latched h) = (List.range 24).filter (· == g) :=
    List.filter_congr fun x hx => by rw [Bool.eq_iff_iff, h x (List.mem_range.mp hx), beq_iff_eq]
  rw [heq]
  clear heq h
  interval_cases g <;> rfl

theorem Dev.clearsEnd_clears (hg : g < 24) (h : ∀ h < 24, (d.acted 4 h && d.latched h) = true ↔ h = g) (hrose : d.acted 3 g = false)
    (hnone : d.activeSources g (fun i => 0x200 ≤ i && i < 0x218 && [g].contains (i - 0x200)) = []) :
    d.clearsEnd = (d.setB (pgGroup g) F.GROUP_STATUS_LATCHED false).shutter := by
  have hfilter : [g].filter (fun x => !d.acted 3 x && (d.activeSources x (fun i => 0x200 ≤ i && i < 0x218 && [g].contains (i - 0x200))).isEmpty) = [g] := by
    rw [List.filter_cons_of_pos (by rw [hrose, hnone]; rfl), List.filter_nil]
  have hok (k : Nat) : d.clearable k [g] = [g] := by
    induction k with
    | zero => rfl
    | succ k ih => rw [Dev.clearable, hfilter, ih]
  unfold Dev.clearsEnd
  rw [d.filter_asked hg h]
  dsimp only
  rw [if_neg (by simp), hok, List.foldl_cons, List.foldl_nil, List.filter_cons_of_neg (by simp), List.filter_nil, List.foldl_nil]

theorem Dev.clearsEnd_retrips (hg : g < 24) (h : ∀ h < 24, (d.acted 4 h && d.latched h) = true ↔ h = g) (hrose : d.acted 3 g = true) :
    d.clearsEnd = (d.retrip g).shutter := by
  have hnil (k : Nat) : d.clearable k [] = [] := by
    induction k with
    | zero => rfl
    | succ k ih => exact ih
  have hok : d.clearable 24 [g] = [] := by
    rw [Dev.clearable, List.filter_cons_of_neg (by rw [hrose]; exact Bool.false_ne_true), List.filter_nil, hnil]
  unfold Dev.clearsEnd
  rw [d.filter_asked hg h]
  dsimp only
  rw [if_neg (by simp), hok, List.foldl_nil, List.filter_cons_of_pos (by simp), List.filter_nil, List.foldl_cons, List.foldl_nil]

end

end Sys2Proof.Machine

namespace Sys2Proof.Claims

open Sys2Proof.Machine

theorem pageAt_vt : pageAt pgVt = some pageVt := by decide

theorem pgVt_aligned : pgVt % 0x1000 = 0 := by decide

theorem tripSources : TripSources := by
  intro s d
  refine ⟨fun n on t ht => ?_, fun n on t ht => ?_, fun w hi v hacc => ?_, fun w hi v hacc => ?_⟩
  · exact does_of_run (f := fun d => d.faultInput n on t) rfl (Dev.faultInput_short _ _ _ ht)
  · have hkeeps := Dev.MatrixKeeps.shutter (s.dev.faultSeen n on)
    obtain ⟨t', hseen⟩ := s.dev.faultSeen_eq on n
    refine gives_of_run (f := fun d => d.faultInput n on t) rfl (Dev.faultInput_lasting _ _ _ ht) ⟨?_, ?_, ?_, fun m hm => ?_, ?_⟩
    · rw [hkeeps.bit64 (.inl rfl) (by decide) n.isLt, Dev.faultSeen_level _ _ n.isLt n.isLt, if_pos rfl]
    · rw [hkeeps.bit64 (.inl rfl) (by decide) n.isLt, Dev.faultSeen_seen _ _ n.isLt]
    · rw [hkeeps.fltBall, hseen, Table.get_put_same]
    · rw [hkeeps.bit64 (.inl rfl) (by decide) m.isLt, Dev.faultSeen_level _ _ n.isLt m.isLt, if_neg (Fin.val_ne_of_ne hm)]
    · rw [hkeeps.mem, hseen]
  · have hexec : exec (.vtSet w hi v) s = s.write w (pgVt + (0x40 + 4 * b2n hi)) 4 v.toNat := by cases hi <;> rfl
    have hwrite : s.dev.pageWrite w pageVt (0x40 + 4 * b2n hi) 4 v.toNat = s.dev.vtSet (BitVec.ofNat 64 (v.toNat * 2 ^ (8 * (4 * b2n hi)))) := by
      rw [s.dev.pageWrite_vt w rfl (by omega), if_pos (by cases hi <;> decide), BitVec.ofNat_toNat, BitVec.setWidth_eq, Nat.add_sub_cancel_left]
    refine hacc.gives pgVt_aligned (by cases hi <;> decide) pageAt_vt v.isLt hexec hwrite fun n => ?_
    rw [Dev.wrote_bit64, Dev.vtSet_bits _ _ n.isLt,
      bitAt_half hi v n.isLt]
  · have hexec : exec (.vtClr w hi v) s = s.write w (pgVt + (0x48 + 4 * b2n hi)) 4 v.toNat := by cases hi <;> rfl
    have hwrite : s.dev.pageWrite w pageVt (0x48 + 4 * b2n hi) 4 v.toNat = s.dev.vtClr (BitVec.ofNat 64 (v.toNat * 2 ^ (8 * (4 * b2n hi)))) := by
      rw [s.dev.pageWrite_vt w rfl (by omega), if_neg (by cases hi <;> decide), if_pos (by cases hi <;> decide), BitVec.ofNat_toNat, BitVec.setWidth_eq,
        Nat.add_sub_cancel_left]
    refine hacc.gives pgVt_aligned (by cases hi <;> decide) pageAt_vt v.isLt hexec hwrite fun n => ?_
    rw [Dev.wrote_bit64, Dev.vtClr_bits _ _ n.isLt,
      bitAt_half hi v n.isLt]

theorem groupLatches : GroupLatches := by
  intro s g d p
  have hg : g.val < 24 := g.isLt
  refine ⟨fun hclk hearly => ?_, fun hclk hrec hdue => ?_, fun w c i hacc h1 h0 => ?_, fun w hacc hnone => ?_, fun hasked => ⟨fun hrose hnone => ?_, fun hrose => ?_⟩,
    fun w gs hacc => ?_, fun w gs hacc hfailed => ?_⟩
  · exact does_of_clocked (f := fun d => d.latchRecord g) hclk rfl (Dev.latchRecord_early hearly)
  · obtain ⟨t, hset⟩ := s.dev.causeSet_eq g
    refine gives_of_clocked (f := fun d => d.latchRecord g) hclk rfl (Dev.latchRecord_due hrec hdue) ⟨?_, ?_, ?_, ?_, ?_, ?_, ?_, ?_⟩
    · rw [Dev.f_groups]
      exact s.dev.causeSet_cause g
    · rw [Dev.on_groups]
      exact s.dev.causeSet_clockless g
    · rw [Dev.on_groups]
      exact s.dev.causeSet_valid g
    · rw [Dev.r64_groups]
      exact s.dev.causeSet_time g
    · rw [Dev.reg_groups]
      exact Dev.bitAt_irq _ (by decide)
    · rw [Table.get_put_same]
    · rw [hset]
    · rw [hset]
  · exact hacc.wrote (pgGroup_aligned g) (by decide) (pageAt_group g) (by decide) rfl
      ((s.dev.pageWrite_groupClear w (p := pageGroup g) rfl).trans (s.dev.clearGroups_refused hg h1 h0))
  · exact hacc.wrote (pgGroup_aligned g) (by decide) (pageAt_group g) (by decide) rfl
      ((s.dev.pageWrite_groupClear w (p := pageGroup g) rfl).trans (s.dev.clearGroups_accepted hg hnone))
  · exact s.dev.clearsEnd_clears hg hasked hrose hnone
  · exact s.dev.clearsEnd_retrips hg hasked hrose
  all_goals
    have hgs : gs.toNat < 2 ^ (8 * 4) := by
      have := gs.isLt
      omega
    have hwrite : s.dev.pageWrite w pageVt 0x60 4 gs.toNat = if s.dev.en pgVt then s.dev.clearGroups (onesOf (gs.setWidth 32) 24) else s.dev := by
      rw [s.dev.pageWrite_vt w rfl (by decide), if_neg (by decide), if_neg (by decide), if_pos rfl, BitVec.ofNat_toNat,
        show pageVt.base = pgVt from rfl]
  · exact hacc.wrote pgVt_aligned (by decide) pageAt_vt hgs rfl hwrite
  · refine hacc.gives pgVt_aligned (by decide) pageAt_vt hgs rfl hwrite fun k hk => ?_
    rw [Dev.latched, Dev.wrote_on, ← Dev.latched]
    split
    · exact s.dev.clearGroups_failed hfailed _ k.isLt hk
    · exact hk

/-- Settles O29: a source sets its own bit, and a clear of a group is refused, accepted or overtaken. -/
theorem tripsAndGroups : Obligations.TripsAndGroups := ⟨tripSources, groupLatches⟩

end Sys2Proof.Claims
end

section
/-!
The timer channels (13 R281-R285): a firing, a write of the compare time, and a capture.
-/
namespace Sys2Proof.Machine

/-! Updates of registers, and what they leave -/

namespace Dev.RegsOnly

variable {d e r : Dev}

theorem ite {c : Prop} [Decidable c] (h : d.RegsOnly e) (k : d.RegsOnly r) : d.RegsOnly (if c then e else r) := by
  split
  · exact h
  · exact k

theorem mem (h : d.RegsOnly e) : e.mem = d.mem := by
  obtain ⟨t, rfl⟩ := h
  rfl

theorem time (h : d.RegsOnly e) : e.time = d.time := by
  obtain ⟨t, rfl⟩ := h
  rfl

theorem count (h : d.RegsOnly e) : e.count = d.count := by rw [Dev.count, h.time, Dev.count]

theorem tick (h : d.RegsOnly e) : e.tick = d.tick := by rw [Dev.tick, h.time, Dev.tick]

theorem present (h : d.RegsOnly e) : e.present = d.present := by
  obtain ⟨t, rfl⟩ := h
  rfl

theorem pulsesOf (h : d.RegsOnly e) (k : Nat) : e.pulsesOf k = d.pulsesOf k := by
  obtain ⟨t, rfl⟩ := h
  rfl

theorem deliveries (h : d.RegsOnly e) : e.deliveries = d.deliveries := by
  obtain ⟨t, rfl⟩ := h
  rfl

theorem tmr (h : d.RegsOnly e) (c ch : Nat) : e.tmr c ch = d.tmr c ch := by
  obtain ⟨t, rfl⟩ := h
  rfl

theorem tioOut (h : d.RegsOnly e) : e.tioOut = d.tioOut := by
  obtain ⟨t, rfl⟩ := h
  rfl

theorem ball (h : d.RegsOnly e) (c pin : Nat) : e.ball c pin = d.ball c pin := by
  obtain ⟨t, rfl⟩ := h
  rfl

end Dev.RegsOnly

/-! A channel's fields -/

/-- A field of the registers of the channels. -/
def Fld.ofChannel (f : Fld) : Bool := decide (0x100 ≤ f.ofs) && decide (f.ofs < 0x140) && decide (f.lsb + f.width ≤ 32)

section
variable (d : Dev) (c ch : Nat)

theorem Dev.tf_setTf_same {f : Fld} (x : Nat) (h : f.ofChannel = true) : (d.setTf c ch f x).tf c ch f = x % 2 ^ f.width := by
  rw [Fld.ofChannel, Bool.and_eq_true, decide_eq_true_eq] at h
  exact Dev.f_setF_same _ _ _ _ h.2

theorem Dev.tf_setTf_apart {f g : Fld} (x : Nat) (h : f.apart g = true) : (d.setTf c ch f x).tf c ch g = d.tf c ch g := by
  refine Dev.f_setF_apart _ _ ?_
  rw [Fld.apart, Bool.or_eq_true, Bool.or_eq_true, bne_iff_ne, decide_eq_true_eq, decide_eq_true_eq] at *
  simp only [Fld.at]
  omega

/-- The interrupts of a page stand outside its channels. -/
theorem Dev.tf_irq {f : Fld} (i : Nat) (h : f.ofChannel = true) : (d.irq (tmrPage c ch) i).tf c ch f = d.tf c ch f := by
  simp only [Fld.ofChannel, Bool.and_eq_true, decide_eq_true_eq] at h
  refine Dev.f_setF_apart _ _ ?_
  rw [Fld.apart, Bool.or_eq_true, Bool.or_eq_true, bne_iff_ne]
  simp only [Fld.at]
  omega

theorem Dev.tf_setR64 {f : Fld} (o v : Nat) (h : f.ofs ≠ o) (h4 : f.ofs ≠ o + 4) :
    (d.setR64 (tmrPage c ch) (o + 0x40 * (ch % 8)) v).tf c ch f = d.tf c ch f := by
  refine Dev.f_setR64_apart _ _ ?_
  rw [Bool.and_eq_true, bne_iff_ne, bne_iff_ne]
  simp only [Fld.at]
  omega

theorem Dev.tf_setTmr (t : Tmr) (f : Fld) : (d.setTmr c ch t).tf c ch f = d.tf c ch f := rfl

theorem Dev.tf_act (k i : Nat) (f : Fld) : (d.act k i).tf c ch f = d.tf c ch f := rfl

theorem Dev.tf_pulse (e : Nat) (f : Fld) : (d.pulse e).tf c ch f = d.tf c ch f := rfl

theorem Dev.tmr_setTmr_same (t : Tmr) : (d.setTmr c ch t).tmr c ch = t := Table.get_put_same ..

theorem Dev.tmrCmp_lt : d.tmrCmp c ch < 2 ^ 64 := d.r64_lt

theorem Dev.tmrCmp_setR64 (v : Nat) : (d.setR64 (tmrPage c ch) (0x108 + 0x40 * (ch % 8)) v).tmrCmp c ch = v % 2 ^ 64 := d.r64_setR64_same v

theorem Dev.tmrCmp_setTf {f : Fld} (x : Nat) (h : f.ofs ≠ 0x108 ∧ f.ofs ≠ 0x10C) : (d.setTf c ch f x).tmrCmp c ch = d.tmrCmp c ch := by
  refine Dev.r64_setF_apart _ _ ?_
  rw [Bool.and_eq_true, bne_iff_ne, bne_iff_ne]
  simp only [Fld.at]
  omega

/-! A firing (13 R281, R282) -/

/-- The ball has been driven by a firing. -/
def Dev.tmrDriven (lvl : Bool) : Dev :=
  let e := (d.act 1 (32 * c + ch)).setTmr c ch { d.tmr c ch with drv := lvl }
  if d.tf c ch F.TMR_CFG_OUT_EN = 1 then e.tioDrive c (d.tf c ch F.TMR_CFG_PIN) lvl else e

theorem Dev.tmrDriven_eq (lvl : Bool) : d.tmrDriven c ch lvl = { (d.act 1 (32 * c + ch)).setTmr c ch { d.tmr c ch with drv := lvl } with
    tioOut := if d.tf c ch F.TMR_CFG_OUT_EN = 1 then d.tioOut ++ [(d.tick + 24, 8 * c + d.tf c ch F.TMR_CFG_PIN, lvl)] else d.tioOut } := by
  unfold Dev.tmrDriven
  extract_lets src e
  split
  · rfl
  · rfl

theorem Dev.tmrDriven_time (lvl : Bool) : (d.tmrDriven c ch lvl).time = d.time := by
  rw [Dev.tmrDriven_eq]
  rfl

theorem Dev.tmrDriven_mem (lvl : Bool) : (d.tmrDriven c ch lvl).mem = d.mem := by
  rw [Dev.tmrDriven_eq]
  rfl

theorem Dev.tmrDriven_pulsesOf (lvl : Bool) (k : Nat) : (d.tmrDriven c ch lvl).pulsesOf k = d.pulsesOf k := by
  rw [Dev.tmrDriven_eq]
  rfl

theorem Dev.tmrDriven_tf (lvl : Bool) (f : Fld) : (d.tmrDriven c ch lvl).tf c ch f = d.tf c ch f := by
  rw [Dev.tmrDriven_eq]
  rfl

theorem Dev.tmrDriven_tmr (lvl : Bool) : (d.tmrDriven c ch lvl).tmr c ch = { d.tmr c ch with drv := lvl } := by
  rw [Dev.tmrDriven_eq]
  exact Table.get_put_same ..

theorem Dev.tmrDriven_landed (lvl : Bool) : (d.tmrDriven c ch lvl).present.landed = d.present.landed ∧
    (d.tmrDriven c ch lvl).present.commits = d.present.commits := by
  rw [Dev.tmrDriven_eq]
  exact ⟨rfl, rfl⟩

/-- The reload stands where no write of the channel has landed. -/
theorem Dev.tmrLanded_none {e : Dev} (hlanded : e.present.landed = d.present.landed) (hcommits : e.present.commits = d.present.commits)
    (h : d.landedAt (tmrCmpAddr c ch) 8 = []) (hc : d.committed (tmrCmpAddr c ch) = false) (v : Nat) : e.tmrLanded c ch v = v := by
  have h' : e.landedAt (tmrCmpAddr c ch) 8 = [] := by rw [Dev.landedAt, hlanded, ← Dev.landedAt, h]
  have hc' : e.committed (tmrCmpAddr c ch) = false := by rw [Dev.committed, hcommits, ← Dev.committed, hc]
  unfold Dev.tmrLanded
  extract_lets a
  rw [show e.committed a = false from hc', if_neg (by decide), show e.landedAt a 8 = [] from h', List.foldl_nil]

/-- The interrupt and the status of a channel that has fired. -/
def Dev.tmrStatus (late off : Bool) : Dev :=
  let e := d.irq (tmrPage c ch) (ch % 8)
  let e := if late then (e.setTf c ch F.TMR_ST_LATE 1).irq (tmrPage c ch) (16 + ch % 8) else e
  if off then e.setTf c ch F.TMR_ST_ARMED 0 else e

/-- The registers of a channel that has fired, with its next compare time. -/
def Dev.tmrMarked (late off : Bool) (next : Nat) : Dev := (d.tmrStatus c ch late off).setR64 (tmrPage c ch) (0x108 + 0x40 * (ch % 8)) next

theorem Dev.tmrStatus_regs (late off : Bool) : d.RegsOnly (d.tmrStatus c ch late off) := by
  unfold Dev.tmrStatus
  extract_lets e e1
  have h1 : d.RegsOnly e1 := .ite (.trans (.setF _ _ _) (.trans (.setF _ _ _) (.setF _ _ _))) (.setF _ _ _)
  exact .ite (h1.trans (.setF _ _ _)) h1

theorem Dev.tmrMarked_regs (late off : Bool) (next : Nat) : d.RegsOnly (d.tmrMarked c ch late off next) :=
  (d.tmrStatus_regs c ch late off).trans (.setR64 _ _ _)

theorem Dev.tmrMarked_irq (late off : Bool) (next : Nat) : bitAt ((d.tmrMarked c ch late off next).reg (tmrPage c ch + 0x24)) (ch % 8) = true := by
  have harmed : ∀ e : Dev, bitAt (e.reg (tmrPage c ch + 0x24)) (ch % 8) = true → bitAt ((e.setTf c ch F.TMR_ST_ARMED 0).reg (tmrPage c ch + 0x24)) (ch % 8) = true :=
    fun e he => by rwa [Dev.setTf, Dev.reg_setF_apart _ _ (by simp only [Fld.at, F.TMR_ST_ARMED]; omega)]
  unfold Dev.tmrMarked Dev.tmrStatus
  extract_lets e e1
  have h : bitAt (e.reg (tmrPage c ch + 0x24)) (ch % 8) = true := d.bitAt_irq (by omega)
  have h1 : bitAt (e1.reg (tmrPage c ch + 0x24)) (ch % 8) = true := by
    unfold e1
    split
    · rw [Dev.irq, Dev.bitAt_setF_apart _ _ (by simp only [Fld.apart, Bool.or_eq_true, decide_eq_true_eq]; omega), Dev.setTf,
        Dev.reg_setF_apart _ _ (by simp only [Fld.at, F.TMR_ST_LATE]; omega), h]
    · exact h
  rw [Dev.setR64, Dev.reg_setReg_ne _ _ (by omega), Dev.reg_setReg_ne _ _ (by omega)]
  split
  · exact harmed _ h1
  · exact h1

theorem Dev.tmrMarked_armed (late off : Bool) (next : Nat) :
    (d.tmrMarked c ch late off next).tf c ch F.TMR_ST_ARMED = if off then 0 else d.tf c ch F.TMR_ST_ARMED := by
  unfold Dev.tmrMarked Dev.tmrStatus
  extract_lets e e1
  have h1 : e1.tf c ch F.TMR_ST_ARMED = d.tf c ch F.TMR_ST_ARMED := by
    unfold e1
    split
    · rw [Dev.tf_irq _ _ _ _ rfl, Dev.tf_setTf_apart _ _ _ _ rfl, Dev.tf_irq _ _ _ _ rfl]
    · exact Dev.tf_irq _ _ _ _ rfl
  rw [Dev.tf_setR64 _ _ _ _ _ (by decide) (by decide)]
  split
  · rw [Dev.tf_setTf_same _ _ _ _ rfl]
    rfl
  · exact h1

theorem Dev.tmrMarked_cmp (late off : Bool) (next : Nat) : (d.tmrMarked c ch late off next).tmrCmp c ch = next % 2 ^ 64 := Dev.tmrCmp_setR64 ..

/-- The compare time that a firing leaves. -/
def Dev.tmrNext : Nat :=
  let cmp := d.atTick.tmrCmp c ch
  let per := d.atTick.tf c ch F.TMR_PER_PER
  if per = 0 then cmp else cmp + ((d.count - cmp) / per + 1) * per

/-- A channel does not fire in this tick. -/
def Dev.tmrIdle : Bool :=
  !d.live (tmrPage c ch) || d.tf c ch F.TMR_CFG_MODE != 2 || d.atTick.tf c ch F.TMR_ST_ARMED != 1 || d.count < d.atTick.tmrCmp c ch ||
    d.acted 1 (32 * c + ch)

variable {d c ch}

theorem Dev.timerFire_idle (h : d.tmrIdle c ch = true) : d.timerFire c ch = d := by
  rw [Dev.tmrIdle] at h
  exact if_pos h

/-- A firing in a tick in which the channel is not armed again and no write of it lands. -/
theorem Dev.timerFire_due (h : d.tmrIdle c ch = false) (harm : (d.tmr c ch).armTick ≠ d.tick + 1)
    (hlanded : d.landedAt (tmrPage c ch + 0x108 + 0x40 * (ch % 8)) 8 = []) (hcommitted : d.committed (tmrPage c ch + 0x108 + 0x40 * (ch % 8)) = false) :
    d.timerFire c ch = (((d.tmrDriven c ch (actLevel (d.tf c ch F.TMR_CFG_ACT) (d.tmr c ch).drv)).pulse (evCas c (48 + ch))).tmrMarked c ch
      (decide (d.atTick.tmrCmp c ch < d.count)) (decide (d.atTick.tf c ch F.TMR_PER_PER = 0)) (d.tmrNext c ch)) := by
  rw [Dev.tmrIdle] at h
  unfold Dev.timerFire
  extract_lets p n v cmp per again lvl src acted driven pulsed late next off
  have hagain : again = false := beq_false_of_ne harm
  rw [if_neg (by rw [Bool.not_eq_true]; exact h)]
  have hdriven : driven = d.tmrDriven c ch lvl := rfl
  have hcount : pulsed.count = d.count := by
    rw [show pulsed.count = driven.count from rfl, hdriven, Dev.count, Dev.tmrDriven_time, Dev.count]
  have hlate : late = if decide (cmp < d.count) then (pulsed.setTf c ch F.TMR_ST_LATE 1).irq p (16 + n) else pulsed := by
    unfold late
    rw [hcount]
    exact if_congr (decide_eq_true_iff).symm rfl rfl
  have hoff : off = (driven.pulse (evCas c (48 + ch))).tmrStatus c ch (decide (cmp < d.count)) (decide (per = 0)) := by
    unfold off
    rw [hagain, Bool.not_false, Bool.and_true, hlate]
    rfl
  have hregs := (driven.pulse (evCas c (48 + ch))).tmrStatus_regs c ch (decide (cmp < d.count)) (decide (per = 0))
  have hpresent : off.present = driven.present := by
    rw [hoff, hregs.present]
    rfl
  have hnext : next = d.tmrNext c ch := by
    have hcount' : late.count = d.count := by
      rw [hlate, apply_ite Dev.count]
      exact (ite_self _).trans hcount
    unfold next
    rw [hcount']
    rfl
  obtain ⟨hlands, hcommits⟩ := d.tmrDriven_landed c ch lvl
  rw [Dev.tmrLanded_none d c ch (by rw [hpresent, hdriven, hlands]) (by rw [hpresent, hdriven, hcommits]) hlanded hcommitted, hoff, hnext, hdriven]
  rfl

/-! A write of the compare time (13 R281) -/

variable (d c ch)

theorem Dev.tmrArm_cmp (v : Nat) : (d.tmrArm c ch v).tmrCmp c ch = v % 2 ^ 64 := by
  rw [Dev.tmrArm, show ∀ e t, (Dev.setTmr e c ch t).tmrCmp c ch = e.tmrCmp c ch from fun _ _ => rfl, Dev.tmrCmp_setTf _ _ _ _ (by decide), Dev.tmrCmp_setR64]

theorem Dev.tmrArm_armed (v : Nat) : (d.tmrArm c ch v).tf c ch F.TMR_ST_ARMED = 1 := by
  rw [Dev.tmrArm, Dev.tf_setTmr, Dev.tf_setTf_same _ _ _ _ rfl]
  rfl

theorem Dev.tmrArm_tick (v : Nat) : ((d.tmrArm c ch v).tmr c ch).armTick = d.tick + 1 := by
  rw [Dev.tmrArm, Dev.tmr_setTmr_same]
  rfl

theorem Dev.tmrArm_mem (v : Nat) : (d.tmrArm c ch v).mem = d.mem := by
  rw [Dev.tmrArm]
  rfl

/-! A capture (13 R284, R285) -/

/-- The ball of a capture channel has taken its level. -/
def Dev.captureBall (lvl : Bool) : Dev :=
  if d.tioDrivers c (d.tf c ch F.TMR_CFG_PIN) (fun q => d.live (pgTmr c q)) = 0 then d.ballSet c (d.tf c ch F.TMR_CFG_PIN) lvl else d

theorem BallIn.set_raw (b : BallIn) (t : Nat) (lvl : Bool) : (b.set t lvl).raw = lvl := by
  rw [BallIn.set]
  split
  · assumption
  · rfl

theorem BallIn.set_sync (b : BallIn) (t : Nat) (lvl : Bool) : (b.set t lvl).sync = b.sync := by
  rw [BallIn.set]
  split <;> rfl

/-- The balls differ only. -/
def Dev.BallsOnly (d e : Dev) : Prop := ∃ t, e = { d with tio := t }

namespace Dev.BallsOnly

variable {d e : Dev} (h : d.BallsOnly e)
include h

theorem regs : e.regs = d.regs := by
  obtain ⟨t, rfl⟩ := h
  rfl

theorem tmr (c ch : Nat) : e.tmr c ch = d.tmr c ch := by
  obtain ⟨t, rfl⟩ := h
  rfl

theorem time : e.time = d.time := by
  obtain ⟨t, rfl⟩ := h
  rfl

theorem tick : e.tick = d.tick := by rw [Dev.tick, h.time, Dev.tick]

theorem mem : e.mem = d.mem := by
  obtain ⟨t, rfl⟩ := h
  rfl

theorem deliveries : e.deliveries = d.deliveries := by
  obtain ⟨t, rfl⟩ := h
  rfl

end Dev.BallsOnly

theorem Dev.captureBall_balls (lvl : Bool) : d.BallsOnly (d.captureBall c ch lvl) := by
  rw [Dev.captureBall]
  split
  · exact ⟨_, rfl⟩
  · exact ⟨_, rfl⟩

/-- A ball's synchronizer shows a new level later only. -/
theorem Dev.captureBall_sync (lvl : Bool) (pin : Nat) : ((d.captureBall c ch lvl).ball c pin).sync = (d.ball c pin).sync := by
  rw [Dev.captureBall]
  split
  · by_cases h : d.tf c ch F.TMR_CFG_PIN = pin
    · rw [h, Dev.ballSet, Dev.ball, Table.get_put_same, BallIn.set_sync]
    · rw [Dev.ballSet, Dev.ball, Table.get_put_ne _ ({} : BallIn) _ _ (show 8 * c + d.tf c ch F.TMR_CFG_PIN ≠ 8 * c + pin by omega), Dev.ball]
  · rfl

/-- A capture that was not read is overrun. -/
def Dev.overrunMarked : Dev :=
  if d.tf c ch F.TMR_ST_NEW = 1 then (d.setTf c ch F.TMR_ST_OVERRUN 1).irq (tmrPage c ch) (8 + ch % 8) else d

theorem Dev.overrunMarked_regs : d.RegsOnly (d.overrunMarked c ch) := by
  unfold Dev.overrunMarked
  exact .ite (.trans (.setF _ _ _) (.setF _ _ _)) (.refl d)

theorem Dev.overrunMarked_level : (d.overrunMarked c ch).tf c ch F.TMR_ST_LEVEL = d.tf c ch F.TMR_ST_LEVEL := by
  unfold Dev.overrunMarked
  split
  · rw [Dev.tf_irq _ _ _ _ rfl, Dev.tf_setTf_apart _ _ _ _ rfl]
  · rfl

theorem Dev.overrunMarked_overrun (h : d.tf c ch F.TMR_ST_NEW = 1) : (d.overrunMarked c ch).tf c ch F.TMR_ST_OVERRUN = 1 := by
  rw [Dev.overrunMarked, if_pos h, Dev.tf_irq _ _ _ _ rfl, Dev.tf_setTf_same _ _ _ _ rfl]
  rfl

/-- The channel at an edge that it captures. -/
def Dev.captureEdge (level : Bool) : Dev :=
  ((d.setTf c ch F.TMR_ST_LEVEL (b2n level)).setTmr c ch { d.tmr c ch with presc := 0 }).act 11 (32 * c + ch)

/-- The channel that has taken the count. -/
def Dev.captureTime : Dev :=
  (((d.setR64 (tmrPage c ch) (0x120 + 0x40 * (ch % 8)) d.count).setTf c ch F.TMR_ST_NEW 1).pulse (evCas c (48 + ch))).irq (tmrPage c ch) (ch % 8)

/-- The channel whose capture is delivered. -/
def Dev.captured (level : Bool) : Dev :=
  (((d.captureEdge c ch level).overrunMarked c ch).captureTime c ch).deliver c 2 ch (d.count % 2 ^ 32) d.count

theorem Dev.captureTime_new : (d.captureTime c ch).tf c ch F.TMR_ST_NEW = 1 := by
  rw [Dev.captureTime, Dev.tf_irq _ _ _ _ rfl, Dev.tf_pulse, Dev.tf_setTf_same _ _ _ _ rfl]
  rfl

theorem Dev.captureTime_status {f : Fld} (hnew : F.TMR_ST_NEW.apart f = true) (hf : f.ofs = 0x128) (h : f.ofChannel = true) :
    (d.captureTime c ch).tf c ch f = d.tf c ch f := by
  rw [Dev.captureTime, Dev.tf_irq _ _ _ _ h, Dev.tf_pulse, Dev.tf_setTf_apart _ _ _ _ hnew, Dev.tf_setR64 _ _ _ _ _ (by omega) (by omega)]

theorem Dev.captureTime_time : (d.captureTime c ch).r64 (tmrPage c ch) (0x120 + 0x40 * (ch % 8)) = d.count := by
  have hcount : d.count < 2 ^ 64 := d.time.count.isLt
  rw [Dev.captureTime, Dev.irq, Dev.r64_setF_apart _ _ (by rw [Bool.and_eq_true, bne_iff_ne, bne_iff_ne]; dsimp only; omega),
    show ∀ (e : Dev) k p o, (e.pulse k).r64 p o = e.r64 p o from fun _ _ _ _ => rfl, Dev.setTf,
    Dev.r64_setF_apart _ _ (by rw [Bool.and_eq_true, bne_iff_ne, bne_iff_ne]; simp only [Fld.at, F.TMR_ST_NEW]; omega), Dev.r64_setR64_same,
    Nat.mod_eq_of_lt hcount]

theorem Dev.captureTime_rest : (d.captureTime c ch).mem = d.mem ∧ (d.captureTime c ch).time = d.time ∧ (d.captureTime c ch).tmr c ch = d.tmr c ch ∧
    (d.captureTime c ch).deliveries = d.deliveries := ⟨rfl, rfl, rfl, rfl⟩

theorem Dev.captured_registers (level : Bool) :
    (d.captured c ch level).r64 (tmrPage c ch) (0x120 + 0x40 * (ch % 8)) = d.count ∧ (d.captured c ch level).tf c ch F.TMR_ST_NEW = 1 ∧
    (d.captured c ch level).tf c ch F.TMR_ST_LEVEL = b2n level ∧ (d.tf c ch F.TMR_ST_NEW = 1 → (d.captured c ch level).tf c ch F.TMR_ST_OVERRUN = 1) := by
  have hcount : ((d.captureEdge c ch level).overrunMarked c ch).count = d.count := ((d.captureEdge c ch level).overrunMarked_regs c ch).count
  have htf (e : Dev) (k i v t : Nat) (f : Fld) : (e.deliver c k i v t).tf c ch f = e.tf c ch f := rfl
  have hedge {f : Fld} (hf : F.TMR_ST_LEVEL.apart f = true) : (d.captureEdge c ch level).tf c ch f = d.tf c ch f := by
    rw [Dev.captureEdge, Dev.tf_act, Dev.tf_setTmr, Dev.tf_setTf_apart _ _ _ _ hf]
  refine ⟨?_, ?_, ?_, fun hnew => ?_⟩
  · rw [Dev.captured, show ∀ (e : Dev) k i v t p o, (e.deliver c k i v t).r64 p o = e.r64 p o from fun _ _ _ _ _ _ _ => rfl, Dev.captureTime_time, hcount]
  · rw [Dev.captured, htf, Dev.captureTime_new]
  · rw [Dev.captured, htf, Dev.captureTime_status _ _ _ rfl rfl rfl, Dev.overrunMarked_level, Dev.captureEdge, Dev.tf_act, Dev.tf_setTmr,
      Dev.tf_setTf_same _ _ _ _ rfl]
    cases level <;> rfl
  · rw [Dev.captured, htf, Dev.captureTime_status _ _ _ rfl rfl rfl, Dev.overrunMarked_overrun]
    rw [hedge rfl, hnew]

theorem Dev.captured_rest (level : Bool) : ((d.captured c ch level).tmr c ch).sampleAt = (d.tmr c ch).sampleAt ∧
    (d.captured c ch level).deliveries = d.deliveries ++ [⟨c, 2, ch, d.count % 2 ^ 32, d.count, (d.tick + 14 + 1) / 2 * 2, false⟩] ∧
    (d.captured c ch level).mem = d.mem := by
  have hregs := (d.captureEdge c ch level).overrunMarked_regs c ch
  obtain ⟨hmem, htime, htmr, hdeliveries⟩ := ((d.captureEdge c ch level).overrunMarked c ch).captureTime_rest c ch
  refine ⟨?_, ?_, ?_⟩
  · rw [Dev.captured, show ∀ (e : Dev) k i v t, (e.deliver c k i v t).tmr c ch = e.tmr c ch from fun _ _ _ _ _ => rfl, htmr, hregs.tmr, Dev.captureEdge,
      show ∀ (e : Dev) k i, (e.act k i).tmr c ch = e.tmr c ch from fun _ _ _ => rfl, Dev.tmr_setTmr_same]
  · rw [Dev.captured, Dev.deliver, hdeliveries, hregs.deliveries, Dev.tick, htime, hregs.time]
    rfl
  · rw [Dev.captured, Dev.deliver, hmem, hregs.mem]
    rfl

variable {d c ch}

theorem Dev.tmrLevel_captures {level : Bool} (hedge : edgeQualifies (d.tf c ch F.TMR_CFG_EDGE) level = true)
    (hpresc : (d.tmr c ch).presc = d.tf c ch F.TMR_CFG_PRESC) : d.tmrLevel c ch level = d.captured c ch level := by
  have hcount : ((d.captureEdge c ch level).overrunMarked c ch).count = d.count := ((d.captureEdge c ch level).overrunMarked_regs c ch).count
  unfold Dev.tmrLevel
  extract_lets p n shown t edge overrun stamped new marked
  rw [show shown.tf c ch F.TMR_CFG_EDGE = d.tf c ch F.TMR_CFG_EDGE from Dev.tf_setTf_apart _ _ _ _ rfl, hedge, if_neg (by decide),
    show shown.tf c ch F.TMR_CFG_PRESC = d.tf c ch F.TMR_CFG_PRESC from Dev.tf_setTf_apart _ _ _ _ rfl, if_neg (by rw [← hpresc]; exact lt_irrefl _)]
  have hmarked : marked = ((d.captureEdge c ch level).overrunMarked c ch).captureTime c ch := rfl
  rw [show marked.count = overrun.count from rfl, show overrun = (d.captureEdge c ch level).overrunMarked c ch from rfl, hcount, hmarked, Dev.captured]

/-- The channel whose sample is taken. -/
def Dev.captureSampled (d : Dev) (c ch run : Nat) : Dev :=
  d.setTmr c ch { d.tmr c ch with sampleAt := d.tick + 2 ^ d.tf c ch F.TMR_CFG_FILT_K, run := run }

theorem Dev.captureSampled_presc (d : Dev) (c ch run : Nat) : ((d.captureSampled c ch run).tmr c ch).presc = (d.tmr c ch).presc := by
  rw [Dev.captureSampled, Dev.tmr_setTmr_same]

theorem Dev.captureSampled_sampleAt (d : Dev) (c ch run : Nat) :
    ((d.captureSampled c ch run).tmr c ch).sampleAt = d.tick + 2 ^ d.tf c ch F.TMR_CFG_FILT_K := by
  rw [Dev.captureSampled, Dev.tmr_setTmr_same]

/-- A due sample that changes the filtered level. -/
theorem Dev.tmrSample_changes (hlive : d.live (tmrPage c ch) = true) (hmode : d.tf c ch F.TMR_CFG_MODE = 1) (hdue : (d.tmr c ch).sampleAt ≤ d.tick)
    {r : Bool × Nat} (hr : ballFilter (d.tf c ch F.TMR_CFG_FILT_N) (d.tf c ch F.TMR_ST_LEVEL == 1) (d.tmr c ch).run
      (d.ball c (d.tf c ch F.TMR_CFG_PIN)).sync = r) (hne : r.1 ≠ (d.tf c ch F.TMR_ST_LEVEL == 1)) :
    d.tmrSample c ch = (d.captureSampled c ch r.2).tmrLevel c ch r.1 := by
  unfold Dev.tmrSample
  extract_lets t lvl s sampled
  rw [hlive, hmode, show decide (d.tick < t.sampleAt) = false from decide_eq_false (Nat.not_lt.mpr hdue), if_neg (by decide)]
  rw [show (s.1 == lvl) = false from beq_false_of_ne (by rw [show s = r from hr]; exact hne), if_neg (by decide),
    show sampled = d.captureSampled c ch s.2 from rfl, show s = r from hr]

theorem Dev.tmrSample_early (h : d.tick < (d.tmr c ch).sampleAt) : d.tmrSample c ch = d := by
  unfold Dev.tmrSample
  extract_lets t
  exact if_pos (by rw [show decide (d.tick < t.sampleAt) = true from decide_eq_true h, Bool.or_true])

/-- A sample leaves the balls as they are. -/
theorem Dev.tmrSample_ball (d : Dev) (c ch k pin : Nat) : (d.tmrSample c ch).ball k pin = d.ball k pin := by
  have hlevel (e : Dev) (b : Bool) : (e.tmrLevel c ch b).ball k pin = e.ball k pin := by
    unfold Dev.tmrLevel
    extract_lets p n shown t edge overrun stamped new marked
    split
    · rfl
    split
    · rfl
    · exact ((edge.overrunMarked_regs c ch).ball k pin).trans rfl
  unfold Dev.tmrSample
  extract_lets t lvl s sampled
  split
  · rfl
  split
  · rfl
  · exact hlevel _ _

end

/-- The page of a channel, and its compare time in it. -/
theorem pageAt_tmrPage (c : Fin 16) (ch : Fin 32) : pageAt (tmrPage c ch) = some (Claims.pageTimer c ch) := by
  have h := pageAt_tmr c ⟨ch / 8, by omega⟩
  exact h

theorem wordAt_timerCmp {p : PageInfo} (hk : p.kind = .timer) {k : Nat} (hlt : k < 8) :
    wordAt p (0x108 + 0x40 * k) = some ⟨0x108, 8, 64, 1, 0, true, [⟨0, 32, .rwl, 0, false⟩]⟩ ∧
    wordAt p (0x108 + 0x40 * k + 4) = some ⟨0x10C, 8, 64, 1, 0, false, [⟨0, 32, .rwl, 0, false⟩]⟩ := by
  have hword (o : Nat) : wordAt p o = findWord .timer o := by
    rw [wordAt, hk, if_neg (fun h => nomatch h.1), if_neg (fun h => nomatch h.1), if_neg (fun h => nomatch h.1)]
  rw [hword, hword]
  interval_cases k <;> exact ⟨rfl, rfl⟩

/-- A register of one read-write field of 32 bits takes what is written. -/
theorem RWord.merge_whole {r : RWord} (h : r.fields = [⟨0, 32, .rwl, 0, false⟩]) (a v : W32) : r.merge a v = v := by
  rw [RWord.merge, h]
  simp only [List.foldl_cons, List.foldl_nil]
  rw [show fieldMask 32 0 32 = BitVec.allOnes 32 by decide, BitVec.not_allOnes, BitVec.and_zero, BitVec.zero_or, BitVec.and_allOnes]

theorem Dev.asWritten_timerCmp (d : Dev) {p : PageInfo} (hk : p.kind = .timer) {k v : Nat} (hlt : k < 8) (hv : v < 2 ^ 64) :
    (d.asWritten p (0x108 + 0x40 * k) 8 v).r64 p.base (0x108 + 0x40 * k) = v := by
  obtain ⟨hlow, hhigh⟩ := wordAt_timerCmp hk hlt
  rw [Dev.asWritten, halves, if_pos rfl, List.foldl_cons, List.foldl_cons, List.foldl_nil, if_neg (by dsimp only; omega), if_neg (by dsimp only; omega)]
  dsimp only
  rw [hlow, hhigh]
  dsimp only
  rw [RWord.merge_whole rfl, RWord.merge_whole rfl, Dev.r64, Dev.reg_setReg_ne _ _ (by omega), Dev.reg_setReg_same,
    Nat.add_assoc p.base (0x108 + 0x40 * k) 4, Dev.reg_setReg_same, BitVec.toNat_ofNat, BitVec.toNat_ofNat]
  omega

theorem Dev.pageWrite_timerCmp (d : Dev) (w : Who) {p : PageInfo} (hk : p.kind = .timer) {k v : Nat} (hlt : k < 8) (hv : v < 2 ^ 64) :
    d.pageWrite w p (0x108 + 0x40 * k) 8 v = d.tmrWrite (p.inst / 4) (8 * (p.inst % 4) + k) v := by
  have hplace : (0x108 + 0x40 * k - 0x100) / 0x40 = k := by omega
  rw [Dev.pageWrite, if_neg (by omega), hk]
  simp only [Dev.writeCasement, hk]
  rw [if_pos (by omega), hplace, d.asWritten_timerCmp hk hlt hv]

end Sys2Proof.Machine

namespace Sys2Proof.Claims

open Sys2Proof.Machine

theorem timerChannels : TimerChannels := by
  intro s c ch d v p o t idle
  refine ⟨fun hclk hidle => ?_, fun hclk hidle harm hlanded hcommitted => ?_, fun w x hacc hcommitted => ?_, fun lvl hclk => ?_⟩
  · exact does_of_clocked (f := fun d => d.timerFire c ch) hclk rfl (Dev.timerFire_idle hidle)
  · have hfire := Dev.timerFire_due hidle harm hlanded hcommitted
    intro lvl per
    have hmark := fun late off next => ((s.dev.tmrDriven c ch lvl).pulse (evCas c (48 + ch))).tmrMarked_regs c ch late off next
    refine gives_of_clocked (f := fun d => d.timerFire c ch) hclk rfl hfire ⟨?_, ?_, ?_, ?_, ?_, fun hper => ⟨?_, ?_⟩, fun hper => ⟨?_, ?_⟩⟩
    · rw [(hmark _ _ _).tmr, show ∀ (e : Dev) k, (e.pulse k).tmr c ch = e.tmr c ch from fun _ _ => rfl, Dev.tmrDriven_tmr]
    · rw [(hmark _ _ _).pulsesOf, Dev.pulsesOf_pulse, Dev.tmrDriven_pulsesOf]
    · exact Dev.tmrMarked_irq ..
    · rw [(hmark _ _ _).mem, Dev.pulse_mem, Dev.tmrDriven_mem]
    · rw [(hmark _ _ _).tioOut, show ∀ (e : Dev) k, (e.pulse k).tioOut = e.tioOut from fun _ _ => rfl, Dev.tmrDriven_eq]
    · rw [Dev.tmrMarked_armed, if_pos (decide_eq_true hper)]
    · rw [Dev.tmrMarked_cmp, Dev.tmrNext, if_pos hper]
      exact Nat.mod_eq_of_lt (Dev.tmrCmp_lt _ _ _)
    · rw [Dev.tmrMarked_armed, if_neg (by simpa using hper), Dev.tf_pulse, Dev.tmrDriven_tf]
    · rw [Dev.tmrMarked_cmp, Dev.tmrNext, if_neg hper]
  · have hcas : (4 * c.val + ch.val / 8) / 4 = c := by omega
    have hch : 8 * ((4 * c.val + ch.val / 8) % 4) + ch.val % 8 = ch := by omega
    have hwrite : s.dev.pageWrite w (pageTimer c ch) (0x108 + o) 8 x.toNat = s.dev.tmrArm c ch x.toNat := by
      rw [s.dev.pageWrite_timerCmp w (p := pageTimer c ch) rfl (by omega) x.isLt, show (pageTimer c ch).inst = 4 * c.val + ch.val / 8 from rfl, hcas, hch,
        Dev.tmrWrite, show s.dev.committed (tmrCmpAddr c ch) = false from hcommitted, if_neg (by decide)]
    have hexec : exec (.tmrCmpWrite w c ch x) s = s.write w (tmrPage c ch + (0x108 + o)) 8 x.toNat := by
      rw [← Nat.add_assoc]
      rfl
    refine hacc.gives (pgTmr_aligned _ _) (by omega) (pageAt_tmrPage c ch) x.isLt hexec hwrite ⟨?_, ?_, ?_, ?_⟩
    · rw [Dev.tmrCmp, Dev.wrote_r64, ← Dev.tmrCmp, Dev.tmrArm_cmp, Nat.mod_eq_of_lt x.isLt]
    · rw [Dev.tf, Dev.wrote_f, ← Dev.tf, Dev.tmrArm_armed]
    · exact Dev.tmrArm_tick ..
    · rw [Dev.wrote_mem, Dev.tmrArm_mem]
  · have hballs := s.dev.captureBall_balls c ch lvl
    have hcapture : s.dev.timerCapture c ch lvl = (s.dev.captureBall c ch lvl).tmrSample c ch := rfl
    refine ⟨fun hfree => ?_, fun hdriven hearly => ?_, fun hlive hmode hdue hne hedge hpresc => ?_⟩
    · refine gives_of_clocked (f := fun d => d.timerCapture c ch lvl) hclk rfl hcapture ⟨?_, ?_⟩
      · rw [Dev.tmrSample_ball, Dev.captureBall, if_pos hfree, Dev.ballSet, Dev.ball, Table.get_put_same, BallIn.set_raw]
      · rw [Dev.tmrSample_ball, Dev.captureBall_sync]
    · have hsame : s.dev.captureBall c ch lvl = s.dev := if_neg hdriven
      exact does_of_clocked (f := fun d => d.timerCapture c ch lvl) hclk rfl (hcapture.trans (by rw [hsame, Dev.tmrSample_early hearly]))
    · obtain ⟨e, he⟩ : ∃ e, e = s.dev.captureBall c ch lvl := ⟨_, rfl⟩
      have hsync : (e.ball c (s.dev.tf c ch F.TMR_CFG_PIN)).sync = (s.dev.ball c (s.dev.tf c ch F.TMR_CFG_PIN)).sync := he ▸ s.dev.captureBall_sync c ch lvl _
      rw [← he] at hballs hcapture
      have hregs : e.regs = s.dev.regs := hballs.regs
      have htf (f : Fld) : e.tf c ch f = s.dev.tf c ch f := Dev.f_of_regs hregs _ _
      have hreg (a : Nat) : e.reg a = s.dev.reg a := by rw [Dev.reg, hregs, Dev.reg]
      have hsample := Dev.tmrSample_changes (d := e) ((Dev.live_congr (hreg _) (hreg _) (hreg _)).trans hlive) ((htf _).trans hmode)
        (by rw [hballs.tmr, hballs.tick]; exact hdue) (by rw [htf, htf, htf, hsync, hballs.tmr]) (by rw [htf]; exact hne)
      rw [Dev.tmrLevel_captures (by rw [Dev.captureSampled, Dev.tf_setTmr, htf]; exact hedge)
        (by rw [Dev.captureSampled_presc, Dev.captureSampled, Dev.tf_setTmr, htf, hballs.tmr]; exact hpresc)] at hsample
      obtain ⟨htime, hnew, hlevel, hoverrun⟩ := (e.captureSampled c ch _).captured_registers c ch _
      obtain ⟨hsampleAt, hdeliveries, hmem⟩ := (e.captureSampled c ch _).captured_rest c ch _
      have hcount : e.count = s.dev.count := by rw [Dev.count, hballs.time, Dev.count]
      refine gives_of_clocked (f := fun d => d.timerCapture c ch lvl) hclk rfl (hcapture.trans hsample)
        ⟨htime.trans hcount, hnew, hlevel, ?_, fun h => hoverrun ?_, ?_, ?_⟩
      · rw [hsampleAt, Dev.captureSampled_sampleAt, hballs.tick, htf]
      · rw [Dev.captureSampled, Dev.tf_setTmr, htf]
        exact h
      · rw [hdeliveries, show ∀ k, (e.captureSampled c ch k).count = e.count from fun _ => rfl, hcount,
          show ∀ k, (e.captureSampled c ch k).deliveries = e.deliveries from fun _ => rfl, hballs.deliveries,
          show ∀ k, (e.captureSampled c ch k).tick = e.tick from fun _ => rfl, hballs.tick]
      · rw [hmem, show ∀ k, (e.captureSampled c ch k).mem = e.mem from fun _ => rfl, hballs.mem]

end Sys2Proof.Claims
end

section
/-!
The encoders (13 R284, R287-R289): a sample that counts, errs or passes the index, a stall, and a preset.
-/
namespace Sys2Proof.Machine

/-! An encoder's state -/

section
variable (d : Dev) (e : Nat)

theorem Dev.enc_setEnc_same (x : Enc) : (d.setEnc e x).enc e = x := Table.get_put_same ..

theorem Dev.enc_setF (p : Nat) (f : Fld) (y : Nat) : (d.setF p f y).enc e = d.enc e := rfl

theorem Dev.enc_setB (p : Nat) (f : Fld) (b : Bool) : (d.setB p f b).enc e = d.enc e := rfl

theorem Dev.enc_irq (p i : Nat) : (d.irq p i).enc e = d.enc e := rfl

theorem Dev.f_setEnc (x : Enc) (p : Nat) (f : Fld) : (d.setEnc e x).f p f = d.f p f := rfl

theorem Dev.on_setEnc (x : Enc) (p : Nat) (f : Fld) : (d.setEnc e x).on p f = d.on p f := rfl

theorem Dev.r64_setEnc (x : Enc) (p o : Nat) : (d.setEnc e x).r64 p o = d.r64 p o := rfl

theorem Dev.mem_setEnc (x : Enc) : (d.setEnc e x).mem = d.mem := rfl

end

/-- `t` differs from `d` in the encoders only, and of encoder e not in its filtered levels, its edge, its preset and its index. -/
structure Dev.EncRuns (e : Nat) (d t : Dev) : Prop where
  only : ∃ u, t = { d with encs := u }
  levels : (t.enc e).a = (d.enc e).a ∧ (t.enc e).b = (d.enc e).b ∧ (t.enc e).i = (d.enc e).i
  edge : (t.enc e).edge = (d.enc e).edge
  preset : (t.enc e).preset = (d.enc e).preset
  idxSeen : (t.enc e).idxSeen = (d.enc e).idxSeen

namespace Dev.EncRuns

variable {e : Nat} {d t u : Dev}

variable (h : EncRuns e d t)
include h

theorem f (p : Nat) (g : Fld) : t.f p g = d.f p g := by
  obtain ⟨u, rfl⟩ := h.only
  rfl

theorem on (p : Nat) (g : Fld) : t.on p g = d.on p g := by rw [Dev.on, h.f, Dev.on]

theorem time : t.time = d.time := by
  obtain ⟨u, rfl⟩ := h.only
  rfl

theorem count : t.count = d.count := by rw [Dev.count, h.time, Dev.count]

theorem tick : t.tick = d.tick := by rw [Dev.tick, h.time, Dev.tick]

theorem mem : t.mem = d.mem := by
  obtain ⟨u, rfl⟩ := h.only
  rfl

theorem pulsesOf (k : Nat) : t.pulsesOf k = d.pulsesOf k := by
  obtain ⟨u, rfl⟩ := h.only
  rfl

theorem live (p : Nat) : t.live p = d.live p := by
  have hregs : ∀ a, t.reg a = d.reg a := by
    obtain ⟨u, rfl⟩ := h.only
    exact fun _ => rfl
  exact Dev.live_congr (hregs _) (hregs _) (hregs _)

end Dev.EncRuns

/-! A counting edge (13 R287) -/

section
variable (d : Dev) (e : Nat)

/-- A counting edge moves the position. -/
theorem Dev.encStep_pos (up : Bool) : (d.encStep e up).f (pgEnc e) F.ENC_POS_POS =
    (if up then d.f (pgEnc e) F.ENC_POS_POS + 1 else d.f (pgEnc e) F.ENC_POS_POS + (2 ^ 32 - 1)) % 2 ^ 32 := by
  rw [Dev.encStep, Dev.f_setEnc, Dev.setB, Dev.f_setF_apart _ _ rfl, Dev.f_setR64_apart _ _ rfl, Dev.f_setF_apart _ _ rfl, Dev.f_setF_same _ _ _ _ (by decide)]
  rfl

theorem Dev.encStep_time (up : Bool) : (d.encStep e up).r64 (pgEnc e) 0x60 = d.count := by
  have hcount : d.count < 2 ^ 64 := d.time.count.isLt
  rw [Dev.encStep, Dev.r64_setEnc, Dev.setB, Dev.r64_setF_apart _ _ rfl, Dev.r64_setR64_same]
  exact Nat.mod_eq_of_lt hcount

theorem Dev.encStep_stalled (up : Bool) : (d.encStep e up).on (pgEnc e) F.ENC_STATUS_STALLED = false := by
  rw [Dev.encStep, Dev.on_setEnc, Dev.on_setB_same _ _ _ _ rfl (by decide)]

theorem Dev.encStep_enc (up : Bool) : (d.encStep e up).enc e = { d.enc e with edge := some d.tick } := by
  rw [Dev.encStep, Dev.enc_setEnc_same]
  rfl

theorem Dev.encStep_mem (up : Bool) : (d.encStep e up).mem = d.mem := by
  rw [Dev.encStep, Dev.mem_setEnc, Dev.setB_mem, Dev.setR64_mem, Dev.setF_mem, Dev.setF_mem]

/-! A filtered change of A and B (13 R287) -/

/-- The encoder has taken new levels of A and B. -/
def Dev.encLevels (a b : Bool) : Dev := d.setEnc e { d.enc e with a := a, b := b }

variable {d e}

theorem Dev.encAb_error {a b : Bool} (hmode : d.f (pgEnc e) F.ENC_CTRL_MODE = 0) (ha : a ≠ (d.enc e).a) (hb : b ≠ (d.enc e).b) : d.encAb e a b =
    (((d.encLevels e a b).setB (pgEnc e) F.ENC_STATUS_QERR true).irq (pgEnc e) 0).inc (pgEnc e) F.ENC_ERR_CNT_ERR := by
  unfold Dev.encAb
  extract_lets p x levels
  rw [show d.f p F.ENC_CTRL_MODE = 0 from hmode, show (x.a != a) = true from bne_iff_ne.mpr ha.symm, show (x.b != b) = true from bne_iff_ne.mpr hb.symm,
    if_pos (by decide)]
  rfl

theorem Dev.encAb_counts {a b : Bool} (hmode : d.f (pgEnc e) F.ENC_CTRL_MODE = 0) (ha : a ≠ (d.enc e).a) (hb : b = (d.enc e).b) :
    d.encAb e a b = (d.encLevels e a b).encStep e ((a != b) != d.on (pgEnc e) F.ENC_CTRL_DIR) := by
  unfold Dev.encAb
  extract_lets p x levels
  rw [show d.f p F.ENC_CTRL_MODE = 0 from hmode, show (x.a != a) = true from bne_iff_ne.mpr ha.symm, show x.b = b from hb.symm, if_neg (by simp), encCount,
    show (x.a != a) = true from bne_iff_ne.mpr ha.symm, if_pos rfl]
  rfl

/-! The index (13 R288) -/

/-- The index has passed at a position. -/
def Dev.encIndexed (d : Dev) (e : Nat) (lvl : Bool) : Dev :=
  ((((d.setEnc e { d.enc e with i := lvl }).setF (pgEnc e) F.ENC_IPOS_IPOS (d.f (pgEnc e) F.ENC_POS_POS)).pulse (1816 + e)).setB (pgEnc e)
    F.ENC_STATUS_IDX_SEEN true).irq (pgEnc e) 1

/-- The index presets the position as asked. -/
def Dev.encIndexPreset (d : Dev) (e : Nat) (again : Bool) : Dev :=
  if d.f (pgEnc e) F.ENC_CTRL_IDX_MODE = 1 ∨ (d.f (pgEnc e) F.ENC_CTRL_IDX_MODE = 2 ∧ again = false) then
    d.setF (pgEnc e) F.ENC_POS_POS (d.f (pgEnc e) F.ENC_IVAL_IVAL) else d

theorem Dev.encIdx_passes {lvl : Bool} (hne : lvl ≠ (d.enc e).i) (hact : (lvl != d.on (pgEnc e) F.ENC_CTRL_IDX_POL) = true) : d.encIdx e lvl =
    ((d.encIndexed e lvl).encIndexPreset e (d.enc e).idxSeen).setEnc e
      { ((d.encIndexed e lvl).encIndexPreset e (d.enc e).idxSeen).enc e with idxSeen := true } := by
  have hwas : ((d.enc e).i != d.on (pgEnc e) F.ENC_CTRL_IDX_POL) = false := by
    revert hne hact
    cases lvl <;> cases (d.enc e).i <;> cases d.on (pgEnc e) F.ENC_CTRL_IDX_POL <;> decide
  unfold Dev.encIdx
  extract_lets p x act was src levels pos passed m preset
  rw [show was = false from hwas, show act = true from hact, if_neg (by decide)]
  rfl

variable (d e)

theorem Dev.encIndexPreset_f (again : Bool) {f : Fld} (h : F.ENC_POS_POS.apart f = true) : (d.encIndexPreset e again).f (pgEnc e) f = d.f (pgEnc e) f := by
  rw [Dev.encIndexPreset]
  split
  · exact Dev.f_setF_apart _ _ h
  · rfl

theorem Dev.encIndexPreset_regs (again : Bool) : d.RegsOnly (d.encIndexPreset e again) := by
  unfold Dev.encIndexPreset
  exact .ite (.setF _ _ _) (.refl d)

theorem Dev.encIndexPreset_at (again : Bool) (h : d.f (pgEnc e) F.ENC_CTRL_IDX_MODE = 1) :
    (d.encIndexPreset e again).f (pgEnc e) F.ENC_POS_POS = d.f (pgEnc e) F.ENC_IVAL_IVAL := by
  rw [Dev.encIndexPreset, if_pos (.inl h), Dev.f_setF_same _ _ _ _ (by decide)]
  exact Nat.mod_eq_of_lt (Dev.f_lt _ _ _)

theorem Dev.encIndexPreset_none (again : Bool) (h : d.f (pgEnc e) F.ENC_CTRL_IDX_MODE = 0) : d.encIndexPreset e again = d := by
  rw [Dev.encIndexPreset, h, if_neg (by simp)]

theorem Dev.encIndexed_f (lvl : Bool) {f : Fld} (hpos : F.ENC_IPOS_IPOS.apart f = true) (hseen : F.ENC_STATUS_IDX_SEEN.apart f = true)
    (hirq : f.ofs ≠ 0x24) : (d.encIndexed e lvl).f (pgEnc e) f = d.f (pgEnc e) f := by
  rw [Dev.encIndexed, Dev.irq, Dev.f_setF_apart _ _ (by simp [Fld.apart, hirq.symm]), Dev.setB, Dev.f_setF_apart _ _ hseen, Dev.f_pulse,
    Dev.f_setF_apart _ _ hpos, Dev.f_setEnc]

theorem Dev.encIndexed_ipos (lvl : Bool) : (d.encIndexed e lvl).f (pgEnc e) F.ENC_IPOS_IPOS = d.f (pgEnc e) F.ENC_POS_POS := by
  rw [Dev.encIndexed, Dev.irq, Dev.f_setF_apart _ _ rfl, Dev.setB, Dev.f_setF_apart _ _ rfl, Dev.f_pulse, Dev.f_setF_same _ _ _ _ (by decide)]
  exact Nat.mod_eq_of_lt (Dev.f_lt _ _ _)

theorem Dev.encIndexed_seen (lvl : Bool) : (d.encIndexed e lvl).on (pgEnc e) F.ENC_STATUS_IDX_SEEN = true := by
  rw [Dev.encIndexed, Dev.irq, Dev.on_setF_apart _ _ rfl, Dev.on_setB_same _ _ _ _ rfl (by decide)]

theorem Dev.encIndexed_enc (lvl : Bool) : (d.encIndexed e lvl).enc e = { d.enc e with i := lvl } := by
  rw [Dev.encIndexed, Dev.enc_irq, Dev.enc_setB]
  exact Dev.enc_setEnc_same ..

theorem Dev.encIndexed_pulsesOf (lvl : Bool) : (d.encIndexed e lvl).pulsesOf (1816 + e) = d.pulsesOf (1816 + e) + 1 := by
  rw [Dev.encIndexed, show ∀ (x : Dev) p i k, (x.irq p i).pulsesOf k = x.pulsesOf k from fun _ _ _ _ => rfl,
    show ∀ (x : Dev) p f b k, (x.setB p f b).pulsesOf k = x.pulsesOf k from fun _ _ _ _ _ => rfl, Dev.pulsesOf_pulse]
  rfl

theorem Dev.encIndexed_mem (lvl : Bool) : (d.encIndexed e lvl).mem = d.mem := by
  rw [Dev.encIndexed, Dev.irq_mem, Dev.setB_mem, Dev.pulse_mem, Dev.setF_mem, Dev.mem_setEnc]

/-! A sample (13 R284) -/

/-- What the filters of an encoder make of its balls A, B and I. -/
def Dev.encFilterA : Bool × Nat := ballFilter (d.f (pgEnc e) F.ENC_CTRL_FILT_N) (d.enc e).a (d.enc e).runA (d.enc e).ballA.sync

@[inherit_doc Dev.encFilterA]
def Dev.encFilterB : Bool × Nat := ballFilter (d.f (pgEnc e) F.ENC_CTRL_FILT_N) (d.enc e).b (d.enc e).runB (d.enc e).ballB.sync

@[inherit_doc Dev.encFilterA]
def Dev.encFilterI : Bool × Nat := ballFilter (d.f (pgEnc e) F.ENC_CTRL_FILT_N) (d.enc e).i (d.enc e).runI (d.enc e).ballI.sync

/-- The encoder whose filters have run. -/
def Dev.encSampled : Dev := d.setEnc e { d.enc e with
  sampleAt := d.tick + 2 ^ d.f (pgEnc e) F.ENC_CTRL_FILT_K, runA := (d.encFilterA e).2, runB := (d.encFilterB e).2, runI := (d.encFilterI e).2 }

theorem Dev.EncRuns.sampled : EncRuns e d (d.encSampled e) := by
  have henc := d.enc_setEnc_same e { d.enc e with
    sampleAt := d.tick + 2 ^ d.f (pgEnc e) F.ENC_CTRL_FILT_K, runA := (d.encFilterA e).2, runB := (d.encFilterB e).2, runI := (d.encFilterI e).2 }
  refine ⟨⟨_, rfl⟩, ⟨?_, ?_, ?_⟩, ?_, ?_, ?_⟩ <;> rw [Dev.encSampled, henc]

/-- A sample is due. -/
def Dev.encDue : Bool := d.live (pgEnc e) && decide ((d.enc e).sampleAt ≤ d.tick)

theorem Dev.encDue_not (h : d.encDue e = b) : (!d.live (pgEnc e) || decide (d.tick < (d.enc e).sampleAt)) = !b := by
  rw [← h, Dev.encDue, Bool.not_and, decide_eq_decide.mpr Nat.not_le.symm, decide_not]

variable {d e}

theorem Dev.encSample_early (h : d.encDue e = false) : d.encSample e = d := by
  have hnot := d.encDue_not e h
  exact if_pos hnot

theorem Dev.encSample_due (h : d.encDue e = true) : d.encSample e =
    (let t := if (d.encFilterA e).1 == (d.enc e).a && (d.encFilterB e).1 == (d.enc e).b then d.encSampled e
      else (d.encSampled e).encAb e (d.encFilterA e).1 (d.encFilterB e).1
     if (d.encFilterI e).1 == (d.enc e).i then t else t.encIdx e (d.encFilterI e).1) := by
  have hnot := d.encDue_not e h
  exact (if_neg (by rw [hnot]; decide)).trans rfl

theorem Dev.encSample_ab (h : d.encDue e = true) (ha : (d.encFilterA e).1 ≠ (d.enc e).a) (hi : (d.encFilterI e).1 = (d.enc e).i) :
    d.encSample e = (d.encSampled e).encAb e (d.encFilterA e).1 (d.encFilterB e).1 := by
  have hpass : ((d.encFilterI e).1 == (d.enc e).i) = true := beq_iff_eq.mpr hi
  rw [Dev.encSample_due h, hpass, if_pos rfl, beq_false_of_ne ha, Bool.false_and, if_neg (by decide)]

theorem Dev.encSample_index (h : d.encDue e = true) (ha : (d.encFilterA e).1 = (d.enc e).a) (hb : (d.encFilterB e).1 = (d.enc e).b)
    (hi : (d.encFilterI e).1 ≠ (d.enc e).i) : d.encSample e = (d.encSampled e).encIdx e (d.encFilterI e).1 := by
  rw [Dev.encSample_due h, ha, hb, beq_self_eq_true, beq_self_eq_true, Bool.true_and, if_pos rfl, beq_false_of_ne hi, if_neg (by decide)]

/-! A preset at the end of a tick (13 R289) -/

variable (d e)

theorem Dev.encAb_preset (a b : Bool) : ((d.encAb e a b).enc e).preset = (d.enc e).preset := by
  have hlevels : ((d.encLevels e a b).enc e).preset = (d.enc e).preset := by rw [Dev.encLevels, Dev.enc_setEnc_same]
  unfold Dev.encAb
  extract_lets p x levels
  split
  · exact hlevels
  split
  · exact hlevels
  · rw [Dev.encStep_enc]
    exact hlevels

theorem Dev.encIdx_preset (lvl : Bool) : ((d.encIdx e lvl).enc e).preset = (d.enc e).preset := by
  have hlevel : ((d.setEnc e { d.enc e with i := lvl }).enc e).preset = (d.enc e).preset := by rw [Dev.enc_setEnc_same]
  unfold Dev.encIdx
  extract_lets p x act was level located passed mode preset
  split
  · exact hlevel
  · rw [Dev.enc_setEnc_same]
    change (preset.enc e).preset = _
    unfold preset
    split <;> exact hlevel

theorem Dev.encSample_preset : ((d.encSample e).enc e).preset = (d.enc e).preset := by
  cases h : d.encDue e with
  | false => rw [Dev.encSample_early h]
  | true =>
    rw [Dev.encSample_due h]
    extract_lets t
    have ht : (t.enc e).preset = (d.enc e).preset := by
      unfold t
      split
      · exact (Dev.EncRuns.sampled d e).preset
      · exact ((d.encSampled e).encAb_preset e _ _).trans (Dev.EncRuns.sampled d e).preset
    split
    · exact ht
    · exact (t.encIdx_preset e _).trans ht

/-- The end of a tick leaves a preset that waits at its position. -/
theorem Dev.encEnd_preset {v : Nat} (h : (d.enc e).preset = some v) (hv : v < 2 ^ 32) :
    (d.encEnd e).f (pgEnc e) F.ENC_POS_POS = v ∧ ((d.encEnd e).enc e).preset = none := by
  have hstalled (t : Dev) : (t.encoderStalled e).enc e = t.enc e := by
    unfold Dev.encoderStalled
    extract_lets p
    rw [apply_ite (Dev.enc · e), Dev.enc_setB, ite_self]
  unfold Dev.encEnd
  extract_lets p sampled pos latched
  have hpreset : (latched.enc e).preset = some v := by
    have hsampled : (sampled.enc e).preset = some v := by rw [show sampled.enc e = (d.encSample e).enc e from hstalled _, Dev.encSample_preset, h]
    unfold latched
    split <;> exact hsampled
  rw [hpreset]
  dsimp only
  rw [Dev.f_setEnc, Dev.f_setF_same _ _ _ _ (by decide), Dev.enc_setEnc_same]
  exact ⟨Nat.mod_eq_of_lt hv, rfl⟩

theorem Dev.pageWrite_encPreset (w : Who) {p : PageInfo} (hk : p.kind = .enc) (v : Nat) : d.pageWrite w p 0x48 4 v = d.encPreset p.inst v := by
  rw [Dev.pageWrite, if_neg (by decide), hk]
  simp only [Dev.writeCasement, hk]
  rw [if_pos trivial]

end

end Sys2Proof.Machine

namespace Sys2Proof.Claims

open Sys2Proof.Machine

/-- The balls of an encoder have taken levels: its filters see no change of them in this tick. -/
theorem balls_keep {d : Dev} {e : Nat} {x : Enc} (hx : x = { d.enc e with ballA := x.ballA, ballB := x.ballB, ballI := x.ballI })
    (hA : x.ballA.sync = (d.enc e).ballA.sync) (hB : x.ballB.sync = (d.enc e).ballB.sync) (hI : x.ballI.sync = (d.enc e).ballI.sync) :
    (d.setEnc e x).encFilterA e = d.encFilterA e ∧ (d.setEnc e x).encFilterB e = d.encFilterB e ∧ (d.setEnc e x).encFilterI e = d.encFilterI e ∧
      (d.setEnc e x).encDue e = d.encDue e ∧ Dev.EncRuns e d (d.setEnc e x) := by
  have henc := d.enc_setEnc_same e x
  have hruns : Dev.EncRuns e d (d.setEnc e x) := by
    refine ⟨⟨_, rfl⟩, ?_, ?_, ?_, ?_⟩ <;> rw [henc, hx]
    exact ⟨rfl, rfl, rfl⟩
  refine ⟨?_, ?_, ?_, ?_, hruns⟩
  · rw [Dev.encFilterA, henc, hA, hruns.f, hx, Dev.encFilterA]
  · rw [Dev.encFilterB, henc, hB, hruns.f, hx, Dev.encFilterB]
  · rw [Dev.encFilterI, henc, hI, hruns.f, hx, Dev.encFilterI]
  · rw [Dev.encDue, henc, hruns.live, hruns.tick, hx, Dev.encDue]

/-- An encoder whose balls A and B take levels. -/
theorem edge_keeps (d : Dev) (e : Nat) (q r : Bool) :
    let t := d.setEnc e { d.enc e with ballA := (d.enc e).ballA.set d.tick q, ballB := (d.enc e).ballB.set d.tick r }
    t.encFilterA e = d.encFilterA e ∧ t.encFilterB e = d.encFilterB e ∧ t.encFilterI e = d.encFilterI e ∧ t.encDue e = d.encDue e ∧ Dev.EncRuns e d t :=
  balls_keep rfl (BallIn.set_sync ..) (BallIn.set_sync ..) rfl

/-- An encoder whose ball I takes a level. -/
theorem index_keeps (d : Dev) (e : Nat) (q : Bool) :
    let t := d.setEnc e { d.enc e with ballI := (d.enc e).ballI.set d.tick q }
    t.encFilterA e = d.encFilterA e ∧ t.encFilterB e = d.encFilterB e ∧ t.encFilterI e = d.encFilterI e ∧ t.encDue e = d.encDue e ∧ Dev.EncRuns e d t :=
  balls_keep rfl rfl rfl (BallIn.set_sync ..)

/-- What a sample makes of a change of both inputs. -/
theorem sample_errs {d : Dev} {e : Nat} (hdue : d.encDue e = true) (hmode : d.f (pgEnc e) F.ENC_CTRL_MODE = 0) (ha : (d.encFilterA e).1 ≠ (d.enc e).a)
    (hb : (d.encFilterB e).1 ≠ (d.enc e).b) (hi : (d.encFilterI e).1 = (d.enc e).i) :
    let t := d.encSample e
    t.on (pgEnc e) F.ENC_STATUS_QERR = true ∧ t.f (pgEnc e) F.ENC_POS_POS = d.f (pgEnc e) F.ENC_POS_POS ∧ bitAt (t.reg (pgEnc e + 0x24)) 0 = true ∧
      (t.enc e).a = (d.encFilterA e).1 ∧ (t.enc e).b = (d.encFilterB e).1 ∧ t.mem = d.mem := by
  obtain ⟨u, hu⟩ : ∃ u, u = d.encSampled e := ⟨_, rfl⟩
  have hrun : Dev.EncRuns e d u := hu ▸ Dev.EncRuns.sampled d e
  have hlevels := hrun.levels
  rw [Dev.encSample_ab hdue ha hi, ← hu, Dev.encAb_error ((hrun.f _ _).trans hmode) (by rw [hlevels.1]; exact ha) (by rw [hlevels.2.1]; exact hb)]
  have henc : (u.encLevels e (d.encFilterA e).1 (d.encFilterB e).1).enc e = { u.enc e with a := (d.encFilterA e).1, b := (d.encFilterB e).1 } :=
    Dev.enc_setEnc_same ..
  dsimp only
  refine ⟨?_, ?_, ?_, ?_, ?_, ?_⟩
  · rw [Dev.inc, Dev.on_setF_apart _ _ rfl, Dev.irq, Dev.on_setF_apart _ _ rfl, Dev.on_setB_same _ _ _ _ rfl (by decide)]
  · rw [Dev.inc, Dev.f_setF_apart _ _ rfl, Dev.irq, Dev.f_setF_apart _ _ rfl, Dev.setB, Dev.f_setF_apart _ _ rfl, Dev.encLevels, Dev.f_setEnc, hrun.f]
  · rw [Dev.inc, Dev.bitAt_setF_apart _ _ rfl]
    exact Dev.bitAt_irq _ (by decide)
  · rw [Dev.inc, Dev.enc_setF, Dev.enc_irq, Dev.enc_setB, henc]
  · rw [Dev.inc, Dev.enc_setF, Dev.enc_irq, Dev.enc_setB, henc]
  · rw [Dev.inc, Dev.setF_mem, Dev.irq_mem, Dev.setB_mem, Dev.encLevels, Dev.mem_setEnc, hrun.mem]

/-- What a sample makes of a change of A alone. -/
theorem sample_counts {d : Dev} {e : Nat} (hdue : d.encDue e = true) (hmode : d.f (pgEnc e) F.ENC_CTRL_MODE = 0) (ha : (d.encFilterA e).1 ≠ (d.enc e).a)
    (hb : (d.encFilterB e).1 = (d.enc e).b) (hi : (d.encFilterI e).1 = (d.enc e).i) :
    let t := d.encSample e
    (t.enc e).a = (d.encFilterA e).1 ∧ (t.enc e).b = (d.enc e).b ∧ t.r64 (pgEnc e) 0x60 = d.count ∧ t.mem = d.mem ∧
      t.on (pgEnc e) F.ENC_STATUS_STALLED = false ∧ (t.enc e).edge = some d.tick ∧
      t.f (pgEnc e) F.ENC_POS_POS = (if ((d.encFilterA e).1 != (d.enc e).b) != d.on (pgEnc e) F.ENC_CTRL_DIR then d.f (pgEnc e) F.ENC_POS_POS + 1
        else d.f (pgEnc e) F.ENC_POS_POS + (2 ^ 32 - 1)) % 2 ^ 32 := by
  obtain ⟨u, hu⟩ : ∃ u, u = d.encSampled e := ⟨_, rfl⟩
  have hrun : Dev.EncRuns e d u := hu ▸ Dev.EncRuns.sampled d e
  have hlevels := hrun.levels
  rw [Dev.encSample_ab hdue ha hi, ← hu, Dev.encAb_counts ((hrun.f _ _).trans hmode) (by rw [hlevels.1]; exact ha) (by rw [hlevels.2.1]; exact hb), hrun.on, hb]
  have henc : (u.encLevels e (d.encFilterA e).1 (d.enc e).b).enc e = { u.enc e with a := (d.encFilterA e).1, b := (d.enc e).b } :=
    Dev.enc_setEnc_same ..
  have hf : (u.encLevels e (d.encFilterA e).1 (d.enc e).b).f (pgEnc e) F.ENC_POS_POS = d.f (pgEnc e) F.ENC_POS_POS := hrun.f _ _
  dsimp only
  refine ⟨?_, ?_, ?_, ?_, Dev.encStep_stalled .., ?_, ?_⟩
  · rw [Dev.encStep_enc, henc]
  · rw [Dev.encStep_enc, henc]
  · rw [Dev.encStep_time]
    exact hrun.count
  · rw [Dev.encStep_mem, Dev.encLevels, Dev.mem_setEnc, hrun.mem]
  · rw [Dev.encStep_enc]
    exact congrArg some hrun.tick
  · rw [Dev.encStep_pos, hf]

/-- What a sample makes of an index that becomes active. -/
theorem sample_indexes {d : Dev} {e : Nat} (hdue : d.encDue e = true) (ha : (d.encFilterA e).1 = (d.enc e).a) (hb : (d.encFilterB e).1 = (d.enc e).b)
    (hi : (d.encFilterI e).1 ≠ (d.enc e).i) (hact : ((d.encFilterI e).1 != d.on (pgEnc e) F.ENC_CTRL_IDX_POL) = true) :
    let t := d.encSample e
    t.f (pgEnc e) F.ENC_IPOS_IPOS = d.f (pgEnc e) F.ENC_POS_POS ∧ t.on (pgEnc e) F.ENC_STATUS_IDX_SEEN = true ∧
      (t.enc e).i = (d.encFilterI e).1 ∧ (t.enc e).idxSeen = true ∧ t.pulsesOf (1816 + e) = d.pulsesOf (1816 + e) + 1 ∧ t.mem = d.mem ∧
      (d.f (pgEnc e) F.ENC_CTRL_IDX_MODE = 1 → t.f (pgEnc e) F.ENC_POS_POS = d.f (pgEnc e) F.ENC_IVAL_IVAL) ∧
      (d.f (pgEnc e) F.ENC_CTRL_IDX_MODE = 0 → t.f (pgEnc e) F.ENC_POS_POS = d.f (pgEnc e) F.ENC_POS_POS) := by
  obtain ⟨u, hu⟩ : ∃ u, u = d.encSampled e := ⟨_, rfl⟩
  have hrun : Dev.EncRuns e d u := hu ▸ Dev.EncRuns.sampled d e
  rw [Dev.encSample_index hdue ha hb hi, ← hu, Dev.encIdx_passes (by rw [hrun.levels.2.2]; exact hi) (by rw [hrun.on]; exact hact)]
  obtain ⟨v, hv⟩ : ∃ v, v = u.encIndexed e (d.encFilterI e).1 := ⟨_, rfl⟩
  rw [← hv]
  have hf {f : Fld} (hpos : F.ENC_IPOS_IPOS.apart f = true) (hseen : F.ENC_STATUS_IDX_SEEN.apart f = true) (hirq : f.ofs ≠ 0x24) :
      v.f (pgEnc e) f = d.f (pgEnc e) f := by rw [hv, Dev.encIndexed_f _ _ _ hpos hseen hirq, hrun.f]
  have hregs := v.encIndexPreset_regs e (u.enc e).idxSeen
  dsimp only
  refine ⟨?_, ?_, ?_, ?_, ?_, ?_, fun h => ?_, fun h => ?_⟩
  · rw [Dev.f_setEnc, Dev.encIndexPreset_f _ _ _ rfl, hv, Dev.encIndexed_ipos, hrun.f]
  · rw [Dev.on_setEnc, Dev.on, Dev.encIndexPreset_f _ _ _ rfl, hv]
    exact Dev.encIndexed_seen ..
  · rw [Dev.enc_setEnc_same]
    obtain ⟨w, hw⟩ := hregs
    rw [hw]
    change (v.enc e).i = _
    rw [hv, Dev.encIndexed_enc]
  · rw [Dev.enc_setEnc_same]
  · refine (hregs.pulsesOf _).trans ?_
    rw [hv, Dev.encIndexed_pulsesOf, hrun.pulsesOf]
  · rw [Dev.mem_setEnc, hregs.mem, hv, Dev.encIndexed_mem, hrun.mem]
  · rw [Dev.f_setEnc, Dev.encIndexPreset_at _ _ _ ((hf rfl rfl (by decide)).trans h), hf rfl rfl (by decide)]
  · rw [Dev.f_setEnc, Dev.encIndexPreset_none _ _ _ ((hf rfl rfl (by decide)).trans h), hf rfl rfl (by decide)]

theorem encodersCount : EncodersCount := by
  intro s e hclk
  have hedge (q r : Bool) : s.dev.encoderEdge e q r =
      (s.dev.setEnc e { s.dev.enc e with ballA := (s.dev.enc e).ballA.set s.dev.tick q, ballB := (s.dev.enc e).ballB.set s.dev.tick r }).encSample e := rfl
  have hindex (q : Bool) : s.dev.encoderIndex e q = (s.dev.setEnc e { s.dev.enc e with ballI := (s.dev.enc e).ballI.set s.dev.tick q }).encSample e := rfl
  refine ⟨fun q r hdue => ?_, fun q hdue => ?_, fun q r hdue hmode ha hb hi => ?_, fun q r hdue hmode ha hb hi => ?_, fun q hdue ha hb hi hact => ?_,
    fun t hlive hlast => ?_, fun w v hacc => ?_, fun v hv hlt => s.dev.encEnd_preset e hv hlt⟩
  · obtain ⟨-, -, -, hd, -⟩ := edge_keeps s.dev e q r
    exact does_of_clocked (f := fun d => d.encoderEdge e q r) hclk rfl ((hedge q r).trans (Dev.encSample_early (hd.trans hdue)))
  · obtain ⟨-, -, -, hd, -⟩ := index_keeps s.dev e q
    exact does_of_clocked (f := fun d => d.encoderIndex e q) hclk rfl ((hindex q).trans (Dev.encSample_early (hd.trans hdue)))
  · obtain ⟨hA, hB, hI, hd, hrun⟩ := edge_keeps s.dev e q r
    obtain ⟨u, hu⟩ : ∃ u, u = s.dev.setEnc e { s.dev.enc e with ballA := (s.dev.enc e).ballA.set s.dev.tick q, ballB := (s.dev.enc e).ballB.set s.dev.tick r } :=
      ⟨_, rfl⟩
    rw [← hu] at hA hB hI hd hrun
    have herr := sample_errs (hd.trans hdue) ((hrun.f _ _).trans hmode) (by rw [hA, hrun.levels.1]; exact ha) (by rw [hB, hrun.levels.2.1]; exact hb)
      (by rw [hI, hrun.levels.2.2]; exact hi)
    rw [hA, hB, hrun.f, hrun.mem] at herr
    exact gives_of_clocked (f := fun d => d.encoderEdge e q r) hclk rfl ((hedge q r).trans (by rw [← hu])) herr
  · obtain ⟨hA, hB, hI, hd, hrun⟩ := edge_keeps s.dev e q r
    obtain ⟨u, hu⟩ : ∃ u, u = s.dev.setEnc e { s.dev.enc e with ballA := (s.dev.enc e).ballA.set s.dev.tick q, ballB := (s.dev.enc e).ballB.set s.dev.tick r } :=
      ⟨_, rfl⟩
    rw [← hu] at hA hB hI hd hrun
    have hcounts := sample_counts (hd.trans hdue) ((hrun.f _ _).trans hmode) (by rw [hA, hrun.levels.1]; exact ha) (by rw [hB, hrun.levels.2.1]; exact hb)
      (by rw [hI, hrun.levels.2.2]; exact hi)
    rw [hA, hrun.levels.2.1, hrun.f, hrun.mem, hrun.count, hrun.tick, hrun.on] at hcounts
    exact gives_of_clocked (f := fun d => d.encoderEdge e q r) hclk rfl ((hedge q r).trans (by rw [← hu])) hcounts
  · obtain ⟨hA, hB, hI, hd, hrun⟩ := index_keeps s.dev e q
    obtain ⟨u, hu⟩ : ∃ u, u = s.dev.setEnc e { s.dev.enc e with ballI := (s.dev.enc e).ballI.set s.dev.tick q } := ⟨_, rfl⟩
    rw [← hu] at hA hB hI hd hrun
    have hpasses := sample_indexes (hd.trans hdue) (by rw [hA, hrun.levels.1]; exact ha) (by rw [hB, hrun.levels.2.1]; exact hb)
      (by rw [hI, hrun.levels.2.2]; exact hi) (by rw [hI, hrun.on]; exact hact)
    rw [hI, hrun.f, hrun.f, hrun.f, hrun.mem, hrun.pulsesOf] at hpasses
    exact gives_of_clocked (f := fun d => d.encoderIndex e q) hclk rfl ((hindex q).trans (by rw [← hu])) hpasses
  · have hstalled : s.dev.encoderStalled e =
        if t + 2 ^ 32 ≤ s.dev.tick then s.dev.setB (pgEnc e) F.ENC_STATUS_STALLED true else s.dev := by
      unfold Dev.encoderStalled
      extract_lets p
      rw [show s.dev.live p = true from hlive, Bool.true_and, hlast]
      simp only [decide_eq_true_eq]
      rfl
    exact does_of_clocked (f := fun d => d.encoderStalled e) hclk rfl hstalled
  · exact hacc.wrote (pgEnc_aligned e) (by decide) (pageAt_enc e) v.isLt rfl (s.dev.pageWrite_encPreset w rfl _)

/-- Settles O31: the timers' compares and captures, and the encoders' samples, each by the cases of what is due. -/
theorem timersAndEncoders : Obligations.TimersAndEncoders := ⟨timerChannels, encodersCount⟩

end Sys2Proof.Claims
end

section
/-!
Binding and detaching of the nodes of the Threshold links (14 R304-R309, R321, R323).
-/
namespace Sys2Proof.Machine

/-! The registers of a link -/

section
variable (l : Nat) {a b : Nat}

theorem tlc_tlnb_apart (ha : a < 0x1000) : pgTlc l + a ≠ pgTlnb l + b := by
  simp only [pgTlc, pgTlnb]
  omega

theorem tlcnt_tlc_apart (hb : b < 0x1000) : pgTlcnt l + a ≠ pgTlc l + b := by
  simp only [pgTlc, pgTlcnt]
  omega

theorem tlcnt_tlnb_apart (hb : b < 0x1000) : pgTlcnt l + a ≠ pgTlnb l + b := by
  simp only [pgTlcnt, pgTlnb]
  omega

theorem tlnb_tlc_apart (hb : b < 0x1000) : pgTlnb l + a ≠ pgTlc l + b := by
  simp only [pgTlc, pgTlnb]
  omega

variable {l}

theorem matrixReg_tlc (hl : l < 32) (ha : a < 0x1000) : ¬ matrixReg (pgTlc l + a) := by
  simp only [matrixReg, pgTlc]
  omega

theorem matrixReg_tlnb (hl : l < 32) (ha : a < 0x1000) : ¬ matrixReg (pgTlnb l + a) := by
  simp only [matrixReg, pgTlnb]
  omega

end

theorem Dev.tl_setTl_same (d : Dev) (l : Nat) (x : Tl) : (d.setTl l x).tl l = x := Table.get_put_same ..

theorem Dev.f_setTl (d : Dev) (l : Nat) (x : Tl) (p : Nat) (f : Fld) : (d.setTl l x).f p f = d.f p f := rfl

/-! LSTATE and RESULT (14 R306) -/

section
variable (d : Dev) (l : Nat)

theorem Dev.setLstate_lstate {x : Nat} (hx : x < 8) : (d.setLstate l x).lstate l = x := by
  rw [Dev.setLstate, Dev.lstate, Dev.setB, Dev.f_setF_ne _ _ _ _ _ _ (tlnb_tlc_apart l (by decide)), Dev.setB,
    Dev.f_setF_ne _ _ _ _ _ _ (tlnb_tlc_apart l (by decide)), Dev.f_setF_same _ _ _ _ (by decide)]
  exact Nat.mod_eq_of_lt hx

theorem Dev.nbResult_result {r : Nat} (hr : r < 16) : (d.nbResult l r).f (pgTlnb l) F.NB_STAT_RESULT = r := by
  rw [Dev.nbResult, Dev.irq, Dev.f_setF_apart _ _ rfl, Dev.f_setF_same _ _ _ _ (by decide)]
  exact Nat.mod_eq_of_lt hr

/-- A result shows in no register of the link page. -/
theorem Dev.nbResult_reg (r : Nat) {o : Nat} (ho : o < 0x1000) : (d.nbResult l r).reg (pgTlc l + o) = d.reg (pgTlc l + o) := by
  rw [Dev.nbResult, Dev.irq, Dev.reg_setF_ne _ _ _ _ (tlnb_tlc_apart l ho), Dev.reg_setF_ne _ _ _ _ (tlnb_tlc_apart l ho)]

theorem Dev.nbResult_lstate (r : Nat) : (d.nbResult l r).lstate l = d.lstate l := Dev.f_congr (d.nbResult_reg l r (by decide))

theorem Dev.nbResult_valid (r : Nat) : (d.nbResult l r).on (pgTlnb l) F.NB_ANN_INFO_VALID = d.on (pgTlnb l) F.NB_ANN_INFO_VALID := by
  rw [Dev.nbResult, Dev.irq, Dev.on_setF_apart _ _ rfl, Dev.on_setF_apart _ _ rfl]

/-! Back to SEEK (14 R304) -/

theorem Dev.tlSeek_lstate : (d.tlSeek l).lstate l = 1 := by
  rw [Dev.tlSeek, Dev.lstate, Dev.f_setTl, Dev.setB, Dev.f_setF_ne _ _ _ _ _ _ (tlnb_tlc_apart l (by decide)), ← Dev.lstate,
    d.setLstate_lstate l (by decide)]

theorem Dev.tlSeek_valid : (d.tlSeek l).on (pgTlnb l) F.NB_ANN_INFO_VALID = false := by
  rw [Dev.tlSeek, Dev.on, Dev.f_setTl, ← Dev.on, Dev.on_setB_same _ _ _ _ rfl (by decide)]

/-! What a link drops and sees (14 R303, R314, R318) -/

end

/-- `e` differs from `d` in what a link drops and sees: its commands and its mask, its drop counts, and LAUNCH_BAD with its interrupt. -/
structure Dev.LinkDrops (l : Nat) (d e : Dev) : Prop where
  rest : ∃ t u, e = { d with regs := t, tls := u }
  unbindAt : (e.tl l).unbindAt = (d.tl l).unbindAt
  binding : ∀ o < 0x1000, e.reg (pgTlnb l + o) = d.reg (pgTlnb l + o)
  status : ∀ f : Fld, f.ofs = 0x10 → F.TLC_STATUS_LAUNCH_BAD.apart f = true → e.f (pgTlc l) f = d.f (pgTlc l) f
  detachIrq : bitAt (e.reg (pgTlc l + 0x24)) 1 = bitAt (d.reg (pgTlc l + 0x24)) 1

namespace Dev.LinkDrops

variable {l : Nat} {d e r : Dev}

theorem refl (d : Dev) : LinkDrops l d d := ⟨⟨_, _, rfl⟩, rfl, fun _ _ => rfl, fun _ _ _ => rfl, rfl⟩

theorem trans (h : LinkDrops l d e) (k : LinkDrops l e r) : LinkDrops l d r where
  rest := by
    obtain ⟨t, u, rfl⟩ := h.rest
    obtain ⟨t', u', hr⟩ := k.rest
    exact ⟨t', u', hr⟩
  unbindAt := k.unbindAt.trans h.unbindAt
  binding o ho := (k.binding o ho).trans (h.binding o ho)
  status f ho ha := (k.status f ho ha).trans (h.status f ho ha)
  detachIrq := k.detachIrq.trans h.detachIrq

/-- A counter of the link counts. -/
theorem count (f : Fld) (x : Nat) : LinkDrops l d (d.setF (pgTlcnt l) f x) where
  rest := ⟨_, _, rfl⟩
  unbindAt := rfl
  binding _ ho := Dev.reg_setF_ne _ _ _ _ (tlcnt_tlnb_apart l ho)
  status _ ho _ := Dev.f_setF_ne _ _ _ _ _ _ (tlcnt_tlc_apart l (by omega))
  detachIrq := by rw [Dev.reg_setF_ne _ _ _ _ (tlcnt_tlc_apart l (by decide))]

/-- The link changes in what it holds. -/
theorem setTl {x : Tl} (hx : x.unbindAt = (d.tl l).unbindAt) : LinkDrops l d (d.setTl l x) where
  rest := ⟨_, _, rfl⟩
  unbindAt := (congrArg Tl.unbindAt (d.tl_setTl_same l x)).trans hx
  binding _ _ := rfl
  status _ _ _ := rfl
  detachIrq := rfl

theorem launchBad (d : Dev) : LinkDrops l d (d.launchBad l) := by
  have hbad : LinkDrops l d ((d.setB (pgTlc l) F.TLC_STATUS_LAUNCH_BAD true).irq (pgTlc l) 3) := by
    refine ⟨⟨_, _, rfl⟩, rfl, fun o _ => ?_, fun f ho ha => ?_, ?_⟩
    · rw [Dev.irq, Dev.reg_setF_ne _ _ _ _ (tlc_tlnb_apart l (by decide)), Dev.setB, Dev.reg_setF_ne _ _ _ _ (tlc_tlnb_apart l (by decide))]
    · rw [Dev.irq, Dev.f_setF_apart _ _ (by simp [Fld.apart, ho]), Dev.setB, Dev.f_setF_apart _ _ ha]
    · rw [Dev.irq, Dev.bitAt_setF_apart _ _ rfl, Dev.setB, Dev.bitAt_setF_apart _ _ rfl]
  exact hbad.trans (count _ _)

theorem tlDrop (d : Dev) : LinkDrops l d (d.tlDrop l) := by
  unfold Dev.tlDrop
  extract_lets x left
  have hleft : LinkDrops l d left := by
    unfold left
    split
    · exact refl d
    · exact (count _ _).trans (setTl rfl)
  split
  · exact hleft
  · have hbad (k : Nat) : LinkDrops l d ((List.range k).foldl (fun (d : Dev) _ => d.launchBad l) left) :=
      foldl_keeps _ _ hleft fun _ _ _ he => he.trans (launchBad _)
    exact (hbad _).trans (setTl ((hbad _).unbindAt.trans hleft.unbindAt.symm).symm)

theorem tlSee (d : Dev) : LinkDrops l d (d.tlSee l) := by
  unfold Dev.tlSee
  extract_lets seen x m s
  split
  · exact refl d
  split
  · exact tlDrop d
  · exact (tlDrop d).trans (setTl rfl)

variable (h : LinkDrops l d e)
include h

theorem lstate : e.lstate l = d.lstate l := h.status _ rfl rfl

theorem mem : e.mem = d.mem := by
  obtain ⟨t, u, rfl⟩ := h.rest
  rfl

theorem pulsesOf (k : Nat) : e.pulsesOf k = d.pulsesOf k := by
  obtain ⟨t, u, rfl⟩ := h.rest
  rfl

end Dev.LinkDrops

/-! A node is detached (14 R321) -/

section
variable (d : Dev) (l : Nat)

/-- The link page of a detached node. -/
def Dev.tlDetached (d : Dev) (l r : Nat) : Dev :=
  (((((d.tlSeek l).setB (pgTlc l) F.TLC_STATUS_DETACHED true).irq (pgTlc l) 1).tlCount l F.TLC_DET_COUNT).nbResult l r).pulse (tlEvent l + 2)

theorem Dev.tlDetached_reg (r : Nat) {o : Nat} (ho : o < 0x1000) : (d.tlDetached l r).reg (pgTlc l + o) =
    (((d.tlSeek l).setB (pgTlc l) F.TLC_STATUS_DETACHED true).irq (pgTlc l) 1).reg (pgTlc l + o) := by
  rw [Dev.tlDetached, show ∀ (x : Dev) e a, (x.pulse e).reg a = x.reg a from fun _ _ _ => rfl, Dev.nbResult_reg _ _ _ ho, Dev.tlCount, Dev.inc,
    Dev.reg_setF_ne _ _ _ _ (tlcnt_tlc_apart l ho)]

theorem Dev.tlDetached_lstate (r : Nat) : (d.tlDetached l r).lstate l = 1 := by
  rw [Dev.lstate, Dev.f_congr (d.tlDetached_reg l r (by decide)), Dev.irq, Dev.f_setF_apart _ _ rfl, Dev.setB, Dev.f_setF_apart _ _ rfl, ← Dev.lstate,
    Dev.tlSeek_lstate]

theorem Dev.tlDetached_shown (r : Nat) : (d.tlDetached l r).on (pgTlc l) F.TLC_STATUS_DETACHED = true := by
  rw [Dev.on_congr (d.tlDetached_reg l r (by decide)), Dev.irq, Dev.on_setF_apart _ _ rfl, Dev.on_setB_same _ _ _ _ rfl (by decide)]

theorem Dev.tlDetached_irq (r : Nat) : bitAt ((d.tlDetached l r).reg (pgTlc l + 0x24)) 1 = true := by
  rw [d.tlDetached_reg l r (by decide)]
  exact Dev.bitAt_irq _ (by decide)

theorem Dev.tlDetached_result {r : Nat} (hr : r < 16) : (d.tlDetached l r).f (pgTlnb l) F.NB_STAT_RESULT = r := by
  rw [Dev.tlDetached, Dev.f_pulse, Dev.nbResult_result _ _ hr]

theorem Dev.tlDetached_pulses (r : Nat) : (d.tlDetached l r).pulsesOf (tlEvent l + 2) = d.pulsesOf (tlEvent l + 2) + 1 := by
  rw [Dev.tlDetached, Dev.pulsesOf_pulse]
  rfl

/-- A detached node: the link seeks, says so, raises its interrupt and its event. -/
theorem Dev.tlDetach_says {l : Nat} (hl : l < 32) {r : Nat} (hr : r < 16) :
    let e := d.tlDetach l r
    e.lstate l = 1 ∧ e.on (pgTlc l) F.TLC_STATUS_DETACHED = true ∧ e.f (pgTlnb l) F.NB_STAT_RESULT = r ∧ bitAt (e.reg (pgTlc l + 0x24)) 1 = true ∧
      e.pulsesOf (tlEvent l + 2) = d.pulsesOf (tlEvent l + 2) + 1 ∧ e.mem = d.mem := by
  obtain ⟨t, ht⟩ : ∃ t, t = d.tlDetached l r := ⟨_, rfl⟩
  have hdetach : d.tlDetach l r = t.shutter.tlSee l := ht ▸ rfl
  have hmatrix := Dev.MatrixKeeps.shutter t
  have hpage {o : Nat} (ho : o < 0x1000) : t.shutter.reg (pgTlc l + o) = t.reg (pgTlc l + o) := hmatrix.reg _ (matrixReg_tlc hl ho)
  have hdrops : Dev.LinkDrops l t.shutter (t.shutter.tlSee l) := .tlSee _
  rw [hdetach]
  refine ⟨?_, ?_, ?_, ?_, ?_, ?_⟩
  · rw [hdrops.lstate, Dev.lstate, Dev.f_congr (hpage (by decide)), ht]
    exact d.tlDetached_lstate l r
  · rw [Dev.on, hdrops.status _ rfl rfl, Dev.f_congr (hpage (by decide)), ht]
    exact d.tlDetached_shown l r
  · rw [Dev.f_congr (hdrops.binding _ (by decide)), Dev.f_congr (hmatrix.reg _ (matrixReg_tlnb hl (by decide))), ht]
    exact d.tlDetached_result l hr
  · rw [hdrops.detachIrq, hpage (by decide), ht]
    exact d.tlDetached_irq l r
  · have hpulses : t.shutter.pulses = t.pulses := (congrArg Dev.pulses hmatrix.rest : _)
    rw [hdrops.pulsesOf, Dev.pulsesOf, hpulses, ← Dev.pulsesOf, ht]
    exact d.tlDetached_pulses l r
  · rw [hdrops.mem, hmatrix.mem, ht]
    rfl

/-! Commands (14 R306, R308, R321) -/

theorem Dev.pageWrite_nbCmd (w : Who) {p : PageInfo} (hk : p.kind = .tlnb) (v : Nat) : d.pageWrite w p 0x60 4 v = d.nbCmd p.inst (BitVec.ofNat 32 v) := by
  rw [Dev.pageWrite, if_neg (by decide), hk]
  simp only [Dev.writeOuter, hk]
  rw [if_pos trivial]

theorem Dev.nbCmd_bind : d.nbCmd l 1 = d.nbBind l := by
  simp only [Dev.nbCmd, show bitAt (1 : W32) 0 = true from rfl, show bitAt (1 : W32) 1 = false from rfl, show bitAt (1 : W32) 2 = false from rfl, if_true,
    Bool.false_eq_true, if_false]

theorem Dev.nbCmd_unbind : d.nbCmd l 2 = d.nbUnbind l := by
  simp only [Dev.nbCmd, show bitAt (2 : W32) 0 = false from rfl, show bitAt (2 : W32) 1 = true from rfl, show bitAt (2 : W32) 2 = false from rfl, if_true,
    Bool.false_eq_true, if_false]

theorem Dev.nbCmd_ack : d.nbCmd l 4 = d.ackDetach l := by
  simp only [Dev.nbCmd, show bitAt (4 : W32) 0 = false from rfl, show bitAt (4 : W32) 1 = false from rfl, show bitAt (4 : W32) 2 = true from rfl, if_true,
    Bool.false_eq_true, if_false]

variable {d l}

theorem Dev.nbBind_elsewhere (h : d.lstate l ≠ 2) : d.nbBind l = d.nbResult l 0xB := if_pos h

theorem Dev.nbBind_other (h : d.lstate l = 2) (hid : d.r64 (pgTlnb l) 0x48 ≠ d.r64 (pgTlnb l) 0x58) : d.nbBind l = d.nbResult l 3 :=
  (if_neg (not_not_intro h)).trans (if_pos hid)

theorem Dev.nbBind_small (h : d.lstate l = 2) (hid : d.r64 (pgTlnb l) 0x48 = d.r64 (pgTlnb l) 0x58)
    (hn : d.f (pgTlnb l) F.NB_ANN_CLASS_NCH < d.f (pgTlnb l) F.NB_CFG_NCH ∨ d.f (pgTlnb l) F.NB_ANN_CLASS_NVAL < d.f (pgTlnb l) F.NB_CFG_NVAL) :
    d.nbBind l = d.nbResult l 4 :=
  (if_neg (not_not_intro h)).trans ((if_neg (not_not_intro hid)).trans (if_pos hn))

theorem Dev.nbBind_goes (h : d.lstate l = 2) (hid : d.r64 (pgTlnb l) 0x48 = d.r64 (pgTlnb l) 0x58)
    (hch : d.f (pgTlnb l) F.NB_CFG_NCH ≤ d.f (pgTlnb l) F.NB_ANN_CLASS_NCH)
    (hval : d.f (pgTlnb l) F.NB_CFG_NVAL ≤ d.f (pgTlnb l) F.NB_ANN_CLASS_NVAL) : d.nbBind l = d.tlBind l (d.r64 (pgTlnb l) 0x48) false :=
  (if_neg (not_not_intro h)).trans ((if_neg (not_not_intro hid)).trans (if_neg (by omega)))

theorem Dev.nbUnbind_elsewhere (h : d.lstate l < 3 ∨ 5 < d.lstate l) : d.nbUnbind l = d.nbResult l 0xB := if_pos h

variable (d l)

/-- The node of the link is released. -/
def Dev.tlUnbound : Dev :=
  ((d.tlSeek l).nbResult l 7).setTl l { ((d.tlSeek l).nbResult l 7).tl l with unbindAt := some (d.tick, (d.tl l).heldId) }

theorem Dev.tlUnbound_lstate : (d.tlUnbound l).lstate l = 1 := by
  rw [Dev.tlUnbound, Dev.lstate, Dev.f_setTl, ← Dev.lstate, Dev.nbResult_lstate, Dev.tlSeek_lstate]

theorem Dev.tlUnbound_result : (d.tlUnbound l).f (pgTlnb l) F.NB_STAT_RESULT = 7 := by
  rw [Dev.tlUnbound, Dev.f_setTl, Dev.nbResult_result _ _ (by decide)]

theorem Dev.tlUnbound_valid : (d.tlUnbound l).on (pgTlnb l) F.NB_ANN_INFO_VALID = false := by
  rw [Dev.tlUnbound, Dev.on, Dev.f_setTl, ← Dev.on, Dev.nbResult_valid, Dev.tlSeek_valid]

theorem Dev.tlUnbound_at : ((d.tlUnbound l).tl l).unbindAt = some (d.tick, (d.tl l).heldId) := by
  rw [Dev.tlUnbound, Dev.tl_setTl_same]

theorem Dev.tlUnbound_mem : (d.tlUnbound l).mem = d.mem := rfl

variable {d l}

/-- An UNBIND of a link that is bound or binding. -/
theorem Dev.nbUnbind_says (h3 : 3 ≤ d.lstate l) (h5 : d.lstate l ≤ 5) :
    let e := d.nbUnbind l
    e.lstate l = 1 ∧ e.f (pgTlnb l) F.NB_STAT_RESULT = 7 ∧ (e.tl l).unbindAt = some (d.tick, (d.tl l).heldId) ∧
      e.on (pgTlnb l) F.NB_ANN_INFO_VALID = false ∧ e.mem = d.mem := by
  have hout : d.nbUnbind l = (d.tlUnbound l).tlSee l := (if_neg (by omega)).trans rfl
  have hdrops : Dev.LinkDrops l (d.tlUnbound l) ((d.tlUnbound l).tlSee l) := .tlSee _
  rw [hout]
  refine ⟨?_, ?_, ?_, ?_, ?_⟩
  · rw [hdrops.lstate, Dev.tlUnbound_lstate]
  · rw [Dev.f_congr (hdrops.binding _ (by decide)), Dev.tlUnbound_result]
  · rw [hdrops.unbindAt, Dev.tlUnbound_at]
  · rw [Dev.on_congr (hdrops.binding _ (by decide)), Dev.tlUnbound_valid]
  · rw [hdrops.mem, Dev.tlUnbound_mem]

/-- A BIND that goes out. -/
theorem Dev.tlBind_says (d : Dev) (l id : Nat) (again : Bool) :
    let e := d.tlBind l id again
    e.lstate l = 3 ∧ (e.tl l).bindAt = some d.tick ∧ (e.tl l).heldId = id ∧ (e.tl l).bindDue = d.tick + 20 * d.tlSlot l ∧ e.mem = d.mem := by
  have hslot : (d.setLstate l 3).tlSlot l = d.tlSlot l := by
    rw [Dev.tlSlot, Dev.setLstate, Dev.setB, Dev.f_setF_ne _ _ _ _ _ _ (tlnb_tlc_apart l (by decide)), Dev.setB,
      Dev.f_setF_ne _ _ _ _ _ _ (tlnb_tlc_apart l (by decide)), Dev.f_setF_apart _ _ rfl, Dev.tlSlot]
  have hout : d.tlBind l id again = (d.setLstate l 3).setTl l { (d.setLstate l 3).tl l with
    heldId := id, rebind := again, bindAt := some d.tick, bindDue := d.tick + 20 * d.tlSlot l } := rfl
  rw [hout]
  refine ⟨?_, ?_, ?_, ?_, rfl⟩
  · rw [Dev.lstate, Dev.f_setTl, ← Dev.lstate, d.setLstate_lstate l (by decide)]
  all_goals rw [Dev.tl_setTl_same]

/-- No BIND_ACK has come in time. -/
theorem Dev.bindTimeout_says (h : d.lstate l = 3) (hdue : (d.tl l).bindDue < d.tick) :
    let e := d.bindTimeout l
    e.lstate l = 2 ∧ e.f (pgTlnb l) F.NB_STAT_RESULT = 6 ∧ (e.tl l).bindAt = none ∧ (e.tl l).annTick = d.tick ∧ e.mem = d.mem := by
  have hout : d.bindTimeout l =
      ((d.setLstate l 2).nbResult l 6).setTl l { d.tl l with bindAt := none, rebind := false, annTick := d.tick } := if_neg (by omega)
  rw [hout]
  refine ⟨?_, ?_, ?_, ?_, rfl⟩
  · rw [Dev.lstate, Dev.f_setTl, ← Dev.lstate, Dev.nbResult_lstate, d.setLstate_lstate l (by decide)]
  · rw [Dev.f_setTl, Dev.nbResult_result _ _ (by decide)]
  all_goals rw [Dev.tl_setTl_same]

/-- A TIME_RESP has not come in time. -/
theorem Dev.timeRespMiss_says {o : Nat × Nat × Nat} (ho : (d.tl l).outstanding.find? (fun o => o.2.2 < d.tick) = some o) :
    let e := d.timeRespMiss l
    (e.tl l).outstanding = (d.tl l).outstanding.erase o ∧ e.mem = d.mem ∧
      e.f (pgTltt l) F.TT_MISS_COUNT = satInc F.TT_MISS_COUNT.width (d.f (pgTltt l) F.TT_MISS_COUNT) := by
  have hout : d.timeRespMiss l = (d.setTl l { d.tl l with outstanding := (d.tl l).outstanding.erase o }).inc (pgTltt l) F.TT_MISS_COUNT := by
    rw [Dev.timeRespMiss, ho]
  rw [hout]
  refine ⟨?_, rfl, ?_⟩
  · rw [Dev.inc, show ∀ (x : Dev) p f v, (x.setF p f v).tl l = x.tl l from fun _ _ _ _ => rfl, Dev.tl_setTl_same]
  · rw [Dev.inc, Dev.f_setF_same _ _ _ _ (by decide), Dev.f_setTl]
    exact Nat.mod_eq_of_lt (satInc_lt _ _)

end

end Sys2Proof.Machine

namespace Sys2Proof.Claims

open Sys2Proof.Machine

/-- Settles O34: the commands and the time-outs by the state of the link; what a link drops on the way changes no state of its binding. -/
theorem linkBinding : Obligations.LinkBinding := by
  intro s l
  have hcmd (w : Who) (v : Nat) : s.dev.pageWrite w (pageTlnb l) 0x60 4 v = s.dev.nbCmd l (BitVec.ofNat 32 v) := s.dev.pageWrite_nbCmd w rfl v
  refine ⟨fun w hacc => ?_, fun w hacc => ?_, fun w hacc => ?_, fun hclk => ?_⟩
  · have hbind := (hcmd w 1).trans (s.dev.nbCmd_bind l)
    have hwrote {e : Dev} (he : s.dev.nbBind l = e) : Wrote (.nbBind w l) s e :=
      hacc.wrote (pgTlnb_aligned l) (by decide) (pageAt_tlnb l) (by decide) rfl (hbind.trans he)
    refine ⟨fun h => hwrote (Dev.nbBind_elsewhere h), fun h hid => hwrote (Dev.nbBind_other h hid), fun h hid hn => hwrote (Dev.nbBind_small h hid hn),
      fun h hid hch hval => ?_⟩
    have hsays := s.dev.tlBind_says l (s.dev.r64 (pgTlnb l) 0x48) false
    exact hacc.gives (pgTlnb_aligned l) (by decide) (pageAt_tlnb l) (by decide) rfl (hbind.trans (Dev.nbBind_goes h hid hch hval)) hsays
  · have hunbind := (hcmd w 2).trans (s.dev.nbCmd_unbind l)
    refine ⟨fun h => hacc.wrote (pgTlnb_aligned l) (by decide) (pageAt_tlnb l) (by decide) rfl (hunbind.trans (Dev.nbUnbind_elsewhere h)), fun h3 h5 => ?_⟩
    exact hacc.gives (pgTlnb_aligned l) (by decide) (pageAt_tlnb l) (by decide) rfl hunbind (Dev.nbUnbind_says h3 h5)
  · exact hacc.wrote (pgTlnb_aligned l) (by decide) (pageAt_tlnb l) (by decide) rfl ((hcmd w 4).trans (s.dev.nbCmd_ack l))
  · refine ⟨fun h => ?_, fun h3 hdue => ?_, fun h => ?_, fun h2 hdue => ?_, fun hnone => ?_, fun o ho => ?_, fun h => ?_, fun h hdue => ?_, fun h => ?_,
      fun h6 hdue => ?_⟩
    · exact does_of_clocked (f := fun d => d.bindTimeout l) hclk rfl (if_pos h)
    · exact gives_of_clocked (f := fun d => d.bindTimeout l) hclk rfl rfl (Dev.bindTimeout_says h3 hdue)
    · exact does_of_clocked (f := fun d => d.announceTimeout l) hclk rfl (if_pos h)
    · have hout : s.dev.announceTimeout l = s.dev.tlSeek l := if_neg (by omega)
      exact gives_of_clocked (f := fun d => d.announceTimeout l) hclk rfl hout ⟨s.dev.tlSeek_lstate l, s.dev.tlSeek_valid l, rfl⟩
    · exact does_of_clocked (f := fun d => d.timeRespMiss l) hclk rfl (by rw [Dev.timeRespMiss, hnone])
    · exact gives_of_clocked (f := fun d => d.timeRespMiss l) hclk rfl rfl (Dev.timeRespMiss_says ho)
    · exact does_of_clocked (f := fun d => d.detachSilent l) hclk rfl (if_neg (by simp [h]))
    · have hout : s.dev.detachSilent l = s.dev.tlDetach l 8 := if_pos (by simp [h, hdue])
      obtain ⟨hstate, hshown, hresult, hirq, hpulse, hmem⟩ := s.dev.tlDetach_says (l := l) l.isLt (r := 8) (by decide)
      exact gives_of_clocked (f := fun d => d.detachSilent l) hclk rfl hout ⟨hstate, hshown, hresult, hirq, hpulse, hmem⟩
    · exact does_of_clocked (f := fun d => d.resumeTimeout l) hclk rfl (if_pos h)
    · have hout : s.dev.resumeTimeout l = s.dev.tlDetach l 8 := if_neg (by omega)
      obtain ⟨hstate, hshown, hresult, -⟩ := s.dev.tlDetach_says (l := l) l.isLt (r := 8) (by decide)
      exact gives_of_clocked (f := fun d => d.resumeTimeout l) hclk rfl hout ⟨hstate, hshown, hresult⟩

end Sys2Proof.Claims
end

section
/-!
Launch entries and deadlines (04 R93-R103, 08 R198).
-/
namespace Sys2Proof.Machine

/-! Updates within one page -/

/-- `e` differs from `d` in registers of page p only. -/
structure Dev.PageOnly (p : Nat) (d e : Dev) : Prop where
  regs : d.RegsOnly e
  reg : ∀ a, ¬ (p ≤ a ∧ a < p + 0x1000) → e.reg a = d.reg a

namespace Dev.PageOnly

variable {p : Nat} {d e r : Dev}

theorem refl (d : Dev) : PageOnly p d d := ⟨.refl d, fun _ _ => rfl⟩

theorem trans (h : PageOnly p d e) (k : PageOnly p e r) : PageOnly p d r :=
  ⟨h.regs.trans k.regs, fun a ha => (k.reg a ha).trans (h.reg a ha)⟩

theorem setF {f : Fld} (hf : f.ofs < 0x1000) (x : Nat) : PageOnly p d (d.setF p f x) :=
  ⟨.setF _ _ _, fun _ ha => Dev.reg_setF_ne _ _ _ _ (by omega)⟩

theorem ite {c : Prop} [Decidable c] (h : PageOnly p d e) (k : PageOnly p d r) : PageOnly p d (if c then e else r) := by
  split
  · exact h
  · exact k

theorem on (h : PageOnly p d e) {q : Nat} {g : Fld} (hg : ¬ (p ≤ q + g.ofs ∧ q + g.ofs < p + 0x1000)) : e.on q g = d.on q g := Dev.on_congr (h.reg _ hg)

end Dev.PageOnly

/-! The loops of a tick without a firing -/

theorem Dev.forN_fixed {d : Dev} (n : Nat) {g : Nat → Dev → Dev} (h : ∀ i < n, g i d = d) : d.forN n g = d :=
  Dev.forN_keeps (P := fun e => e = d) n g rfl fun i hi _ he => he ▸ h i hi

theorem Flit.fenced_none (f : Flit) (c now : Nat) : f.fenced c 0 now = false := by
  unfold Flit.fenced
  cases f.fence with
  | none => rw [Bool.and_false, Bool.false_and]
  | some g =>
    have hbit : (nbits 0 g 1 == 1) = false := by simp [nbits]
    dsimp only
    rw [hbit, Bool.and_false, Bool.false_and]

section
variable (d : Dev) (c : Nat)

/-- No firing releases a commit. -/
theorem Dev.fenceRelease_none : d.fenceRelease c 0 = d := by
  unfold Dev.fenceRelease
  simp only [Flit.fenced_none, Bool.not_false, List.filter_true, List.filter_false, List.foldl_nil]

theorem ofAction_none {l : List Firing} (h : ∀ f ∈ l, f.action = 0) {k : Nat} (hk : k ≠ 0) : ofAction l k = [] := by
  refine List.filter_eq_nil_iff.mpr fun f hf hact => hk ?_
  rw [beq_iff_eq] at hact
  exact hact.symm.trans (h f hf)

/-- Entries whose ACTION is NONE act on nothing. -/
theorem Dev.launchActions_none {l : List Firing} (h : ∀ f ∈ l, f.action = 0) : d.launchActions c l = d := by
  have hmask : argMask [] = 0 := rfl
  have hbit (i : Nat) : ¬ nbits 0 i 1 = 1 := by simp [nbits]
  unfold Dev.launchActions
  simp only [ofAction_none h (Nat.succ_ne_zero _), hmask, if_neg (hbit _), List.foldl_nil, Dev.fenceRelease_none]
  rw [Dev.forN_fixed 6 fun _ _ => rfl]
  unfold Dev.sendFrames Dev.raiseEvents
  simp only [List.foldl_nil, List.any_nil, Bool.false_eq_true, if_false]
  exact Dev.forN_fixed 8 fun _ _ => rfl

/-! An entry as it stood at the start of the tick (04 R98) -/

variable (e : Nat)

/-- The registers of an entry as they stood at the start of the tick. -/
def Dev.entryRegs : Dev := d.forN 8 fun i x => x.setReg (lePage c e + 0x100 + 4 * i) (d.atTick.reg (lePage c e + 0x100 + 4 * i))

theorem Dev.entryRegs_regs : d.RegsOnly (d.entryRegs c e) := Dev.forN_keeps 8 _ (.refl d) fun _ _ _ hx => hx.trans (.setReg _ _)

theorem Dev.entryRegs_reg {i : Nat} (hi : i < 8) :
    (d.entryRegs c e).reg (lePage c e + 0x100 + 4 * i) = d.atTick.reg (lePage c e + 0x100 + 4 * i) := by
  have hplaces := (Dev.forN_places (P := fun j x => x.reg (lePage c e + 0x100 + 4 * j)) (I := fun _ => True)
    (F := fun j _ => d.atTick.reg (lePage c e + 0x100 + 4 * j)) (d := d)
    (g := fun i x => x.setReg (lePage c e + 0x100 + 4 * i) (d.atTick.reg (lePage c e + 0x100 + 4 * i)))
    trivial (fun _ _ _ => trivial) (fun i j x hij => Dev.reg_setReg_ne _ _ (by omega)) (fun i x _ => Dev.reg_setReg_same _ _ _) 8).2 i
  rw [if_pos hi] at hplaces
  rw [Dev.entryRegs, hplaces]

theorem Dev.entryRegs_other {a : Nat} (ha : a < lePage c e + 0x100 ∨ lePage c e + 0x120 ≤ a) : (d.entryRegs c e).reg a = d.reg a :=
  Dev.forN_keeps (P := fun x => x.reg a = d.reg a) 8 _ rfl fun i hi _ hx => (Dev.reg_setReg_ne _ _ (by omega)).trans hx

theorem Dev.entryBack_eq : d.entryBack c e =
    { d.entryRegs c e with anchors := Table.put {} (d.entryRegs c e).anchors (256 * c + e) (d.atTick.anchor c e) } := rfl

theorem Dev.entryBack_regs : (d.entryBack c e).regs = (d.entryRegs c e).regs := by rw [Dev.entryBack_eq]

theorem Dev.entryBack_rest : ∃ t u, d.entryBack c e = { d with regs := t, anchors := u } := by
  obtain ⟨x, hx⟩ : ∃ x, x = d.entryRegs c e := ⟨_, rfl⟩
  obtain ⟨t, rfl⟩ := hx ▸ d.entryRegs_regs c e
  rw [Dev.entryBack_eq, ← hx]
  exact ⟨_, _, rfl⟩

/-! A firing (04 R95, R96) -/

variable {e}

theorem pgLctl_apart (c e : Nat) {o : Nat} (ho : o < 0x1000) : pgLctl c + o < lePage c e + 0x100 ∨ lePage c e + 0x120 ≤ pgLctl c + o := by
  simp only [pgLctl, lePage, pgLent]
  omega

theorem lePage_lctl (c : Nat) {e o q : Nat} (he : e < 256) (ho : o < 0x120) (hq : q < 0x1000) : lePage c e + o ≠ pgLctl c + q := by
  simp only [pgLctl, lePage, pgLent]
  omega

variable (f : Firing)

theorem Dev.leLate_regs : d.RegsOnly (d.leLate c f) := by
  unfold Dev.leLate
  exact .ite (.refl d) (.trans (.setF ..) (.trans (.setF ..) (.trans (.setF ..) (.setF ..))))

theorem Dev.leLate_reg (hf : f.e < 256) {o : Nat} (ho : o < 0x120) (hne : o ≠ 0x114) : (d.leLate c f).reg (lePage c f.e + o) = d.reg (lePage c f.e + o) := by
  have hapart {q : Nat} (hq : q < 0x1000) : pgLctl c + q ≠ lePage c f.e + o := (lePage_lctl c hf ho hq).symm
  unfold Dev.leLate
  extract_lets late counted
  split
  · rfl
  · rw [Dev.irq, Dev.reg_setF_ne _ _ _ _ (hapart (by decide)), Dev.reg_setF_ne _ _ _ _ (hapart (by decide)), Dev.inc,
      Dev.reg_setF_ne _ _ _ _ (hapart (by decide))]
    exact Dev.reg_setF_ne _ _ _ _ (by simp only [F.LE_CTRL_LATE]; omega)

theorem Dev.leLate_expert (hf : f.e < 256) : (d.leLate c f).expert (pgLctl c) = d.expert (pgLctl c) := by
  unfold Dev.leLate
  extract_lets late counted
  split
  · rfl
  · rw [Dev.expert, Dev.irq, Dev.on_setF_apart _ _ rfl, Dev.on_setF_apart _ _ rfl, Dev.inc, Dev.on_setF_apart _ _ rfl,
      show late.on (pgLctl c) F.H_EXPERT = d.on (pgLctl c) F.H_EXPERT from
        Dev.on_congr (Dev.reg_setF_ne _ _ _ _ (lePage_lctl c hf (by decide) (by decide))), Dev.expert]

/-- A late firing says so. -/
theorem Dev.leLate_shows (hf : f.e < 256) (h : f.time < d.count) : (d.leLate c f).on (lePage c f.e) F.LE_CTRL_LATE = true ∧
    bitAt ((d.leLate c f).reg (pgLctl c + 0x24)) 0 = true := by
  have hapart {q : Nat} (hq : q < 0x1000) : pgLctl c + q ≠ lePage c f.e + F.LE_CTRL_LATE.ofs := (lePage_lctl c hf (by decide) hq).symm
  unfold Dev.leLate
  extract_lets late counted
  rw [if_neg (by omega)]
  refine ⟨?_, Dev.bitAt_irq _ (by decide)⟩
  rw [Dev.irq, Dev.on_congr (Dev.reg_setF_ne _ _ _ _ (hapart (by decide))), Dev.on_congr (Dev.reg_setF_ne _ _ _ _ (hapart (by decide))), Dev.inc,
    Dev.on_congr (Dev.reg_setF_ne _ _ _ _ (hapart (by decide))), Dev.on_setB_same _ _ _ _ rfl (by decide)]

/-- An expert entry without a period ends with its firing. -/
def Dev.leSpent : Dev :=
  (((((d.leLate c f).setF (lePage c f.e) F.LE_COUNT_COUNT 0).setB (lePage c f.e) F.LE_CTRL_ARM false).setB (lePage c f.e) F.LE_CTRL_DONE true).setAnchor c f.e)

theorem Dev.leReload_once (hf : f.e < 256) (hx : d.expert (pgLctl c) = true) (hper : f.period = 0)
    (hforever : d.on (lePage c f.e) F.LE_COUNT_FOREVER = false) : d.leReload c f = d.leSpent c f := by
  have hon : (d.leLate c f).on (lePage c f.e) F.LE_COUNT_FOREVER = false :=
    (Dev.on_congr (d.leLate_reg c f hf (by decide) (by decide))).trans hforever
  have hcount : ((d.leLate c f).setF (lePage c f.e) F.LE_COUNT_COUNT 0).f (lePage c f.e) F.LE_COUNT_COUNT = 0 := Dev.f_setF_same _ _ _ _ (by decide)
  unfold Dev.leReload
  extract_lets p late m forever repeated counted ended
  have hcounted : counted = late.setF p F.LE_COUNT_COUNT 0 := if_pos hper
  have hended : ended = ((late.setF p F.LE_COUNT_COUNT 0).setB p F.LE_CTRL_ARM false).setB p F.LE_CTRL_DONE true := by
    unfold ended
    rw [if_pos ⟨hcounted ▸ hcount, hon⟩, hcounted]
  have hskipped (x : Dev) : x.leSkipped c (0 - 1) = x := if_pos rfl
  rw [if_pos ((d.leLate_expert c f hf).trans hx), show m = 0 from if_pos hper, hskipped, hended, Dev.leSpent]

theorem Dev.leSpent_disarmed : (d.leSpent c f).on (lePage c f.e) F.LE_CTRL_ARM = false := by
  rw [Dev.leSpent, show ∀ (x : Dev) p g, (x.setAnchor c f.e).on p g = x.on p g from fun _ _ _ => rfl, Dev.setB, Dev.on_setF_apart _ _ rfl,
    Dev.on_setB_same _ _ _ _ rfl (by decide)]

theorem Dev.leSpent_done : (d.leSpent c f).on (lePage c f.e) F.LE_CTRL_DONE = true := by
  rw [Dev.leSpent, show ∀ (x : Dev) p g, (x.setAnchor c f.e).on p g = x.on p g from fun _ _ _ => rfl, Dev.on_setB_same _ _ _ _ rfl (by decide)]

theorem Dev.leSpent_rest : ∃ t u, d.leSpent c f = { d with regs := t, anchors := u } := by
  have hregs {x : Dev} (hx : d.RegsOnly x) : ∃ t u, x.setAnchor c f.e = { d with regs := t, anchors := u } := by
    obtain ⟨t, rfl⟩ := hx
    exact ⟨_, _, rfl⟩
  exact hregs ((d.leLate_regs c f).trans (.trans (.setF ..) (.trans (.setF ..) (.setF ..))))

theorem Dev.leSpent_late (hf : f.e < 256) (h : f.time < d.count) : (d.leSpent c f).on (lePage c f.e) F.LE_CTRL_LATE = true ∧
    bitAt ((d.leSpent c f).reg (pgLctl c + 0x24)) 0 = true := by
  obtain ⟨hlate, hirq⟩ := d.leLate_shows c f hf h
  constructor
  · rw [Dev.leSpent, show ∀ (x : Dev) p g, (x.setAnchor c f.e).on p g = x.on p g from fun _ _ _ => rfl, Dev.setB, Dev.on_setF_apart _ _ rfl,
      Dev.setB, Dev.on_setF_apart _ _ rfl, Dev.on_setF_apart _ _ rfl, hlate]
  · rw [Dev.leSpent, show ∀ (x : Dev) a, (x.setAnchor c f.e).reg a = x.reg a from fun _ _ => rfl, Dev.setB,
      Dev.reg_setF_ne _ _ _ _ (lePage_lctl c hf (by decide) (by decide)), Dev.setB, Dev.reg_setF_ne _ _ _ _ (lePage_lctl c hf (by decide) (by decide)),
      Dev.reg_setF_ne _ _ _ _ (lePage_lctl c hf (by decide) (by decide)), hirq]

end

/-! The firings of a tick (04 R93, R99) -/

section
variable (d : Dev) (c : Nat)

/-- The entries that fire in the tick. -/
def Dev.firings : List Nat := (List.range 256).filter (fun e => (d.en (pgLctl c) && d.en (pgLent c (e / 64))) && d.atTick.leFires c e)

/-- The tick's firings are under way, with the event of a late one. -/
def Dev.firingMarked (late : Bool) : Dev := if late then (d.act 0 c).pulse (evCas c 109) else d.act 0 c

variable {d c}

theorem Dev.launchFire_acted (h : d.acted 0 c = true) : d.launchFire c = d := if_pos (by rw [h, Bool.or_true])

theorem Dev.launchFire_eq (hdom : d.domOn (domCas c) = true) (hclk : d.clocksStill = false) (hact : d.acted 0 c = false) : d.launchFire c =
    (((d.firings c).map (d.atTick.firing c)).foldl (fun x f => ((x.entryBack c f.e).leReload c f).entryLand c f.e)
      (d.firingMarked c (((d.firings c).map (d.atTick.firing c)).any fun f => decide (f.time < d.count)))).launchActions c
        ((d.firings c).map (d.atTick.firing c)) := by
  unfold Dev.launchFire
  rw [if_neg (by rw [hdom, hclk, hact]; decide)]
  rfl

theorem Dev.launchFire_none (hdom : d.domOn (domCas c) = true) (hclk : d.clocksStill = false) (hact : d.acted 0 c = false) (hl : d.firings c = []) :
    d.launchFire c = d.act 0 c := by
  rw [Dev.launchFire_eq hdom hclk hact, hl, List.map_nil, List.foldl_nil, List.any_nil, Dev.launchActions_none _ _ (by simp)]
  rfl

theorem Dev.launchFire_one {e : Nat} (hdom : d.domOn (domCas c) = true) (hclk : d.clocksStill = false) (hact : d.acted 0 c = false)
    (hl : d.firings c = [e]) (haction : d.atTick.f (lePage c e) F.LE_CTRL_ACTION = 0) : ∃ late, d.launchFire c =
      (((d.firingMarked c late).entryBack c e).leReload c (d.atTick.firing c e)).entryLand c e := by
  refine ⟨([d.atTick.firing c e].any fun f => decide (f.time < d.count)), ?_⟩
  rw [Dev.launchFire_eq hdom hclk hact, hl, List.map_cons, List.map_nil, List.foldl_cons, List.foldl_nil,
    Dev.launchActions_none _ _ (fun f hf => by rw [List.mem_singleton.mp hf]; exact haction)]
  rfl

theorem Dev.entryLand_none {e : Nat} (h : d.landedAt (lePage c e + 0x100) 0x20 = []) : d.entryLand c e = d := by
  unfold Dev.entryLand
  rw [h]
  rfl

variable (d c)

/-- What the mark of a tick's firings leaves. -/
theorem Dev.firingMarked_keeps (late : Bool) : let u := d.firingMarked c late
    u.regs = d.regs ∧ u.atTick.regs = d.atTick.regs ∧ u.time = d.time ∧ u.mem = d.mem ∧ u.queues = d.queues ∧ u.present.landed = d.present.landed := by
  cases late <;> exact ⟨rfl, rfl, rfl, rfl, rfl, rfl⟩

variable {d c}

/-- An expert entry without a period that fires alone and acts on nothing. -/
theorem Dev.launchFire_once {e : Nat} (he : e < 256) (hdom : d.domOn (domCas c) = true) (hclk : d.clocksStill = false) (hact : d.acted 0 c = false)
    (hl : d.firings c = [e]) (hx : d.expert (pgLctl c) = true) (hv : d.atTick.expert (pgLctl c) = true) (hper : d.atTick.lePeriod c e = 0)
    (haction : d.atTick.f (lePage c e) F.LE_CTRL_ACTION = 0) (hforever : d.atTick.on (lePage c e) F.LE_COUNT_FOREVER = false)
    (hland : d.landedAt (lePage c e + 0x100) 0x20 = []) :
    let r := d.launchFire c
    r.on (lePage c e) F.LE_CTRL_ARM = false ∧ r.on (lePage c e) F.LE_CTRL_DONE = true ∧ r.mem = d.mem ∧ r.queues = d.queues ∧
      (d.atTick.leTime c e < d.count → r.on (lePage c e) F.LE_CTRL_LATE = true ∧ bitAt (r.reg (pgLctl c + 0x24)) 0 = true) := by
  obtain ⟨late, hfire⟩ := Dev.launchFire_one hdom hclk hact hl haction
  have htime : (d.atTick.firing c e).time = d.atTick.leTime c e := if_pos hv
  have hperiod : (d.atTick.firing c e).period = 0 := (if_pos hv).trans hper
  obtain ⟨hregs, hback, hclock, hmem, hqueues, hlanded⟩ := d.firingMarked_keeps c late
  obtain ⟨f, hf⟩ : ∃ f, f = d.atTick.firing c e := ⟨_, rfl⟩
  obtain ⟨u, hu⟩ : ∃ u, u = d.firingMarked c late := ⟨_, rfl⟩
  have hfe : e = f.e := hf ▸ rfl
  rw [← hf] at hfire htime hperiod
  rw [← hu] at hfire hregs hback hclock hmem hqueues hlanded
  subst hfe
  obtain ⟨w, hw⟩ : ∃ w, w = u.entryBack c f.e := ⟨_, rfl⟩
  rw [← hw] at hfire
  have hwreg (a : Nat) : w.reg a = (u.entryRegs c f.e).reg a := by rw [Dev.reg, hw, Dev.entryBack_regs, ← Dev.reg]
  have hwx : w.expert (pgLctl c) = true := by
    refine Eq.trans (Dev.on_congr ?_) hx
    rw [hwreg, u.entryRegs_other c f.e (pgLctl_apart c f.e (by decide)), Dev.reg, hregs, ← Dev.reg]
  have hwforever : w.on (lePage c f.e) F.LE_COUNT_FOREVER = false := by
    refine Eq.trans (Dev.on_congr ?_) hforever
    refine (hwreg _).trans ((u.entryRegs_reg c f.e (i := 4) (by decide)).trans ?_)
    rw [Dev.reg, hback, ← Dev.reg]
    rfl
  obtain ⟨t, x, hrest⟩ := u.entryBack_rest c f.e
  rw [← hw] at hrest
  obtain ⟨t', x', hspent⟩ := w.leSpent_rest c f
  have hwland : (w.leSpent c f).landedAt (lePage c f.e + 0x100) 0x20 = [] := by
    have hlanded' : (w.leSpent c f).present.landed = d.present.landed := by rw [hspent, hrest, ← hlanded]
    rw [Dev.landedAt, hlanded', ← Dev.landedAt, hland]
  rw [Dev.leReload_once w c f he hwx hperiod hwforever, Dev.entryLand_none hwland] at hfire
  rw [hfire]
  refine ⟨w.leSpent_disarmed c f, w.leSpent_done c f, ?_, ?_, fun hlate => w.leSpent_late c f he ?_⟩
  · rw [hspent, hrest, ← hmem]
  · rw [hspent, hrest, ← hqueues]
  · rw [htime, Dev.count, hrest]
    change _ < u.count
    rwa [Dev.count, hclock, ← Dev.count]

end

end Sys2Proof.Machine

namespace Sys2Proof.Claims

open Sys2Proof.Machine

theorem launchFires : LaunchFires := by
  intro s c hclk hdom
  refine ⟨fun h => ?_, fun hact hl => ?_, fun e hact hl hx hv hper haction hforever hland => ?_⟩
  · exact does_of_clocked (f := fun d => d.launchFire c) hclk rfl (Dev.launchFire_acted h)
  · exact gives_of_clocked (f := fun d => d.launchFire c) hclk rfl (Dev.launchFire_none hdom hclk hact hl) ⟨rfl, rfl, rfl, rfl, rfl, rfl⟩
  · exact gives_of_clocked (f := fun d => d.launchFire c) hclk rfl rfl (Dev.launchFire_once e.isLt hdom hclk hact hl hx hv hper haction hforever hland)

end Sys2Proof.Claims
end

section
/-!
Deadlines (04 R103, 08 R198): a miss is recorded, and the job that missed ends.
-/
namespace Sys2Proof.Machine

/-! The pages of jobs -/

theorem pgJq_sash_apart {c n b : Nat} (hb : b < 0x1000) : ¬ (pgJq c ≤ pgSash n + b ∧ pgSash n + b < pgJq c + 0x1000) := by
  simp only [pgJq, pgSash]
  omega

theorem tplBase_sash_apart {t n a b : Nat} (ha : a < 0x1000) (hb : b < 0x1000) : tplBase t + a ≠ pgSash n + b := by
  simp only [tplBase, pgTpl, pgSash]
  omega

section
variable (d : Dev)

/-! A queue's page -/

theorem Dev.jqRefresh_page (c : Nat) : Dev.PageOnly (pgJq c) d (d.jqRefresh c) := by
  unfold Dev.jqRefresh
  extract_lets p q full depth oldest
  have hfull : Dev.PageOnly (pgJq c) d full := .ite (.setF (by decide) _) (.refl d)
  exact hfull.trans (.trans (.setF (by decide) _) (.trans (.setF (by decide) _) (.trans (.setF (by decide) _) (.setF (by decide) _))))

/-! A miss (08 R198) -/

/-- The registers in which a miss is recorded. -/
def Dev.missShown (j : Job) : Dev :=
  (((d.inc (pgJq j.home) F.JQ_MISSED_MISSED).inc (pgJq j.home) ⟨0x100 + 4 * (j.desc / 4), 8 * (j.desc % 4), 8⟩).setB (pgJq j.home) F.JQ_STATUS_MISS
    true).irq (pgJq j.home) 1

theorem Dev.recordMiss_eq (j : Job) : d.recordMiss j = ((d.noteEnd j 3).pulse (evCas j.home 88)).missShown j := rfl

theorem Dev.missShown_regs (j : Job) : d.RegsOnly (d.missShown j) := .trans (.setF ..) (.trans (.setF ..) (.trans (.setF ..) (.setF ..)))

theorem Dev.missShown_count (j : Job) : (d.missShown j).f (pgJq j.home) F.JQ_MISSED_MISSED =
    satInc F.JQ_MISSED_MISSED.width (d.f (pgJq j.home) F.JQ_MISSED_MISSED) := by
  have hapart : (⟨0x100 + 4 * (j.desc / 4), 8 * (j.desc % 4), 8⟩ : Fld).ofs ≠ F.JQ_MISSED_MISSED.ofs := by
    simp only [F.JQ_MISSED_MISSED]
    omega
  rw [Dev.missShown, Dev.irq, Dev.f_setF_apart _ _ rfl, Dev.setB, Dev.f_setF_apart _ _ rfl, Dev.inc, Dev.f_setF_apart _ _ (by simp [Fld.apart, hapart]),
    Dev.inc, Dev.f_setF_same _ _ _ _ (by decide)]
  exact Nat.mod_eq_of_lt (satInc_lt _ _)

/-- A miss is noted with its time and counted. -/
theorem Dev.recordMiss_says (j : Job) : let e := d.recordMiss j
    e.sashes = d.sashes ∧ e.mem = d.mem ∧ Table.get (0, 0) e.jobEnds (256 * j.home + j.desc) = (3, d.count) ∧
      e.f (pgJq j.home) F.JQ_MISSED_MISSED = satInc F.JQ_MISSED_MISSED.width (d.f (pgJq j.home) F.JQ_MISSED_MISSED) := by
  obtain ⟨u, hu⟩ : ∃ u, u = (d.noteEnd j 3).pulse (evCas j.home 88) := ⟨_, rfl⟩
  have hcount := u.missShown_count j
  obtain ⟨t, ht⟩ := u.missShown_regs j
  rw [Dev.recordMiss_eq, ← hu]
  refine ⟨?_, ?_, ?_, hcount.trans (hu ▸ rfl)⟩
  · rw [ht, hu]
    rfl
  · rw [ht, hu]
    rfl
  · have hends : (u.missShown j).jobEnds = Table.put (0, 0) d.jobEnds (256 * j.home + j.desc) (3, d.count) := by
      rw [ht, hu]
      rfl
    rw [hends, Table.get_put_same]

/-! The end of a run (07 R170) -/

variable (n : Nat)

/-- The sash without its job. -/
def Dev.sashFreed : Sash :=
  { d.sash n with job := none, ops := [], words := [], freeze := none, lastIssue := some (d.tick / 2 - (d.sash n).lost) }

/-- The registers of a sash that ends its run. -/
def Dev.runCleared : Dev :=
  (((d.setB (pgSash n) F.SASH_STATUS_RUNNING false).setB (pgSash n) F.SASH_STATUS_WAITING false).setB (pgSash n) F.SASH_STATUS_FROZEN false).setB (pgSash n)
    F.PC_SNAP_RUN false

/-- The pages of the job that ended: its template page, and its queue's. -/
def Dev.jobLeft (r : Running) : Dev :=
  (match r.tpl with
    | some t => d.setB (tplBase t) F.TPL_STATUS_IN_USE false
    | none => d).jqRefresh r.job.home

theorem Dev.runCleared_page : Dev.PageOnly (pgSash n) d (d.runCleared n) :=
  .trans (.setF (by decide) _) (.trans (.setF (by decide) _) (.trans (.setF (by decide) _) (.setF (by decide) _)))

theorem Dev.runCleared_running : (d.runCleared n).on (pgSash n) F.SASH_STATUS_RUNNING = false := by
  rw [Dev.runCleared, Dev.setB, Dev.on_setF_apart _ _ rfl, Dev.setB, Dev.on_setF_apart _ _ rfl, Dev.setB, Dev.on_setF_apart _ _ rfl,
    Dev.on_setB_same _ _ _ _ rfl (by decide)]

theorem Dev.jobLeft_regs (r : Running) : d.RegsOnly (d.jobLeft r) := by
  unfold Dev.jobLeft
  split
  · exact .trans (.setF ..) (Dev.jqRefresh_page _ _).regs
  · exact (Dev.jqRefresh_page _ _).regs

theorem Dev.jobLeft_sash (r : Running) {f : Fld} (hf : f.ofs < 0x1000) : (d.jobLeft r).on (pgSash n) f = d.on (pgSash n) f := by
  unfold Dev.jobLeft
  rw [(Dev.jqRefresh_page _ _).on (pgJq_sash_apart hf)]
  split
  · exact Dev.on_congr (Dev.reg_setF_ne _ _ _ _ (tplBase_sash_apart (by decide) hf))
  · rfl

theorem Dev.RegsOnly.setSash {d e : Dev} (h : d.RegsOnly e) (n : Nat) (x : Sash) : (d.setSash n x).RegsOnly (e.setSash n x) := by
  obtain ⟨t, rfl⟩ := h
  exact ⟨t, rfl⟩

theorem Dev.RegsOnly.sashes {d e : Dev} (h : d.RegsOnly e) : e.sashes = d.sashes := by
  obtain ⟨t, rfl⟩ := h
  rfl

variable {d n}

theorem Dev.endRun_eq {r : Running} (h : (d.sash n).job = some r) : ∃ e, (e = d ∨ e = d.setB (pgSash n) F.SASH_STATUS_FPNAN true) ∧
    d.endRun n = ((e.setSash n (d.sashFreed n)).runCleared n).jobLeft r := by
  unfold Dev.endRun
  extract_lets x shown freed p cleared unwatched
  have hshown : shown = if r.phase != Phase.writeBack && (laneList r.lanes).any fun i => (d.lane n i).fpnan then
      d.setB (pgSash n) F.SASH_STATUS_FPNAN true else d := by
    unfold shown
    rw [show x.job = some r from h]
  have hregs : d.RegsOnly shown := hshown ▸ .ite (.setF ..) (.refl d)
  have hfreed : freed = shown.setSash n (d.sashFreed n) := by
    unfold freed
    rw [hregs.tick]
    rfl
  refine ⟨shown, ?_, ?_⟩
  · rw [hshown]
    split
    · exact .inr rfl
    · exact .inl rfl
  · rw [show x.job = some r from h, ← hfreed]
    rfl

/-- A run that ends leaves its sash without a job. -/
theorem Dev.endRun_says {r : Running} (h : (d.sash n).job = some r) : let e := d.endRun n
    e.sash n = d.sashFreed n ∧ e.on (pgSash n) F.SASH_STATUS_RUNNING = false ∧ ∃ t, e = { d.setSash n (d.sashFreed n) with regs := t } := by
  obtain ⟨e, he, hend⟩ := Dev.endRun_eq h
  have he : d.RegsOnly e := by
    obtain rfl | rfl := he
    · exact .refl _
    · exact .setF ..
  have hregs : (d.setSash n (d.sashFreed n)).RegsOnly (d.endRun n) := by
    rw [hend]
    exact (he.setSash n _).trans (((e.setSash n _).runCleared_page n).regs.trans (Dev.jobLeft_regs _ r))
  refine ⟨?_, ?_, hregs⟩
  · rw [Dev.sash, hregs.sashes, ← Dev.sash, Dev.sash_setSash_same]
  · rw [hend, Dev.jobLeft_sash _ n r (by decide), Dev.runCleared_running]

end

end Sys2Proof.Machine

namespace Sys2Proof.Claims

open Sys2Proof.Machine

theorem deadlinesMissed : DeadlinesMissed := by
  intro s hclk
  refine ⟨fun c k j t hj hdl => ?_, fun n r t hjob hdl => ⟨fun hnot => ?_, fun hdue hlast hmissed hhome hdesc => ?_, fun hmissed hhome htpl => ?_⟩⟩
  · have hmiss : s.dev.missQueued c k = if s.dev.count < t then s.dev else
        ((s.dev.setQueue c ((s.dev.queue c).eraseIdx k)).recordMiss j).failJob j (4 * c) [9] := by
      unfold Dev.missQueued
      rw [hj]
      dsimp only
      rw [hdl]
    exact does_of_clocked (f := fun d => d.missQueued c k) hclk rfl hmiss
  · have hmiss : s.dev.missRunning n = s.dev := by
      unfold Dev.missRunning
      rw [hjob]
      dsimp only
      rw [hdl]
      refine if_pos ?_
      rw [Bool.or_eq_true, Bool.or_eq_true, decide_eq_true_eq]
      tauto
    exact does_of_clocked (f := fun d => d.missRunning n) hclk rfl hmiss
  · have hmiss : s.dev.missRunning n = (s.dev.recordMiss r.job).setSash n { (s.dev.recordMiss r.job).sash n with job := some { r with missed := true } } := by
      unfold Dev.missRunning
      rw [hjob]
      dsimp only
      rw [hdl]
      refine if_neg ?_
      rw [hlast, hmissed, Bool.or_false, Bool.or_false, decide_eq_true_eq]
      omega
    obtain ⟨-, hmem, hends, hcount⟩ := s.dev.recordMiss_says r.job
    obtain ⟨u, hu⟩ : ∃ u, u = s.dev.recordMiss r.job := ⟨_, rfl⟩
    rw [← hu] at hmiss hmem hends hcount
    refine gives_of_clocked (f := fun d => d.missRunning n) hclk rfl hmiss ⟨?_, hmem, hends, hcount⟩
    rw [Dev.sash_setSash_same]
  · obtain ⟨u, hu⟩ : ∃ u, u = s.dev.failJob r.job n [9] := ⟨_, rfl⟩
    have hend : s.dev.missEnd n = u.endRun n := by
      unfold Dev.missEnd
      rw [hjob]
      exact (if_pos hmissed).trans (by rw [hu])
    have hfail : u.sashes = s.dev.sashes ∧ u.mem = s.dev.mem := by
      rw [hu, Dev.failJob]
      split <;> exact ⟨rfl, rfl⟩
    have hujob : (u.sash n).job = some r := by rw [Dev.sash, hfail.1, ← Dev.sash, hjob]
    obtain ⟨hsash, hrunning, t, hrest⟩ := Dev.endRun_says hujob
    rw [hend]
    refine ⟨?_, hrunning, ?_⟩
    · rw [hsash]
      rfl
    · rw [hrest, ← hfail.2]
      rfl

/-- Settles O16: the entries that fire by the fields of the start of the tick, and the jobs whose deadlines have come. -/
theorem launchesAndDeadlines : Obligations.LaunchesAndDeadlines := ⟨launchFires, deadlinesMissed⟩

end Sys2Proof.Claims
end

section
/-!
The Lintel count and software events (04 R85-R92, R108).
-/
namespace Sys2Proof.Machine

/-! The time that the parts of a tick keep -/

section
variable {d : Dev} (n : Nat)

theorem Dev.PwmWrites.deadDone {d : Dev} (pos : Nat) :
    d.PwmWrites (match (d.pwm n).dead with | some (o, t) => if t < pos then d.turnOn n o t else d | none => d) := by
  split
  · exact .ite (.turnOn _ _ _) (.refl d)
  · exact .refl d

theorem Dev.PwmWrites.refEdge (hi : Bool) (pos : Nat) : d.PwmWrites (d.refEdge n hi pos) := by
  unfold Dev.refEdge
  extract_lets p turned level off due w
  have hoff : d.PwmWrites off :=
    (Dev.PwmWrites.deadDone (d := d) n pos).trans (.trans (.setF _ _ _) (.ite (.setF _ _ _) (.setF _ _ _)))
  split
  · exact .refl d
  split
  · exact hoff.trans (.trans (.setPwm _ _) (.padEdge _ _ _ _))
  · exact hoff.trans (.setPwm _ _)

theorem Dev.PwmWrites.forceTick : d.PwmWrites (d.forceTick n) := by
  unfold Dev.forceTick
  split
  · exact .refl d
  split
  · exact .refl d
  extract_lets cleared
  split
  · exact .trans (.setPwm _ _) (.refEdge _ _ _)
  · exact .setPwm _ _

theorem Dev.PwmWrites.heldTick : d.PwmWrites (d.heldTick n) := by
  unfold Dev.heldTick
  extract_lets w
  split
  · exact .refl d
  split
  · exact .refl d
  · exact .trans (foldl_keeps _ _ (.refl d) fun _ _ _ he => he.trans (.setF _ _ _)) (.setPwm _ _)

variable (d)

theorem Dev.pwmZero_time : (d.pwmZero n).time = d.time := by
  cases h : d.acted 7 n with
  | false => exact (d.pwmZero_keeps n h).time
  | true =>
    unfold Dev.pwmZero
    extract_lets c g
    rw [h, if_pos rfl]

theorem Dev.pwmPeriodStart_time : (d.pwmPeriodStart n 0).time = d.time := by
  rw [Dev.pwmPeriodStart_zero, Dev.pwmZero_time, (Dev.PwmWrites.pwmRelease n).time, (Dev.PwmWrites.pwmStarted d n 0).time]

theorem Dev.pwmCount_time : (d.pwmCount n).time = d.time := by
  unfold Dev.pwmCount
  extract_lets p w
  split
  · split
    · exact d.pwmPeriodStart_time n
    · rfl
  · exact (Dev.PwmWrites.ite (.refl d) (.ite (.setPwm n _) (.ite (.refl d) (.setF p _ _)))).time

theorem Dev.pipeTick_time : (d.pipeTick n).time = d.time := by
  unfold Dev.pipeTick
  extract_lets w out rest
  split
  · rfl
  · unfold Dev.padRefresh
    extract_lets p levels refreshed
    rw [apply_ite Dev.time]
    exact ite_self _

theorem Dev.pwmTick_time : (d.pwmTick n).time = d.time := by
  unfold Dev.pwmTick
  split
  · rw [Dev.pipeTick_time, (Dev.PwmWrites.forceTick n).time, Dev.pwmCount_time, (Dev.PwmWrites.heldTick n).time]
  · rfl

theorem Dev.cmpSync_time : (d.cmpSync n).time = d.time := by
  unfold Dev.cmpSync
  extract_lets c own fast synced shown
  split
  · rfl
  · exact (Dev.PwmKeeps.cmpLatchFollow (n := 0) (d := shown) n).time

theorem Dev.ethSfd_time : (d.ethSfd n).time = d.time := by
  unfold Dev.ethSfd
  split
  · rfl
  · split <;> rfl

theorem Dev.tioTick_time : d.tioTick.time = d.time :=
  foldl_keeps (P := fun e => e.time = d.time) _ _ rfl fun _ _ _ he => he

theorem Dev.traceTick_time : d.traceTick.time = d.time := by
  unfold Dev.traceTick
  split <;> rfl

/-! A tick (04 R89, R91) -/

theorem Dev.lintelTick_time : d.lintelTick.time = { d.time with count := d.nextCount, tick := d.time.tick + 1, stepPending := none } := by
  unfold Dev.lintelTick
  extract_lets sum carry n' shown counted
  have hregs : d.RegsOnly counted := .trans (.setF ..) (.ite (.setF ..) (.ite (.setF ..) (.refl _)))
  change { counted.time with count := d.nextCount, tick := counted.time.tick + 1, stepPending := none } = _
  rw [hregs.time]

/-- What the start of a tick does to the blocks keeps the time. -/
theorem Dev.idle_time : d.idle.time = d.tickEnd.settle.lintelTick.time := by
  obtain ⟨u, hu⟩ : ∃ u, u = d.tickEnd.settle := ⟨_, rfl⟩
  unfold Dev.idle
  extract_lets ended late ticked seen synced sent
  have hseen : seen.time = u.lintelTick.time := by
    unfold seen
    rw [apply_ite Dev.time, (Dev.MatrixKeeps.shutter ticked).time, ite_self, hu]
    rfl
  have hsynced : synced.time = u.lintelTick.time := foldl_keeps (P := fun e => e.time = u.lintelTick.time) _ _ hseen fun _ _ e he => (e.cmpSync_time _).trans he
  have hsent : sent.time = u.lintelTick.time := by
    have hballs : synced.tioTick.encTick.time = u.lintelTick.time := synced.tioTick_time.trans hsynced
    exact foldl_keeps (P := fun e => e.time = u.lintelTick.time) _ _ hballs fun _ _ e he => (e.ethSfd_time _).trans he
  rw [Dev.traceTick_time, ← hu]
  exact Dev.forN_keeps (P := fun e => e.time = u.lintelTick.time) 96 _ hsent fun _ _ e he => (e.pwmTick_time _).trans he

end

/-! Software events (04 R108) -/

section
variable (d : Dev)

theorem Dev.swLevel_setF_same {n : Nat} (b : Bool) : (d.setF pgEvf ⟨0x60 + 4 * (n / 32), n % 32, 1⟩ (b2n b)).swLevel n = b := by
  rw [Dev.swLevel, Nat.add_assoc]
  exact Dev.bitAt_setF_same d b (Nat.mod_lt n (by decide))

theorem Dev.swLevel_setF_ne {n m : Nat} (x : Nat) (h : n ≠ m) : (d.setF pgEvf ⟨0x60 + 4 * (n / 32), n % 32, 1⟩ x).swLevel m = d.swLevel m := by
  have hapart : (⟨0x60 + 4 * (n / 32), n % 32, 1⟩ : Fld).apart ⟨0x60 + 4 * (m / 32), m % 32, 1⟩ = true := by
    rw [Fld.apart, Bool.or_eq_true, Bool.or_eq_true, bne_iff_ne, decide_eq_true_eq, decide_eq_true_eq]
    dsimp only
    omega
  rw [Dev.swLevel, Nat.add_assoc, Dev.bitAt_setF_apart _ _ hapart, Dev.swLevel, Nat.add_assoc]

/-- The event is kept from setting: it was cleared in the tick. -/
def Dev.swHeld (n : Nat) : Bool := Table.get 0 d.swClr n == d.tick + 1

theorem Dev.swSet_same (n : Nat) : (d.swSet n).swLevel n = (d.swLevel n || !d.swHeld n) := by
  unfold Dev.swSet
  by_cases h : Table.get 0 d.swClr n = d.tick + 1
  · rw [if_pos h, Dev.swHeld, beq_iff_eq.mpr h, Bool.not_true, Bool.or_false]
  · rw [if_neg h, Dev.swHeld, beq_false_of_ne h, Bool.not_false, Bool.or_true]
    exact d.swLevel_setF_same true

theorem Dev.swSet_ne {n m : Nat} (h : n ≠ m) : (d.swSet n).swLevel m = d.swLevel m := by
  unfold Dev.swSet
  split
  · rfl
  · exact d.swLevel_setF_ne 1 h

theorem Dev.swSet_held (n m : Nat) : (d.swSet n).swHeld m = d.swHeld m := by
  unfold Dev.swSet
  split <;> rfl

theorem Dev.swClear_same (n : Nat) : (d.swClear n).swLevel n = false := d.swLevel_setF_same false

theorem Dev.swClear_ne {n m : Nat} (h : n ≠ m) : (d.swClear n).swLevel m = d.swLevel m := d.swLevel_setF_ne 0 h

theorem Dev.swWord_set (q : Nat) (v : W32) (n : Nat) :
    (d.swWord q v true).swLevel n = (d.swLevel n || (n / 32 == q && bitAt v (n % 32) && !d.swHeld n)) := by
  have hplaces := (Dev.forN_places (P := fun b e => e.swLevel (32 * q + b)) (I := fun e => ∀ m, e.swHeld m = d.swHeld m)
    (F := fun b x => x || (bitAt v b && !d.swHeld (32 * q + b))) (g := fun b e => if bitAt v b then e.swSet (32 * q + b) else e) (d := d) (fun _ => rfl)
    (fun i e he => ?_) (fun i j e hij => ?_) (fun i e he => ?_) 32).2
  · by_cases hn : n / 32 = q
    · have hthis := hplaces (n % 32)
      rw [if_pos (Nat.mod_lt n (by decide)), show 32 * q + n % 32 = n by omega] at hthis
      rw [beq_iff_eq.mpr hn, Bool.true_and]
      exact hthis
    · rw [beq_false_of_ne hn, Bool.false_and, Bool.false_and, Bool.or_false]
      refine Dev.forN_keeps (P := fun e => e.swLevel n = d.swLevel n) 32 _ rfl fun b hb e he => ?_
      rw [if_pos rfl]
      split
      · exact (e.swSet_ne (by omega)).trans he
      · exact he
  · split
    · exact fun m => (e.swSet_held _ m).trans (he m)
    · exact he
  · split
    · exact e.swSet_ne (by omega)
    · rfl
  · split
    next h => rw [e.swSet_same, he, h, Bool.true_and]
    next h => rw [Bool.eq_false_iff.mpr h, Bool.false_and, Bool.or_false]

theorem Dev.swWord_clear (q : Nat) (v : W32) (n : Nat) :
    (d.swWord q v false).swLevel n = (d.swLevel n && !(n / 32 == q && bitAt v (n % 32))) := by
  have hplaces := (Dev.forN_places (P := fun b e => e.swLevel (32 * q + b)) (I := fun _ => True)
    (F := fun b x => x && !bitAt v b) (g := fun b e => if bitAt v b then e.swClear (32 * q + b) else e) (d := d) trivial
    (fun _ _ _ => trivial) (fun i j e hij => ?_) (fun i e _ => ?_) 32).2
  · by_cases hn : n / 32 = q
    · have hthis := hplaces (n % 32)
      rw [if_pos (Nat.mod_lt n (by decide)), show 32 * q + n % 32 = n by omega] at hthis
      rw [beq_iff_eq.mpr hn, Bool.true_and]
      exact hthis
    · rw [beq_false_of_ne hn, Bool.false_and, Bool.not_false, Bool.and_true]
      refine Dev.forN_keeps (P := fun e => e.swLevel n = d.swLevel n) 32 _ rfl fun b hb e he => ?_
      rw [if_neg Bool.false_ne_true]
      split
      · exact (e.swClear_ne (by omega)).trans he
      · exact he
  · split
    · exact e.swClear_ne (by omega)
    · rfl
  · split
    next h => rw [e.swClear_same, h, Bool.not_true, Bool.and_false]
    next h => rw [Bool.eq_false_iff.mpr h, Bool.not_false, Bool.and_true]

/-! A step of the count (04 R91) -/

/-- The status of a step that is done. -/
def Dev.stepShown : Dev := (d.setB pgLintel F.LT_STAT_STEP_DONE true).irq pgLintel 0

theorem Dev.stepGo_done (h : d.stepRefusal = none) :
    d.stepGo = { d.stepShown with time := { d.time with stepPending := some (BitVec.ofNat 64 (d.r64 pgLintel 0x50)) } } := by
  have hstep : d.stepShown.r64 pgLintel 0x50 = d.r64 pgLintel 0x50 := by
    rw [Dev.stepShown, Dev.irq, Dev.r64_setF_apart _ _ rfl, Dev.setB, Dev.r64_setF_apart _ _ rfl]
  rw [Dev.stepGo, h, ← hstep]
  rfl

theorem Dev.stepGo_refused {c b : Nat} (h : d.stepRefusal = some (c, b)) : d.stepGo =
    ((((d.setB pgLintel F.LT_STAT_STEP_REFUSED true).irq pgLintel 1).setF pgLintel F.LT_STAT_REFUSE_CODE c).setF pgLintel F.LT_STAT_BLOCKER b) := by
  rw [Dev.stepGo, h]

theorem Dev.stepShown_trimCarry : d.stepShown.trimCarry = d.trimCarry := by
  have hfrac : d.stepShown.f pgLintel F.LT_FRAC_FRAC = d.f pgLintel F.LT_FRAC_FRAC := by
    rw [Dev.stepShown, Dev.irq, Dev.f_setF_apart _ _ rfl, Dev.setB, Dev.f_setF_apart _ _ rfl]
  rw [Dev.trimCarry, hfrac, show d.stepShown.trim = d.trim from rfl, Dev.trimCarry]

theorem Dev.pageWrite_stepGo (w : Who) {p : PageInfo} (hk : p.kind = .lintel) : d.pageWrite w p 0x58 4 1 = d.stepGo := by
  rw [Dev.pageWrite, if_neg (by decide), hk]
  simp only [Dev.writeSystem, hk]
  rw [if_pos trivial, if_pos (by decide)]

theorem Dev.pageWrite_evf (w : Who) {p : PageInfo} (hk : p.kind = .evf) {o : Nat} (ho : 0x40 ≤ o) (v : Nat) : d.pageWrite w p o 4 v =
    if 0x40 ≤ o ∧ o < 0x50 then d.swWord ((o - 0x40) / 4) (BitVec.ofNat 32 v) true
    else if 0x50 ≤ o ∧ o < 0x60 then d.swWord ((o - 0x50) / 4) (BitVec.ofNat 32 v) false else d.storeAll p o 4 v := by
  rw [Dev.pageWrite, if_neg (by omega), hk]
  simp only [Dev.writeSystem, hk]

end

theorem pageAt_lintel : pageAt pgLintel = some ⟨.lintel, 0, pgLintel, domAon⟩ := by decide

theorem pageAt_evf : pageAt pgEvf = some ⟨.evf, 0, pgEvf, domAon⟩ := by decide

end Sys2Proof.Machine

namespace Sys2Proof.Claims

open Sys2Proof.Machine

theorem stepOfTheCount : StepOfTheCount := by
  intro s w hacc
  have hpage : pgLintel % 0x1000 = 0 := by decide
  have hwrite : s.dev.pageWrite w pageLintel 0x58 4 1 = s.dev.stepGo := s.dev.pageWrite_stepGo w rfl
  refine ⟨fun hgo => ?_, fun c b hrefused hc hb => ?_⟩
  · refine hacc.gives hpage (by decide) pageAt_lintel (by decide) rfl (hwrite.trans (s.dev.stepGo_done hgo)) ⟨?_, ?_, rfl, ?_⟩
    · rw [Dev.wrote_on]
      change s.dev.stepShown.on pgLintel F.LT_STAT_STEP_DONE = true
      rw [Dev.stepShown, Dev.irq, Dev.on_setF_apart _ _ rfl, Dev.on_setB_same _ _ _ _ rfl (by decide)]
    · rw [Dev.wrote_reg]
      exact Dev.bitAt_irq _ (by decide)
    · change s.dev.time.count + 1 + BitVec.ofInt 64 s.dev.stepShown.trimCarry + BitVec.ofNat 64 (s.dev.r64 pgLintel 0x50) = _
      rw [Dev.stepShown_trimCarry]
  · refine hacc.gives hpage (by decide) pageAt_lintel (by decide) rfl (hwrite.trans (s.dev.stepGo_refused hrefused)) ⟨?_, ?_, ?_, ?_, rfl⟩
    · rw [Dev.wrote_on, Dev.on_setF_apart _ _ rfl, Dev.on_setF_apart _ _ rfl, Dev.irq, Dev.on_setF_apart _ _ rfl,
        Dev.on_setB_same _ _ _ _ rfl (by decide)]
    · rw [Dev.wrote_f, Dev.f_setF_apart _ _ rfl, Dev.f_setF_same _ _ _ _ (by decide)]
      exact Nat.mod_eq_of_lt hc
    · rw [Dev.wrote_f, Dev.f_setF_same _ _ _ _ (by decide)]
      exact Nat.mod_eq_of_lt (hb.trans (by decide))
    · rw [Dev.wrote_reg, Dev.bitAt_setF_apart _ _ rfl, Dev.bitAt_setF_apart _ _ rfl]
      exact Dev.bitAt_irq _ (by decide)

theorem softwareEvents : SoftwareEvents := by
  intro s w q v
  have hpage : pgEvf % 0x1000 = 0 := by decide
  have hq : q.toNat < 4 := q.isLt
  refine ⟨fun hacc => ?_, fun hacc => ?_⟩
  · have hwrite : s.dev.pageWrite w pageEvf (0x40 + 4 * q.toNat) 4 v.toNat = s.dev.swWord q.toNat v true := by
      rw [s.dev.pageWrite_evf w rfl (by omega), if_pos (by omega), BitVec.ofNat_toNat, BitVec.setWidth_eq, Nat.add_sub_cancel_left,
        Nat.mul_div_cancel_left _ (by decide)]
    have hexec : exec (.evSwSet w q v) s = s.write w (pgEvf + (0x40 + 4 * q.toNat)) 4 v.toNat := by
      rw [← Nat.add_assoc]
      rfl
    exact hacc.gives hpage (by omega) pageAt_evf v.isLt hexec hwrite fun n => s.dev.swWord_set q.toNat v n
  · have hwrite : s.dev.pageWrite w pageEvf (0x50 + 4 * q.toNat) 4 v.toNat = s.dev.swWord q.toNat v false := by
      rw [s.dev.pageWrite_evf w rfl (by omega), if_neg (by omega), if_pos (by omega), BitVec.ofNat_toNat, BitVec.setWidth_eq, Nat.add_sub_cancel_left,
        Nat.mul_div_cancel_left _ (by decide)]
    have hexec : exec (.evSwClr w q v) s = s.write w (pgEvf + (0x50 + 4 * q.toNat)) 4 v.toNat := by
      rw [← Nat.add_assoc]
      rfl
    exact hacc.gives hpage (by omega) pageAt_evf v.isLt hexec hwrite fun n => s.dev.swWord_clear q.toNat v n

theorem trimmedTick : TrimmedTick := by
  intro s hclk
  have htime := s.dev.idle_time.trans s.dev.tickEnd.settle.lintelTick_time
  refine ⟨fun hcarry => ?_, fun hcarry => ?_⟩
  · refine gives_of_clocked (f := fun d => if d.trimCarry = 0 then d else d.idle) hclk rfl (if_neg hcarry) ?_
    rw [htime]
    exact ⟨rfl, rfl, rfl, rfl⟩
  · exact does_of_clocked (f := fun d => if d.trimCarry = 0 then d else d.idle) hclk rfl (if_pos hcarry)

/-- Settles O15: the software events bit by bit, the step of the count by its refusal, and the tick by the time that each part of it keeps. -/
theorem timeAndSteps : Obligations.TimeAndSteps := ⟨softwareEvents, stepOfTheCount, trimmedTick⟩

end Sys2Proof.Claims
end

section
/-!
Clocks, power domains, temperatures and the one-time memory (03 R55-R66, R71-R84).
-/
namespace Sys2Proof.Machine

/-! A warm reset (03 R69, R71) -/

section
variable (d : Dev) (cause info : Nat)

/-- The device in which a warm reset is in progress, before its cause is noted. -/
def Dev.warmBase : Dev :=
  let restart := d.sys.standby
  let b : Dev := { d.resetBase .warm with
    regs := Table.keep warmKeeps d.regs
    otp := d.otp
    fresh := d.fresh + 512
    groups := d.groups
    time := { count := d.time.count, tick := d.time.tick }
    sys := { (d.resetBase .warm).sys with
      tsArmed := d.sys.tsArmed
      clkHeld := d.sys.clkHeld || restart
      pllWake := d.sys.pllWake || restart
      relockWait := d.sys.relockWait || restart || cause == 5
      overtempHold := cause == 6 } }
  b.setReg (pgClk + 0x40) (b.reg (pgClk + 0x40) &&& (if restart then 0xFF02 else 0xFF03))

/-- The warm reset with its cause and its count. -/
def Dev.warmNoted : Dev := (((d.warmBase cause).addCause cause info).inc pgSysid F.RST_INFO_WARM_CNT).domainsOff

theorem Dev.warmReset_joins (h : d.sys.reset ≠ .none) :
    d.warmReset cause info = { d.addCause cause info with sys := { d.sys with resetReq := none } } := by
  unfold Dev.warmReset
  rw [if_pos (bne_iff_ne.mpr h)]

theorem Dev.warmReset_starts (h : d.sys.reset = .none) : d.warmReset cause info = (d.warmNoted cause info).shutter.stamp := by
  unfold Dev.warmReset
  rw [if_neg (by rw [h]; decide)]
  rfl

theorem Dev.addCause_regs : d.RegsOnly (d.addCause cause info) := by
  unfold Dev.addCause
  exact .trans (.setF ..) (.ite (.setF ..) (.ite (.setF ..) (.refl _)))

theorem Dev.addCause_reg {a : Nat} (h4 : a ≠ pgSysid + 0x44) (h8 : a ≠ pgSysid + 0x48) : (d.addCause cause info).reg a = d.reg a := by
  unfold Dev.addCause
  extract_lets noted
  have hnoted : noted.reg a = d.reg a := Dev.reg_setF_ne _ _ _ _ h4.symm
  split
  · exact (Dev.reg_setF_ne _ _ _ _ h8.symm).trans hnoted
  split
  · exact (Dev.reg_setF_ne _ _ _ _ h8.symm).trans hnoted
  · exact hnoted

theorem Dev.addCause_bit (hc : cause < 32) : bitAt ((d.addCause cause info).reg (pgSysid + 0x44)) cause = true := by
  unfold Dev.addCause
  extract_lets noted
  have hnoted : bitAt (noted.reg (pgSysid + 0x44)) cause = true := Dev.bitAt_setF_same d true hc
  split
  · rw [Dev.reg_setF_apart _ _ (by decide), hnoted]
  split
  · rw [Dev.reg_setF_apart _ _ (by decide), hnoted]
  · exact hnoted

/-- A warm reset notes its cause. -/
theorem Dev.warmReset_cause (hc : cause < 32) : bitAt ((d.warmReset cause info).reg (pgSysid + 0x44)) cause = true := by
  by_cases h : d.sys.reset = .none
  · have hmatrix := Dev.MatrixKeeps.shutter (d.warmNoted cause info)
    have hout : ¬ matrixReg (pgSysid + 0x44) := by simp [matrixReg, pgSysid]
    rw [d.warmReset_starts cause info h, show ∀ (x : Dev) a, x.stamp.reg a = x.reg a from fun _ _ => rfl, hmatrix.reg _ hout, Dev.warmNoted,
      Dev.domainsOff, Dev.reg_setReg_ne _ _ (by decide), Dev.inc, Dev.reg_setF_apart _ _ (by decide), Dev.addCause_bit _ _ _ hc]
  · rw [d.warmReset_joins cause info h]
    exact d.addCause_bit cause info hc

/-- A warm reset keeps the temperatures (03 Table 3-8). -/
theorem Dev.warmReset_temp {o : Nat} (h40 : 0x40 ≤ o) (h60 : o < 0x60) : (d.warmReset cause info).reg (pgTemp + o) = d.reg (pgTemp + o) := by
  have hne : pgTemp + o ≠ pgSysid + 0x44 ∧ pgTemp + o ≠ pgSysid + 0x48 ∧ pgPwr + 0x44 ≠ pgTemp + o ∧ pgClk + 0x40 ≠ pgTemp + o := by
    simp only [pgTemp, pgSysid, pgPwr, pgClk]
    omega
  obtain ⟨h44, h48, hpwr, hclk⟩ := hne
  by_cases h : d.sys.reset = .none
  · have hmatrix := Dev.MatrixKeeps.shutter (d.warmNoted cause info)
    have hout : ¬ matrixReg (pgTemp + o) := by
      simp only [matrixReg, pgTemp]
      omega
    have hkept : warmKeeps (pgTemp + o) = true := by
      have hpage : pageAt (pgTemp + o) = some ⟨.temp, 0, pgTemp, domAon⟩ := by
        rw [pageAt_base (by decide) (by omega)]
        decide
      have hown : ((pgTemp + o) % 0x1000 == 0x28) = false := by
        rw [beq_eq_false_iff_ne]
        simp only [pgTemp]
        omega
      unfold warmKeeps
      rw [hpage, hown]
      rfl
    rw [d.warmReset_starts cause info h, show ∀ (x : Dev) a, x.stamp.reg a = x.reg a from fun _ _ => rfl, hmatrix.reg _ hout, Dev.warmNoted,
      Dev.domainsOff, Dev.reg_setReg_ne _ _ hpwr, Dev.inc, Dev.reg_setF_ne _ _ _ _ h48.symm, Dev.addCause_reg _ _ _ h44 h48, Dev.warmBase,
      Dev.reg_setReg_ne _ _ hclk]
    change Table.get _ (Table.keep warmKeeps d.regs) _ = _
    rw [Table.get_keep, hkept]
    rfl
  · rw [d.warmReset_joins cause info h]
    exact d.addCause_reg cause info h44 h48

theorem Dev.warmReset_time : (d.warmReset cause info).time.count = d.time.count := by
  by_cases h : d.sys.reset = .none
  · have hnoted : (d.warmBase cause).RegsOnly (d.warmNoted cause info) := (Dev.addCause_regs _ _ _).trans (.trans (.setF ..) (.setReg ..))
    rw [d.warmReset_starts cause info h, show ∀ x : Dev, x.stamp.time = x.time from fun _ => rfl, (Dev.MatrixKeeps.shutter _).time, hnoted.time]
    rfl
  · rw [d.warmReset_joins cause info h]
    exact congrArg (fun t => t.count) (d.addCause_regs cause info).time

end

/-! The root PLL and the serdes PLLs (03 R57, R58) -/

section
variable (d : Dev)

theorem Dev.clockLoss_suspended (a b : Bool) (h : (d.sys.standby || d.sys.pllWake) = true) : d.clockLoss a b = d := if_pos (by rw [h, Bool.true_or])

/-- The registers that show a loss of clock. -/
def Dev.lossShown (noRef noLock : Bool) : Dev :=
  let d := d.setB pgClk F.PLL_STAT_REF_PRESENT (d.on pgClk F.PLL_STAT_REF_PRESENT && !noRef)
  let d := if noLock && d.on pgClk F.PLL_STAT_ROOT_LOCK then d.inc pgClk F.PLL_STAT_LOSS_CNT else d
  d.setB pgClk F.PLL_STAT_ROOT_LOCK false

theorem Dev.lossShown_regs (noRef noLock : Bool) : d.RegsOnly (d.lossShown noRef noLock) :=
  .trans (.trans (.setF ..) (.ite (.setF ..) (.refl _))) (.setF ..)

theorem Dev.clockLoss_resets (a b : Bool) (hs : d.sys.standby = false) (hw : d.sys.pllWake = false) (hab : (a || b) = true) : d.clockLoss a b =
    { (d.lossShown a b).warmReset 5 0 with sys := { ((d.lossShown a b).warmReset 5 0).sys with clkHeld := true, relockWait := true } } :=
  (if_neg (by rw [hs, hw, hab]; decide)).trans rfl

theorem Dev.rootRelock_runs (h : d.sys.standby = false) : d.rootRelock =
    { (d.setB pgClk F.PLL_STAT_ROOT_LOCK true).setB pgClk F.PLL_STAT_REF_PRESENT true with
      sys := { d.sys with clkHeld := false, relockWait := false, pllWake := false } } := (if_neg (by rw [h]; decide)).trans rfl

theorem Dev.serdesLock_locks {i : Nat} (hdom : d.domOn (match i with | 0 => domHostio | 1 => domLink 0 | _ => domLink 1) = true) (hi : i < 3)
    (hclk : d.clocksStill = false) (hen : bitAt (d.reg (pgClk + 0x44)) i = true) : d.serdesLock i = d.setF pgClk ⟨0x40, 2 + i, 1⟩ 1 :=
  if_pos ⟨hi, hdom, hen, hclk⟩

/-! The end of a transition (03 R61) -/

/-- The status of a domain whose transition has ended. -/
def Dev.transShown (b : Nat) : Dev := (d.setF pgPwr ⟨0x48, b, 1⟩ 0).setF pgPwr ⟨0x44, b, 1⟩ (b2n (!d.statOn b))

/-- A change that leaves PWR_STAT and PWR_TRANS as they are. -/
def Dev.PowerKeeps (d e : Dev) : Prop := e.reg (pgPwr + 0x44) = d.reg (pgPwr + 0x44) ∧ e.reg (pgPwr + 0x48) = d.reg (pgPwr + 0x48)

variable {d} {e r : Dev}

theorem Dev.PowerKeeps.trans (h : d.PowerKeeps e) (k : e.PowerKeeps r) : d.PowerKeeps r := ⟨k.1.trans h.1, k.2.trans h.2⟩

theorem Dev.PowerKeeps.of_regs (h : e.regs = d.regs) : d.PowerKeeps e := by
  constructor <;> rw [Dev.reg, h, Dev.reg]

theorem Dev.PowerKeeps.setF {p : Nat} {f : Fld} (x : Nat) (h44 : p + f.ofs ≠ pgPwr + 0x44) (h48 : p + f.ofs ≠ pgPwr + 0x48) : d.PowerKeeps (d.setF p f x) :=
  ⟨Dev.reg_setF_ne _ _ _ _ h44, Dev.reg_setF_ne _ _ _ _ h48⟩

theorem Dev.PowerKeeps.shutter : d.PowerKeeps d.shutter :=
  ⟨(Dev.MatrixKeeps.shutter d).reg _ (by simp [matrixReg, pgPwr]), (Dev.MatrixKeeps.shutter d).reg _ (by simp [matrixReg, pgPwr])⟩

theorem pgIntc_pwr {k a b : Nat} (hb : b < 0x1000) : pgIntc k + a ≠ pgPwr + b := by
  simp only [pgIntc, pgPwr]
  omega

theorem Dev.PowerKeeps.failPair {k : Nat} (hk : k < 4) (cause : Nat) : d.PowerKeeps (d.failPair k cause) := by
  have hintc (e : Dev) (f : Fld) (x : Nat) : e.PowerKeeps (e.setF (pgIntc k) f x) := .setF x (pgIntc_pwr (by decide)) (pgIntc_pwr (by decide))
  unfold Dev.failPair
  extract_lets p failed held recovered core cored r freed
  rw [if_neg (by omega)]
  have hfailed : d.PowerKeeps failed := (hintc d _ _).trans (hintc _ _ _)
  have hrec : d.PowerKeeps recovered := hfailed.trans ((hintc _ _ _).trans (hintc _ _ _))
  clear_value recovered
  exact hrec.trans (.of_regs rfl)

theorem Dev.PowerKeeps.pairPowerOn {k : Nat} (hk : k < 4) (ok : Bool) : d.PowerKeeps (d.pairPowerOn k ok) := by
  unfold Dev.pairPowerOn
  extract_lets held
  have hheld : d.PowerKeeps held := .of_regs rfl
  split
  · exact hheld
  · exact hheld.trans (.failPair hk _)

variable (d)

theorem Dev.transShown_stat {b : Nat} (hb : b < 32) : (d.transShown b).statOn b = !d.statOn b := by
  rw [Dev.statOn, Dev.transShown, Dev.bitAt_setF_same _ _ hb]

theorem Dev.transShown_inTrans {b : Nat} (hb : b < 32) : (d.transShown b).inTrans b = false := by
  have hpast : bitAt ((d.setF pgPwr ⟨0x48, b, 1⟩ 0).reg (pgPwr + 0x48)) b = false := Dev.bitAt_setF_same d false hb
  rw [Dev.inTrans, Dev.transShown, Dev.reg_setF_apart _ _ (by simp), hpast]

theorem Dev.transitionEnd_keeps {b : Nat} (ok : Bool) (hreset : d.sys.reset = .none) (htrans : d.inTrans b = true) (hready : d.transReady b = true) :
    (d.transShown b).PowerKeeps (d.transitionEnd b ok) := by
  unfold Dev.transitionEnd
  extract_lets on no shown sys batched paired switched armed last
  rw [if_neg (by rw [hreset, htrans, hready]; decide)]
  have hshown : d.transShown b = shown := rfl
  rw [hshown]
  have hbatched : shown.PowerKeeps batched := .of_regs rfl
  have hpaired : shown.PowerKeeps paired := by
    unfold paired
    split
    next h =>
      rw [Bool.and_eq_true, decide_eq_true_eq] at h
      exact hbatched.trans (.pairPowerOn h.2 ok)
    next => exact hbatched
  have harmed : shown.PowerKeeps armed := by
    unfold armed
    split
    · exact hpaired.trans (.of_regs rfl)
    · exact hpaired
  have hirq : armed.PowerKeeps (armed.irq pgPwr 0) := .setF _ (by decide) (by decide)
  refine Dev.PowerKeeps.trans ?_ .shutter
  split
  · exact harmed.trans hirq
  · exact harmed

end

/-! The junction temperatures (03 R72, R73) -/

/-- The greatest of the readings so far. -/
def hotter (a x : Int) : Int := if a < x then x else a

theorem hotter_ge (a x : Int) : a ≤ hotter a x ∧ x ≤ hotter a x := by
  unfold hotter
  split <;> omega

theorem foldl_hotter_ge (l : List Int) (a : Int) : a ≤ l.foldl hotter a ∧ ∀ x ∈ l, x ≤ l.foldl hotter a := by
  induction l generalizing a with
  | nil => exact ⟨le_refl a, fun _ h => absurd h List.not_mem_nil⟩
  | cons y l ih =>
    obtain ⟨hstart, hrest⟩ := ih (hotter a y)
    obtain ⟨ha, hy⟩ := hotter_ge a y
    refine ⟨ha.trans hstart, fun x hx => ?_⟩
    obtain rfl | hx := List.mem_cons.mp hx
    · exact hy.trans hstart
    · exact hrest x hx

theorem foldl_hotter_le (l : List Int) {a m : Int} (ha : a ≤ m) (hl : ∀ x ∈ l, x ≤ m) : l.foldl hotter a ≤ m := by
  induction l generalizing a with
  | nil => exact ha
  | cons y l ih =>
    have hy : hotter a y ≤ m := by
      have := hl y List.mem_cons_self
      unfold hotter
      split <;> omega
    exact ih hy fun x hx => hl x (List.mem_cons_of_mem y hx)

theorem satI_toInt (x : BitVec 16) : satI 16 x.toInt = x.toInt := by
  have hlow := x.le_toInt
  have hhigh := x.toInt_lt
  unfold satI clampI
  norm_num at *
  rw [if_neg (by omega), if_neg (by omega)]

section
variable (d : Dev)

/-- The readings in their registers. -/
def Dev.tempValues (v : List Int) : Dev := d.forN 8 fun i d => d.setF pgTemp (F.TS_VAL_VALUE.at (4 * i)) (codeOf 16 (v.getD i 0))

/-- `e` shows the readings `v`, and asks for no more than `d`. -/
structure Dev.ShowsTemps (v : List Int) (d e : Dev) : Prop where
  values : ∀ i < 8, e.f pgTemp (F.TS_VAL_VALUE.at (4 * i)) = codeOf 16 (v.getD i 0) % 2 ^ 16
  rest : { e with regs := d.regs, sys := d.sys } = d

variable {d} {v : List Int} {e r : Dev}

theorem Dev.tempValues_shows (d : Dev) (v : List Int) : Dev.ShowsTemps v d (d.tempValues v) := by
  have hplaces := Dev.forN_places (P := fun i e => e.f pgTemp (F.TS_VAL_VALUE.at (4 * i))) (I := fun e => d.RegsOnly e)
    (F := fun i _ => codeOf 16 (v.getD i 0) % 2 ^ 16) (g := fun i d => d.setF pgTemp (F.TS_VAL_VALUE.at (4 * i)) (codeOf 16 (v.getD i 0))) (d := d)
    (.refl d) (fun _ _ he => he.trans (.setF ..)) (fun i j e hij => Dev.f_setF_ne _ _ _ _ _ _ (by simp only [Fld.at]; omega))
    (fun i e _ => Dev.f_setF_same e pgTemp (F.TS_VAL_VALUE.at (4 * i)) _ (show 0 + 16 ≤ 32 by decide)) 8
  obtain ⟨⟨t, ht⟩, hvalues⟩ := hplaces
  refine ⟨fun i hi => (hvalues i).trans (if_pos hi), ?_⟩
  rw [Dev.tempValues, ht]

theorem Dev.ShowsTemps.setF (h : Dev.ShowsTemps v d e) {g : Fld} (hg : 0x60 ≤ g.ofs ∨ g.ofs < 0x40) (x : Nat) :
    Dev.ShowsTemps v d (e.setF pgTemp g x) where
  values i hi := (Dev.f_setF_ne _ _ _ _ _ _ (by simp only [Fld.at, F.TS_VAL_VALUE]; omega)).trans (h.values i hi)
  rest := h.rest

theorem Dev.ShowsTemps.setSys (h : Dev.ShowsTemps v d e) (x : SysSt) : Dev.ShowsTemps v d { e with sys := x } := ⟨h.values, h.rest⟩

theorem Dev.ShowsTemps.ite {c : Prop} [Decidable c] (h : Dev.ShowsTemps v d e) (k : Dev.ShowsTemps v d r) : Dev.ShowsTemps v d (if c then e else r) := by
  split
  · exact h
  · exact k

/-- What the readings do to the device: shown, and at 135 °C a warm reset that is held. -/
theorem Dev.temperature_eq (d : Dev) (t : List Int) :
    let v := (List.range 8).map fun i => satI 16 (t.getD i 0)
    ∃ e, Dev.ShowsTemps v d e ∧ (v.all (fun x => x ≤ 1920) = true → e.sys.overtempHold = false) ∧
      d.temperature t = if 2160 ≤ v.foldl hotter (v.headD 0) then
        { e.warmReset 6 0 with sys := { (e.warmReset 6 0).sys with overtempHold := true } } else e := by
  intro v
  unfold Dev.temperature
  extract_lets shown hot who hottest peaked warn alarmed before warned cold cooled
  have hshown : Dev.ShowsTemps v d shown := d.tempValues_shows v
  have hhottest : Dev.ShowsTemps v d hottest := (hshown.setF (by decide) _).setF (by decide) _
  have hpeaked : Dev.ShowsTemps v d peaked := .ite (hhottest.setF (by decide) _) hhottest
  have hwarned : Dev.ShowsTemps v d warned := .ite (.ite ((hpeaked.setF (by decide) _).setSys _) hpeaked) (.ite (hpeaked.setSys _) hpeaked)
  refine ⟨cooled, .ite (hwarned.setSys _) hwarned, fun hcool => ?_, rfl⟩
  unfold cooled
  rw [if_pos hcool]

end

/-! Writes of the reset, power and fuse registers (02 R50; 03 R60, R65, R69, R84) -/

section
variable (d : Dev)

theorem Dev.pageWrite_system (w : Who) (p : PageInfo) {o : Nat} (ho : 0x40 ≤ o) (v : Nat) (hk : p.kind = .rst ∨ p.kind = .pwr ∨ p.kind = .otp) :
    d.pageWrite w p o 4 v = d.writeSystem w p o 4 v := by
  rw [Dev.pageWrite, if_neg (by omega)]
  obtain hk | hk | hk := hk <;> rw [hk]

theorem Dev.foutUpdate_forced (f : Bool) : ((d.setB pgRst F.FOUT_CTRL_FORCE f).foutUpdate).on pgRst F.FOUT_STAT_FORCED = f := by
  rw [Dev.foutUpdate, Dev.setB, Dev.on_setF_apart _ _ rfl, Dev.on_setB_same _ _ _ _ rfl (by decide), Dev.on_setB_same _ _ _ _ rfl (by decide)]

/-- One command of the fuse page alone, while the page is enabled and free, is judged. -/
theorem Dev.otpGo_free {v : W32} (hen : d.en pgOtp = true) (hbusy : d.on pgOtp F.OTP_STAT_BUSY = false)
    (hone : b2n (bitAt v 0) + b2n (bitAt v 1) + b2n (bitAt v 4) = 1) : d.otpGo v =
      if bitAt v 0 then (if 64 ≤ d.otp.rollback then d.otpRefuse else d.otpStart .rollbackAdv)
      else if bitAt v 1 then d.otpStart (.revoke (bitsOf v 2 2))
      else if bitsOf v 8 4 = 3 ∨ 9 ≤ bitsOf v 8 4 then d.otpRefuse
      else if 4 ≤ bitsOf v 8 4 ∧ bitsOf v 8 4 < 8 ∧ d.otp.slotUsed (bitsOf v 8 4 - 4) = true then d.otpRefuse
      else if bitsOf v 8 4 = 8 ∧ anyBlown d.otp.dbgKey 0 8 = true then d.otpRefuse
      else d.otpStart (.field (bitsOf v 8 4) ((List.range 12).map (fun i => Table.get 0 d.otpData i))) := by
  unfold Dev.otpGo
  extract_lets sel n
  rw [if_neg (show ¬ n = 0 by omega), if_neg (by rw [hen, hbusy, show n = 1 from hone]; decide)]

end

theorem pageAt_rst : pageAt pgRst = some ⟨.rst, 0, pgRst, domAon⟩ := by decide

theorem pageAt_pwr : pageAt pgPwr = some ⟨.pwr, 0, pgPwr, domAon⟩ := by decide

theorem pageAt_otp : pageAt pgOtp = some ⟨.otp, 0, pgOtp, domAon⟩ := by decide

end Sys2Proof.Machine

namespace Sys2Proof.Claims

open Sys2Proof.Machine

theorem clocksAndDomains : ClocksAndDomains := by
  intro s
  refine ⟨fun a b hs hw hab => ?_, fun a b h => ?_, fun hs => ?_, fun i hclk hen hdom => ?_, fun b ok hreset htrans hready => ?_⟩
  · obtain ⟨u, hu⟩ : ∃ u, u = s.dev.lossShown a b := ⟨_, rfl⟩
    have hloss := s.dev.clockLoss_resets a b hs hw hab
    have hregs := s.dev.lossShown_regs a b
    rw [← hu] at hloss hregs
    refine gives_of_run (f := fun d => d.clockLoss a b) rfl hloss ⟨u.warmReset_resets 5 0, rfl, u.warmReset_cause 5 0 (by decide), ?_, ?_⟩
    · rw [Dev.clocksStill, Bool.or_true]
    · refine (u.warmReset_time 5 0).trans ?_
      rw [hregs.time]
  · exact does_of_run (f := fun d => d.clockLoss a b) rfl (s.dev.clockLoss_suspended a b h)
  · refine gives_of_run (f := fun d => d.rootRelock) rfl (s.dev.rootRelock_runs hs) ⟨rfl, rfl, ?_, rfl⟩
    refine (Dev.on_setF_apart _ _ rfl).trans ?_
    exact Dev.on_setB_same _ _ _ _ rfl (by decide)
  · exact does_of_run (f := fun d => d.serdesLock i) rfl (s.dev.serdesLock_locks hdom i.isLt hclk hen)
  · have hkeeps := s.dev.transitionEnd_keeps ok hreset htrans hready
    refine gives_of_run (f := fun d => d.transitionEnd b ok) rfl rfl ⟨?_, ?_⟩
    · rw [Dev.statOn, hkeeps.1]
      exact s.dev.transShown_stat (by omega)
    · rw [Dev.inTrans, hkeeps.2]
      exact s.dev.transShown_inTrans (by omega)

theorem temperatureReadings : TemperatureReadings := by
  intro s t ht
  obtain ⟨e, hshows, hcool, hread⟩ := s.dev.temperature_eq (t.map BitVec.toInt)
  have hgetD (i : Nat) : (t.map BitVec.toInt).getD i 0 = (t.getD i 0).toInt := by
    rw [List.getD_eq_getElem?_getD, List.getElem?_map, List.getD_eq_getElem?_getD]
    cases t[i]? <;> rfl
  have hv : ((List.range 8).map fun i => satI 16 ((t.map BitVec.toInt).getD i 0)) = (List.range 8).map fun i => (t.getD i 0).toInt :=
    List.map_congr_left fun i _ => by rw [hgetD, satI_toInt]
  rw [hv] at hshows hcool hread
  obtain ⟨v, hvdef⟩ : ∃ v, v = (List.range 8).map fun i => (t.getD i 0).toInt := ⟨_, rfl⟩
  rw [← hvdef] at hshows hcool hread
  have hmem (x : Int) : x ∈ v ↔ ∃ i : Fin 8, (t.getD i 0).toInt = x := by
    rw [hvdef, List.mem_map]
    exact ⟨fun ⟨i, hi, hx⟩ => ⟨⟨i, List.mem_range.mp hi⟩, hx⟩, fun ⟨i, hx⟩ => ⟨i, List.mem_range.mpr i.isLt, hx⟩⟩
  have hvalue (i : Fin 8) : e.f pgTemp (F.TS_VAL_VALUE.at (4 * i)) = (t.getD i 0).toNat := by
    have hget : v.getD i 0 = (t.getD i 0).toInt := by
      rw [hvdef, List.getD_eq_getElem?_getD, List.getElem?_map, List.getElem?_range i.isLt]
      rfl
    rw [hshows.values i i.isLt, hget, codeOf_toInt]
    exact Nat.mod_eq_of_lt (BitVec.isLt _)
  obtain ⟨hstart, hall⟩ := foldl_hotter_ge v (v.headD 0)
  by_cases hhot : 2160 ≤ v.foldl hotter (v.headD 0)
  · rw [if_pos hhot] at hread
    refine gives_of_run (f := fun d => d.temperature (t.map BitVec.toInt)) rfl hread ⟨fun i => ?_, fun _ => ⟨?_, rfl, ?_⟩, fun hcold => ?_⟩
    · refine Eq.trans ?_ (hvalue i)
      have hi := i.isLt
      exact Dev.f_congr (e.warmReset_temp 6 0 (by simp only [Fld.at, F.TS_VAL_VALUE]; omega) (by simp only [Fld.at, F.TS_VAL_VALUE]; omega))
    · exact e.warmReset_resets 6 0
    · exact e.warmReset_cause 6 0 (by decide)
    · have hmax : v.foldl hotter (v.headD 0) ≤ 1920 := by
        have hle (x : Int) (hx : x ∈ v) : x ≤ 1920 := by
          obtain ⟨i, rfl⟩ := (hmem x).mp hx
          exact hcold i
        refine foldl_hotter_le v ?_ hle
        cases v with
        | nil => decide
        | cons x l => exact hle x List.mem_cons_self
      omega
  · rw [if_neg hhot] at hread
    refine gives_of_run (f := fun d => d.temperature (t.map BitVec.toInt)) rfl hread ⟨hvalue, fun ⟨i, hi⟩ => ?_, fun hcold => hcool ?_⟩
    · exact absurd (hi.trans (hall _ ((hmem _).mpr ⟨i, rfl⟩))) hhot
    · rw [List.all_eq_true]
      intro x hx
      obtain ⟨i, rfl⟩ := (hmem x).mp hx
      exact decide_eq_true (hcold i)

theorem powerRegisterWrites : PowerRegisterWrites := by
  intro s w
  have hrst : pgRst % 0x1000 = 0 := by decide
  have hpwr : pgPwr % 0x1000 = 0 := by decide
  have hotp : pgOtp % 0x1000 = 0 := by decide
  have hfout (v : Nat) : s.dev.pageWrite w pageRst 0xC0 4 v = s.dev.foutWrite (BitVec.ofNat 32 v) := by
    rw [s.dev.pageWrite_system w _ (by decide) v (.inl rfl)]
    rfl
  have hfuse (v : Nat) : s.dev.pageWrite w pageOtp 0x44 4 v = s.dev.otpGo (BitVec.ofNat 32 v) := by
    rw [s.dev.pageWrite_system w _ (by decide) v (.inr (.inr rfl))]
    rfl
  refine ⟨fun hacc => ?_, fun f hacc => ?_, fun f hacc => ?_, fun v hacc => ?_, fun hacc => ?_, fun hacc hen hbusy => ?_, fun n hacc hen hbusy => ?_,
    fun sel hacc hen hbusy => ?_⟩
  · refine hacc.wrote hrst (by decide) pageAt_rst (by decide) rfl ?_
    rw [s.dev.pageWrite_system w _ (by decide) 1 (.inl rfl)]
    rfl
  · refine hacc.wrote hrst (by decide) pageAt_rst (by cases f <;> decide) rfl ((hfout _).trans ?_)
    have h0 : bitAt (BitVec.ofNat 32 (1 + 2 * b2n f)) 0 = true := by cases f <;> decide
    have h1 : bitAt (BitVec.ofNat 32 (1 + 2 * b2n f)) 1 = f := by cases f <;> decide
    rw [Dev.foutWrite, h0, h1, if_pos rfl, Dev.foutUpdate_forced]
  · refine hacc.wrote hrst (by decide) pageAt_rst (by cases f <;> decide) rfl ((hfout _).trans ?_)
    have h0 : bitAt (BitVec.ofNat 32 (2 * b2n f)) 0 = false := by cases f <;> decide
    have h1 : bitAt (BitVec.ofNat 32 (2 * b2n f)) 1 = f := by cases f <;> decide
    rw [Dev.foutWrite, h0, h1, if_neg (by decide)]
  · refine hacc.wrote hpwr (by decide) pageAt_pwr v.isLt rfl ?_
    have hwrite : s.dev.pageWrite w pagePwr 0x40 4 v.toNat = s.dev.pwrReq (BitVec.ofNat 32 v.toNat) := by
      rw [s.dev.pageWrite_system w _ (by decide) _ (.inr (.inl rfl))]
      rfl
    rw [hwrite, BitVec.ofNat_toNat, BitVec.setWidth_eq, Dev.pwrReq]
    cases s.dev.en pgPwr <;> rfl
  · refine hacc.wrote hpwr (by decide) pageAt_pwr (by decide) rfl ?_
    rw [s.dev.pageWrite_system w _ (by decide) 1 (.inr (.inl rfl))]
    rfl
  · refine hacc.wrote hotp (by decide) pageAt_otp (by decide) rfl ((hfuse 1).trans ?_)
    rw [s.dev.otpGo_free hen hbusy (by decide), if_pos (by decide)]
  · have hn := n.isLt
    refine hacc.wrote hotp (by decide) pageAt_otp (by omega) rfl ((hfuse _).trans ?_)
    have hbits : ∀ n : BitVec 2, let v := BitVec.ofNat 32 (2 + 4 * n.toNat)
        bitAt v 0 = false ∧ bitAt v 1 = true ∧ bitAt v 4 = false ∧ bitsOf v 2 2 = n.toNat := by decide
    obtain ⟨h0, h1, h4, hslot⟩ := hbits n
    rw [s.dev.otpGo_free hen hbusy (by rw [h0, h1, h4]; decide), h0, if_neg (by decide), h1, if_pos rfl, hslot]
  · have hsel := sel.isLt
    exact hacc.wrote hotp (by decide) pageAt_otp (by omega) rfl (hfuse _)

theorem fuseCommandDone : FuseCommandDone := by
  intro s c hc
  have hdone : s.dev.otpDone = { (s.dev.setB pgOtp F.OTP_STAT_BUSY false).irq pgOtp 0 with otp := s.dev.otp.blow c, otpCmd := none } := by
    rw [Dev.otpDone, hc]
  have hexec : exec .otpCommandDone s = s.otpDone := rfl
  exact ⟨{ s with otp := s.otp.blow c, dev := s.dev.otpDone.settle }, by rw [hexec, State.otpDone, hc], rfl, by rw [hdone]⟩

/-- Settles O14: what a warm reset keeps and notes, the hottest of the readings, and the writes of the registers one by one. -/
theorem clocksPowerAndFuses : Obligations.ClocksPowerAndFuses :=
  ⟨clocksAndDomains, temperatureReadings, powerRegisterWrites, fuseCommandDone⟩

end Sys2Proof.Claims
end

section
/-!
A microword issues (05 R114; 06 R148-R153).
-/
namespace Sys2Proof.Machine

theorem Dev.sash_setSash_ne (d : Dev) {n m : Nat} (x : Sash) (h : n ≠ m) : (d.setSash n x).sash m = d.sash m := Table.get_put_ne _ _ _ _ h

/-! Words that have gone wrong (05 R123) -/

theorem Dev.upset_rest (d : Dev) (errs : List (Nat × Bool)) : ∃ u, d.upset errs = { d with upsets := u } := by
  refine foldl_keeps (P := fun e => ∃ u, e = { d with upsets := u }) _ errs ⟨d.upsets, rfl⟩ fun x _ e he => ?_
  obtain ⟨u, rfl⟩ := he
  split
  · split
    · exact ⟨_, rfl⟩
    · exact ⟨u, rfl⟩
  · exact ⟨_, rfl⟩
  · exact ⟨_, rfl⟩
  · exact ⟨u, rfl⟩

/-- Whether a sash can issue does not depend on what has gone wrong in memory. -/
theorem Dev.canIssue_upset (d : Dev) (errs : List (Nat × Bool)) (n : Nat) : (d.upset errs).canIssue n = d.canIssue n := by
  obtain ⟨u, hu⟩ := d.upset_rest errs
  have hlive (p : Nat) : (d.upset errs).live p = d.live p := by rw [hu]; rfl
  have hstill : (d.upset errs).clocksStill = d.clocksStill := by rw [hu]; rfl
  have hsash : (d.upset errs).sash n = d.sash n := by rw [hu]; rfl
  have hcyc : (d.upset errs).cyc n = d.cyc n := by rw [hu]; rfl
  have hdone : (d.upset errs).wordDone n = d.wordDone n := by rw [hu]; rfl
  have hdue (c : Nat) : (d.upset errs).deliveryDue c = d.deliveryDue c := by rw [hu]; rfl
  unfold Dev.canIssue
  rw [hlive, hstill, hsash, hcyc, hdone, hdue]

theorem Dev.readErrs_none {d : Dev} (h : d.upsets = []) (l : List Nat) : d.readErrs l = d := if_pos (by rw [h]; rfl)

theorem Dev.laneView_none {d : Dev} (hfab : d.present.fabric = []) (hpois : d.present.fabPois = []) : d.laneView = d := by
  unfold Dev.laneView
  extract_lets e
  have he : e = d := by
    unfold e
    rw [hfab, List.foldl_nil]
  rw [he, hpois, List.foldl_nil]

section
variable (d : Dev) (n : Nat)

/-- The place of the word at the program counter, as FAULT_INFO shows it. -/
def Dev.wordPlace : Nat := (d.sash n).pc % 4096 + b2n (d.csActive n && !decide (4096 ≤ (d.sash n).pc)) * 2 ^ 12 + b2n (decide (4096 ≤ (d.sash n).pc)) * 2 ^ 13

variable {d n}

theorem Dev.microwordIssue_cannot {e : Dev} {c : CodeCheck} {errs : List (Nat × Bool)} (he : e = d.upset errs) (h : e.canIssue n = false) :
    d.microwordIssue n c errs = e := by
  unfold Dev.microwordIssue
  extract_lets u
  rw [show u = e from he.symm]
  split
  · rfl
  · exact if_pos (by rw [h]; rfl)

theorem Dev.microwordIssue_uncorrectable {e : Dev} {errs : List (Nat × Bool)} {r : Running} (he : e = d.upset errs) (h : e.canIssue n = true)
    (hjob : (e.sash n).job = some r) : d.microwordIssue n .uncorrectable errs =
      (e.inc (pgSash n) F.CS_ECC_UNCORR).laneFault n (lane0 r.lanes) 7 4 (e.wordPlace n) false := by
  unfold Dev.microwordIssue
  extract_lets u
  rw [show u = e from he.symm, hjob]
  refine (if_neg (by rw [h]; decide)).trans ?_
  rename_i p x rom here checked
  refine (if_pos rfl).trans ?_
  rw [show checked = u from if_neg (c := CodeCheck.uncorrectable = .corrected) (by decide), show here = u.wordPlace n from rfl,
    show u = e from he.symm]

section
variable {r : Running} (h : d.canIssue n = true) (hjob : (d.sash n).job = some r) (hlaw : r.law = none)
include h hjob hlaw

theorem Dev.microwordIssue_illegal (hbad : ∀ w, d.mwFetch n = some w → mwLegal w = false) :
    d.microwordIssue n .good [] = d.laneFault n (lane0 r.lanes) 7 4 (d.wordPlace n) false := by
  unfold Dev.microwordIssue
  extract_lets u
  rw [show u = d from rfl, hjob]
  refine (if_neg (by rw [h]; decide)).trans ?_
  rename_i p x rom here checked
  refine (if_neg (by decide)).trans ?_
  rw [show checked = d from if_neg (c := CodeCheck.good = .corrected) (by decide), hlaw, show here = d.wordPlace n from rfl]
  cases hw : d.mwFetch n with
  | none => rfl
  | some w => exact if_neg (by rw [hbad w hw]; decide)

theorem Dev.microwordIssue_legal {w : Nat} (hw : d.mwFetch n = some w) (hlegal : mwLegal w = true) : d.microwordIssue n .good [] = d.mwIssue n r w := by
  unfold Dev.microwordIssue
  extract_lets u
  rw [show u = d from rfl, hjob]
  refine (if_neg (by rw [h]; decide)).trans ?_
  rename_i p x rom here checked
  refine (if_neg (by decide)).trans ?_
  rw [show checked = d from if_neg (c := CodeCheck.good = .corrected) (by decide), hlaw, hw]
  exact if_pos hlegal

end

/-! A word that only computes (06 R152, R153) -/

/-- The sash whose word is issued. -/
def Dev.sashIssues (d : Dev) (n : Nat) (r : Running) : Sash := { d.sash n with
  job := some { r with start := some (r.start.getD d.count), phase := .run }
  lastIssue := some (d.cyc n)
  nextWord := (d.sash n).nextWord + 1 }

/-- The issue of a word changes registers, and of the sash its start, its cycle and its next number. -/
theorem Dev.noteIssue_regs (d : Dev) (n : Nat) (r : Running) : (d.setSash n (d.sashIssues n r)).RegsOnly (d.noteIssue n r) :=
  .trans (.setF ..) (.trans (.setF ..) (.setF ..))

/-- What a word that computes and goes on leaves in its sash. -/
structure Sash.Issued (x y : Sash) (cyc slot : Nat) : Prop where
  pc : y.pc = (x.pc + 1) % 8192
  lastIssue : y.lastIssue = some cyc
  nextWord : y.nextWord = x.nextWord + 1
  words : ∃ z : WordRec, z.id = x.nextWord ∧ z.addr = x.pc % 4096 ∧ z.slot = slot ∧ y.words = x.words ++ [z]
  ops : x.ops <+: y.ops

theorem Dev.mwIssue_next {r : Running} {w : Nat} (hsop : mw w 3 0 = 0) (hwait : mw w 25 20 = 0) (hups : d.upsets = []) (hfab : d.present.fabric = [])
    (hpois : d.present.fabPois = [])
    (hops : ∀ i ∈ laneList r.lanes, ∃ l, (d.noteIssue n r).mwOps
      ⟨(d.sash n).nextWord, n, i, d.cyc n, d.tick, mw w 191 191 == 1 && !(d.lane n i).pred⟩ (d.lane n i) w = .ok l) :
    ∃ e y, (d.setSash n (d.sashIssues n r)).RegsOnly e ∧ (d.sash n).Issued y (d.cyc n) (mw w 185 183) ∧ d.mwIssue n r w = e.setSash n y := by
  obtain ⟨e, he⟩ : ∃ e, e = d.noteIssue n r := ⟨_, rfl⟩
  have hregs := d.noteIssue_regs n r
  rw [← he] at hregs hops
  have hsash : e.sash n = d.sashIssues n r := by rw [Dev.sash, hregs.sashes, ← Dev.sash, Dev.sash_setSash_same]
  refine ⟨e, ?_⟩
  obtain ⟨t, ht⟩ := id hregs
  have hcyc : e.cyc n = d.cyc n := by
    rw [Dev.cyc, hsash, ht]
    rfl
  have htick : e.tick = d.tick := by
    rw [ht]
    rfl
  have hlane (i : Nat) : e.lane n i = d.lane n i := by
    rw [ht]
    rfl
  have hread (l : List Nat) : e.readErrs l = e := Dev.readErrs_none (by rw [ht]; exact hups) l
  have hview : e.laneView = e := Dev.laneView_none (by rw [ht]; exact hfab) (by rw [ht]; exact hpois)
  have hreads (l : List Nat) : e.laneReads l = e := by rw [Dev.laneReads, hview, hread]
  unfold Dev.mwIssue
  extract_lets x0 id rom here noted run pw at_ ls reads read view
  rename_i ops stores slot commits rec_
  have hn : noted = e := he.symm
  have hrun : run = { r with start := some (r.start.getD d.count), phase := .run } := by
    unfold run
    rw [hn, hsash]
    rfl
  have hls : ls = laneList r.lanes := by
    unfold ls
    rw [hrun]
  have hat (i : Nat) : at_ i = ⟨(d.sash n).nextWord, n, i, d.cyc n, d.tick, mw w 191 191 == 1 && !(d.lane n i).pred⟩ := by
    unfold at_
    rw [hn, hcyc, htick, hlane]
  have hrd : read = e := by
    unfold read
    rw [hn, hread]
  have hvw : view = e := by
    unfold view
    rw [hrd, hreads]
  have hgo : (e.sequence n run (e.sash n) w) = some ({ d.sashIssues n r with pc := ((d.sash n).pc + 1) % 8192 }, false) := by
    unfold Dev.sequence
    rw [hsop, hsash]
    rfl
  refine ⟨{ d.sashIssues n r with pc := ((d.sash n).pc + 1) % 8192, words := (d.sash n).words ++ [rec_], ops := (d.sash n).ops ++ ops }, hregs,
    ⟨rfl, rfl, rfl, ⟨rec_, rfl, rfl, rfl, rfl⟩, List.prefix_append _ _⟩, ?_⟩
  simp only [hls, hrd, hvw, hat, hlane, hgo]
  split
  · next i f hf =>
    obtain ⟨j, hj, hf⟩ := List.exists_of_findSome?_eq_some hf
    obtain ⟨l, hl⟩ := hops j hj
    rw [hl] at hf
    cases hf
  · exact (if_neg Bool.false_ne_true).trans (if_neg (not_not_intro hwait))

end

end Sys2Proof.Machine

namespace Sys2Proof.Claims
open Sys2Proof.Machine

/-- Settles O17: the issue of a word takes the branch of what was fetched, and `mwIssue_next` says what a word that computes and goes on leaves. -/
theorem microwordIssues : Obligations.MicrowordIssues := by
  unfold Obligations.MicrowordIssues
  intro s n hclk d p x here
  refine ⟨fun c errs hcan => ?_, fun errs r hcan hjob => ?_, fun r hcan hjob hlaw hbad => ?_,
    fun r w hcan hjob hlaw hfetch hlegal hsop hwait hups hfab hpois hops => ?_⟩
  · rw [← d.canIssue_upset errs] at hcan
    exact does_of_clocked (f := fun d => d.microwordIssue n c errs) hclk rfl (Dev.microwordIssue_cannot rfl hcan)
  · obtain ⟨u, hu⟩ := d.upset_rest errs
    rw [← d.canIssue_upset errs] at hcan
    have hjob : ((d.upset errs).sash n).job = some r := by rw [hu]; exact hjob
    have hplace : (d.upset errs).wordPlace n = here := by rw [hu]; rfl
    rw [← hplace]
    exact does_of_clocked (f := fun d => d.microwordIssue n .uncorrectable errs) hclk rfl (Dev.microwordIssue_uncorrectable rfl hcan hjob)
  · exact does_of_clocked (f := fun d => d.microwordIssue n .good []) hclk rfl (Dev.microwordIssue_illegal hcan hjob hlaw hbad)
  · obtain ⟨e, y, hregs, hy, he⟩ := Dev.mwIssue_next hsop hwait hups hfab hpois hops
    have hissue := (Dev.microwordIssue_legal hcan hjob hlaw hfetch hlegal).trans he
    refine gives_of_clocked (f := fun d => d.microwordIssue n .good []) hclk rfl hissue ?_
    obtain ⟨t, rfl⟩ := hregs
    rw [Dev.sash_setSash_same]
    refine ⟨hy.pc, hy.lastIssue, hy.nextWord, hy.words, hy.ops, rfl, rfl, rfl, fun m hm => ?_⟩
    rw [Dev.sash_setSash_ne _ _ hm.symm]
    exact Dev.sash_setSash_ne d (d.sashIssues n r) hm.symm

end Sys2Proof.Claims
end

section
/-!
What issued microwords leave: results and their replays, and the ends of words and of waits (05 R113, R122, R132, R133; 06 R156-R158).
-/
namespace Sys2Proof.Machine

section
variable {d : Dev} {n : Nat}

/-! Results and replays (05 R113, R132, R133) -/

theorem Dev.writeback_none (h : d.dueOps n = []) (bad : List (Nat × Nat)) : d.writeback n bad = d := by rw [Dev.writeback, h, List.foldl_nil]

theorem Dev.writeback_one {o : InFlight} (h : d.dueOps n = [o]) (bad : List (Nat × Nat)) :
    d.writeback n bad = d.writeResult n o (bad.contains (o.lane, o.unit.code)) := by rw [Dev.writeback, h, List.foldl_cons, List.foldl_nil]

theorem Dev.writeResult_agrees {o : InFlight} (hjob : (d.sash n).job.isNone = false)
    (h : o.checked = true → d.injected n o.lane o.unit.code o.tick = false ∧ o.agrees = true) : d.writeResult n o false = d.landOp n o := by
  unfold Dev.writeResult
  extract_lets x inj
  refine (if_neg (by rw [show x.job.isNone = false from hjob]; decide)).trans (if_pos ?_)
  cases hc : o.checked with
  | false => rfl
  | true =>
    obtain ⟨hinj, hagrees⟩ := h hc
    simp [inj, hc, hinj, hagrees]

/-- The sash that waits for the replay of a result. -/
def Dev.sashReplays (d : Dev) (n : Nat) (o : InFlight) (w : WordRec) : Sash := { (d.sash n).mark o { o with bad := true } with
  words := (d.sash n).words.map (fun y => if y.id = w.id then { y with replayed := true } else y)
  freeze := some ⟨d.tick / 2 - (d.sash n).lost, 1 + o.unit.latency, w.id, d.tick⟩ }

theorem Dev.writeResult_replays {o : InFlight} {w : WordRec} (hjob : (d.sash n).job.isNone = false) (hfreeze : (d.sash n).freeze = none)
    (hword : (d.sash n).words.find? (fun w => w.id == o.word) = some w) (hfirst : w.replayed = false) (hchecked : o.checked = true)
    (hinj : d.injected n o.lane o.unit.code o.tick = false) : d.writeResult n o true =
      ((d.setSash n (d.sashReplays n o w)).inc (pgSash n) F.REPLAY_CNT_REPLAYS).setB (pgSash n) F.SASH_STATUS_FROZEN true := by
  unfold Dev.writeResult
  extract_lets x inj used marked
  have hno : inj = false := by
    unfold inj
    rw [hchecked, hinj]
    rfl
  have hused : used = d := by
    unfold used
    rw [hno]
    rfl
  have hmarked : marked = (d.sash n).mark o { o with bad := true } := by
    unfold marked
    rw [hused]
  refine (if_neg (by rw [show x.job.isNone = false from hjob]; decide)).trans ((if_neg (by simp [hchecked])).trans ?_)
  rw [show x.words.find? (fun w => w.id == o.word) = some w from hword, hused]
  dsimp only
  rw [show x.freeze = none from hfreeze, hfirst]
  refine (if_neg Bool.false_ne_true).trans ?_
  rw [hmarked]
  rfl

theorem Dev.replayEnd_agrees {f : Freeze} (hfreeze : (d.sash n).freeze = some f) (hdue : f.since + (d.sash n).lost + f.len ≤ d.tick / 2)
    (hops : (d.sash n).ops.all (fun o => !o.bad) = true) (bad : List (Nat × Nat)) : d.replayEnd n bad =
      (d.setSash n { d.sash n with freeze := none, lost := (d.sash n).lost + f.len }).setB (pgSash n) F.SASH_STATUS_FROZEN false := by
  have hagain : (d.sash n).ops.filter (fun o => o.bad) = [] := by
    refine List.filter_eq_nil_iff.mpr fun o ho => ?_
    rw [Bool.not_eq_true]
    exact Bool.not_eq_true' .. ▸ List.all_eq_true.mp hops o ho
  unfold Dev.replayEnd
  extract_lets x again
  rw [show x.freeze = some f from hfreeze]
  refine (if_neg (Nat.not_lt.mpr hdue)).trans ?_
  rw [show again = [] by unfold again; rw [show x.ops.filter (fun o => o.bad) = [] from hagain]; rfl]
  rfl

/-! The end of a word (05 R122, R127) -/

theorem Dev.laneStore_eq (hfab : d.present.fabric = []) (a v : Nat) : d.laneStore a v = (d.store a 4 v).clearUpsets a 4 := by
  have hstore : d.forN 4 (fun k d =>
      let b : Byte := BitVec.ofNat 8 (v / 2 ^ (8 * k))
      if d.present.fabric.any (fun e => e.1 == a + k) then
        { d with present := { d.present with fabric := d.present.fabric.map (fun e => if e.1 = a + k then (e.1, b) else e) } }
      else d.setByte (a + k) b) = d.store a 4 v := by
    rw [Dev.forN, show List.range 4 = [0, 1, 2, 3] from rfl]
    simp only [List.foldl_cons, List.foldl_nil, Dev.setByte, hfab, List.any_nil, Bool.false_eq_true, if_false, Dev.store, bytesLE, Dev.setBytes,
      Nat.div_div_eq_div_mul, Nat.mul_zero, pow_zero, Nat.div_one, Nat.add_zero, Nat.add_assoc, Nat.reduceAdd, Nat.reduceMul, Nat.reducePow]
  exact congrArg (·.clearUpsets a 4) hstore

theorem Dev.knockStore_rest (d : Dev) (n : Nat) (y : Deferred) : ∃ k, d.knockStore n y = { d with knocks := k } := by
  unfold Dev.knockStore
  extract_lets o go
  clear_value o
  split <;> exact ⟨_, rfl⟩

theorem le_busSlot (fs : List Flit) (home t : Nat) : t ≤ busSlot fs home t := Nat.le_add_right _ _

/-- A place on the bus is at least 12 cycles after the commit has left. -/
theorem Dev.busOrder_says (d : Dev) (home : Nat) : ∃ g : Flit → Nat, (∀ f, 2 * (d.tick / 2) + 24 ≤ f.due → 2 * (d.tick / 2) + 24 ≤ g f) ∧
    d.busOrder home = { d with flits := d.flits.map fun f => { f with due := g f } } := by
  unfold Dev.busOrder
  extract_lets cyc mine rest placed
  have hplaced : ∀ e ∈ placed, 2 * cyc + 24 ≤ e.2 := by
    refine List.foldlRecOn (motive := fun l : List (Flit × Nat) => ∀ e ∈ l, 2 * cyc + 24 ≤ e.2) _ _ (by simp) fun l hl f _ e he => ?_
    obtain he | he := List.mem_append.mp he
    · exact hl e he
    · rw [List.mem_singleton.mp he]
      exact le_busSlot _ _ _
  refine ⟨fun f => if f.fresh home cyc then ((placed.find? (fun e => e.1 == f)).map Prod.snd).getD f.due else f.due, fun f hf => ?_, ?_⟩
  · dsimp only
    split
    · cases hfind : placed.find? (fun e => e.1 == f) with
      | none => exact hf
      | some e => exact hplaced e (List.mem_of_find?_eq_some hfind)
    · exact hf
  · congr 2
    funext f
    dsimp only
    cases f.fresh home cyc <;> rfl

theorem Dev.sendFlit_says (d : Dev) (f : Flit) : ∃ l, d.sendFlit f = { d with flits := l } ∧ l.length = d.flits.length + 1 ∧
    ∃ t, { f with left := d.tick / 2, due := t } ∈ l ∧ d.tick / 2 * 2 + 24 ≤ t := by
  unfold Dev.sendFlit
  extract_lets g e
  have hdue : d.tick / 2 * 2 + 24 ≤ g.due := le_trans (Nat.add_le_add_left (by split <;> decide) _) (le_busSlot _ _ _)
  split
  · exact ⟨d.flits ++ [g], rfl, List.length_append, g.due, List.mem_append_right _ (List.mem_singleton_self g), hdue⟩
  · obtain ⟨t, ht, he⟩ := e.busOrder_says g.cas
    refine ⟨_, he, ?_, t g, ?_, ?_⟩
    · rw [List.length_map]
      exact List.length_append
    · exact List.mem_map.mpr ⟨g, List.mem_append_right _ (List.mem_singleton_self g), rfl⟩
    · rw [Nat.mul_comm]
      exact ht g (by rw [Nat.mul_comm]; exact hdue)

theorem Dev.injDue_none (h : (d.inj n).next = none) : d.injDue n = d := by
  have hupdate : d.injUpdate n = d := by
    unfold Dev.injUpdate
    rw [h]
  rw [Dev.injDue, hupdate, ite_self]

section
variable {r : Running} {w : WordRec}

theorem Dev.releaseCommit_sends (hslot : w.slot ≠ 0) (hcommits : w.commits ≠ []) (hdl : ∀ t, r.job.deadline = some t → d.count < t)
    (hbind : nbits (r.job.w (4 + (w.slot - 1))) 0 3 ≠ 0) (hinj : (d.inj n).next = none) : ∃ r' f,
      d.releaseCommit n r w = (d.setSash n { d.sash n with job := some r' }).sendFlit f ∧ f.job = r.job.id ∧ f.sash = n ∧ f.cas = r.job.home ∧
        f.since = none ∧ f.shares.length = w.commits.length := by
  unfold Dev.releaseCommit
  extract_lets late here due b bind vals r' there noted flit
  have hlate : late = false := by
    unfold late
    split
    · next t ht => exact decide_eq_false (Nat.not_le.mpr (hdl t ht))
    · rfl
  refine ⟨r', flit, (if_neg (not_or.mpr ⟨hslot, hcommits⟩)).trans ((if_neg (by rw [hlate]; decide)).trans ((if_neg hbind).trans ?_)), rfl, rfl, rfl, rfl, ?_⟩
  · rw [show noted = d.setSash n { d.sash n with job := some r' } by unfold noted there due; rw [Dev.injDue_none hinj]]
  · simp [flit, vals]

/-- The sash without the word that ended. -/
def Dev.sashEnds (d : Dev) (n : Nat) (w : WordRec) : Sash := { d.sash n with words := (d.sash n).words.filter (fun y => y.id != w.id) }

variable (hjob : (d.sash n).job = some r)
include hjob

theorem Dev.wordEnd_none (hnone : (d.sash n).words.find? (d.wordDone n) = none) : d.wordEnd n = d := by
  unfold Dev.wordEnd
  dsimp only
  rw [hjob, hnone]

variable (hword : (d.sash n).words.find? (d.wordDone n) = some w)
include hword

theorem Dev.wordEnd_eq : d.wordEnd n = (w.stores.foldl (fun d s =>
      let d := (d.laneStore s.addr s.val).knockStore n s
      if s.residual then
        d.monPresent (4 * n + s.lane) s.val (Table.get 0 (d.lane n s.lane).t (d.f (monPage (4 * n + s.lane)) F.PH_XCTRL_STAMP_SLOT)).toNat
      else d) (d.setSash n (d.sashEnds n w))).releaseCommit n r w := by
  unfold Dev.wordEnd
  dsimp only
  split
  · next r' w' hj hw =>
    cases hjob.symm.trans hj
    cases hword.symm.trans hw
    rfl
  · next hno => exact absurd hword (hno r w hjob)

theorem Dev.wordEnd_plain (hstores : w.stores = []) : d.wordEnd n = (d.setSash n (d.sashEnds n w)).releaseCommit n r w := by
  rw [Dev.wordEnd_eq hjob hword, hstores, List.foldl_nil]

theorem Dev.wordEnd_store {y : Deferred} (hstores : w.stores = [y]) (hres : y.residual = false) : d.wordEnd n =
    (((d.setSash n (d.sashEnds n w)).laneStore y.addr y.val).knockStore n y).releaseCommit n r w := by
  rw [Dev.wordEnd_eq hjob hword, hstores, List.foldl_cons, List.foldl_nil]
  dsimp only
  rw [if_neg (by rw [hres]; decide)]

end

end

end Sys2Proof.Machine

namespace Sys2Proof.Claims
open Sys2Proof.Machine

theorem resultsAndReplays : ResultsAndReplays := by
  intro s n hclk d p x
  have hexec (bad : List (Fin 4 × Fin 5)) : exec (.resultWriteback n bad) s = s.clocked fun d => d.writeback n (bad.map fun x => (x.1.val, x.2.val)) := rfl
  refine ⟨fun bad hnone => ?_, fun o r hone hjob hagrees => ?_, fun o r w i u hone hjob hfreeze hword hfirst hchecked hlane hunit hinj => ?_,
    fun f hfreeze hdue hops => ?_⟩
  · exact does_of_clocked hclk (hexec bad) (Dev.writeback_none hnone _)
  · have hjob : (d.sash n).job.isNone = false := by rw [show (d.sash n).job = some r from hjob]; rfl
    exact does_of_clocked hclk (hexec []) ((Dev.writeback_one hone []).trans (Dev.writeResult_agrees hjob hagrees))
  · have hjob : (d.sash n).job.isNone = false := by rw [show (d.sash n).job = some r from hjob]; rfl
    have hbad : [(i.val, u.val)].contains (o.lane, o.unit.code) = true := by rw [hlane, hunit]; simp
    have hwrite := Dev.writeback_one hone [(i.val, u.val)]
    rw [hbad, Dev.writeResult_replays hjob hfreeze hword hfirst hchecked hinj] at hwrite
    refine gives_of_clocked hclk (hexec [(i, u)]) hwrite ⟨?_, ?_, ?_, ?_, ?_⟩
    · rw [Dev.setB, Dev.setF_sash, Dev.inc, Dev.setF_sash, Dev.sash_setSash_same]
      rfl
    · exact Dev.on_setB_same _ _ _ _ rfl (by decide)
    · rw [Dev.setB, Dev.f_setF_apart _ _ rfl, Dev.inc, Dev.f_setF_same _ _ _ _ (by decide)]
      exact Nat.mod_eq_of_lt (satInc_lt _ _)
    · rw [Dev.setB, Dev.setF_lanes, Dev.inc_lanes]
      rfl
    · rw [Dev.setB, Dev.setF_mem, Dev.inc_mem]
      rfl
  · exact does_of_clocked (f := fun d => d.replayEnd n []) hclk rfl (Dev.replayEnd_agrees hfreeze hdue hops [])

theorem wordEnds : WordEnds := by
  intro s n hclk d x
  have hexec : exec (.wordEnd n) s = s.clocked fun d => d.wordEnd n := rfl
  refine ⟨fun r hjob hnone => ?_, fun r w hjob hword hslot hstores => ?_, fun r w y hjob hword hslot hstores hres hfab => ?_,
    fun r w hjob hword hstores hslot hcommits hdl hbind hinj => ?_⟩
  · exact does_of_clocked hclk hexec (Dev.wordEnd_none hjob hnone)
  · exact does_of_clocked hclk hexec ((Dev.wordEnd_plain hjob hword hstores).trans (if_pos (Or.inl hslot)))
  · obtain ⟨k, hk⟩ := ((d.setSash n (d.sashEnds n w)).laneStore y.addr y.val).knockStore_rest n y
    have hend := (Dev.wordEnd_store hjob hword hstores hres).trans (if_pos (Or.inl hslot))
    rw [hk, Dev.laneStore_eq (d := d.setSash n (d.sashEnds n w)) hfab] at hend
    refine gives_of_clocked hclk hexec hend ⟨rfl, rfl, rfl, rfl, ?_⟩
    have hsash (e : Dev) (a v : Nat) (k : List Knock) : { (e.store a 4 v).clearUpsets a 4 with knocks := k }.sash n = e.sash n := rfl
    rw [hsash, Dev.sash_setSash_same]
    rfl
  · obtain ⟨r', f, hsend, hid, hsash, hcas, hsince, hshares⟩ :=
      Dev.releaseCommit_sends (d := d.setSash n (d.sashEnds n w)) (n := n) hslot hcommits hdl hbind hinj
    obtain ⟨l, hl, hlen, t, ht, hdue⟩ := Dev.sendFlit_says ((d.setSash n (d.sashEnds n w)).setSash n _) f
    refine gives_of_clocked hclk hexec ((Dev.wordEnd_plain hjob hword hstores).trans (hsend.trans hl)) ⟨rfl, rfl, rfl, hlen, _, ht, ?_⟩
    exact ⟨hid, hsash, hcas, hsince, hshares, rfl, hdue⟩

end Sys2Proof.Claims
end

section
/-!
Waits and lane faults (05 R134, R135; 06 R156-R158; 07 R173).
-/
namespace Sys2Proof.Machine

section
variable {d : Dev} {n : Nat} {r : Running} {wc t issue tgt : Nat}

/-! The end of a job that failed -/

theorem Dev.failJob_rest (d : Dev) (j : Job) (n : Nat) (flags : List Nat) : ∃ l, d.failJob j n flags = { d with fallbacks := l } := by
  unfold Dev.failJob
  split
  · exact ⟨_, rfl⟩
  · exact ⟨d.fallbacks, rfl⟩

/-! Waits (06 R156, R158) -/

section
variable (hjob : (d.sash n).job = some r) (hphase : r.phase = .waiting wc t issue tgt)
include hjob hphase

theorem Dev.waitWake_eq : d.waitWake n = if !d.live (pgSash n) || !d.waitTrue n wc r || (t != 0 && decide (issue + 16 * t ≤ d.cyc n)) then d
    else (d.waitConsume n wc r).setPhase n r (.waking (if d.cyc n = issue then issue + 1 else d.cyc n + 5)) := by
  unfold Dev.waitWake
  rw [hjob]
  dsimp only
  rw [hphase]

theorem Dev.waitTimeout_eq : d.waitTimeout n = if t = 0 ∨ d.cyc n < issue + 16 * t ∨ !d.live (pgSash n) ∨ r.missed then d
    else if r.law.isSome then d.tplTimeout n r
    else (d.setSash n { d.sash n with pc := tgt }).setPhase n r .run := by
  unfold Dev.waitTimeout
  split
  · next hno => cases hjob.symm.trans hno
  · next r' hr =>
    cases hjob.symm.trans hr
    rw [hphase]

end

/-! A template's wait that times out (07 R173) -/

/-- The template's page shows that its wait timed out. -/
def Dev.timeoutShown (d : Dev) (r : Running) : Dev := match r.tpl with
  | some t => ((d.setB (tplBase t) F.TPL_STATUS_TIMEOUT true).irq (tplBase t) 0).inc (tplBase t) F.TPL_TIMEOUTS_TIMEOUTS
  | none => d

theorem Dev.timeoutShown_regs (d : Dev) (r : Running) : d.RegsOnly (d.timeoutShown r) := by
  unfold Dev.timeoutShown
  split
  · exact .trans (.setF ..) (.trans (.setF ..) (.setF ..))
  · exact .refl d

theorem Dev.tplTimeout_says (hjob : (d.sash n).job = some r) : let e := d.tplTimeout n r
    (e.sash n).job = none ∧ e.mem = d.mem ∧ e.on (pgSash n) F.SASH_STATUS_RUNNING = false := by
  obtain ⟨u, hu⟩ : ∃ u, u = ((d.timeoutShown r).noteEnd r.job 2).failJob r.job n [10] := ⟨_, rfl⟩
  have htimeout : d.tplTimeout n r = u.endRun n := by
    rw [hu]
    rfl
  have hrest : u.sashes = d.sashes ∧ u.mem = d.mem := by
    obtain ⟨l, hl⟩ := ((d.timeoutShown r).noteEnd r.job 2).failJob_rest r.job n [10]
    obtain ⟨x, hx⟩ := d.timeoutShown_regs r
    rw [hu, hl, hx]
    exact ⟨rfl, rfl⟩
  have hujob : (u.sash n).job = some r := by rw [Dev.sash, hrest.1, ← Dev.sash, hjob]
  obtain ⟨hsash, hrunning, x, hend⟩ := Dev.endRun_says hujob
  rw [htimeout]
  refine ⟨by rw [hsash]; rfl, ?_, hrunning⟩
  rw [hend, ← hrest.2]
  rfl

/-! Lane faults (05 R134, R135) -/

/-- What a lane fault shows, which the end of the job leaves: the counts and the record, and the fault's own bits. -/
structure Dev.FaultKept (p : Nat) (d e : Dev) : Prop where
  reg : ∀ o ∈ [0x48, 0x4C, 0x50, 0x54], e.reg (p + o) = d.reg (p + o)
  on : ∀ f ∈ [F.SASH_STATUS_LANE_FAULT, ⟨0x24, 0, 1⟩], e.on p f = d.on p f

namespace Dev.FaultKept

variable {p : Nat} {d e k : Dev}

theorem of_regs (h : e.regs = d.regs) : FaultKept p d e := ⟨fun _ _ => by rw [Dev.reg, h, Dev.reg], fun f _ => Dev.on_of_regs h p f⟩

theorem refl (d : Dev) : FaultKept p d d := of_regs rfl

theorem trans (h : FaultKept p d e) (h' : FaultKept p e k) : FaultKept p d k :=
  ⟨fun o ho => (h'.reg o ho).trans (h.reg o ho), fun f hf => (h'.on f hf).trans (h.on f hf)⟩

theorem ite {c : Prop} [Decidable c] (h : FaultKept p d e) (h' : FaultKept p d k) : FaultKept p d (if c then e else k) := by
  split
  · exact h
  · exact h'

theorem setF {f : Fld} (h : ([0x48, 0x4C, 0x50, 0x54].all (f.ofs != ·) && [F.SASH_STATUS_LANE_FAULT, ⟨0x24, 0, 1⟩].all f.apart) = true) (x : Nat) :
    FaultKept p d (d.setF p f x) := by
  rw [Bool.and_eq_true] at h
  exact ⟨fun o ho => Dev.reg_setF_apart _ _ (bne_iff_ne.mp (List.all_eq_true.mp h.1 o ho)), fun g hg => Dev.on_setF_apart _ _ (List.all_eq_true.mp h.2 g hg)⟩

/-- A change of other pages. -/
theorem away (h : ∀ o < 0x1000, e.reg (p + o) = d.reg (p + o)) : FaultKept p d e := by
  refine ⟨fun o ho => h o ?_, fun f hf => Dev.on_congr (h _ ?_)⟩
  · fin_cases ho <;> decide
  · fin_cases hf <;> decide

end Dev.FaultKept

section
variable (d : Dev) (n lane unit cause place : Nat) (inj : Bool)

/-- The bits and the count of a lane fault. -/
def Dev.laneFaultShown : Dev :=
  let e := (d.setB (pgSash n) F.SASH_STATUS_LANE_FAULT true).irq (pgSash n) 0
  (if cause = 2 then e.setB (pgSash n) F.SASH_STATUS_POISON_ABORT true else e).inc (pgSash n) ⟨0x48, 8 * lane, 8⟩

/-- FAULT_INFO of a lane fault. -/
def faultWord : Nat := lane + unit * 2 ^ 2 + cause * 2 ^ 5 + place * 2 ^ 8 + b2n inj * 2 ^ 22 + 2 ^ 31

/-- The first fault is recorded with its time. -/
def Dev.laneFaultNoted : Dev := if d.on (pgSash n) F.FAULT_INFO_VALID then d
  else (d.setReg (pgSash n + 0x4C) (BitVec.ofNat 32 (faultWord lane unit cause place inj))).setR64 (pgSash n) 0x50 d.count

/-- A fault counts towards the sash's quarantine (05 R138). -/
def Dev.laneFaultCounted : Dev :=
  let e := d.setSash n { d.sash n with aborts := (d.sash n).aborts + 1 }
  let lim := e.f (pgSash n) F.SASH_CTRL_FAULT_LIMIT
  if lim ≠ 0 ∧ lim ≤ (d.sash n).aborts + 1 ∧ e.on (pgSash n) F.SASH_STATUS_QUARANTINED = false then
    (e.setB (pgSash n) F.SASH_STATUS_QUARANTINED true).irq (pgSash n) 1 else e

variable {d n lane unit cause place inj}

theorem Dev.laneFault_eq (hjob : (d.sash n).job = some r) : ∃ (due : Bool) (flags : List Nat) (u : Dev),
    u = (((d.laneFaultShown n lane cause).laneFaultNoted n lane unit cause place inj).pulse (evCas (n / 4) (84 + n % 4))).laneFaultCounted n ∧
      d.laneFault n lane unit cause place inj =
        ((if r.missed then u else if due then u.recordMiss r.job else u.noteEnd r.job 2).failJob r.job n flags).endRun n := by
  unfold Dev.laneFault
  split
  · next hno => cases hjob.symm.trans hno
  · next r' hr =>
    cases hjob.symm.trans hr
    exact ⟨_, _, _, rfl, rfl⟩

theorem Dev.laneFaultShown_regs : d.RegsOnly (d.laneFaultShown n lane cause) :=
  .trans (.setF ..) (.trans (.setF ..) (.trans (.ite (.setF ..) (.refl _)) (.setF ..)))

theorem Dev.laneFaultShown_says (hlane : lane < 4) : let e := d.laneFaultShown n lane cause
    e.on (pgSash n) F.SASH_STATUS_LANE_FAULT = true ∧ e.on (pgSash n) ⟨0x24, 0, 1⟩ = true ∧ e.reg (pgSash n + 0x4C) = d.reg (pgSash n + 0x4C) ∧
      e.f (pgSash n) ⟨0x48, 8 * lane, 8⟩ = satInc 8 (d.f (pgSash n) ⟨0x48, 8 * lane, 8⟩) := by
  obtain ⟨a, ha⟩ : ∃ a, a = (d.setB (pgSash n) F.SASH_STATUS_LANE_FAULT true).irq (pgSash n) 0 := ⟨_, rfl⟩
  obtain ⟨b, hb⟩ : ∃ b, b = if cause = 2 then a.setB (pgSash n) F.SASH_STATUS_POISON_ABORT true else a := ⟨_, rfl⟩
  have hshown : d.laneFaultShown n lane cause = b.inc (pgSash n) ⟨0x48, 8 * lane, 8⟩ := by rw [hb, ha, Dev.laneFaultShown]
  have hbon (f : Fld) (hf : F.SASH_STATUS_POISON_ABORT.apart f = true) : b.on (pgSash n) f = a.on (pgSash n) f := by
    rw [hb]
    split
    · exact Dev.on_setF_apart _ _ hf
    · rfl
  have hbreg (o : Nat) (ho : 0x10 ≠ o ∧ 0x24 ≠ o) : b.reg (pgSash n + o) = d.reg (pgSash n + o) := by
    have hareg : a.reg (pgSash n + o) = d.reg (pgSash n + o) := by
      rw [ha, Dev.irq, Dev.reg_setF_apart _ _ ho.2, Dev.setB, Dev.reg_setF_apart _ _ ho.1]
    rw [hb, ← hareg]
    split
    · exact Dev.reg_setF_apart _ _ ho.1
    · rfl
  rw [hshown]
  refine ⟨?_, ?_, ?_, ?_⟩
  · rw [Dev.inc, Dev.on_setF_apart _ _ rfl, hbon _ rfl, ha, Dev.irq, Dev.on_setF_apart _ _ rfl, Dev.on_setB_same _ _ _ _ rfl (by decide)]
  · rw [Dev.inc, Dev.on_setF_apart _ _ rfl, hbon _ rfl, ha]
    exact Dev.on_setB_same _ _ ⟨0x24, 0, 1⟩ true rfl (by decide)
  · rw [Dev.inc, Dev.reg_setF_apart _ _ (show 0x48 ≠ 0x4C by decide), hbreg _ (by decide)]
  · rw [Dev.inc, Dev.f_setF_same _ _ _ _ (by dsimp only; omega), Dev.f_congr (hbreg 0x48 (by decide))]
    exact Nat.mod_eq_of_lt (satInc_lt _ _)

theorem Dev.laneFaultNoted_regs : d.RegsOnly (d.laneFaultNoted n lane unit cause place inj) := .ite (.refl d) (.trans (.setReg ..) (.setR64 ..))

theorem bitsOf_faultWord (hlane : lane < 4) (hunit : unit < 8) (hcause : cause < 8) (hplace : place < 2 ^ 14) :
    let v := BitVec.ofNat 32 (faultWord lane unit cause place inj)
    bitsOf v 0 2 = lane ∧ bitsOf v 2 3 = unit ∧ bitsOf v 5 3 = cause ∧ bitAt v 31 = true := by
  have hb : b2n inj < 2 := by cases inj <;> decide
  intro v
  rw [bitAt_eq_bitsOf]
  simp only [bitsOf, v, BitVec.toNat_ofNat, Nat.shiftRight_eq_div_pow, faultWord, bne_iff_ne]
  omega

/-- The first fault is recorded with its time; a later one leaves the record. -/
theorem Dev.laneFaultNoted_says {e : Dev} (he : e = d.laneFaultNoted n lane unit cause place inj) :
    (∀ f : Fld, (f.ofs != 0x4C && f.ofs != 0x50 && f.ofs != 0x54) = true → e.f (pgSash n) f = d.f (pgSash n) f) ∧
      (d.on (pgSash n) F.FAULT_INFO_VALID = true → e.reg (pgSash n + 0x4C) = d.reg (pgSash n + 0x4C)) ∧
      (d.on (pgSash n) F.FAULT_INFO_VALID = false → e.r64 (pgSash n) 0x50 = d.count ∧
        e.reg (pgSash n + 0x4C) = BitVec.ofNat 32 (faultWord lane unit cause place inj)) := by
  refine ⟨fun f hf => ?_, fun hv => ?_, fun hv => ?_⟩
  · simp only [Bool.and_eq_true, bne_iff_ne] at hf
    rw [he, Dev.laneFaultNoted]
    split
    · rfl
    · rw [Dev.f_setR64_apart _ _ (by simp [hf]), Dev.f_setReg_apart _ _ (Ne.symm hf.1.1)]
  · rw [he, Dev.laneFaultNoted, if_pos hv]
  · rw [he, Dev.laneFaultNoted, if_neg (by rw [hv]; decide)]
    refine ⟨?_, ?_⟩
    · rw [Dev.r64_setR64_same]
      exact Nat.mod_eq_of_lt d.time.count.isLt
    · rw [Dev.setR64, Dev.reg_setReg_ne _ _ (by omega), Dev.reg_setReg_ne _ _ (by omega), Dev.reg_setReg_same]

theorem Dev.laneFaultCounted_kept : FaultKept (pgSash n) d (d.laneFaultCounted n) :=
  .trans (.of_regs (e := d.setSash n { d.sash n with aborts := (d.sash n).aborts + 1 }) rfl) (.ite (.trans (.setF rfl _) (.setF rfl _)) (.refl _))

theorem Dev.laneFaultCounted_run : (d.laneFaultCounted n).mem = d.mem ∧ ((d.laneFaultCounted n).sash n).job = (d.sash n).job := by
  have hregs : (d.setSash n { d.sash n with aborts := (d.sash n).aborts + 1 }).RegsOnly (d.laneFaultCounted n) :=
    .ite (.trans (.setF ..) (.setF ..)) (.refl _)
  refine ⟨hregs.mem, ?_⟩
  rw [Dev.sash, hregs.sashes, ← Dev.sash, Dev.sash_setSash_same]

theorem Dev.missShown_page (j : Job) (h : j.desc < 256) : Dev.PageOnly (pgJq j.home) d (d.missShown j) :=
  have hline : 0x100 + 4 * (j.desc / 4) < 0x1000 := by omega
  .trans (.setF (by decide) _) (.trans (.setF hline _) (.trans (.setF (by decide) _) (.setF (by decide) _)))

theorem Dev.jobLeft_away : ∀ o < 0x1000, (d.jobLeft r).reg (pgSash n + o) = d.reg (pgSash n + o) := by
  intro o ho
  unfold Dev.jobLeft
  rw [(Dev.jqRefresh_page _ _).reg _ (pgJq_sash_apart ho)]
  split
  · exact Dev.reg_setF_ne _ _ _ _ (tplBase_sash_apart (by decide) ho)
  · rfl

theorem Dev.runCleared_kept : FaultKept (pgSash n) d (d.runCleared n) :=
  .trans (.setF rfl _) (.trans (.setF rfl _) (.trans (.setF rfl _) (.setF rfl _)))

theorem Dev.endRun_kept (hjob : (d.sash n).job = some r) : FaultKept (pgSash n) d (d.endRun n) := by
  obtain ⟨e, he, hend⟩ := Dev.endRun_eq hjob
  have hshown : FaultKept (pgSash n) d e := by
    obtain rfl | rfl := he
    · exact .refl _
    · exact .setF rfl _
  have hfreed : FaultKept (pgSash n) e (e.setSash n (d.sashFreed n)) := .of_regs rfl
  rw [hend]
  exact hshown.trans (hfreed.trans (Dev.runCleared_kept.trans (.away Dev.jobLeft_away)))

theorem Dev.recordMiss_kept (j : Job) (h : j.desc < 256) : FaultKept (pgSash n) d (d.recordMiss j) := by
  rw [Dev.recordMiss_eq]
  exact .trans (.of_regs (e := (d.noteEnd j 3).pulse (evCas j.home 88)) rfl) (.away fun o ho => (Dev.missShown_page _ h).reg _ (pgJq_sash_apart ho))

/-- After the fault is recorded the job ends. -/
theorem Dev.laneFault_ends (hjob : (d.sash n).job = some r) (hdesc : r.job.desc < 256) : let e := d.laneFault n lane unit cause place inj
    FaultKept (pgSash n) ((d.laneFaultShown n lane cause).laneFaultNoted n lane unit cause place inj) e ∧
      (e.sash n).job = none ∧ (e.sash n).ops = [] ∧ e.on (pgSash n) F.SASH_STATUS_RUNNING = false ∧ e.mem = d.mem := by
  obtain ⟨due, flags, u, hu, hfault⟩ := Dev.laneFault_eq (lane := lane) (unit := unit) (cause := cause) (place := place) (inj := inj) hjob
  obtain ⟨v, hv⟩ : ∃ v, v = (d.laneFaultShown n lane cause).laneFaultNoted n lane unit cause place inj := ⟨_, rfl⟩
  have hregs : d.RegsOnly v := hv ▸ Dev.laneFaultShown_regs.trans Dev.laneFaultNoted_regs
  have hukept : FaultKept (pgSash n) v u := by
    rw [hu, ← hv]
    exact .trans (.of_regs (e := v.pulse (evCas (n / 4) (84 + n % 4))) rfl) Dev.laneFaultCounted_kept
  have hurun : u.mem = d.mem ∧ (u.sash n).job = some r := by
    obtain ⟨hmem, hkeeps⟩ := Dev.laneFaultCounted_run (d := v.pulse (evCas (n / 4) (84 + n % 4))) (n := n)
    rw [hu, ← hv]
    exact ⟨hmem.trans hregs.mem, hkeeps.trans ((congrArg (fun t => (Table.get {} t n).job) hregs.sashes).trans hjob)⟩
  obtain ⟨w, hw⟩ : ∃ w, w = if r.missed then u else if due then u.recordMiss r.job else u.noteEnd r.job 2 := ⟨_, rfl⟩
  have hwkept : FaultKept (pgSash n) u w := hw ▸ .ite (.refl u) (.ite (Dev.recordMiss_kept _ hdesc) (.of_regs rfl))
  have hwrun : w.mem = u.mem ∧ w.sashes = u.sashes := by
    obtain ⟨hsashes, hmem, -, -⟩ := u.recordMiss_says r.job
    rw [hw]
    split
    · exact ⟨rfl, rfl⟩
    · split
      · exact ⟨hmem, hsashes⟩
      · exact ⟨rfl, rfl⟩
  obtain ⟨l, hl⟩ := w.failJob_rest r.job n flags
  rw [← hw, hl] at hfault
  have hxjob : (({ w with fallbacks := l } : Dev).sash n).job = some r := by
    rw [← hurun.2]
    exact congrArg (fun t => (Table.get {} t n).job) hwrun.2
  obtain ⟨hsash, hrunning, t, hend⟩ := Dev.endRun_says hxjob
  have hkept : FaultKept (pgSash n) w ({ w with fallbacks := l } : Dev) := .of_regs rfl
  rw [hfault, ← hv]
  refine ⟨hukept.trans (hwkept.trans (hkept.trans (Dev.endRun_kept hxjob))), ?_, ?_, hrunning, ?_⟩
  · rw [hsash]
    rfl
  · rw [hsash]
    rfl
  · rw [hend, ← hurun.1, ← hwrun.1]
    rfl

end

end

end Sys2Proof.Machine

namespace Sys2Proof.Claims
open Sys2Proof.Machine

theorem waitsEnd : WaitsEnd := by
  intro s n r wc t issue tgt hclk d hjob hphase hlive
  have hwake := Dev.waitWake_eq hjob hphase
  have htimeout := Dev.waitTimeout_eq hjob hphase
  have hexecw : exec (.waitWake n) s = s.clocked fun d => d.waitWake n := rfl
  have hexect : exec (.waitTimeout n) s = s.clocked fun d => d.waitTimeout n := rfl
  refine ⟨fun hfalse => ?_, fun htrue htime => ?_, fun htime => ?_, fun ht hdue hmissed hlaw => ?_, fun ht hdue hmissed hlaw hhome hdesc htpl => ?_⟩
  · exact does_of_clocked hclk hexecw (hwake.trans (if_pos (by rw [hfalse]; simp)))
  · refine does_of_clocked hclk hexecw (hwake.trans (if_neg ?_))
    rw [hlive, htrue]
    obtain rfl | htime := htime
    · simp
    · simp [Nat.not_le.mpr htime]
  · refine does_of_clocked hclk hexect (htimeout.trans (if_pos ?_))
    tauto
  · have hgo : ¬ (t = 0 ∨ d.cyc n < issue + 16 * t ∨ (!d.live (pgSash n)) = true ∨ r.missed = true) := by
      rw [hlive, hmissed]
      simp [ht, hdue]
    exact does_of_clocked hclk hexect (htimeout.trans ((if_neg hgo).trans (if_neg (by rw [hlaw]; decide))))
  · have hgo : ¬ (t = 0 ∨ d.cyc n < issue + 16 * t ∨ (!d.live (pgSash n)) = true ∨ r.missed = true) := by
      rw [hlive, hmissed]
      simp [ht, hdue]
    exact gives_of_clocked hclk hexect (htimeout.trans ((if_neg hgo).trans (if_pos (Option.isSome_iff_ne_none.mpr hlaw)))) (Dev.tplTimeout_says hjob)

theorem laneFaultEndsJob : LaneFaultEndsJob := by
  intro d n lane unit cause place inj r hjob hlane hunit hcause hplace hhome hdesc htpl p e
  obtain ⟨hkept, hnone, hops, hrunning, hmem⟩ :=
    Dev.laneFault_ends (lane := lane) (unit := unit) (cause := cause) (place := place) (inj := inj) hjob hdesc
  obtain ⟨hfault, hirq, hinfo, hcount⟩ := Dev.laneFaultShown_says (d := d) (n := n) (cause := cause) hlane
  have htime := (Dev.laneFaultShown_regs (d := d) (n := n) (lane := lane) (cause := cause)).count
  obtain ⟨v, hv⟩ : ∃ v, v = d.laneFaultShown n lane cause := ⟨_, rfl⟩
  obtain ⟨w, hw⟩ : ∃ w, w = v.laneFaultNoted n lane unit cause place inj := ⟨_, rfl⟩
  rw [← hv, ← hw] at hkept
  rw [← hv] at hfault hirq hinfo hcount htime
  obtain ⟨hwf, hwlater, hwfirst⟩ := Dev.laneFaultNoted_says hw
  have hwon (f : Fld) (hf : (f.ofs != 0x4C && f.ofs != 0x50 && f.ofs != 0x54) = true) : w.on p f = v.on p f := by rw [Dev.on, hwf f hf, Dev.on]
  have hvalid : v.on p F.FAULT_INFO_VALID = d.on p F.FAULT_INFO_VALID := Dev.on_congr hinfo
  refine ⟨hnone, hops, ?_, hrunning, ?_, hmem, ?_, fun hset => ?_, fun hclear => ?_⟩
  · rw [hkept.on _ (by simp), hwon _ rfl, hfault]
  · rw [← Dev.on_bit, hkept.on _ (by simp), hwon _ rfl, hirq]
  · rw [Dev.f_congr (hkept.reg 0x48 (by simp)), hwf _ rfl, hcount]
  · rw [hkept.reg 0x4C (by simp), hwlater (hvalid.trans hset), hinfo]
  · obtain ⟨hstamp, hword⟩ := hwfirst (hvalid.trans hclear)
    rw [hkept.reg 0x4C (by simp), hword]
    refine ⟨?_, bitsOf_faultWord hlane hunit hcause hplace⟩
    rw [Dev.r64, hkept.reg 0x50 (by simp), hkept.reg 0x54 (by simp), ← htime]
    exact hstamp

/-- Settles O19: results, lane faults, the ends of words and of waits, each by what its command does to the sash. -/
theorem wordsAndResults : Obligations.WordsAndResults := ⟨resultsAndReplays, wordEnds, laneFaultEndsJob, waitsEnd⟩

end Sys2Proof.Claims
end

section
/-!
Jobs from their start to their end (06 R155; 07 R168-R172; 08 R192-R197).
-/
namespace Sys2Proof.Machine

/-! What a sash that takes a job leaves of the sashes and the queues -/

/-- The sashes and the queues are as they were. -/
structure Dev.JobsKept (d e : Dev) : Prop where
  sashes : e.sashes = d.sashes
  queues : e.queues = d.queues

namespace Dev.JobsKept

variable {d e r : Dev}

theorem refl (d : Dev) : d.JobsKept d := ⟨rfl, rfl⟩

theorem trans (h : d.JobsKept e) (k : e.JobsKept r) : d.JobsKept r := ⟨k.sashes.trans h.sashes, k.queues.trans h.queues⟩

theorem ite {c : Prop} [Decidable c] (h : d.JobsKept e) (k : d.JobsKept r) : d.JobsKept (if c then e else r) := by
  split
  · exact h
  · exact k

theorem foldl {β : Type} (f : Dev → β → Dev) (l : List β) (hf : ∀ x ∈ l, ∀ e : Dev, e.JobsKept (f e x)) (d : Dev) : d.JobsKept (l.foldl f d) :=
  foldl_keeps f l (refl d) fun x hx _ he => he.trans (hf x hx _)

theorem forN (n : Nat) (g : Nat → Dev → Dev) (hg : ∀ i e, Dev.JobsKept e (g i e)) (d : Dev) : d.JobsKept (d.forN n g) :=
  foldl _ _ (fun i _ e => hg i e) d

theorem of_regs (h : d.RegsOnly e) : d.JobsKept e := by
  obtain ⟨t, rfl⟩ := h
  exact ⟨rfl, rfl⟩

theorem of_read (h : d.ReadKeeps e) : d.JobsKept e := ⟨(congrArg Dev.sashes h.rest : _), (congrArg Dev.queues h.rest : _)⟩

theorem of_write (h : d.MemoryKeeps e) : d.JobsKept e := ⟨(congrArg Dev.sashes h : _), (congrArg Dev.queues h : _)⟩

theorem sash (h : d.JobsKept e) (n : Nat) : e.sash n = d.sash n := by rw [Dev.sash, h.sashes, ← Dev.sash]

theorem queue (h : d.JobsKept e) (c : Nat) : e.queue c = d.queue c := by rw [Dev.queue, h.queues, ← Dev.queue]

variable (d)

theorem store (a k v : Nat) : d.JobsKept (d.store a k v) := of_write (Dev.BytesKeeps.setBytes d a _).memory

theorem copyLines (src dst n : Nat) : d.JobsKept (d.copyLines src dst n) :=
  forN n _ (fun i _ => (of_read (.getMem false (src + 64 * i) 64)).trans (of_write (.putMem _ _ _ _ _))) d

theorem setLane (n i : Nat) (l : Lane) : d.JobsKept (d.setLane n i l) := ⟨rfl, rfl⟩

theorem setPoison (a : Nat) (b : Bool) : d.JobsKept (d.setPoison a b) := ⟨rfl, rfl⟩

theorem clearUpsets (a len : Nat) : d.JobsKept (d.clearUpsets a len) := ⟨rfl, rfl⟩

theorem setInj (n : Nat) (x : Inj) : d.JobsKept (d.setInj n x) := ⟨rfl, rfl⟩

theorem copyContext (n i : Nat) (j : Job) : d.JobsKept (d.copyContext n i j) := by
  unfold Dev.copyContext
  extract_lets src raw copied lane loaded
  have hraw : d.JobsKept raw := copyLines d src (laneMem n i 0) j.ctxLines
  have hcopied : d.JobsKept copied := hraw.trans ⟨rfl, rfl⟩
  exact hcopied.trans (setLane _ _ _ _)

theorem copyTemplate (n i t : Nat) : d.JobsKept (d.copyTemplate n i t) := by
  unfold Dev.copyTemplate
  extract_lets start words clean lane first acc loaded
  have hwords : d.JobsKept words := forN 240 _ (fun _ e => store e _ _ _) d
  have hclean : words.JobsKept clean := (forN 15 _ (fun _ e => setPoison e _ _) words).trans (clearUpsets _ _ _)
  exact hwords.trans (hclean.trans (setLane _ _ _ _))

theorem injectRef (n i : Nat) (j : Job) : d.JobsKept (d.injectRef n i j) := ite (store d _ _ _) (refl d)

theorem injDue (n : Nat) : d.JobsKept (d.injDue n) := by
  refine ite ?_ (refl d)
  unfold Dev.injUpdate
  split
  · exact refl d
  · refine ite (refl d) (ite ?_ ?_)
    · exact (setInj d _ _).trans (of_regs (.trans (.setF ..) (.trans (.setF ..) (.trans (.setF ..) (.setF ..)))))
    · exact (of_regs (.trans (.setF ..) (.trans (.setF ..) (.trans (.setF ..) (.setF ..))))).trans (setInj _ _ _)

end Dev.JobsKept

theorem Dev.queue_setQueue_same (d : Dev) (c : Nat) (q : List Job) : (d.setQueue c q).queue c = q :=
  ((Dev.JobsKept.of_regs (Dev.jqRefresh_page _ c).regs).queue c).trans (Table.get_put_same _ _ _ _)

theorem Dev.queue_setSash (d : Dev) (n : Nat) (x : Sash) (c : Nat) : (d.setSash n x).queue c = d.queue c := rfl

theorem Dev.takeJob_says {d : Dev} (n : Nat) (j : Job) (e : Nat) (st : Bool) : let r := d.takeJob n j e st
    (r.sash n).pc = e ∧ (r.sash n).stack = [] ∧ (r.sash n).words = [] ∧ r.on (pgSash n) F.SASH_STATUS_RUNNING = true ∧
      r.queue j.home = (d.queue j.home).erase j ∧
      ∃ x, (r.sash n).job = some x ∧ x.job = j ∧ x.entry = e ∧ x.stolen = st ∧ x.commits = 0 ∧
        (j.tplJob = false → x.lanes = (d.f (pgSash n) F.SASH_CTRL_LANE_EN &&& j.laneMask)) := by
  unfold Dev.takeJob
  extract_lets p tpl mask lanes law pair run due x c ev queued taken started copied injected r
  have hstarted : taken.JobsKept started := .foldl _ _ (fun _ _ _ => .setLane _ _ _ _) _
  have hcopied : started.JobsKept copied := by
    unfold copied
    generalize tpl = t
    cases t with
    | some t => exact (Dev.JobsKept.foldl _ _ (fun i _ e => .copyTemplate e n i t) started).trans (.of_regs (.setF ..))
    | none => exact .foldl _ _ (fun i _ e => .copyContext e n i j) _
  have hinjected : copied.JobsKept injected := .ite (.refl _) (.foldl _ _ (fun i _ e => .injectRef e n i j) _)
  have hshown : injected.JobsKept r := .of_regs (.trans (.setF ..) (.trans (.setF ..) (Dev.jqRefresh_page _ j.home).regs))
  have hkept : taken.JobsKept r := hstarted.trans (hcopied.trans (hinjected.trans hshown))
  have hqueue : taken.queue j.home = (d.queue j.home).erase j := by
    have hdue : due.queue j.home = d.queue j.home := (Dev.JobsKept.injDue d n).queue _
    have hqueued : queued.queue j.home = (due.queue j.home).erase j := Dev.queue_setQueue_same _ _ _
    exact (Dev.queue_setSash queued _ _ _).trans (hqueued.trans (congrArg (·.erase j) hdue))
  have hsash : r.sash n = _ := (hkept.sash n).trans (Dev.sash_setSash_same _ _ _)
  rw [hsash, hkept.queue, hqueue]
  refine ⟨rfl, rfl, rfl, ?_, rfl, run, rfl, rfl, rfl, rfl, rfl, fun hplain => ?_⟩
  · rw [show r = ((injected.setB p F.SASH_STATUS_RUNNING true).setB p F.PC_SNAP_RUN true).jqRefresh j.home from rfl,
      (Dev.jqRefresh_page _ _).on (pgJq_sash_apart (by decide)), Dev.setB, Dev.on_setF_apart _ _ rfl, Dev.on_setB_same _ _ _ _ rfl (by decide)]
  · show d.f p F.SASH_CTRL_LANE_EN &&& mask = _
    have htpl : tpl = none := if_neg (by rw [hplain]; decide)
    unfold mask
    rw [htpl]

/-! What the sashes take in a cycle (08 R192, R196) -/

/-- The sashes of a list choose in its order, but for those passed over; `pick` chooses from what those before leave. -/
def choices (skip : Nat → Bool) (pick : Nat → List Choice → Option (Job × Nat)) (l : List Choice) (ns : List Nat) : List Choice :=
  ns.foldl (fun l n => if skip n then l else match pick n l with
    | none => l
    | some (j, e) => l ++ [(n, j, e)]) l

section
variable {skip : Nat → Bool} {pick : Nat → List Choice → Option (Job × Nat)} {ns : List Nat}

theorem choices_mem {x : Choice} (h : x ∈ choices skip pick [] ns) : skip x.1 = false ∧ x.1 ∈ ns := by
  refine List.foldlRecOn (motive := fun l : List Choice => ∀ x ∈ l, skip x.1 = false ∧ x.1 ∈ ns) ns _ (by simp) (fun l hl n hn x hx => ?_) x h
  split at hx
  · exact hl x hx
  · next hskip =>
    split at hx
    · exact hl x hx
    · obtain hx | hx := List.mem_append.mp hx
      · exact hl x hx
      · rw [List.mem_singleton.mp hx]
        exact ⟨Bool.eq_false_iff.mpr hskip, hn⟩

theorem choices_skip {n : Nat} (h : skip n = true) : (choices skip pick [] ns).find? (fun x => x.1 == n) = none := by
  refine List.find?_eq_none.mpr fun x hx hn => ?_
  rw [beq_iff_eq] at hn
  rw [← hn, (choices_mem hx).1] at h
  cases h

theorem choices_grow (l : List Choice) : l <+: choices skip pick l ns := by
  refine List.foldlRecOn (motive := fun k : List Choice => l <+: k) ns _ (List.prefix_refl l) fun k hk n _ => ?_
  split
  · exact hk
  · split
    · exact hk
    · exact hk.trans (List.prefix_append _ _)

theorem choices_none {l : List Choice} (h : ∀ n ∈ ns, skip n = true ∨ pick n l = none) : choices skip pick l ns = l := by
  refine List.foldlRecOn (motive := fun k : List Choice => k = l) ns _ rfl fun k hk n hn => ?_
  subst hk
  obtain hskip | hpick := h n hn
  · exact if_pos hskip
  · rw [hpick]
    exact ite_self _

/-- The first that chooses has its choice. -/
theorem choices_first {n e : Nat} {j : Job} (hsort : ns.Pairwise (· < ·)) (hn : n ∈ ns) (hbefore : ∀ m ∈ ns, m < n → skip m = true)
    (hskip : skip n = false) (hpick : pick n [] = some (j, e)) : (choices skip pick [] ns).find? (fun x => x.1 == n) = some (n, j, e) := by
  obtain ⟨before, after, rfl⟩ := List.append_of_mem hn
  have hlt (m : Nat) (hm : m ∈ before) : m < n := (List.pairwise_append.mp hsort).2.2 m hm n (List.mem_cons_self ..)
  have hnone : choices skip pick [] before = [] := choices_none fun m hm => .inl (hbefore m (List.mem_append_left _ hm) (hlt m hm))
  have hall : choices skip pick [] (before ++ n :: after) = choices skip pick [(n, j, e)] after := by
    unfold choices at hnone ⊢
    rw [List.foldl_append, hnone, List.foldl_cons, hskip, hpick]
    rfl
  obtain ⟨rest, hrest⟩ := choices_grow (skip := skip) (pick := pick) (ns := after) [(n, j, e)]
  rw [hall, ← hrest]
  simp

end

section
variable {d : Dev} {n e : Nat} {j : Job}

theorem Dev.homeChoices_eq (c : Nat) : d.homeChoices c =
    choices (fun n => !d.atBoundary n) (fun n l => firstJob (fun j => if j.gone l then none else d.canTake n j) (d.queue c)) []
      ((List.range 4).map (· + 4 * c)) := rfl

/-- The thieves pass over a sash that has none of its own to take. -/
def Dev.noThief (d : Dev) (homes : List Choice) (n : Nat) : Bool := !d.atBoundary n || d.jqModeNow (n / 4) != 2 || homes.any (fun x => x.1 == n)

theorem Dev.wingChoices_eq (w : Nat) : d.wingChoices w = ((List.range 8).flatMap (fun k => d.homeChoices (8 * w + k)),
    choices (d.noThief ((List.range 8).flatMap (fun k => d.homeChoices (8 * w + k))))
      (fun n l => d.thiefJob n ((List.range 8).flatMap (fun k => d.homeChoices (8 * w + k)) ++ l)) [] ((List.range 32).map (· + 32 * w))) := rfl

theorem sashes_sorted (k b : Nat) : ((List.range k).map (· + b)).Pairwise (· < ·) :=
  List.pairwise_lt_range.map _ fun _ _ h => Nat.add_lt_add_right h b

theorem mem_sashes {k b m : Nat} (h : m ∈ (List.range k).map (· + b)) : b ≤ m ∧ m < b + k := by
  obtain ⟨i, hi, rfl⟩ := List.mem_map.mp h
  rw [List.mem_range] at hi
  omega

theorem sashes_mem {k b m : Nat} (h : b ≤ m ∧ m < b + k) : m ∈ (List.range k).map (· + b) :=
  List.mem_map.mpr ⟨m - b, List.mem_range.mpr (by omega), by omega⟩

/-! A job is taken from the sash's own queue -/

/-- A sash takes what it has chosen. -/
theorem Dev.jobDequeue_choice (d : Dev) (n : Nat) : ((d.homeChoices (n / 4)).find? (fun x => x.1 == n) = none ∧ d.jobDequeue n = d) ∨
    ∃ x, (d.homeChoices (n / 4)).find? (fun x => x.1 == n) = some x ∧ d.jobDequeue n = d.takeJob n x.2.1 x.2.2 false := by
  unfold Dev.jobDequeue
  split
  · next h => exact .inl ⟨h, rfl⟩
  · next m j e h => exact .inr ⟨_, h, rfl⟩

theorem Dev.jobDequeue_eq (h : (d.homeChoices (n / 4)).find? (fun x => x.1 == n) = some (n, j, e)) : d.jobDequeue n = d.takeJob n j e false := by
  obtain ⟨hno, -⟩ | ⟨x, hx, htake⟩ := d.jobDequeue_choice n
  · cases h.symm.trans hno
  · cases h.symm.trans hx
    exact htake

theorem Dev.jobDequeue_not (h : d.atBoundary n = false) : d.jobDequeue n = d := by
  have hno : (d.homeChoices (n / 4)).find? (fun x => x.1 == n) = none := choices_skip (by rw [h]; rfl)
  obtain ⟨-, hkeep⟩ | ⟨x, hx, -⟩ := d.jobDequeue_choice n
  · exact hkeep
  · cases hno.symm.trans hx

theorem Dev.homeChoices_first (hb : d.atBoundary n = true) (hlow : ∀ m, m / 4 = n / 4 → m < n → d.atBoundary m = false)
    (hjob : firstJob (d.canTake n) (d.queue (n / 4)) = some (j, e)) : (d.homeChoices (n / 4)).find? (fun x => x.1 == n) = some (n, j, e) := by
  rw [Dev.homeChoices_eq]
  refine choices_first (sashes_sorted 4 _) (sashes_mem (by omega)) (fun m hm hlt => ?_) (by rw [hb]; rfl) hjob
  have hrange := mem_sashes hm
  rw [hlow m (by omega) hlt]
  rfl

/-! A job is stolen -/

/-- The thefts that are counted, at both queues and in the wing (08 R197). -/
def Dev.theftShown (d : Dev) (n : Nat) (j : Job) : Dev :=
  (((d.inc (pgJq j.home) F.JQ_STOLEN_STOLEN).inc (pgJq (n / 4)) F.JQ_THEFTS_THEFTS).inc (pgWing (n / 4 / 8)) F.WS_STEALS_STEALS).setReg
    (pgWing (n / 4 / 8) + 0x4C) (BitVec.ofNat 32 (n + j.home * 2 ^ 8 + j.desc * 2 ^ 12))

/-- A thief takes what it has chosen. -/
theorem Dev.jobSteal_choice (d : Dev) (n : Nat) : ((d.wingChoices (n / 4 / 8)).2.find? (fun x => x.1 == n) = none ∧ d.jobSteal n = d) ∨
    ∃ x, (d.wingChoices (n / 4 / 8)).2.find? (fun x => x.1 == n) = some x ∧ d.jobSteal n = (d.takeJob n x.2.1 x.2.2 true).theftShown n x.2.1 := by
  unfold Dev.jobSteal
  dsimp only
  split
  · next h => exact .inl ⟨h, rfl⟩
  · next m j e h => exact .inr ⟨_, h, rfl⟩

theorem Dev.jobSteal_not (h : d.noThief ((List.range 8).flatMap (fun k => d.homeChoices (8 * (n / 4 / 8) + k))) n = true) : d.jobSteal n = d := by
  have hno : (d.wingChoices (n / 4 / 8)).2.find? (fun x => x.1 == n) = none := by
    rw [Dev.wingChoices_eq]
    exact choices_skip h
  obtain ⟨-, hkeep⟩ | ⟨x, hx, -⟩ := d.jobSteal_choice n
  · exact hkeep
  · cases hno.symm.trans hx

theorem Dev.wing_idle (hone : ∀ m, m / 32 = n / 32 → m ≠ n → d.atBoundary m = false) (hown : firstJob (d.canTake n) (d.queue (n / 4)) = none) :
    (List.range 8).flatMap (fun k => d.homeChoices (8 * (n / 4 / 8) + k)) = [] := by
  refine List.flatMap_eq_nil_iff.mpr fun k hk => ?_
  rw [List.mem_range] at hk
  rw [Dev.homeChoices_eq]
  refine choices_none fun m hm => ?_
  have hrange := mem_sashes hm
  by_cases hmn : m = n
  · subst hmn
    rw [show 8 * (m / 4 / 8) + k = m / 4 by omega]
    exact .inr hown
  · refine .inl ?_
    rw [hone m (by omega) hmn]
    rfl

theorem Dev.jobSteal_eq (hb : d.atBoundary n = true) (hone : ∀ m, m / 32 = n / 32 → m ≠ n → d.atBoundary m = false) (hmode : d.jqModeNow (n / 4) = 2)
    (hown : firstJob (d.canTake n) (d.queue (n / 4)) = none)
    (hjob : ((List.range 7).map (fun k => 8 * (n / 4 / 8) + (n / 4 % 8 + 1 + k) % 8)).findSome? (fun h => firstJob (d.canSteal n) (d.queue h)) =
      some (j, e)) : d.jobSteal n = (d.takeJob n j e true).theftShown n j := by
  have hfind : (d.wingChoices (n / 4 / 8)).2.find? (fun x => x.1 == n) = some (n, j, e) := by
    rw [Dev.wingChoices_eq, Dev.wing_idle hone hown]
    refine choices_first (sashes_sorted 32 _) (sashes_mem (by omega)) (fun m hm hlt => ?_) ?_ hjob
    · have hrange := mem_sashes hm
      rw [Dev.noThief, hone m (by omega) (by omega)]
      rfl
    · rw [Dev.noThief, hb, hmode]
      rfl
  obtain ⟨hno, -⟩ | ⟨x, hx, htake⟩ := d.jobSteal_choice n
  · cases hfind.symm.trans hno
  · cases hfind.symm.trans hx
    exact htake

end

/-! The end of a job (06 R155; 07 R171, R172; 08 R195) -/

section
variable {d : Dev} {n t : Nat} {r : Running}

/-- The job with what its capture record would hold. -/
def Dev.jobHeld (d : Dev) (n : Nat) (r : Running) : Running := { r with cap := d.capValues n (lane0 r.lanes) r.committed }

/-- A user job's accumulators in lane memory. -/
def Dev.accStored (d : Dev) (n : Nat) (r : Running) : Dev := (laneList r.lanes).foldl (fun (d : Dev) i =>
  (d.forN r.job.accN (fun k d => d.store (laneMem n i (8 * k)) 8 (Table.get 0 (d.lane n i).acc k).toNat)).clearUpsets (laneMem n i 0)
    (8 * r.job.accN)) d

/-- A user job's lines are written back. -/
def Dev.linesStored (d : Dev) (n : Nat) (r : Running) : Dev := (laneList r.lanes).foldl (fun (d : Dev) i => d.forN r.job.wbLines (fun k d =>
  d.copyLines (laneMem n i (64 * k)) (r.job.ctxAddr + i * r.job.stride + 64 * k) 1)) d

/-- A template's state words are written back. -/
def Dev.wordsStored (d : Dev) (n t : Nat) (r : Running) : Dev := (laneList r.lanes).foldl (fun (d : Dev) i => d.forN 48 (fun k d =>
  d.writeBackWord n t i (192 + k) r)) d

theorem Dev.writeBackWord_regs (d : Dev) (n t i w : Nat) (r : Running) : d.RegsOnly (d.writeBackWord n t i w r) :=
  .ite (.trans (.setF ..) (.setF ..)) (.setReg ..)

theorem Dev.wordsStored_regs (t : Nat) : d.RegsOnly (d.wordsStored n t r) :=
  foldl_keeps _ _ (.refl d) fun i _ _ he => Dev.forN_keeps 48 _ he fun k _ _ hx => hx.trans (Dev.writeBackWord_regs _ n t i (192 + k) r)

theorem Dev.jobEnd_waits (hops : (d.sash n).ops ≠ []) : d.jobEnd n = d := by
  unfold Dev.jobEnd
  extract_lets x
  split
  · rfl
  · exact if_pos (.inr (.inl hops))

section
variable (hjob : (d.sash n).job = some r)
include hjob

/-- A job that issued END and whose results have all landed begins its write-back; a template's, unless its page is disabled. -/
theorem Dev.jobEnd_ready (hready : r.phase = .ended ∧ (d.sash n).ops = [] ∧ (d.sash n).words = [] ∧ (d.sash n).freeze = none ∧ r.dropped = false ∧
    r.missed = false) (hnan : (laneList r.lanes).any (fun i => (d.lane n i).fpnan) = false) :
    (r.tpl = none → d.jobEnd n = (d.accStored n r).setPhase n (d.jobHeld n r) .writeBack) ∧
      ∀ t, r.tpl = some t → d.jobEnd n = if d.en (tplBase t) then d.setPhase n (d.jobHeld n r) .writeBack else d.jobDone n (d.jobHeld n r) false := by
  unfold Dev.jobEnd
  extract_lets x
  split
  · next hno => cases hjob.symm.trans hno
  · next q hq =>
    cases hjob.symm.trans hq
    obtain ⟨hphase, hops, hwords, hfreeze, hdropped, hmissed⟩ := hready
    rw [if_neg (by simp [x, hphase, hops, hwords, hfreeze, hdropped, hmissed])]
    extract_lets held shown stored
    have hshown : shown = d := if_neg (by rw [show (laneList held.lanes).any (fun i => (d.lane n i).fpnan) = false from hnan]; decide)
    refine ⟨fun htpl => ?_, fun t htpl => ?_⟩
    · rw [show held.tpl = none from htpl]
      unfold stored
      rw [hshown]
      rfl
    · rw [show held.tpl = some t from htpl, hshown]
      rfl

variable (hphase : r.phase = .writeBack)
include hphase

theorem Dev.jobWriteBack_eq (htpl : r.tpl = none) : d.jobWriteBack n = (d.linesStored n r).jobDone n r true := by
  unfold Dev.jobWriteBack
  split
  · next hno => cases hjob.symm.trans hno
  · next q hq =>
    cases hjob.symm.trans hq
    exact if_neg (by simp [hphase, htpl])

/-- A template's write-back (07 R171, R172), the state words written. -/
theorem Dev.tplWriteBack_cases (htpl : r.tpl = some t) : d.tplWriteBack n = if !d.en (tplBase t) then d.jobDone n r false
    else (((d.wordsStored n t r).inc (tplBase t) F.TPL_RUNS_RUNS).setR64 (tplBase t) 0x50 (d.wordsStored n t r).count).jobDone n r true := by
  unfold Dev.tplWriteBack
  split
  · next hno => cases hjob.symm.trans hno
  · next q hq =>
    cases hjob.symm.trans hq
    rw [htpl]
    exact if_neg (by rw [hphase]; decide)

theorem Dev.tplWriteBack_eq (htpl : r.tpl = some t) : d.tplWriteBack n = if d.en (tplBase t) then
    (((d.wordsStored n t r).inc (tplBase t) F.TPL_RUNS_RUNS).setR64 (tplBase t) 0x50 d.count).jobDone n r true
    else d.jobDone n r false := by
  rw [Dev.tplWriteBack_cases hjob hphase htpl, (Dev.wordsStored_regs t).count]
  cases d.en (tplBase t)
  · rw [if_pos (by decide), if_neg (by decide)]
  · rw [if_neg (by decide), if_pos (by decide)]

end

end

end Sys2Proof.Machine

namespace Sys2Proof.Claims
open Sys2Proof.Machine

theorem jobsTaken : JobsTaken := by
  intro s n hclk d c
  have hexecd : exec (.jobDequeue n) s = s.clocked fun d => d.jobDequeue n := rfl
  have hexecs : exec (.jobSteal n) s = s.clocked fun d => d.jobSteal n := rfl
  refine ⟨fun hb => ?_, fun j e hfind => ?_, fun j e hb hlow hjob => ?_, fun j e hb hone hmode hown hjob => ?_, fun j e st _ => d.takeJob_says n j e st⟩
  · refine ⟨does_of_clocked hclk hexecd (Dev.jobDequeue_not hb), does_of_clocked hclk hexecs (Dev.jobSteal_not ?_)⟩
    rw [Dev.noThief, show d.atBoundary n = false from hb]
    rfl
  · refine ⟨does_of_clocked hclk hexecd (Dev.jobDequeue_eq hfind), does_of_clocked hclk hexecs (Dev.jobSteal_not ?_)⟩
    have hmem : (n.val, j, e) ∈ (List.range 8).flatMap (fun k => d.homeChoices (8 * (n.val / 4 / 8) + k)) := by
      refine List.mem_flatMap.mpr ⟨c % 8, List.mem_range.mpr (Nat.mod_lt _ (by decide)), ?_⟩
      rw [show 8 * (n.val / 4 / 8) + c % 8 = c from Nat.div_add_mod _ _]
      exact List.mem_of_find?_eq_some hfind
    rw [Dev.noThief, Bool.or_eq_true]
    exact .inr (List.any_eq_true.mpr ⟨_, hmem, beq_self_eq_true _⟩)
  · exact does_of_clocked hclk hexecd (Dev.jobDequeue_eq (Dev.homeChoices_first hb hlow hjob))
  · exact does_of_clocked hclk hexecs (Dev.jobSteal_eq hb hone hmode hown hjob)

theorem jobsEnd : JobsEnd := by
  intro s n r hclk d x lanes hjob
  have hexece : exec (.jobEnd n) s = s.clocked fun d => d.jobEnd n := rfl
  have hexecw : exec (.jobWriteBackDone n) s = s.clocked fun d => d.jobWriteBack n := rfl
  have hexect : exec (.templateWriteBack n) s = s.clocked fun d => d.tplWriteBack n := rfl
  refine ⟨fun hphase hops hwords hfreeze hdropped hmissed hnan => ?_, fun hops => ?_, fun hphase htpl => ?_, fun t hphase htpl => ?_⟩
  · have hnan : (laneList r.lanes).any (fun i => (d.lane n i).fpnan) = false := by
      rw [List.any_eq_false]
      intro i hi
      rw [Bool.not_eq_true]
      exact Bool.not_eq_true' .. ▸ List.all_eq_true.mp hnan i hi
    obtain ⟨huser, htemplate⟩ := Dev.jobEnd_ready hjob ⟨hphase, hops, hwords, hfreeze, hdropped, hmissed⟩ hnan
    exact ⟨fun htpl => does_of_clocked hclk hexece (huser htpl),
      fun t htpl hen => does_of_clocked hclk hexece ((htemplate t htpl).trans (if_pos hen)),
      fun t htpl hen => does_of_clocked hclk hexece ((htemplate t htpl).trans (if_neg (by rw [hen]; decide)))⟩
  · exact does_of_clocked hclk hexece (Dev.jobEnd_waits hops)
  · exact does_of_clocked hclk hexecw (Dev.jobWriteBack_eq hjob hphase htpl)
  · exact does_of_clocked hclk hexect (Dev.tplWriteBack_eq hjob hphase htpl)

/-- Settles O22: what the sashes at their boundaries choose, what a job taken leaves, and how a job ends. -/
theorem jobsRun : Obligations.JobsRun := ⟨jobsTaken, jobsEnd⟩

end Sys2Proof.Claims
end

section
/-!
The peephole monitor, injection and capture (09).
-/
namespace Sys2Proof.Machine

section
variable {d : Dev} {m : Nat}

/-! The state of a monitor -/

theorem Dev.mon_setMon_same (d : Dev) (m : Nat) (x : Mon) : (d.setMon m x).mon m = x := Table.get_put_same _ _ _ _

theorem Dev.live_setMon (d : Dev) (m : Nat) (x : Mon) (p : Nat) : (d.setMon m x).live p = d.live p := rfl

theorem Dev.expert_setMon (d : Dev) (m : Nat) (x : Mon) (p : Nat) : (d.setMon m x).expert p = d.expert p := rfl

/-- A monitor keeps its inputs when its deliveries change. -/
theorem Dev.monInputs_setMon {x : Mon} (h : x.w0 = (d.mon m).w0 ∧ x.w1 = (d.mon m).w1) : (d.setMon m x).monInputs m = d.monInputs m := by
  unfold Dev.monInputs
  rw [Dev.mon_setMon_same, h.1, h.2]
  rfl

theorem Dev.monPredict_setMon {x : Mon} (h : x.w0 = (d.mon m).w0 ∧ x.w1 = (d.mon m).w1) : (d.setMon m x).monPredict m = d.monPredict m := by
  unfold Dev.monPredict
  rw [Dev.monInputs_setMon h]
  rfl

theorem Dev.monStep_setMon {x : Mon} (h : x.w0 = (d.mon m).w0 ∧ x.w1 = (d.mon m).w1) : (d.setMon m x).monStep m = d.monStep m := by
  funext r
  unfold Dev.monStep
  rw [Dev.monInputs_setMon h]
  rfl

/-! Steps (09 R205, R206) -/

theorem Dev.monUpdate_idle (h : ∀ q, (d.mon m).steps.head? = some q → d.tick < q.1) : d.monUpdate m = d := by
  unfold Dev.monUpdate
  extract_lets p x
  split
  · rfl
  · next t vals rest hx => exact if_pos (by rw [decide_eq_true (h (t, vals) (by rw [show (d.mon m).steps = _ from hx]; rfl)), Bool.true_or])

theorem Dev.monUpdate_due {t v : Nat} {rest : List (Nat × List Nat)} (hsteps : (d.mon m).steps = (t, [v]) :: rest) (hdue : t ≤ d.tick)
    (hlive : d.live (monPage m) = true) : d.monUpdate m =
      (if (d.mon m).stepKept.contains 0 then d else d.setReg (monPage m + 0x1A0) (BitVec.ofNat 32 v)).setMon m
        { d.mon m with steps := rest, stepKept := [] } := by
  unfold Dev.monUpdate
  extract_lets p x
  rw [show x.steps = (t, [v]) :: rest from hsteps]
  exact if_neg (by rw [show d.live p = true from hlive, decide_eq_false (Nat.not_lt.mpr hdue)]; decide)

/-- What a step leaves of the monitor's deliveries. -/
theorem Dev.monUpdate_arrived : ((d.monUpdate m).mon m).arrived = (d.mon m).arrived := by
  unfold Dev.monUpdate
  extract_lets p x
  split
  · rfl
  · split
    · rfl
    · rw [Dev.mon_setMon_same]

theorem Dev.monDelivery_none (h : (d.mon m).arrived = []) : d.monDelivery m = d.monUpdate m := by
  unfold Dev.monDelivery
  extract_lets p e x
  rw [show x.arrived = [] from Dev.monUpdate_arrived.trans h]

section
variable {y t : Nat} {rest : List (Nat × Nat)} (harr : (d.mon m).arrived = (y, t) :: rest) (hlive : d.live (monPage m) = true)
  (hbasic : d.expert (monPage m) = false) (hsteps : ∀ q, (d.mon m).steps.head? = some q → d.tick < q.1)
include harr hlive hbasic hsteps

theorem Dev.monDelivery_skips {u : Nat} (hlast : (d.mon m).lastStep = some u) (hsoon : d.tick < u + 48) : d.monDelivery m =
    (((d.setMon m { d.mon m with arrived := rest }).inc (monPage m) F.PH_SKIP_CNT_SKIPS).setB (monPage m) F.MON_STATUS_SKIPPED true).irq (monPage m) 1 := by
  unfold Dev.monDelivery
  rw [Dev.monUpdate_idle hsteps]
  extract_lets p e x
  rw [show x.arrived = (y, t) :: rest from harr]
  refine (if_neg (by rw [Dev.live_setMon, Dev.expert_setMon, hlive, hbasic]; decide)).trans ((if_pos ?_).trans rfl)
  rw [show x.lastStep = some u from hlast]
  exact decide_eq_true hsoon

/-- The monitor after a delivery that it takes (09 R205). -/
def Dev.monTaken (d : Dev) (m y t : Nat) (rest : List (Nat × Nat)) : Mon := { d.mon m with
  arrived := rest
  lastStep := some d.tick
  judges := (d.mon m).judges ++ [(codeOf 32 (satI 32 (signedOf 32 y - d.monPredict m)), codeOf 32 (d.monPredict m), t, d.tick + 6)]
  steps := [(d.tick + 48, (List.range (d.f (monPage m) F.PH_CTRL_ORDER)).map (d.monStep m))]
  stepKept := (List.range 4).filter fun r => !((d.setMon m { d.mon m with arrived := rest }).landedAt (monPage m + 0x1A0 + 4 * r) 4).isEmpty }

theorem Dev.monDelivery_takes (hlast : ∀ u, (d.mon m).lastStep = some u → u + 48 ≤ d.tick) : d.monDelivery m =
    (d.setMon m { d.mon m with arrived := rest }).setMon m (d.monTaken m y t rest) := by
  unfold Dev.monDelivery
  rw [Dev.monUpdate_idle hsteps]
  extract_lets p e x
  rw [show x.arrived = (y, t) :: rest from harr]
  refine (if_neg (by rw [Dev.live_setMon, Dev.expert_setMon, hlive, hbasic]; decide)).trans ((if_neg ?_).trans ?_)
  · split
    · next u hu => exact Bool.eq_false_iff.mp (decide_eq_false (Nat.not_lt.mpr (hlast u hu)))
    · exact Bool.false_ne_true
  · rw [Dev.monTaken, ← Dev.monPredict_setMon (x := { d.mon m with arrived := rest }) ⟨rfl, rfl⟩,
      ← Dev.monStep_setMon (x := { d.mon m with arrived := rest }) ⟨rfl, rfl⟩]
    rfl

end

/-! A trigger (09 R209, R216) -/

/-- What a trigger leaves of a monitor's residuals and window, and of its flag. -/
structure Dev.WindowKept (m : Nat) (d e : Dev) : Prop where
  judges : (e.mon m).judges = (d.mon m).judges
  cur : (e.mon m).cur = (d.mon m).cur
  mem : e.mem = d.mem
  flag : e.on (monPage m) F.MON_STATUS_TRIGGERED = d.on (monPage m) F.MON_STATUS_TRIGGERED

namespace Dev.WindowKept

variable {d e k : Dev} {m : Nat}

theorem refl (d : Dev) : Dev.WindowKept m d d := ⟨rfl, rfl, rfl, rfl⟩

theorem trans (h : Dev.WindowKept m d e) (h' : Dev.WindowKept m e k) : Dev.WindowKept m d k :=
  ⟨h'.judges.trans h.judges, h'.cur.trans h.cur, h'.mem.trans h.mem, h'.flag.trans h.flag⟩

theorem ite {c : Prop} [Decidable c] (h : Dev.WindowKept m d e) (h' : Dev.WindowKept m d k) : Dev.WindowKept m d (if c then e else k) := by
  split
  · exact h
  · exact h'

/-- What changes neither registers nor monitors nor memory. -/
theorem rest (hregs : e.regs = d.regs) (hmons : e.mons = d.mons) (hmem : e.mem = d.mem) : Dev.WindowKept m d e := by
  have hmon : e.mon m = d.mon m := by rw [Dev.mon, hmons, ← Dev.mon]
  exact ⟨by rw [hmon], by rw [hmon], hmem, Dev.on_of_regs hregs _ _⟩

theorem setF (d : Dev) {p : Nat} {f : Fld} (x : Nat) (h : p + f.ofs ≠ monPage m + 0x10) : Dev.WindowKept m d (d.setF p f x) :=
  ⟨rfl, rfl, rfl, Dev.on_congr (Dev.reg_setF_ne _ _ _ _ h)⟩

theorem setReg (d : Dev) {a : Nat} (v : W32) (h : a ≠ monPage m + 0x10) : Dev.WindowKept m d (d.setReg a v) :=
  ⟨rfl, rfl, rfl, Dev.on_congr (Dev.reg_setReg_ne _ _ h)⟩

theorem caps (d : Dev) (t : Table Cap) : Dev.WindowKept m d { d with caps := t } := rest rfl rfl rfl

theorem redirTick (d : Dev) (t : Table Nat) : Dev.WindowKept m d { d with redirTick := t } := rest rfl rfl rfl

theorem capTrigger (d : Dev) (n lane : Nat) : Dev.WindowKept m d (d.capTrigger n lane) := by
  have haway {o : Nat} (ho : o < 0x1000) : pgCap n + o ≠ monPage m + 0x10 := by
    simp only [pgCap, monPage, pgMon]
    omega
  unfold Dev.capTrigger
  extract_lets p x seen marked k stopped
  have hseen : Dev.WindowKept m d seen := caps d _
  have hmarked : Dev.WindowKept m seen marked := (setF _ _ (haway (by decide))).trans (setReg _ _ (haway (by decide)))
  have hstopped : Dev.WindowKept m marked stopped := caps marked _
  exact ite (ite (hseen.trans (hmarked.trans (hstopped.trans
    (ite ((setF _ _ (haway (by decide))).trans (setF _ _ (haway (by decide)))) (refl _))))) hseen) (refl d)

end Dev.WindowKept

theorem Dev.monTrigger_says (d : Dev) (m : Nat) : let e := d.monTrigger m
    (e.mon m).judges = (d.mon m).judges ∧ (e.mon m).cur = (d.mon m).cur ∧ e.mem = d.mem ∧ e.on (monPage m) F.MON_STATUS_TRIGGERED = true := by
  unfold Dev.monTrigger
  extract_lets p c a shown pulsed told x tripped k was asked redirected r
  have hk : k < 2 ^ 8 := Dev.f_lt ..
  have hpage : pgJq c + (0x80 + 4 * (k / 32)) ≠ monPage m + 0x10 := by
    simp only [pgJq, monPage, pgMon]
    omega
  have hpulsed : Dev.WindowKept m shown pulsed := .ite (.rest rfl rfl rfl) (.refl _)
  have htold : Dev.WindowKept m pulsed told := .ite (.setF _ _ (by dsimp only; omega)) (.refl _)
  have htripped : Dev.WindowKept m told tripped := by
    refine .ite ⟨?_, ?_, rfl, rfl⟩ (.refl _)
    · rw [Dev.mon_setMon_same]
    · rw [Dev.mon_setMon_same]
  have hasked : Dev.WindowKept m tripped asked := .setF _ _ hpage
  have hredirected : Dev.WindowKept m tripped redirected := .ite (.ite hasked (hasked.trans (.redirTick asked _))) (.refl _)
  have hkept : Dev.WindowKept m shown r := hpulsed.trans (htold.trans (htripped.trans (hredirected.trans (.capTrigger _ _ _))))
  refine ⟨hkept.judges, hkept.cur, hkept.mem, hkept.flag.trans ?_⟩
  rw [show shown = (d.setB p F.MON_STATUS_TRIGGERED true).inc p F.PH_TRIG_CNT_TRIGS from rfl, Dev.inc, Dev.on_setF_apart _ _ rfl,
    Dev.on_setB_same _ _ _ _ rfl (by decide)]

/-! A residual is judged (09 R208) -/

/-- The residual's registers. -/
def Dev.residualShown (d : Dev) (m r u : Nat) : Dev := (d.setReg (monPage m + 0x80) (BitVec.ofNat 32 r)).setR64 (monPage m) 0x88 u

theorem Dev.residualShown_f {r u : Nat} {f : Fld} (h : (f.ofs != 0x80 && f.ofs != 0x88 && f.ofs != 0x8C) = true) :
    (d.residualShown m r u).f (monPage m) f = d.f (monPage m) f := by
  simp only [Bool.and_eq_true, bne_iff_ne] at h
  rw [Dev.residualShown, Dev.f_setR64_apart _ _ (by simp [h]), Dev.f_setReg_apart _ _ (Ne.symm h.1.1)]

theorem Dev.residualShown_expert {r u : Nat} (h : d.expert (monPage m) = true) : (d.residualShown m r u).expert (monPage m) = true := by
  rw [Dev.expert, Dev.on, Dev.residualShown_f rfl, ← Dev.on, ← Dev.expert, h]

section
variable {r yhat u t : Nat} {rest : List (Nat × Nat × Nat × Nat)} (hj : (d.mon m).judges = (r, yhat, u, t) :: rest) (hdue : t ≤ d.tick)
  (hlive : d.live (monPage m) = true) (hexpert : d.expert (monPage m) = true) (hprev : (d.mon m).prev = none)
include hj hdue hlive hexpert hprev

theorem Dev.monJudge_outside (hcur : (d.mon m).cur = none) : d.monJudge m =
    ((d.residualShown m r u).setMon m { d.mon m with judges := rest }).inc (monPage m) F.PH_OUTSIDE_CNT_OUTSIDE := by
  unfold Dev.monJudge
  extract_lets p x
  rw [show x.judges = (r, yhat, u, t) :: rest from hj]
  refine (if_neg (by rw [show d.live p = true from hlive, decide_eq_false (Nat.not_lt.mpr hdue)]; decide)).trans ?_
  extract_lets shown noted close fin closed rv viol inside add hot mark cur prev base
  have hclosed : closed = d.residualShown m r u := by
    unfold closed
    rw [show x.cur = none from hcur, show x.prev = none from hprev]
    exact if_pos (d.residualShown_expert hexpert)
  have hbase : base = { d.mon m with judges := rest } := by
    unfold base cur prev
    rw [show fin x.cur = x.cur by rw [show x.cur = none from hcur]; rfl, show fin x.prev = x.prev by rw [show x.prev = none from hprev]; rfl]
  have hcurin : inside x.cur = false := by
    rw [show x.cur = none from hcur]
  have hprevin : inside x.prev = false := by
    rw [show x.prev = none from hprev]
  refine (if_neg (by rw [hcurin]; decide)).trans ((if_neg (by rw [hprevin, Bool.false_and]; decide)).trans ?_)
  rw [hclosed, hbase]

/-- The residual lies outside its limits. -/
def Dev.residualBad (d : Dev) (m r : Nat) : Bool :=
  decide (signedOf 32 r < d.fs (monPage m) F.PH_RLO_RLO) || decide (d.fs (monPage m) F.PH_RHI_RHI < signedOf 32 r)

/-- The window that takes a residual as a sample, and whether it triggers by it. -/
def Dev.windowViol (d : Dev) (m r : Nat) (v : Window) : Nat := if d.residualBad m r then v.viol + 1 else v.viol

@[inherit_doc Dev.windowViol]
def Dev.windowHot (d : Dev) (m r : Nat) (v : Window) : Bool := decide (d.f (monPage m) F.PH_THRESH_THRESH < d.windowViol m r v) && !v.trig

@[inherit_doc Dev.windowViol]
def Dev.windowTakes (d : Dev) (m r : Nat) (v : Window) : Window :=
  { v with samples := v.samples + 1, viol := d.windowViol m r v, trig := v.trig || d.windowHot m r v }

theorem Dev.monJudge_inside {v : Window} (hcur : (d.mon m).cur = some v) (hlo : v.lo ≤ u) (hhi : u < v.hi) : d.monJudge m =
    let e := ((d.residualShown m r u).setMon m { d.mon m with judges := rest, cur := some (d.windowTakes m r v) }).monShow m
    if d.windowHot m r v then e.monTrigger m else e := by
  unfold Dev.monJudge
  extract_lets p x
  rw [show x.judges = (r, yhat, u, t) :: rest from hj]
  refine (if_neg (by rw [show d.live p = true from hlive, decide_eq_false (Nat.not_lt.mpr hdue)]; decide)).trans ?_
  extract_lets shown noted close fin closed rv viol inside add hot mark cur prev base
  have hclosed : closed = d.residualShown m r u := by
    unfold closed
    rw [show x.cur = some v from hcur, show x.prev = none from hprev]
    refine (if_neg ?_).trans (if_pos (d.residualShown_expert hexpert))
    rw [decide_eq_false (Nat.not_le.mpr hhi), Bool.and_false]
    decide
  have hfin : fin x.cur = some v := by
    rw [show x.cur = some v from hcur]
    exact congrArg some (if_neg (Nat.not_le.mpr hhi))
  have hin : inside x.cur = true := by
    rw [show x.cur = some v from hcur]
    exact Bool.and_eq_true_iff.mpr ⟨decide_eq_true hlo, decide_eq_true hhi⟩
  have hviol : viol = d.residualBad m r := by
    unfold viol
    rw [hclosed, Dev.fs, Dev.fs, Dev.residualShown_f rfl, Dev.residualShown_f rfl]
    rfl
  have hhot : hot (add v) = d.windowHot m r v := by
    show (decide (closed.f p F.PH_THRESH_THRESH < (if viol then v.viol + 1 else v.viol)) && !v.trig) = _
    rw [hclosed, Dev.residualShown_f rfl, hviol]
    rfl
  have hmark : mark (add v) = d.windowTakes m r v := by
    show (if hot (add v) then _ else _) = _
    rw [hhot, Dev.windowTakes]
    have hadd : add v = { v with samples := v.samples + 1, viol := d.windowViol m r v } := by
      unfold add Dev.windowViol
      rw [hviol]
    rw [hadd]
    cases d.windowHot m r v with
    | true =>
      rw [Bool.or_true]
      rfl
    | false =>
      rw [Bool.or_false]
      rfl
  refine (if_pos hin).trans ?_
  rw [show cur = some v from hfin]
  dsimp only
  have hbase : { base with cur := some (d.windowTakes m r v) } = { d.mon m with judges := rest, cur := some (d.windowTakes m r v) } := by
    unfold base prev
    rw [show fin x.prev = x.prev by rw [show x.prev = none from hprev]; rfl]
  rw [hclosed, hhot, hmark, hbase]

end

theorem Dev.monJudge_none (h : (d.mon m).judges = []) : d.monJudge m = d := by
  unfold Dev.monJudge
  extract_lets p x
  rw [show x.judges = [] from h]

theorem Dev.monShow_regs (d : Dev) (m : Nat) : d.RegsOnly (d.monShow m) := by
  unfold Dev.monShow
  extract_lets p
  split
  · exact .refl d
  · exact .trans (.setR64 ..) (.trans (.setR64 ..) (.trans (.setF ..) (.setF ..)))

/-- The window registers follow a monitor that has judged; the monitor may then trigger. -/
theorem Dev.monJudged_says (d : Dev) (m : Nat) (x : Mon) (hot : Bool) : let u := (d.setMon m x).monShow m
    let e := if hot then u.monTrigger m else u
    (e.mon m).judges = x.judges ∧ (e.mon m).cur = x.cur ∧ e.mem = d.mem ∧ (hot = true → e.on (monPage m) F.MON_STATUS_TRIGGERED = true) := by
  intro u e
  have hregs : (d.setMon m x).RegsOnly u := Dev.monShow_regs _ _
  have hmon : u.mon m = x := by
    obtain ⟨t, ht⟩ := hregs
    rw [ht]
    exact Dev.mon_setMon_same d m x
  have hmem : u.mem = d.mem := hregs.mem
  cases hot with
  | true =>
    obtain ⟨hjudges, hcur, htmem, hflag⟩ := u.monTrigger_says m
    exact ⟨hjudges.trans (by rw [hmon]), hcur.trans (by rw [hmon]), htmem.trans hmem, fun _ => hflag⟩
  | false => exact ⟨by rw [show e = u from rfl, hmon], by rw [show e = u from rfl, hmon], hmem, nofun⟩

/-! Virtual trips (09 R209) -/

theorem Dev.monVtrip_none (h : ∀ e ∈ (d.mon m).vtrips, d.tick < e.1) : d.monVtrip m = d := by
  have hnow : (d.mon m).vtrips.filter (fun e => decide (e.1 ≤ d.tick)) = [] :=
    List.filter_eq_nil_iff.mpr fun e he => by rw [decide_eq_true_eq, Nat.not_le]; exact h e he
  unfold Dev.monVtrip
  extract_lets x now later
  exact if_pos (by rw [show now = [] from hnow]; rfl)

theorem Dev.monVtrip_due {t v : Nat} (h : (d.mon m).vtrips = [(t, v)]) (hdue : t ≤ d.tick) :
    d.monVtrip m = ((d.setMon m { d.mon m with vtrips := [] }).act 10 v).vtSet (BitVec.ofNat 64 (2 ^ v)) := by
  have hnow : (d.mon m).vtrips.filter (fun e => decide (e.1 ≤ d.tick)) = [(t, v)] := by rw [h]; simp [hdue]
  have hlater : (d.mon m).vtrips.filter (fun e => decide (d.tick < e.1)) = [] := by rw [h]; simp [hdue]
  unfold Dev.monVtrip
  extract_lets x now later
  have hset : later = d.setMon m { d.mon m with vtrips := [] } := by
    unfold later
    rw [show x.vtrips.filter (fun e => decide (d.tick < e.1)) = [] from hlater]
  rw [show now = [(t, v)] from hnow, hset, if_neg (by simp), List.foldl_cons, List.foldl_nil]

end

section
variable {d : Dev} {n u : Nat}

/-! Test signals (09 R212) -/

theorem codeOf_lt (w : Nat) (x : Int) : codeOf w x < 2 ^ w := by
  have hpos : (0 : Int) < 2 ^ w := by positivity
  have hlt := Int.emod_lt_of_pos x hpos
  rw [codeOf, Int.toNat_lt (Int.emod_nonneg x hpos.ne')]
  exact_mod_cast hlt

theorem Dev.inj_setInj_same (d : Dev) (n : Nat) (x : Inj) : (d.setInj n x).inj n = x := Table.get_put_same _ _ _ _

/-- The generator has ended. -/
def Dev.injEnded (d : Dev) (n : Nat) : Dev :=
  ((((d.setInj n { d.inj n with next := none, history := (d.count, 0) :: (d.inj n).history }).setF (pgInj n) F.INJ_VALUE_G 0).setB (pgInj n)
    F.INJ_STATUS_RUNNING false).setB (pgInj n) F.INJ_STATUS_DONE true).irq (pgInj n) 0

/-- The registers of a generator that takes its next value. -/
def Dev.injShown (d : Dev) (n : Nat) : Dev :=
  ((((d.setF (pgInj n) F.INJ_VALUE_G (codeOf 32 (d.injValue n))).setB (pgInj n) F.INJ_STATUS_RUNNING true).inc (pgInj n) F.INJ_STEPS_K).setF (pgInj n)
    F.INJ_INCR_INC (d.injNext n).inc)

section
variable (hnext : (d.inj n).next = some u)
include hnext

theorem Dev.injUpdate_early (h : d.count < u) : d.injUpdate n = d := by
  unfold Dev.injUpdate
  extract_lets p
  rw [hnext]
  exact if_pos (by rw [decide_eq_true h, Bool.or_true])

variable (hdue : u ≤ d.count) (hlive : d.live (pgInj n) = true)
include hdue hlive

theorem Dev.injUpdate_ends (hends : d.injEnds n = true) : d.injUpdate n = d.injEnded n := by
  unfold Dev.injUpdate
  extract_lets p
  rw [hnext]
  refine (if_neg (by rw [show d.live p = true from hlive, decide_eq_false (Nat.not_lt.mpr hdue)]; decide)).trans ((if_pos hends).trans rfl)

theorem Dev.injUpdate_steps (hends : d.injEnds n = false) : d.injUpdate n =
    (d.injShown n).setInj n { d.injNext n with history := ((d.injShown n).count, codeOf 32 (d.injValue n)) :: (d.injNext n).history } := by
  unfold Dev.injUpdate
  extract_lets p
  rw [hnext]
  refine (if_neg (by rw [show d.live p = true from hlive, decide_eq_false (Nat.not_lt.mpr hdue)]; decide)).trans ((if_neg (by rw [hends]; decide)).trans rfl)

end

theorem Dev.injEnded_says : let e := d.injEnded n
    (e.inj n).next = none ∧ e.injG n = 0 ∧ e.on (pgInj n) F.INJ_STATUS_RUNNING = false ∧ e.on (pgInj n) F.INJ_STATUS_DONE = true ∧
      bitAt (e.reg (pgInj n + 0x24)) 0 = true ∧ e.mem = d.mem := by
  obtain ⟨a, ha⟩ : ∃ a, a = d.setInj n { d.inj n with next := none, history := (d.count, 0) :: (d.inj n).history } := ⟨_, rfl⟩
  have hended : d.injEnded n =
      (((a.setF (pgInj n) F.INJ_VALUE_G 0).setB (pgInj n) F.INJ_STATUS_RUNNING false).setB (pgInj n) F.INJ_STATUS_DONE true).irq (pgInj n) 0 := by
    rw [ha, Dev.injEnded]
  have hregs : a.RegsOnly (d.injEnded n) := hended ▸ .trans (.setF ..) (.trans (.setF ..) (.trans (.setF ..) (.setF ..)))
  have hinj : (d.injEnded n).inj n = a.inj n := by
    obtain ⟨t, ht⟩ := hregs
    rw [ht]
    rfl
  refine ⟨?_, ?_, ?_, ?_, ?_, hregs.mem.trans (by rw [ha]; rfl)⟩
  · rw [hinj, ha, Dev.inj_setInj_same]
  · rw [hended, Dev.injG, Dev.fs, Dev.irq, Dev.f_setF_apart _ _ rfl, Dev.setB, Dev.f_setF_apart _ _ rfl, Dev.setB, Dev.f_setF_apart _ _ rfl,
      Dev.f_setF_same _ _ _ _ (by decide)]
    rfl
  · rw [hended, Dev.irq, Dev.on_setF_apart _ _ rfl, Dev.setB, Dev.on_setF_apart _ _ rfl, Dev.on_setB_same _ _ _ _ rfl (by decide)]
  · rw [hended, Dev.irq, Dev.on_setF_apart _ _ rfl, Dev.on_setB_same _ _ _ _ rfl (by decide)]
  · rw [hended, Dev.bitAt_irq _ (by decide)]

theorem Dev.injNext_says (h : (d.inj n).next = some u) :
    (d.injNext n).next = some (u + max 1 (d.f (pgInj n) F.INJ_STEP_STEP)) ∧ (d.injNext n).k = (d.inj n).k + 1 := by
  have hstep : (d.inj n).next.map (· + max 1 (d.f (pgInj n) F.INJ_STEP_STEP)) = some (u + max 1 (d.f (pgInj n) F.INJ_STEP_STEP)) := by
    rw [h]
    rfl
  unfold Dev.injNext
  extract_lets p x df ty y
  have hnext : y.next = some (u + max 1 (d.f p F.INJ_STEP_STEP)) := hstep
  split
  · exact ⟨hnext, rfl⟩
  split
  · exact ⟨hnext, rfl⟩
  split
  · exact ⟨hnext, rfl⟩
  split
  · split <;> exact ⟨hnext, rfl⟩
  · exact ⟨hnext, rfl⟩

theorem Dev.injShown_says : let e := d.injShown n
    e.f (pgInj n) F.INJ_VALUE_G = codeOf 32 (d.injValue n) ∧ e.on (pgInj n) F.INJ_STATUS_RUNNING = true ∧ e.mem = d.mem := by
  have hregs : d.RegsOnly (d.injShown n) := .trans (.setF ..) (.trans (.setF ..) (.trans (.setF ..) (.setF ..)))
  refine ⟨?_, ?_, hregs.mem⟩
  · rw [Dev.injShown, Dev.f_setF_apart _ _ rfl, Dev.inc, Dev.f_setF_apart _ _ rfl, Dev.setB, Dev.f_setF_apart _ _ rfl, Dev.f_setF_same _ _ _ _ (by decide)]
    exact Nat.mod_eq_of_lt (codeOf_lt _ _)
  · rw [Dev.injShown, Dev.on_setF_apart _ _ rfl, Dev.inc, Dev.on_setF_apart _ _ rfl, Dev.on_setB_same _ _ _ _ rfl (by decide)]

/-! Captures (09 R215) -/

theorem Dev.cap_setCap_same (d : Dev) (n : Nat) (x : Cap) : (d.setCap n x).cap n = x := Table.get_put_same _ _ _ _

theorem Dev.reg_setCap (d : Dev) (n : Nat) (x : Cap) (a : Nat) : (d.setCap n x).reg a = d.reg a := rfl

theorem Dev.mem_setCap (d : Dev) (n : Nat) (x : Cap) : (d.setCap n x).mem = d.mem := rfl

theorem Dev.capWritten_none (h : (d.cap n).buffer = []) : d.capWritten n = d := by
  unfold Dev.capWritten
  extract_lets p x
  rw [show x.buffer = [] from h]

theorem Dev.capWritten_eq {r : List Byte} {rest : List (List Byte)} (h : (d.cap n).buffer = r :: rest) : d.capWritten n =
    ((d.putClean (d.r64 (pgCap n) 0x48 + (d.reg (pgCap n + 0x58)).toNat) r).setReg (pgCap n + 0x58)
      (BitVec.ofNat 32 (((d.reg (pgCap n + 0x58)).toNat + r.length) %
        2 ^ (d.putClean (d.r64 (pgCap n) 0x48 + (d.reg (pgCap n + 0x58)).toNat) r).f (pgCap n) ⟨0x50, 0, 5⟩))).setCap n { d.cap n with buffer := rest } := by
  unfold Dev.capWritten
  extract_lets p x
  rw [show x.buffer = r :: rest from h]

end

end Sys2Proof.Machine

namespace Sys2Proof.Claims
open Sys2Proof.Machine

theorem peepholeJudges : PeepholeJudges := by
  intro s m hclk d p x
  have hexecd : exec (.monitorDelivery m) s = s.clocked fun d => d.monDelivery m := rfl
  have hexecu : exec (.modelStateUpdate m) s = s.clocked fun d => d.monUpdate m := rfl
  have hexecj : exec (.residualJudge m) s = s.clocked fun d => d.monJudge m := rfl
  have hexecv : exec (.peepholeVtrip m) s = s.clocked fun d => d.monVtrip m := rfl
  refine ⟨fun harr => ?_, fun y t rest harr hlive hbasic hsteps => ⟨fun hsoon => ?_, fun hlast => ?_⟩, fun t v rest hsteps hdue hlive => ?_, fun hsteps => ?_,
    fun r yhat u t rest hj hdue hlive hexpert hprev => ⟨fun hcur => ?_, fun v hcur hfinal hlo hhi => ?_⟩, fun hj => ?_, fun t v hv hdue => ?_, fun hv => ?_⟩
  · exact does_of_clocked hclk hexecd (Dev.monDelivery_none harr)
  · obtain ⟨u, hlast, hsoon⟩ := hsoon
    exact does_of_clocked hclk hexecd (Dev.monDelivery_skips harr hlive hbasic hsteps hlast hsoon)
  · refine gives_of_clocked hclk hexecd (Dev.monDelivery_takes harr hlive hbasic hsteps hlast) ?_
    rw [Dev.mon_setMon_same]
    exact ⟨rfl, rfl, rfl, rfl, rfl, rfl⟩
  · exact does_of_clocked hclk hexecu (Dev.monUpdate_due hsteps hdue hlive)
  · refine does_of_clocked hclk hexecu (Dev.monUpdate_idle fun q hq => ?_)
    rw [show (d.mon m).steps = [] from hsteps] at hq
    cases hq
  · exact does_of_clocked hclk hexecj (Dev.monJudge_outside hj hdue hlive hexpert hprev hcur)
  · obtain ⟨hjudges, hcur', hmem, hflag⟩ := (d.residualShown m r u).monJudged_says m { d.mon m with judges := rest, cur := some (d.windowTakes m r v) }
      (d.windowHot m r v)
    exact gives_of_clocked hclk hexecj (Dev.monJudge_inside hj hdue hlive hexpert hprev hcur hlo hhi) ⟨hjudges, hcur', hmem, hflag⟩
  · exact does_of_clocked hclk hexecj (Dev.monJudge_none hj)
  · exact does_of_clocked hclk hexecv (Dev.monVtrip_due hv hdue)
  · exact does_of_clocked hclk hexecv (Dev.monVtrip_none hv)

theorem injectionAndCapture : InjectionAndCapture := by
  intro s n hclk d p
  have hexeci : exec (.injectionUpdate n) s = s.clocked fun d => d.injUpdate n := rfl
  have hexecc : exec (.captureWriteDone n) s = s.clocked fun d => d.capWritten n := rfl
  refine ⟨fun u hnext hearly => ?_, fun u hnext hdue hlive hends => ?_, fun u hnext hdue hlive hends => ?_, fun hnone => ?_, fun r rest hbuf => ?_⟩
  · exact does_of_clocked hclk hexeci (Dev.injUpdate_early hnext hearly)
  · exact gives_of_clocked hclk hexeci (Dev.injUpdate_ends hnext hdue hlive hends) Dev.injEnded_says
  · obtain ⟨hafter, hk⟩ := Dev.injNext_says hnext
    obtain ⟨hvalue, hrunning, hmem⟩ := Dev.injShown_says (d := d) (n := n)
    refine gives_of_clocked hclk hexeci (Dev.injUpdate_steps hnext hdue hlive hends) ?_
    obtain ⟨e, he⟩ : ∃ e, e = d.injShown n := ⟨_, rfl⟩
    rw [← he] at hvalue hrunning hmem ⊢
    rw [Dev.inj_setInj_same]
    exact ⟨hafter, hk, hvalue, hrunning, hmem⟩
  · exact does_of_clocked hclk hexecc (Dev.capWritten_none hnone)
  · obtain ⟨e, he⟩ : ∃ e, e = d.putClean (d.r64 (pgCap n) 0x48 + (d.reg (pgCap n + 0x58)).toNat) r := ⟨_, rfl⟩
    have hregs : e.regs = d.regs := he ▸ (Dev.MemoryKeeps.putClean d _ r).regs
    have hwritten := Dev.capWritten_eq hbuf
    rw [← he, Dev.f_of_regs hregs] at hwritten
    refine gives_of_clocked hclk hexecc hwritten ?_
    rw [← he]
    rw [Dev.cap_setCap_same, Dev.mem_setCap, Dev.setReg_mem, Dev.reg_setCap, Dev.reg_setReg_same]
    exact ⟨rfl, rfl, rfl⟩

/-- Settles O23: monitors, test signals and captures, each command by its cases. -/
theorem peepholes : Obligations.Peepholes := ⟨peepholeJudges, injectionAndCapture⟩

end Sys2Proof.Claims
end
